-- ==== Sys2Proof/Word.lean ====
section
/-! DEFINITION. The word types of the register space and of byte memories (R13, R39, R42). -/
namespace Sys2Proof

/-- A register word: 32 bits, bit 0 the least significant (R13). -/
abbrev W32 := BitVec 32

/-- One byte of an addressed memory or of a frame. -/
abbrev Byte := BitVec 8

end Sys2Proof
end

