-- ==== Sys2Proof/Syntax.lean ====
section
/-! DEFINITION. The commands the device takes: one constructor per row of spec/opcode_table.json (those with
operands first, then those without, each group in the table's order), each
with the operands the row's rule gives it. What the world outside supplies (bytes on the link, converter codes, measured times,
which self-test failed) is an operand; what the device itself decides is not. -/
namespace Sys2Proof

/-- Who makes a register access (R41, R43, R52): direct host access, a DMA channel, mesh remote access, the start sequencer. -/
inductive Req where
  | host
  | dma (n : Fin 16)
  | mesh
  | boot
  deriving DecidableEq, Repr

/-- What the off-line test of one modulator measures (R103), each deviation from its shim in ppm of full scale or of the gain. -/
structure OffLine where
  offset : Int
  rms : Nat
  gainPos : Int
  gainNeg : Int
  guards : Nat
  deriving DecidableEq, Repr

/-- What a rotating test slot measures (R101, R102): the 16 differences of the forward and of the return shadow comparison in
ppm of full scale, the off-line test, and the step in which an overload, a run-guard event or a disable touched it (R105). -/
structure SlotRun where
  forward : List Int
  offline : OffLine
  back : List Int
  touched : Option Nat
  deriving DecidableEq, Repr

/-- What the tracker takes from one enabled reference at an evaluation (R124 to R126): a cycle completed, its period in 2^-30
input samples, whether either of its half cycles was low, a low half cycle since the last evaluation, and the time from output
sample 0 to its last crossing in 2^-30 input samples. -/
structure RefMeas where
  cycle : Bool
  period : Nat
  lowCycle : Bool
  lowHalf : Bool
  ek : Int
  deriving DecidableEq, Repr

/-- What a scrub finds in the sector it reads (R484): nothing; a word whose weak bit is programmed again, and whether the word holds
then; a bit of a free ream that reads 0 at the erase margin; a record whose CRC fails at normal read. -/
inductive ScrubFound where
  | clean
  | weak (holds : Bool)
  | unerased
  | badRecord (stream : Fin 8) (seq : Nat)
  deriving DecidableEq, Repr

/-- What PLC's receiver takes from the line for one frame (R430 to R433): the 32 header bits of the combined copies; the payload
after decoding, none where a block is uncorrectable; the phase decoded (3 combined), the SNR in 0.5 dB, erased symbols, corrected
bytes, the gain step; the preamble SNR and the noise-probe level by phase. -/
structure PlcRx where
  header : W32
  payload : Option (List Byte)
  phase : Nat
  snr : Int
  erased : Nat
  corrected : Nat
  gain : Nat
  phSnr : List Int
  noise : List Nat
  deriving DecidableEq, Repr

/-- What the hardware answers at a start (R554 to R562): the reference passes its check, with the edges counted and the start time in
µs; the PLL locks; the memory and felt port tests pass; the first step that hangs until the 2 s limit (0 none); the die
temperature in 1/16 °C; the results of the AFE start-up test and of the lane test; whether PFW_N is low at the release; and the times from the
release of reset to step 7 and to RUN in 0.1 ms. -/
structure StartOutcome where
  xo : Bool
  count : Nat
  xoUs : Nat
  pll : Bool
  sram : Bool
  felt : Bool
  hang : Nat
  temp : Int
  afe : List OffLine
  lanes : List Bool
  warn : Bool
  released : Nat
  run : Nat
  deriving DecidableEq, Repr

/-- The commands. -/
inductive Instr where
  /-- R58. Quad-SPI READ of COUNT words from an aligned start address, with the refusal checks taken in order. -/
  | read (addr : W32) (count : Nat) (crc : Nat)
  /-- R58. Quad-SPI WRITE, buffered and performed in ascending address order once its CRC verifies. -/
  | write (addr : W32) (count : Nat) (words : List W32) (crc : Nat)
  /-- R63. Quad-SPI PUSH of one frame to a host-to-device ring, judged by the ordered frame checks. -/
  | push (ring : Byte) (bytes : List Byte)
  /-- R67. Quad-SPI PULL frees the acknowledged frames and returns up to COUNT held frames of a device-to-host ring. -/
  | pull (ring : Byte) (ackSeq : Nat) (flags : Byte) (count : Nat)
  /-- R56. An unknown first byte records 0x0008, and the device leaves IO0-IO3 undriven until CS_N rises. -/
  | unknownCommandByte (b : Byte)
  /-- R59. CS_N rises before a transaction is complete; a WRITE performs nothing, a PUSH frame is discarded, and 0x001A is recorded. -/
  | transactionEndedEarly (cmd : Byte) (got : List Byte)
  /-- R57. The fabric has not granted the access within 4 us of the turnaround, so the device answers 0xE1 with status 0x001B and performs nothing. -/
  | fabricWaitTimeout (cmd : Byte)
  /-- R68. When a slot frees in a device-to-host ring that lost records, the device writes a TYPE 0xFE marker counting them. -/
  | lostMarker (n : Fin 65)
  /-- R75. A frame held in an enabled device-to-host ring grows older than RING_IRQ.TIMEOUT and drives IRQ_N low. -/
  | ringAgeTimeout (n : Fin 65)
  /-- R49. A write to a register field that has no row of its own, subject to the access code, the range checks and the enable conditions of its block. -/
  | registerWrite (req : Req) (priv : Bool) (addr : Nat) (val : W32)
  /-- R46. A write setting CTRL.SRST starts the soft reset of one block, unless that block refuses it. -/
  | softReset (req : Req) (priv : Bool) (page : Nat)
  /-- R45. A block's soft reset completes within 64 fabric cycles; SRST clears and the held writes are applied. -/
  | softResetDone (page : Nat)
  /-- R47. Writing one to IRQ_PEND bits clears them, except a bit that hardware sets in the same cycle. -/
  | irqPendClear (page : Nat) (mask : W32) (hw : W32)
  /-- R48. Writing 0xFFFF to ERRCODE clears it, except where an error is recorded in the same cycle. -/
  | errcodeClear (page : Nat) (same : Nat)
  /-- R48. Writing 0x00 to an EVCNT byte clears that counter; other byte values leave it unchanged. -/
  | evcntWrite (page : Nat) (m : Fin 8) (val : W32) (hw : Nat)
  /-- R43. A read of the low word of a 64-bit register captures both halves into the requester's read shadow. -/
  | read64Low (req : Req) (priv : Bool) (addr : Nat)
  /-- R43. A write of the low word of a 64-bit register is held in the requester's write shadow. -/
  | write64Low (req : Req) (addr : Nat) (val : W32)
  /-- R43. A write of the high word commits both halves when the matching low word is held, and is refused with 0x0005 otherwise. -/
  | write64High (req : Req) (addr : Nat) (val : W32)
  /-- R51. A change of the SEAL_EN pin, synchronised within 4 fabric cycles; SEAL_EN going low closes the privileged view and the seal session. -/
  | sealEnChange (level : Bool)
  /-- R96. A write to AFE.CH_EN enables or disables channels bit by bit and refuses unavailable sources with 0x0020. -/
  | chEnWrite (req : Req) (hi : Bool) (val : W32)
  /-- R99. The start-up test of all 72 modulators completes; results are stored, TEST_DONE is raised and pending channel enables take effect. -/
  | afeStartTestDone (results : List OffLine)
  /-- R101. Every PERIOD ms a group runs a rotating test slot in which the spare shadows, then stands in for, the modulator under test while it is tested off line. -/
  | testSlot (g : Fin 8) (run : SlotRun)
  /-- R105. After an abandoned off-line test, the return comparison repeats every 250 us until one passes without overload. -/
  | returnCompareRetry (g : Fin 8) (back : List Int) (overload : Bool)
  /-- R87. A modulator output holds one value for 48 clocks, and the guard resets its integrators and counts a guard event. -/
  | runGuard (m : Fin 72)
  /-- R107. A saturation, density or bias monitor fires on an internal modulator or a bitstream input. -/
  | monitorAlarm (stream : Fin 88) (bias : Bool)
  /-- R109. The spare's stream has been judged over 256 bits after settling; the result is OVERLOAD or a failed modulator with the spare taking its channel. -/
  | spareCheckVerdict (g : Fin 8) (spareAlarms : Bool)
  /-- R108. A stream in alarm satisfies every monitor for 256 consecutive bits, and its alarm or invalid marking clears. -/
  | streamAlarmClear (stream : Fin 88)
  /-- R125. Once per half cycle of the active reference, or every 10 ms without crossings, the tracker evaluates lock, outliers, holdover and reference switches. -/
  | trackerEvaluation (meas : List RefMeas) (silent : Nat)
  /-- R123. After the first 1,024 HB2 samples of an integrating channel, the DC blocker is preloaded with their mean. -/
  | integratorPreload (c : Fin 64) (mean : Int)
  /-- R137. MTR asks DEC to replay a lane's channels from a snapshot; the request is served, queued or refused. -/
  | replayRequest (already : Nat) (toCome : Nat)
  /-- R170. The replay catches up with the live chain, and the lane takes channel m's samples from the replay. -/
  | replayCatchUp (already : Nat) (toCome : Nat) (pause : Nat)
  /-- R174. A lane hands over a batch; the result gate accepts it only with the current epoch and the next expected key. -/
  | resultHandover (slot : Fin 16) (epoch : Nat) (cycle : Nat) (batch : Nat)
  /-- R144. A batch is not complete at 50 % of its period, which is a lane failure. -/
  | batchDeadline (slot : Fin 16)
  /-- R167. A lane suffers an uncorrectable ECC error or a trap; MTR fails it and dovetails its slot to a free spare. -/
  | laneFault (lane : Fin 18)
  /-- R166. An auditing spare finishes reprocessing a batch and compares its results bit for bit with the lane's. -/
  | auditCompare (i : Fin 2) (same : Bool)
  /-- R166. The 20 us self-tests after an audit mismatch complete, and the outcome table decides what is published and which unit fails. -/
  | auditSelfTestDone (i : Fin 2) (laneOk : Bool) (auditorOk : Bool)
  /-- R164. The built-in self-test of all 18 lanes completes and spares are assigned to failed lanes. -/
  | mtrStartTestDone (passed : List Bool)
  /-- R161. A read of MTR[k].QSTAT freezes that outlet's quantity registers for the reading requester. -/
  | qstatRead (req : Req) (k : Fin 12)
  /-- R194. A read of MTR[k].SNAP_SEQ freezes that outlet's snapshot registers for the reading requester. -/
  | snapSeqRead (req : Req) (k : Fin 12)
  /-- R182. A write to MTR[k].CTRL.ENABLE starts or stops metering of an outlet, subject to its refusal conditions. -/
  | mtrEnableWrite (req : Req) (k : Fin 12) (en : Bool)
  /-- R193. A couch completes; snapshots, the couch journal and every consumer waiting for committed totals proceed. -/
  | couchComplete (time : Nat)
  /-- R203. The wait end t_w is reached, 40 ms after the warning or a half cycle after the last open confirmation. -/
  | pfWaitEnd (timeout : Bool)
  /-- R212. An idle pulse stage with a pending pulse starts it at a sample instant, at least 500 us after the last start. -/
  | pulseStart (n : Fin 16)
  /-- R213. A pulse ends after WIDTH, or after half the interval between starts. -/
  | pulseEnd (n : Fin 16)
  /-- R216. Setting STG[n].CFG.EN clears the stage's accumulator, remainder and counters, and it counts from the next batch. -/
  | plsStageEnable (n : Fin 16)
  /-- R226. Every 4 ms CAL measures the die temperature, updates T and decides any new band. -/
  | tempMeasurement (reading : Int)
  /-- R231. A write to CAL.SHIM_DATA in jig mode updates the selected pending shim word and sets CALIBRATED. -/
  | shimWrite (req : Req) (priv : Bool) (val : W32)
  /-- R232. JIG_CMD OP OFFSET measures the channel's mean over CYCLES usable cycles into the pending OFFSET. -/
  | jigOffset (ch : Fin 64) (cycles : Nat)
  /-- R232. JIG_CMD OP GAIN sets the pending SCALE from a reference signal of known rms. -/
  | jigGain (ch : Fin 64) (volt : Bool) (cycles : Nat)
  /-- R232. JIG_CMD OP PHASE corrects the pending DELAY from a reference angle between two channels. -/
  | jigPhase (ch : Fin 64) (refCh : Fin 64) (cycles : Nat)
  /-- R232. JIG_CMD OP REF captures G_REF and TAU_REF by the background window arithmetic. -/
  | jigRef (ch : Fin 64) (cycles : Nat)
  /-- R232. JIG_CMD OP FILL copies the latched band's entry into every band not CALIBRATED for the channel. -/
  | jigFill (ch : Fin 64)
  /-- R266. Setting CAP_CTRL.ARM empties the capture history and starts filling it at the next cycle boundary. -/
  | captureArm (arm : Bool)
  /-- R274. A high or low burst of four AUX conversions completes and its trimmed mean gives a plateau value. -/
  | pilotBurst (k : Fin 12) (high : Bool) (codes : List Nat)
  /-- R273. A monitor converter conversion completes; window comparators, proximity, weld voltage and protective-earth counts update. -/
  | auxConversion (n : Fin 48) (code : Nat)
  /-- R286. 998 us after its rising edge, BAY evaluates outlet k and takes at most one state transition. -/
  | outletEvaluation (k : Fin 12)
  /-- R282. A window of 1,000 pilot periods ends and its flicker count is judged. -/
  | flickerWindowEnd (k : Fin 12)
  /-- R290. The held outlet state code is not valid; the outputs are held low and the outlet goes to FAULT_F. -/
  | invalidStateAlarm (k : Fin 12) (code : Nat)
  /-- R294. MIR_k stays at the open or closed level for MIR_DEB ms, confirming the contactor's state. -/
  | mirrorConfirm (k : Fin 12) (closed : Bool) (us : Nat)
  /-- R289. T_CLOSE or T_OPEN elapses without mirror confirmation. -/
  | contactorTimeout (k : Fin 12)
  /-- R296. No cause is known 10 ms after outputs went low without a BAY command, so the cause becomes MIRROR. -/
  | causeWaitTimeout (k : Fin 12)
  /-- R293. In AUX_MODE 2, CON_A_k goes high AUX_DELAY ms after the mirror confirms closed. -/
  | auxContactorDelay (k : Fin 12)
  /-- R298. WELD_T x 10 ms after the open confirmation, the outlet-side voltage is judged for a weld. -/
  | weldCheck (k : Fin 12)
  /-- R300. LCK_FB_k is stable at the target level for 10 ms, confirming the lock position. -/
  | lockFeedbackConfirm (k : Fin 12) (locked : Bool) (ms : Nat)
  /-- R300. The lock drive pulse of PULSE ms ends. -/
  | lockPulseEnd (k : Fin 12)
  /-- R300. No lock confirmation within PULSE + 100 ms; the drive repeats once after 500 ms, then LOCK fault. -/
  | lockConfirmTimeout (k : Fin 12)
  /-- R287. WITHDRAW_T or F_OPEN_T elapses in WITHDRAWING and the outputs go low. -/
  | withdrawTimeout (k : Fin 12)
  /-- R289. F_HOLD_T elapses in FAULT_F for a retriable fault and the outlet returns to IDLE. -/
  | faultHoldExpiry (k : Fin 12)
  /-- R303. Excess current persists for OC_T1 and the next overcurrent level applies. -/
  | overcurrentTimeout (k : Fin 12)
  /-- R304. OC_GRACE after a decrease of ALLOW ends and the overcurrent threshold drops to the new allowance. -/
  | ocGraceEnd (k : Fin 12)
  /-- R303. QSTAT.VALID stays clear for 1 s while closed, which is a soft violation with cause METER. -/
  | meterLostTimeout (k : Fin 12)
  /-- R285. The pilot pause of t ms ends and PWM resumes at a rising edge. -/
  | pilotPauseEnd (k : Fin 12)
  /-- R306. Outlet command AUTHORISE from the host when AUTH_SRC is 1. -/
  | authorise (k : Fin 12)
  /-- R306. Outlet command STOP clears authorisation and stops an offer or a charge. -/
  | stop (k : Fin 12)
  /-- R306. Outlet command SET_LIMIT sets HOST_LIMIT. -/
  | setLimit (k : Fin 12)
  /-- R285. Outlet command PILOT_PAUSE holds the pilot constant high for t ms. -/
  | pilotPause (k : Fin 12)
  /-- R285. Outlet command ALLOW_CLOSE permits closing under DIG_GATE in the current offer. -/
  | allowClose (k : Fin 12)
  /-- R300. Outlet command LOCK drives the lock actuator to locked. -/
  | lock (k : Fin 12)
  /-- R301. Outlet command UNLOCK drives the lock to unlocked when its conditions hold. -/
  | unlock (k : Fin 12)
  /-- R307. Outlet command RESET_FAULT leaves FAULT_F, TRIPPED or WELDED and releases a trip latch. -/
  | resetFault (k : Fin 12)
  /-- R279. Outlet command DIGITAL switches between the 5 % digital offer and current duty. -/
  | digital (k : Fin 12)
  /-- R292. A write to BAY[k].CTRL.ENABLE enables or disables an outlet controller, subject to its refusals. -/
  | bayEnableWrite (req : Req) (k : Fin 12) (en : Bool)
  /-- R291. A write to BAY[k].LMG_LIMIT is refused when its epoch differs from OEPOCH and applies at the next evaluation otherwise. -/
  | lmgLimitWrite (req : Req) (k : Fin 12) (val : W32)
  /-- R322. Every 16 tap samples RCM evaluates DC and AC residual values and updates each row counter. -/
  | rcmEvaluation (k : Fin 12) (taps : List (Int × Bool))
  /-- R325. 100 us after a decision, RCM reads back the drives and raises PATH_FAULT if either output is still high. -/
  | tripPathCheck (k : Fin 12) (mHigh : Bool) (aHigh : Bool)
  /-- R321. INVALID samples or no tap samples for 2 ms trip the outlet if closed, or make it not ready. -/
  | rcmSignalTimeout (k : Fin 12)
  /-- R328. A residual self-test starts on ST_CMD or on entry to CONNECTED with a stale test, and its timed test-winding sequence runs. -/
  | selftestStart (k : Fin 12)
  /-- R328. After a trip, once DC and AC stay below half every level for 1 s, a self-test starts. -/
  | selftestAfterTrip (k : Fin 12)
  /-- R329. At 900 ms the self-test records its result and writes a SELFTEST event. -/
  | selftestComplete (k : Fin 12)
  /-- R343. Session command IDENTIFY looks up a token key and authorises, refers, refuses or stops. -/
  | identify (k : Fin 12)
  /-- R341. Session command DECIDE ends a referral with a verdict and optionally inserts the key. -/
  | decide (k : Fin 12)
  /-- R345. Session command STOP_SESSION raises the stop cause HOST. -/
  | stopSession (k : Fin 12)
  /-- R355. Session command SIGN_READING produces a METER record from the outlet's next couch. -/
  | signReading (k : Fin 12)
  /-- R344. DECIDE_T elapses in PENDING, answering TIMEOUT and returning to IDLE. -/
  | decideTimeout (k : Fin 12)
  /-- R344. PLUG_T elapses in PREAUTH and the session returns to IDLE. -/
  | plugTimeout (k : Fin 12)
  /-- R344. END_T elapses in ENDING, and the session waits for the next couch to issue its STOP record. -/
  | endTimeout (k : Fin 12)
  /-- R348. A write of TARIFF_W3 stores a staging tariff entry. -/
  | tariffStore (req : Req) (val : W32)
  /-- R365. A decrease is verified when the measured current falls within VERIFY_MA, or when OC_GRACE has elapsed. -/
  | decreaseVerify (k : Fin 12)
  /-- R367. A constraint's measured total exceeds its limit for 2 s outside ramp windows, and LMG cuts its participants. -/
  | lmgOverload (con : Fin 5) (p : Fin 3)
  /-- R367. The total stays within the limit for 10 s and increases are granted again. -/
  | overloadClear (con : Fin 5) (p : Fin 3)
  /-- R384. A host or DMA write to display SRAM changes only TGT, refusing deckle and busy pixels word by word. -/
  | displaySramWrite (req : Req) (addr : Nat) (val : W32)
  /-- R426. LAG after the final extension PLTXEN goes low, TX_DONE is raised and MSH is told. -/
  | txDone (clipped : Bool)
  /-- R433. A received Vileva frame is decoded and either discarded or delivered to MSH with its status. -/
  | rxFrame (rx : PlcRx)
  /-- R433. Carrier sense is asserted on preamble or band energy, or released two symbol times later. -/
  | carrierSenseChange (on : Bool) (preamble : Bool) (noise : List Nat)
  /-- R450. A TENON_REQ is resent after 2 s without answer, up to three times. -/
  | tenonRetry (n : Nat)
  /-- R449. Nothing is heard from a neighbour for NEIGH_TO, and it and every candidate through it become invalid. -/
  | neighbourExpiry (n : Nat)
  /-- R449. A learned route candidate is not refreshed for ROUTE_TO and expires. -/
  | routeExpiry (dest : Nat) (via : Nat)
  /-- R458. A quarantined transmitter's QUAR_S elapses. -/
  | quarantineEnd (n : Nat)
  /-- R454. A poll gets no REPLY within HOP_MS x (PATH_LEN + 1) and counts as a miss. -/
  | pollTimeout (dest : Nat)
  /-- R456. A frame pushed on rings 27-30 is sent as a USER section to its destination. -/
  | linkTransmitPush (p : Fin 4)
  /-- R456. No end-to-end acknowledgement arrives within 60 s and TX_RESULT reports 0x0077. -/
  | e2eTimeout (ref : Nat)
  /-- R452. Setting MSH.CTRL.ENABLE increments INC unless the INC limit would be broken. -/
  | mshEnableWrite (req : Req) (en : Bool)
  /-- R469. A 30 us flash program step completes and its word is read back, reprogrammed or the sector retired. -/
  | programStepDone (ok : Bool)
  /-- R469. A 2 ms erase pulse completes and the sector's erase-verify decides another pulse, completion or retirement. -/
  | erasePulseDone (ok : Bool)
  /-- R470. Every 1 ms a deferred flash step is checked again against the supply and hold-up conditions. -/
  | stepDeferCheck (supplyOk : Bool)
  /-- R484. Every SCRUB_MIN minutes NVL scrubs the next written sector. -/
  | scrubTick (found : ScrubFound)
  /-- R467. A write to NVF or NVL PROTECT raises protection, or lowers it only in the privileged view. -/
  | protectWrite (req : Req) (priv : Bool) (nvl : Bool) (val : W32)
  /-- R480. A write to NVL.SIG_ARCH records the archived watermark and refuses a lowering. -/
  | sigArchWrite (req : Req) (val : W32)
  /-- R471. During a power failure with VBAT present, VDD falls through 2.90 V and the backup domain records the hold-up time. -/
  | holdupMeasureEnd (ms : Nat)
  /-- R496. SESS_CMD CHALLENGE latches slot, role and duration and draws a fresh challenge. -/
  | challenge (slot : Nat) (role : Nat)
  /-- R496. SESS_CMD VERIFY starts verification of the signed challenge response. -/
  | verify (slot : Nat) (role : Nat)
  /-- R500. A session or key state code is not valid; the session closes or the key is erased, and ALARM triggers. -/
  | sealInvalidCode (key : Bool) (code : Nat)
  /-- R504. KEY_CMD VK_INSTALL installs a verification key in slot 1 to 3. -/
  | vkInstall (slot : Nat) (roles : Nat)
  /-- R504. KEY_CMD VK_REVOKE empties a verification-key slot. -/
  | vkRevoke (slot : Nat)
  /-- R504. A key operation completes within 400 ms, updating the container and logging it, or fails with 0x00A7. -/
  | keyCmdDone (ok : Bool)
  /-- R510. A write to LOG_REPLAY queues every stored legal log entry from the given LOG_SEQ on ring 38. -/
  | logReplay (req : Req) (val : W32)
  /-- R510. A write to TOTALS_REQ queues full legal totals frames for the named outlets after the next couch. -/
  | totalsReq (req : Req) (val : W32)
  /-- R511. A readout sign-on request is answered with the identification after 200-300 ms. -/
  | optSignOn (address : Option (List Byte))
  /-- R511. The reader's acknowledgement selects the baud rate and readout or query mode. -/
  | optAcknowledge (z : Nat) (y : Nat)
  /-- R513. Query T(k) returns an outlet's totals from the last couch. -/
  | queryT (k : Nat) (bcc : Bool)
  /-- R513. Query L(n) returns a legal log entry. -/
  | queryL (n : Nat) (bcc : Bool)
  /-- R513. Query R(w) returns a signed record by watermark. -/
  | queryR (w : Nat) (bcc : Bool)
  /-- R513. Query K() returns the public key and KEY_ID. -/
  | queryK (bcc : Bool)
  /-- R517. A tamper source triggers; its sticky flag and history entry are set and ERASE or CLOSE responses taken. -/
  | tamperTrigger (src : Fin 13)
  /-- R517. A tamper source clears and a history entry is written. -/
  | tamperClear (src : Fin 13)
  /-- R520. Every 1/1,024 s TAM checks its configuration against the inverted shadow and treats a mismatch as a trigger. -/
  | shadowCheck (bad : List (Nat × Nat))
  /-- R522. Writing one to a TAM.STICKY bit in the privileged view clears it unless still triggered. -/
  | stickyClear (req : Req) (priv : Bool) (mask : W32)
  /-- R528. CH[n].CMD.START runs the descriptor held in the channel registers. -/
  | dmaStart (n : Fin 16)
  /-- R528. CH[n].CMD.LOAD copies a descriptor from SRAM and runs it. -/
  | dmaLoad (n : Fin 16)
  /-- R540. CH[n].CMD.RESUME continues a paused channel from its saved position. -/
  | dmaResume (n : Fin 16)
  /-- R540. CH[n].CMD.ABORT stops a channel and writes an ABORTED frame. -/
  | dmaAbort (n : Fin 16)
  /-- R530. A descriptor's last element completes; a DONE frame is written where due and a chained descriptor loads. -/
  | descriptorComplete (n : Fin 16)
  /-- R534. Every 1 us a waiting channel reads WAIT_ADDR and continues on a match. -/
  | waitPoll (n : Fin 16)
  /-- R534. WAIT_TO passes without a match; the descriptor ends with 0x00B2 and the chain ends. -/
  | waitTimeout (n : Fin 16)
  /-- R539. A channel access is refused by its target, and the engine halts with every channel paused. -/
  | busError (n : Fin 16)
  /-- R540. A write to CH[n].POS0 or POS1 of a paused channel sets the next element position. -/
  | posWrite (req : Req) (n : Fin 16) (pos1 : Bool) (val : W32)
  /-- R554. At the release of reset, the start sequence runs its steps from clocks to RUN or bench mode. -/
  | startSequence (o : StartOutcome)
  /-- R552. FUSE_CMD.PROG ORs FUSE_DATA.NEW into a fuse entry and verifies it within 1 ms. -/
  | fuseProg (verified : Bool)
  /-- R568. CS_N, OPT_RXD, a tamper trigger or a power-fail warning wakes the device from STANDBY. -/
  | standbyWake (src : Fin 4)
  /-- R577. An access to RSRAM_DATA reads or writes a retained SRAM word and advances RSRAM_IDX. -/
  | rsramAccess (req : Req) (write : Option W32)
  /-- R211. The resampler reaches the next output sample instant, and every enabled channel delivers a tagged sample to the lanes, the pulse stages add their share to E and the capture history takes its value. -/
  | outputSample (values : List Int) (w : List Int) (v : List Int)
  /-- R530. A running DMA channel is granted its beats for one element, moves it and advances its loop position and addresses. -/
  | dmaElement (n : Fin 16)
  /-- R300. 500 ms after a lock confirmation timeout, BAY drives the same lock output once more for PULSE ms. -/
  | lockRepeat (k : Fin 12)
  /-- R516. Every 2^RATE periods of 32.768 kHz, an enabled tamper loop drives the next bit of its sequence on TAMP_OUT_j. -/
  | loopBitChange (j : Fin 4)
  /-- R165. A correctable single-bit error occurs in a lane's memory, and ECC corrects it and counts it. -/
  | eccSingleError (lane : Fin 18)
  /-- R60. Quad-SPI SUMMARY command returns the READY and FULL masks, EPOCH, the negotiated version and flags. -/
  | summary
  /-- R70. A tenon request on ring 0 negotiates the Dirok version and resets the host-to-device sequence expectations. -/
  | tenonRequest
  /-- R75. In IRQ_PULSE mode, the 1 us high pulse that marks a new condition ends and IRQ_N goes low again. -/
  | irqPulseEnd
  /-- R131. Sample index 0 opens a new line cycle; CYCLE_CNT increments and every action tied to the boundary applies. -/
  | cycleBoundary
  /-- R227. DEC switches the modulator shim layer to the new band at the CIC output nearest the boundary minus the group delay. -/
  | modLayerSwitch
  /-- R143. The sixteenth sample of a batch arrives; the lane starts the batch and the previous batch's results are published. -/
  | batchReady
  /-- R125. HOLD_LEFT reaches 0 in Holdover; the increment steps to nominal and the tracker enters Free. -/
  | holdoverExpiry
  /-- R135. Every fourth CIC output, DEC takes an exact snapshot of each channel's chain state and keeps the newest four. -/
  | decSnapshot
  /-- R170. At the next CIC boundary after catch-up, DEC loads the replayed state into the live chain and releases the replay engine. -/
  | replayHandover
  /-- R172. 2 us after the replay catches up, the lane resumes taking new samples. -/
  | lanePauseEnd
  /-- R202. PFW_N is low for 1 us or VDD falls through 3.00 V; contactors are held low and the power-fail sequence begins. -/
  | powerFailWarning
  /-- R204. At t_w plus 2.0 ms, every lane processes a closing batch and the final couch and power-fail log entry follow. -/
  | pfCutoff
  /-- R205. The device stops the fabric, lanes, DEC and modulators and holds every ball in its fuse-map state. -/
  | halt
  /-- R206. VDD falls through 2.85 V before the halt, and the seal domain makes a last-chance couch and halts. -/
  | lastChanceCouch
  /-- R234. JIG_CMD OP COMMIT hands the pending set to the seal domain to be written to flash and logged. -/
  | jigCommit
  /-- R232. JIG_CMD OP DISCARD restores the pending set, CFG and the limits from the active set. -/
  | jigDiscard
  /-- R233. A timed jig operation completes or fails; JIG_STAT is updated, JIG_DONE is raised and a JIG report is queued. -/
  | jigOpComplete
  /-- R234. After the shim record is stored and logged, the new set becomes active at the next cycle boundary. -/
  | commitActivate
  /-- R241. A background calibration window ends; each channel gets a verdict and accepted candidates update the corrections. -/
  | bgWindowEnd
  /-- R259. At each half-cycle instant PQE evaluates the feeders' values and starts or ends sag, swell and interruption events. -/
  | pqeInstant
  /-- R267. Writing CAP_CTRL.FORCE triggers a capture now. -/
  | captureForce
  /-- R268. After the last post-trigger cycle PQE freezes the history and begins delivering it. -/
  | captureDeliverStart
  /-- R268. A capture frame enters its ring once a slot is free; after the last frame CAPTURE_DONE is written. -/
  | captureFrame
  /-- R268. Writing CAP_CTRL.ABORT ends a delivery at once without CAPTURE_DONE. -/
  | captureAbort
  /-- R274. A 1.000 ms pilot frame begins and each outlet's pilot period is scheduled. -/
  | pilotFrameStart
  /-- R339. AC_CMD INSERT writes a key into one of its two candidate buckets. -/
  | cacheInsert
  /-- R339. AC_CMD DELETE clears VALID of the matching cache entry. -/
  | cacheDelete
  /-- R338. AC_CMD LOOKUP returns the cache result and loads the matching entry into the registers. -/
  | cacheLookup
  /-- R339. AC_CMD CLEAR empties the whole authorisation cache within 2 ms. -/
  | cacheClear
  /-- R350. Each second, SES charges the time and idle prices of every open session. -/
  | secondTick
  /-- R349. TARIFF_CMD.ACTIVATE checks the staging bank and schedules its activation for the next whole minute. -/
  | tariffActivate
  /-- R349. At the next whole local minute the staging bank is copied to the active bank and TARIFF_ID updates. -/
  | tariffSwitch
  /-- R358. TARIFF_CMD.COPY copies the active bank into the staging bank. -/
  | tariffCopy
  /-- R355. At each whole multiple of METER_PERIOD minutes, a METER record is produced from the next couch. -/
  | meterPeriodDue
  /-- R354. Every PROGRESS_S seconds an unsigned PROGRESS frame of an active session goes to ring 37. -/
  | progressTick
  /-- R353. A record's signature completes; it is staged, the watermark is written, appended, queued and marked delivered. -/
  | signatureDone
  /-- R353. Every 1 s the seal domain retries a failed append of the undelivered staged record. -/
  | appendRetry
  /-- R363. Every ROUND_MS, or within 10 ms of a change, LMG computes target allocations and writes decreases and fitting increases. -/
  | lmgRound
  /-- R373. The budget lease has FB_LEAD_S left and the member falls back to SAFE. -/
  | leaseFallback
  /-- R375. The master's HOLD of LEASE_S + GUARD_MS after start ends. -/
  | masterHoldEnd
  /-- R368. SITE_CFG.ACTIVATE checks and locks the post table. -/
  | siteActivate
  /-- R377. SITE_CFG.RELEASE clears SITE_STAT.VALID. -/
  | siteRelease
  /-- R392. Display command UPDATE drives a rectangle from CUR to TGT in a waveform mode. -/
  | update
  /-- R390. Display command FILL sets TGT of a rectangle without drive. -/
  | fill
  /-- R392. Display command BLIND_CLEAR runs the blind clear over the whole panel. -/
  | blindClear
  /-- R387. Display command WF_ACTIVATE waits until no slot runs, then takes the newest qualifying waveform table. -/
  | wfActivate
  /-- R389. A waiting update gets a free slot at a frame boundary after its preparation pass, and ACCEPT is written. -/
  | updateSlotStart
  /-- R381. Every FRAME_US during updates a frame drives every row with its waveform codes. -/
  | epdFrame
  /-- R398. The deckle writer renders new content and starts a deckle update in slot 0. -/
  | deckleUpdateStart
  /-- R402. The panel supplies are enabled in ascending order before the first frame. -/
  | panelPowerOn
  /-- R403. IDLE_MS after the last slot ends, the panel supplies are switched off and discharged. -/
  | panelPowerOff
  /-- R395. DECKLE_CMD.COMMIT checks, logs and stores the deckle layout for the next start. -/
  | deckleLayoutCommit
  /-- R388. TEMP_HOST is not refreshed for 600 s; the die temperature is used and STALE is set. -/
  | tempHostStale
  /-- R424. MSH requests a transmission, which starts after any transmission in progress. -/
  | plcTxRequest
  /-- R446. Every HELLO_S seconds with jitter, or on a large COST_M change, the node broadcasts a HELLO. -/
  | helloTimer
  /-- R446. A received HELLO updates the neighbour entry, master adoption and routes. -/
  | hello
  /-- R452. A received ACK completes a unicast attempt as clean and updates DR and the rung. -/
  | ack
  /-- R442. 2 ms after a frame with ACKREQ ends, the receiver sends its ACK without carrier sense. -/
  | ackSend
  /-- R452. No ACK arrives in time; the attempt fails and the frame is retried, rerouted or dropped. -/
  | ackTimeout
  /-- R450. A received link TENON_REQ is answered with the chosen protocol version. -/
  | tenonReq
  /-- R450. A received TENON_RSP completes the link's tenon exchange. -/
  | tenonRsp
  /-- R458. A received DATA frame is judged, acknowledged and delivered or forwarded section by section. -/
  | data
  /-- R455. A received POLL delivers its budget and requests, and the slave answers with one REPLY. -/
  | poll
  /-- R455. A received REPLY updates the poll entry, its path and the master's report table. -/
  | reply
  /-- R448. The backoff countdown after carrier release reaches zero and the frame is transmitted. -/
  | backoffExpiry
  /-- R440. No conflicting master HELLO is heard for NEIGH_TO, and the higher-address master resumes polling. -/
  | roleConflictClear
  /-- R453. Setting POLL_CTRL.RUN checks the poll list and starts master polling cycles. -/
  | pollRun
  /-- R454. The master sends the next visited poll entry's POLL while fewer than WINDOW are outstanding. -/
  | pollSend
  /-- R455. A slave not polled for POLL_LOSS_S, or with a new master route, sends a REPLY with UNSOL set. -/
  | unsolicitedReply
  /-- R457. Ring 35 command REMOTE_READ reads registers on a remote post. -/
  | remoteRead
  /-- R457. Ring 35 command REMOTE_WRITE writes registers on a remote post. -/
  | remoteWrite
  /-- R481. Storage command FELT_READ reads felt store bytes to SRAM or inline. -/
  | feltRead
  /-- R481. Storage command FELT_WRITE writes bytes of the felt user area. -/
  | feltWrite
  /-- R476. Storage command APPEND writes a record to a host stream and completes after commit. -/
  | append
  /-- R481. Storage command REAM_READ returns a stored record by stream and SEQ. -/
  | reamRead
  /-- R481. Storage command STREAM_TRIM erases a host stream's oldest ream. -/
  | streamTrim
  /-- R481. Storage command IMG_ERASE erases a waveform table copy. -/
  | imgErase
  /-- R481. Storage command IMG_WRITE programs and verifies part of a waveform table copy. -/
  | imgWrite
  /-- R481. Storage command IMG_READ reads part of a waveform table copy. -/
  | imgRead
  /-- R470. A step deferred longer than STEP_WAIT fails its command with 0x0091. -/
  | stepWaitTimeout
  /-- R468. NVL.CFG_CMD.STORE captures the configuration registers and writes the configuration record. -/
  | store
  /-- R471. HOLDUP_CFG.MEAS_CLR discards the hold-up measurement. -/
  | measClr
  /-- R497. Verification completes; the session opens or the failure is counted toward lockout. -/
  | verifyDone
  /-- R498. SESS_CMD CLOSE closes the seal session. -/
  | close
  /-- R499. SESS_CMD JIG_ENTER enters jig mode in a JIG session when no outlet or session is active. -/
  | jigEnter
  /-- R500. SESS_CMD JIG_LEAVE ends jig mode and restores the pending shim set if uncommitted. -/
  | jigLeave
  /-- R496. A challenge is not verified within 60 s and lapses. -/
  | challengeExpiry
  /-- R498. DURATION_S of an open seal session ends and the session closes. -/
  | sessionExpiry
  /-- R497. A seal-session lockout ends and CHALLENGE is accepted again. -/
  | lockoutEnd
  /-- R504. KEY_CMD KEYGEN draws a new KEK and signing key and stores the container. -/
  | keygen
  /-- R511. 1.5 s of silence returns the readout port to sign-on. -/
  | optSilenceTimeout
  /-- R513. SOH B0 ETX BCC ends query mode. -/
  | queryEnd
  /-- R513. 120 s without a request ends query mode. -/
  | queryTimeout
  /-- R519. An unreported history entry produces a TAMPER log entry and a report on ring 49. -/
  | tamperReport
  /-- R516. Every 60 s with VDD present, each tamper loop sequence is reseeded. -/
  | loopReseed
  /-- R540. Writing one to HALT.HALTED clears the engine halt, leaving channels paused. -/
  | haltClear
  /-- R545. VDD stays above 3.05 V for 2 ms, the main domain leaves power-on reset and a start begins. -/
  | powerOn
  /-- R545. VDD falls below 2.65 V and the main domain enters power-on reset. -/
  | powerOnReset
  /-- R545. VDD or VBAT rises after both were below 1.60 V, resetting BKP and TAM and setting BKP_LOST. -/
  | backupPowerOn
  /-- R546. RESET_N low for 1 us resets the main domain after any felt write or flash step in progress. -/
  | pinReset
  /-- R555. RUN or BENCH is not reached 2 s after release, which is a TIMEOUT failure. -/
  | startTimeout
  /-- R552. FUSE_CMD.LOCK sets the LOCK bit and ends all fuse programming. -/
  | fuseLock
  /-- R564. SYS.BENCH_RELEASE sets RELEASE so the next reset starts normally. -/
  | benchRelease
  /-- R569. RST.PWR_CMD.STANDBY stops the PLL and fabric when every block is disabled. -/
  | standby
  /-- R566. No reference edge for 122 us drives contactor and pilot outputs inactive, sets REF_FAIL and halts. -/
  | referenceLost
  /-- R567. The 32.768 kHz crystal is silent for 1 ms; the timestamp switches to the reference and XO32_FAIL is set. -/
  | xo32Fail
  /-- R571. BKP.TIME_CMD.SET loads the timestamp counter from TIME_NEW and sets TIME_SET. -/
  | timeSet
  deriving DecidableEq, Repr

end Sys2Proof
end

