-- ==== Sys2Proof/Machine/Bits.lean ====
section
/-! DEFINITION. Bit fields of a register word, little-endian bytes, and the two CRCs of R62. -/
namespace Sys2Proof.Machine

/-- The field of width `wid` whose lowest bit is `lsb`, as a number. -/
def getBits (w : W32) (lsb wid : Nat) : Nat := (w.toNat >>> lsb) % 2 ^ wid

/-- The word with that field replaced by `v` (modulo its width). -/
def putBits (w : W32) (lsb wid v : Nat) : W32 :=
  BitVec.ofNat 32 (w.toNat - getBits w lsb wid * 2 ^ lsb + v % 2 ^ wid * 2 ^ lsb)

/-- Signed reading of a field of width `wid`. -/
def signedOf (wid v : Nat) : Int := if 2 * v < 2 ^ wid then (v : Int) else (v : Int) - (2 : Int) ^ wid

/-- Two's complement of width `wid`. -/
def unsignedOf (wid : Nat) (v : Int) : Nat := (v % (2 : Int) ^ wid).toNat

/-- The `n` lowest bytes of a number, lowest first (R14). -/
def le : Nat → Nat → List Byte
  | 0, _ => []
  | n + 1, v => BitVec.ofNat 8 v :: le n (v / 256)

/-- The number that little-endian bytes spell (R14). -/
def ofLe : List Byte → Nat
  | [] => 0
  | b :: bs => b.toNat + 256 * ofLe bs

/-- The number that big-endian bytes spell. -/
def ofBe (bs : List Byte) : Nat := ofLe bs.reverse

/-- Big-endian bytes. -/
def be (n v : Nat) : List Byte := (le n v).reverse

/-- The little-endian number in `n` bytes of a list from position `i`; missing bytes read zero. -/
def fieldLe (bs : List Byte) (i n : Nat) : Nat := ofLe ((bs.drop i).take n)

/-- Is bit `i` of a mask set? -/
def bit (m i : Nat) : Bool := m.testBit i

/-- The mask with bit `i` set or cleared. -/
def setBit (m i : Nat) (b : Bool) : Nat :=
  if m.testBit i = b then m else if b then m + 2 ^ i else m - 2 ^ i

/-- The mask of the listed positions (from bit 0) that hold `true`. -/
def maskOf : List Bool → Nat
  | [] => 0
  | b :: bs => b.toNat + 2 * maskOf bs

/-- One bit of CRC-16, polynomial 0x1021, not reflected (R62). -/
def crc16Bit (c : Nat) (b : Bool) : Nat :=
  let top := (c.testBit 15) != b
  let c' := (c * 2) % 65536
  if top then Nat.xor c' 0x1021 else c'

/-- One byte of CRC-16, most significant bit first. -/
def crc16Byte (c : Nat) (x : Byte) : Nat :=
  [7, 6, 5, 4, 3, 2, 1, 0].foldl (fun c i => crc16Bit c (x.toNat.testBit i)) c

/-- CRC-16 of R62: initial value 0xFFFF, no final XOR. -/
def crc16 (bs : List Byte) : Nat := bs.foldl crc16Byte 0xFFFF

/-- One reflected bit step of CRC-32 (R62). -/
def crc32Bit (c : Nat) : Nat := if c % 2 = 1 then Nat.xor (c / 2) 0xEDB88320 else c / 2

/-- One byte of CRC-32, polynomial 0x04C1_1DB7 reflected. -/
def crc32Byte (c : Nat) (x : Byte) : Nat :=
  [0, 1, 2, 3, 4, 5, 6, 7].foldl (fun c _ => crc32Bit c) (Nat.xor c x.toNat)

/-- CRC-32 of R62: reflected, initial value and final XOR 0xFFFF_FFFF. -/
def crc32 (bs : List Byte) : Nat := Nat.xor (bs.foldl crc32Byte 0xFFFFFFFF) 0xFFFFFFFF

/-- Saturating increment. -/
def satInc (mx v : Nat) : Nat := if v < mx then v + 1 else mx

end Sys2Proof.Machine
end

