-- ==== Sys2Proof/Machine/Fields.lean ====
section
/-! DEFINITION. Descriptors of the register fields the meanings use: offset in the register space, lowest bit and width, as the
register map rules of the block chapters give them (F for a field, A for a whole register). -/
namespace Sys2Proof.Machine

/-- A field of a register: the register's offset, the field's lowest bit and its width. -/
structure Fld where
  addr : Nat
  lsb : Nat
  wid : Nat
  deriving DecidableEq, Repr

def A.AFE_BSI_CFG_HI : Nat := 0x10114
def A.AFE_BSI_CFG_LO : Nat := 0x10110
def A.AFE_BSI_STAT : Nat := 0x1011C
def A.AFE_CH_CFG (i : Nat) : Nat := 0x10200 + 4 * i
def A.AFE_CH_EN_HI : Nat := 0x10104
def A.AFE_CH_EN_LO : Nat := 0x10100
def A.AFE_INJ_CFG : Nat := 0x1010C
def A.AFE_MCLK_CFG : Nat := 0x10118
def A.AFE_MOD_FAIL_LO : Nat := 0x10120
def A.AFE_SPARE_FAIL : Nat := 0x10128
def A.AFE_SPARE_MAP : Nat := 0x1012C
def A.AFE_TEST_CFG : Nat := 0x10108
def A.AFE_TEST_STAT : Nat := 0x10130
def A.AUX_CONV_CNT : Nat := 0x18110
def A.AUX_WIN_EN_LO : Nat := 0x18100
def A.AUX_WIN_STAT_LO : Nat := 0x18108
def A.BAYK_EDGE_TS_LO (k : Nat) : Nat := 0x3013C + 4096 * k
def A.BAYK_PILOT (k : Nat) : Nat := 0x30124 + 4096 * k
def A.BAYK_VIOL (k : Nat) : Nat := 0x30144 + 4096 * k
def A.BAY_FRAME_CNT : Nat := 0x16130
def A.BAY_STATE (i : Nat) : Nat := 0x16120 + 4 * i
def A.BAY_TH_HI : Nat := 0x16100
def A.BAY_TH_LO : Nat := 0x16108
def A.BAY_TH_MID : Nat := 0x16104
def A.BKP_RSRAM_DATA : Nat := 0x3120
def A.BKP_TIME_NEW_HI : Nat := 0x310C
def A.BKP_TIME_NEW_LO : Nat := 0x3108
def A.CAL_BG_DELAY (i : Nat) : Nat := 0x13204 + 16 * i
def A.CAL_BG_GAIN (i : Nat) : Nat := 0x13200 + 16 * i
def A.CAL_BG_QUAL_GAIN (i : Nat) : Nat := 0x13208 + 16 * i
def A.CAL_BG_QUAL_PHASE (i : Nat) : Nat := 0x1320C + 16 * i
def A.CAL_CFG : Nat := 0x13100
def A.CAL_CONV_LO : Nat := 0x13128
def A.CAL_FAULT_LO : Nat := 0x13130
def A.CAL_JIG_CMD : Nat := 0x13118
def A.CAL_JIG_RESULT : Nat := 0x13124
def A.CAL_JIG_STAT : Nat := 0x13120
def A.CAL_JIG_TARGET : Nat := 0x1311C
def A.CAL_LIM_GAIN : Nat := 0x13104
def A.CAL_LIM_PHASE : Nat := 0x13108
def A.CAL_SET_ID : Nat := 0x13110
def A.CAL_SET_SEQ : Nat := 0x13114
def A.DEC_CH_CFG (i : Nat) : Nat := 0x11200 + 4 * i
def A.DEC_CLIP_LO : Nat := 0x11120
def A.DEC_REPLAY_STAT : Nat := 0x11130
def A.DEC_SETTLE_LO : Nat := 0x11128
def A.DEC_TRACK_CFG : Nat := 0x11100
def A.DEC_TRACK_REF : Nat := 0x11104
def A.DMA_ACTIVE : Nat := 0x610C
def A.DMA_CUR_DST (i : Nat) : Nat := 0x6618 + 32 * i
def A.DMA_CUR_SRC (i : Nat) : Nat := 0x6614 + 32 * i
def A.DMA_DESC0 (i : Nat) : Nat := 0x6200 + 64 * i
def A.DMA_ERR_ADDR : Nat := 0x6104
def A.DMA_ERR_INFO : Nat := 0x6108
def A.DMA_LOAD_ADDR (i : Nat) : Nat := 0x6604 + 32 * i
def A.DMA_POS0 (i : Nat) : Nat := 0x660C + 32 * i
def A.EPD_BUS : Nat := 0x1E104
def A.EPD_DECKLE_CFG : Nat := 0x1E188
def A.EPD_DECKLE_STAT : Nat := 0x1E190
def A.EPD_DECKLE_WH : Nat := 0x1E184
def A.EPD_DECKLE_XY : Nat := 0x1E180
def A.EPD_FIELD (i : Nat) : Nat := 0x1E1C0 + 4 * i
def A.EPD_FRAME_CNT : Nat := 0x1E12C
def A.EPD_PANEL : Nat := 0x1E100
def A.EPD_PWR_DLY : Nat := 0x1E108
def A.EPD_RES_LIM : Nat := 0x1E118
def A.EPD_TEMP_CFG : Nat := 0x1E10C
def A.EPD_TEMP_HOST : Nat := 0x1E110
def A.EPD_TEMP_STAT : Nat := 0x1E114
def A.EPD_WF_ID : Nat := 0x1E120
def A.HLKR_RING_CFG (i : Nat) : Nat := 0x5100 + 16 * i
def A.HLK_HOST_CAPS : Nat := 0x4108
def A.HLK_RING_IRQ_EN_LO : Nat := 0x4130
def A.LMG_CFG : Nat := 0x1A100
def A.MSH_REMOTE_TOKEN : Nat := 0x1D134
def A.MSH_REMOTE_WMASK_LO : Nat := 0x1D138
def A.MTRK_AGG_I (k : Nat) (i : Nat) : Nat := 0x20204 + 4096 * k + 16 * i
def A.MTRK_AGG_P (k : Nat) (i : Nat) : Nat := 0x20208 + 4096 * k + 16 * i
def A.MTRK_AGG_P_SUM (k : Nat) : Nat := 0x20230 + 4096 * k
def A.MTRK_AGG_Q (k : Nat) (i : Nat) : Nat := 0x2020C + 4096 * k + 16 * i
def A.MTRK_AGG_U (k : Nat) (i : Nat) : Nat := 0x20200 + 4096 * k + 16 * i
def A.MTRK_CABLE_R (k : Nat) : Nat := 0x20104 + 4096 * k
def A.MTRK_CFG (k : Nat) : Nat := 0x20100 + 4096 * k
def A.MTRK_DC_I (k : Nat) : Nat := 0x201F0 + 4096 * k
def A.MTRK_DC_LOSS (k : Nat) : Nat := 0x201FC + 4096 * k
def A.MTRK_DC_P (k : Nat) : Nat := 0x201F8 + 4096 * k
def A.MTRK_DC_P_MEAS (k : Nat) : Nat := 0x201F4 + 4096 * k
def A.MTRK_DC_U (k : Nat) : Nat := 0x201EC + 4096 * k
def A.MTRK_DC_U_MEAS (k : Nat) : Nat := 0x201E8 + 4096 * k
def A.MTRK_ESTAT (k : Nat) : Nat := 0x20308 + 4096 * k
def A.MTRK_I_N (k : Nat) : Nat := 0x201E4 + 4096 * k
def A.MTRK_I_RES (k : Nat) : Nat := 0x201E0 + 4096 * k
def A.MTRK_PF_SUM (k : Nat) : Nat := 0x201DC + 4096 * k
def A.MTRK_PH_I1 (k : Nat) (i : Nat) : Nat := 0x20128 + 4096 * k + 64 * i
def A.MTRK_PH_I1_FAST (k : Nat) (i : Nat) : Nat := 0x20144 + 4096 * k + 64 * i
def A.MTRK_PH_I_RMS (k : Nat) (i : Nat) : Nat := 0x20114 + 4096 * k + 64 * i
def A.MTRK_PH_P (k : Nat) (i : Nat) : Nat := 0x20118 + 4096 * k + 64 * i
def A.MTRK_PH_P1 (k : Nat) (i : Nat) : Nat := 0x2012C + 4096 * k + 64 * i
def A.MTRK_PH_PF (k : Nat) (i : Nat) : Nat := 0x20138 + 4096 * k + 64 * i
def A.MTRK_PH_PHI1 (k : Nat) (i : Nat) : Nat := 0x20140 + 4096 * k + 64 * i
def A.MTRK_PH_Q1 (k : Nat) (i : Nat) : Nat := 0x20130 + 4096 * k + 64 * i
def A.MTRK_PH_QT (k : Nat) (i : Nat) : Nat := 0x2011C + 4096 * k + 64 * i
def A.MTRK_PH_S (k : Nat) (i : Nat) : Nat := 0x20120 + 4096 * k + 64 * i
def A.MTRK_PH_S1 (k : Nat) (i : Nat) : Nat := 0x20134 + 4096 * k + 64 * i
def A.MTRK_PH_THD (k : Nat) (i : Nat) : Nat := 0x2013C + 4096 * k + 64 * i
def A.MTRK_PH_U1 (k : Nat) (i : Nat) : Nat := 0x20124 + 4096 * k + 64 * i
def A.MTRK_PH_U_RMS (k : Nat) (i : Nat) : Nat := 0x20110 + 4096 * k + 64 * i
def A.MTRK_P_SUM (k : Nat) : Nat := 0x201D0 + 4096 * k
def A.MTRK_QSTAT (k : Nat) : Nat := 0x20108 + 4096 * k
def A.MTRK_Q_SUM (k : Nat) : Nat := 0x201D4 + 4096 * k
def A.MTRK_SNAP_CYCLE (k : Nat) : Nat := 0x2041C + 4096 * k
def A.MTRK_SNAP_NET (k : Nat) : Nat := 0x20418 + 4096 * k
def A.MTRK_SNAP_SEQ (k : Nat) : Nat := 0x20400 + 4096 * k
def A.MTRK_SNAP_VAH (k : Nat) : Nat := 0x20414 + 4096 * k
def A.MTRK_SNAP_VARH_NEG (k : Nat) : Nat := 0x20410 + 4096 * k
def A.MTRK_SNAP_VARH_POS (k : Nat) : Nat := 0x2040C + 4096 * k
def A.MTRK_SNAP_WH_EXP (k : Nat) : Nat := 0x20408 + 4096 * k
def A.MTRK_SNAP_WH_IMP (k : Nat) : Nat := 0x20404 + 4096 * k
def A.MTRK_S_SUM (k : Nat) : Nat := 0x201D8 + 4096 * k
def A.MTR_CFG : Nat := 0x12100
def A.MTR_COUCH_CYC : Nat := 0x12304
def A.MTR_COUCH_SEQ : Nat := 0x12300
def A.MTR_FD_IN (i : Nat) : Nat := 0x1218C + 32 * i
def A.MTR_FD_QSTAT (i : Nat) : Nat := 0x12198 + 32 * i
def A.MTR_FD_THD01 (i : Nat) : Nat := 0x12190 + 32 * i
def A.MTR_FD_THD2 (i : Nat) : Nat := 0x12194 + 32 * i
def A.MTR_FD_U1 (i : Nat) : Nat := 0x12180 + 32 * i
def A.MTR_FD_U2 (i : Nat) : Nat := 0x12184 + 32 * i
def A.MTR_FD_U3 (i : Nat) : Nat := 0x12188 + 32 * i
def A.MTR_HARM_MAG : Nat := 0x12128
def A.MTR_HARM_PH : Nat := 0x1212C
def A.MTR_HARM_SEL : Nat := 0x12124
def A.MTR_LANE_EPOCH (i : Nat) : Nat := 0x12140 + 4 * i
def A.MTR_LANE_MAP : Nat := 0x12108
def A.MTR_LANE_STAT : Nat := 0x12104
def A.MTR_LAST_DOVETAIL : Nat := 0x12110
def A.NVF_CFG : Nat := 0x8100
def A.NVL_CFG : Nat := 0x9100
def A.NVL_HOLDUP : Nat := 0x910C
def A.NVL_PROTECT : Nat := 0x9104
def A.NVL_STREAM_CFG (i : Nat) : Nat := 0x9140 + 16 * i
def A.PLC_RX_OK : Nat := 0x1C128
def A.PLC_SNR_TH0 : Nat := 0x1C114
def A.PLC_SNR_TH1 : Nat := 0x1C118
def A.PLS_STG_CFG (i : Nat) : Nat := 0x15100 + 16 * i
def A.PLS_STG_CONST (i : Nat) : Nat := 0x15104 + 16 * i
def A.PLS_STG_COUNT (i : Nat) : Nat := 0x15108 + 16 * i
def A.PLS_STG_STAT (i : Nat) : Nat := 0x1510C + 16 * i
def A.PQE_CAP_CH_HI : Nat := 0x14114
def A.PQE_CAP_CH_LO : Nat := 0x14110
def A.PQE_CFG : Nat := 0x14100
def A.PQE_FEEDER_CFG (i : Nat) : Nat := 0x14144 + 32 * i
def A.PQE_FEEDER_CNT_INTR (i : Nat) : Nat := 0x1415C + 32 * i
def A.PQE_FEEDER_CNT_SS (i : Nat) : Nat := 0x14158 + 32 * i
def A.PQE_FEEDER_LAST (i : Nat) : Nat := 0x14154 + 32 * i
def A.PQE_FEEDER_U1 (i : Nat) : Nat := 0x14148 + 32 * i
def A.PQE_FEEDER_U2 (i : Nat) : Nat := 0x1414C + 32 * i
def A.PQE_FEEDER_U3 (i : Nat) : Nat := 0x14150 + 32 * i
def A.PQE_FEEDER_UDIN (i : Nat) : Nat := 0x14140 + 32 * i
def A.PQE_TH_INTR_HYST : Nat := 0x14108
def A.PQE_TH_SAG_SWELL : Nat := 0x14104
def A.RCM_LATCH : Nat := 0x17108
def A.RCM_READY : Nat := 0x1710C
def A.RCM_ST_TS_LO (i : Nat) : Nat := 0x17220 + 64 * i
def A.RCM_TRIP_TS_LO (i : Nat) : Nat := 0x1722C + 64 * i
def A.RST_FUSE_DATA : Nat := 0x1110
def A.RST_FUSE_STAT : Nat := 0x1118
def A.SEA_CHAL (i : Nat) : Nat := 0xA120 + 4 * i
def A.SEA_KEY_ID : Nat := 0xA1C0
def A.SEA_LOG_REPLAY : Nat := 0xA244
def A.SEA_PUBKEY (i : Nat) : Nat := 0xA180 + 4 * i
def A.SEA_RESP (i : Nat) : Nat := 0xA140 + 4 * i
def A.SEA_SESS_LOCK : Nat := 0xA110
def A.SEA_SESS_STAT : Nat := 0xA10C
def A.SEA_STAT : Nat := 0xA100
def A.SEA_VK_DATA (i : Nat) : Nat := 0xA200 + 4 * i
def A.SES_ACTIVE_MASK : Nat := 0x19158
def A.SES_AC_FLAGS_EXP : Nat := 0x19118
def A.SES_AC_GROUP : Nat := 0x1911C
def A.SES_AC_KEY_HI : Nat := 0x19110
def A.SES_AC_KEY_LO : Nat := 0x19114
def A.SES_OUT_COST (i : Nat) : Nat := 0x19214 + 32 * i
def A.SES_OUT_DURATION (i : Nat) : Nat := 0x19218 + 32 * i
def A.SES_OUT_ENERGY_WH (i : Nat) : Nat := 0x19210 + 32 * i
def A.SES_OUT_IDLE_S (i : Nat) : Nat := 0x1921C + 32 * i
def A.SES_OUT_KEY_HI (i : Nat) : Nat := 0x19208 + 32 * i
def A.SES_OUT_KEY_LO (i : Nat) : Nat := 0x1920C + 32 * i
def A.SES_OUT_SESSION_ID (i : Nat) : Nat := 0x19204 + 32 * i
def A.SES_OUT_STAT (i : Nat) : Nat := 0x19200 + 32 * i
def A.SES_TARIFF_ID : Nat := 0x1914C
def A.SES_TARIFF_W0 : Nat := 0x19134
def A.SES_TARIFF_W1 : Nat := 0x19138
def A.SES_TARIFF_W2 : Nat := 0x1913C
def A.SES_TARIFF_W3 : Nat := 0x19140
def A.SYS_FALLBACK_CAUSE : Nat := 0x108
def A.TAM_ENV_CFG : Nat := 0xB124
def A.TAM_HIST_INFO (i : Nat) : Nat := 0xB140 + 16 * i
def A.TAM_HIST_TS_LO (i : Nat) : Nat := 0xB144 + 16 * i
def A.TAM_LIVE : Nat := 0xB130
def A.TAM_SRC (i : Nat) : Nat := 0xB100 + 4 * i
def A.TAM_STICKY : Nat := 0xB12C
def F.AFE_CH_CFG_INJ_EN (i : Nat) : Fld := ⟨0x10200 + 4 * i, 12, 1⟩
def F.AFE_CH_CFG_RANGE (i : Nat) : Fld := ⟨0x10200 + 4 * i, 8, 3⟩
def F.AFE_CH_CFG_SRC (i : Nat) : Fld := ⟨0x10200 + 4 * i, 0, 7⟩
def F.AFE_INJ_CFG_EN : Fld := ⟨0x1010C, 0, 1⟩
def F.AFE_INJ_CFG_LEVEL : Fld := ⟨0x1010C, 1, 2⟩
def F.AFE_STATUS_REF_OK : Fld := ⟨0x1000C, 3, 1⟩
def F.AFE_STATUS_START_TEST_DONE : Fld := ⟨0x1000C, 2, 1⟩
def F.AFE_TEST_CFG_EN : Fld := ⟨0x10108, 0, 1⟩
def F.AUX_DATA_CODE (i : Nat) : Fld := ⟨0x18200 + 4 * i, 0, 12⟩
def F.AUX_DATA_SEQ (i : Nat) : Fld := ⟨0x18200 + 4 * i, 16, 16⟩
def F.AUX_WIN_HI (i : Nat) : Fld := ⟨0x18300 + 4 * i, 16, 12⟩
def F.AUX_WIN_LO (i : Nat) : Fld := ⟨0x18300 + 4 * i, 0, 12⟩
def F.BAYK_ALLOW_BIND (k : Nat) : Fld := ⟨0x3012C + 4096 * k, 24, 3⟩
def F.BAYK_ALLOW_MA (k : Nat) : Fld := ⟨0x3012C + 4096 * k, 0, 20⟩
def F.BAYK_CFG_AUTH_SRC (k : Nat) : Fld := ⟨0x30100 + 4096 * k, 7, 1⟩
def F.BAYK_CFG_AUTO_UNLOCK (k : Nat) : Fld := ⟨0x30100 + 4096 * k, 2, 1⟩
def F.BAYK_CFG_AUX_MODE (k : Nat) : Fld := ⟨0x30100 + 4096 * k, 8, 2⟩
def F.BAYK_CFG_DIGITAL (k : Nat) : Fld := ⟨0x30100 + 4096 * k, 4, 1⟩
def F.BAYK_CFG_DIG_GATE (k : Nat) : Fld := ⟨0x30100 + 4096 * k, 5, 1⟩
def F.BAYK_CFG_LMG_IL (k : Nat) : Fld := ⟨0x30100 + 4096 * k, 6, 1⟩
def F.BAYK_CFG_LOCK_EN (k : Nat) : Fld := ⟨0x30100 + 4096 * k, 1, 1⟩
def F.BAYK_CFG_PP_MODE (k : Nat) : Fld := ⟨0x30100 + 4096 * k, 0, 1⟩
def F.BAYK_CFG_VENT_OK (k : Nat) : Fld := ⟨0x30100 + 4096 * k, 3, 1⟩
def F.BAYK_CFG_WELD_V_EN (k : Nat) : Fld := ⟨0x30100 + 4096 * k, 12, 1⟩
def F.BAYK_CONT_TIME_T_OPEN (k : Nat) : Fld := ⟨0x30110 + 4096 * k, 8, 8⟩
def F.BAYK_HOST_LIMIT_MA (k : Nat) : Fld := ⟨0x30108 + 4096 * k, 0, 20⟩
def F.BAYK_LMG_LIMIT_EPOCH (k : Nat) : Fld := ⟨0x3010C + 4096 * k, 24, 8⟩
def F.BAYK_LMG_LIMIT_MA (k : Nat) : Fld := ⟨0x3010C + 4096 * k, 0, 20⟩
def F.BAYK_OEPOCH (k : Nat) : Fld := ⟨0x30134 + 4096 * k, 0, 32⟩
def F.BAYK_PERIOD_COUNT (k : Nat) : Fld := ⟨0x30138 + 4096 * k, 0, 32⟩
def F.BAYK_PILOT_CAL_GAIN (k : Nat) : Fld := ⟨0x30148 + 4096 * k, 16, 16⟩
def F.BAYK_PILOT_CAL_OFS (k : Nat) : Fld := ⟨0x30148 + 4096 * k, 0, 12⟩
def F.BAYK_PILOT_CANDIDATE (k : Nat) : Fld := ⟨0x30124 + 4096 * k, 19, 3⟩
def F.BAYK_PILOT_CLASS (k : Nat) : Fld := ⟨0x30124 + 4096 * k, 16, 3⟩
def F.BAYK_PILOT_DIODE_OK (k : Nat) : Fld := ⟨0x30124 + 4096 * k, 22, 1⟩
def F.BAYK_PILOT_DUTY (k : Nat) : Fld := ⟨0x30124 + 4096 * k, 0, 14⟩
def F.BAYK_PILOT_FLICKER (k : Nat) : Fld := ⟨0x30124 + 4096 * k, 24, 8⟩
def F.BAYK_PILOT_MODE (k : Nat) : Fld := ⟨0x30124 + 4096 * k, 14, 2⟩
def F.BAYK_PILOT_V_HIGH (k : Nat) : Fld := ⟨0x30128 + 4096 * k, 0, 16⟩
def F.BAYK_PILOT_V_LOW (k : Nat) : Fld := ⟨0x30128 + 4096 * k, 16, 16⟩
def F.BAYK_PP_CAP (k : Nat) : Fld := ⟨0x30130 + 4096 * k, 16, 4⟩
def F.BAYK_PP_OHM (k : Nat) : Fld := ⟨0x30130 + 4096 * k, 0, 16⟩
def F.BAYK_PP_RPU_OHM (k : Nat) : Fld := ⟨0x3011C + 4096 * k, 0, 16⟩
def F.BAYK_RATED_MA (k : Nat) : Fld := ⟨0x30104 + 4096 * k, 0, 20⟩
def F.BAYK_STATE_AUTHORISED (k : Nat) : Fld := ⟨0x30120 + 4096 * k, 24, 1⟩
def F.BAYK_STATE_CAUSE (k : Nat) : Fld := ⟨0x30120 + 4096 * k, 16, 8⟩
def F.BAYK_STATE_CLOSED (k : Nat) : Fld := ⟨0x30120 + 4096 * k, 26, 1⟩
def F.BAYK_STATE_CODE (k : Nat) : Fld := ⟨0x30120 + 4096 * k, 0, 8⟩
def F.BAYK_STATE_LATCHED (k : Nat) : Fld := ⟨0x30120 + 4096 * k, 28, 1⟩
def F.BAYK_STATE_LOCKED (k : Nat) : Fld := ⟨0x30120 + 4096 * k, 25, 1⟩
def F.BAYK_STATE_TARGET (k : Nat) : Fld := ⟨0x30120 + 4096 * k, 8, 8⟩
def F.BAYK_STATE_VOLTAGE (k : Nat) : Fld := ⟨0x30120 + 4096 * k, 27, 1⟩
def F.BAYK_VIOL_LEVEL (k : Nat) : Fld := ⟨0x30144 + 4096 * k, 8, 8⟩
def F.BAYK_VIOL_RETRIES (k : Nat) : Fld := ⟨0x30144 + 4096 * k, 0, 8⟩
def F.BAYK_VIOL_TOTAL (k : Nat) : Fld := ⟨0x30144 + 4096 * k, 16, 16⟩
def F.BAYK_WELD_CFG_V_TH (k : Nat) : Fld := ⟨0x30118 + 4096 * k, 0, 12⟩
def F.BAYK_WELD_CFG_WELD_T (k : Nat) : Fld := ⟨0x30118 + 4096 * k, 16, 8⟩
def F.BAY_HOLD_TIME_OPEN_I : Fld := ⟨0x1611C, 16, 16⟩
def F.BAY_HW_HOLD_BENCH : Fld := ⟨0x1612C, 13, 1⟩
def F.BAY_HW_HOLD_OUT : Fld := ⟨0x1612C, 0, 12⟩
def F.BAY_HW_HOLD_PF : Fld := ⟨0x1612C, 12, 1⟩
def F.BAY_OC_CFG_OC_ABS : Fld := ⟨0x16110, 8, 16⟩
def F.BAY_OC_CFG_OC_TOL : Fld := ⟨0x16110, 0, 8⟩
def F.BAY_OC_CFG_RETRY_MAX : Fld := ⟨0x16110, 24, 8⟩
def F.BAY_OC_TIME_OC_GRACE : Fld := ⟨0x16114, 16, 16⟩
def F.BAY_TH_HI_TH_A : Fld := ⟨0x16100, 0, 16⟩
def F.BAY_TH_HI_TH_B : Fld := ⟨0x16100, 16, 16⟩
def F.BAY_TH_LO_HYST : Fld := ⟨0x16108, 16, 16⟩
def F.BAY_TH_LO_TH_F : Fld := ⟨0x16108, 0, 16⟩
def F.BAY_TH_MID_TH_C : Fld := ⟨0x16104, 0, 16⟩
def F.BAY_TH_MID_TH_D : Fld := ⟨0x16104, 16, 16⟩
def F.BAY_TIMING_DEBOUNCE : Fld := ⟨0x1610C, 0, 8⟩
def F.BAY_TIMING_FLICKER_MAX : Fld := ⟨0x1610C, 24, 8⟩
def F.BKP_RSRAM_IDX_IDX : Fld := ⟨0x311C, 0, 10⟩
def F.BKP_STATUS_TIME_SET : Fld := ⟨0x300C, 2, 1⟩
def F.BKP_STICKY_REF_FAIL : Fld := ⟨0x3118, 2, 1⟩
def F.BKP_STICKY_TIME_STEP : Fld := ⟨0x3118, 3, 1⟩
def F.BKP_STICKY_XO32_FAIL : Fld := ⟨0x3118, 1, 1⟩
def F.BKP_TRIM_PPM : Fld := ⟨0x3114, 0, 12⟩
def F.CAL_BG_DELAY (i : Nat) : Fld := ⟨0x13204 + 16 * i, 0, 24⟩
def F.CAL_BG_GAIN (i : Nat) : Fld := ⟨0x13200 + 16 * i, 0, 32⟩
def F.CAL_BG_QUAL_GAIN_FIG (i : Nat) : Fld := ⟨0x13208 + 16 * i, 0, 24⟩
def F.CAL_BG_QUAL_GAIN_N (i : Nat) : Fld := ⟨0x13208 + 16 * i, 24, 3⟩
def F.CAL_BG_QUAL_GAIN_PASS (i : Nat) : Fld := ⟨0x13208 + 16 * i, 27, 1⟩
def F.CAL_BG_QUAL_PHASE_FIG (i : Nat) : Fld := ⟨0x1320C + 16 * i, 0, 24⟩
def F.CAL_CFG_BG_EN : Fld := ⟨0x13100, 0, 1⟩
def F.CAL_CFG_DIFF_MAX : Fld := ⟨0x13100, 8, 8⟩
def F.CAL_CFG_REPORT_MODE : Fld := ⟨0x13100, 1, 1⟩
def F.CAL_CFG_WINDOW_CODE : Fld := ⟨0x13100, 2, 3⟩
def F.CAL_JIG_STAT_BAND : Fld := ⟨0x13120, 2, 3⟩
def F.CAL_JIG_STAT_BUSY : Fld := ⟨0x13120, 0, 1⟩
def F.CAL_JIG_STAT_OK : Fld := ⟨0x13120, 1, 1⟩
def F.CAL_JIG_STAT_USED : Fld := ⟨0x13120, 16, 16⟩
def F.CAL_LIM_GAIN_ABS : Fld := ⟨0x13104, 0, 16⟩
def F.CAL_LIM_GAIN_STEP : Fld := ⟨0x13104, 16, 16⟩
def F.CAL_LIM_PHASE_ABS : Fld := ⟨0x13108, 0, 16⟩
def F.CAL_LIM_PHASE_STEP : Fld := ⟨0x13108, 16, 16⟩
def F.CAL_SHIM_SEL_BAND : Fld := ⟨0x13140, 16, 3⟩
def F.CAL_SHIM_SEL_RANGE : Fld := ⟨0x13140, 20, 3⟩
def F.CAL_SHIM_SEL_SET : Fld := ⟨0x13140, 2, 1⟩
def F.CAL_SHIM_SEL_TABLE : Fld := ⟨0x13140, 0, 2⟩
def F.CAL_SHIM_SEL_UNIT : Fld := ⟨0x13140, 8, 7⟩
def F.CAL_SHIM_SEL_WORD : Fld := ⟨0x13140, 3, 2⟩
def F.CAL_STATUS_JIG : Fld := ⟨0x1300C, 2, 1⟩
def F.CAL_STATUS_PENDING_DIRTY : Fld := ⟨0x1300C, 4, 1⟩
def F.CAL_STATUS_SHIM_OK : Fld := ⟨0x1300C, 3, 1⟩
def F.CAL_TEMP_BAND : Fld := ⟨0x1310C, 16, 3⟩
def F.CAL_TEMP_NEXT : Fld := ⟨0x1310C, 20, 3⟩
def F.CAL_TEMP_PENDING : Fld := ⟨0x1310C, 23, 1⟩
def F.CAL_TEMP_T : Fld := ⟨0x1310C, 0, 16⟩
def F.CAL_WIN_STAT_COUNT : Fld := ⟨0x13138, 0, 16⟩
def F.CAL_WIN_STAT_REJECTS : Fld := ⟨0x13138, 16, 16⟩
def F.CLK_REF_CHECK_COUNT : Fld := ⟨0x2100, 0, 16⟩
def F.CLK_STATUS_PLL_LOCK : Fld := ⟨0x200C, 4, 1⟩
def F.CLK_STATUS_TS_REF : Fld := ⟨0x200C, 6, 1⟩
def F.CLK_STATUS_XO32_OK : Fld := ⟨0x200C, 2, 1⟩
def F.CLK_STATUS_XO_OK : Fld := ⟨0x200C, 3, 1⟩
def F.CLK_XO_START_US : Fld := ⟨0x2104, 0, 16⟩
def F.DEC_CH_CFG_INTEG (i : Nat) : Fld := ⟨0x11200 + 4 * i, 0, 1⟩
def F.DEC_CYCLE_CNT : Fld := ⟨0x11118, 0, 32⟩
def F.DEC_FREQ_MEAS : Fld := ⟨0x1110C, 0, 32⟩
def F.DEC_FREQ_RUN : Fld := ⟨0x11110, 0, 32⟩
def F.DEC_INCR : Fld := ⟨0x11114, 0, 32⟩
def F.DEC_OUTLIERS : Fld := ⟨0x1111C, 0, 32⟩
def F.DEC_REPLAY_STAT_DONE : Fld := ⟨0x11130, 0, 16⟩
def F.DEC_REPLAY_STAT_REFUSED : Fld := ⟨0x11130, 16, 16⟩
def F.DEC_STATUS_LOCKED : Fld := ⟨0x1100C, 2, 1⟩
def F.DEC_STATUS_REPLAY_BUSY : Fld := ⟨0x1100C, 3, 1⟩
def F.DEC_TRACK_STAT_AMP_OK : Fld := ⟨0x11108, 4, 1⟩
def F.DEC_TRACK_STAT_GOOD_CNT : Fld := ⟨0x11108, 8, 8⟩
def F.DEC_TRACK_STAT_HOLD_LEFT : Fld := ⟨0x11108, 16, 16⟩
def F.DEC_TRACK_STAT_REF_IDX : Fld := ⟨0x11108, 2, 2⟩
def F.DEC_TRACK_STAT_STATE : Fld := ⟨0x11108, 0, 2⟩
def F.DMA_ACTIVE_CH : Fld := ⟨0x610C, 0, 16⟩
def F.DMA_BEATS : Fld := ⟨0x6110, 0, 32⟩
def F.DMA_DESC13_WAIT_LEVEL (i : Nat) : Fld := ⟨0x6234 + 64 * i, 16, 2⟩
def F.DMA_DESC13_WAIT_TO (i : Nat) : Fld := ⟨0x6234 + 64 * i, 0, 16⟩
def F.DMA_DESC2_C0 (i : Nat) : Fld := ⟨0x6208 + 64 * i, 0, 16⟩
def F.DMA_DESC2_C1 (i : Nat) : Fld := ⟨0x6208 + 64 * i, 16, 16⟩
def F.DMA_DESC3_C2 (i : Nat) : Fld := ⟨0x620C + 64 * i, 0, 16⟩
def F.DMA_DESC3_ELEM (i : Nat) : Fld := ⟨0x620C + 64 * i, 16, 3⟩
def F.DMA_DESC3_RING (i : Nat) : Fld := ⟨0x620C + 64 * i, 25, 1⟩
def F.DMA_HALT_HALTED : Fld := ⟨0x6100, 0, 1⟩
def F.DMA_POS0_K0 (i : Nat) : Fld := ⟨0x660C + 32 * i, 0, 16⟩
def F.DMA_POS0_K1 (i : Nat) : Fld := ⟨0x660C + 32 * i, 16, 16⟩
def F.DMA_POS1_DESCS (i : Nat) : Fld := ⟨0x6610 + 32 * i, 16, 16⟩
def F.DMA_POS1_K2 (i : Nat) : Fld := ⟨0x6610 + 32 * i, 0, 16⟩
def F.DMA_STAT_FAILED (i : Nat) : Fld := ⟨0x6608 + 32 * i, 2, 1⟩
def F.DMA_STAT_LAST_CODE (i : Nat) : Fld := ⟨0x6608 + 32 * i, 16, 16⟩
def F.DMA_STAT_STATE (i : Nat) : Fld := ⟨0x6608 + 32 * i, 0, 2⟩
def F.EPD_BUS_LINE_PAD : Fld := ⟨0x1E104, 8, 8⟩
def F.EPD_BUS_SCLK_DIV : Fld := ⟨0x1E104, 0, 4⟩
def F.EPD_DECKLE_STAT_PENDING : Fld := ⟨0x1E190, 19, 1⟩
def F.EPD_DECKLE_STAT_REINIT : Fld := ⟨0x1E190, 18, 1⟩
def F.EPD_DECKLE_STAT_RESUMED : Fld := ⟨0x1E190, 17, 1⟩
def F.EPD_DECKLE_STAT_TRUNC : Fld := ⟨0x1E190, 0, 12⟩
def F.EPD_DECKLE_STAT_VALID : Fld := ⟨0x1E190, 16, 1⟩
def F.EPD_FRAME_US_US : Fld := ⟨0x1E124, 0, 17⟩
def F.EPD_PANEL_H : Fld := ⟨0x1E100, 16, 12⟩
def F.EPD_PANEL_W : Fld := ⟨0x1E100, 0, 12⟩
def F.EPD_RES_LIM_LIM : Fld := ⟨0x1E118, 0, 7⟩
def F.EPD_SLOT_INFO_BAND (i : Nat) : Fld := ⟨0x1E148 + 16 * i, 4, 3⟩
def F.EPD_SLOT_INFO_FRAMES (i : Nat) : Fld := ⟨0x1E148 + 16 * i, 8, 16⟩
def F.EPD_SLOT_INFO_MODE (i : Nat) : Fld := ⟨0x1E148 + 16 * i, 0, 4⟩
def F.EPD_SLOT_INFO_UPGRADED (i : Nat) : Fld := ⟨0x1E148 + 16 * i, 7, 1⟩
def F.EPD_SLOT_PROG_FRAME (i : Nat) : Fld := ⟨0x1E14C + 16 * i, 0, 16⟩
def F.EPD_SLOT_PROG_P (i : Nat) : Fld := ⟨0x1E14C + 16 * i, 16, 8⟩
def F.EPD_SLOT_WH_H (i : Nat) : Fld := ⟨0x1E144 + 16 * i, 16, 16⟩
def F.EPD_SLOT_WH_W (i : Nat) : Fld := ⟨0x1E144 + 16 * i, 0, 16⟩
def F.EPD_SLOT_XY_X (i : Nat) : Fld := ⟨0x1E140 + 16 * i, 0, 16⟩
def F.EPD_SLOT_XY_Y (i : Nat) : Fld := ⟨0x1E140 + 16 * i, 16, 16⟩
def F.EPD_STATE_BUSY : Fld := ⟨0x1E128, 4, 4⟩
def F.EPD_STATE_OUTER_VALID : Fld := ⟨0x1E128, 8, 1⟩
def F.EPD_STATE_POWER : Fld := ⟨0x1E128, 0, 2⟩
def F.EPD_TEMP_CFG_OFS : Fld := ⟨0x1E10C, 0, 16⟩
def F.EPD_TEMP_CFG_SRC : Fld := ⟨0x1E10C, 16, 1⟩
def F.EPD_TEMP_HOST_T : Fld := ⟨0x1E110, 0, 16⟩
def F.EPD_TEMP_STAT_BAND : Fld := ⟨0x1E114, 16, 3⟩
def F.EPD_TEMP_STAT_STALE : Fld := ⟨0x1E114, 19, 1⟩
def F.EPD_TEMP_STAT_T : Fld := ⟨0x1E114, 0, 16⟩
def F.EPD_WF_STAT_SEQ : Fld := ⟨0x1E11C, 16, 16⟩
def F.EPD_WF_STAT_TAKEN_B : Fld := ⟨0x1E11C, 1, 1⟩
def F.EPD_WF_STAT_VALID : Fld := ⟨0x1E11C, 0, 1⟩
def F.HLKR_RING_CFG_COUNT_CODE (i : Nat) : Fld := ⟨0x5100 + 16 * i, 4, 3⟩
def F.HLKR_RING_CFG_DIR (i : Nat) : Fld := ⟨0x5100 + 16 * i, 8, 1⟩
def F.HLKR_RING_CFG_SLOT_CODE (i : Nat) : Fld := ⟨0x5100 + 16 * i, 0, 3⟩
def F.HLKR_RING_IRQ_THRESH (i : Nat) : Fld := ⟨0x510C + 16 * i, 0, 8⟩
def F.HLKR_RING_IRQ_TIMEOUT (i : Nat) : Fld := ⟨0x510C + 16 * i, 16, 16⟩
def F.HLK_CFG_IRQ_PULSE : Fld := ⟨0x4100, 0, 1⟩
def F.HLK_CRC_ERRS : Fld := ⟨0x4140, 0, 32⟩
def F.HLK_LAST_REJ_CODE : Fld := ⟨0x410C, 0, 16⟩
def F.HLK_LAST_REJ_INFO_COUNT : Fld := ⟨0x4110, 16, 16⟩
def F.HLK_LAST_REJ_INFO_RING : Fld := ⟨0x4110, 0, 6⟩
def F.HLK_LAST_REJ_INFO_SEQ_VALID : Fld := ⟨0x4110, 8, 1⟩
def F.HLK_LAST_REJ_SEQ : Fld := ⟨0x410C, 16, 16⟩
def F.HLK_LINK_TENON_COUNT : Fld := ⟨0x4104, 16, 16⟩
def F.HLK_LINK_TENON_DONE : Fld := ⟨0x4104, 2, 1⟩
def F.HLK_LINK_VER : Fld := ⟨0x4104, 0, 2⟩
def F.HLK_TENON_VMAX_VMAX : Fld := ⟨0x4144, 0, 2⟩
def F.LMG_BUDGET_MA (i : Nat) : Fld := ⟨0x1A140 + 4 * i, 0, 20⟩
def F.LMG_BUDGET_SEQ_APPLIED : Fld := ⟨0x1A158, 16, 16⟩
def F.LMG_BUDGET_SEQ_TAKEN : Fld := ⟨0x1A158, 0, 16⟩
def F.LMG_CFG_ROLE : Fld := ⟨0x1A100, 0, 2⟩
def F.LMG_CFG_ROT : Fld := ⟨0x1A100, 2, 2⟩
def F.LMG_FEEDER_LIM_MA (i : Nat) : Fld := ⟨0x1A120 + 4 * i, 0, 20⟩
def F.LMG_OUT_ALLOC_MA (i : Nat) : Fld := ⟨0x1A204 + 16 * i, 0, 20⟩
def F.LMG_OUT_ALLOC_PENDING (i : Nat) : Fld := ⟨0x1A204 + 16 * i, 24, 1⟩
def F.LMG_OUT_CFG_DECL_MA (i : Nat) : Fld := ⟨0x1A200 + 16 * i, 0, 20⟩
def F.LMG_OUT_CFG_RECLAIM (i : Nat) : Fld := ⟨0x1A200 + 16 * i, 20, 1⟩
def F.LMG_OUT_DEMAND_MA (i : Nat) : Fld := ⟨0x1A208 + 16 * i, 0, 20⟩
def F.LMG_OUT_DEMAND_PRIO (i : Nat) : Fld := ⟨0x1A208 + 16 * i, 24, 1⟩
def F.LMG_OUT_MEAS_MA (i : Nat) : Fld := ⟨0x1A20C + 16 * i, 0, 20⟩
def F.LMG_POST_LIM_MA (i : Nat) : Fld := ⟨0x1A110 + 4 * i, 0, 20⟩
def F.LMG_RESERVE_MA : Fld := ⟨0x1A10C, 0, 20⟩
def F.LMG_SAFE_MA (i : Nat) : Fld := ⟨0x1A130 + 4 * i, 0, 20⟩
def F.LMG_SITE_CFG_POSTS : Fld := ⟨0x1A170, 0, 11⟩
def F.LMG_SITE_LIM_MA (i : Nat) : Fld := ⟨0x1A160 + 4 * i, 0, 24⟩
def F.LMG_SITE_STAT_HOLD : Fld := ⟨0x1A174, 1, 1⟩
def F.LMG_SITE_STAT_MISMATCH : Fld := ⟨0x1A174, 16, 16⟩
def F.LMG_SITE_STAT_VALID : Fld := ⟨0x1A174, 0, 1⟩
def F.LMG_STAT_OVERLOAD : Fld := ⟨0x1A154, 4, 3⟩
def F.LMG_STAT_PART : Fld := ⟨0x1A154, 16, 12⟩
def F.LMG_STAT_STATE : Fld := ⟨0x1A154, 0, 2⟩
def F.LMG_TIMING_FB_LEAD_S : Fld := ⟨0x1A104, 24, 8⟩
def F.LMG_TIMING_LEASE_S : Fld := ⟨0x1A104, 16, 8⟩
def F.LMG_TIMING_ROUND_MS : Fld := ⟨0x1A104, 0, 14⟩
def F.LMG_VERIFY_GUARD_MS : Fld := ⟨0x1A108, 16, 16⟩
def F.LMG_VERIFY_VERIFY_MA : Fld := ⟨0x1A108, 0, 16⟩
def F.MSH_ACCESS_BE_MAX : Fld := ⟨0x1D10C, 8, 4⟩
def F.MSH_ACCESS_BE_MIN : Fld := ⟨0x1D10C, 4, 4⟩
def F.MSH_ACCESS_HOP_PEN : Fld := ⟨0x1D10C, 16, 16⟩
def F.MSH_ACCESS_RETRY_MAX : Fld := ⟨0x1D10C, 0, 4⟩
def F.MSH_ADDR_ADDR : Fld := ⟨0x1D104, 0, 16⟩
def F.MSH_ADDR_SITE : Fld := ⟨0x1D104, 16, 16⟩
def F.MSH_CFG_REMOTE_EN : Fld := ⟨0x1D100, 4, 1⟩
def F.MSH_CFG_ROLE : Fld := ⟨0x1D100, 0, 2⟩
def F.MSH_CFG_VMAX : Fld := ⟨0x1D100, 2, 2⟩
def F.MSH_CYCLE_COUNT : Fld := ⟨0x1D120, 24, 8⟩
def F.MSH_CYCLE_LAST_MS : Fld := ⟨0x1D120, 0, 24⟩
def F.MSH_DROP_CNT_CRC : Fld := ⟨0x1D12C, 0, 8⟩
def F.MSH_DROP_CNT_DUP : Fld := ⟨0x1D12C, 24, 8⟩
def F.MSH_DROP_CNT_MALFORMED : Fld := ⟨0x1D12C, 8, 8⟩
def F.MSH_DROP_CNT_STALE : Fld := ⟨0x1D12C, 16, 8⟩
def F.MSH_FAIL_CNT_HOPFAIL : Fld := ⟨0x1D130, 16, 16⟩
def F.MSH_FAIL_CNT_NOROUTE : Fld := ⟨0x1D130, 0, 16⟩
def F.MSH_MALF_MALF_MAX : Fld := ⟨0x1D140, 0, 8⟩
def F.MSH_MALF_QUAR_S : Fld := ⟨0x1D140, 8, 8⟩
def F.MSH_MASTER_ADDR : Fld := ⟨0x1D118, 0, 16⟩
def F.MSH_MASTER_HOPS : Fld := ⟨0x1D118, 16, 4⟩
def F.MSH_POLL_CFG_HOP_MS : Fld := ⟨0x1D110, 4, 12⟩
def F.MSH_POLL_CFG_MISS_MAX : Fld := ⟨0x1D110, 24, 8⟩
def F.MSH_POLL_CFG_POLL_LOSS_S : Fld := ⟨0x1D110, 16, 8⟩
def F.MSH_POLL_CFG_WINDOW : Fld := ⟨0x1D110, 0, 4⟩
def F.MSH_POLL_CTRL_ENTRIES : Fld := ⟨0x1D114, 0, 11⟩
def F.MSH_POLL_CTRL_RUN : Fld := ⟨0x1D114, 16, 1⟩
def F.MSH_ROUTE_STAT_COST_M : Fld := ⟨0x1D11C, 0, 16⟩
def F.MSH_ROUTE_STAT_DESTS : Fld := ⟨0x1D11C, 16, 10⟩
def F.MSH_RX_CNT_DELIVERED : Fld := ⟨0x1D128, 0, 16⟩
def F.MSH_RX_CNT_FORWARDED : Fld := ⟨0x1D128, 16, 16⟩
def F.MSH_TIMING_NEIGH_TO : Fld := ⟨0x1D108, 8, 8⟩
def F.MSH_TIMING_ROUTE_TO : Fld := ⟨0x1D108, 16, 16⟩
def F.MSH_TX_CNT_FRAMES : Fld := ⟨0x1D124, 0, 16⟩
def F.MSH_TX_CNT_RETRIES : Fld := ⟨0x1D124, 16, 16⟩
def F.MTRK_AGG_STAT_COUNT (k : Nat) : Fld := ⟨0x20234 + 4096 * k, 0, 16⟩
def F.MTRK_AGG_STAT_CYCLES (k : Nat) : Fld := ⟨0x20234 + 4096 * k, 24, 8⟩
def F.MTRK_AGG_STAT_VALID (k : Nat) : Fld := ⟨0x20234 + 4096 * k, 16, 1⟩
def F.MTRK_CABLE_R_R (k : Nat) : Fld := ⟨0x20104 + 4096 * k, 0, 20⟩
def F.MTRK_CFG_CABLE_EN (k : Nat) : Fld := ⟨0x20100 + 4096 * k, 8, 1⟩
def F.MTRK_CFG_FEEDER (k : Nat) : Fld := ⟨0x20100 + 4096 * k, 1, 2⟩
def F.MTRK_CFG_MODE_DC (k : Nat) : Fld := ⟨0x20100 + 4096 * k, 0, 1⟩
def F.MTRK_CFG_PH_EN (k : Nat) : Fld := ⟨0x20100 + 4096 * k, 4, 3⟩
def F.MTRK_CFG_Q_MODE (k : Nat) : Fld := ⟨0x20100 + 4096 * k, 3, 1⟩
def F.MTRK_ECFG_ABS (k : Nat) : Fld := ⟨0x20300 + 4096 * k, 0, 1⟩
def F.MTRK_ESTAT_DEBT_ALARM (k : Nat) : Fld := ⟨0x20308 + 4096 * k, 3, 1⟩
def F.MTRK_ESTAT_RUNNING (k : Nat) : Fld := ⟨0x20308 + 4096 * k, 0, 3⟩
def F.MTRK_IB_IB (k : Nat) : Fld := ⟨0x20304 + 4096 * k, 0, 20⟩
def F.MTRK_QSTAT_CYCLE (k : Nat) : Fld := ⟨0x20108 + 4096 * k, 16, 16⟩
def F.MTRK_QSTAT_SETTLING (k : Nat) : Fld := ⟨0x20108 + 4096 * k, 1, 1⟩
def F.MTRK_QSTAT_VALID (k : Nat) : Fld := ⟨0x20108 + 4096 * k, 0, 1⟩
def F.MTR_AUDIT_CNT_AUDITS : Fld := ⟨0x1211C, 0, 16⟩
def F.MTR_AUDIT_CNT_MISMATCH : Fld := ⟨0x1211C, 16, 8⟩
def F.MTR_AUDIT_CNT_TRANSIENT : Fld := ⟨0x1211C, 24, 8⟩
def F.MTR_BRIDGE_CNT : Fld := ⟨0x12118, 0, 32⟩
def F.MTR_CFG_AGG_CYCLES : Fld := ⟨0x12100, 0, 8⟩
def F.MTR_CFG_AUDIT_EN : Fld := ⟨0x12100, 8, 1⟩
def F.MTR_COUCH_MAX_TIME : Fld := ⟨0x12308, 0, 16⟩
def F.MTR_COUCH_SEQ : Fld := ⟨0x12300, 0, 32⟩
def F.MTR_DOVETAIL_CNT_LANE : Fld := ⟨0x1210C, 0, 16⟩
def F.MTR_DOVETAIL_CNT_MOD : Fld := ⟨0x1210C, 16, 16⟩
def F.MTR_GATE_REFUSED : Fld := ⟨0x12120, 0, 32⟩
def F.MTR_HARM_SEL_CH : Fld := ⟨0x12124, 0, 6⟩
def F.MTR_HARM_SEL_H : Fld := ⟨0x12124, 8, 6⟩
def F.MTR_LANE_MAP_S16_SLOT : Fld := ⟨0x12108, 0, 4⟩
def F.MTR_LANE_MAP_S16_VALID : Fld := ⟨0x12108, 4, 1⟩
def F.MTR_LANE_MAP_S17_SLOT : Fld := ⟨0x12108, 8, 4⟩
def F.MTR_LANE_MAP_S17_VALID : Fld := ⟨0x12108, 12, 1⟩
def F.MTR_LAST_DOVETAIL_BRIDGED : Fld := ⟨0x12110, 24, 8⟩
def F.MTR_LAST_DOVETAIL_CYC : Fld := ⟨0x12114, 0, 32⟩
def F.MTR_LAST_DOVETAIL_KIND : Fld := ⟨0x12110, 0, 2⟩
def F.MTR_LAST_DOVETAIL_PAUSE : Fld := ⟨0x12110, 16, 8⟩
def F.MTR_LAST_DOVETAIL_UNIT : Fld := ⟨0x12110, 4, 8⟩
def F.MTR_LEGAL_STAT_A_VALID : Fld := ⟨0x1230C, 0, 1⟩
def F.MTR_LEGAL_STAT_B_VALID : Fld := ⟨0x1230C, 1, 1⟩
def F.MTR_LEGAL_STAT_LEGAL_OK : Fld := ⟨0x1230C, 3, 1⟩
def F.MTR_LEGAL_STAT_TAKEN_B : Fld := ⟨0x1230C, 2, 1⟩
def F.MTR_PF_LAST_ABRUPT : Fld := ⟨0x12310, 18, 1⟩
def F.MTR_PF_LAST_LAST_CHANCE : Fld := ⟨0x12310, 17, 1⟩
def F.MTR_PF_LAST_OUT_CURRENT : Fld := ⟨0x12314, 16, 12⟩
def F.MTR_PF_LAST_OUT_UNCONF : Fld := ⟨0x12314, 0, 12⟩
def F.MTR_PF_LAST_TIMEOUT : Fld := ⟨0x12310, 16, 1⟩
def F.MTR_PF_LAST_WAIT : Fld := ⟨0x12310, 0, 16⟩
def F.MTR_STATUS_START_TEST_DONE : Fld := ⟨0x1200C, 2, 1⟩
def F.NVF_CFG_PROTECT : Fld := ⟨0x8100, 0, 2⟩
def F.NVF_COUCH_IDX_IDX : Fld := ⟨0x8108, 0, 8⟩
def F.NVF_WRITES : Fld := ⟨0x810C, 0, 32⟩
def F.NVL_CFG_SCRUB_EN : Fld := ⟨0x9100, 0, 1⟩
def F.NVL_CFG_STAT_BUSY : Fld := ⟨0x9128, 0, 1⟩
def F.NVL_CFG_STAT_OK : Fld := ⟨0x9128, 1, 1⟩
def F.NVL_CFG_STAT_SEQ : Fld := ⟨0x9128, 16, 16⟩
def F.NVL_CFG_STEP_WAIT : Fld := ⟨0x9100, 16, 16⟩
def F.NVL_FREE_REAMS_HOST : Fld := ⟨0x9120, 0, 7⟩
def F.NVL_FREE_REAMS_SIG : Fld := ⟨0x9120, 8, 7⟩
def F.NVL_HOLDUP_CFG_DECL_MS : Fld := ⟨0x9108, 0, 16⟩
def F.NVL_HOLDUP_DEFERRING : Fld := ⟨0x910C, 18, 1⟩
def F.NVL_HOLDUP_MEAS : Fld := ⟨0x910C, 0, 16⟩
def F.NVL_HOLDUP_MEAS_VALID : Fld := ⟨0x910C, 16, 1⟩
def F.NVL_HOLDUP_STEP_OK : Fld := ⟨0x910C, 17, 1⟩
def F.NVL_PROTECT : Fld := ⟨0x9104, 0, 2⟩
def F.NVL_SCRUB_STAT_NEXT : Fld := ⟨0x911C, 0, 10⟩
def F.NVL_SCRUB_STAT_REFRESHED : Fld := ⟨0x911C, 16, 16⟩
def F.NVL_SIG_ARCH : Fld := ⟨0x9110, 0, 32⟩
def F.NVL_SIG_STAT_OVERWRITES : Fld := ⟨0x9114, 16, 16⟩
def F.NVL_SIG_STAT_UNARCHIVED : Fld := ⟨0x9114, 0, 16⟩
def F.NVL_SPARE_CORRUPT : Fld := ⟨0x9118, 16, 16⟩
def F.NVL_SPARE_USED : Fld := ⟨0x9118, 0, 6⟩
def F.NVL_STREAM_CFG_MAX_REAMS (i : Nat) : Fld := ⟨0x9140 + 16 * i, 8, 7⟩
def F.NVL_STREAM_CFG_WRAP (i : Nat) : Fld := ⟨0x9140 + 16 * i, 0, 1⟩
def F.PLC_ADAPT_DOWN_N : Fld := ⟨0x1C110, 0, 4⟩
def F.PLC_ADAPT_UP_MARGIN : Fld := ⟨0x1C110, 12, 4⟩
def F.PLC_ADAPT_UP_N : Fld := ⟨0x1C110, 4, 8⟩
def F.PLC_CFG_SPAN : Fld := ⟨0x1C100, 6, 2⟩
def F.PLC_CFG_TX_PHASE : Fld := ⟨0x1C100, 4, 2⟩
def F.PLC_ERR_CNT_HDR : Fld := ⟨0x1C12C, 0, 16⟩
def F.PLC_ERR_CNT_RS : Fld := ⟨0x1C12C, 16, 16⟩
def F.PLC_LAST_RX_CORR : Fld := ⟨0x1C11C, 24, 8⟩
def F.PLC_LAST_RX_ERASED : Fld := ⟨0x1C11C, 16, 8⟩
def F.PLC_LAST_RX_MODE : Fld := ⟨0x1C11C, 0, 3⟩
def F.PLC_LAST_RX_PHASE : Fld := ⟨0x1C11C, 3, 2⟩
def F.PLC_LAST_RX_SNR : Fld := ⟨0x1C11C, 8, 8⟩
def F.PLC_NOISE_A : Fld := ⟨0x1C124, 0, 8⟩
def F.PLC_NOISE_B : Fld := ⟨0x1C124, 8, 8⟩
def F.PLC_NOISE_C : Fld := ⟨0x1C124, 16, 8⟩
def F.PLC_PH_SNR_A : Fld := ⟨0x1C120, 0, 8⟩
def F.PLC_PH_SNR_B : Fld := ⟨0x1C120, 8, 8⟩
def F.PLC_PH_SNR_BEST : Fld := ⟨0x1C120, 24, 2⟩
def F.PLC_PH_SNR_C : Fld := ⟨0x1C120, 16, 8⟩
def F.PLC_RX_DROP_ABANDON : Fld := ⟨0x1C134, 0, 16⟩
def F.PLC_RX_DROP_ERASED : Fld := ⟨0x1C134, 16, 16⟩
def F.PLC_SNR_TH0_D8PSK : Fld := ⟨0x1C114, 0, 8⟩
def F.PLC_SNR_TH0_DBPSK : Fld := ⟨0x1C114, 16, 8⟩
def F.PLC_SNR_TH0_DQPSK : Fld := ⟨0x1C114, 8, 8⟩
def F.PLC_SNR_TH0_ROBUST4 : Fld := ⟨0x1C114, 24, 8⟩
def F.PLC_SNR_TH1_ROBUST6 : Fld := ⟨0x1C118, 0, 8⟩
def F.PLC_STATUS_CS : Fld := ⟨0x1C00C, 4, 1⟩
def F.PLC_STATUS_RX_BUSY : Fld := ⟨0x1C00C, 3, 1⟩
def F.PLC_STATUS_TX_BUSY : Fld := ⟨0x1C00C, 2, 1⟩
def F.PLC_TXEN_TIME_LEAD : Fld := ⟨0x1C108, 0, 8⟩
def F.PLC_TX_CNT_ABORT : Fld := ⟨0x1C130, 16, 16⟩
def F.PLC_TX_CNT_DONE : Fld := ⟨0x1C130, 0, 16⟩
def F.PLS_STG_CFG_EN (i : Nat) : Fld := ⟨0x15100 + 16 * i, 0, 1⟩
def F.PLS_STG_CFG_OUTLET_MASK (i : Nat) : Fld := ⟨0x15100 + 16 * i, 16, 12⟩
def F.PLS_STG_CFG_POL (i : Nat) : Fld := ⟨0x15100 + 16 * i, 4, 1⟩
def F.PLS_STG_CFG_SRC (i : Nat) : Fld := ⟨0x15100 + 16 * i, 1, 3⟩
def F.PLS_STG_CFG_WIDTH (i : Nat) : Fld := ⟨0x15100 + 16 * i, 8, 7⟩
def F.PLS_STG_CONST_C (i : Nat) : Fld := ⟨0x15104 + 16 * i, 0, 20⟩
def F.PLS_STG_COUNT (i : Nat) : Fld := ⟨0x15108 + 16 * i, 0, 32⟩
def F.PLS_STG_STAT_ACTIVE (i : Nat) : Fld := ⟨0x1510C + 16 * i, 15, 1⟩
def F.PLS_STG_STAT_DROPPED (i : Nat) : Fld := ⟨0x1510C + 16 * i, 16, 16⟩
def F.PLS_STG_STAT_PENDING (i : Nat) : Fld := ⟨0x1510C + 16 * i, 0, 9⟩
def F.PQE_CAP_CFG_NCH_CODE : Fld := ⟨0x1410C, 0, 2⟩
def F.PQE_CAP_CFG_POST : Fld := ⟨0x1410C, 16, 8⟩
def F.PQE_CAP_CFG_PRE : Fld := ⟨0x1410C, 4, 8⟩
def F.PQE_CAP_CFG_TRIG : Fld := ⟨0x1410C, 24, 5⟩
def F.PQE_CAP_COUNT_DONE : Fld := ⟨0x14120, 0, 16⟩
def F.PQE_CAP_COUNT_MISSED : Fld := ⟨0x14120, 16, 16⟩
def F.PQE_CAP_CTRL_ARM : Fld := ⟨0x14118, 0, 1⟩
def F.PQE_CAP_STAT_FILLED : Fld := ⟨0x1411C, 8, 8⟩
def F.PQE_CAP_STAT_LAST_ID : Fld := ⟨0x1411C, 16, 16⟩
def F.PQE_CAP_STAT_STATE : Fld := ⟨0x1411C, 0, 2⟩
def F.PQE_CFG_FEEDER_EN : Fld := ⟨0x14100, 0, 4⟩
def F.PQE_EVENT_ID_NEXT : Fld := ⟨0x14124, 0, 32⟩
def F.PQE_FEEDER_CFG_LOST (i : Nat) : Fld := ⟨0x14144 + 32 * i, 11, 1⟩
def F.PQE_FEEDER_CFG_PH_EN (i : Nat) : Fld := ⟨0x14144 + 32 * i, 0, 3⟩
def F.PQE_FEEDER_CNT_INTR_INTR (i : Nat) : Fld := ⟨0x1415C + 32 * i, 0, 16⟩
def F.PQE_FEEDER_CNT_SS_SAG (i : Nat) : Fld := ⟨0x14158 + 32 * i, 0, 16⟩
def F.PQE_FEEDER_CNT_SS_SWELL (i : Nat) : Fld := ⟨0x14158 + 32 * i, 16, 16⟩
def F.PQE_FEEDER_UDIN_MV (i : Nat) : Fld := ⟨0x14140 + 32 * i, 0, 20⟩
def F.PQE_TH_INTR_HYST_HYST : Fld := ⟨0x14108, 16, 16⟩
def F.PQE_TH_INTR_HYST_INTR : Fld := ⟨0x14108, 0, 16⟩
def F.PQE_TH_SAG_SWELL_SAG : Fld := ⟨0x14104, 0, 16⟩
def F.PQE_TH_SAG_SWELL_SWELL : Fld := ⟨0x14104, 16, 16⟩
def F.RCM_AC_UA (i : Nat) : Fld := ⟨0x17218 + 64 * i, 0, 32⟩
def F.RCM_CFG_OPEN_T : Fld := ⟨0x17100, 0, 8⟩
def F.RCM_CFG_PE_DEB : Fld := ⟨0x17100, 24, 8⟩
def F.RCM_CFG_ST_AGE : Fld := ⟨0x17100, 8, 16⟩
def F.RCM_DC_UA (i : Nat) : Fld := ⟨0x17214 + 64 * i, 0, 32⟩
def F.RCM_FS_UA_UA (i : Nat) : Fld := ⟨0x17200 + 64 * i, 0, 20⟩
def F.RCM_OFS_UA (i : Nat) : Fld := ⟨0x17204 + 64 * i, 0, 20⟩
def F.RCM_OUT_EN_EN : Fld := ⟨0x17104, 0, 12⟩
def F.RCM_PE_WIN_HI (i : Nat) : Fld := ⟨0x1720C + 64 * i, 16, 12⟩
def F.RCM_PE_WIN_LO (i : Nat) : Fld := ⟨0x1720C + 64 * i, 0, 12⟩
def F.RCM_PE_WIN_PE_EN (i : Nat) : Fld := ⟨0x1720C + 64 * i, 31, 1⟩
def F.RCM_ROW_A_EN (i : Nat) : Fld := ⟨0x17120 + 8 * i, 31, 1⟩
def F.RCM_ROW_A_KIND (i : Nat) : Fld := ⟨0x17120 + 8 * i, 28, 1⟩
def F.RCM_ROW_A_LEVEL (i : Nat) : Fld := ⟨0x17120 + 8 * i, 0, 20⟩
def F.RCM_ROW_B_HOLD (i : Nat) : Fld := ⟨0x17124 + 8 * i, 16, 16⟩
def F.RCM_ROW_B_TIME (i : Nat) : Fld := ⟨0x17124 + 8 * i, 0, 16⟩
def F.RCM_STAT_INVALID (i : Nat) : Fld := ⟨0x17210 + 64 * i, 1, 1⟩
def F.RCM_STAT_PE_FAULT (i : Nat) : Fld := ⟨0x17210 + 64 * i, 4, 1⟩
def F.RCM_STAT_SETTLED (i : Nat) : Fld := ⟨0x17210 + 64 * i, 0, 1⟩
def F.RCM_STAT_ST_BUSY (i : Nat) : Fld := ⟨0x17210 + 64 * i, 2, 1⟩
def F.RCM_STAT_ST_DUE (i : Nat) : Fld := ⟨0x17210 + 64 * i, 3, 1⟩
def F.RCM_ST_RESULT_FAILS (i : Nat) : Fld := ⟨0x1721C + 64 * i, 16, 16⟩
def F.RCM_ST_RESULT_RESULT (i : Nat) : Fld := ⟨0x1721C + 64 * i, 0, 3⟩
def F.RCM_TEST_UA_UA (i : Nat) : Fld := ⟨0x17208 + 64 * i, 0, 20⟩
def F.RCM_TRIP_INFO_CAUSE (i : Nat) : Fld := ⟨0x17228 + 64 * i, 0, 8⟩
def F.RCM_TRIP_INFO_COUNT (i : Nat) : Fld := ⟨0x17228 + 64 * i, 16, 16⟩
def F.RCM_TRIP_INFO_ROW (i : Nat) : Fld := ⟨0x17228 + 64 * i, 8, 3⟩
def F.RCM_TRIP_VAL_UA (i : Nat) : Fld := ⟨0x17234 + 64 * i, 0, 32⟩
def F.RST_CAUSE_BACKUP_POR : Fld := ⟨0x1100, 2, 1⟩
def F.RST_CAUSE_FROM_HALT : Fld := ⟨0x1100, 3, 1⟩
def F.RST_CAUSE_PIN : Fld := ⟨0x1100, 1, 1⟩
def F.RST_CAUSE_POR : Fld := ⟨0x1100, 0, 1⟩
def F.RST_FUSE_DATA_NEW : Fld := ⟨0x1110, 0, 4⟩
def F.RST_FUSE_IDX_BALL : Fld := ⟨0x110C, 0, 9⟩
def F.RST_FUSE_STAT_LOCKED : Fld := ⟨0x1118, 1, 1⟩
def F.RST_FUSE_STAT_PARITY_ERR : Fld := ⟨0x1118, 8, 10⟩
def F.RST_PWR_STAT_STATE : Fld := ⟨0x1108, 0, 2⟩
def F.RST_PWR_STAT_WAKES : Fld := ⟨0x1108, 8, 8⟩
def F.SEA_OPT_STAT_BAUD : Fld := ⟨0xA24C, 16, 4⟩
def F.SEA_OPT_STAT_BCC_ERR : Fld := ⟨0xA24C, 24, 8⟩
def F.SEA_OPT_STAT_MODE : Fld := ⟨0xA24C, 20, 4⟩
def F.SEA_OPT_STAT_SESSIONS : Fld := ⟨0xA24C, 0, 16⟩
def F.SEA_SESS_LOCK_LEFT : Fld := ⟨0xA110, 0, 12⟩
def F.SEA_SESS_PARAM_DURATION_S : Fld := ⟨0xA108, 0, 16⟩
def F.SEA_SESS_STAT_FAILS : Fld := ⟨0xA10C, 16, 8⟩
def F.SEA_SESS_STAT_LEFT : Fld := ⟨0xA10C, 0, 16⟩
def F.SEA_SESS_STAT_ROLE : Fld := ⟨0xA10C, 26, 2⟩
def F.SEA_SESS_STAT_SLOT : Fld := ⟨0xA10C, 24, 2⟩
def F.SEA_STAT_BUSY : Fld := ⟨0xA100, 18, 1⟩
def F.SEA_STAT_IMAGE_B : Fld := ⟨0xA100, 19, 1⟩
def F.SEA_STAT_IMAGE_FAULT : Fld := ⟨0xA100, 20, 1⟩
def F.SEA_STAT_KEY : Fld := ⟨0xA100, 8, 8⟩
def F.SEA_STAT_KEY_OK : Fld := ⟨0xA100, 16, 1⟩
def F.SEA_STAT_REPLAYING : Fld := ⟨0xA100, 21, 1⟩
def F.SEA_STAT_SESSION : Fld := ⟨0xA100, 0, 8⟩
def F.SEA_TOTALS_REQ_OUT : Fld := ⟨0xA248, 0, 12⟩
def F.SEA_VK_STAT_ROLES : Fld := ⟨0xA1C8, 8, 8⟩
def F.SEA_VK_STAT_VALID : Fld := ⟨0xA1C8, 0, 4⟩
def F.SES_ACTIVE_MASK_OUT : Fld := ⟨0x19158, 0, 12⟩
def F.SES_AC_COUNT_ENTRIES : Fld := ⟨0x19128, 0, 13⟩
def F.SES_AC_STAT_BUSY : Fld := ⟨0x19124, 0, 1⟩
def F.SES_AC_STAT_FULL_REFUSED : Fld := ⟨0x19124, 16, 16⟩
def F.SES_AC_STAT_RESULT : Fld := ⟨0x19124, 1, 3⟩
def F.SES_CFG_DEFAULT_PLAN : Fld := ⟨0x19100, 2, 3⟩
def F.SES_CFG_TAP_STOP : Fld := ⟨0x19100, 5, 1⟩
def F.SES_CFG_UNKNOWN_POLICY : Fld := ⟨0x19100, 0, 2⟩
def F.SES_DECKLE_CFG_HOLD_MIN : Fld := ⟨0x19160, 28, 4⟩
def F.SES_DECKLE_CFG_IDLE_MIN : Fld := ⟨0x19160, 24, 4⟩
def F.SES_DECKLE_CFG_MIN_S : Fld := ⟨0x19160, 16, 8⟩
def F.SES_DECKLE_CFG_STEP : Fld := ⟨0x19160, 0, 16⟩
def F.SES_IDLE_CFG_IDLE_GRACE : Fld := ⟨0x19108, 0, 8⟩
def F.SES_IDLE_CFG_PROGRESS_S : Fld := ⟨0x19108, 8, 16⟩
def F.SES_OUT_COST (i : Nat) : Fld := ⟨0x19214 + 32 * i, 0, 32⟩
def F.SES_OUT_DURATION (i : Nat) : Fld := ⟨0x19218 + 32 * i, 0, 32⟩
def F.SES_OUT_ENERGY_WH (i : Nat) : Fld := ⟨0x19210 + 32 * i, 0, 32⟩
def F.SES_OUT_IDLE_S (i : Nat) : Fld := ⟨0x1921C + 32 * i, 0, 32⟩
def F.SES_OUT_KEY_HI (i : Nat) : Fld := ⟨0x19208 + 32 * i, 0, 32⟩
def F.SES_OUT_KEY_LO (i : Nat) : Fld := ⟨0x1920C + 32 * i, 0, 32⟩
def F.SES_OUT_SESSION_ID (i : Nat) : Fld := ⟨0x19204 + 32 * i, 0, 32⟩
def F.SES_OUT_STAT_LAST_REASON (i : Nat) : Fld := ⟨0x19200 + 32 * i, 24, 8⟩
def F.SES_OUT_STAT_NOBILL (i : Nat) : Fld := ⟨0x19200 + 32 * i, 4, 1⟩
def F.SES_OUT_STAT_PLAN (i : Nat) : Fld := ⟨0x19200 + 32 * i, 8, 3⟩
def F.SES_OUT_STAT_PRIO (i : Nat) : Fld := ⟨0x19200 + 32 * i, 3, 1⟩
def F.SES_OUT_STAT_REAUTH (i : Nat) : Fld := ⟨0x19200 + 32 * i, 5, 1⟩
def F.SES_OUT_STAT_STATE (i : Nat) : Fld := ⟨0x19200 + 32 * i, 0, 3⟩
def F.SES_SESSION_NEXT : Fld := ⟨0x19154, 0, 32⟩
def F.SES_TARIFF_IDX_IDX : Fld := ⟨0x19130, 0, 7⟩
def F.SES_TARIFF_STAT_COUNT : Fld := ⟨0x19148, 16, 16⟩
def F.SES_TARIFF_STAT_PENDING : Fld := ⟨0x19148, 1, 1⟩
def F.SES_TARIFF_STAT_VALID : Fld := ⟨0x19148, 0, 1⟩
def F.SES_TIMING_METER_PERIOD : Fld := ⟨0x19104, 24, 8⟩
def F.SES_TZ_MIN : Fld := ⟨0x1910C, 0, 16⟩
def F.SES_WATERMARK : Fld := ⟨0x19150, 0, 32⟩
def F.SYS_BENCH_RELEASE_RELEASE : Fld := ⟨0x10C, 0, 1⟩
def F.SYS_BENCH_STAT_DECKLE_OK : Fld := ⟨0x120, 1, 1⟩
def F.SYS_BENCH_STAT_METER_OK : Fld := ⟨0x120, 0, 1⟩
def F.SYS_BOOT_STAT_FAIL_STEP : Fld := ⟨0x100, 8, 4⟩
def F.SYS_BOOT_STAT_STAGE : Fld := ⟨0x100, 0, 4⟩
def F.SYS_CFG_STAT_PARTIAL : Fld := ⟨0x11C, 2, 1⟩
def F.SYS_CFG_STAT_REFUSED : Fld := ⟨0x11C, 16, 16⟩
def F.SYS_CFG_STAT_TAKEN_B : Fld := ⟨0x11C, 1, 1⟩
def F.SYS_CFG_STAT_VALID : Fld := ⟨0x11C, 0, 1⟩
def F.SYS_FALLBACK_CAUSE_CAUSE : Fld := ⟨0x108, 0, 8⟩
def F.SYS_START_CNT_FAILS : Fld := ⟨0x104, 0, 8⟩
def F.SYS_START_CNT_PATH : Fld := ⟨0x104, 9, 1⟩
def F.SYS_START_CNT_PATH_MASK : Fld := ⟨0x104, 16, 12⟩
def F.SYS_START_CNT_RELEASE : Fld := ⟨0x104, 8, 1⟩
def F.SYS_START_TIME_RELEASED : Fld := ⟨0x118, 0, 16⟩
def F.SYS_START_TIME_RUN : Fld := ⟨0x118, 16, 16⟩
def F.TAM_ERASE_CNT_COUNT : Fld := ⟨0xB138, 0, 16⟩
def F.TAM_HIST_STAT_COUNT : Fld := ⟨0xB134, 8, 5⟩
def F.TAM_HIST_STAT_LOST : Fld := ⟨0xB134, 16, 16⟩
def F.TAM_HIST_STAT_NEWEST : Fld := ⟨0xB134, 0, 4⟩
def F.TAM_LOOP_CFG_EN : Fld := ⟨0xB120, 8, 4⟩
def F.TAM_SRC_MODE (i : Nat) : Fld := ⟨0xB100 + 4 * i, 0, 2⟩
def F.TAM_STICKY_FLAG : Fld := ⟨0xB12C, 0, 13⟩

end Sys2Proof.Machine
end

