-- ==== Sys2Proof/Config.lean ====
section
/-! DEFINITION. What one part fixes, and the values the spec leaves open. Every constant here is opaque:
no proof can see its value, so a statement holds whatever it is (log entries 1 and 2). -/
namespace Sys2Proof.Config

/-- A free value: the n-th value the spec leaves open in a run (log entry 2). -/
opaque freeValue : Nat → Nat

/-- SYS.SERIAL_LO and SERIAL_HI, per part (R574). -/
opaque serial : BitVec 64

/-- SYS.CAPS bits that differ per part: the temperature grade (R574). -/
opaque grade : BitVec 1

/-- SHA-256 of FIPS 180-4 over bytes: the standard's text is not in the spec (log entry 3). -/
opaque sha256 : List Byte → List Byte

/-- ECDSA over P-256 (FIPS 186): does the signature (64 bytes) verify over the hash under the public key (64 bytes)? -/
opaque ecdsaVerify : List Byte → List Byte → List Byte → Bool

/-- ECDSA signature (64 bytes) by signing key number `key` over the hash, with the nonce of draw number `n` (R505). -/
opaque ecdsaSign : (key n : Nat) → List Byte → List Byte

/-- Hercia's verification key in ROM, slot 0 (R495): 64 bytes. -/
opaque romKey : List Byte

/-- The n-th draw of the random source (R495), as 32 bytes. -/
opaque randomBytes : Nat → List Byte

/-- The public key (64 bytes) that belongs to the n-th drawn signing key. -/
opaque publicKey : Nat → List Byte

/-- Shim words of the modulator and reference tables as Hercia delivers the part, by word index in the record of R250 (R251). -/
opaque shimWord : Nat → BitVec 32

/-- The 24-tap phase-shim filter (R221): the delay in units of 10 ps and the newest 24 values, newest first. The spec gives the
filter's task, not its coefficients. -/
opaque phaseShim : Int → List Int → Int

/-- A pixel of the ROM glyph set (R396): the character, whether in 10 × 16 cells, the column and the row; true is ink. The spec names
the characters, not their shapes. -/
opaque glyph : Char → Bool → Nat → Nat → Bool

/-- A byte that the spec does not lay out, as part of the n-th free value: of a ring window by its offset in system SRAM (R72, R73), or of
a felt record by 0x10_0000 + its offset (R247, R485). -/
opaque openByte : (n offset : Nat) → Byte

/-- What MTR.LANE_DUTYm shows (05, register table): a measured time in per cent, which depends on clock periods the model does not count; a
free function of the moment it is read (log entry 13). -/
opaque laneDuty : (ts fresh m : Nat) → BitVec 32

/-- What NVF.PORT_STAT.MAX_WAIT shows: a measured time, as above (log entry 13). -/
opaque portWait : (ts fresh : Nat) → BitVec 16

end Sys2Proof.Config
end

