-- ==== Sys2Proof/Machine/RegTable.lean ====
section
/-! DEFINITION. The register tables of every block chapter: for each page its header constants, and for each register its
offset, its fields, their access codes (R15), reset values and permitted ranges. Written field by field from the register
map rules named beside each page. -/
namespace Sys2Proof.Machine

/-- The access codes of R15. -/
inductive Acc where
  | rw | ro | wo | w1c | w1s | rws | ros
  deriving DecidableEq, Repr

/-- The values a field accepts: any, one of some intervals, or a signed interval. -/
inductive Range where
  | any
  | within (l : List (Nat × Nat))
  | signed (lo hi : Int)
  deriving DecidableEq, Repr

/-- One field of a register. -/
structure FieldSpec where
  hi : Nat
  lo : Nat
  acc : Acc
  reset : Nat
  ok : Range
  deriving DecidableEq, Repr

/-- One register, or `n` registers `stride` apart. -/
structure RegSpec where
  off : Nat
  n : Nat
  stride : Nat
  fields : List FieldSpec
  deriving DecidableEq, Repr

/-- One page, or `n` pages in a row: ID and CAPS, the access of CTRL.ENABLE, and the registers from 0x100 on. -/
structure PageSpec where
  page : Nat
  n : Nat
  id : Nat
  caps : Nat
  enable : Acc
  regs : List RegSpec
  deriving DecidableEq, Repr

/-- Does a value lie in a field's permitted values? -/
def Range.holds (r : Range) (wid v : Nat) : Bool :=
  match r with
  | .any => true
  | .within l => l.any fun p => decide (p.1 ≤ v) && decide (v ≤ p.2)
  | .signed lo hi => decide (lo ≤ signedOf wid v) && decide (signedOf wid v ≤ hi)

/-- SYS, 19_reset_boot_clocks.md R574. -/
def regsSYS : List RegSpec := [
  ⟨0x100, 1, 0x0, [⟨3, 0, .ro, 0x0, .any⟩, ⟨11, 8, .ro, 0x0, .any⟩]⟩,
  ⟨0x104, 1, 0x0, [⟨7, 0, .ro, 0x0, .any⟩, ⟨8, 8, .ro, 0x0, .any⟩, ⟨9, 9, .ro, 0x0, .any⟩, ⟨27, 16, .ro, 0x0, .any⟩]⟩,
  ⟨0x108, 1, 0x0, [⟨7, 0, .ro, 0x0, .any⟩, ⟨15, 8, .ro, 0x0, .any⟩, ⟨23, 16, .ro, 0x0, .any⟩, ⟨31, 24, .ro, 0x0, .any⟩]⟩,
  ⟨0x10C, 1, 0x0, [⟨0, 0, .w1s, 0x0, .any⟩]⟩,
  ⟨0x110, 1, 0x0, [⟨31, 0, .ro, 0x0, .any⟩]⟩,
  ⟨0x114, 1, 0x0, [⟨31, 0, .ro, 0x0, .any⟩]⟩,
  ⟨0x118, 1, 0x0, [⟨15, 0, .ro, 0x0, .any⟩, ⟨31, 16, .ro, 0x0, .any⟩]⟩,
  ⟨0x11C, 1, 0x0, [⟨0, 0, .ro, 0x0, .any⟩, ⟨1, 1, .ro, 0x0, .any⟩, ⟨2, 2, .ro, 0x0, .any⟩, ⟨31, 16, .ro, 0x0, .any⟩]⟩,
  ⟨0x120, 1, 0x0, [⟨0, 0, .ro, 0x0, .any⟩, ⟨1, 1, .ro, 0x0, .any⟩]⟩]

/-- RST, 19_reset_boot_clocks.md R575. -/
def regsRST : List RegSpec := [
  ⟨0x100, 1, 0x0, [⟨0, 0, .ro, 0x1, .any⟩, ⟨1, 1, .ro, 0x0, .any⟩, ⟨2, 2, .ro, 0x1, .any⟩, ⟨3, 3, .ro, 0x0, .any⟩]⟩,
  ⟨0x104, 1, 0x0, [⟨0, 0, .w1s, 0x0, .any⟩]⟩,
  ⟨0x108, 1, 0x0, [⟨1, 0, .ro, 0x1, .any⟩, ⟨15, 8, .ro, 0x0, .any⟩]⟩,
  ⟨0x10C, 1, 0x0, [⟨8, 0, .rws, 0x0, (.within [(0, 401)])⟩]⟩,
  ⟨0x110, 1, 0x0, [⟨3, 0, .rws, 0x0, .any⟩, ⟨11, 8, .ro, 0x0, .any⟩]⟩,
  ⟨0x114, 1, 0x0, [⟨0, 0, .w1s, 0x0, .any⟩, ⟨1, 1, .w1s, 0x0, .any⟩]⟩,
  ⟨0x118, 1, 0x0, [⟨0, 0, .ro, 0x0, .any⟩, ⟨1, 1, .ro, 0x0, .any⟩, ⟨17, 8, .ro, 0x0, .any⟩]⟩]

/-- CLK, 19_reset_boot_clocks.md R576. -/
def regsCLK : List RegSpec := [
  ⟨0x100, 1, 0x0, [⟨15, 0, .ro, 0x0, .any⟩]⟩,
  ⟨0x104, 1, 0x0, [⟨15, 0, .ro, 0x0, .any⟩]⟩,
  ⟨0x108, 1, 0x0, [⟨31, 0, .ro, 0x0, .any⟩]⟩,
  ⟨0x10C, 1, 0x0, [⟨27, 0, .ro, 0x0, .any⟩]⟩]

/-- BKP, 19_reset_boot_clocks.md R577. -/
def regsBKP : List RegSpec := [
  ⟨0x100, 1, 0x0, [⟨31, 0, .ro, 0x0, .any⟩]⟩,
  ⟨0x104, 1, 0x0, [⟨31, 0, .ro, 0x0, .any⟩]⟩,
  ⟨0x108, 1, 0x0, [⟨31, 0, .rw, 0x0, .any⟩]⟩,
  ⟨0x10C, 1, 0x0, [⟨31, 0, .rw, 0x0, .any⟩]⟩,
  ⟨0x110, 1, 0x0, [⟨0, 0, .w1s, 0x0, .any⟩]⟩,
  ⟨0x114, 1, 0x0, [⟨11, 0, .rw, 0x0, (.signed (-1000) 1000)⟩]⟩,
  ⟨0x118, 1, 0x0, [⟨0, 0, .w1c, 0x1, .any⟩, ⟨1, 1, .w1c, 0x0, .any⟩, ⟨2, 2, .w1c, 0x0, .any⟩, ⟨3, 3, .w1c, 0x0, .any⟩]⟩,
  ⟨0x11C, 1, 0x0, [⟨9, 0, .rw, 0x0, .any⟩]⟩,
  ⟨0x120, 1, 0x0, [⟨31, 0, .rw, 0x0, .any⟩]⟩,
  ⟨0x180, 8, 0x4, [⟨31, 0, .ro, 0x0, .any⟩]⟩,
  ⟨0x1A0, 24, 0x4, [⟨31, 0, .rw, 0x0, .any⟩]⟩]

/-- HLK, 02_registers_host_link.md R77. -/
def regsHLK : List RegSpec := [
  ⟨0x100, 1, 0x0, [⟨0, 0, .rw, 0x0, .any⟩, ⟨1, 1, .rw, 0x0, .any⟩]⟩,
  ⟨0x104, 1, 0x0, [⟨1, 0, .ro, 0x0, .any⟩, ⟨2, 2, .ro, 0x0, .any⟩, ⟨31, 16, .ro, 0x0, .any⟩]⟩,
  ⟨0x108, 1, 0x0, [⟨31, 0, .ro, 0x0, .any⟩]⟩,
  ⟨0x10C, 1, 0x0, [⟨15, 0, .ro, 0x0, .any⟩, ⟨31, 16, .ro, 0x0, .any⟩]⟩,
  ⟨0x110, 1, 0x0, [⟨5, 0, .ro, 0x0, .any⟩, ⟨8, 8, .ro, 0x0, .any⟩, ⟨31, 16, .ro, 0x0, .any⟩]⟩,
  ⟨0x120, 1, 0x0, [⟨31, 0, .ro, 0x0, .any⟩]⟩,
  ⟨0x124, 1, 0x0, [⟨31, 0, .ro, 0x0, .any⟩]⟩,
  ⟨0x128, 1, 0x0, [⟨31, 0, .ro, 0x0, .any⟩]⟩,
  ⟨0x12C, 1, 0x0, [⟨31, 0, .ro, 0x0, .any⟩]⟩,
  ⟨0x130, 1, 0x0, [⟨31, 0, .rw, 0x0, .any⟩]⟩,
  ⟨0x134, 1, 0x0, [⟨31, 0, .rw, 0x0, .any⟩]⟩,
  ⟨0x138, 1, 0x0, [⟨31, 0, .ro, 0x0, .any⟩]⟩,
  ⟨0x13C, 1, 0x0, [⟨31, 0, .ro, 0x0, .any⟩]⟩,
  ⟨0x140, 1, 0x0, [⟨31, 0, .ro, 0x0, .any⟩]⟩,
  ⟨0x144, 1, 0x0, [⟨1, 0, .rw, 0x2, (.within [(1, 2)])⟩]⟩]

/-- HLKR, 02_registers_host_link.md R78. -/
def regsHLKR : List RegSpec := [
  ⟨0x100, 65, 0x10, [⟨2, 0, .rw, 0x2, (.within [(0, 6)])⟩, ⟨6, 4, .rw, 0x2, .any⟩, ⟨8, 8, .rw, 0x0, .any⟩]⟩,
  ⟨0x104, 65, 0x10, [⟨15, 0, .ro, 0x0, .any⟩, ⟨31, 16, .ro, 0x0, .any⟩]⟩,
  ⟨0x108, 65, 0x10, [⟨8, 0, .ro, 0x0, .any⟩, ⟨31, 16, .ro, 0x0, .any⟩]⟩,
  ⟨0x10C, 65, 0x10, [⟨7, 0, .rw, 0x1, .any⟩, ⟨31, 16, .rw, 0x0, .any⟩]⟩]

/-- DMA, 18_dma.md R543. -/
def regsDMA : List RegSpec := [
  ⟨0x100, 1, 0x0, [⟨0, 0, .w1c, 0x0, .any⟩]⟩,
  ⟨0x104, 1, 0x0, [⟨31, 0, .ro, 0x0, .any⟩]⟩,
  ⟨0x108, 1, 0x0, [⟨15, 0, .ro, 0x0, .any⟩, ⟨16, 16, .ro, 0x0, .any⟩, ⟨17, 17, .ro, 0x0, .any⟩, ⟨23, 20, .ro, 0x0, .any⟩, ⟨31, 24, .ro, 0x0, .any⟩]⟩,
  ⟨0x10C, 1, 0x0, [⟨15, 0, .ro, 0x0, .any⟩]⟩,
  ⟨0x110, 1, 0x0, [⟨31, 0, .ro, 0x0, .any⟩]⟩,
  ⟨0x200, 16, 0x40, [⟨31, 0, .rw, 0x0, .any⟩]⟩,
  ⟨0x204, 16, 0x40, [⟨31, 0, .rw, 0x0, .any⟩]⟩,
  ⟨0x208, 16, 0x40, [⟨15, 0, .rw, 0x0, .any⟩, ⟨31, 16, .rw, 0x0, .any⟩]⟩,
  ⟨0x20C, 16, 0x40, [⟨15, 0, .rw, 0x0, .any⟩, ⟨18, 16, .rw, 0x0, .any⟩, ⟨24, 24, .rw, 0x0, .any⟩, ⟨25, 25, .rw, 0x0, .any⟩]⟩,
  ⟨0x210, 16, 0x40, [⟨31, 0, .rw, 0x0, .any⟩]⟩,
  ⟨0x214, 16, 0x40, [⟨31, 0, .rw, 0x0, .any⟩]⟩,
  ⟨0x218, 16, 0x40, [⟨31, 0, .rw, 0x0, .any⟩]⟩,
  ⟨0x21C, 16, 0x40, [⟨31, 0, .rw, 0x0, .any⟩]⟩,
  ⟨0x220, 16, 0x40, [⟨31, 0, .rw, 0x0, .any⟩]⟩,
  ⟨0x224, 16, 0x40, [⟨31, 0, .rw, 0x0, .any⟩]⟩,
  ⟨0x228, 16, 0x40, [⟨31, 0, .rw, 0x0, .any⟩]⟩,
  ⟨0x22C, 16, 0x40, [⟨31, 0, .rw, 0x0, .any⟩]⟩,
  ⟨0x230, 16, 0x40, [⟨31, 0, .rw, 0x0, .any⟩]⟩,
  ⟨0x234, 16, 0x40, [⟨15, 0, .rw, 0x0, .any⟩, ⟨17, 16, .rw, 0x0, .any⟩]⟩,
  ⟨0x238, 16, 0x40, [⟨31, 0, .rw, 0x0, .any⟩]⟩,
  ⟨0x23C, 16, 0x40, [⟨31, 0, .rw, 0x0, .any⟩]⟩,
  ⟨0x600, 16, 0x20, [⟨0, 0, .w1s, 0x0, .any⟩, ⟨1, 1, .w1s, 0x0, .any⟩, ⟨2, 2, .w1s, 0x0, .any⟩, ⟨3, 3, .w1s, 0x0, .any⟩]⟩,
  ⟨0x604, 16, 0x20, [⟨31, 0, .rw, 0x0, .any⟩]⟩,
  ⟨0x608, 16, 0x20, [⟨1, 0, .ro, 0x0, .any⟩, ⟨2, 2, .ro, 0x0, .any⟩, ⟨31, 16, .ro, 0x0, .any⟩]⟩,
  ⟨0x60C, 16, 0x20, [⟨15, 0, .rw, 0x0, .any⟩, ⟨31, 16, .rw, 0x0, .any⟩]⟩,
  ⟨0x610, 16, 0x20, [⟨15, 0, .rw, 0x0, .any⟩, ⟨31, 16, .ro, 0x0, .any⟩]⟩,
  ⟨0x614, 16, 0x20, [⟨31, 0, .ro, 0x0, .any⟩]⟩,
  ⟨0x618, 16, 0x20, [⟨31, 0, .ro, 0x0, .any⟩]⟩]

/-- NVF, 16_nonvolatile_storage.md R488. -/
def regsNVF : List RegSpec := [
  ⟨0x100, 1, 0x0, [⟨1, 0, .rw, 0x0, .any⟩]⟩,
  ⟨0x104, 1, 0x0, [⟨3, 0, .ro, 0x0, .any⟩, ⟨31, 16, .ro, 0x0, .any⟩]⟩,
  ⟨0x108, 1, 0x0, [⟨7, 0, .ro, 0x0, .any⟩]⟩,
  ⟨0x10C, 1, 0x0, [⟨31, 0, .ro, 0x0, .any⟩]⟩]

/-- NVL, 16_nonvolatile_storage.md R490. -/
def regsNVL : List RegSpec := [
  ⟨0x100, 1, 0x0, [⟨0, 0, .rw, 0x0, .any⟩, ⟨15, 8, .rw, 0x3C, (.within [(1, 255)])⟩, ⟨31, 16, .rw, 0x3E8, (.within [(100, 10000)])⟩]⟩,
  ⟨0x104, 1, 0x0, [⟨1, 0, .rw, 0x0, .any⟩]⟩,
  ⟨0x108, 1, 0x0, [⟨15, 0, .rws, 0x32, (.within [(0, 1000)])⟩, ⟨16, 16, .rws, 0x0, .any⟩]⟩,
  ⟨0x10C, 1, 0x0, [⟨15, 0, .ro, 0x0, .any⟩, ⟨16, 16, .ro, 0x0, .any⟩, ⟨17, 17, .ro, 0x0, .any⟩, ⟨18, 18, .ro, 0x0, .any⟩]⟩,
  ⟨0x110, 1, 0x0, [⟨31, 0, .rw, 0x0, .any⟩]⟩,
  ⟨0x114, 1, 0x0, [⟨15, 0, .ro, 0x0, .any⟩, ⟨31, 16, .ro, 0x0, .any⟩]⟩,
  ⟨0x118, 1, 0x0, [⟨5, 0, .ro, 0x0, .any⟩, ⟨31, 16, .ro, 0x0, .any⟩]⟩,
  ⟨0x11C, 1, 0x0, [⟨9, 0, .ro, 0x0, .any⟩, ⟨31, 16, .ro, 0x0, .any⟩]⟩,
  ⟨0x120, 1, 0x0, [⟨6, 0, .ro, 0x0, .any⟩, ⟨14, 8, .ro, 0x0, .any⟩]⟩,
  ⟨0x124, 1, 0x0, [⟨0, 0, .rws, 0x0, .any⟩]⟩,
  ⟨0x128, 1, 0x0, [⟨0, 0, .ro, 0x0, .any⟩, ⟨1, 1, .ro, 0x0, .any⟩, ⟨31, 16, .ro, 0x0, .any⟩]⟩,
  ⟨0x140, 8, 0x10, [⟨0, 0, .rw, 0x0, .any⟩, ⟨14, 8, .rw, 0x0, (.within [(0, 76)])⟩]⟩,
  ⟨0x144, 8, 0x10, [⟨31, 0, .ro, 0x0, .any⟩]⟩,
  ⟨0x148, 8, 0x10, [⟨31, 0, .ro, 0x0, .any⟩]⟩,
  ⟨0x14C, 8, 0x10, [⟨6, 0, .ro, 0x0, .any⟩, ⟨23, 8, .ro, 0x0, .any⟩]⟩]

/-- SEA, 17_seal_tamper.md R525. -/
def regsSEA : List RegSpec := [
  ⟨0x100, 1, 0x0, [⟨7, 0, .ro, 0x17, .any⟩, ⟨15, 8, .ro, 0x71, .any⟩, ⟨16, 16, .ro, 0x0, .any⟩, ⟨17, 17, .ro, 0x0, .any⟩, ⟨18, 18, .ro, 0x0, .any⟩, ⟨19, 19, .ro, 0x0, .any⟩, ⟨20, 20, .ro, 0x0, .any⟩, ⟨21, 21, .ro, 0x0, .any⟩]⟩,
  ⟨0x104, 1, 0x0, [⟨2, 0, .wo, 0x0, .any⟩, ⟨5, 4, .wo, 0x0, .any⟩, ⟨9, 8, .wo, 0x0, .any⟩]⟩,
  ⟨0x108, 1, 0x0, [⟨15, 0, .rw, 0xE10, (.within [(60, 28800)])⟩]⟩,
  ⟨0x10C, 1, 0x0, [⟨15, 0, .ro, 0x0, .any⟩, ⟨23, 16, .ro, 0x0, .any⟩, ⟨25, 24, .ro, 0x0, .any⟩, ⟨27, 26, .ro, 0x0, .any⟩]⟩,
  ⟨0x110, 1, 0x0, [⟨11, 0, .ro, 0x0, .any⟩]⟩,
  ⟨0x120, 8, 0x4, [⟨31, 0, .ro, 0x0, .any⟩]⟩,
  ⟨0x140, 16, 0x4, [⟨31, 0, .rw, 0x0, .any⟩]⟩,
  ⟨0x180, 16, 0x4, [⟨31, 0, .ro, 0x0, .any⟩]⟩,
  ⟨0x1C0, 1, 0x0, [⟨31, 0, .ro, 0x0, .any⟩]⟩,
  ⟨0x1C4, 1, 0x0, [⟨2, 0, .rws, 0x0, .any⟩, ⟨5, 4, .rws, 0x0, .any⟩, ⟨9, 8, .rws, 0x0, .any⟩]⟩,
  ⟨0x1C8, 1, 0x0, [⟨3, 0, .ro, 0x1, .any⟩, ⟨15, 8, .ro, 0x3, .any⟩]⟩,
  ⟨0x200, 16, 0x4, [⟨31, 0, .rws, 0x0, .any⟩]⟩,
  ⟨0x240, 1, 0x0, [⟨31, 0, .ro, 0x0, .any⟩]⟩,
  ⟨0x244, 1, 0x0, [⟨31, 0, .rw, 0x0, .any⟩]⟩,
  ⟨0x248, 1, 0x0, [⟨11, 0, .w1s, 0x0, .any⟩]⟩,
  ⟨0x24C, 1, 0x0, [⟨15, 0, .ro, 0x0, .any⟩, ⟨19, 16, .ro, 0x0, .any⟩, ⟨23, 20, .ro, 0x0, .any⟩, ⟨31, 24, .ro, 0x0, .any⟩]⟩]

/-- TAM, 17_seal_tamper.md R526. -/
def regsTAM : List RegSpec := [
  ⟨0x100, 8, 0x4, [⟨1, 0, .rws, 0x0, (.within [(0, 2)])⟩, ⟨2, 2, .rws, 0x0, .any⟩, ⟨5, 4, .rws, 0x0, .any⟩, ⟨11, 8, .rws, 0x3, (.within [(1, 15)])⟩, ⟨16, 16, .rws, 0x0, .any⟩, ⟨17, 17, .rws, 0x0, .any⟩]⟩,
  ⟨0x120, 1, 0x0, [⟨3, 0, .rws, 0x5, (.within [(3, 8)])⟩, ⟨7, 4, .rws, 0x2, (.within [(1, 15)])⟩, ⟨11, 8, .rws, 0x0, .any⟩]⟩,
  ⟨0x124, 1, 0x0, [⟨7, 0, .rws, 0x13, .any⟩, ⟨15, 8, .rws, 0xB3, .any⟩, ⟨16, 16, .rws, 0x0, .any⟩, ⟨17, 17, .rws, 0x0, .any⟩, ⟨18, 18, .rws, 0x0, .any⟩, ⟨19, 19, .rws, 0x0, .any⟩, ⟨20, 20, .rws, 0x0, .any⟩, ⟨21, 21, .rws, 0x0, .any⟩, ⟨22, 22, .rws, 0x0, .any⟩, ⟨23, 23, .rws, 0x0, .any⟩, ⟨24, 24, .rws, 0x0, .any⟩, ⟨25, 25, .rws, 0x0, .any⟩, ⟨26, 26, .rws, 0x0, .any⟩, ⟨27, 27, .rws, 0x0, .any⟩, ⟨28, 28, .ro, 0x1, .any⟩, ⟨29, 29, .rws, 0x0, .any⟩, ⟨30, 30, .rws, 0x0, .any⟩]⟩,
  ⟨0x12C, 1, 0x0, [⟨12, 0, .rws, 0x0, .any⟩]⟩,
  ⟨0x130, 1, 0x0, [⟨12, 0, .ro, 0x0, .any⟩]⟩,
  ⟨0x134, 1, 0x0, [⟨3, 0, .ro, 0x0, .any⟩, ⟨12, 8, .ro, 0x0, .any⟩, ⟨31, 16, .ro, 0x0, .any⟩]⟩,
  ⟨0x138, 1, 0x0, [⟨15, 0, .ro, 0x0, .any⟩]⟩,
  ⟨0x13C, 1, 0x0, [⟨11, 0, .ro, 0x0, .any⟩, ⟨23, 16, .ro, 0x0, .any⟩]⟩,
  ⟨0x140, 16, 0x10, [⟨3, 0, .ro, 0x0, .any⟩, ⟨4, 4, .ro, 0x0, .any⟩, ⟨5, 5, .ro, 0x0, .any⟩, ⟨6, 6, .ro, 0x0, .any⟩, ⟨9, 8, .ro, 0x0, .any⟩]⟩,
  ⟨0x144, 16, 0x10, [⟨31, 0, .ro, 0x0, .any⟩]⟩,
  ⟨0x148, 16, 0x10, [⟨31, 0, .ro, 0x0, .any⟩]⟩]

/-- AFE, 03_measurement_inputs.md R112. -/
def regsAFE : List RegSpec := [
  ⟨0x100, 1, 0x0, [⟨31, 0, .rw, 0x0, .any⟩]⟩,
  ⟨0x104, 1, 0x0, [⟨31, 0, .rw, 0x0, .any⟩]⟩,
  ⟨0x108, 1, 0x0, [⟨0, 0, .rw, 0x0, .any⟩, ⟨15, 2, .rw, 0x3E8, (.within [(10, 16383)])⟩]⟩,
  ⟨0x10C, 1, 0x0, [⟨0, 0, .rws, 0x0, .any⟩, ⟨2, 1, .rws, 0x0, .any⟩]⟩,
  ⟨0x110, 1, 0x0, [⟨2, 0, .rws, 0x0, (.within [(0, 5)])⟩, ⟨3, 3, .rws, 0x0, .any⟩, ⟨6, 4, .rws, 0x0, (.within [(0, 5)])⟩, ⟨7, 7, .rws, 0x0, .any⟩, ⟨10, 8, .rws, 0x0, (.within [(0, 5)])⟩, ⟨11, 11, .rws, 0x0, .any⟩, ⟨14, 12, .rws, 0x0, (.within [(0, 5)])⟩, ⟨15, 15, .rws, 0x0, .any⟩, ⟨18, 16, .rws, 0x0, (.within [(0, 5)])⟩, ⟨19, 19, .rws, 0x0, .any⟩, ⟨22, 20, .rws, 0x0, (.within [(0, 5)])⟩, ⟨23, 23, .rws, 0x0, .any⟩, ⟨26, 24, .rws, 0x0, (.within [(0, 5)])⟩, ⟨27, 27, .rws, 0x0, .any⟩, ⟨30, 28, .rws, 0x0, (.within [(0, 5)])⟩, ⟨31, 31, .rws, 0x0, .any⟩]⟩,
  ⟨0x114, 1, 0x0, [⟨2, 0, .rws, 0x0, (.within [(0, 5)])⟩, ⟨3, 3, .rws, 0x0, .any⟩, ⟨6, 4, .rws, 0x0, (.within [(0, 5)])⟩, ⟨7, 7, .rws, 0x0, .any⟩, ⟨10, 8, .rws, 0x0, (.within [(0, 5)])⟩, ⟨11, 11, .rws, 0x0, .any⟩, ⟨14, 12, .rws, 0x0, (.within [(0, 5)])⟩, ⟨15, 15, .rws, 0x0, .any⟩, ⟨18, 16, .rws, 0x0, (.within [(0, 5)])⟩, ⟨19, 19, .rws, 0x0, .any⟩, ⟨22, 20, .rws, 0x0, (.within [(0, 5)])⟩, ⟨23, 23, .rws, 0x0, .any⟩, ⟨26, 24, .rws, 0x0, (.within [(0, 5)])⟩, ⟨27, 27, .rws, 0x0, .any⟩, ⟨30, 28, .rws, 0x0, (.within [(0, 5)])⟩, ⟨31, 31, .rws, 0x0, .any⟩]⟩,
  ⟨0x118, 1, 0x0, [⟨3, 0, .rws, 0x0, .any⟩]⟩,
  ⟨0x11C, 1, 0x0, [⟨15, 0, .ro, 0x0, .any⟩]⟩,
  ⟨0x120, 1, 0x0, [⟨31, 0, .ro, 0x0, .any⟩]⟩,
  ⟨0x124, 1, 0x0, [⟨31, 0, .ro, 0x0, .any⟩]⟩,
  ⟨0x128, 1, 0x0, [⟨7, 0, .ro, 0x0, .any⟩]⟩,
  ⟨0x12C, 1, 0x0, [⟨31, 0, .ro, 0x0, .any⟩]⟩,
  ⟨0x130, 1, 0x0, [⟨31, 0, .ro, 0x0, .any⟩]⟩,
  ⟨0x200, 64, 0x4, [⟨6, 0, .rws, 0, (.within [(0, 79), (127, 127)])⟩, ⟨10, 8, .rws, 0, (.within [(0, 5)])⟩, ⟨12, 12, .rws, 0x0, .any⟩]⟩]

/-- DEC, 04_decimation_resampling.md R138. -/
def regsDEC : List RegSpec := [
  ⟨0x100, 1, 0x0, [⟨0, 0, .rws, 0x0, .any⟩, ⟨2, 1, .rws, 0x1, .any⟩, ⟨15, 8, .rws, 0xA, (.within [(1, 50)])⟩, ⟨31, 16, .rws, 0x32, (.within [(1, 65535)])⟩]⟩,
  ⟨0x104, 1, 0x0, [⟨5, 0, .rws, 0x30, .any⟩, ⟨7, 7, .rws, 0x1, .any⟩, ⟨13, 8, .rws, 0x0, .any⟩, ⟨15, 15, .rws, 0x0, .any⟩, ⟨21, 16, .rws, 0x0, .any⟩, ⟨23, 23, .rws, 0x0, .any⟩, ⟨29, 24, .rws, 0x0, .any⟩, ⟨31, 31, .rws, 0x0, .any⟩]⟩,
  ⟨0x108, 1, 0x0, [⟨1, 0, .ro, 0x0, .any⟩, ⟨3, 2, .ro, 0x0, .any⟩, ⟨4, 4, .ro, 0x0, .any⟩, ⟨15, 8, .ro, 0x0, .any⟩, ⟨31, 16, .ro, 0x0, .any⟩]⟩,
  ⟨0x10C, 1, 0x0, [⟨31, 0, .ro, 0x0, .any⟩]⟩,
  ⟨0x110, 1, 0x0, [⟨31, 0, .ro, 0x0, .any⟩]⟩,
  ⟨0x114, 1, 0x0, [⟨31, 0, .ro, 0x0, .any⟩]⟩,
  ⟨0x118, 1, 0x0, [⟨31, 0, .ro, 0x0, .any⟩]⟩,
  ⟨0x11C, 1, 0x0, [⟨31, 0, .ro, 0x0, .any⟩]⟩,
  ⟨0x120, 1, 0x0, [⟨31, 0, .w1c, 0x0, .any⟩]⟩,
  ⟨0x124, 1, 0x0, [⟨31, 0, .w1c, 0x0, .any⟩]⟩,
  ⟨0x128, 1, 0x0, [⟨31, 0, .ro, 0x0, .any⟩]⟩,
  ⟨0x12C, 1, 0x0, [⟨31, 0, .ro, 0x0, .any⟩]⟩,
  ⟨0x130, 1, 0x0, [⟨15, 0, .ro, 0x0, .any⟩, ⟨31, 16, .ro, 0x0, .any⟩]⟩,
  ⟨0x200, 64, 0x4, [⟨0, 0, .rws, 0x0, .any⟩]⟩]

/-- MTR, 05_metrology_lanes.md R179. -/
def regsMTR : List RegSpec := [
  ⟨0x100, 1, 0x0, [⟨7, 0, .rw, 0xA, (.within [(1, 60)])⟩, ⟨8, 8, .rw, 0x0, .any⟩]⟩,
  ⟨0x104, 1, 0x0, [⟨15, 0, .ro, 0x0, .any⟩, ⟨17, 16, .ro, 0x0, .any⟩, ⟨19, 18, .ro, 0x0, .any⟩, ⟨21, 20, .ro, 0x0, .any⟩]⟩,
  ⟨0x108, 1, 0x0, [⟨3, 0, .ro, 0x0, .any⟩, ⟨4, 4, .ro, 0x0, .any⟩, ⟨11, 8, .ro, 0x0, .any⟩, ⟨12, 12, .ro, 0x0, .any⟩]⟩,
  ⟨0x10C, 1, 0x0, [⟨15, 0, .ro, 0x0, .any⟩, ⟨31, 16, .ro, 0x0, .any⟩]⟩,
  ⟨0x110, 1, 0x0, [⟨1, 0, .ro, 0x0, .any⟩, ⟨11, 4, .ro, 0x0, .any⟩, ⟨23, 16, .ro, 0x0, .any⟩, ⟨31, 24, .ro, 0x0, .any⟩]⟩,
  ⟨0x114, 1, 0x0, [⟨31, 0, .ro, 0x0, .any⟩]⟩,
  ⟨0x118, 1, 0x0, [⟨31, 0, .ro, 0x0, .any⟩]⟩,
  ⟨0x11C, 1, 0x0, [⟨15, 0, .ro, 0x0, .any⟩, ⟨23, 16, .ro, 0x0, .any⟩, ⟨31, 24, .ro, 0x0, .any⟩]⟩,
  ⟨0x120, 1, 0x0, [⟨31, 0, .ro, 0x0, .any⟩]⟩,
  ⟨0x124, 1, 0x0, [⟨5, 0, .rw, 0x0, .any⟩, ⟨13, 8, .rw, 0x0, .any⟩, ⟨31, 16, .ro, 0x0, .any⟩]⟩,
  ⟨0x128, 1, 0x0, [⟨31, 0, .ro, 0x0, .any⟩]⟩,
  ⟨0x12C, 1, 0x0, [⟨31, 0, .ro, 0x0, .any⟩]⟩,
  ⟨0x130, 4, 0x4, [⟨7, 0, .ro, 0x0, .any⟩, ⟨15, 8, .ro, 0x0, .any⟩, ⟨23, 16, .ro, 0x0, .any⟩, ⟨31, 24, .ro, 0x0, .any⟩]⟩,
  ⟨0x140, 16, 0x4, [⟨31, 0, .ro, 0x0, .any⟩]⟩,
  ⟨0x180, 4, 0x20, [⟨31, 0, .ro, 0x0, .any⟩]⟩,
  ⟨0x184, 4, 0x20, [⟨31, 0, .ro, 0x0, .any⟩]⟩,
  ⟨0x188, 4, 0x20, [⟨31, 0, .ro, 0x0, .any⟩]⟩,
  ⟨0x18C, 4, 0x20, [⟨31, 0, .ro, 0x0, .any⟩]⟩,
  ⟨0x190, 4, 0x20, [⟨15, 0, .ro, 0x0, .any⟩, ⟨31, 16, .ro, 0x0, .any⟩]⟩,
  ⟨0x194, 4, 0x20, [⟨15, 0, .ro, 0x0, .any⟩]⟩,
  ⟨0x198, 4, 0x20, [⟨5, 0, .ro, 0x0, .any⟩]⟩,
  ⟨0x300, 1, 0x0, [⟨31, 0, .ro, 0x0, .any⟩]⟩,
  ⟨0x304, 1, 0x0, [⟨31, 0, .ro, 0x0, .any⟩]⟩,
  ⟨0x308, 1, 0x0, [⟨15, 0, .ro, 0x0, .any⟩]⟩,
  ⟨0x30C, 1, 0x0, [⟨0, 0, .ro, 0x0, .any⟩, ⟨1, 1, .ro, 0x0, .any⟩, ⟨2, 2, .ro, 0x0, .any⟩, ⟨3, 3, .ro, 0x0, .any⟩]⟩,
  ⟨0x310, 1, 0x0, [⟨15, 0, .ro, 0x0, .any⟩, ⟨16, 16, .ro, 0x0, .any⟩, ⟨17, 17, .ro, 0x0, .any⟩, ⟨18, 18, .ro, 0x0, .any⟩]⟩,
  ⟨0x314, 1, 0x0, [⟨11, 0, .ro, 0x0, .any⟩, ⟨27, 16, .ro, 0x0, .any⟩]⟩]

/-- CAL, 07_calibration.md R253. -/
def regsCAL : List RegSpec := [
  ⟨0x100, 1, 0x0, [⟨0, 0, .rws, 0x0, .any⟩, ⟨1, 1, .rws, 0x0, .any⟩, ⟨4, 2, .rws, 0x4, (.within [(0, 6)])⟩, ⟨15, 8, .rws, 0xA, (.within [(1, 100)])⟩]⟩,
  ⟨0x104, 1, 0x0, [⟨15, 0, .rws, 0x7D0, (.within [(100, 10000)])⟩, ⟨31, 16, .rws, 0xC8, (.within [(20, 10000)])⟩]⟩,
  ⟨0x108, 1, 0x0, [⟨15, 0, .rws, 0x3E8, (.within [(100, 10000)])⟩, ⟨31, 16, .rws, 0x64, (.within [(20, 10000)])⟩]⟩,
  ⟨0x10C, 1, 0x0, [⟨15, 0, .ro, 0x0, .any⟩, ⟨18, 16, .ro, 0x0, .any⟩, ⟨22, 20, .ro, 0x0, .any⟩, ⟨23, 23, .ro, 0x0, .any⟩]⟩,
  ⟨0x110, 1, 0x0, [⟨31, 0, .ro, 0x0, .any⟩]⟩,
  ⟨0x114, 1, 0x0, [⟨31, 0, .ro, 0x0, .any⟩]⟩,
  ⟨0x118, 1, 0x0, [⟨3, 0, .rws, 0x0, .any⟩, ⟨9, 4, .rws, 0x0, .any⟩, ⟨15, 10, .rws, 0x0, .any⟩, ⟨16, 16, .rws, 0x0, .any⟩, ⟨31, 17, .rws, 0x0, .any⟩]⟩,
  ⟨0x11C, 1, 0x0, [⟨31, 0, .rws, 0x0, .any⟩]⟩,
  ⟨0x120, 1, 0x0, [⟨0, 0, .ro, 0x0, .any⟩, ⟨1, 1, .ro, 0x0, .any⟩, ⟨4, 2, .ro, 0x0, .any⟩, ⟨31, 16, .ro, 0x0, .any⟩]⟩,
  ⟨0x124, 1, 0x0, [⟨31, 0, .ro, 0x0, .any⟩]⟩,
  ⟨0x128, 1, 0x0, [⟨31, 0, .ro, 0x0, .any⟩]⟩,
  ⟨0x12C, 1, 0x0, [⟨31, 0, .ro, 0x0, .any⟩]⟩,
  ⟨0x130, 1, 0x0, [⟨31, 0, .ro, 0x0, .any⟩]⟩,
  ⟨0x134, 1, 0x0, [⟨31, 0, .ro, 0x0, .any⟩]⟩,
  ⟨0x138, 1, 0x0, [⟨15, 0, .ro, 0x0, .any⟩, ⟨31, 16, .ro, 0x0, .any⟩]⟩,
  ⟨0x140, 1, 0x0, [⟨1, 0, .rws, 0x0, (.within [(0, 2)])⟩, ⟨2, 2, .rws, 0x0, .any⟩, ⟨4, 3, .rws, 0x0, .any⟩, ⟨14, 8, .rws, 0x0, (.within [(0, 71)])⟩, ⟨18, 16, .rws, 0x0, .any⟩, ⟨22, 20, .rws, 0x0, (.within [(0, 5)])⟩]⟩,
  ⟨0x144, 1, 0x0, [⟨31, 0, .rws, 0x0, .any⟩]⟩,
  ⟨0x200, 64, 0x10, [⟨31, 0, .ros, 0x40000000, .any⟩]⟩,
  ⟨0x204, 64, 0x10, [⟨23, 0, .ros, 0x0, .any⟩]⟩,
  ⟨0x208, 64, 0x10, [⟨23, 0, .ro, 0x0, .any⟩, ⟨26, 24, .ro, 0x0, .any⟩, ⟨27, 27, .ro, 0x0, .any⟩]⟩,
  ⟨0x20C, 64, 0x10, [⟨23, 0, .ro, 0x0, .any⟩]⟩]

/-- PQE, 08_power_quality.md R270. -/
def regsPQE : List RegSpec := [
  ⟨0x100, 1, 0x0, [⟨3, 0, .rw, 0x0, .any⟩]⟩,
  ⟨0x104, 1, 0x0, [⟨15, 0, .rw, 0x384, .any⟩, ⟨31, 16, .rw, 0x44C, .any⟩]⟩,
  ⟨0x108, 1, 0x0, [⟨15, 0, .rw, 0x32, .any⟩, ⟨31, 16, .rw, 0x14, .any⟩]⟩,
  ⟨0x10C, 1, 0x0, [⟨1, 0, .rw, 0x0, .any⟩, ⟨11, 4, .rw, 0x1, .any⟩, ⟨23, 16, .rw, 0x1, .any⟩, ⟨28, 24, .rw, 0x0, .any⟩]⟩,
  ⟨0x110, 1, 0x0, [⟨5, 0, .rw, 0x0, .any⟩, ⟨13, 8, .rw, 0x0, .any⟩, ⟨21, 16, .rw, 0x0, .any⟩, ⟨29, 24, .rw, 0x0, .any⟩]⟩,
  ⟨0x114, 1, 0x0, [⟨5, 0, .rw, 0x0, .any⟩, ⟨13, 8, .rw, 0x0, .any⟩, ⟨21, 16, .rw, 0x0, .any⟩, ⟨29, 24, .rw, 0x0, .any⟩]⟩,
  ⟨0x118, 1, 0x0, [⟨0, 0, .rw, 0x0, .any⟩, ⟨1, 1, .w1s, 0x0, .any⟩, ⟨2, 2, .w1s, 0x0, .any⟩]⟩,
  ⟨0x11C, 1, 0x0, [⟨1, 0, .ro, 0x0, .any⟩, ⟨15, 8, .ro, 0x0, .any⟩, ⟨31, 16, .ro, 0xFFFF, .any⟩]⟩,
  ⟨0x120, 1, 0x0, [⟨15, 0, .ro, 0x0, .any⟩, ⟨31, 16, .ro, 0x0, .any⟩]⟩,
  ⟨0x124, 1, 0x0, [⟨31, 0, .ro, 0x0, .any⟩]⟩,
  ⟨0x140, 4, 0x20, [⟨19, 0, .rw, 0x0, (.within [(0, 0), (50000, 500000)])⟩]⟩,
  ⟨0x144, 4, 0x20, [⟨2, 0, .rw, 0x7, .any⟩, ⟨8, 8, .ro, 0x0, .any⟩, ⟨9, 9, .ro, 0x0, .any⟩, ⟨10, 10, .ro, 0x0, .any⟩, ⟨11, 11, .ro, 0x0, .any⟩]⟩,
  ⟨0x148, 4, 0x20, [⟨31, 0, .ro, 0x0, .any⟩]⟩,
  ⟨0x14C, 4, 0x20, [⟨31, 0, .ro, 0x0, .any⟩]⟩,
  ⟨0x150, 4, 0x20, [⟨31, 0, .ro, 0x0, .any⟩]⟩,
  ⟨0x154, 4, 0x20, [⟨31, 0, .ro, 0x0, .any⟩]⟩,
  ⟨0x158, 4, 0x20, [⟨15, 0, .ro, 0x0, .any⟩, ⟨31, 16, .ro, 0x0, .any⟩]⟩,
  ⟨0x15C, 4, 0x20, [⟨15, 0, .ro, 0x0, .any⟩]⟩]

/-- PLS, 06_energy_registers_pulses.md R215. -/
def regsPLS : List RegSpec := [
  ⟨0x100, 16, 0x10, [⟨0, 0, .rw, 0x0, .any⟩, ⟨3, 1, .rw, 0x0, (.within [(0, 6)])⟩, ⟨4, 4, .rw, 0x0, .any⟩, ⟨14, 8, .rw, 0xA, (.within [(2, 100)])⟩, ⟨27, 16, .rw, 0x0, .any⟩]⟩,
  ⟨0x104, 16, 0x10, [⟨19, 0, .rw, 0x2710, (.within [(1, 1000000)])⟩]⟩,
  ⟨0x108, 16, 0x10, [⟨31, 0, .ro, 0x0, .any⟩]⟩,
  ⟨0x10C, 16, 0x10, [⟨8, 0, .ro, 0x0, .any⟩, ⟨15, 15, .ro, 0x0, .any⟩, ⟨31, 16, .ro, 0x0, .any⟩]⟩]

/-- BAY, 09_outlet_control.md R310. -/
def regsBAY : List RegSpec := [
  ⟨0x100, 1, 0x0, [⟨15, 0, .rw, 0x2904, .any⟩, ⟨31, 16, .rw, 0x1D4C, .any⟩]⟩,
  ⟨0x104, 1, 0x0, [⟨15, 0, .rw, 0x1194, .any⟩, ⟨31, 16, .rw, 0x5DC, .any⟩]⟩,
  ⟨0x108, 1, 0x0, [⟨15, 0, .rw, 0xD6FC, .any⟩, ⟨31, 16, .rw, 0x190, (.within [(100, 1000)])⟩]⟩,
  ⟨0x10C, 1, 0x0, [⟨7, 0, .rw, 0x5, (.within [(1, 255)])⟩, ⟨15, 8, .rw, 0xF, (.within [(2, 30)])⟩, ⟨23, 16, .rw, 0x2, (.within [(1, 20)])⟩, ⟨31, 24, .rw, 0x8, (.within [(1, 255)])⟩]⟩,
  ⟨0x110, 1, 0x0, [⟨7, 0, .rw, 0xA, (.within [(0, 50)])⟩, ⟨23, 8, .rw, 0x3E8, (.within [(0, 10000)])⟩, ⟨31, 24, .rw, 0x3, (.within [(1, 10)])⟩]⟩,
  ⟨0x114, 1, 0x0, [⟨15, 0, .rw, 0x7D0, (.within [(100, 60000)])⟩, ⟨31, 16, .rw, 0x1388, (.within [(1000, 60000)])⟩]⟩,
  ⟨0x118, 1, 0x0, [⟨15, 0, .rw, 0xBB8, (.within [(100, 60000)])⟩, ⟨31, 16, .rw, 0xBB8, (.within [(100, 60000)])⟩]⟩,
  ⟨0x11C, 1, 0x0, [⟨15, 0, .rw, 0x2710, (.within [(1000, 65535)])⟩, ⟨31, 16, .rw, 0x7D0, (.within [(100, 6000)])⟩]⟩,
  ⟨0x120, 3, 0x4, [⟨31, 0, .ro, 0xF0F0F0F, .any⟩]⟩,
  ⟨0x12C, 1, 0x0, [⟨11, 0, .ro, 0x0, .any⟩, ⟨12, 12, .ro, 0x0, .any⟩, ⟨13, 13, .ro, 0x0, .any⟩]⟩,
  ⟨0x130, 1, 0x0, [⟨31, 0, .ro, 0x0, .any⟩]⟩]

/-- RCM, 10_residual_current_earth.md R334. -/
def regsRCM : List RegSpec := [
  ⟨0x100, 1, 0x0, [⟨7, 0, .rw, 0x14, (.within [(0, 100)])⟩, ⟨23, 8, .rw, 0x5A0, (.within [(1, 65535)])⟩, ⟨31, 24, .rw, 0x14, (.within [(1, 255)])⟩]⟩,
  ⟨0x104, 1, 0x0, [⟨11, 0, .rw, 0x0, .any⟩]⟩,
  ⟨0x108, 1, 0x0, [⟨11, 0, .ro, 0x0, .any⟩]⟩,
  ⟨0x10C, 1, 0x0, [⟨11, 0, .ro, 0x0, .any⟩, ⟨27, 16, .ro, 0x0, .any⟩]⟩,
  ⟨0x110, 1, 0x0, [⟨3, 0, .wo, 0x0, (.within [(0, 11)])⟩, ⟨8, 8, .w1s, 0x0, .any⟩]⟩,
  ⟨0x120, 8, 0x8, [⟨19, 0, .rw, 0x0, (.within [(1000, 1000000)])⟩, ⟨28, 28, .rw, 0x0, .any⟩, ⟨31, 31, .rw, 0x0, .any⟩]⟩,
  ⟨0x124, 8, 0x8, [⟨15, 0, .rw, 0x0, (.within [(1, 65535)])⟩, ⟨31, 16, .ro, 0x0, .any⟩]⟩,
  ⟨0x200, 12, 0x40, [⟨19, 0, .rw, 0x0, (.within [(0, 0), (1000, 1000000)])⟩]⟩,
  ⟨0x204, 12, 0x40, [⟨19, 0, .rw, 0x0, (.signed (-100000) 100000)⟩]⟩,
  ⟨0x208, 12, 0x40, [⟨19, 0, .rw, 0x7530, (.within [(1000, 500000)])⟩]⟩,
  ⟨0x20C, 12, 0x40, [⟨11, 0, .rw, 0x100, .any⟩, ⟨27, 16, .rw, 0xC00, .any⟩, ⟨31, 31, .rw, 0x0, .any⟩]⟩,
  ⟨0x210, 12, 0x40, [⟨0, 0, .ro, 0x0, .any⟩, ⟨1, 1, .ro, 0x0, .any⟩, ⟨2, 2, .ro, 0x0, .any⟩, ⟨3, 3, .ro, 0x0, .any⟩, ⟨4, 4, .ro, 0x0, .any⟩]⟩,
  ⟨0x214, 12, 0x40, [⟨31, 0, .ro, 0x0, .any⟩]⟩,
  ⟨0x218, 12, 0x40, [⟨31, 0, .ro, 0x0, .any⟩]⟩,
  ⟨0x21C, 12, 0x40, [⟨2, 0, .ro, 0x0, .any⟩, ⟨31, 16, .ro, 0x0, .any⟩]⟩,
  ⟨0x220, 12, 0x40, [⟨31, 0, .ro, 0x0, .any⟩]⟩,
  ⟨0x224, 12, 0x40, [⟨31, 0, .ro, 0x0, .any⟩]⟩,
  ⟨0x228, 12, 0x40, [⟨7, 0, .ro, 0x0, .any⟩, ⟨10, 8, .ro, 0x0, .any⟩, ⟨31, 16, .ro, 0x0, .any⟩]⟩,
  ⟨0x22C, 12, 0x40, [⟨31, 0, .ro, 0x0, .any⟩]⟩,
  ⟨0x230, 12, 0x40, [⟨31, 0, .ro, 0x0, .any⟩]⟩,
  ⟨0x234, 12, 0x40, [⟨31, 0, .ro, 0x0, .any⟩]⟩]

/-- AUX, 09_outlet_control.md R314. -/
def regsAUX : List RegSpec := [
  ⟨0x100, 1, 0x0, [⟨31, 0, .rw, 0x0, .any⟩]⟩,
  ⟨0x104, 1, 0x0, [⟨15, 0, .rw, 0x0, .any⟩]⟩,
  ⟨0x108, 1, 0x0, [⟨31, 0, .w1c, 0x0, .any⟩]⟩,
  ⟨0x10C, 1, 0x0, [⟨15, 0, .w1c, 0x0, .any⟩]⟩,
  ⟨0x110, 1, 0x0, [⟨31, 0, .ro, 0x0, .any⟩]⟩,
  ⟨0x200, 48, 0x4, [⟨11, 0, .ro, 0x0, .any⟩, ⟨31, 16, .ro, 0x0, .any⟩]⟩,
  ⟨0x300, 48, 0x4, [⟨11, 0, .rw, 0x0, .any⟩, ⟨27, 16, .rw, 0xFFF, .any⟩]⟩]

/-- SES, 11_sessions_billing.md R358. -/
def regsSES : List RegSpec := [
  ⟨0x100, 1, 0x0, [⟨1, 0, .rw, 0x0, (.within [(0, 2)])⟩, ⟨4, 2, .rw, 0x0, .any⟩, ⟨5, 5, .rw, 0x0, .any⟩]⟩,
  ⟨0x104, 1, 0x0, [⟨7, 0, .rw, 0xA, (.within [(1, 255)])⟩, ⟨15, 8, .rw, 0x78, (.within [(10, 255)])⟩, ⟨23, 16, .rw, 0x32, (.within [(1, 255)])⟩, ⟨31, 24, .rw, 0x0, .any⟩]⟩,
  ⟨0x108, 1, 0x0, [⟨7, 0, .rw, 0xF, .any⟩, ⟨23, 8, .rw, 0x3C, .any⟩]⟩,
  ⟨0x10C, 1, 0x0, [⟨15, 0, .rw, 0x0, (.signed (-840) 840)⟩]⟩,
  ⟨0x110, 1, 0x0, [⟨31, 0, .rw, 0x0, .any⟩]⟩,
  ⟨0x114, 1, 0x0, [⟨31, 0, .rw, 0x0, .any⟩]⟩,
  ⟨0x118, 1, 0x0, [⟨31, 0, .rw, 0x0, .any⟩]⟩,
  ⟨0x11C, 1, 0x0, [⟨31, 0, .rw, 0x0, .any⟩]⟩,
  ⟨0x120, 1, 0x0, [⟨2, 0, .wo, 0x0, .any⟩]⟩,
  ⟨0x124, 1, 0x0, [⟨0, 0, .ro, 0x0, .any⟩, ⟨3, 1, .ro, 0x0, .any⟩, ⟨31, 16, .ro, 0x0, .any⟩]⟩,
  ⟨0x128, 1, 0x0, [⟨12, 0, .ro, 0x0, .any⟩]⟩,
  ⟨0x130, 1, 0x0, [⟨6, 0, .rw, 0x0, (.within [(0, 95)])⟩]⟩,
  ⟨0x134, 1, 0x0, [⟨31, 0, .rw, 0x0, .any⟩]⟩,
  ⟨0x138, 1, 0x0, [⟨31, 0, .rw, 0x0, .any⟩]⟩,
  ⟨0x13C, 1, 0x0, [⟨31, 0, .rw, 0x0, .any⟩]⟩,
  ⟨0x140, 1, 0x0, [⟨31, 0, .rw, 0x0, .any⟩]⟩,
  ⟨0x144, 1, 0x0, [⟨0, 0, .w1s, 0x0, .any⟩, ⟨1, 1, .w1s, 0x0, .any⟩]⟩,
  ⟨0x148, 1, 0x0, [⟨0, 0, .ro, 0x0, .any⟩, ⟨1, 1, .ro, 0x0, .any⟩, ⟨31, 16, .ro, 0x0, .any⟩]⟩,
  ⟨0x14C, 1, 0x0, [⟨31, 0, .ro, 0x0, .any⟩]⟩,
  ⟨0x150, 1, 0x0, [⟨31, 0, .ro, 0x0, .any⟩]⟩,
  ⟨0x154, 1, 0x0, [⟨31, 0, .ro, 0x0, .any⟩]⟩,
  ⟨0x158, 1, 0x0, [⟨11, 0, .ro, 0x0, .any⟩]⟩,
  ⟨0x160, 1, 0x0, [⟨15, 0, .rw, 0x64, (.within [(1, 65535)])⟩, ⟨23, 16, .rw, 0x1E, (.within [(10, 255)])⟩, ⟨27, 24, .rw, 0xF, (.within [(1, 15)])⟩, ⟨31, 28, .rw, 0x0, .any⟩]⟩,
  ⟨0x200, 12, 0x20, [⟨2, 0, .ro, 0x0, .any⟩, ⟨3, 3, .ro, 0x0, .any⟩, ⟨4, 4, .ro, 0x0, .any⟩, ⟨5, 5, .ro, 0x0, .any⟩, ⟨10, 8, .ro, 0x0, .any⟩, ⟨31, 24, .ro, 0x0, .any⟩]⟩,
  ⟨0x204, 12, 0x20, [⟨31, 0, .ro, 0xFFFFFFFF, .any⟩]⟩,
  ⟨0x208, 12, 0x20, [⟨31, 0, .ro, 0x0, .any⟩]⟩,
  ⟨0x20C, 12, 0x20, [⟨31, 0, .ro, 0x0, .any⟩]⟩,
  ⟨0x210, 12, 0x20, [⟨31, 0, .ro, 0x0, .any⟩]⟩,
  ⟨0x214, 12, 0x20, [⟨31, 0, .ro, 0x0, .any⟩]⟩,
  ⟨0x218, 12, 0x20, [⟨31, 0, .ro, 0x0, .any⟩]⟩,
  ⟨0x21C, 12, 0x20, [⟨31, 0, .ro, 0x0, .any⟩]⟩]

/-- LMG, 12_load_management.md R377. -/
def regsLMG : List RegSpec := [
  ⟨0x100, 1, 0x0, [⟨1, 0, .rw, 0x0, (.within [(0, 2)])⟩, ⟨3, 2, .rw, 0x0, (.within [(0, 2)])⟩]⟩,
  ⟨0x104, 1, 0x0, [⟨13, 0, .rw, 0x3E8, (.within [(100, 10000)])⟩, ⟨23, 16, .rw, 0x1E, (.within [(10, 255)])⟩, ⟨31, 24, .rw, 0x6, (.within [(2, 127)])⟩]⟩,
  ⟨0x108, 1, 0x0, [⟨15, 0, .rw, 0x3E8, (.within [(100, 10000)])⟩, ⟨31, 16, .rw, 0x3E8, (.within [(100, 10000)])⟩]⟩,
  ⟨0x10C, 1, 0x0, [⟨19, 0, .rw, 0x0, .any⟩]⟩,
  ⟨0x110, 3, 0x4, [⟨19, 0, .rw, 0x0, (.within [(0, 0), (6000, 1000000)])⟩]⟩,
  ⟨0x120, 4, 0x4, [⟨19, 0, .rw, 0xFFFFF, .any⟩]⟩,
  ⟨0x130, 3, 0x4, [⟨19, 0, .rw, 0x0, .any⟩]⟩,
  ⟨0x140, 3, 0x4, [⟨19, 0, .ro, 0xFFFFF, .any⟩]⟩,
  ⟨0x150, 1, 0x0, [⟨23, 0, .ro, 0x0, .any⟩]⟩,
  ⟨0x154, 1, 0x0, [⟨1, 0, .ro, 0x0, .any⟩, ⟨6, 4, .ro, 0x0, .any⟩, ⟨27, 16, .ro, 0x0, .any⟩]⟩,
  ⟨0x158, 1, 0x0, [⟨15, 0, .ro, 0x0, .any⟩, ⟨31, 16, .ro, 0x0, .any⟩]⟩,
  ⟨0x160, 3, 0x4, [⟨23, 0, .rw, 0x0, .any⟩]⟩,
  ⟨0x170, 1, 0x0, [⟨10, 0, .rw, 0x0, (.within [(0, 1024)])⟩, ⟨16, 16, .w1s, 0x0, .any⟩, ⟨17, 17, .w1s, 0x0, .any⟩]⟩,
  ⟨0x174, 1, 0x0, [⟨0, 0, .ro, 0x0, .any⟩, ⟨1, 1, .ro, 0x0, .any⟩, ⟨31, 16, .ro, 0x0, .any⟩]⟩,
  ⟨0x200, 12, 0x10, [⟨19, 0, .rw, 0x0, .any⟩, ⟨20, 20, .rw, 0x0, .any⟩]⟩,
  ⟨0x204, 12, 0x10, [⟨19, 0, .ro, 0x0, .any⟩, ⟨24, 24, .ro, 0x0, .any⟩]⟩,
  ⟨0x208, 12, 0x10, [⟨19, 0, .ro, 0x0, .any⟩, ⟨24, 24, .ro, 0x0, .any⟩]⟩,
  ⟨0x20C, 12, 0x10, [⟨19, 0, .ro, 0x0, .any⟩]⟩]

/-- PLC, 14_powerline_phy.md R437. -/
def regsPLC : List RegSpec := [
  ⟨0x100, 1, 0x0, [⟨1, 0, .rw, 0x0, (.within [(0, 2)])⟩, ⟨3, 2, .rw, 0x0, (.within [(0, 2)])⟩, ⟨5, 4, .rw, 0x0, .any⟩, ⟨7, 6, .rw, 0x3, .any⟩]⟩,
  ⟨0x104, 1, 0x0, [⟨6, 0, .rw, 0x3C, (.within [(0, 60)])⟩, ⟨11, 8, .rw, 0xC, (.within [(8, 16)])⟩]⟩,
  ⟨0x108, 1, 0x0, [⟨7, 0, .rw, 0x32, (.within [(10, 255)])⟩, ⟨15, 8, .rw, 0x32, (.within [(10, 255)])⟩]⟩,
  ⟨0x10C, 1, 0x0, [⟨7, 0, .rw, 0x2E, (.within [(20, 120)])⟩, ⟨11, 8, .rw, 0x6, (.within [(3, 15)])⟩, ⟨23, 16, .rw, 0x60, (.within [(1, 255)])⟩]⟩,
  ⟨0x110, 1, 0x0, [⟨3, 0, .rw, 0x2, (.within [(1, 15)])⟩, ⟨11, 4, .rw, 0x8, (.within [(1, 255)])⟩, ⟨15, 12, .rw, 0x3, .any⟩]⟩,
  ⟨0x114, 1, 0x0, [⟨7, 0, .rw, 0x1A, .any⟩, ⟨15, 8, .rw, 0xE, .any⟩, ⟨23, 16, .rw, 0x6, .any⟩, ⟨31, 24, .rw, 0xFC, .any⟩]⟩,
  ⟨0x118, 1, 0x0, [⟨7, 0, .rw, 0xF8, .any⟩]⟩,
  ⟨0x11C, 1, 0x0, [⟨2, 0, .ro, 0x0, .any⟩, ⟨4, 3, .ro, 0x0, .any⟩, ⟨15, 8, .ro, 0x0, .any⟩, ⟨23, 16, .ro, 0x0, .any⟩, ⟨31, 24, .ro, 0x0, .any⟩]⟩,
  ⟨0x120, 1, 0x0, [⟨7, 0, .ro, 0x0, .any⟩, ⟨15, 8, .ro, 0x0, .any⟩, ⟨23, 16, .ro, 0x0, .any⟩, ⟨25, 24, .ro, 0x0, .any⟩]⟩,
  ⟨0x124, 1, 0x0, [⟨7, 0, .ro, 0x0, .any⟩, ⟨15, 8, .ro, 0x0, .any⟩, ⟨23, 16, .ro, 0x0, .any⟩]⟩,
  ⟨0x128, 1, 0x0, [⟨31, 0, .ro, 0x0, .any⟩]⟩,
  ⟨0x12C, 1, 0x0, [⟨15, 0, .ro, 0x0, .any⟩, ⟨31, 16, .ro, 0x0, .any⟩]⟩,
  ⟨0x130, 1, 0x0, [⟨15, 0, .ro, 0x0, .any⟩, ⟨31, 16, .ro, 0x0, .any⟩]⟩,
  ⟨0x134, 1, 0x0, [⟨15, 0, .ro, 0x0, .any⟩, ⟨31, 16, .ro, 0x0, .any⟩]⟩]

/-- MSH, 15_mesh_polling.md R461. -/
def regsMSH : List RegSpec := [
  ⟨0x100, 1, 0x0, [⟨1, 0, .rw, 0x0, (.within [(0, 2)])⟩, ⟨3, 2, .rw, 0x2, (.within [(1, 2)])⟩, ⟨4, 4, .rw, 0x0, .any⟩]⟩,
  ⟨0x104, 1, 0x0, [⟨15, 0, .rw, 0x0, (.within [(0, 1000)])⟩, ⟨31, 16, .rw, 0x0, .any⟩]⟩,
  ⟨0x108, 1, 0x0, [⟨7, 0, .rw, 0xF, (.within [(5, 255)])⟩, ⟨15, 8, .rw, 0x3C, .any⟩, ⟨31, 16, .rw, 0x12C, (.within [(60, 65535)])⟩]⟩,
  ⟨0x10C, 1, 0x0, [⟨3, 0, .rw, 0x3, (.within [(0, 7)])⟩, ⟨7, 4, .rw, 0x3, (.within [(0, 8)])⟩, ⟨11, 8, .rw, 0x6, (.within [(0, 8)])⟩, ⟨31, 16, .rw, 0x10, (.within [(0, 1000)])⟩]⟩,
  ⟨0x110, 1, 0x0, [⟨3, 0, .rw, 0x4, (.within [(1, 16)])⟩, ⟨15, 4, .rw, 0x320, (.within [(100, 4000)])⟩, ⟨23, 16, .rw, 0x3C, (.within [(10, 255)])⟩, ⟨31, 24, .rw, 0x3, (.within [(1, 255)])⟩]⟩,
  ⟨0x114, 1, 0x0, [⟨10, 0, .rw, 0x0, (.within [(0, 1024)])⟩, ⟨16, 16, .rw, 0x0, .any⟩]⟩,
  ⟨0x118, 1, 0x0, [⟨15, 0, .ro, 0xFFFF, .any⟩, ⟨19, 16, .ro, 0x0, .any⟩]⟩,
  ⟨0x11C, 1, 0x0, [⟨15, 0, .ro, 0xFFFF, .any⟩, ⟨25, 16, .ro, 0x0, .any⟩]⟩,
  ⟨0x120, 1, 0x0, [⟨23, 0, .ro, 0x0, .any⟩, ⟨31, 24, .ro, 0x0, .any⟩]⟩,
  ⟨0x124, 1, 0x0, [⟨15, 0, .ro, 0x0, .any⟩, ⟨31, 16, .ro, 0x0, .any⟩]⟩,
  ⟨0x128, 1, 0x0, [⟨15, 0, .ro, 0x0, .any⟩, ⟨31, 16, .ro, 0x0, .any⟩]⟩,
  ⟨0x12C, 1, 0x0, [⟨7, 0, .ro, 0x0, .any⟩, ⟨15, 8, .ro, 0x0, .any⟩, ⟨23, 16, .ro, 0x0, .any⟩, ⟨31, 24, .ro, 0x0, .any⟩]⟩,
  ⟨0x130, 1, 0x0, [⟨15, 0, .ro, 0x0, .any⟩, ⟨31, 16, .ro, 0x0, .any⟩]⟩,
  ⟨0x134, 1, 0x0, [⟨31, 0, .wo, 0x0, .any⟩]⟩,
  ⟨0x138, 1, 0x0, [⟨28, 0, .rw, 0x0, .any⟩, ⟨31, 30, .rw, 0x0, .any⟩]⟩,
  ⟨0x13C, 1, 0x0, [⟨27, 0, .rw, 0x0, .any⟩]⟩,
  ⟨0x140, 1, 0x0, [⟨7, 0, .rw, 0x8, (.within [(1, 255)])⟩, ⟨15, 8, .rw, 0x78, (.within [(10, 255)])⟩]⟩]

/-- EPD, 13_display.md R405. -/
def regsEPD : List RegSpec := [
  ⟨0x100, 1, 0x0, [⟨11, 0, .rw, 0x0, .any⟩, ⟨27, 16, .rw, 0x0, .any⟩]⟩,
  ⟨0x104, 1, 0x0, [⟨3, 0, .rw, 0x4, (.within [(4, 16)])⟩, ⟨15, 8, .rw, 0x18, (.within [(8, 255)])⟩, ⟨16, 16, .rw, 0x0, .any⟩]⟩,
  ⟨0x108, 1, 0x0, [⟨7, 0, .rw, 0xA, (.within [(1, 255)])⟩, ⟨15, 8, .rw, 0x14, (.within [(1, 255)])⟩, ⟨31, 16, .rw, 0x3E8, .any⟩]⟩,
  ⟨0x10C, 1, 0x0, [⟨15, 0, .rw, 0x0, .any⟩, ⟨16, 16, .rw, 0x0, .any⟩]⟩,
  ⟨0x110, 1, 0x0, [⟨15, 0, .rw, 0x0, .any⟩]⟩,
  ⟨0x114, 1, 0x0, [⟨15, 0, .ro, 0x0, .any⟩, ⟨18, 16, .ro, 0x0, .any⟩, ⟨19, 19, .ro, 0x0, .any⟩]⟩,
  ⟨0x118, 1, 0x0, [⟨6, 0, .rw, 0x40, (.within [(8, 64)])⟩]⟩,
  ⟨0x11C, 1, 0x0, [⟨0, 0, .ro, 0x0, .any⟩, ⟨1, 1, .ro, 0x0, .any⟩, ⟨31, 16, .ro, 0x0, .any⟩]⟩,
  ⟨0x120, 1, 0x0, [⟨31, 0, .ro, 0x0, .any⟩]⟩,
  ⟨0x124, 1, 0x0, [⟨16, 0, .ro, 0x0, .any⟩]⟩,
  ⟨0x128, 1, 0x0, [⟨1, 0, .ro, 0x0, .any⟩, ⟨7, 4, .ro, 0x0, .any⟩, ⟨8, 8, .ro, 0x0, .any⟩]⟩,
  ⟨0x12C, 1, 0x0, [⟨31, 0, .ro, 0x0, .any⟩]⟩,
  ⟨0x140, 4, 0x10, [⟨15, 0, .ro, 0x0, .any⟩, ⟨31, 16, .ro, 0x0, .any⟩]⟩,
  ⟨0x144, 4, 0x10, [⟨15, 0, .ro, 0x0, .any⟩, ⟨31, 16, .ro, 0x0, .any⟩]⟩,
  ⟨0x148, 4, 0x10, [⟨3, 0, .ro, 0x0, .any⟩, ⟨6, 4, .ro, 0x0, .any⟩, ⟨7, 7, .ro, 0x0, .any⟩, ⟨23, 8, .ro, 0x0, .any⟩]⟩,
  ⟨0x14C, 4, 0x10, [⟨15, 0, .ro, 0x0, .any⟩, ⟨23, 16, .ro, 0x0, .any⟩]⟩,
  ⟨0x180, 1, 0x0, [⟨11, 0, .rws, 0x0, .any⟩, ⟨27, 16, .rws, 0x0, .any⟩]⟩,
  ⟨0x184, 1, 0x0, [⟨11, 0, .rws, 0x0, .any⟩, ⟨27, 16, .rws, 0x0, .any⟩]⟩,
  ⟨0x188, 1, 0x0, [⟨0, 0, .rws, 0x0, .any⟩, ⟨7, 4, .rws, 0x1, .any⟩, ⟨15, 8, .rws, 0x10, (.within [(1, 255)])⟩]⟩,
  ⟨0x18C, 1, 0x0, [⟨0, 0, .w1s, 0x0, .any⟩]⟩,
  ⟨0x190, 1, 0x0, [⟨11, 0, .ro, 0x0, .any⟩, ⟨16, 16, .ro, 0x0, .any⟩, ⟨17, 17, .ro, 0x0, .any⟩, ⟨18, 18, .ro, 0x0, .any⟩, ⟨19, 19, .ro, 0x0, .any⟩]⟩,
  ⟨0x1C0, 12, 0x4, [⟨11, 0, .rws, 0x0, .any⟩, ⟨27, 16, .rws, 0x0, .any⟩, ⟨30, 30, .rws, 0x0, .any⟩, ⟨31, 31, .rws, 0x0, .any⟩]⟩]

/-- MTRK, 05_metrology_lanes.md R181. -/
def regsMTRK : List RegSpec := [
  ⟨0x100, 1, 0x0, [⟨0, 0, .rws, 0x0, .any⟩, ⟨2, 1, .rws, 0x0, .any⟩, ⟨3, 3, .rws, 0x0, .any⟩, ⟨6, 4, .rws, 0x7, .any⟩, ⟨8, 8, .rws, 0x0, .any⟩]⟩,
  ⟨0x104, 1, 0x0, [⟨19, 0, .rws, 0x0, (.within [(0, 1000000)])⟩]⟩,
  ⟨0x108, 1, 0x0, [⟨0, 0, .ro, 0x0, .any⟩, ⟨1, 1, .ro, 0x0, .any⟩, ⟨2, 2, .ro, 0x0, .any⟩, ⟨3, 3, .ro, 0x0, .any⟩, ⟨4, 4, .ro, 0x0, .any⟩, ⟨5, 5, .ro, 0x0, .any⟩, ⟨6, 6, .ro, 0x0, .any⟩, ⟨31, 16, .ro, 0x0, .any⟩]⟩,
  ⟨0x110, 3, 0x40, [⟨31, 0, .ro, 0x0, .any⟩]⟩,
  ⟨0x114, 3, 0x40, [⟨31, 0, .ro, 0x0, .any⟩]⟩,
  ⟨0x118, 3, 0x40, [⟨31, 0, .ro, 0x0, .any⟩]⟩,
  ⟨0x11C, 3, 0x40, [⟨31, 0, .ro, 0x0, .any⟩]⟩,
  ⟨0x120, 3, 0x40, [⟨31, 0, .ro, 0x0, .any⟩]⟩,
  ⟨0x124, 3, 0x40, [⟨31, 0, .ro, 0x0, .any⟩]⟩,
  ⟨0x128, 3, 0x40, [⟨31, 0, .ro, 0x0, .any⟩]⟩,
  ⟨0x12C, 3, 0x40, [⟨31, 0, .ro, 0x0, .any⟩]⟩,
  ⟨0x130, 3, 0x40, [⟨31, 0, .ro, 0x0, .any⟩]⟩,
  ⟨0x134, 3, 0x40, [⟨31, 0, .ro, 0x0, .any⟩]⟩,
  ⟨0x138, 3, 0x40, [⟨15, 0, .ro, 0x0, .any⟩, ⟨31, 16, .ro, 0x0, .any⟩]⟩,
  ⟨0x13C, 3, 0x40, [⟨15, 0, .ro, 0x0, .any⟩, ⟨31, 16, .ro, 0x0, .any⟩]⟩,
  ⟨0x140, 3, 0x40, [⟨31, 0, .ro, 0x0, .any⟩]⟩,
  ⟨0x144, 3, 0x40, [⟨31, 0, .ro, 0x0, .any⟩]⟩,
  ⟨0x1D0, 1, 0x0, [⟨31, 0, .ro, 0x0, .any⟩]⟩,
  ⟨0x1D4, 1, 0x0, [⟨31, 0, .ro, 0x0, .any⟩]⟩,
  ⟨0x1D8, 1, 0x0, [⟨31, 0, .ro, 0x0, .any⟩]⟩,
  ⟨0x1DC, 1, 0x0, [⟨15, 0, .ro, 0x0, .any⟩]⟩,
  ⟨0x1E0, 1, 0x0, [⟨31, 0, .ro, 0x0, .any⟩]⟩,
  ⟨0x1E4, 1, 0x0, [⟨31, 0, .ro, 0x0, .any⟩]⟩,
  ⟨0x1E8, 1, 0x0, [⟨31, 0, .ro, 0x0, .any⟩]⟩,
  ⟨0x1EC, 1, 0x0, [⟨31, 0, .ro, 0x0, .any⟩]⟩,
  ⟨0x1F0, 1, 0x0, [⟨31, 0, .ro, 0x0, .any⟩]⟩,
  ⟨0x1F4, 1, 0x0, [⟨31, 0, .ro, 0x0, .any⟩]⟩,
  ⟨0x1F8, 1, 0x0, [⟨31, 0, .ro, 0x0, .any⟩]⟩,
  ⟨0x1FC, 1, 0x0, [⟨31, 0, .ro, 0x0, .any⟩]⟩,
  ⟨0x200, 3, 0x10, [⟨31, 0, .ro, 0x0, .any⟩]⟩,
  ⟨0x204, 3, 0x10, [⟨31, 0, .ro, 0x0, .any⟩]⟩,
  ⟨0x208, 3, 0x10, [⟨31, 0, .ro, 0x0, .any⟩]⟩,
  ⟨0x20C, 3, 0x10, [⟨31, 0, .ro, 0x0, .any⟩]⟩,
  ⟨0x230, 1, 0x0, [⟨31, 0, .ro, 0x0, .any⟩]⟩,
  ⟨0x234, 1, 0x0, [⟨15, 0, .ro, 0x0, .any⟩, ⟨16, 16, .ro, 0x0, .any⟩, ⟨31, 24, .ro, 0x0, .any⟩]⟩,
  ⟨0x300, 1, 0x0, [⟨0, 0, .rws, 0x0, .any⟩]⟩,
  ⟨0x304, 1, 0x0, [⟨19, 0, .rws, 0x0, (.within [(0, 0), (100, 100000)])⟩]⟩,
  ⟨0x308, 1, 0x0, [⟨2, 0, .ro, 0x0, .any⟩, ⟨3, 3, .ro, 0x0, .any⟩, ⟨4, 4, .ro, 0x0, .any⟩]⟩,
  ⟨0x310, 17, 0x8, [⟨31, 0, .ros, 0x0, .any⟩]⟩,
  ⟨0x314, 17, 0x8, [⟨31, 0, .ros, 0x0, .any⟩]⟩,
  ⟨0x400, 1, 0x0, [⟨31, 0, .ro, 0x0, .any⟩]⟩,
  ⟨0x404, 1, 0x0, [⟨31, 0, .ro, 0x0, .any⟩]⟩,
  ⟨0x408, 1, 0x0, [⟨31, 0, .ro, 0x0, .any⟩]⟩,
  ⟨0x40C, 1, 0x0, [⟨31, 0, .ro, 0x0, .any⟩]⟩,
  ⟨0x410, 1, 0x0, [⟨31, 0, .ro, 0x0, .any⟩]⟩,
  ⟨0x414, 1, 0x0, [⟨31, 0, .ro, 0x0, .any⟩]⟩,
  ⟨0x418, 1, 0x0, [⟨31, 0, .ro, 0x0, .any⟩]⟩,
  ⟨0x41C, 1, 0x0, [⟨31, 0, .ro, 0x0, .any⟩]⟩]

/-- BAYK, 09_outlet_control.md R312. -/
def regsBAYK : List RegSpec := [
  ⟨0x100, 1, 0x0, [⟨0, 0, .rw, 0x0, .any⟩, ⟨1, 1, .rw, 0x0, .any⟩, ⟨2, 2, .rw, 0x0, .any⟩, ⟨3, 3, .rw, 0x0, .any⟩, ⟨4, 4, .rw, 0x0, .any⟩, ⟨5, 5, .rw, 0x0, .any⟩, ⟨6, 6, .rw, 0x0, .any⟩, ⟨7, 7, .rw, 0x0, .any⟩, ⟨9, 8, .rw, 0x0, (.within [(0, 2)])⟩, ⟨10, 10, .rw, 0x0, .any⟩, ⟨11, 11, .rw, 0x0, .any⟩, ⟨12, 12, .rw, 0x0, .any⟩]⟩,
  ⟨0x104, 1, 0x0, [⟨19, 0, .rw, 0x0, (.within [(0, 0), (6000, 80000)])⟩]⟩,
  ⟨0x108, 1, 0x0, [⟨19, 0, .rw, 0xFFFFF, (.within [(0, 100000), (1048575, 1048575)])⟩]⟩,
  ⟨0x10C, 1, 0x0, [⟨19, 0, .rw, 0x0, (.within [(0, 100000)])⟩, ⟨31, 24, .rw, 0x0, .any⟩]⟩,
  ⟨0x110, 1, 0x0, [⟨7, 0, .rw, 0x64, (.within [(10, 255)])⟩, ⟨15, 8, .rw, 0x64, (.within [(10, 255)])⟩, ⟨23, 16, .rw, 0x14, (.within [(1, 255)])⟩]⟩,
  ⟨0x114, 1, 0x0, [⟨9, 0, .rw, 0x12C, (.within [(50, 1000)])⟩]⟩,
  ⟨0x118, 1, 0x0, [⟨11, 0, .rw, 0x200, .any⟩, ⟨23, 16, .rw, 0x14, (.within [(5, 255)])⟩]⟩,
  ⟨0x11C, 1, 0x0, [⟨15, 0, .rw, 0x3E8, (.within [(100, 10000)])⟩]⟩,
  ⟨0x120, 1, 0x0, [⟨7, 0, .ro, 0xF, .any⟩, ⟨15, 8, .ro, 0x0, .any⟩, ⟨23, 16, .ro, 0x0, .any⟩, ⟨24, 24, .ro, 0x0, .any⟩, ⟨25, 25, .ro, 0x0, .any⟩, ⟨26, 26, .ro, 0x0, .any⟩, ⟨27, 27, .ro, 0x0, .any⟩, ⟨28, 28, .ro, 0x0, .any⟩]⟩,
  ⟨0x124, 1, 0x0, [⟨13, 0, .ro, 0x0, .any⟩, ⟨15, 14, .ro, 0x0, .any⟩, ⟨18, 16, .ro, 0x0, .any⟩, ⟨21, 19, .ro, 0x0, .any⟩, ⟨22, 22, .ro, 0x0, .any⟩, ⟨31, 24, .ro, 0x0, .any⟩]⟩,
  ⟨0x128, 1, 0x0, [⟨15, 0, .ro, 0x0, .any⟩, ⟨31, 16, .ro, 0x0, .any⟩]⟩,
  ⟨0x12C, 1, 0x0, [⟨19, 0, .ro, 0x0, .any⟩, ⟨26, 24, .ro, 0x0, .any⟩]⟩,
  ⟨0x130, 1, 0x0, [⟨15, 0, .ro, 0xFFFF, .any⟩, ⟨19, 16, .ro, 0x0, .any⟩]⟩,
  ⟨0x134, 1, 0x0, [⟨31, 0, .ro, 0x0, .any⟩]⟩,
  ⟨0x138, 1, 0x0, [⟨31, 0, .ro, 0x0, .any⟩]⟩,
  ⟨0x13C, 1, 0x0, [⟨31, 0, .ro, 0x0, .any⟩]⟩,
  ⟨0x140, 1, 0x0, [⟨31, 0, .ro, 0x0, .any⟩]⟩,
  ⟨0x144, 1, 0x0, [⟨7, 0, .ro, 0x0, .any⟩, ⟨15, 8, .ro, 0x0, .any⟩, ⟨31, 16, .ro, 0x0, .any⟩]⟩,
  ⟨0x148, 1, 0x0, [⟨11, 0, .rw, 0x800, .any⟩, ⟨31, 16, .rw, 0x61A8, .any⟩]⟩]

/-- Every page (R40). -/
def pages : List PageSpec := [
  ⟨0x0, 1, 0x53595301, 0x000C0100, .ro, regsSYS⟩,
  ⟨0x1, 1, 0x52535401, 0x0, .ro, regsRST⟩,
  ⟨0x2, 1, 0x434C4B01, 0x0, .ro, regsCLK⟩,
  ⟨0x3, 1, 0x424B5001, 0x20, .ro, regsBKP⟩,
  ⟨0x4, 1, 0x484C4B01, 0x00400102, .ro, regsHLK⟩,
  ⟨0x5, 1, 0x484C4B01, 0x00400102, .ro, regsHLKR⟩,
  ⟨0x6, 1, 0x444D4101, 0x310, .rw, regsDMA⟩,
  ⟨0x8, 1, 0x4E564601, 0x200, .rw, regsNVF⟩,
  ⟨0x9, 1, 0x4E564C01, 0x205C0400, .rw, regsNVL⟩,
  ⟨0xA, 1, 0x53454101, 0x20004, .ro, regsSEA⟩,
  ⟨0xB, 1, 0x54414D01, 0x40D, .ro, regsTAM⟩,
  ⟨0x10, 1, 0x41464501, 0x04104840, .rw, regsAFE⟩,
  ⟨0x11, 1, 0x44454301, 0x48208040, .rw, regsDEC⟩,
  ⟨0x12, 1, 0x4D545201, 0x3F12FF, .rw, regsMTR⟩,
  ⟨0x13, 1, 0x43414C01, 0x484008, .rw, regsCAL⟩,
  ⟨0x14, 1, 0x50514501, 0x804, .rw, regsPQE⟩,
  ⟨0x15, 1, 0x504C5301, 0xC10, .rw, regsPLS⟩,
  ⟨0x16, 1, 0x42415901, 0xFF0C, .rw, regsBAY⟩,
  ⟨0x17, 1, 0x52434D01, 0x80C, .rw, regsRCM⟩,
  ⟨0x18, 1, 0x41555801, 0xC30, .rw, regsAUX⟩,
  ⟨0x19, 1, 0x53455301, 0x601000, .rw, regsSES⟩,
  ⟨0x1A, 1, 0x4C4D4701, 0x4000C, .rw, regsLMG⟩,
  ⟨0x1C, 1, 0x504C4301, 0x21F28, .rw, regsPLC⟩,
  ⟨0x1D, 1, 0x4D534801, 0x2200400, .rw, regsMSH⟩,
  ⟨0x1E, 1, 0x45504401, 0x1004, .rw, regsEPD⟩,
  ⟨0x20, 12, 0x4D545201, 0x0, .rw, regsMTRK⟩,
  ⟨0x30, 12, 0x42415901, 0x0, .rw, regsBAYK⟩]

/-- A register found at an address: its page, the page's instance, its offset, the register and its index. -/
structure RegHit where
  spec : PageSpec
  inst : Nat
  reg : RegSpec
  idx : Nat
  deriving DecidableEq, Repr

/-- The page that holds page number `p`. -/
def findPage (p : Nat) : Option PageSpec := pages.find? fun s => decide (s.page ≤ p) && decide (p < s.page + s.n)

/-- The index of a register's copy at offset `o`, if it is one of them. -/
def RegSpec.index (r : RegSpec) (o : Nat) : Option Nat :=
  if o < r.off then none
  else if o = r.off then some 0
  else if r.stride = 0 then none
  else if (o - r.off) % r.stride = 0 ∧ (o - r.off) / r.stride < r.n then some ((o - r.off) / r.stride) else none

/-- The register at an offset among a page's registers. -/
def findRegIn : List RegSpec → Nat → Option (RegSpec × Nat)
  | [], _ => none
  | r :: rs, o => match r.index o with
    | some i => some (r, i)
    | none => findRegIn rs o

/-- The register of a block at register-space offset `a` (page × 0x1000 + offset), header excluded. -/
def findReg (a : Nat) : Option RegHit :=
  match findPage (a / 4096) with
  | none => none
  | some s => match findRegIn s.regs (a % 4096) with
    | none => none
    | some (r, i) => some ⟨s, a / 4096 - s.page, r, i⟩

/-- The header offsets of R44; 0x02C to 0x03F are reserved. -/
def isHeader (o : Nat) : Bool := o % 4 = 0 && (o < 0x2C || (0x40 ≤ o && o < 0x60))

/-- The reset value that the fields of a register give. -/
def resetOfFields : List FieldSpec → Nat
  | [] => 0
  | f :: fs => f.reset % 2 ^ (f.hi - f.lo + 1) * 2 ^ f.lo + resetOfFields fs

/-- RING_CFG reset by entry (R72, R78): SLOT_CODE, COUNT_CODE and DIR. -/
def ringCfgReset (n : Nat) : Nat :=
  let slot := if 40 ≤ n ∧ n ≤ 43 then 6 else 2
  let count := if n = 35 ∨ n = 64 then 1 else if 36 ≤ n ∧ n ≤ 39 then 3 else 2
  let dir := if n = 0 ∨ (15 ≤ n ∧ n ≤ 30) ∨ n = 35 ∨ n = 44 ∨ n = 46 then 1 else 0
  slot + 16 * count + 256 * dir

/-- The default residual rows of R324 (row r, word A or B). -/
def rcmRowReset (r : Nat) (b : Bool) : Nat :=
  let row : Nat × Nat × Nat × Nat :=  -- level µA, kind (0 DC, 1 AC), TIME ms, HOLD
    match r with
    | 0 => (6000, 0, 8000, 7952)
    | 1 => (60000, 0, 250, 202)
    | 2 => (200000, 0, 90, 42)
    | 3 => (30000, 1, 250, 214)
    | 4 => (150000, 1, 40, 4)
    | _ => (0, 0, 0, 0)
  match row with
  | (lv, kd, tm, hd) => if b then tm + 65536 * hd else lv + 2 ^ 28 * kd + (if r < 5 then 2 ^ 31 else 0)

/-- The reset word of a block register, with the per-index values of R34, R72, R112, R324 and R490. -/
def resetOfHit (h : RegHit) : Nat :=
  let base := resetOfFields h.reg.fields
  if h.spec.page = 0x05 ∧ h.reg.off = 0x100 then ringCfgReset h.idx
  else if h.spec.page = 0x10 ∧ h.reg.off = 0x200 then
    h.idx + (if 48 ≤ h.idx ∧ h.idx ≤ 59 then 5 * 256 else 0)
  else if h.spec.page = 0x17 ∧ h.reg.off = 0x120 then rcmRowReset h.idx false
  else if h.spec.page = 0x17 ∧ h.reg.off = 0x124 then rcmRowReset h.idx true
  else if h.spec.page = 0x09 ∧ h.reg.off = 0x140 ∧ h.idx = 0 then 0x1001
  else if h.spec.page = 0x00 ∧ h.reg.off = 0x110 then Config.serial.toNat % 2 ^ 32
  else if h.spec.page = 0x00 ∧ h.reg.off = 0x114 then Config.serial.toNat / 2 ^ 32
  else base

/-- What a header word of page `p` reads after reset (R45). -/
def resetOfHeader (s : PageSpec) (inst o : Nat) : Nat :=
  if o = 0x000 then s.id
  else if o = 0x004 then
    (if s.page = 0x20 ∨ s.page = 0x30 then inst
     else if s.page = 0x00 then s.caps + Config.grade.toNat else s.caps)
  else if o = 0x008 then (if s.enable = .ro then 1 else 0)
  else if o = 0x014 then (if s.page = 0x04 then 1 else 0)
  else 0

/-- What the register bank holds at an offset that lists nothing: the reset value the spec states. -/
def resetWord (a : Nat) : W32 :=
  match findPage (a / 4096) with
  | none => 0
  | some s =>
    if a % 4096 < 0x100 then BitVec.ofNat 32 (resetOfHeader s (a / 4096 - s.page) (a % 4096))
    else match findReg a with
      | some h => BitVec.ofNat 32 (resetOfHit h)
      | none => 0

/-- Is there a register at this offset of the register space (R41)? -/
def mapped (a : Nat) : Bool :=
  match findPage (a / 4096) with
  | none => false
  | some _ => if a % 4096 < 0x100 then isHeader (a % 4096) else (findReg a).isSome

end Sys2Proof.Machine
end

