-- ==== Sys2Proof/Machine/Sparse.lean ====
section
/-! DEFINITION. Sparse memories in one canonical form: pairs of address and content, addresses strictly rising, and no
entry equal to what an unlisted address reads as. The register bank and every addressed memory of State is one. -/
namespace Sys2Proof.Machine

/-- Reading: the listed content, else what an unlisted address reads as. -/
def spRead {β : Type} (d : Nat → β) : List (Nat × β) → Nat → β
  | [], a => d a
  | (x, v) :: l, a => if a = x then v else spRead d l a

/-- The list without an address. -/
def spErase {β : Type} : List (Nat × β) → Nat → List (Nat × β)
  | [], _ => []
  | (x, w) :: l, a => if a = x then spErase l a else (x, w) :: spErase l a

/-- Writing keeps the canonical form: a content equal to the unlisted one removes the entry. -/
def spWrite {β : Type} [DecidableEq β] (d : Nat → β) : List (Nat × β) → Nat → β → List (Nat × β)
  | [], a, v => if v = d a then [] else [(a, v)]
  | (x, w) :: l, a, v =>
    if a < x then (if v = d a then (x, w) :: spErase l a else (a, v) :: (x, w) :: spErase l a)
    else if a = x then (if v = d a then spErase l a else (a, v) :: spErase l a)
    else (x, w) :: spWrite d l a v

/-- Every listed address is above `b`. -/
def spAbove {β : Type} (b : Nat) (l : List (Nat × β)) : Bool := l.all fun p => decide (b < p.1)

/-- The canonical form. -/
def spWf {β : Type} [DecidableEq β] (d : Nat → β) : List (Nat × β) → Bool
  | [] => true
  | (x, v) :: l => decide (v ≠ d x) && spAbove x l && spWf d l

/-- Writing consecutive contents from an address. -/
def spWrites {β : Type} [DecidableEq β] (d : Nat → β) (l : List (Nat × β)) (a : Nat) : List β → List (Nat × β)
  | [] => l
  | v :: vs => spWrites d (spWrite d l a v) (a + 1) vs

/-- Reading `n` consecutive contents. -/
def spReads {β : Type} (d : Nat → β) (l : List (Nat × β)) (a : Nat) : Nat → List β
  | 0 => []
  | n + 1 => spRead d l a :: spReads d l (a + 1) n

end Sys2Proof.Machine
end

