-- ==== Sys2Proof/Machine/State.lean ====
section
/-! DEFINITION. The state of the device as plain data: the register bank, the rings, the memories, and what the spec gives
the blocks beside their registers; the reasons a step can stop; and the state right after reset. A register is stored once,
in the bank `regs` (offset in the register space, word), in the canonical form of Machine/Sparse.lean with the reset value as
what an unlisted offset reads. -/
namespace Sys2Proof.Machine

/-- A frame held in a ring (R61). `ref` is REF_SEQ when FLAGS.RESP is set. -/
structure Frame where
  typ : Nat
  seq : Nat
  ref : Option Nat
  epoch : Nat
  status : Nat
  ver : Nat
  payload : List Byte
  deriving DecidableEq, Repr

/-- One ring, or one half of ring 35 (R64 to R68): the held frames, oldest first; the expected SEQ (H2D) or the SEQ of the next
record (D2H); the last SEQ accepted in the previous host session (H2D); losses pending since the last marker, with the first
and last time; and whether a held frame is older than RING_IRQ.TIMEOUT (R75). -/
structure Ring where
  frames : List Frame := []
  next : Nat := 0
  prev : Nat := 0
  lost : Nat := 0
  lostFirst : Nat := 0
  lostLast : Nat := 0
  aged : Bool := false
  deriving DecidableEq, Repr

/-- A 64-bit register half held in a requester's shadow (R43): the low word's offset and the word. -/
structure Shadow where
  req : Req
  addr : Nat
  word : W32
  deriving DecidableEq, Repr

/-- A register write held while the page's soft reset runs (R46). -/
structure HeldWrite where
  req : Req
  priv : Bool
  addr : Nat
  val : W32
  deriving DecidableEq, Repr


/-- What a group's spare is doing beside carrying a channel permanently (R101, R105, R109). -/
inductive SparePhase where
  | idle
  | check   -- the spare check of R109 runs for `unit`
  | retry   -- the spare keeps `unit`'s channel until a return comparison passes (R105)
  deriving DecidableEq, Repr

/-- One modulator group: what its spare does, for which modulator, the snapshot an alarm named (R169), and the next turn. -/
structure SpareGroup where
  phase : SparePhase := .idle
  unit : Nat := 0
  snap : Nat := 0
  turn : Nat := 0
  deriving DecidableEq, Repr

/-- A sample in a lane's history (R142): its value after the channel's shims, in 2^-16 V or A, and its tags, laid out as QSTAT
bits 1 to 5 (SETTLING, UNLOCKED, INVALID, CLIPPED, BRIDGED). -/
structure Hist where
  val : Int := 0
  tags : Nat := 0
  deriving DecidableEq, Repr

/-- A lane's input sample beside its history (R239, R240): x in DEC LSB, x_clean in 2^-30 LSB, and the expected injection s and s' in
units of 10^-6 × 2^-24 LSB. -/
structure Raw where
  x : Int := 0
  clean : Int := 0
  e : Int := 0
  f : Int := 0
  deriving DecidableEq, Repr

/-- A replay asked of DEC (R169): the lane, the failed modulator and the snapshot. -/
structure Replay where
  lane : Nat
  unit : Nat
  snap : Nat
  deriving DecidableEq, Repr

/-- What the tracker keeps for one reference (R124 to R126): the last period and the phase of its last crossing, in 2^-30 input
samples, consecutive good cycles and their periods, and whether the last half cycle was low. -/
structure RefTrack where
  period : Nat := 0
  ek : Int := 0
  good : Nat := 0
  periods : List Nat := []
  low : Bool := false
  prev : Nat := 0
  deriving DecidableEq, Repr

/-- The measurement chain ahead of the lanes: AFE and DEC beside their registers. `alarms` are streams in alarm (0–71
modulators, 72–87 bitstream inputs), `uncovered` those of R111; `live` is the mask of channels that deliver samples; `fill`,
`invalid` and `bridge` run per channel in 2^-30 input samples (R133, R132) or samples (R171); `endMark` holds the samples
delivered in a stopped channel's last cycle (R134). -/
structure Measure where
  groups : List (Nat × SpareGroup) := []
  alarms : List Nat := []
  uncovered : List Nat := []
  guards : List (Nat × Nat) := []
  live : Nat := 0
  fill : List (Nat × Nat) := []
  preload : List (Nat × Int) := []
  spanLeft : List (Nat × Nat) := []
  bridge : List (Nat × Nat) := []
  endMark : List (Nat × Nat) := []
  hist : List (Nat × List Hist) := []
  shimIn : List (Nat × List Int) := []
  raw : List (Nat × List Raw) := []
  stand : List Nat := []
  standPrev : List Nat := []
  acc : Nat := 0
  idx : Nat := 0
  periodFilt : Int := 0
  outlierRun : Nat := 0
  refs : List (Nat × RefTrack) := []
  trackCfg : W32 := 0x00320A02
  trackRef : W32 := 0x000000B0
  snap : Nat := 0
  due : List Replay := []
  replay : Option Replay := none
  waiting : Option Replay := none
  caught : Bool := false
  chipPos : Nat := 0
  chips : List (Nat × Nat) := []
  deriving DecidableEq, Repr


/-- An accepted or step-rejected candidate of background calibration (R243, R244): gain (30 fraction bits), delay (10 ps), and
the standard errors in 0.01 ppm and 0.01 µrad at the nominal frequency. -/
structure BgCand where
  gain : Nat
  delay : Int
  sg : Nat
  stau : Nat
  deriving DecidableEq, Repr

/-- Background calibration of one channel: its history, newest first; the step-rejected candidates in a row; absolute
rejections in a row; whether the next window skips the step check (R246); and the sums of the open window (R240). -/
structure BgChan where
  hist : List BgCand := []
  stepRun : List BgCand := []
  absRun : Nat := 0
  skipStep : Bool := false
  usable : Nat := 0
  n : Nat := 0
  sde : Int := 0
  sdf : Int := 0
  see : Int := 0
  sff : Int := 0
  sef : Int := 0
  sdd : Int := 0
  deriving DecidableEq, Repr

/-- A timed jig operation in progress (R232, R233): usable cycles gathered and cycles passed; the sums of x_clean, of its square and of
U1·conj(I1); the sums of R240 for REF. -/
structure JigOp where
  op : Nat
  ch : Nat
  refCh : Nat
  cycles : Nat
  volt : Bool := false
  gathered : Nat := 0
  elapsed : Nat := 0
  begun : Bool := false
  n : Nat := 0
  sx : Int := 0
  sxx : Int := 0
  re : Int := 0
  im : Int := 0
  sums : BgChan := {}
  deriving DecidableEq, Repr

/-- One stored copy of the shim record in flash (R250): SET_SEQ, SET_ID, the CFG and limit images and the words of the tables by
record word index; `none` where the copy is not valid. -/
structure ShimRecord where
  seq : Nat
  id : Nat
  cfg : Nat
  limGain : Nat
  limPhase : Nat
  words : List (Nat × W32)
  deriving DecidableEq, Repr

/-- A commit in progress (R234): the step it has reached and the record being stored. -/
structure Commit where
  step : Nat
  old : Nat
  oldSeq : Nat
  record : ShimRecord
  deriving DecidableEq, Repr

/-- The background record of the felt store (R247). -/
structure BgRecord where
  seq : Nat
  setId : Nat
  chans : List (Nat × BgChan)
  gains : List (Nat × W32)
  deriving DecidableEq, Repr

/-- CAL beside its registers (R220 to R254). `active`, `pend` and `live` (the set in force, R229) hold shim words by their word index
in the record of R250; the images of CFG and the limits of the active set; `noLegal` is the interval of R230; corrections that take effect at
the next boundary; the open window's length and the cycles it still lacks. -/
structure Cal where
  readings : List Int := []
  decidedAt : Nat := 0
  modBand : Nat := 0
  active : List (Nat × W32) := []
  pend : List (Nat × W32) := []
  live : List (Nat × W32) := []
  actCfg : Nat := 0x0A10
  actGain : Nat := 0x00C807D0
  actPhase : Nat := 0x006403E8
  noLegal : Bool := false
  jigOp : Option JigOp := none
  commit : Option Commit := none
  bg : List (Nat × BgChan) := []
  nextGain : List (Nat × (Nat × Int)) := []
  windowLeft : Nat := 0
  windowLen : Nat := 0
  windowOpen : Bool := false
  recA : Option ShimRecord := some ⟨0, 0, 0x0A10, 0x00C807D0, 0x006403E8, []⟩
  recB : Option ShimRecord := some ⟨1, 0, 0x0A10, 0x00C807D0, 0x006403E8, []⟩
  takenB : Bool := true
  bgA : Option BgRecord := none
  bgB : Option BgRecord := none
  bgLastB : Bool := false
  deriving DecidableEq, Repr


/-- An entry of the legal log (R507). -/
structure LogEntry where
  seq : Nat
  code : Nat
  outlet : Nat
  offMain : Bool
  ts : Nat
  epoch : Nat
  watermark : Nat
  couch : Nat
  data : List Byte
  chain : List Byte
  deriving DecidableEq, Repr

/-- The legal log and what waits on it (R507 to R510): entries oldest first, the next LOG_SEQ, the replay's position; and
the last watermark used (R352). -/
structure Legal where
  log : List LogEntry := []
  next : Nat := 1
  replay : Option Nat := none
  watermark : Nat := 0
  deriving DecidableEq, Repr


/-- The fifteen accumulators of one outlet (R184), in micro-units modulo 2^64: quadrant lists in the order Q1 to Q4. -/
structure Accs where
  wh : List Nat := [0, 0, 0, 0]
  varh : List Nat := [0, 0, 0, 0]
  vah : List Nat := [0, 0, 0, 0]
  net : Nat := 0
  debt : Nat := 0
  hold : Nat := 0
  deriving DecidableEq, Repr

/-- The signed whole-micro-unit increments of one phase in one batch (R157). -/
structure Incr where
  dp : Int := 0
  dq : Int := 0
  ds : Int := 0
  deriving DecidableEq, Repr

/-- The result of one batch of a slot, waiting for its handover (R143, R174): its key, the increments by phase, and for the last
batch of a cycle the words of the outlet's quantity registers. -/
structure BatchRes where
  cycle : Nat
  batch : Nat
  incs : List Incr := []
  words : List (Nat × W32) := []
  tags : Nat := 0
  plaus : Bool := false
  closed : Bool := false
  deriving DecidableEq, Repr

/-- One slot: results not yet handed over (the first is the next expected) and results waiting for publication, the energy
handed out in this cycle and the remainders in 2^-32 micro-units by phase (R158, R159), Q and S of the previous cycle, and the
epoch of the context that runs (R177). -/
structure Slot where
  buf : List BatchRes := []
  handed : List BatchRes := []
  cyc : List (Int × Int × Int) := []
  rem : List (Int × Int × Int) := []
  prevQS : List (Int × Int) := []
  valid : Bool := false
  ctxEpoch : Nat := 0
  stopped : Bool := false
  deriving DecidableEq, Repr

/-- One outlet's metering beside its registers: accumulators, cycles below the creep limit by phase (R190), the aggregation sums
(R154), the increments (active, reactive, apparent) published last and accepted next for the pulse stages (R210), the tags of the last published cycle (R621), the run of cycles without INVALID (R594), the whole-cycle window. -/
structure Meter where
  acc : Accs := {}
  below : List Nat := [0, 0, 0]
  curr : List Nat := [0, 0, 0]
  pub : Int × Int × Int := (0, 0, 0)
  pubNext : Int × Int × Int := (0, 0, 0)
  aggSums : List Int := []
  aggN : Nat := 0
  aggBad : Bool := false
  lastTags : Nat := 0
  lastPlaus : Bool := false
  gapClean : Nat := 50
  uncoveredLogged : Bool := false
  waitCycle : Bool := true
  idleFrom : Nat := 0
  deriving DecidableEq, Repr

/-- The legal totals record (R196) of one copy: the outlets' accumulators with ABS and IB. -/
structure LegalRec where
  seq : Nat
  epoch : Nat
  cycle : Nat
  flags : Nat
  pfWait : Nat
  pfUnconf : Nat
  pfCurrent : Nat
  outlets : List (Accs × Bool × Nat)
  deriving DecidableEq, Repr

/-- An audit in progress of spare 16 + i: the lane audited (R166). -/
structure Audit where
  spare : Nat
  lane : Nat
  testing : Bool := false
  deriving DecidableEq, Repr

/-- A copy of an outlet's registers frozen for a requester (R161, R194). -/
structure Frozen where
  req : Req
  snap : Bool
  outlet : Nat
  words : List (Nat × W32)
  deriving DecidableEq, Repr

/-- The power-fail sequence (R201 to R206). -/
structure Pf where
  armed : Bool := false
  warned : Bool := false
  couches : Bool := false
  warnTs : Nat := 0
  closed : Nat := 0
  confirmed : Nat := 0
  waitEnded : Bool := false
  wait : Nat := 0
  timeout : Bool := false
  cutoff : Bool := false
  halted : Bool := false
  deriving DecidableEq, Repr

/-- A pulse stage beside its registers (R211 to R213): E, the remainder r, the quantity and how many of its 16 shares are still to
add, microseconds since the last start and the interval between starts, in 2^-30 input samples of 62.5 µs, and the pin. -/
structure Stage where
  e : Int := 0
  r : Nat := 0
  x : Nat := 0
  share : Nat := 0
  since : Nat := 0
  width : Nat := 0
  pin : Bool := false
  armed : Bool := false
  deriving DecidableEq, Repr

/-- MTR and PLS beside their registers. `total` counts output samples since DEC started and `readied` the batches made ready; the
copies of the legal totals and whether copy B was written last (R196, R198); the couch in progress; the outlets whose snapshots
are frozen; the channel and harmonic shown for the cycle in progress, and the words of the last complete one (R179). -/
structure Metro where
  total : Nat := 0
  readied : Nat := 0
  slots : List (Nat × Slot) := []
  meters : List (Nat × Meter) := []
  audits : List Audit := []
  auditTurn : Nat := 0
  eccSingle : List (Nat × Nat) := []
  paused : Option Nat := none
  frozen : List Frozen := []
  copyA : Option LegalRec := some ⟨0, 0, 0, 0, 0, 0, 0, []⟩
  copyB : Option LegalRec := some ⟨1, 0, 0, 0, 0, 0, 0, []⟩
  lastB : Bool := true
  couching : Option LegalRec := none
  stages : List (Nat × Stage) := []
  harmSel : Nat × Nat := (0, 0)
  harmNext : List (Nat × W32) := []
  deriving DecidableEq, Repr


/-- One step of a flash job (R469): program a 64-bit word at a byte address; pulse-erase a sector; or program `n` further words of a
record of the seal domain or of NVL whose content State holds as a structure. -/
inductive FlashStep where
  | prog (addr : Nat) (w : Nat)
  | erase (sector : Nat)
  | record (sector n : Nat)
  deriving DecidableEq, Repr

/-- What a flash job is for. -/
inductive JobKind where
  | append (stream seq ream ofs size : Nat)
  | trim (stream ream : Nat)
  | imgErase (b : Bool)
  | imgWrite (b : Bool) (n : Nat)
  | store
  | shim
  | signed (watermark ream ofs size : Nat)
  | reclaim (ream : Nat)
  | scrub (ream : Nat)
  | wrap (stream ream : Nat) (payload : List Byte)
  deriving DecidableEq, Repr

/-- A flash job: REF_SEQ and TYPE of its ring 46 command, the steps left, whether the word in hand was programmed once already, and
the erase pulses given to the sector in hand. -/
structure Job where
  kind : JobKind
  ref : Option Nat
  steps : List FlashStep
  again : Bool := false
  pulses : Nat := 0
  deriving DecidableEq, Repr

/-- A ream's index entry (R477): STATE 0 free, 1 open, 2 full, 3 erasing, 4 retired. -/
structure Ream where
  state : Nat := 0
  stream : Nat := 0
  reamSeq : Nat := 0
  first : Nat := 0
  last : Nat := 0
  ofs : Nat := 0
  records : Nat := 0
  erases : Nat := 0
  deriving DecidableEq, Repr

/-- A stream's head (R477): NEXT_SEQ and the next REAM_SEQ. -/
structure Head where
  next : Nat := 0
  reamSeq : Nat := 0
  deriving DecidableEq, Repr

/-- A stored configuration record (R468, R556): SEQ and register words. -/
structure CfgRecord where
  seq : Nat
  regs : List (Nat × W32)
  deriving DecidableEq, Repr

/-- The felt store and the flash beside the registers of NVF and NVL. `felt` holds the bytes of the regions no other field holds;
`flash` the programmed bytes by byte address; `jobs` the flash jobs, seal-domain jobs ahead; `deferMs` the time a step has been
deferred; words and sectors whose step a loss of supply cut off, by first byte address, length and target word (R472); `lost` the records a scrub has found invalid, by stream and SEQ (R484); the remap table, oldest entry first; the configuration record copies. -/
structure Storage where
  felt : List Host.Cell := []
  flash : List Host.Cell := []
  reams : List (Nat × Ream) := []
  heads : List (Nat × Head) := []
  jobs : List Job := []
  deferMs : Option Nat := none
  supplyLow : Bool := false
  torn : List (Nat × (Nat × Nat)) := []
  lost : List (Nat × Nat) := []
  remap : List (Nat × Nat) := []
  couchIdx : Nat := 255
  cfgA : Option CfgRecord := none
  cfgB : Option CfgRecord := none
  cfgLastB : Bool := true
  cfgImage : List (Nat × W32) := []
  holdupWord : Option Nat := none
  sigArch : Nat := 0
  deriving DecidableEq, Repr


/-- BAY[k] beside its registers (R272 to R313): the commanded contactor drives and the alarm's hold; the lock drive (direction 0 none,
1 lock, 2 unlock; attempts made; an automatic unlock that waits); the class under
confirmation (whether any was confirmed since enable, periods in a row, period of its first appearance, whether it was confirmed
under the present drive); flicker windows; the pilot setting due at the next rising edge and the pauses; the mirror; voltage and
proximity counts; what the state machine remembers of the current stop, fault and offer; and the overcurrent judgement. -/
structure Outlet where
  conM : Bool := false
  conA : Bool := false
  alarmHold : Bool := false
  lckA : Bool := false
  lckB : Bool := false
  lockDir : Nat := 0
  lockTry : Nat := 0
  lockWait : Bool := false
  unlockDue : Bool := false
  known : Bool := false
  read : Bool := false
  run : Nat := 0
  since : Nat := 0
  fresh : Bool := false
  badWins : Nat := 0
  diodeBad : Nat := 0
  nextPilot : Option (Nat × Nat) := none
  pauseNext : Nat := 0
  paused : Bool := false
  mirOpen : Bool := false
  mirUs : Nat := 0
  awaitOpen : Bool := false
  weldCheck : Bool := false
  weldV : Bool := false
  lowTs : Nat := 0
  seq : Nat := 0xFFFFFFFF
  tripSeq : Nat := 0xFFFFFFFF
  tripDue : Bool := false
  openCause : Nat := 0
  causeOut : Bool := false
  vHigh : Nat := 0
  vLow : Nat := 0
  vAbs : Bool := false
  skip : Bool := false
  ppRow : Nat := 0
  ppRun : Nat := 0
  ppKnown : Bool := false
  ppNew : Bool := false
  closeCap : Nat := 0
  allowClose : Bool := false
  blocked : Bool := false
  fault : Nat := 0
  byAllow : Bool := false
  stateF : Bool := false
  entryCycle : Nat := 0
  seenCycle : Nat := 0
  excess : Bool := false
  gross : Nat := 0
  low : Bool := false
  current : Nat := 0
  grace : List Nat := []
  deriving DecidableEq, Repr

/-- A residual self-test in progress (R329): milliseconds since its start, the sums of DC and AC in the span in hand and its count,
the baselines, the first failure, and whether it follows a trip. -/
structure SelfTest where
  ms : Nat := 0
  dc : Int := 0
  ac : Nat := 0
  n : Nat := 0
  dc0 : Int := 0
  ac0 : Nat := 0
  result : Nat := 1
  deriving DecidableEq, Repr

/-- RCM of one outlet beside its registers (R319 to R333): the converted tap samples, newest first; samples since the channel
started; evaluations for which the counters are held; the row counters; the saturation of the last evaluation; the test latch;
the self-test, an automatic start that waits, whether the test after the trip has passed, milliseconds of calm after a trip;
the protective-earth cause in force and the codes in a row against it; the level of TW (2: the square wave); and whether the last test passed. -/
structure Rcm where
  taps : List Int := []
  count : Nat := 0
  held : Nat := 0
  cnt : List Nat := [0, 0, 0, 0, 0, 0, 0, 0]
  testLatch : Bool := false
  deciding : Bool := false
  test : Option SelfTest := none
  auto : Bool := false
  postOk : Bool := false
  postDue : Bool := false
  calm : Nat := 0
  lastOk : Bool := false
  pe : Nat := 0
  peRun : Nat := 0
  tw : Nat := 0
  deriving DecidableEq, Repr


/-- An outlet's session beside its registers (R343 to R351): the latched fields, the IDENTIFY that waits for a referral's end, the
start totals and time, the START watermark, the legal register at the last couch, the cost accumulator, tags, the held or acting
stop cause, whether the next couch closes it, and whether its STOP record is under way. -/
structure Session where
  key : List Byte := [0, 0, 0, 0, 0, 0, 0, 0]
  context : List Byte := [0, 0, 0, 0, 0, 0, 0, 0]
  limit : Nat := 0
  source : Nat := 0
  group : Nat := 0
  referral : Option Nat := none
  start : Accs := {}
  abs : Bool := false
  startTs : Nat := 0
  startMark : Nat := 0
  prev : Nat := 0
  coupled : Nat := 0
  cost : Nat := 0
  tags : Nat := 0
  held : Option Nat := none
  reason : Nat := 0
  wait : Bool := false
  notOpen : Bool := false
  stopping : Bool := false
  retry : Bool := false
  deriving DecidableEq, Repr

/-- A signed record asked for: the 128-byte body with WATERMARK zero, its ring, its outlet, and the command it answers (R351, R353). -/
structure SignReq where
  body : List Byte
  ring : Nat
  outlet : Nat
  ref : Option Nat
  deriving DecidableEq, Repr

/-- A METER record to be made at the next couch of an outlet (R355). -/
structure MeterReq where
  outlet : Nat
  context : List Byte
  ref : Option Nat
  deriving DecidableEq, Repr

/-- A record staged in the felt store (R353): its 192 bytes, watermark and request; whether it was queued and appended. -/
structure Staged where
  bytes : List Byte
  mark : Nat
  req : SignReq
  queued : Bool
  delivered : Bool
  deriving DecidableEq, Repr

/-- An open-session entry of the felt store (R346): the session, with the register values restored from it. -/
structure OpenEntry where
  session : Session
  words : List (Nat × W32)
  deriving DecidableEq, Repr

/-- SES and the signing pipeline beside the registers: sessions by outlet, records waiting for the signer (the first is being signed),
METER requests, the staged record, records refused their append, the open entries and SESSION_NEXT of the felt store, the last
couch, the cache and the two tariff banks (R337, R348: they live in system SRAM), and the local minute of the last periodic
reading. -/
structure Sessions where
  sessions : List (Nat × Session) := []
  queue : List SignReq := []
  meters : List MeterReq := []
  staged : Option Staged := none
  retry : Bool := false
  entries : List (Nat × OpenEntry) := []
  nextId : Nat := 1
  last : Option (LegalRec × Nat) := none
  restore : List (Nat × OpenEntry) := []
  switchAt : Option Nat := none
  tzNow : Int := 0
  deriving DecidableEq, Repr


/-- A challenge drawn for a seal session, with what it latched (R496). -/
structure Challenge where
  bytes : List Byte
  slot : Nat
  role : Nat
  dur : Nat
  deriving DecidableEq, Repr

/-- A key operation in progress (R504): 1 KEYGEN, 2 VK_INSTALL, 3 VK_REVOKE. -/
structure KeyOp where
  op : Nat
  slot : Nat
  roles : Nat
  data : List Byte
  deriving DecidableEq, Repr

/-- A key container (R501): SEQ, the signing key by the number of its draw, and slots 1 to 3 with role masks. -/
structure KeyBox where
  seq : Nat
  key : Option Nat
  slots : List (Nat × (List Byte × Nat))
  deriving DecidableEq, Repr

/-- The seal core beside its registers (R492 to R513): the waiting challenge; a VERIFY in progress with the signature it was given; the
key operation in progress; the signing key in the internal registers and the verification slots; the containers of image copies A
and B and which was written last; the key RAM's KEK (of which signing key); whether TAM erased it; whether the image copies verify;
and the readout port: 0 sign-on, 1 identified, 2 query, with what it last sent. -/
structure SealCore where
  chal : Option Challenge := none
  verify : Option (Challenge × List Byte) := none
  op : Option KeyOp := none
  key : Option Nat := none
  slots : List (Nat × (List Byte × Nat)) := []
  boxA : Option KeyBox := none
  boxB : Option KeyBox := none
  boxLastB : Bool := false
  kek : Option Nat := none
  erasedByTam : Bool := false
  imgA : Bool := true
  imgB : Bool := true
  port : Nat := 0
  sent : List Byte := []
  deriving DecidableEq, Repr

/-- TAM beside its registers (R516, R519): the indexes of history entries not yet reported, oldest first, and the loops' sequences. -/
structure Tamper where
  waiting : List Nat := []
  loops : List (Nat × Nat) := []
  deriving DecidableEq, Repr


/-- An open event of PQE (R259 to R263): KIND, feeder, phases at the start, FLAGS, EVENT_ID, start time, cycle and half, the extreme
value with its phase, UDIN and CAPTURE_ID. -/
structure PqEvent where
  kind : Nat
  feeder : Nat
  phases : Nat
  flags : Nat
  id : Nat
  t0 : Nat
  cycle : Nat
  half : Nat
  phase : Nat
  ext : Nat
  udin : Nat
  capture : Nat
  deriving DecidableEq, Repr

/-- One cycle held in the capture history (R265, R269): its number, DEC.INCR, the time of sample 0 at the pins and the tags of each slot. -/
structure CapCycle where
  cycle : Nat
  incr : Nat
  t0 : Nat
  tags : List Nat
  deriving DecidableEq, Repr

/-- PQE beside its registers (R255 to R269): open events; instants without a value in a row by feeder and phase; the sample count and
the time of the last instant; the cycles held; whether filling starts at the next boundary; the trigger cycle of the capture in
progress; the next CAPTURE_ID; and the slot and cycle delivered next. -/
structure Pqe where
  events : List PqEvent := []
  miss : List (Nat × Nat) := []
  last : Nat := 0
  lastT : Nat := 0
  cycles : List CapCycle := []
  t0 : Nat := 0
  fillNext : Bool := false
  trig : Nat := 0
  nextId : Nat := 0
  slot : Nat := 0
  pos : Nat := 0
  deriving DecidableEq, Repr


/-- A post's report as the master holds it (R369), for site phases L1 to L3. -/
structure PostReport where
  applied : Nat
  demand : List Nat
  prio : List Nat
  minA : List Nat
  safeA : List Nat
  deriving DecidableEq, Repr

/-- A budget sent to the post of a table entry (R372): SEQ, time of its last transmission, and B for site phases L1 to L3. -/
structure SentBudget where
  post : Nat
  seq : Nat
  ts : Nat
  b : List Nat
  deriving DecidableEq, Repr

/-- LMG beside its registers (R360 to R376): participants in the order of joining; old allocations held with the time of the decrease
(R364); outlet epochs LMG knows; since when (time + 1) an outlet draws well below its allocation, and outlets whose demand is reclaimed
(R362); constraints in overload (5 × phase + index); the lease's end and the master epoch of the budget in force; whether a round
has met it; and the master's view: reports by table entry, computed budgets, budgets sent, and its SEQ. -/
structure Load where
  joined : List Nat := []
  held : List (Nat × (Nat × Nat)) := []
  epochs : List (Nat × Nat) := []
  below : List (Nat × Nat) := []
  reclaimed : List Nat := []
  frozenC : List Nat := []
  leaseEnd : Nat := 0
  master : Option Nat := none
  met : Bool := false
  reports : List (Nat × PostReport) := []
  targets : List (Nat × List Nat) := []
  sent : List SentBudget := []
  seq : Nat := 0
  deriving DecidableEq, Repr


/-- The start counters as each copy holds them (R557 to R560): FAILS, RELEASE, PATH, PATH_MASK and the three newest causes. -/
structure StartCnt where
  fails : Nat := 0
  release : Bool := false
  path : Bool := false
  mask : Nat := 0
  hist : Nat := 0
  deriving DecidableEq, Repr

/-- The start sequence and power states beside their registers (R544 to R570): bench mode; whether no fabric clock runs, so that the
host link and the readout port stay silent (R562); whether the seal core runs from ROM only (R563); the start counters of backup
word 0 and of the felt store; the epoch of backup word 1 and of the felt record (R557); whether the main domain is in reset; whether a
start is due, the step a start hangs in and what its tests answer; the fuse map, its entries as last sensed, LOCK and a programming in
progress (R550 to R552); and the retained SRAM (R570). -/
structure Boot where
  bench : Bool := false
  silent : Bool := false
  romOnly : Bool := false
  bk : Option StartCnt := none
  felt : Option StartCnt := none
  bkEpoch : Option Nat := none
  feltEpoch : Nat := 0
  off : Bool := false
  starting : Bool := true
  hang : Option (Nat × StartOutcome) := none
  fuse : List (Nat × Nat) := []
  sensed : List (Nat × Nat) := []
  fuseLock : Bool := false
  fuseJob : Option (Nat × Nat) := none
  rsram : List (Nat × W32) := []
  deriving DecidableEq, Repr


/-- An update that waits or runs (R389 to R394): the command it answers; whether it is the blind clear; MODE asked or run, band;
UPGRADED, CLIPPED, MASKED, TEMP_STALE; the pixels it takes (0 outside the deckle, 1 the deckle, 2 both); the rectangle; FRAMES, P and
the current frame; and how many rows of that frame were driven before a power loss (R401). -/
structure Update where
  ref : Option Nat := none
  blind : Bool := false
  mode : Nat := 0
  band : Nat := 0
  upgraded : Bool := false
  clipped : Bool := false
  masked : Bool := false
  stale : Bool := false
  zone : Nat := 0
  x : Nat := 0
  y : Nat := 0
  w : Nat := 0
  h : Nat := 0
  frames : Nat := 0
  p : Nat := 0
  frame : Nat := 0
  skip : Nat := 0
  deriving DecidableEq, Repr

/-- A deckle layout (R395): DECKLE_XY, DECKLE_WH, DECKLE_CFG and FIELD[0] to FIELD[11]. -/
structure DeckleLayout where
  xy : W32
  wh : W32
  cfg : W32
  fields : List W32
  deriving DecidableEq, Repr

/-- What the writer last put into an outlet's field (R356, R397): the situation (0 idle, 1 session, 2 after STOP, 3 bench mode), the
lines, the signed record they follow, the legal register shown and the time. -/
structure DeckleField where
  sit : Nat
  lines : List (List Char)
  mark : List Byte
  reg : Nat
  ts : Nat
  deriving DecidableEq, Repr

/-- EPD beside its registers (R379 to R406): updates by slot and the one that waits; supply enables and discharge controls; time of
the last TEMP_HOST write; the layout in force, the stored layout and whether it has still to take effect; the newest START or STOP
record of each outlet with its time; and what the fields show, with whether it has still to be drawn. -/
structure Panel where
  slots : List (Nat × Update) := []
  waiting : Option Update := none
  epwr : Nat := 0
  edis : Nat := 3
  hostTs : Nat := 0
  layout : Option DeckleLayout := none
  stored : Option DeckleLayout := none
  storedNew : Bool := false
  marks : List (Nat × (List Byte × Nat)) := []
  shown : List (Nat × DeckleField) := []
  due : Bool := false
  deriving DecidableEq, Repr


/-- A transmission MSH asks of PLC (R424): the bytes, MODE, SPAN, the phase it names, and whether it is an acknowledgement. -/
structure PlcReq where
  bytes : List Byte
  mode : Nat
  span : Nat
  phase : Option Nat
  isAck : Bool
  deriving DecidableEq, Repr

/-- PLC beside its registers (R407 to R438): requests PLC has not taken yet; requests taken, the first on the line while TX_BUSY is 1;
the PLTXEN pins (bit 0 phase A); and the phases of the frame on the line, by symbol and carrier, in units of π/4. -/
structure Plc where
  asked : List PlcReq := []
  queue : List PlcReq := []
  txen : Nat := 0
  wave : List (List Nat) := []
  deriving DecidableEq, Repr


/-- The network header (R441): PATH_LEN is the length of `path`. -/
structure NetHdr where
  orig : Nat
  dest : Nat
  nseq : Nat
  hops : Nat := 0
  idx : Nat := 0
  pcost : Nat := 0
  prio : Nat := 0
  path : List Nat := []
  deriving DecidableEq, Repr

/-- A frame MSH has to send (R441 to R452): type, FLAGS.UNSOL, ACKREQ, receiver, network header, the content after the headers, the
end of the reception of a relayed frame, its LSEQ, failed attempts, whether the attempt through another candidate was made, BE, where it
stands (0 backing off, 1 with PLC, 2 awaiting its ACK), and the pushes it carries (SEQ and E2E). -/
structure MeshTx where
  ftype : Nat
  unsol : Bool := false
  ack : Bool := true
  rx : Nat
  net : Option NetHdr := none
  body : List Byte := []
  rxTs : Option Nat := none
  lseq : Option Nat := none
  fails : Nat := 0
  alt : Bool := false
  be : Nat := 0
  stage : Nat := 0
  pushes : List (Nat × Bool) := []
  deriving DecidableEq, Repr

/-- A frame PLC has delivered (R432), with its time. -/
structure MeshRx where
  bytes : List Byte
  mode : Nat
  snr : Int
  erased : Nat
  ts : Nat
  deriving DecidableEq, Repr

/-- An acknowledgement due (R442). -/
structure AckDue where
  rx : Nat
  mode : Nat
  snr : Int
  erased : Nat
  deriving DecidableEq, Repr

/-- A neighbour (R444 to R452): the pair DEV_EPOCH and INC, the SNR of its last frame here and the SNR it reported for this node, DR,
rung with the failed and clean attempts in a row (R436), failed attempts in a row (R449), whether the entry is valid, whether its
HELLO lists this node, CHOSEN (0 before the exchange), requests sent and NONCE, what its HELLO says, the last LSEQ accepted from it
(unicast, broadcast), the next LSEQ to it, and when it was last heard. -/
structure Neigh where
  epoch : Nat := 0
  inc : Nat := 0
  snrIn : Int := -40
  snrOut : Int := -40
  dr : Nat := 192
  rung : Nat := 1
  fails : Nat := 0
  cleans : Nat := 0
  failRun : Nat := 0
  valid : Bool := true
  lists : Bool := false
  chosen : Nat := 0
  reqs : Nat := 0
  nonce : List Byte := []
  master : Nat := 0xFFFF
  costM : Nat := 0xFFFF
  hopsM : Nat := 8
  nextM : Nat := 0xFFFF
  seqU : Option Nat := none
  seqB : Option Nat := none
  next : Nat := 0
  ts : Nat := 0
  deriving DecidableEq, Repr

/-- A candidate of a destination row (R444). -/
structure Cand where
  via : Nat
  cost : Nat
  hops : Nat
  direct : Bool
  ts : Nat
  deriving DecidableEq, Repr

/-- A destination row: its candidates, the direct neighbour first, and the selected next hop. -/
structure RouteRow where
  dest : Nat := 0
  cands : List Cand := []
  sel : Option Nat := none
  deriving DecidableEq, Repr

/-- A USER or REMOTE_REQ section that waits for a poll (R454, R455): destination, priority, the section, and the push it answers. -/
structure MeshSec where
  dest : Nat
  prio : Nat
  bytes : List Byte
  push : Option (Nat × Bool) := none
  deriving DecidableEq, Repr

/-- A poll outstanding (R454): destination, list index, when it was sent, and whether the entry has LM. -/
structure PollOut where
  dest : Nat
  idx : Nat
  ts : Nat
  lm : Bool
  deriving DecidableEq, Repr

/-- An end-to-end acknowledgement awaited (R456): the pushed frame's SEQ, destination, NSEQ and the time. -/
structure E2e where
  ref : Nat
  dest : Nat
  nseq : Nat
  ts : Nat
  deriving DecidableEq, Repr

/-- A remote command awaiting its response at the master (R457). -/
structure RemoteOut where
  dest : Nat
  rseq : Nat
  ref : Nat
  typ : Nat
  deriving DecidableEq, Repr

/-- MSH beside its registers (R439 to R462): INC and the times it advanced; frames to send and the one being sent; the ACK due; frames
delivered and not judged; neighbours and destination rows; newest ORIG and NSEQ pairs with their times; NSEQ and broadcast LSEQ;
malformed frames by transmitter with their times; quarantines with their ends; the last conflicting HELLO; sections waiting;
end-to-end acknowledgements; the polling cycle (next index, number, start, last LM answer) and its polls; when the node was last
polled and whether its route has just become valid; remote commands out, responses kept, and requests to be executed. -/
structure Mesh where
  inc : Nat := 0
  incTs : List Nat := []
  outq : List MeshTx := []
  cur : Option MeshTx := none
  ack : Option AckDue := none
  inbox : List MeshRx := []
  neigh : List (Nat × Neigh) := []
  rows : List (Nat × RouteRow) := []
  dups : List (Nat × (Nat × Nat)) := []
  nseq : Nat := 0
  bseq : Nat := 0
  malf : List (Nat × Nat) := []
  quar : List (Nat × Nat) := []
  conflict : Option (Nat × Nat) := none
  secs : List MeshSec := []
  e2e : List E2e := []
  polls : List PollOut := []
  cycIdx : Nat := 0
  cycNum : Nat := 0
  cycStart : Nat := 0
  cycLm : Nat := 0
  cycOn : Bool := false
  polled : Nat := 0
  freshRoute : Bool := false
  remotes : List RemoteOut := []
  served : List (Nat × (Nat × List Byte)) := []
  todo : List (Nat × List Byte) := []
  deriving DecidableEq, Repr


/-- A DMA channel beside its registers (R527 to R541): whether its descriptor came from SRAM and from where, the elements it has moved,
whether the wait of the pass in hand is over, polls made in it, and whether its last element has been moved. -/
structure DmaChan where
  chained : Bool := false
  addr : Nat := 0
  moved : Nat := 0
  clear : Bool := false
  polls : Nat := 0
  fin : Bool := false
  deriving DecidableEq, Repr


/-- No command stops the model by a fault: every fault of the hardware is an ordinary next state (R579). -/
inductive Fault where
  deriving DecidableEq, Repr

/-- Why the model gives no meaning. -/
inductive Refusal where
  /-- Raised by Machine/Dispatch.lean for a command without a meaning. Safe: the model stops where the device goes on. -/
  | notModelled (mnemonic : String)
  deriving DecidableEq, Repr

/-- The device. -/
structure State where
  /-- The register bank (R39, R40): offset in the register space (page × 0x1000 + offset) and word. -/
  regs : List (Nat × W32) := []
  /-- The rings (R72): entry n for ring n, entry 35 its H2D half and entry 64 the D2H half of ring 35. -/
  rings : List (Nat × Ring) := []
  /-- System SRAM bytes by offset from 0x2000_0000 (R39). -/
  sram : List Host.Cell := []
  /-- Display SRAM bytes by offset from 0x3000_0000 (R39). -/
  dsram : List Host.Cell := []
  /-- The level of IRQ_N and the 1 µs pulse of R75 in progress; the conditions that held when the line was last judged. -/
  irqLow : Bool := false
  irqPulse : Bool := false
  irqSeen : List Nat := []
  /-- The device's last answer on the quad-SPI pins, from the marker on (R57); empty where it drives nothing. -/
  resp : List Byte := []
  /-- Has the host link been released by the start sequence (step 7 of R554)? -/
  linkUp : Bool := false
  /-- The device epoch (R69, R557). -/
  epoch : Nat := 0
  /-- The timestamp counter of BKP, in 1/32,768 s (R571), and the ticks since the last trim step (R572). -/
  ts : Nat := 0
  trimPhase : Nat := 0
  /-- Read shadows and write shadows of 64-bit registers by requester (R43). -/
  readShadow : List Shadow := []
  writeShadow : List Shadow := []
  /-- Register writes held during a soft reset (R46); the page's reset runs while CTRL.SRST reads 1. -/
  held : List HeldWrite := []
  /-- SEAL_EN as the fabric sees it (R50). -/
  sealEn : Bool := false
  /-- The model's own: how many free values have been taken (log entry 2). -/
  fresh : Nat := 0
  /-- AFE and DEC beside their registers. -/
  ms : Measure := {}
  /-- CAL beside its registers. -/
  cal : Cal := {}
  /-- The legal log and the watermark. -/
  legal : Legal := {}
  /-- MTR and PLS beside their registers; the power-fail sequence. -/
  mt : Metro := {}
  pf : Pf := {}
  /-- The felt store, the flash and their jobs. -/
  nv : Storage := {}
  /-- BAY, RCM and AUX beside their registers. -/
  outlets : List (Nat × Outlet) := []
  rcm : List (Nat × Rcm) := []
  /-- SES and the signing of records. -/
  se : Sessions := {}
  /-- The seal core, and TAM. -/
  sl : SealCore := {}
  tam : Tamper := {}
  /-- PQE. -/
  pq : Pqe := {}
  /-- LMG. -/
  lm : Load := {}
  /-- Reset, start and power states. -/
  boot : Boot := {}
  /-- EPD. -/
  lcd : Panel := {}
  /-- PLC. -/
  plc : Plc := {}
  /-- MSH. -/
  msh : Mesh := {}
  /-- DMA, by channel. -/
  dma : List (Nat × DmaChan) := []
  /-- The commands that wait, first in, first out. -/
  pending : List Instr := []
  deriving DecidableEq, Repr

/-- The device right after its power-on reset is released: every register at the reset value of its table, every ring and memory
empty, and no command waiting. -/
def State.reset : State := {}

end Sys2Proof.Machine
end

