-- ==== Sys2Proof/Machine/Ops.lean ====
section
/-! DEFINITION. The named operations over registers, rings, memories and interrupts that every block's meaning is written in. -/
namespace Sys2Proof.Machine

/-- The outcome of a command. -/
abbrev Out := Host.Outcome State Fault Refusal

-- Registers and fields

/-- The word the bank holds at a register-space offset. -/
def State.reg (s : State) (a : Nat) : W32 := spRead resetWord s.regs a

/-- The bank with a word replaced, in canonical form. -/
def State.setReg (s : State) (a : Nat) (w : W32) : State := { s with regs := spWrite resetWord s.regs a w }

/-- A field's value. -/
def State.get (s : State) (f : Fld) : Nat := getBits (s.reg f.addr) f.lsb f.wid

/-- A field written (modulo its width), the register's other bits unchanged. -/
def State.put (s : State) (f : Fld) (v : Nat) : State := s.setReg f.addr (putBits (s.reg f.addr) f.lsb f.wid v)

/-- Is a one-bit field set? -/
def State.on (s : State) (f : Fld) : Bool := s.get f != 0

/-- A field read as two's complement. -/
def State.getInt (s : State) (f : Fld) : Int := signedOf f.wid (s.get f)

/-- A field written with an integer in two's complement. -/
def State.putInt (s : State) (f : Fld) (v : Int) : State := s.put f (unsignedOf f.wid v)

/-- A counter field that wraps at its width. -/
def State.inc (s : State) (f : Fld) : State := s.put f (s.get f + 1)

/-- A counter field that saturates. -/
def State.incSat (s : State) (f : Fld) : State := s.put f (satInc (2 ^ f.wid - 1) (s.get f))

/-- One bit of a register. -/
def bitFld (a i : Nat) : Fld := ⟨a, i, 1⟩

/-- One bit of a 64-bit mask register pair whose low word is at `a`. -/
def bitFld64 (a i : Nat) : Fld := if i < 32 then ⟨a, i, 1⟩ else ⟨a + 4, i - 32, 1⟩

/-- A header register of a page: CTRL.ENABLE, CTRL.SRST, SEQ, ERRCODE, ERRCOUNT. -/
def hdrEnable (p : Nat) : Fld := ⟨p * 4096 + 0x008, 0, 1⟩
def hdrSrst (p : Nat) : Fld := ⟨p * 4096 + 0x008, 1, 1⟩
def hdrSeq (p : Nat) : Fld := ⟨p * 4096 + 0x024, 0, 32⟩
def hdrErrcode (p : Nat) : Fld := ⟨p * 4096 + 0x01C, 0, 16⟩
def hdrErrcount (p : Nat) : Fld := ⟨p * 4096 + 0x020, 0, 32⟩
def hdrPend (p b : Nat) : Fld := ⟨p * 4096 + 0x018, b, 1⟩

/-- The occurrence counter of IRQ_PEND bit `b` (R45). -/
def hdrEvcnt (p b : Nat) : Fld := ⟨p * 4096 + 0x040 + 4 * (b / 4), 8 * (b % 4), 8⟩

/-- Is a block enabled? -/
def State.enabled (s : State) (p : Nat) : Bool := s.on (hdrEnable p)

/-- SEQ counts one change of a page (R45). -/
def State.bumpSeq (s : State) (p : Nat) : State := s.inc (hdrSeq p)

/-- A page records an error: ERRCODE takes the code and ERRCOUNT counts it (R45, R579). -/
def State.err (s : State) (p code : Nat) : State := (s.put (hdrErrcode p) code).incSat (hdrErrcount p)

/-- An occurrence of interrupt condition `b` of a page: IRQ_PEND is set and EVCNT counts (R45). -/
def State.irq (s : State) (p b : Nat) : State := (s.put (hdrPend p b) 1).incSat (hdrEvcnt p b)

/-- A 64-bit register pair whose low word is at `a`. -/
def State.reg64 (s : State) (a : Nat) : Nat := (s.reg a).toNat + 2 ^ 32 * (s.reg (a + 4)).toNat

/-- The pair written, modulo 2^64. -/
def State.setReg64 (s : State) (a v : Nat) : State :=
  (s.setReg a (BitVec.ofNat 32 v)).setReg (a + 4) (BitVec.ofNat 32 (v / 2 ^ 32))

/-- A free value: one the spec leaves open (log entry 2). The state passes on to the next. -/
def State.free (s : State) : Nat := Config.freeValue s.fresh
def State.took (s : State) : State := { s with fresh := s.fresh + 1 }

-- Addressed memories

/-- What a byte of system SRAM that nothing has written reads as (R548, log entry 4). -/
def sramBlank (_ : Nat) : Byte := 0

/-- A byte and a little-endian word of system SRAM, by offset. -/
def State.sramByte (s : State) (a : Nat) : Byte := spRead sramBlank s.sram a
def State.sramBytes (s : State) (a n : Nat) : List Byte := spReads sramBlank s.sram a n
def State.sramWord (s : State) (a : Nat) : W32 := BitVec.ofNat 32 (ofLe (s.sramBytes a 4))
def State.sramPut (s : State) (a : Nat) (bs : List Byte) : State := { s with sram := spWrites sramBlank s.sram a bs }

/-- The same for display SRAM. -/
def State.dispBytes (s : State) (a n : Nat) : List Byte := spReads sramBlank s.dsram a n
def State.dispPut (s : State) (a : Nat) (bs : List Byte) : State := { s with dsram := spWrites sramBlank s.dsram a bs }

-- Rings

/-- Ring entry `e`. -/
def State.ring (s : State) (e : Nat) : Ring := spRead (fun _ => ({} : Ring)) s.rings e
def State.setRing (s : State) (e : Nat) (r : Ring) : State := { s with rings := spWrite (fun _ => ({} : Ring)) s.rings e r }

/-- Slot size and slot count of a ring entry (R73). -/
def State.slotSize (s : State) (e : Nat) : Nat := 64 * 2 ^ s.get (F.HLKR_RING_CFG_SLOT_CODE e)
def State.slots (s : State) (e : Nat) : Nat := 2 * 2 ^ s.get (F.HLKR_RING_CFG_COUNT_CODE e)

/-- Is ring entry `e` host to device? Entry 64 is the D2H half of ring 35 (R72, R78). -/
def State.h2d (s : State) (e : Nat) : Bool := e < 64 && s.on (F.HLKR_RING_CFG_DIR e)

/-- Ordinary frames held: those that are no lost marker (R68). -/
def Ring.ordinary (r : Ring) : Nat := (r.frames.filter fun f => f.typ != 0xFE).length

/-- Has the ring a slot for an ordinary frame? One slot is kept back for a lost marker (R68). -/
def Ring.room (r : Ring) (n : Nat) : Bool := r.ordinary + 1 < n && r.frames.length < n

/-- A record that finds no slot is counted as lost (R68). -/
def Ring.lose (r : Ring) (now : Nat) : Ring :=
  { r with lost := satInc 0xFFFFFFFF r.lost, lostFirst := if r.lost = 0 then now else r.lostFirst, lostLast := now }

/-- The protocol version of frames queued now (R62). -/
def State.ver (s : State) : Nat := if s.get F.HLK_LINK_VER = 2 then 2 else 1

/-- A frame takes the ring's next sequence number and is held (R66). -/
def Ring.enter (r : Ring) (f : Frame) : Ring :=
  { r with frames := r.frames ++ [{ f with seq := r.next }], next := (r.next + 1) % 65536 }

/-- The lost marker of R68. -/
def lostFrame (r : Ring) (epoch ver : Nat) : Frame :=
  { typ := 0xFE, seq := 0, ref := none, epoch := epoch, status := 0, ver := ver,
    payload := le 4 r.lost ++ le 8 r.lostFirst ++ le 8 r.lostLast }

/-- The ring with its lost marker written, when losses are pending and a slot is free. -/
def Ring.mark (r : Ring) (epoch ver n : Nat) : Ring :=
  if r.lost ≠ 0 ∧ r.room n then { r.enter (lostFrame r epoch ver) with lost := 0, lostFirst := 0, lostLast := 0 } else r

/-- The state with a pending lost marker of entry `e` written; HLK raises LOST (R77). -/
def State.markLost (s : State) (e : Nat) : State :=
  let r := s.ring e
  let r' := r.mark s.epoch s.ver (s.slots e)
  if r' = r then s else (s.setRing e r').irq 0x04 3

/-- Payload padded with zero bytes to a multiple of 4 (R61). -/
def pad4 (bs : List Byte) : List Byte := bs ++ List.replicate ((4 - bs.length % 4) % 4) 0

/-- A frame queued on a device-to-host ring entry, behind any lost marker that is due (R66, R68). -/
def State.emitVer (s : State) (ver e typ : Nat) (ref : Option Nat) (status : Nat) (payload : List Byte) : State :=
  let s := s.markLost e
  let r := s.ring e
  if r.lost = 0 ∧ r.room (s.slots e) then
    s.setRing e (r.enter { typ := typ, seq := 0, ref := ref, epoch := s.epoch, status := status, ver := ver, payload := pad4 payload })
  else s.setRing e (r.lose s.ts)

def State.emit (s : State) (e typ : Nat) (ref : Option Nat) (status : Nat) (payload : List Byte) : State :=
  s.emitVer s.ver e typ ref status payload

/-- The oldest frame held in a host-to-device ring entry. -/
def State.head (s : State) (e : Nat) : Option Frame := (s.ring e).frames.head?

/-- The ring with its oldest frame taken by its block; the slot frees (R65). -/
def State.take (s : State) (e : Nat) : State := let r := s.ring e; s.setRing e { r with frames := r.frames.tail }

-- Events

/-- The payload of an EVENT frame (R582). -/
def State.eventPayload (s : State) (p b unit : Nat) : List Byte :=
  let detail := if p = 0x12 then (s.reg A.MTR_LAST_DOVETAIL).toNat
    else if p = 0x10 then (s.reg A.AFE_TEST_STAT).toNat
    else if p = 0x11 then (s.reg A.DEC_REPLAY_STAT).toNat else 0
  le 1 p ++ le 1 b ++ le 2 (s.get (hdrErrcode p)) ++ le 2 (s.get (hdrEvcnt p b)) ++ le 2 unit
    ++ le 8 s.ts ++ le 4 (s.get F.DEC_CYCLE_CNT) ++ le 4 detail ++ le 8 0

/-- An occurrence delivered as an EVENT frame on ring 2 (R582). -/
def State.event (s : State) (p b unit : Nat) : State :=
  let s := s.irq p b
  s.emit 2 0x01 none 0 (s.eventPayload p b unit)

/-- The same for an outlet's MTR[k] page, on ring 3 + k (R582, R621). -/
def State.outletEvent (s : State) (p b k : Nat) : State :=
  let s := s.irq p b
  s.emit (3 + k) 0x01 none 0 (s.eventPayload p b k)

/-- A FAULT frame on ring 2 (R582, R593). -/
def State.faultFrame (s : State) (code : Nat) (onset : Bool) (cause unit logSeq : Nat) : State :=
  s.emit 2 0x02 none 0 (le 1 code ++ le 1 onset.toNat ++ le 2 0 ++ le 2 cause ++ le 2 unit ++ le 8 s.ts
    ++ le 4 (s.get F.DEC_CYCLE_CNT) ++ le 4 logSeq ++ le 8 0)

/-- UNIT and LOG_SEQ where there is none (R582). -/
def noUnit : Nat := 0xFFFF
def noLog : Nat := 0xFFFFFFFF

/-- The first check that fails, in ascending order of code (R580). -/
def firstErr : List (Bool × Nat) → Option Nat
  | [] => none
  | (b, c) :: l => if b then some c else firstErr l

/-- Is the privileged view open (R50)? -/
def State.privOpen (s : State) : Bool := s.sealEn && (s.get F.SEA_STAT_SESSION == 0x4D || s.get F.SEA_STAT_SESSION == 0x8E)

-- Power states

/-- Only the backup domain runs: in power-on reset, or after the halt (R205, R545). -/
def State.mainDown (s : State) : Bool := s.pf.halted || s.boot.off

/-- The fabric runs: not in power-on reset, STANDBY, the halt or a FAILED state without a fabric clock (R562, R568). -/
def State.runs (s : State) : Bool := !s.mainDown && !s.boot.silent && s.get F.RST_PWR_STAT_STATE == 1

/-- The device leaves STANDBY (R568). -/
def State.wakeUp (s : State) : State :=
  if s.get F.RST_PWR_STAT_STATE = 2 then (s.put F.RST_PWR_STAT_STATE 1).incSat F.RST_PWR_STAT_WAKES else s

-- The interrupt line

/-- The interrupt conditions of one register of the bank: the bits of IRQ_PEND AND IRQ_EN of its page (R75). -/
def State.pendConds (s : State) (p : Nat × W32) : List Nat :=
  if p.1 % 4096 = 0x18 then
    (List.range 32).filterMap fun b =>
      if (p.2 &&& s.reg (p.1 - 4)).toNat.testBit b then some (p.1 / 4096 * 32 + b) else none
  else []

/-- The conditions of one ring entry: its frame count and its oldest frame's age (R75). -/
def State.ringConds (s : State) (p : Nat × Ring) : List Nat :=
  let e := p.1
  if !s.h2d e && s.on (bitFld64 A.HLK_RING_IRQ_EN_LO (if e = 64 then 35 else e)) && p.2.frames != [] then
    let th := s.get (F.HLKR_RING_IRQ_THRESH e)
    (if (if th = 0 then 1 else th) ≤ p.2.frames.length then [10000 + e] else []) ++
    (if p.2.aged then [20000 + e] else [])
  else []

/-- Every condition that holds IRQ_N low; none before the link is released (R75, R76). -/
def State.conds (s : State) : List Nat :=
  if s.linkUp then s.regs.flatMap s.pendConds ++ s.rings.flatMap s.ringConds else []

/-- IRQ_N judged anew (R75): low, in its pulse, and the conditions seen. High with no condition, low with one, and a 1 µs
pulse for a new one under IRQ_PULSE. -/
def State.line (s : State) : Bool × Bool × List Nat :=
  let c := s.conds
  if c = [] then (false, false, [])
  else if s.irqPulse then (s.irqLow, true, c)
  else if s.irqLow && s.on F.HLK_CFG_IRQ_PULSE && c.any (fun x => !s.irqSeen.contains x) then (false, true, c)
  else (true, false, c)

/-- The state with IRQ_N so driven. -/
def State.settle (s : State) : State :=
  { s with irqLow := s.line.1, irqPulse := s.line.2.1, irqSeen := s.line.2.2 }

/-- A command ends: IRQ_N is judged and the state answered. -/
def done (s : State) : Out := .next s.settle

/-- A command of a block in the fabric has its effect while the fabric runs; at other times nothing comes of it (log entry 25). -/
def State.onFabric (s : State) (f : State → Out) : Out := if s.runs then f s else done s

end Sys2Proof.Machine
end

