-- ==== Sys2Proof/Machine/Legal.lean ====
section
/-! DEFINITION. The legal log (R507 to R510): an entry's layout, its chain, its writing and its delivery on ring 38. -/
namespace Sys2Proof.Machine

/-- Bytes 0 to 119 of an entry (R507). -/
def LogEntry.body (e : LogEntry) : List Byte :=
  le 4 e.seq ++ le 2 e.code ++ le 1 e.outlet ++ le 1 e.offMain.toNat ++ le 8 e.ts ++ le 4 e.epoch ++ le 4 e.watermark
    ++ le 4 e.couch ++ le 4 0 ++ (e.data ++ List.replicate (72 - e.data.length) 0).take 72 ++ (e.chain.take 16)

/-- Bytes 0 to 123. -/
def LogEntry.head (e : LogEntry) : List Byte := e.body ++ le 4 0

/-- The whole 128-byte entry with its CRC-32. -/
def LogEntry.bytes (e : LogEntry) : List Byte := e.head ++ le 4 (crc32 e.head)

/-- The CHAIN of the entry that follows: the first 16 bytes of the digest of the newest entry (R507); zero for the first. -/
def Legal.chain (l : Legal) : List Byte :=
  match l.log.getLast? with
  | some e => (Config.sha256 e.head).take 16
  | none => List.replicate 16 0

/-- A legal log entry is written: it takes the next LOG_SEQ, overwrites the oldest of 512, and is queued on ring 38 unless a replay
will deliver it (R507, R508, R510). -/
def State.logAt (s : State) (ts code outlet : Nat) (offMain : Bool) (data : List Byte) : State :=
  let l := s.legal
  let e : LogEntry := ⟨l.next, code, outlet, offMain, ts, s.epoch, l.watermark, s.get F.MTR_COUCH_SEQ, data, l.chain⟩
  let log := l.log ++ [e]
  let s := { s with legal := { l with log := log.drop (log.length - 512), next := l.next + 1 } }
  let s := if l.replay.isSome then s else s.emit 38 0x01 none 0 e.bytes
  s.event 0x0A 4 (if outlet < 12 then outlet else noUnit)

/-- The same with the present time. -/
def State.log (s : State) (code outlet : Nat) (data : List Byte) : State := s.logAt s.ts code outlet false data

/-- LOG_SEQ of the newest entry, for a FAULT frame that names it (R582). -/
def State.lastLog (s : State) : Nat := s.legal.next - 1

/-- The outlet byte of an entry that concerns none. -/
def noOutlet : Nat := 0xFF

/-- An outlet's session beside its registers. -/
def State.session (s : State) (k : Nat) : Session := spRead (fun _ => ({} : Session)) s.se.sessions k
def State.setSession (s : State) (k : Nat) (x : Session) : State :=
  { s with se := { s.se with sessions := spWrite (fun _ => ({} : Session)) s.se.sessions k x } }

/-- Session states (R344). -/
def State.ses (s : State) (k : Nat) : Nat := s.get (F.SES_OUT_STAT_STATE k)
def sesIdle : Nat := 0
def sesPending : Nat := 1
def sesPreauth : Nat := 2
def sesStarting : Nat := 3
def sesActive : Nat := 4
def sesEnding : Nat := 5

/-- The tags of a published cycle join those of an open session (R351): UNLOCKED, INVALID, CLIPPED and BRIDGED. -/
def State.sessionTags (s : State) (k tags : Nat) : State :=
  if s.ses k = sesActive ∨ s.ses k = sesEnding then
    s.setSession k { s.session k with tags := (s.session k).tags ||| (tags >>> 2) % 16 }
  else s

end Sys2Proof.Machine
end

