-- ==== Sys2Proof/Machine/Measure.lean ====
section
/-! DEFINITION. AFE: source selection, channel enables, the modulators' tests and monitors (03_measurement_inputs.md), and the
modulator side of a dovetail. -/
namespace Sys2Proof.Machine

-- Sources and running channels

/-- The source of channel c (R94). -/
def State.src (s : State) (c : Nat) : Nat := s.get (F.AFE_CH_CFG_SRC c)

/-- Flags of AFE: modulator m failed; spare of group g failed; spare permanently assigned, and to which modulator (R112). -/
def modFailF (m : Nat) : Fld := bitFld64 A.AFE_MOD_FAIL_LO m
def State.modFail (s : State) (m : Nat) : Bool := s.on (modFailF m)
def spareFailF (g : Nat) : Fld := bitFld A.AFE_SPARE_FAIL g
def State.spareFail (s : State) (g : Nat) : Bool := s.on (spareFailF g)
def spareUsedF (g : Nat) : Fld := bitFld A.AFE_SPARE_MAP (4 * g + 3)
def spareModF (g : Nat) : Fld := ⟨A.AFE_SPARE_MAP, 4 * g, 3⟩
def State.spareUsed (s : State) (g : Nat) : Bool := s.on (spareUsedF g)
def State.spareMod (s : State) (g : Nat) : Nat := 8 * g + s.get (spareModF g)

/-- Does group g's spare carry modulator m for good (R100, R104, R109)? -/
def State.carried (s : State) (m : Nat) : Bool := s.spareUsed (m / 8) && s.spareMod (m / 8) == m

/-- May channel c be enabled (R96)? -/
def State.available (s : State) (c : Nat) : Bool :=
  let x := s.src c
  if x < 64 then !s.modFail x || s.carried x
  else if x < 80 then s.on (bitFld A.AFE_MCLK_CFG ((x - 64) / 4))
  else false

def State.chEn (s : State) (c : Nat) : Bool := s.on (bitFld64 A.AFE_CH_EN_LO c)

/-- Does channel c run: AFE and DEC enabled, the start-up test done and its CH_EN bit set (R96, R97, R138)? -/
def State.chRun (s : State) (c : Nat) : Bool :=
  s.enabled 0x10 && s.on F.AFE_STATUS_START_TEST_DONE && s.enabled 0x11 && s.chEn c

def State.group (s : State) (g : Nat) : SpareGroup := spRead (fun _ => ({} : SpareGroup)) s.ms.groups g
def State.setGroup (s : State) (g : Nat) (x : SpareGroup) : State :=
  { s with ms := { s.ms with groups := spWrite (fun _ => ({} : SpareGroup)) s.ms.groups g x } }

/-- TEST_STAT of group g: the modulator the spare is at work on, and BUSY (R112). -/
def State.busy (s : State) (g m : Nat) (b : Bool) : State :=
  (s.put ⟨A.AFE_TEST_STAT, 4 * g, 3⟩ (m % 8)).put (bitFld A.AFE_TEST_STAT (4 * g + 3)) b.toNat

/-- The spare of group g is released. -/
def State.release (s : State) (g : Nat) : State :=
  (s.setGroup g { s.group g with phase := .idle, unit := 0 }).busy g 0 false

/-- One input sample in the units of the accumulator (R129). -/
def inSample : Nat := 2 ^ 30

/-- The fill of the chain, 3,656.25 µs, in those units (R133). -/
def fillTime : Nat := 117 * 2 ^ 29

def State.integ (s : State) (c : Nat) : Bool := s.on (F.DEC_CH_CFG_INTEG c)
def settleF (c : Nat) : Fld := bitFld64 A.DEC_SETTLE_LO c

/-- A channel starts: it settles for the fill, and for 1,024 input samples more if it integrates (R123, R133). -/
def State.chStart (s : State) (c : Nat) : State :=
  let t := fillTime + if s.integ c then 1024 * inSample else 0
  let rcm := if c % 4 = 3 ∧ c < 48 then
      spWrite (fun _ => ({} : Rcm)) s.rcm (c / 4) { spRead (fun _ => ({} : Rcm)) s.rcm (c / 4) with taps := [], count := 0 }
    else s.rcm
  let s := { s.put (settleF c) 1 with ms := { s.ms with
      live := setBit s.ms.live c true
      fill := spWrite (fun _ => 0) s.ms.fill c t
      hist := spWrite (fun _ => []) s.ms.hist c []
      shimIn := spWrite (fun _ => []) s.ms.shimIn c []
      raw := spWrite (fun _ => []) s.ms.raw c []
      preload := spWrite (fun _ => 0) s.ms.preload c 0 } }
  { s with rcm := rcm }

/-- A channel stops: it ends its cycle with an end marker (R134), and a disable ends a spare's work on it (R105). -/
def State.chStop (s : State) (c : Nat) : State :=
  let s := { s.put (settleF c) 0 with ms := { s.ms with
      live := setBit s.ms.live c false
      endMark := spWrite (fun _ => 0) s.ms.endMark c s.ms.idx
      bridge := spWrite (fun _ => 0) s.ms.bridge c 0
      spanLeft := spWrite (fun _ => 0) s.ms.spanLeft c 0 } }
  let x := s.src c
  if x < 64 && (s.group (x / 8)).phase == .retry && (s.group (x / 8)).unit == x then s.release (x / 8) else s

/-- One channel's start or stop, where its enables have changed. -/
def State.sync1 (s : State) (c : Nat) : State :=
  if s.chRun c = s.ms.live.testBit c then s else if s.chRun c then s.chStart c else s.chStop c

/-- Every channel follows its enables. -/
def State.syncChannels (s : State) : State := (List.range 64).foldl State.sync1 s

/-- Does a running channel take stream x (a modulator number, or 64 + n for BSI_n, as SRC names it)? -/
def State.inUse (s : State) (x : Nat) : Bool := (List.range 64).any fun c => s.ms.live.testBit c && s.src c == x

/-- The lowest running channel fed by modulator m. -/
def State.chanOf (s : State) (m : Nat) : Option Nat :=
  (List.range 64).find? fun c => s.ms.live.testBit c && s.src c == m

-- Failures and dovetails

/-- Background calibration forgets a channel's history when a spare takes its modulator (R246). -/
def State.bgForget (s : State) (m : Nat) : State :=
  let bg := (List.range 64).foldl (fun l c =>
    if s.src c = m then
      let b := spRead (fun _ => ({} : BgChan)) l c
      spWrite (fun _ => ({} : BgChan)) l c { b with hist := [], stepRun := [], skipStep := true }
    else l) s.cal.bg
  (List.range 64).foldl (fun s c =>
    if s.src c = m then ((s.put (bitFld64 A.CAL_CONV_LO c) 0).setReg (A.CAL_BG_QUAL_GAIN c) 0).setReg (A.CAL_BG_QUAL_PHASE c) 0 else s)
    { s with cal := { s.cal with bg := bg } }

/-- Modulator m is failed and its group's spare takes its channel for good; MOD_FAIL is raised (R104, R109). -/
def State.failMod (s : State) (m : Nat) : State :=
  let g := m / 8
  let s := ((s.put (modFailF m) 1).put (spareModF g) (m % 8)).put (spareUsedF g) 1
  let s := s.setGroup g { s.group g with phase := .idle, unit := 0 }
  (s.bgForget m).event 0x10 0 m

/-- The spare of group g is failed (R104). -/
def State.failSpare (s : State) (g : Nat) : State := (s.put (spareFailF g) 1).event 0x10 1 (64 + g)

/-- MTR's replay request falls due for the lane that owns modulator m's channel (R169). -/
def State.replayDue (s : State) (m : Nat) : State :=
  match s.chanOf m with
  | some c => { s with ms := { s.ms with due := s.ms.due ++ [⟨c / 4, m, (s.group (m / 8)).snap⟩] } }
  | none => s

/-- Is group g's spare free (R111)? -/
def State.spareFree (s : State) (g : Nat) : Bool := !s.spareFail g && !s.spareUsed g && (s.group g).phase != .check

-- Criteria

/-- The shadow comparison of R102, differences in ppm of full scale. -/
def shadowPass (d : List Int) : Bool :=
  d.length == 16 && decide ((d.foldl (· + ·) 0).natAbs ≤ 500 * 16) && d.all fun x => decide (x.natAbs ≤ 5000)

/-- The off-line test of R103. -/
def offLinePass (o : OffLine) : Bool :=
  decide (o.offset.natAbs ≤ 200) && decide (o.rms ≤ 50) && decide (o.gainPos.natAbs ≤ 2000)
    && decide (o.gainNeg.natAbs ≤ 2000) && decide ((o.gainPos - o.gainNeg).natAbs ≤ 500) && o.guards == 0

-- Meanings

/-- One bit of a CH_EN write (R96): a set of an unavailable source stays 0 and is noted. -/
def chEnBit (old val : Nat) (base : Nat) (avail : Nat → Bool) (acc : Nat × Bool) (i : Nat) : Nat × Bool :=
  if val.testBit i then
    if old.testBit i || avail (base + i) then (acc.1 + 2 ^ i, acc.2) else (acc.1, true)
  else acc

/-- The effect of a CH_EN write (R96, R97). -/
def State.writeChEn (s : State) (hi : Bool) (val : W32) : State :=
  let a := A.AFE_CH_EN_LO + if hi then 4 else 0
  let r := (List.range 32).foldl (chEnBit (s.reg a).toNat val.toNat (if hi then 32 else 0) s.available) (0, false)
  let s := (s.setReg a (BitVec.ofNat 32 r.1)).syncChannels
  if r.2 then s.err 0x10 0x20 else s

/-- The start-up test's results (R99, R100): flags and the spare map afresh, TEST_DONE, and pending enables take effect (R97). -/
def State.startTest (s : State) (results : List OffLine) : State :=
  let bad (m : Nat) : Bool := match results[m]? with | some o => !offLinePass o | none => false
  let s := { s with ms := { s.ms with groups := [], alarms := [], uncovered := [] } }
  let s := (List.range 64).foldl (fun s m => s.put (modFailF m) (bad m).toNat) s
  let s := (List.range 8).foldl (fun s g =>
    let s := s.put (spareFailF g) (bad (64 + g)).toNat
    match (if bad (64 + g) then none else (List.range 8).find? fun i => bad (8 * g + i)) with
    | some i => ((s.put (spareModF g) i).put (spareUsedF g) 1).bgForget (8 * g + i)
    | none => (s.put (spareModF g) 0).put (spareUsedF g) 0) s
  ((s.put F.AFE_STATUS_START_TEST_DONE 1).event 0x10 5 noUnit).syncChannels

/-- AFE_START_TEST_DONE (R99, R100, R97): only once after a start. -/
def execAfeStartTestDone (results : List OffLine) (s : State) : Out := s.onFabric fun s =>
  if s.on F.AFE_STATUS_START_TEST_DONE then done s else done (s.startTest results)

/-- The modulator whose turn it is in group g: the next one in service whose channel runs (R101). -/
def State.turnOf (s : State) (g : Nat) : Option Nat :=
  let t := (s.group g).turn
  ((List.range 8).map fun i => 8 * g + (t + i) % 8).find? fun m => s.inUse m && !s.modFail m

/-- What a whole slot decides for modulator m (R104, R105). -/
def State.slotVerdict (s : State) (g m : Nat) (r : SlotRun) : State :=
  match r.touched with
  | some step =>
    if step ≤ 4 then s.release g
    else (s.setGroup g { s.group g with phase := .retry, unit := m }).busy g m true
  | none =>
    if offLinePass r.offline then
      if shadowPass r.forward then (if shadowPass r.back then s.release g else (s.release g).failMod m)
      else (s.release g).failSpare g
    else (s.release g).failMod m

/-- TEST_SLOT (R101 to R106): the next modulator in turn, where the group may run a slot. -/
def execTestSlot (g : Fin 8) (run : SlotRun) (s : State) : Out := s.onFabric fun s =>
  let ok := s.enabled 0x10 && s.on F.AFE_STATUS_START_TEST_DONE && s.on F.AFE_TEST_CFG_EN && !s.spareFail g && !s.spareUsed g
    && (s.group g).phase == .idle && !s.pf.warned
  match (if ok then s.turnOf g else none) with
  | some m =>
    let s := s.setGroup g { s.group g with turn := (m + 1) % 8 }
    done (({ s with ms := { s.ms with stand := m :: s.ms.stand } }).slotVerdict g m run)
  | none => done s

/-- RETURN_COMPARE_RETRY (R105): the channel goes back once a comparison passes without overload. -/
def execReturnCompareRetry (g : Fin 8) (back : List Int) (overload : Bool) (s : State) : Out := s.onFabric fun s =>
  if (s.group g).phase = .retry ∧ shadowPass back ∧ overload = false ∧ s.pf.warned = false then done (s.release g) else done s

/-- RUN_GUARD (R87): the guard resets the integrators and counts; GUARD is raised. -/
def execRunGuard (m : Fin 72) (s : State) : Out := s.onFabric fun s =>
  let n := spRead (fun _ => 0) s.ms.guards m.val
  done (({ s with ms := { s.ms with guards := spWrite (fun _ => 0) s.ms.guards m.val (n + 1) } }).event 0x10 4 m)

/-- An alarm that no free spare covers (R111): UNCOVERED, the FAULT frame, and the samples invalid. -/
def State.uncover (s : State) (m : Nat) : State :=
  let s := { s with ms := { s.ms with uncovered := s.ms.uncovered ++ [m] } }
  (s.event 0x10 6 m).faultFrame 0x01 true 0 m noLog

/-- A spare check starts for modulator m; a rotating test in the group gives way (R109, R110). -/
def State.startCheck (s : State) (m : Nat) : State :=
  let g := m / 8
  (s.setGroup g { s.group g with phase := .check, unit := m, snap := s.ms.snap - 1 }).busy g m true

/-- RCM holds the counters of the outlets whose residual channel the modulator carries, for 2 ms (R321). -/
def State.rcmHold (s : State) (m : Nat) : State :=
  (List.range 12).foldl (fun s k =>
    if s.ms.live.testBit (4 * k + 3) && s.src (4 * k + 3) == m then
      { s with rcm := spWrite (fun _ => ({} : Rcm)) s.rcm k { spRead (fun _ => ({} : Rcm)) s.rcm k with held := 2 } }
    else s) s

/-- A new alarm on internal modulator m (R109 to R111); a bias alarm fails it at once. -/
def State.modAlarm (s : State) (m : Nat) (bias : Bool) : State :=
  let s := { s with ms := { s.ms with alarms := s.ms.alarms ++ [m] } }.rcmHold m
  if m < 64 && s.spareFree (m / 8) then
    if bias then ((s.startCheck m).replayDue m).busy (m / 8) 0 false |>.failMod m else s.startCheck m
  else s.uncover m

/-- Is a stream watched: a running internal modulator not yet replaced, a spare that carries a channel, or a bitstream input in
use (R107)? -/
def State.watched (s : State) (x : Nat) : Bool :=
  if x < 64 then s.inUse x && !s.carried x
  else if x < 72 then s.spareUsed (x - 64) && s.inUse (s.spareMod (x - 64))
  else s.inUse (x - 8)

/-- MONITOR_ALARM (R107 to R111). -/
def execMonitorAlarm (stream : Fin 88) (bias : Bool) (s : State) : Out := s.onFabric fun s =>
  let x := stream.val
  if !s.watched x || s.ms.alarms.contains x then done s
  else if x < 72 then done (s.modAlarm x bias)
  else
    let s := { s with ms := { s.ms with alarms := s.ms.alarms ++ [x] } }
    done (((s.put (bitFld A.AFE_BSI_STAT (x - 72)) 1).event 0x10 3 (x - 72)).faultFrame 0x03 true 0 (x - 72) noLog)

/-- After a released spare, the group's lowest modulator still in alarm starts its own check (R111). -/
def State.nextCheck (s : State) (g : Nat) : State :=
  match ((List.range 8).map (8 * g + ·)).find? fun m => s.ms.uncovered.contains m with
  | some m =>
    ({ s with ms := { s.ms with uncovered := s.ms.uncovered.filter (· != m) } }).startCheck m
  | none => s

/-- SPARE_CHECK_VERDICT (R109): OVERLOAD, or the modulator failed and its channel taken by the spare. -/
def execSpareCheckVerdict (g : Fin 8) (spareAlarms : Bool) (s : State) : Out := s.onFabric fun s =>
  let x := s.group g
  if x.phase ≠ .check then done s
  else if spareAlarms then done (((s.release g).event 0x10 2 x.unit).nextCheck g)
  else done (((s.replayDue x.unit).busy g 0 false).failMod x.unit)

/-- STREAM_ALARM_CLEAR (R108, R111): the alarm and any invalid marking end; the FAULT frame's clearing. -/
def execStreamAlarmClear (stream : Fin 88) (s : State) : Out := s.onFabric fun s =>
  let x := stream.val
  if !s.ms.alarms.contains x then done s
  else
    let unc := s.ms.uncovered.contains x
    let s := { s with ms := { s.ms with alarms := s.ms.alarms.filter (· != x), uncovered := s.ms.uncovered.filter (· != x) } }
    if 72 ≤ x then done ((s.put (bitFld A.AFE_BSI_STAT (x - 72)) 0).faultFrame 0x03 false 0 (x - 72) noLog)
    else if unc then done (s.faultFrame 0x01 false 0 x noLog) else done s

/-- A soft reset of AFE beside its registers (R113): slots and checks end, channels stop, failures stay. -/
def State.resetAfe (s : State) : State :=
  let s := { s with ms := { s.ms with groups := [], alarms := [], uncovered := [], due := [] } }
  ((List.range 8).foldl (fun s g => s.busy g 0 false) s).syncChannels

end Sys2Proof.Machine
end

