-- ==== Sys2Proof/Machine/Decimate.lean ====
section
/-! DEFINITION. DEC: the line-frequency tracker, the output samples with their tags, snapshots and the replay engine
(04_decimation_resampling.md). -/
namespace Sys2Proof.Machine

/-- Division rounded convergently: to the nearest, to even on a tie (R115). -/
def divEven (n : Int) (d : Nat) : Int :=
  let q := n / (d : Int)
  let r := (n % (d : Int)) * 2
  if r < (d : Int) then q else if (d : Int) < r then q + 1 else if q % 2 = 0 then q else q + 1

/-- Saturation of the 24-bit output at ±8,388,607 (R116). -/
def sat24 (v : Int) : Int := if 8388607 < v then 8388607 else if v < -8388607 then -8388607 else v

-- The tracker

/-- Fields of the tracker's settings in force (R128): a write takes effect at the next line-cycle boundary. -/
def State.tGain (s : State) : Nat := getBits s.ms.trackCfg 1 2
def State.tHold (s : State) : Nat := getBits s.ms.trackCfg 16 16
def State.tNominal (s : State) : Nat := getBits s.ms.trackCfg 0 1
def State.refCh (s : State) (i : Nat) : Nat := getBits s.ms.trackRef (8 * i) 6
def State.refEn (s : State) (i : Nat) : Bool := getBits s.ms.trackRef (8 * i + 7) 1 != 0

/-- The nominal increment: 0x5000_0000 at 50 Hz, 0x42AA_AAAB at 60 Hz (R138). -/
def State.nominalIncr (s : State) : Nat := if s.tNominal = 0 then 0x50000000 else 0x42AAAAAB

def State.ref (s : State) (i : Nat) : RefTrack := spRead (fun _ => ({} : RefTrack)) s.ms.refs i
def State.setRef (s : State) (i : Nat) (r : RefTrack) : State :=
  { s with ms := { s.ms with refs := spWrite (fun _ => ({} : RefTrack)) s.ms.refs i r } }

/-- A period between 1/69.0 s and 1/42.5 s, in 2^-30 input samples at 16 kS/s (R124). -/
def periodOk (p : Nat) : Bool := decide (160000 * 2 ^ 30 ≤ p * 690) && decide (p * 425 ≤ 160000 * 2 ^ 30)

/-- Do two periods differ by no more than `num` per thousand of the second? -/
def within (p q num : Nat) : Bool := decide (((p : Int) - q).natAbs * 1000 ≤ num * q)

/-- A reference's own record after an evaluation (R124, R125). -/
def RefTrack.judge (r : RefTrack) (m : RefMeas) : RefTrack :=
  let r := { r with low := m.lowHalf || (m.cycle && m.lowCycle), ek := if m.cycle then m.ek else r.ek }
  if m.cycle then
    if !m.lowCycle && periodOk m.period && (r.prev = 0 || within m.period r.prev 5) then
      { r with period := m.period, prev := m.period, good := satInc 255 r.good, periods := (m.period :: r.periods).take 8 }
    else { r with prev := m.period, good := 0, periods := [] }
  else if m.lowHalf then { r with good := 0, periods := [] } else r

/-- The mean of the last 8 periods. -/
def RefTrack.mean (r : RefTrack) : Int := divEven ((r.periods.foldl (· + ·) 0 : Nat) : Int) 8

/-- Tracker state encodings (R125). -/
def trkDisabled : Nat := 0
def trkFree : Nat := 1
def trkLocked : Nat := 2
def trkHoldover : Nat := 3

def State.trk (s : State) : Nat := s.get F.DEC_TRACK_STAT_STATE
def State.setTrk (s : State) (v : Nat) : State := (s.put F.DEC_TRACK_STAT_STATE v).put F.DEC_STATUS_LOCKED (v == trkLocked).toNat

/-- Locked on reference i: the filtered period is the mean of its 8 periods; LOCK is raised (R125). -/
def State.lockOn (s : State) (i : Nat) : State :=
  let s := (s.setTrk trkLocked).put F.DEC_TRACK_STAT_REF_IDX i
  ({ s with ms := { s.ms with periodFilt := (s.ref i).mean, outlierRun := 0 } }).event 0x11 0 (s.refCh i)

/-- Locked ends: the increment freezes, HOLD_LEFT is set and UNLOCK is raised (R125). -/
def State.enterHoldover (s : State) : State :=
  let s := (s.setTrk trkHoldover).put F.DEC_TRACK_STAT_HOLD_LEFT s.tHold
  s.event 0x11 1 (s.refCh (s.get F.DEC_TRACK_STAT_REF_IDX))

/-- A switch of the active reference in Holdover (R125): a lower-priority enabled reference without a low half cycle. -/
def State.holdSwitch (s : State) (notGood : Bool) : State :=
  let a := s.get F.DEC_TRACK_STAT_REF_IDX
  match (if notGood then [1, 2, 3].find? fun i => decide (a < i) && s.refEn i && !(s.ref i).low else none) with
  | some i =>
    let s := (s.put F.DEC_TRACK_STAT_REF_IDX i).setRef i { s.ref i with good := 0, periods := [] }
    s.event 0x11 2 (s.refCh i)
  | none => s

/-- The frequency in µHz of a period of n input samples (scaled by 2^30). -/
def microHz (p : Nat) : Nat := if p = 0 then 0 else (divEven ((16000000000 * 2 ^ 30 : Nat) : Int) p).toNat

/-- The registers that show the active reference (R138). -/
def State.showRef (s : State) : State :=
  let r := s.ref (s.get F.DEC_TRACK_STAT_REF_IDX)
  ((s.put F.DEC_TRACK_STAT_AMP_OK (!r.low).toNat).put F.DEC_TRACK_STAT_GOOD_CNT r.good).put F.DEC_FREQ_MEAS
    (if r.good = 0 then 0 else microHz r.period)

/-- The events of the tracker's table for the active reference (R125). -/
def State.trackStep (s : State) (m : RefMeas) (silent : Nat) : State :=
  let a := s.get F.DEC_TRACK_STAT_REF_IDX
  if s.trk = trkFree then
    match [0, 1, 2, 3].find? fun i => s.refEn i && decide (0 < (s.ref i).good) with
    | some i =>
      let s := s.put F.DEC_TRACK_STAT_REF_IDX i
      if 8 ≤ (s.ref i).good then s.lockOn i else s
    | none => s
  else if s.trk = trkLocked then
    let outlier := m.cycle && periodOk m.period && !within m.period s.ms.periodFilt.toNat 10
    let s := if outlier then
        ({ s with ms := { s.ms with outlierRun := s.ms.outlierRun + 1 } }).incSat F.DEC_OUTLIERS |>.event 0x11 5 (s.refCh a)
      else if m.cycle then { s with ms := { s.ms with outlierRun := 0 } } else s
    if m.lowHalf || (m.cycle && !periodOk m.period) || 3 ≤ s.ms.outlierRun || 30 ≤ silent then s.enterHoldover.holdSwitch true else s
  else if s.trk = trkHoldover then
    if 8 ≤ (s.ref a).good then s.lockOn a
    else s.holdSwitch (m.lowHalf || (m.cycle && (s.ref a).good == 0) || decide (30 ≤ silent))
  else s

/-- TRACKER_EVALUATION (R124, R125): every enabled reference is judged, then the table is applied to the active one. -/
def execTrackerEvaluation (meas : List RefMeas) (silent : Nat) (s : State) : Out := s.onFabric fun s =>
  if s.trk = trkDisabled then done s
  else
    let none' : RefMeas := ⟨false, 0, false, false, 0⟩
    let s := [0, 1, 2, 3].foldl (fun s i =>
      if s.refEn i then s.setRef i ((s.ref i).judge (meas.getD i none')) else s) s
    done (s.trackStep (meas.getD (s.get F.DEC_TRACK_STAT_REF_IDX) none') silent).showRef

/-- HOLDOVER_EXPIRY (R125): HOLD_LEFT has reached 0; the increment steps to nominal at the next boundary and FREE is raised. -/
def execHoldoverExpiry (s : State) : Out := s.onFabric fun s =>
  if s.trk = trkHoldover ∧ s.get F.DEC_TRACK_STAT_HOLD_LEFT = 0 then
    done ((s.setTrk trkFree).event 0x11 3 noUnit)
  else done s

/-- INCR and FREQ_RUN take an increment (R138). -/
def State.setIncr (s : State) (v : Nat) : State := (s.put F.DEC_INCR v).put F.DEC_FREQ_RUN (microHz (256 * v))

/-- The tracking law of R126 with 30 fraction bits. -/
def State.trackLaw (s : State) : State :=
  let r := s.ref (s.get F.DEC_TRACK_STAT_REF_IDX)
  let g := s.tGain
  let pf := s.ms.periodFilt + divEven ((r.period : Int) - s.ms.periodFilt) (2 ^ g)
  let raw := divEven (pf + divEven r.ek (2 ^ (g + 2))) 256
  let lo := divEven ((160000 * 2 ^ 30 : Nat) : Int) (256 * 690)
  let hi := divEven ((160000 * 2 ^ 30 : Nat) : Int) (256 * 425)
  let v := if raw < lo then lo else if hi < raw then hi else raw
  ({ s with ms := { s.ms with periodFilt := pf } }).setIncr v.toNat

/-- The tracker at a line-cycle boundary (R125 to R128): the settings written take effect, then the increment of the new cycle. -/
def State.trackBoundary (s : State) : State :=
  let s := if s.trk = trkLocked then
      let a := s.get F.DEC_TRACK_STAT_REF_IDX
      match [0, 1, 2].find? fun i => decide (i < a) && s.refEn i && decide (8 ≤ (s.ref i).good) with
      | some i => (s.put F.DEC_TRACK_STAT_REF_IDX i).event 0x11 2 (s.refCh i)
      | none => s
    else if s.trk = trkHoldover then s.put F.DEC_TRACK_STAT_HOLD_LEFT (s.get F.DEC_TRACK_STAT_HOLD_LEFT - 1) else s
  let s := { s with ms := { s.ms with trackCfg := s.reg A.DEC_TRACK_CFG, trackRef := s.reg A.DEC_TRACK_REF } }
  if s.trk = trkLocked then s.trackLaw
  else if s.trk = trkFree then s.setIncr s.nominalIncr else s

/-- DEC.CTRL.ENABLE set: the increment is nominal, the tracker Free, and the first output sample opens cycle 0 (R125, R131). -/
def State.decStart (s : State) : State :=
  let s := { s with ms := { s.ms with
    acc := 0, idx := 0, refs := [], outlierRun := 0, periodFilt := 0, snap := 0
    trackCfg := s.reg A.DEC_TRACK_CFG, trackRef := s.reg A.DEC_TRACK_REF } }
  let s := { s with mt := { s.mt with total := 0, readied := 0 } }
  (((s.put F.DEC_CYCLE_CNT 0).setTrk trkFree).setIncr s.nominalIncr).syncChannels

/-- ENABLE cleared or a soft reset: output stops (R125), every channel ends its cycle (R134). -/
def State.decStop (s : State) : State :=
  ((s.setTrk trkDisabled).put F.DEC_TRACK_STAT_HOLD_LEFT 0).syncChannels

-- Output samples

/-- Tags as QSTAT lays them out (R132, R181). -/
def tagSettling : Nat := 2
def tagUnlocked : Nat := 4
def tagInvalid : Nat := 8
def tagClipped : Nat := 16
def tagBridged : Nat := 32

/-- Is the source of channel c invalid now: an uncovered alarm (R111) or a bitstream alarm (R108)? -/
def State.srcBad (s : State) (c : Nat) : Bool :=
  let x := s.src c
  if x < 64 then s.ms.uncovered.contains (if s.carried x then 64 + x / 8 else x) else s.ms.alarms.contains (x + 8)

def State.histOf (s : State) (c : Nat) : List Hist := spRead (fun _ => []) s.ms.hist c
def State.setHist (s : State) (c : Nat) (h : List Hist) : State :=
  { s with ms := { s.ms with hist := spWrite (fun _ => []) s.ms.hist c (h.take 512) } }

/-- The shim word index in the record of R250 of channel entry (c, b) word w, modulator entry (m, r, b) word w, reference entry. -/
def shimChan (c b w : Nat) : Nat := (32 + 16 * (8 * c + b)) / 4 + w
def shimMod (m r b w : Nat) : Nat := (8224 + 8 * (48 * m + 8 * r + b)) / 4 + w
def shimRef (c w : Nat) : Nat := (35872 + 8 * c) / 4 + w

/-- The shim words as delivered (R251): SCALE 1.0 and DELAY 0 on every channel; modulator and reference words as Hercia measured
them, per part. -/
def shimFactory (i : Nat) : W32 :=
  if i < shimMod 0 0 0 0 then (if i % 4 = 1 then 0x01000000 else 0) else Config.shimWord i

/-- A word of the set the lanes apply: the active one, or the pending one in jig mode, as of the last boundary (R229, R231). -/
def State.shim (s : State) (i : Nat) : Int := (spRead shimFactory s.cal.live i).toInt
def State.band (s : State) : Nat := s.get F.CAL_TEMP_BAND

/-- One step of the injection sequence of R237: multiplication by x modulo x^31 + x^28 + 1. -/
def chipStep (v : Nat) : Nat := if v.testBit 30 then Nat.xor (v * 2 % 2 ^ 31) (2 ^ 28 + 1) else v * 2

/-- The product of two states as polynomials modulo x^31 + x^28 + 1. -/
def chipMul (a b : Nat) : Nat :=
  ((List.range 31).foldl (fun (p : Nat × Nat) i =>
    (if b.testBit i then Nat.xor p.1 p.2 else p.1, chipStep p.2)) (0, a)).1

/-- x^(2^25): the step between the seeds of neighbouring channels. -/
def chipStride : Nat := (List.range 25).foldl (fun p _ => chipMul p p) 2

/-- The seed of channel c: the state c × 2^25 steps after state 1 (R237). -/
def chipSeed (c : Nat) : Nat := (List.range c).foldl (fun p _ => chipMul p chipStride) 1

/-- The five most recent chips of channel c, newest first, as ±1, from the state of its sequence (R238). -/
def chipSign (v i : Nat) : Int := if v.testBit i then 1 else -1

/-- Does channel c receive injection (R98, R237)? -/
def State.injected (s : State) (c : Nat) : Bool :=
  s.enabled 0x13 && s.on F.CAL_CFG_BG_EN && s.on F.AFE_INJ_CFG_EN && s.on (F.AFE_CH_CFG_INJ_EN c) && decide (s.src c < 64)

/-- The amplitude A of R238 in DEC output LSB × 10^6: 2^25 × 2^(LEVEL + range), range 5 as range 0 (R80, R98, R116). -/
def State.injAmp (s : State) (c : Nat) : Nat :=
  let r := s.get (F.AFE_CH_CFG_RANGE c)
  2 ^ 25 * 2 ^ (s.get F.AFE_INJ_CFG_LEVEL + if r = 5 then 0 else r)

/-- s[n] and s'[n] of R238 for channel c, in LSB × 10^6 × 2^24, from the broadcast w_k and v_k (2^-24 and 2^-24 per 10 ps). -/
def State.injection (s : State) (c : Nat) (w v : List Int) : Int × Int :=
  let st := spRead (fun _ => 0) s.ms.chips c
  let f (l : List Int) : Int := (List.range 5).foldl (fun t k => t + chipSign st k * l.getD k 0) 0
  (s.injAmp c * f w, s.injAmp c * f v)

/-- Applied background corrections of channel c (R240): BG_GAIN and BG_DELAY; 1 and 0 on a bitstream channel (R222). -/
def State.bgGain (s : State) (c : Nat) : Nat := if s.src c < 64 then s.get (F.CAL_BG_GAIN c) else 2 ^ 30
def State.bgDelay (s : State) (c : Nat) : Int := if s.src c < 64 then s.getInt (F.CAL_BG_DELAY c) else 0

/-- The sample after removal (R239) in LSB × 2^30: x − ĝ·(s − τ̂·s′). -/
def State.cleanSample (s : State) (c : Nat) (x : Int) (w v : List Int) : Int :=
  if s.injected c then
    let (e, e') := s.injection c w v
    let tau := s.shim (shimRef c 1) - s.bgDelay c
    x * 2 ^ 30 - divEven (s.shim (shimRef c 0) * (e - tau * e') * 2 ^ 6) (1000000 * s.bgGain c)
  else x * 2 ^ 30

/-- The lane's corrected value before the phase filter (R221), in 2^-16 V or A. -/
def State.scaled (s : State) (c : Nat) (clean : Int) : Int :=
  let b := s.band
  divEven (s.shim (shimChan c b 1) * s.bgGain c * (clean - s.shim (shimChan c b 0) * 2 ^ 30)) (2 ^ 84)

/-- One channel at an output instant (R129, R132, R221). -/
def State.chanSample (s : State) (x : Int) (w v : List Int) (step c : Nat) : State :=
  if !s.ms.live.testBit c then s
  else
    let sat := sat24 x
    let clip := decide (sat ≠ x)
    let span := if s.srcBad c then fillTime else spRead (fun _ => 0) s.ms.spanLeft c
    let br := spRead (fun _ => 0) s.ms.bridge c
    let prev := (s.histOf c).getD 255 {}
    let hadPrev := decide (256 ≤ (s.histOf c).length) && !prev.tags.testBit 1
    let tags := (if s.on (settleF c) then tagSettling else 0) + (if s.trk = trkLocked then 0 else tagUnlocked)
      + (if span ≠ 0 || (br ≠ 0 && !hadPrev) then tagInvalid else 0) + (if clip then tagClipped else 0)
      + (if br ≠ 0 then tagBridged else 0)
    let clean := s.cleanSample c sat w v
    let (e, e') := if s.injected c then s.injection c w v else (0, 0)
    let y := s.scaled c clean
    let ys := (y :: spRead (fun _ => []) s.ms.shimIn c).take 24
    let z := Config.phaseShim (s.shim (shimChan c s.band 2) + s.bgDelay c) ys
    let val := if br ≠ 0 && hadPrev then prev.val else z
    let s := s.setHist c ({ val := val, tags := tags } :: s.histOf c)
    let s := { s with ms := { s.ms with
      shimIn := spWrite (fun _ => []) s.ms.shimIn c ys
      raw := spWrite (fun _ => []) s.ms.raw c ((⟨sat, clean, e, e'⟩ :: spRead (fun _ => []) s.ms.raw c).take 512)
      fill := spWrite (fun _ => 0) s.ms.fill c (spRead (fun _ => 0) s.ms.fill c - step)
      spanLeft := spWrite (fun _ => 0) s.ms.spanLeft c (span - step)
      bridge := spWrite (fun _ => 0) s.ms.bridge c (br - 1) } }
    let s := if br ≠ 0 then s.incSat F.MTR_BRIDGE_CNT else s
    if clip && !s.on (bitFld64 A.DEC_CLIP_LO c) then (s.put (bitFld64 A.DEC_CLIP_LO c) 1).event 0x11 4 c else s

/-- Chips advance every sixteenth HB2 sample, 1 ms (R237). -/
def State.chipAdvance (s : State) (step : Nat) : State :=
  let p := s.ms.chipPos + step
  if p < 16 * inSample then { s with ms := { s.ms with chipPos := p } }
  else
    let ch := (List.range 64).foldl (fun l c =>
      let v := spRead (fun _ => 0) l c
      spWrite (fun _ => 0) l c (chipStep (if v = 0 then chipSeed c else v))) s.ms.chips
    { s with ms := { s.ms with chipPos := p - 16 * inSample, chips := ch } }

/-- All channels at an output instant, and the position in the line cycle (R129, R131). -/
def State.sampleAll (s : State) (values w v : List Int) : State :=
  let step := s.get F.DEC_INCR
  let s := (List.range 64).foldl (fun s c => s.chanSample (values.getD c 0) w v step c) s
  let s := s.chipAdvance step
  { s with ms := { s.ms with idx := s.ms.idx + 1, acc := (s.ms.acc + step) % 2 ^ 36 }, mt := { s.mt with total := s.mt.total + 1 } }

/-- The end of a fill at a boundary: SETTLING goes from every channel filled (and preloaded, if it integrates) (R123, R133). -/
def State.settleBoundary (s : State) : State :=
  (List.range 64).foldl (fun s c =>
    if s.ms.live.testBit c && s.on (settleF c) && spRead (fun _ => 0) s.ms.fill c == 0 then s.put (settleF c) 0 else s) s

/-- INTEGRATOR_PRELOAD (R123): the DC blocker takes the mean of the first 1,024 HB2 samples; the integrator starts from zero. -/
def execIntegratorPreload (c : Fin 64) (mean : Int) (s : State) : Out := s.onFabric fun s =>
  if s.ms.live.testBit c ∧ s.integ c then
    done { s with ms := { s.ms with
      preload := spWrite (fun _ => 0) s.ms.preload c.val mean
      fill := spWrite (fun _ => 0) s.ms.fill c.val (min (spRead (fun _ => 0) s.ms.fill c.val) fillTime) } }
  else done s

-- Snapshots and replay

/-- DEC.STATUS.REPLAY_BUSY follows the engine (R138). -/
def State.replayBusy (s : State) : State := s.put F.DEC_STATUS_REPLAY_BUSY (s.ms.replay.isSome || s.ms.waiting.isSome).toNat

/-- Is a snapshot still one of the newest four (R135)? -/
def State.snapKept (s : State) (n : Nat) : Bool := decide (s.ms.snap < n + 4)

/-- A modulator dovetail is recorded (R179): its kind, the pause and the bridged samples; DOVETAIL, and BRIDGE where samples were
bridged, are raised. -/
def State.modDovetail (s : State) (kind unit pause bridged : Nat) : State :=
  let s := s.incSat F.MTR_DOVETAIL_CNT_MOD
  let s := (((s.put F.MTR_LAST_DOVETAIL_KIND kind).put F.MTR_LAST_DOVETAIL_UNIT unit).put F.MTR_LAST_DOVETAIL_PAUSE pause).put
    F.MTR_LAST_DOVETAIL_BRIDGED bridged
  let s := s.put F.MTR_LAST_DOVETAIL_CYC (s.get F.DEC_CYCLE_CNT)
  let s := s.event 0x12 2 unit
  if bridged = 0 then s else s.event 0x12 6 unit

/-- A sample already in the history is bridged: the one a line cycle earlier stands in its place (R171). -/
def bridgeHist (h : List Hist) (n : Nat) : List Hist :=
  h.mapIdx fun i x =>
    if i < n then
      let p := h.getD (i + 256) { tags := tagSettling }
      if p.tags.testBit 1 then { x with tags := x.tags ||| (tagBridged + tagInvalid) }
      else { val := p.val, tags := x.tags ||| tagBridged }
    else x

/-- The channels modulator m feeds are bridged: `already` newest samples and `toCome` later ones (R171, R173). -/
def State.bridge (s : State) (m already toCome : Nat) : State :=
  (List.range 64).foldl (fun s c =>
    if s.ms.live.testBit c && s.src c == m then
      let s := s.setHist c (bridgeHist (s.histOf c) already)
      { s with ms := { s.ms with bridge := spWrite (fun _ => 0) s.ms.bridge c toCome } }
    else s) (s.put F.MTR_BRIDGE_CNT (min 0xFFFFFFFF (s.get F.MTR_BRIDGE_CNT + already)))

/-- A refused replay (R137, R173): counted and raised; the live chain takes the spare's stream and every touched sample is bridged. -/
def State.replayRefused (s : State) (r : Replay) (already toCome : Nat) : State :=
  let s := (s.incSat F.DEC_REPLAY_STAT_REFUSED).event 0x11 6 r.unit
  (s.bridge r.unit already toCome).modDovetail 3 r.unit 0 (already + toCome)

/-- DEC_SNAPSHOT (R135): a new snapshot; a waiting request whose snapshot ages out is refused (R137). The number of samples bridged
then is free, within the 70 of R173 (log entry 26). -/
def execDecSnapshot (s : State) : Out := s.onFabric fun s =>
  if !s.enabled 0x11 then done s
  else
    let s := { s with ms := { s.ms with snap := s.ms.snap + 1 } }
    match s.ms.waiting with
    | some r => if s.snapKept r.snap then done s
        else done (({ s with ms := { s.ms with waiting := none } }).took.replayRefused r 0 (s.free % 71)).replayBusy
    | none => done s

/-- REPLAY_REQUEST (R136, R137, R169, R172): the request that is due is served, queued or refused; the lane pauses when served. -/
def execReplayRequest (already toCome : Nat) (s : State) : Out := s.onFabric fun s =>
  match s.ms.due with
  | [] => done s
  | r :: rest =>
    let s := { s with ms := { s.ms with due := rest } }
    if !s.snapKept r.snap then done (s.replayRefused r already toCome)
    else if s.ms.replay.isNone then
      done ({ s with ms := { s.ms with replay := some r, caught := false }, mt := { s.mt with paused := some r.lane } }).replayBusy
    else if s.ms.waiting.isNone then done ({ s with ms := { s.ms with waiting := some r } }).replayBusy
    else done (s.replayRefused r already toCome)

/-- REPLAY_CATCH_UP (R170, R171): from here the lane takes the channel's samples from the replay; the touched ones are bridged. -/
def execReplayCatchUp (already toCome pause : Nat) (s : State) : Out := s.onFabric fun s =>
  match s.ms.replay with
  | some r =>
    if s.ms.caught then done s
    else done (({ s with ms := { s.ms with caught := true } }).bridge r.unit already toCome |>.modDovetail 2 r.unit pause (already + toCome))
  | none => done s

/-- REPLAY_HANDOVER (R170): the live chain takes the replayed state; the engine is released and a waiting request starts. -/
def execReplayHandover (s : State) : Out := s.onFabric fun s =>
  if s.ms.replay.isSome ∧ s.ms.caught = true then
    let s := s.incSat F.DEC_REPLAY_STAT_DONE
    let s := { s with ms := { s.ms with replay := s.ms.waiting, waiting := none, caught := false } }
    done ({ s with mt := { s.mt with paused := s.ms.replay.map Replay.lane } }).replayBusy
  else done s

/-- LANE_PAUSE_END (R172): the lane takes new samples again, 2 µs after the catch-up. -/
def execLanePauseEnd (s : State) : Out := s.onFabric fun s =>
  if s.ms.caught then done { s with mt := { s.mt with paused := none } } else done s

/-- A soft reset of DEC beside its registers (R140): replays are refused, channels stop, snapshots empty. -/
def State.resetDec (s : State) : State :=
  let l := s.ms.replay.toList ++ s.ms.waiting.toList
  let s := { s with ms := { s.ms with replay := none, waiting := none, due := [], snap := 0, caught := false }, mt := { s.mt with paused := none } }
  let s := l.foldl (fun s r => s.took.replayRefused r (s.free % 71) 0) s
  s.decStop

end Sys2Proof.Machine
end

