-- ==== Sys2Proof/Machine/Lanes.lean ====
section
/-! DEFINITION. The metrology lanes: the transform, the quantities of an outlet and a feeder, the energy increments, the result
gate and lane dovetails (05_metrology_lanes.md). -/
namespace Sys2Proof.Machine

-- Arithmetic

/-- The square root of n / d, rounded to the nearest whole number. -/
def rootRound (n d : Nat) : Nat := (Nat.sqrt (4 * n / d) + 1) / 2

/-- A quarter wave of the cosine in 2^-30, 256 steps to the turn (log entry 7). -/
def cosTab : List Int :=
  [1073741824, 1073418433, 1072448455, 1070832474, 1068571464, 1065666786, 1062120190, 1057933813, 1053110176, 1047652185, 1041563127] ++
  [1034846671, 1027506862, 1019548121, 1010975242, 1001793390, 992008094, 981625251, 970651112, 959092290, 946955747, 934248793] ++
  [920979082, 907154608, 892783698, 877875009, 862437520, 846480531, 830013654, 813046808, 795590213, 777654384, 759250125] ++
  [740388522, 721080937, 701339000, 681174602, 660599890, 639627258, 618269338, 596538995, 574449320, 552013618, 529245404] ++
  [506158392, 482766489, 459083786, 435124548, 410903207, 386434353, 361732726, 336813204, 311690799, 286380643, 260897982] ++
  [235258165, 209476638, 183568930, 157550647, 131437462, 105245103, 78989349, 52686014, 26350943, 0]

/-- cos(2πn/256) and sin(2πn/256) in 2^-30. -/
def cosI (n : Nat) : Int :=
  let m := n % 256
  if m ≤ 64 then cosTab.getD m 0 else if m ≤ 128 then -cosTab.getD (128 - m) 0
  else if m ≤ 192 then -cosTab.getD (m - 128) 0 else cosTab.getD (256 - m) 0
def sinI (n : Nat) : Int := cosI (n + 192)

/-- X[h] of R148 over 256 values, oldest first, in 2^-30 of the values' unit. -/
def dft (xs : List Int) (h : Nat) : Int × Int :=
  ((xs.mapIdx fun n x => x * cosI (h * n)).foldl (· + ·) 0, -(xs.mapIdx fun n x => x * sinI (h * n)).foldl (· + ·) 0)

/-- Bins 0 to 63; bin 0 is zero on an integrating channel (R149, R150). -/
def bins (integ : Bool) (xs : List Int) : List (Int × Int) :=
  (List.range 64).map fun h => if h = 0 ∧ integ then (0, 0) else dft xs h

/-- Re and Im of U·conj(I) for one bin. -/
def reP (u i : Int × Int) : Int := u.1 * i.1 + u.2 * i.2
def imP (u i : Int × Int) : Int := u.2 * i.1 - u.1 * i.2

/-- The rms-phasor sum over bins of a product: bin 0 once and bins `lo` to 63 twice; in 2^-108 of the unit product. -/
def binSum (f : Int × Int → Int × Int → Int) (lo : Nat) (dc : Bool) (a b : List (Int × Int)) : Int :=
  let t := (List.zipWith f a b)
  (if dc then t.getD 0 0 else 0) + 2 * ((t.drop lo).foldl (· + ·) 0)

/-- The common denominator of binSum: 256² × 2^60 × 2^32. -/
def den : Nat := 2 ^ 108

/-- arctan(t) for 0 ≤ t ≤ 2^40 (unit 2^-40), in 2^-40 rad: the argument is halved three times, then its series is summed. -/
def atanHalf (t : Int) : Int := t * 2 ^ 40 / (2 ^ 40 + (Nat.sqrt ((2 ^ 80 + t * t).toNat) : Int))
def atanUnit (t : Int) : Int :=
  let x := atanHalf (atanHalf (atanHalf t))
  let x2 := x * x / 2 ^ 40
  let term (p : Int) (n : Nat) : Int := p / (n : Int)
  let p3 := x * x2 / 2 ^ 40
  let p5 := p3 * x2 / 2 ^ 40
  let p7 := p5 * x2 / 2 ^ 40
  let p9 := p7 * x2 / 2 ^ 40
  8 * (x - term p3 3 + term p5 5 - term p7 7 + term p9 9)

/-- π in 2^-40 rad. -/
def piI : Int := 3454217652358

/-- The angle of (x, y) in 2^-40 rad, in (−π, π]. -/
def argI (y x : Int) : Int :=
  if x = 0 ∧ y = 0 then 0
  else
    let ax : Int := x.natAbs
    let ay : Int := y.natAbs
    let a := if ay ≤ ax then atanUnit (ay * 2 ^ 40 / ax) else piI / 2 - atanUnit (ax * 2 ^ 40 / ay)
    let a := if x < 0 then piI - a else a
    if y < 0 then -a else a

/-- The same in µrad. -/
def argMicro (y x : Int) : Int := divEven (argI y x * 1000000) (2 ^ 40)

/-- Saturation of a signed and of an unsigned 32-bit register value (R152). -/
def satS (v : Int) : Int := if 2147483647 < v then 2147483647 else if v < -2147483648 then -2147483648 else v
def satU (mx v : Nat) : Nat := min mx v

-- Segments of the history

/-- `n` samples of channel c ending `off` samples before the newest, oldest first (R142). -/
def State.seg (s : State) (c off n : Nat) : List Hist := (((s.histOf c).drop off).take n).reverse
def vals (l : List Hist) : List Int := l.map Hist.val
def tagsOf (l : List Hist) : Nat := l.foldl (fun t h => t ||| h.tags) 0

/-- The tags of a channel's segment; a path fault makes it INVALID (R595), a missing sample SETTLING. -/
def State.segTags (s : State) (c off n : Nat) : Nat :=
  let l := s.seg c off n
  tagsOf l ||| (if l.length < n then tagSettling else 0) ||| (if s.on (bitFld64 A.CAL_FAULT_LO c) then tagInvalid else 0)

-- Outlets

/-- The voltage channel of outlet k, phase p (R151), and the phases that count. -/
def State.uCh (s : State) (k p : Nat) : Nat := 48 + 3 * s.get (F.MTRK_CFG_FEEDER k) + p
def State.isDc (s : State) (k : Nat) : Bool := s.on (F.MTRK_CFG_MODE_DC k)
def State.phases (s : State) (k : Nat) : List Nat :=
  [0, 1, 2].filter fun p => (s.get (F.MTRK_CFG_PH_EN k)).testBit p

/-- The channels whose tags decide an outlet's cycle (R153). -/
def State.deciding (s : State) (k : Nat) : List Nat :=
  if s.isDc k then [4 * k, 4 * k + 1] else (s.phases k).flatMap fun p => [4 * k + p, s.uCh k p]

def State.outTags (s : State) (k off n : Nat) : Nat := (s.deciding k).foldl (fun t c => t ||| s.segTags c off n) 0

/-- R of R162 in µΩ. -/
def State.cableR (s : State) (k : Nat) : Int := if s.on (F.MTRK_CFG_CABLE_EN k) then s.get (F.MTRK_CABLE_R_R k) else 0

/-- A register value in two's complement. -/
def wordI (v : Int) : W32 := BitVec.ofInt 32 v
def wordN (v : Nat) : W32 := BitVec.ofNat 32 v

/-- The quantities of one phase over a cycle: register words (R151, R152, R181), whether PF or DPF is undefined, I_RMS in 0.1 mA,
P, Q1, QT and Nu·Ni (2^-108), and the current bins. -/
structure PhaseQ where
  words : List (Nat × W32)
  undef : Bool
  irms : Nat
  p : Int
  q1 : Int
  qt : Int
  ss : Nat
  ibins : List (Int × Int)
  deriving Repr

/-- The current limit test of R152: below the start-up current of R190. -/
def belowStart (i01mA ib : Nat) : Bool := decide (i01mA * 200 < ib)

def State.phaseQ (s : State) (k p off : Nat) : PhaseQ :=
  let cu := s.uCh k p
  let ci := 4 * k + p
  let u := bins (s.integ cu) (vals (s.seg cu off 256))
  let i := bins (s.integ ci) (vals (s.seg ci off 256))
  let nu := (binSum reP 1 true u u).toNat
  let ni := (binSum reP 1 true i i).toNat
  let nu1 := (2 * reP (u.getD 1 (0, 0)) (u.getD 1 (0, 0))).toNat
  let ni1 := (2 * reP (i.getD 1 (0, 0)) (i.getD 1 (0, 0))).toNat
  let pn := binSum reP 1 true u i
  let p1 := 2 * reP (u.getD 1 (0, 0)) (i.getD 1 (0, 0))
  let q1 := 2 * imP (u.getD 1 (0, 0)) (i.getD 1 (0, 0))
  let qt := binSum imP 1 false u i
  let urms := rootRound (nu * 10 ^ 6) den
  let irms := rootRound (ni * 10 ^ 8) den
  let u1 := rootRound (nu1 * 10 ^ 6) den
  let i1 := rootRound (ni1 * 10 ^ 8) den
  let ib := s.get (F.MTRK_IB_IB k)
  let undef := belowStart irms ib || decide (urms < 5000)
  let ratio (n : Int) (d2 : Nat) : Int := if d2 = 0 then 0 else divEven (n * 10000) (Nat.sqrt d2)
  let pf := if undef then 0x8000 else unsignedOf 16 (ratio pn (nu * ni))
  let dpf := if undef then 0x8000 else unsignedOf 16 (ratio p1 (nu1 * ni1))
  let thd (nh n1 : Nat) (bad : Bool) : Nat := if bad || n1 = 0 then 0xFFFF else satU 0xFFFE (rootRound (nh * 10 ^ 8) n1)
  let thu := thd (binSum reP 2 false u u).toNat nu1 (decide (u1 < 5000))
  let thi := thd (binSum reP 2 false i i).toNat ni1 (belowStart i1 ib)
  let m (n : Int) : W32 := wordI (satS (divEven (n * 1000) den))
  let words := [(A.MTRK_PH_U_RMS k p, wordN (satU 0xFFFFFFFF urms)), (A.MTRK_PH_I_RMS k p, wordN (satU 0xFFFFFFFF irms)),
    (A.MTRK_PH_P k p, m pn), (A.MTRK_PH_QT k p, m qt),
    (A.MTRK_PH_S k p, wordN (satU 0xFFFFFFFF (rootRound (nu * ni * 10 ^ 6) (den * den)))),
    (A.MTRK_PH_U1 k p, wordN (satU 0xFFFFFFFF u1)), (A.MTRK_PH_I1 k p, wordN (satU 0xFFFFFFFF i1)),
    (A.MTRK_PH_P1 k p, m p1), (A.MTRK_PH_Q1 k p, m q1),
    (A.MTRK_PH_S1 k p, wordN (satU 0xFFFFFFFF (rootRound (nu1 * ni1 * 10 ^ 6) (den * den)))),
    (A.MTRK_PH_PF k p, wordN (pf + 65536 * dpf)), (A.MTRK_PH_THD k p, wordN (thu + 65536 * thi)),
    (A.MTRK_PH_PHI1 k p, wordI (argMicro q1 p1))]
  ⟨words, undef, irms, pn, q1, qt, nu * ni, i⟩

/-- A phase disabled in PH_EN reads zero (R151): U_RMS to I1_FAST, 14 registers. -/
def zeroPhase (k p : Nat) : List (Nat × W32) := (List.range 14).map fun i => (A.MTRK_PH_U_RMS k p + 4 * i, 0)

/-- I_RES in µA, from a cycle of channel 4k + 3 without SETTLING (R151, R153). -/
def State.resWord (s : State) (k off : Nat) : List (Nat × W32) :=
  let c := 4 * k + 3
  if !s.ms.live.testBit c then [(A.MTRK_I_RES k, 0)]
  else if (s.segTags c off 256).testBit 1 then []
  else
    let b := bins (s.integ c) (vals (s.seg c off 256))
    [(A.MTRK_I_RES k, wordN (satU 0xFFFFFFFF (rootRound ((binSum reP 1 true b b).toNat * 10 ^ 12) den)))]

/-- The sums over the enabled phases and I_N (R151, R152). -/
def State.sumWords (s : State) (k : Nat) (qs : List PhaseQ) : List (Nat × W32) :=
  let pn := (qs.map PhaseQ.p).foldl (· + ·) 0
  let qn := (qs.map fun q => if s.on (F.MTRK_CFG_Q_MODE k) then q.qt else q.q1).foldl (· + ·) 0
  let sn := (qs.map fun q => Nat.sqrt q.ss).foldl (· + ·) 0
  let undef := qs.all PhaseQ.undef
  let tot := (List.range 64).map fun h => qs.foldl (fun (t : Int × Int) q =>
    let b := q.ibins.getD h (0, 0); (t.1 + b.1, t.2 + b.2)) (0, 0)
  let m (n : Int) : W32 := wordI (satS (divEven (n * 1000) den))
  [(A.MTRK_P_SUM k, m pn), (A.MTRK_Q_SUM k, m qn),
   (A.MTRK_S_SUM k, wordN (satU 0xFFFFFFFF (divEven ((sn * 1000 : Nat) : Int) den).toNat)),
   (A.MTRK_PF_SUM k, wordN (if undef || sn = 0 then 0x8000 else unsignedOf 16 (divEven (pn * 10000) sn))),
   (A.MTRK_I_N k, wordN (satU 0xFFFFFFFF (rootRound ((binSum reP 1 true tot tot).toNat * 10 ^ 8) den)))]

/-- A DC outlet's cycle sums in 2^-32: Σu, Σi (2^-16), Σu·i, Σi² (R162). -/
def State.dcSums (s : State) (k off n : Nat) : Int × Int × Int × Int :=
  let u := vals (s.seg (4 * k + 1) off n)
  let i := vals (s.seg (4 * k) off n)
  let add (l : List Int) : Int := l.foldl (· + ·) 0
  (add u, add i, add (List.zipWith (· * ·) u i), add (List.zipWith (· * ·) i i))

/-- The quantities of a DC outlet (R162), and whether the loss fails the check of R163. -/
def State.dcWords (s : State) (k off : Nat) : List (Nat × W32) × Bool × Nat :=
  let (u, i, ui, ii) := s.dcSums k off 256
  let r := s.cableR k
  let um := divEven (u * 1000) (256 * 2 ^ 16)
  let dcu := divEven (u * 1000 * 1000000 - r * i * 1000) (256 * 2 ^ 16 * 1000000)
  let di := divEven (i * 10000) (256 * 2 ^ 16)
  let pm := divEven (ui * 1000) (256 * 2 ^ 32)
  let loss := divEven (r * ii * 1000) (256 * 2 ^ 32 * 1000000)
  let p := divEven (ui * 1000 * 1000000 - r * ii * 1000) (256 * 2 ^ 32 * 1000000)
  ([(A.MTRK_DC_U_MEAS k, wordI (satS um)), (A.MTRK_DC_U k, wordI (satS dcu)), (A.MTRK_DC_I k, wordI (satS di)),
    (A.MTRK_DC_P_MEAS k, wordI (satS pm)), (A.MTRK_DC_P k, wordI (satS p)),
    (A.MTRK_DC_LOSS k, wordN (satU 0xFFFFFFFF loss.toNat))],
   decide ((ui * 1000000).natAbs < (10 * r * ii).natAbs), di.natAbs)

-- Energy increments (R157 to R159)

/-- n (in 2^-32 W, over samples of one interval each, divided by d) as energy in 2^-32 micro-units. -/
def State.energy (s : State) (n : Int) (d : Nat) : Int := divEven (n * s.get F.DEC_INCR * 5) (288 * 2 ^ 30 * d)

/-- A phase's exact increments of one batch in 2^-32 micro-units: provisional (R158). -/
def State.provisional (s : State) (k p off n : Nat) (prevQ prevS : Int) : Int × Int × Int :=
  let u := vals (s.seg (s.uCh k p) off n)
  let i := vals (s.seg (4 * k + p) off n)
  (s.energy ((List.zipWith (· * ·) u i).foldl (· + ·) 0) 1, s.energy (n * prevQ) (2 ^ 76), s.energy (n * prevS) (2 ^ 76))

def add3 (a b : Int × Int × Int) : Int × Int × Int := (a.1 + b.1, a.2.1 + b.2.1, a.2.2 + b.2.2)
def sub3 (a b : Int × Int × Int) : Int × Int × Int := (a.1 - b.1, a.2.1 - b.2.1, a.2.2 - b.2.2)

/-- Whole micro-units handed and the signed 32-bit remainder carried (R159). -/
def handOut (v : Int × Int × Int) : Incr × (Int × Int × Int) :=
  let w (x : Int) : Int := divEven x (2 ^ 32)
  (⟨w v.1, w v.2.1, w v.2.2⟩, (v.1 - w v.1 * 2 ^ 32, v.2.1 - w v.2.1 * 2 ^ 32, v.2.2 - w v.2.2 * 2 ^ 32))

def State.slot (s : State) (j : Nat) : Slot := spRead (fun _ => ({} : Slot)) s.mt.slots j
def State.setSlot (s : State) (j : Nat) (x : Slot) : State :=
  { s with mt := { s.mt with slots := spWrite (fun _ => ({} : Slot)) s.mt.slots j x } }
def State.meter (s : State) (k : Nat) : Meter := spRead (fun _ => ({} : Meter)) s.mt.meters k
def State.setMeter (s : State) (k : Nat) (x : Meter) : State :=
  { s with mt := { s.mt with meters := spWrite (fun _ => ({} : Meter)) s.mt.meters k x } }

/-- What one phase adds in one batch: the exact increment (closure included at batch 15, R158) before the remainder. -/
def State.phaseInc (s : State) (k p off : Nat) (x : Slot) (q : Option PhaseQ) : Int × Int × Int :=
  let (pq, ps) := x.prevQS.getD p (0, 0)
  let e := s.provisional k p off 16 pq ps
  match q with
  | none => e
  | some q =>
    let qn := if s.on (F.MTRK_CFG_Q_MODE k) then q.qt else q.q1
    let total := (s.energy (256 * q.p) (2 ^ 76), s.energy (256 * qn) (2 ^ 76), s.energy (256 * (Nat.sqrt q.ss : Int)) (2 ^ 76))
    sub3 total (x.cyc.getD p (0, 0, 0))

/-- Is a phase running (R190)? -/
def State.running (s : State) (k p : Nat) : Bool := (s.get (F.MTRK_ESTAT_RUNNING k)).testBit p

/-- The batch of outlet k that ends `off` samples ago: its result and the slot's next context (R143, R153, R157 to R162). -/
def State.outletBatch (s : State) (k cycle batch off : Nat) : BatchRes × Slot × Meter :=
  let x := s.slot k
  let m := s.meter k
  let last := decide (batch = 15)
  let x := if batch = 0 then { x with cyc := [], valid := true } else x
  let tags := s.outTags k off (16 * (batch + 1))
  let bad := tags.testBit 1 || m.waitCycle || (s.deciding k == [])
  let cyc16 := cycle % 65536
  if bad then
    (⟨cycle, batch, [], if last then s.resWord k off else [], tags, false, last⟩, { x with valid := false, prevQS := [] },
      if last then { m with waitCycle := false } else m)
  else if s.isDc k then
    let (_, _, ui, ii) := s.dcSums k off 16
    let e := (s.energy (ui * 1000000 - s.cableR k * ii) 1000000, (0 : Int), (0 : Int))
    let (inc, r) := handOut (add3 e (x.rem.getD 0 (0, 0, 0)))
    let (words, plaus, di) := s.dcWords k off
    let words := if last then words ++ s.resWord k off ++ [(A.MTRK_QSTAT k, wordN (1 + tags + 65536 * cyc16))] else []
    (⟨cycle, batch, [if s.running k 0 then inc else {}], words, tags, last && plaus, last⟩, { x with rem := [r] },
      if last then { m with curr := [di, 0, 0] } else m)
  else
    let qs := if last then (s.phases k).map fun p => (p, s.phaseQ k p off) else []
    let exact := [0, 1, 2].map fun p =>
      if (s.phases k).contains p then s.phaseInc k p off x ((qs.find? fun q => q.1 == p).map Prod.snd) else (0, 0, 0)
    let outs := [0, 1, 2].map fun p => handOut (add3 (exact.getD p (0, 0, 0)) (x.rem.getD p (0, 0, 0)))
    let incs := [0, 1, 2].map fun p => if s.running k p then (outs.getD p ({}, (0, 0, 0))).1 else {}
    let x := { x with
      rem := outs.map Prod.snd
      cyc := [0, 1, 2].map fun p => add3 (x.cyc.getD p (0, 0, 0)) (exact.getD p (0, 0, 0))
      prevQS := if last then [0, 1, 2].map (fun p => match qs.find? fun q => q.1 == p with
        | some q => (if s.on (F.MTRK_CFG_Q_MODE k) then q.2.qt else q.2.q1, (Nat.sqrt q.2.ss : Int))
        | none => (0, 0)) else x.prevQS }
    let undef := qs.any fun q => q.2.undef
    let off3 := ([0, 1, 2].filter fun p => !(s.phases k).contains p).flatMap (zeroPhase k)
    let words := if last then (qs.flatMap fun q => q.2.words) ++ off3 ++ s.sumWords k (qs.map Prod.snd) ++ s.resWord k off
      ++ [(A.MTRK_QSTAT k, wordN (1 + tags + (if undef then 64 else 0) + 65536 * cyc16))] else []
    let m := if last then { m with curr := [0, 1, 2].map fun p => match qs.find? fun q => q.1 == p with
        | some q => q.2.irms
        | none => 0 } else m
    (⟨cycle, batch, incs, words, tags, false, last⟩, x, m)

-- Feeders (R156, R179)

/-- The feeder registers that lane j of 12 to 15 fills at the end of a cycle. -/
def State.feederWords (s : State) (j cycle off : Nat) : List (Nat × W32) :=
  [0, 1, 2, 3].flatMap fun f =>
    let us := [0, 1, 2].filter fun p => decide ((48 + 3 * f + p) / 4 = j)
    (us.flatMap fun p =>
      let c := 48 + 3 * f + p
      if (s.segTags c off 256).testBit 1 then [] else
        let b := bins (s.integ c) (vals (s.seg c off 256))
        let n := (binSum reP 1 true b b).toNat
        let n1 := (2 * reP (b.getD 1 (0, 0)) (b.getD 1 (0, 0))).toNat
        let thd := if rootRound (n1 * 10 ^ 6) den < 5000 then 0xFFFF
          else satU 0xFFFE (rootRound ((binSum reP 2 false b b).toNat * 10 ^ 8) n1)
        let w := wordN (satU 0xFFFFFFFF (rootRound (n * 10 ^ 6) den))
        let a01 := s.reg (A.MTR_FD_THD01 f)
        (if p = 0 then [(A.MTR_FD_U1 f, w), (A.MTR_FD_THD01 f, putBits a01 0 16 thd)]
         else if p = 1 then [(A.MTR_FD_U2 f, w), (A.MTR_FD_THD01 f, putBits a01 16 16 thd)]
         else [(A.MTR_FD_U3 f, w), (A.MTR_FD_THD2 f, wordN thd)])
        ++ [(A.MTR_FD_QSTAT f, wordN (1 + s.segTags c off 256 + 0 * cycle))])
    ++ (if j = 15 then
        let c := 60 + f
        if (s.segTags c off 256).testBit 1 then [] else
          let b := bins (s.integ c) (vals (s.seg c off 256))
          [(A.MTR_FD_IN f, wordN (satU 0xFFFFFFFF (rootRound ((binSum reP 1 true b b).toNat * 10 ^ 8) den)))]
      else [])

-- Lanes and spares

/-- The lane that carries slot j: a spare that LANE_MAP gives it, else lane j itself unless failed (R167, R179). -/
def State.carrier (s : State) (j : Nat) : Option Nat :=
  if s.on F.MTR_LANE_MAP_S16_VALID && s.get F.MTR_LANE_MAP_S16_SLOT == j then some 16
  else if s.on F.MTR_LANE_MAP_S17_VALID && s.get F.MTR_LANE_MAP_S17_SLOT == j then some 17
  else if s.on (bitFld A.MTR_LANE_STAT j) then none else some j

/-- The slot a lane carries. -/
def State.slotOf (s : State) (lane : Nat) : Option Nat := (List.range 16).find? fun j => s.carrier j == some lane

/-- Flags of spare 16 + i. -/
def spareLaneFailF (i : Nat) : Fld := ⟨A.MTR_LANE_STAT, 16 + i, 1⟩
def spareLaneUsedF (i : Nat) : Fld := ⟨A.MTR_LANE_STAT, 18 + i, 1⟩
def auditingF (i : Nat) : Fld := ⟨A.MTR_LANE_STAT, 20 + i, 1⟩
def State.freeLane (s : State) : Option Nat := [0, 1].find? fun i => !s.on (spareLaneFailF i) && !s.on (spareLaneUsedF i)

def laneEpochF (j : Nat) : Fld := ⟨A.MTR_LANE_EPOCH j, 0, 32⟩

/-- Spare 16 + i takes slot j under the slot's present epoch (R167); any audit it ran is abandoned. -/
def State.assignSpare (s : State) (i j : Nat) : State :=
  let s := (s.put (spareLaneUsedF i) 1).put (auditingF i) 0
  let s := if i = 0 then (s.put F.MTR_LANE_MAP_S16_SLOT j).put F.MTR_LANE_MAP_S16_VALID 1
    else (s.put F.MTR_LANE_MAP_S17_SLOT j).put F.MTR_LANE_MAP_S17_VALID 1
  let s := { s with mt := { s.mt with audits := s.mt.audits.filter fun a => a.spare != i } }
  s.setSlot j { s.slot j with ctxEpoch := s.get (laneEpochF j) }

/-- A lane dovetail into slot j is recorded and raised (R167, R179). -/
def State.laneDovetail (s : State) (i j unit : Nat) : State :=
  let s := (s.assignSpare i j).incSat F.MTR_DOVETAIL_CNT_LANE
  let s := (((s.put F.MTR_LAST_DOVETAIL_KIND 1).put F.MTR_LAST_DOVETAIL_UNIT unit).put F.MTR_LAST_DOVETAIL_PAUSE 0).put
    F.MTR_LAST_DOVETAIL_BRIDGED 0
  (s.put F.MTR_LAST_DOVETAIL_CYC (s.get F.DEC_CYCLE_CNT)).event 0x12 2 unit

/-- A slot that no spare covers (R176, R593, R596): its results stop; UNCOVERED; an outlet's METER_GAP entry, once in a run, and the
FAULT frame that names it. -/
def State.uncoverSlot (s : State) (j unit : Nat) : State :=
  let s := s.setSlot j { s.slot j with stopped := true, buf := [], handed := [] }
  let s := s.event 0x12 4 unit
  if j < 12 then
    let s := s.put (F.MTRK_QSTAT_VALID j) 0
    if s.enabled (0x20 + j) && !(s.meter j).uncoveredLogged then
      let s := s.setMeter j { s.meter j with uncoveredLogged := true }
      let s := s.log 0x0003 j (le 4 3 ++ le 4 (s.get F.DEC_CYCLE_CNT))
      s.faultFrame 0x02 true 0 unit s.lastLog
    else s.faultFrame 0x02 true 0 unit noLog
  else s.faultFrame 0x02 true 0 unit noLog

/-- A lane or spare goes out of service (R165, R167). -/
def State.markLane (s : State) (lane : Nat) : State :=
  if lane < 16 then (s.put (bitFld A.MTR_LANE_STAT lane) 1).event 0x12 0 lane
  else
    let i := lane - 16
    let s := ((s.put (spareLaneFailF i) 1).put (spareLaneUsedF i) 0).put (auditingF i) 0
    let s := if i = 0 then s.put F.MTR_LANE_MAP_S16_VALID 0 else s.put F.MTR_LANE_MAP_S17_VALID 0
    ({ s with mt := { s.mt with audits := s.mt.audits.filter fun a => a.spare != i } }).event 0x12 1 lane

/-- The lane's slot passes to spare `i?` under a new epoch, or is uncovered (R167, R176). -/
def State.passSlot (s : State) (j unit : Nat) (i? : Option Nat) : State :=
  let s := s.inc (laneEpochF j)
  match i? with
  | some i => s.laneDovetail i j unit
  | none => s.uncoverSlot j unit

/-- A lane fails (R165, R167, R176); an idle spare only goes out of service. -/
def State.failLane (s : State) (lane : Nat) : State :=
  match s.slotOf lane with
  | some j => let s := s.markLane lane; s.passSlot j lane s.freeLane
  | none =>
    if lane < 16 then s
    else if s.on (spareLaneFailF (lane - 16)) then s else s.markLane lane

/-- BATCH_DEADLINE (R144, R165): a batch of the slot is not handed over at 50 % of its period. -/
def execBatchDeadline (slot : Fin 16) (s : State) : Out := s.onFabric fun s =>
  match s.carrier slot.val with
  | some lane => if (s.slot slot.val).buf = [] then done s else done (s.failLane lane)
  | none => done s

/-- LANE_FAULT (R165, R167): an uncorrectable ECC error or a trap. -/
def execLaneFault (lane : Fin 18) (s : State) : Out := s.onFabric fun s => done (s.failLane lane)

/-- AUDIT_COMPARE (R166): the audit of spare 16 + i is complete; a mismatch starts the self-tests. -/
def execAuditCompare (i : Fin 2) (same : Bool) (s : State) : Out := s.onFabric fun s =>
  match s.mt.audits.find? fun a => a.spare == i.val && !a.testing with
  | none => done s
  | some a =>
    let s := s.incSat F.MTR_AUDIT_CNT_AUDITS
    if same then done ({ s with mt := { s.mt with audits := s.mt.audits.filter (· != a) } }.put (auditingF i) 0)
    else
      let s := s.incSat F.MTR_AUDIT_CNT_MISMATCH
      let s := { s with mt := { s.mt with audits := s.mt.audits.map fun b => if b = a then { b with testing := true } else b } }
      done (s.event 0x12 3 a.lane)

/-- AUDIT_SELF_TEST_DONE (R166): the outcome table. -/
def execAuditSelfTestDone (i : Fin 2) (laneOk : Bool) (auditorOk : Bool) (s : State) : Out := s.onFabric fun s =>
  match s.mt.audits.find? fun a => a.spare == i.val && a.testing with
  | none => done s
  | some a =>
    let s := { s with mt := { s.mt with audits := s.mt.audits.filter (· != a) } }.put (auditingF i) 0
    let j := a.lane
    match laneOk, auditorOk with
    | false, true => let s := s.markLane j; done (s.passSlot j j (some i.val))
    | true, false => done (s.markLane (16 + i.val))
    | true, true =>
      let s := (s.incSat F.MTR_AUDIT_CNT_TRANSIENT).inc (laneEpochF j)
      done (s.setSlot j { s.slot j with ctxEpoch := s.get (laneEpochF j) })
    | false, false =>
      let s := (s.markLane (16 + i.val)).markLane j
      let s := s.faultFrame 0x0B true 0 j noLog
      done (s.passSlot j j s.freeLane)

/-- Audits start with a batch (R166): spare 16 for lanes 0 to 7, spare 17 for 8 to 15, a lone one for all, in turn. -/
def State.startAudits (s : State) : State :=
  if s.on F.MTR_CFG_AUDIT_EN && !s.pf.warned then
    let free := [0, 1].filter fun i => !s.on (spareLaneFailF i) && !s.on (spareLaneUsedF i)
    let t := s.mt.auditTurn
    let s := free.foldl (fun s i =>
      let j := if free.length = 2 then 8 * i + t % 8 else t % 16
      if (s.mt.audits.any fun a => a.spare == i) || s.carrier j != some j then s
      else ({ s with mt := { s.mt with audits := s.mt.audits ++ [(⟨i, j, false⟩ : Audit)] } }).put (auditingF i) 1) s
    { s with mt := { s.mt with auditTurn := t + 1 } }
  else s

/-- MTR_START_TEST_DONE (R164): flags afresh; spares go to failed lanes in ascending order. -/
def State.laneTest (s : State) (passed : List Bool) : State :=
  let bad (l : Nat) : Bool := passed[l]? == some false
  let s := (s.setReg A.MTR_LANE_STAT 0).setReg A.MTR_LANE_MAP 0
  let s := [0, 1].foldl (fun s i => s.put (spareLaneFailF i) (bad (16 + i)).toNat) s
  let s := (List.range 16).foldl (fun s j => s.put (bitFld A.MTR_LANE_STAT j) (bad j).toNat) s
  let s := (List.range 16).foldl (fun s j =>
    if bad j then (match s.freeLane with
      | some i => s.assignSpare i j
      | none => s.uncoverSlot j j) else s) s
  s.put F.MTR_STATUS_START_TEST_DONE 1

def execMtrStartTestDone (passed : List Bool) (s : State) : Out := s.onFabric fun s =>
  if s.on F.MTR_STATUS_START_TEST_DONE then done s else done (s.laneTest passed)

/-- ECC_SINGLE_ERROR (R141, R165): corrected and counted. -/
def execEccSingleError (lane : Fin 18) (s : State) : Out := s.onFabric fun s =>
  done { s with mt := { s.mt with eccSingle := spWrite (fun _ => 0) s.mt.eccSingle lane.val (spRead (fun _ => 0) s.mt.eccSingle lane.val + 1) } }

-- Batches

/-- Does slot j own an enabled channel (R179)? -/
def State.slotOwns (s : State) (j : Nat) : Bool := [0, 1, 2, 3].any fun i => s.ms.live.testBit (4 * j + i)

/-- A wake for a batch with a stale context: it is reloaded and STALE raised (R177). -/
def State.wake (s : State) (j : Nat) : State :=
  let x := s.slot j
  if x.ctxEpoch = s.get (laneEpochF j) then s
  else (s.setSlot j { x with ctxEpoch := s.get (laneEpochF j) }).event 0x12 5 j

/-- One slot starts the batch that has become ready (R143). -/
def State.slotBatch (s : State) (cycle batch off j : Nat) : State :=
  if s.slotOwns j && !(s.slot j).stopped && (s.carrier j).isSome then
    let s := s.wake j
    if j < 12 then
      if s.enabled (0x20 + j) then
        let (r, x, m) := s.outletBatch j cycle batch off
        (s.setSlot j { x with buf := x.buf ++ [r] }).setMeter j m
      else
        s.setSlot j { s.slot j with buf := (s.slot j).buf ++ [⟨cycle, batch, [], [], 0, false, false⟩] }
    else
      let words := if batch = 15 then s.feederWords j cycle off else []
      s.setSlot j { s.slot j with buf := (s.slot j).buf ++ [⟨cycle, batch, [], words, 0, false, batch == 15⟩] }
  else s

/-- Channel c's value is a voltage: feeder voltages, and the measuring voltage of a DC outlet (R162). -/
def State.isVoltage (s : State) (c : Nat) : Bool :=
  (decide (48 ≤ c) && decide (c < 60)) || (decide (c < 48) && c % 4 == 1 && s.isDc (c / 4))

/-- Voltage channel L1 of the feeder that channel c belongs to. -/
def State.feederL1 (s : State) (c : Nat) : Nat :=
  if c < 48 then s.uCh (c / 4) 0 else if c < 60 then 48 + 3 * ((c - 48) / 3) else 48 + 3 * (c - 60)

/-- HARM_MAG, HARM_PH and HARM_SEL.CYCLE for the selection in force over the cycle just completed (R151, R179). -/
def State.harmWords (s : State) (cycle : Nat) : List (Nat × W32) :=
  let c := s.mt.harmSel.1
  let h := s.mt.harmSel.2
  let l := vals (s.seg c 0 256)
  if l.length < 256 then [] else
    let b := bins (s.integ c) l
    let x := b.getD h (0, 0)
    let x1 := if h = 1 then dft (vals (s.seg (s.feederL1 c) 0 256)) 1 else b.getD 1 (0, 0)
    let scale := if s.isVoltage c then 10 ^ 6 else 10 ^ 8
    let mag := rootRound ((if h = 0 then 1 else 2) * (reP x x).toNat * scale) den
    let turn := 2 * piI
    let ph := (argI x.2 x.1 - (h : Int) * argI x1.2 x1.1) % turn
    let ph := if piI < ph then ph - turn else ph
    [(A.MTR_HARM_MAG, wordN (satU 0xFFFFFFFF mag)), (A.MTR_HARM_PH, wordI (divEven (ph * 1000000) (2 ^ 40))),
      (A.MTR_HARM_SEL, putBits 0 16 16 cycle)]

/-- The sliding fundamental at the end of a batch (R155): I1_FAST of every phase. -/
def State.fastWords (s : State) (off : Nat) : State :=
  (List.range 12).foldl (fun s k =>
    if s.enabled (0x20 + k) && !s.isDc k then
      (s.phases k).foldl (fun s p =>
        let l := vals (s.seg (4 * k + p) off 256)
        if l.length < 256 then s else
          let x := dft l 1
          s.setReg (A.MTRK_PH_I1_FAST k p) (wordN (satU 0xFFFFFFFF (rootRound ((2 * reP x x).toNat * 10 ^ 8) den)))) s
    else s) s

end Sys2Proof.Machine
end

