-- ==== Sys2Proof/Machine/Energy.lean ====
section
/-! DEFINITION. The result gate, the accumulators of the legal totals, snapshots and the couch, and the pulse stages
(06_energy_registers_pulses.md). -/
namespace Sys2Proof.Machine

-- Accumulators (R184 to R188)

/-- Addition modulo 2^64 at position i of a quadrant list. -/
def addQ (l : List Nat) (i v : Nat) : List Nat := l.mapIdx fun j x => if j = i then (x + v) % 2 ^ 64 else x

/-- The quadrant index 0 to 3 of the signs of the active and reactive sums (R185). -/
def quadrant (dp dq : Int) : Nat := if 0 ≤ dp then (if 0 ≤ dq then 0 else 3) else (if 0 ≤ dq then 1 else 2)

/-- The update of R185. -/
def Accs.add (a : Accs) (dp dq ds : Int) : Accs :=
  let q := quadrant dp dq
  let r := min a.hold ds.toNat
  let d := min a.debt dp.toNat
  { wh := addQ a.wh q dp.natAbs
    varh := addQ a.varh q dq.natAbs
    vah := if 0 ≤ ds then addQ a.vah q (ds.toNat - r) else a.vah
    hold := if 0 ≤ ds then a.hold - r else (a.hold + ds.natAbs) % 2 ^ 64
    debt := if 0 ≤ dp then a.debt - d else (a.debt + dp.natAbs) % 2 ^ 64
    net := if 0 ≤ dp then (a.net + (dp.toNat - d)) % 2 ^ 64 else a.net }

/-- Derived registers (R187). -/
def Accs.imp (a : Accs) : Nat := (a.wh.getD 0 0 + a.wh.getD 3 0) % 2 ^ 64
def Accs.exp (a : Accs) : Nat := (a.wh.getD 1 0 + a.wh.getD 2 0) % 2 ^ 64
def Accs.varPos (a : Accs) : Nat := (a.varh.getD 0 0 + a.varh.getD 1 0) % 2 ^ 64
def Accs.varNeg (a : Accs) : Nat := (a.varh.getD 2 0 + a.varh.getD 3 0) % 2 ^ 64
def Accs.va (a : Accs) : Nat := a.vah.foldl (· + ·) 0 % 2 ^ 64

/-- The fifteen accumulators and the two derived registers in the order of R219. -/
def Accs.regs (a : Accs) : List Nat := a.wh ++ a.varh ++ a.vah ++ [a.net, a.debt, a.hold, a.imp, a.exp]

/-- The legal register of R192 in Wh. -/
def legalWh (x : Nat) : Nat := x / 1000000 % 1000000000

def sumInc (f : Incr → Int) (l : List Incr) : Int := (l.map f).foldl (· + ·) 0

/-- DEBT first reaches 1 Wh in signed mode: the alarm and its event on ring 3 + k; it clears at zero (R188, R621). -/
def State.debtAlarm (s : State) (k debt : Nat) : State :=
  if debt = 0 then s.put (F.MTRK_ESTAT_DEBT_ALARM k) 0
  else if 1000000 ≤ debt && !s.on (F.MTRK_ECFG_ABS k) && !s.on (F.MTRK_ESTAT_DEBT_ALARM k) then
    let s := s.put (F.MTRK_ESTAT_DEBT_ALARM k) 1
    s.emit (3 + k) 0x01 none 0 (le 1 (0x20 + k) ++ le 1 0xFF ++ le 2 (s.get (hdrErrcode (0x20 + k))) ++ le 2 0 ++ le 2 k
      ++ le 8 s.ts ++ le 4 (s.get F.DEC_CYCLE_CNT) ++ le 4 (min 0xFFFFFFFF (debt / 1000)) ++ le 8 0)
  else s

/-- An accepted batch of outlet k (R185, R186, R230): the accumulators take its sums unless jig mode or lost totals keep them, and
the amounts wait for the pulse stages. -/
def State.accumulate (s : State) (k : Nat) (incs : List Incr) : State :=
  let m := s.meter k
  let dp := sumInc Incr.dp incs
  let dq := sumInc Incr.dq incs
  let ds := sumInc Incr.ds incs
  let a := m.acc.add dp dq ds
  let vaAdded : Int := if 0 ≤ ds then ds - min m.acc.hold ds.toNat else 0
  let keep := s.cal.noLegal || !s.on F.MTR_LEGAL_STAT_LEGAL_OK
  let s := s.setMeter k { m with acc := if keep then m.acc else a, pubNext := add3 m.pubNext (dp, dq, vaAdded) }
  if keep then s else s.debtAlarm k a.debt

/-- RESULT_HANDOVER (R174, R175): the gate takes only the slot's next expected key under its present epoch; anything else is
discarded and counted. -/
def execResultHandover (slot : Fin 16) (epoch cycle batch : Nat) (s : State) : Out := s.onFabric fun s =>
  let x := s.slot slot.val
  match x.buf with
  | r :: rest =>
    if epoch = s.get (laneEpochF slot.val) ∧ r.cycle = cycle ∧ r.batch = batch then
      let s := s.setSlot slot.val { x with buf := rest, handed := x.handed ++ [r] }
      if slot.val < 12 then done (s.accumulate slot.val r.incs) else done s
    else done (s.incSat F.MTR_GATE_REFUSED)
  | [] => done (s.incSat F.MTR_GATE_REFUSED)

-- Publication (R143, R160, R621)

/-- The interrupt of one tag: an occurrence where the previous published cycle did not carry it (R621). -/
def State.tagEvent (s : State) (k b : Nat) (now before : Bool) : State :=
  if now && !before then s.outletEvent (0x20 + k) b k else s

/-- The aggregation window takes a published cycle (R154): squares of U and I, then P and Q by phase, and P_SUM. -/
def State.aggregate (s : State) (k : Nat) (valid : Bool) : State :=
  let m := s.meter k
  let rd (a : Nat) : Int := (s.reg a).toInt
  let sq (x : W32) : Int := (x.toNat * x.toNat : Nat)
  let cur := ([0, 1, 2].map fun p => sq (s.reg (A.MTRK_PH_U_RMS k p))) ++ ([0, 1, 2].map fun p => sq (s.reg (A.MTRK_PH_I_RMS k p)))
    ++ ([0, 1, 2].map fun p => rd (A.MTRK_PH_P k p))
    ++ ([0, 1, 2].map fun p => if s.on (F.MTRK_CFG_Q_MODE k) then rd (A.MTRK_PH_QT k p) else rd (A.MTRK_PH_Q1 k p))
    ++ [rd (A.MTRK_P_SUM k)]
  if m.aggN = 0 ∧ m.aggSums = [] ∧ valid = false then s
  else
    let sums := (List.range 13).map fun i => m.aggSums.getD i 0 + cur.getD i 0
    let n := m.aggN + 1
    let bad := m.aggBad || !valid
    if n < s.get F.MTR_CFG_AGG_CYCLES then s.setMeter k { m with aggSums := sums, aggN := n, aggBad := bad }
    else
      let s := s.setMeter k { m with aggSums := List.replicate 13 0, aggN := 0, aggBad := false }
      let s := [0, 1, 2].foldl (fun s p =>
        (((s.setReg (A.MTRK_AGG_U k p) (wordN (rootRound (sums.getD p 0).toNat n))).setReg (A.MTRK_AGG_I k p)
          (wordN (rootRound (sums.getD (3 + p) 0).toNat n))).setReg (A.MTRK_AGG_P k p) (wordI (divEven (sums.getD (6 + p) 0) n))).setReg
          (A.MTRK_AGG_Q k p) (wordI (divEven (sums.getD (9 + p) 0) n))) s
      let s := s.setReg (A.MTRK_AGG_P_SUM k) (wordI (divEven (sums.getD 12 0) n))
      let s := ((s.inc (F.MTRK_AGG_STAT_COUNT k)).put (F.MTRK_AGG_STAT_VALID k) (!bad).toNat).put (F.MTRK_AGG_STAT_CYCLES k) n
      s.irq (0x20 + k) 6

/-- The METER_GAP entry of kind 1 at the first INVALID cycle of a run, which 50 clean cycles end (R594). -/
def State.meterGap (s : State) (k : Nat) (invalid : Bool) : State :=
  let m := s.meter k
  if invalid then
    let s := s.setMeter k { m with gapClean := 0 }
    if 50 ≤ m.gapClean then s.log 0x0003 k (le 4 1 ++ le 4 (s.get F.DEC_CYCLE_CNT)) else s
  else s.setMeter k { m with gapClean := min 50 (m.gapClean + 1) }

/-- A cycle of outlet k is published (R151, R153, R154, R163, R621). -/
def State.publishCycle (s : State) (k : Nat) (r : BatchRes) : State :=
  let valid := r.words.any fun w => w.1 == A.MTRK_QSTAT k
  let s := r.words.foldl (fun s w => s.setReg w.1 w.2) s
  if !valid then
    let s := (s.put (F.MTRK_QSTAT_VALID k) 0).put (F.MTRK_QSTAT_SETTLING k) (r.tags.testBit 1).toNat
    s.aggregate k false
  else
    let m := s.meter k
    let s := s.setMeter k { m with lastTags := r.tags, lastPlaus := r.plaus }
    let s := s.irq (0x20 + k) 0
    let s := s.tagEvent k 1 (r.tags.testBit 4) (m.lastTags.testBit 4)
    let s := s.tagEvent k 2 (r.tags.testBit 3) (m.lastTags.testBit 3)
    let s := s.tagEvent k 3 (r.tags.testBit 5) (m.lastTags.testBit 5)
    let s := s.tagEvent k 4 (r.tags.testBit 2) (m.lastTags.testBit 2)
    let s := s.tagEvent k 5 r.plaus m.lastPlaus
    ((s.aggregate k true).meterGap k (r.tags.testBit 3)).sessionTags k r.tags

/-- One slot's handed results are published (R143). -/
def State.publishSlot (s : State) (j : Nat) : State :=
  let x := s.slot j
  let s := s.setSlot j { x with handed := [] }
  x.handed.foldl (fun s r =>
    if j < 12 then
      let s := s.setMeter j { s.meter j with pub := add3 (s.meter j).pub (s.meter j).pubNext, pubNext := (0, 0, 0) }
      if r.batch = 15 && s.enabled (0x20 + j) then s.publishCycle j r else s
    else r.words.foldl (fun s w => s.setReg w.1 w.2) s) s

-- Pulse stages (R210 to R216)

def State.stage (s : State) (n : Nat) : Stage := spRead (fun _ => ({} : Stage)) s.mt.stages n
def State.setStage (s : State) (n : Nat) (x : Stage) : State :=
  { s with mt := { s.mt with stages := spWrite (fun _ => ({} : Stage)) s.mt.stages n x } }

/-- The quantity SRC takes from an outlet's published increments (R210). -/
def stageQty (src : Nat) (p : Int × Int × Int) : Nat :=
  match src with
  | 1 => p.1.toNat
  | 2 => (-p.1).toNat
  | 3 => p.1.natAbs
  | 4 => p.2.1.toNat
  | 5 => (-p.2.1).toNat
  | 6 => p.2.2.toNat
  | _ => 0

/-- The outlets that feed stage n (R210). -/
def State.stageOutlets (s : State) (n : Nat) : List Nat :=
  if n < 12 then [n] else (List.range 12).filter fun k => (s.get (F.PLS_STG_CFG_OUTLET_MASK n)).testBit k

/-- The published batch reaches the stages: each spreads it over the next 16 sample instants (R211). -/
def State.feedStages (s : State) : State :=
  let s := (List.range 16).foldl (fun s n =>
    if s.enabled 0x15 && s.on (F.PLS_STG_CFG_EN n) then
      let q := ((s.stageOutlets n).map fun k => stageQty (s.get (F.PLS_STG_CFG_SRC n)) (s.meter k).pub).foldl (· + ·) 0
      s.setStage n { s.stage n with x := q, share := 16 }
    else s) s
  (List.range 12).foldl (fun s k => s.setMeter k { s.meter k with pub := (0, 0, 0) }) s

/-- One share of a stage at a sample instant: floor((x·C + r) / 16) is added to E and the remainder carried; 10^9 is one pulse
(R211, R212). -/
def State.stageShare (s : State) (step n : Nat) : State :=
  let x := s.stage n
  if s.enabled 0x15 && s.on (F.PLS_STG_CFG_EN n) then
    let x := { x with since := x.since + step }
    if x.share = 0 then s.setStage n x
    else
      let t := x.x * s.get (F.PLS_STG_CONST_C n) + x.r
      let e := x.e + (t / 16 : Nat)
      let pulses := (e / 1000000000).toNat
      let s := s.setStage n { x with e := e % 1000000000, r := t % 16, share := x.share - 1 }
      let pend := s.get (F.PLS_STG_STAT_PENDING n) + pulses
      if pend ≤ 256 then s.put (F.PLS_STG_STAT_PENDING n) pend
      else
        let s := s.put (F.PLS_STG_STAT_PENDING n) 256
        let s := s.put (F.PLS_STG_STAT_DROPPED n) (min 0xFFFF (s.get (F.PLS_STG_STAT_DROPPED n) + (pend - 256)))
        s.event 0x15 0 n
  else s

/-- The pin's level: POL selects the active level, a disabled stage drives low (R213). -/
def State.stagePin (s : State) (n : Nat) (active : Bool) : State :=
  let lvl := s.enabled 0x15 && s.on (F.PLS_STG_CFG_EN n) && (active != s.on (F.PLS_STG_CFG_POL n))
  s.setStage n { s.stage n with pin := lvl }

/-- 500 µs and 1 ms in 2^-30 input samples of 62.5 µs. -/
def us500 : Nat := 8 * 2 ^ 30
def ms1 : Nat := 16 * 2 ^ 30

/-- PULSE_START (R212, R213): an idle stage starts a pending pulse at least 500 µs after the last start; with starts closer than
twice WIDTH it lasts half the interval. -/
def execPulseStart (n : Fin 16) (s : State) : Out := s.onFabric fun s =>
  let x := s.stage n
  if s.enabled 0x15 && s.on (F.PLS_STG_CFG_EN n) && !s.on (F.PLS_STG_STAT_ACTIVE n) && s.get (F.PLS_STG_STAT_PENDING n) != 0
      && (decide (us500 ≤ x.since) || s.get (F.PLS_STG_COUNT n) == 0) then
    let w := s.get (F.PLS_STG_CFG_WIDTH n) * ms1
    let s := (s.put (F.PLS_STG_STAT_PENDING n) (s.get (F.PLS_STG_STAT_PENDING n) - 1)).put (F.PLS_STG_STAT_ACTIVE n) 1
    let s := s.setStage n { x with since := 0, width := if x.since < 2 * w ∧ s.get (F.PLS_STG_COUNT n) ≠ 0 then x.since / 2 else w }
    done ((s.inc (F.PLS_STG_COUNT n)).stagePin n true)
  else done s

/-- PULSE_END (R213). -/
def execPulseEnd (n : Fin 16) (s : State) : Out := s.onFabric fun s =>
  if s.on (F.PLS_STG_STAT_ACTIVE n) then done ((s.put (F.PLS_STG_STAT_ACTIVE n) 0).stagePin n false) else done s

/-- Setting EN clears the stage; it counts from the next published batch (R216). -/
def State.stageStart (s : State) (n : Nat) : State :=
  let s := (s.put (F.PLS_STG_CFG_EN n) 1).setStage n {}
  ((s.setReg (A.PLS_STG_COUNT n) 0).setReg (A.PLS_STG_STAT n) 0).stagePin n false

/-- PLS_STAGE_ENABLE (R216). -/
def execPlsStageEnable (n : Fin 16) (s : State) : Out := s.onFabric fun s =>
  if s.on (F.PLS_STG_CFG_EN n) then done (s.bumpSeq 0x15) else done ((s.stageStart n).bumpSeq 0x15)

/-- A soft reset of PLS beside its registers (R217). -/
def State.resetPls (s : State) : State := { s with mt := { s.mt with stages := [] } }

-- The couch (R193 to R198)

/-- The record a couch writes (R196). -/
def State.legalRecord (s : State) (flags : Nat) : LegalRec :=
  let last := if s.mt.lastB then s.mt.copyB else s.mt.copyA
  let seq := match last with
    | some r => (r.seq + 1) % 2 ^ 32
    | none => 1
  { seq := seq
    epoch := s.epoch
    cycle := s.get F.DEC_CYCLE_CNT
    flags := flags
    pfWait := if flags % 4 = 0 then 0 else s.pf.wait
    pfUnconf := if flags % 4 = 0 then 0 else Nat.xor s.pf.closed (Nat.land s.pf.closed s.pf.confirmed) + (if s.pf.timeout then 0x8000 else 0)
    pfCurrent := if flags % 4 = 0 then 0 else maskOf ((List.range 12).map fun k => s.get (F.MTRK_ESTAT_RUNNING k) != 0)
    outlets := (List.range 12).map fun k => ((s.meter k).acc, s.on (F.MTRK_ECFG_ABS k), s.get (F.MTRK_IB_IB k)) }

/-- May a couch fall due (R197)? -/
def State.couchable (s : State) : Bool := s.enabled 0x12 && s.enabled 0x11 && s.on F.MTR_LEGAL_STAT_LEGAL_OK

/-- The totals an outlet's legal record holds. -/
def LegalRec.acc (r : LegalRec) (k : Nat) : Accs := (r.outlets.getD k ({}, false, 0)).1

/-- The snapshots of one outlet from the totals a couch committed (R193, R219). -/
def State.snapshot (s : State) (r : LegalRec) (k : Nat) : State :=
  let a := r.acc k
  let w (x : Nat) : W32 := wordN (x / 1000)
  [(A.MTRK_SNAP_SEQ k, wordN r.seq), (A.MTRK_SNAP_WH_IMP k, w a.imp), (A.MTRK_SNAP_WH_EXP k, w a.exp), (A.MTRK_SNAP_VARH_POS k, w a.varPos),
   (A.MTRK_SNAP_VARH_NEG k, w a.varNeg), (A.MTRK_SNAP_VAH k, w a.va), (A.MTRK_SNAP_NET k, w a.net), (A.MTRK_SNAP_CYCLE k, wordN r.cycle)].foldl
    (fun s p => s.setReg p.1 p.2) s

/-- The copy not written last takes the record (R197). -/
def State.storeLegal (s : State) (r : LegalRec) : State :=
  if s.mt.lastB then { s with mt := { s.mt with copyA := some r, lastB := false } }
  else { s with mt := { s.mt with copyB := some r, lastB := true } }

/-- A couch completes: the copy, the registers of R218 and the snapshots (R193, R197). -/
def State.couchWrite (s : State) (r : LegalRec) (time : Nat) : State :=
  let s := (({ s with mt := { s.mt with couching := none } }).storeLegal r).setReg A.MTR_COUCH_SEQ (wordN r.seq)
  let s := s.setReg A.MTR_COUCH_CYC (wordN r.cycle)
  let s := s.put F.MTR_COUCH_MAX_TIME (max (s.get F.MTR_COUCH_MAX_TIME) time)
  (List.range 12).foldl (fun s k => s.snapshot r k) s

-- Freezing (R161, R194)

/-- The listed registers of outlet k from `lo` to `hi`, as the requester will see them. -/
def State.freeze (s : State) (req : Req) (snap : Bool) (k lo hi : Nat) : State :=
  let base := 0x20000 + 4096 * k
  let ws := s.regs.filter fun p => decide (base + lo ≤ p.1) && decide (p.1 ≤ base + hi)
  let rest := s.mt.frozen.filter fun f => !(f.req == req && f.snap == snap && f.outlet == k)
  { s with mt := { s.mt with frozen := rest ++ [⟨req, snap, k, ws⟩] } }

/-- QSTAT_READ (R161). -/
def execQstatRead (req : Req) (k : Fin 12) (s : State) : Out := s.onFabric fun s => done (s.freeze req false k 0x110 0x2FC)

/-- SNAP_SEQ_READ (R194). -/
def execSnapSeqRead (req : Req) (k : Fin 12) (s : State) : Out := s.onFabric fun s => done (s.freeze req true k 0x404 0x41C)

-- Running and idle (R190)

/-- One phase's decision from the current of the cycle just completed, in 0.1 mA. -/
def runStep (running : Bool) (below i ib : Nat) : Bool × Nat :=
  if running then
    let b := if i * 250 < ib then below + 1 else 0
    if b = 2 then (false, 0) else (true, b)
  else (decide (ib ≤ i * 200), below)

/-- The decision of every enabled phase of outlet k at a boundary. -/
def State.runBoundary (s : State) (k : Nat) : State :=
  if !s.enabled (0x20 + k) || !(s.slot k).valid then s
  else
    let m := s.meter k
    let ib := s.get (F.MTRK_IB_IB k)
    let ps := if s.isDc k then [0] else s.phases k
    let r := [0, 1, 2].map fun p =>
      if ps.contains p then runStep (s.running k p) (m.below.getD p 0) (m.curr.getD p 0) ib else (false, 0)
    let now := maskOf (r.map Prod.fst)
    let from' := if now = 0 ∧ s.get (F.MTRK_ESTAT_RUNNING k) ≠ 0 then s.ts else m.idleFrom
    (s.put (F.MTRK_ESTAT_RUNNING k) now).setMeter k { m with below := r.map Prod.snd, idleFrom := from' }

/-- An outlet's metering starts (R182, R190): every phase idle, no valid cycle yet. -/
def State.meterStart (s : State) (k : Nat) : State :=
  let m := s.meter k
  let s := ((s.put (hdrEnable (0x20 + k)) 1).put (F.MTRK_ESTAT_RUNNING k) 0).put (F.MTRK_QSTAT_VALID k) 0
  let s := s.setSlot k { s.slot k with prevQS := [], cyc := [], valid := false }
  s.setMeter k { m with below := [0, 0, 0], curr := [0, 0, 0], aggSums := [], aggN := 0, aggBad := false, lastTags := 0, lastPlaus := false, waitCycle := true, idleFrom := s.ts }

/-- Metering stops. -/
def State.meterStop (s : State) (k : Nat) : State :=
  ((s.put (hdrEnable (0x20 + k)) 0).put (F.MTRK_ESTAT_RUNNING k) 0).put (F.MTRK_QSTAT_VALID k) 0

/-- MTR.CTRL.ENABLE set: every slot's epoch counts (R177). -/
def State.mtrStart (s : State) : State :=
  (List.range 16).foldl (fun s j =>
    let s := s.inc (laneEpochF j)
    s.setSlot j { s.slot j with buf := [], handed := [], ctxEpoch := s.get (laneEpochF j) }) s

/-- A soft reset of MTR beside its registers (R180): contexts and unaccepted handovers go, epochs count, and the log records it. -/
def State.resetMtr (s : State) : State :=
  let s := (List.range 16).foldl (fun s j =>
    let s := s.inc (laneEpochF j)
    s.setSlot j { stopped := (s.slot j).stopped }) s
  let s := { s with mt := { s.mt with audits := [], paused := none } }
  s.log 0x0003 noOutlet (le 4 2 ++ le 4 (s.get F.DEC_CYCLE_CNT))

end Sys2Proof.Machine
end

