-- ==== Sys2Proof/Machine/Bay.lean ====
section
/-! DEFINITION. BAY: what the outlet controllers share: output pins and holds, events, state changes, authorisation and stops
(09_outlet_control.md). -/
namespace Sys2Proof.Machine

def State.outlet (s : State) (k : Nat) : Outlet := spRead (fun _ => ({} : Outlet)) s.outlets k
def State.setOutlet (s : State) (k : Nat) (x : Outlet) : State :=
  { s with outlets := spWrite (fun _ => ({} : Outlet)) s.outlets k x }
def State.rc (s : State) (k : Nat) : Rcm := spRead (fun _ => ({} : Rcm)) s.rcm k
def State.setRc (s : State) (k : Nat) (x : Rcm) : State := { s with rcm := spWrite (fun _ => ({} : Rcm)) s.rcm k x }

-- State codes (R289)

def stDisabled : Nat := 0x0F
def stIdle : Nat := 0x33
def stConnected : Nat := 0x55
def stOffering : Nat := 0x66
def stClosing : Nat := 0x3C
def stCharging : Nat := 0x5A
def stWithdrawing : Nat := 0x99
def stOpening : Nat := 0x69
def stFaultF : Nat := 0x96
def stTripped : Nat := 0xA5
def stWelded : Nat := 0xC3
def stService : Nat := 0xCC
def bayCodes : List Nat := [stDisabled, stIdle, stConnected, stOffering, stClosing, stCharging, stWithdrawing, stOpening, stFaultF,
  stTripped, stWelded, stService]

def State.bay (s : State) (k : Nat) : Nat := s.get (F.BAYK_STATE_CODE k)

-- Causes (R309)

def cNone : Nat := 0x00
def cVehicle : Nat := 0x01
def cHost : Nat := 0x02
def cSes : Nat := 0x03
def cLmg : Nat := 0x04
def cOver : Nat := 0x05
def cGross : Nat := 0x06
def cFlicker : Nat := 0x07
def cDiode : Nat := 0x08
def cShort : Nat := 0x09
def cDriver : Nat := 0x0A
def cUnplug : Nat := 0x0B
def cVent : Nat := 0x0C
def cProx : Nat := 0x0D
def cLock : Nat := 0x0E
def cMirror : Nat := 0x0F
def cWeld : Nat := 0x10
def cTrip : Nat := 0x11
def cPower : Nat := 0x12
def cBench : Nat := 0x13
def cInvalid : Nat := 0x14
def cMeter : Nat := 0x15
def cIgnored : Nat := 0x16
def cSkip : Nat := 0x17
def cBlocked : Nat := 0x18
def retriable (c : Nat) : Bool := [cOver, cFlicker, cDiode, cShort, cProx, cLock, cMeter].contains c
def noSeq : Nat := 0xFFFFFFFF

-- Outputs (R4, R293)

/-- The trip latch of an outlet, a real one or a test's (R325, R329). -/
def State.latched (s : State) (k : Nat) : Bool := s.on (bitFld A.RCM_LATCH k)
def State.held' (s : State) (k : Nat) : Bool :=
  s.latched k || (s.rc k).testLatch || (s.outlet k).alarmHold || s.pf.warned || s.boot.bench || s.pf.halted

/-- The levels of CON_M_k and CON_A_k. -/
def State.pinM (s : State) (k : Nat) : Bool := (s.outlet k).conM && !s.held' k
def State.pinA (s : State) (k : Nat) : Bool := (s.outlet k).conA && !s.held' k
def State.outHigh (s : State) (k : Nat) : Bool := s.pinM k || s.pinA k

/-- Does BAY command an output high, whatever the holds do? -/
def State.driven (s : State) (k : Nat) : Bool := (s.outlet k).conM || (s.outlet k).conA

/-- HW_HOLD follows the holds; HOLD is raised where one begins (R310). -/
def State.showHolds (s : State) : State :=
  let old := s.get F.BAY_HW_HOLD_OUT + 4096 * s.get F.BAY_HW_HOLD_PF + 8192 * s.get F.BAY_HW_HOLD_BENCH
  let out := maskOf ((List.range 12).map fun k => s.latched k || (s.rc k).testLatch || (s.outlet k).alarmHold)
  let s := ((s.put F.BAY_HW_HOLD_OUT out).put F.BAY_HW_HOLD_PF s.pf.warned.toNat).put F.BAY_HW_HOLD_BENCH s.boot.bench.toNat
  (List.range 14).foldl (fun s i =>
    if (out + 4096 * s.pf.warned.toNat + 8192 * s.boot.bench.toNat).testBit i && !old.testBit i
    then s.event 0x16 1 (if i < 12 then i else noUnit) else s) s

-- Events (R308)

/-- The SEQ that the last frame queued on ring entry `e` took, given the ring's count before; none where it was lost. -/
def State.seqSince (s : State) (e before : Nat) : Nat := if (s.ring e).next = before then noSeq else before

/-- An outlet event on ring 3 + k with its PERIOD; it also answers its SEQ. -/
def State.bayEventAt (s : State) (k typ old new cause detail period value seq : Nat) : State × Nat :=
  let before := (s.markLost (3 + k)).ring (3 + k) |>.next
  let s := s.emit (3 + k) typ none 0 (le 1 old ++ le 1 new ++ le 1 cause ++ le 1 detail ++ le 4 (s.get (F.BAYK_OEPOCH k)) ++ le 8 s.ts
    ++ le 4 period ++ le 4 value ++ le 4 seq ++ le 4 0)
  let q := s.seqSince (3 + k) before
  let p := 0x30 + k
  (match typ with
    | 0x40 => s.irq p 0
    | 0x42 => s.irq p 1
    | 0x43 => s.irq p 2
    | 0x44 => s.irq p 3
    | 0x46 => s.irq p 4
    | 0x47 => s.irq p 5
    | 0x45 => s.irq p 6
    | _ => s, q)

/-- The same in the present period. -/
def State.bayEvent (s : State) (k typ old new cause detail value seq : Nat) : State × Nat :=
  s.bayEventAt k typ old new cause detail (s.get (F.BAYK_PERIOD_COUNT k)) value seq

/-- An event about the outlet as it stands. -/
def State.note (s : State) (k typ cause detail value seq : Nat) : State :=
  (s.bayEvent k typ (s.bay k) (s.bay k) cause detail value seq).1

-- The allowance (R277 to R279)

/-- The capacity of a CAP row in mA (R284); no cable, invalid and short give none. -/
def capMa (c : Nat) : Nat := if c = 1 then 13000 else if c = 2 then 20000 else if c = 3 then 32000 else if c = 4 then 63000 else 0

/-- The smaller of two terms with their BIND codes; the earlier one on a tie. -/
def minTerm (a b : Nat × Nat) : Nat × Nat := if b.1 < a.1 then b else a

/-- The allowance in mA and the term that binds (R277). -/
def State.allowance (s : State) (k : Nat) : Nat × Nat :=
  let t : Nat × Nat := (s.get (F.BAYK_RATED_MA k), 0)
  let t := if s.on (F.BAYK_CFG_PP_MODE k) then minTerm t (capMa (s.get (F.BAYK_PP_CAP k)), 1) else t
  let t := minTerm t (s.get (F.BAYK_HOST_LIMIT_MA k), 2)
  let t := if s.on (F.BAYK_CFG_LMG_IL k) then minTerm t (s.get (F.BAYK_LMG_LIMIT_MA k), 3) else t
  if s.get (F.BAYK_VIOL_LEVEL k) = 0 then t else minTerm t (6000, 4)

/-- The duty of R278 in 0.01 %. -/
def dutyOf (i : Nat) : Nat :=
  if i < 6000 then 0 else if i ≤ 51000 then i / 6 else if i < 52500 then 8500 else if i ≤ 80000 then i / 25 + 6400 else 9600

/-- The current a duty announces (R278). -/
def dutyMa (d : Nat) : Nat := if d ≤ 8500 then d * 6 else (d - 6400) * 25

-- Pilot settings (R276)

def pilotHigh : Nat × Nat := (1, 10000)
def pilotLow : Nat × Nat := (3, 0)
def pilotOff : Nat × Nat := (0, 0)
def State.pilotPwm (s : State) (k : Nat) : Nat × Nat :=
  (2, if s.on (F.BAYK_CFG_DIGITAL k) then 500 else dutyOf (s.allowance k).1)

/-- A setting that takes effect at the next rising edge. -/
def State.setPilot (s : State) (k : Nat) (p : Nat × Nat) : State := s.setOutlet k { s.outlet k with nextPilot := some p }

-- State changes (R289)

/-- The last passed self-test is within ST_AGE (R328). -/
def State.testFresh (s : State) (k : Nat) : Bool :=
  let t := s.reg64 (A.RCM_ST_TS_LO k)
  decide (t ≠ 0) && decide (s.ts ≤ t + s.get F.RCM_CFG_ST_AGE * 60 * 32768)

/-- The outlet enters a state: STATE and its copy in the global page change, and a STATE event is queued; its SEQ is answered.
On entry to CONNECTED with no fresh self-test, one is asked for (R328). -/
def State.enter' (s : State) (k new cause target seq : Nat) : State × Nat :=
  let old := s.bay k
  let s := (((s.put (F.BAYK_STATE_CODE k) new).put ⟨A.BAY_STATE (k / 4), 8 * (k % 4), 8⟩ new).put (F.BAYK_STATE_TARGET k) target).put
    (F.BAYK_STATE_CAUSE k) cause
  let s := s.bumpSeq (0x30 + k)
  let s := if new = stFaultF ∨ new = stTripped ∨ new = stWelded ∨ new = stService then s.put (F.BAYK_STATE_AUTHORISED k) 0 else s
  let s := if new = stCharging ∨ new = stWithdrawing then s else s.put (F.BAYK_VIOL_LEVEL k) 0
  let s := if new = stConnected && !s.testFresh k then s.setRc k { s.rc k with auto := true } else s
  s.bayEvent k 0x40 old new cause target (s.allowance k).1 seq

def State.enter (s : State) (k new cause seq : Nat) : State := (s.enter' k new cause 0 seq).1

/-- Both outputs are commanded low (the hard stop of R287). -/
def State.outputsLow (s : State) (k : Nat) : State :=
  let x := s.outlet k
  s.setOutlet k { x with conM := false, conA := false, lowTs := if s.outHigh k then s.ts else x.lowTs,
                         mirUs := if x.mirOpen then 0 else x.mirUs }

/-- What OPENING leads to (R289), fixed on entry. -/
def State.openTarget (s : State) (k : Nat) (classA fault : Bool) : Nat :=
  if fault then stFaultF else if classA then stIdle
  else if s.on (F.BAYK_STATE_AUTHORISED k) && decide (6000 ≤ (s.allowance k).1) then stOffering else stConnected

/-- A hard stop into OPENING. The SEQ of the cause is that of the STOP command or RCM event given, else the STATE event's (R296). -/
def State.openNow (s : State) (k cause target seq : Nat) : State :=
  let (s, q) := (s.outputsLow k).enter' k stOpening cause target seq
  s.setOutlet k { s.outlet k with seq := if seq = noSeq then q else seq, awaitOpen := true, openCause := cause }

/-- A soft stop into WITHDRAWING (R287). -/
def State.withdraw (s : State) (k cause seq : Nat) (stateF byAllow : Bool) : State :=
  let s := s.setOutlet k { s.outlet k with stateF := stateF, byAllow := byAllow, low := false,
                                           entryCycle := s.get F.DEC_CYCLE_CNT % 65536 }
  let (s, q) := (s.setPilot k (if stateF then pilotLow else pilotHigh)).enter' k stWithdrawing cause 0 seq
  s.setOutlet k { s.outlet k with seq := if seq = noSeq then q else seq }

/-- Automatic unlocking is asked for (R301). -/
def State.askUnlock (s : State) (k : Nat) : State :=
  if s.on (F.BAYK_CFG_LOCK_EN k) && s.on (F.BAYK_CFG_AUTO_UNLOCK k) then s.setOutlet k { s.outlet k with unlockDue := true } else s

/-- Authorisation by SES, or by the host under AUTH_SRC (R289). -/
def State.authorise (s : State) (k : Nat) : State := s.put (F.BAYK_STATE_AUTHORISED k) 1

/-- STOP from the host or SES (R289, R306). -/
def State.stopOutlet (s : State) (k cause seq : Nat) : State :=
  let s := s.put (F.BAYK_STATE_AUTHORISED k) 0
  let st := s.bay k
  if st = stOffering then ((s.setPilot k pilotHigh).askUnlock k).enter k stConnected cause seq
  else if st = stClosing then s.openNow k cause (s.openTarget k false false) seq
  else if st = stCharging then s.withdraw k cause seq false false
  else if st = stWithdrawing then s.setOutlet k { s.outlet k with byAllow := false }
  else s

/-- A violation event (R303). -/
def State.violate (s : State) (k cause value : Nat) : State :=
  (s.incSat (F.BAYK_VIOL_TOTAL k)).note k 0x42 cause (s.get (F.BAYK_VIOL_LEVEL k)) value noSeq

/-- A fault is taken: retriable ones count, and the latch follows (R305). -/
def State.takeFault (s : State) (k cause : Nat) : State :=
  let s := (s.put (F.BAYK_STATE_AUTHORISED k) 0).setOutlet k { s.outlet k with fault := cause }
  if retriable cause then
    let s := s.incSat (F.BAYK_VIOL_RETRIES k)
    if s.get F.BAY_OC_CFG_RETRY_MAX ≤ s.get (F.BAYK_VIOL_RETRIES k) then s.put (F.BAYK_STATE_LATCHED k) 1 else s
  else s.put (F.BAYK_STATE_LATCHED k) 1

/-- A fault's hard stop (R289): OPENING with target FAULT_F while an output was high, else FAULT_F. -/
def State.hardFault (s : State) (k cause : Nat) : State :=
  let s := (s.takeFault k cause).setPilot k pilotLow
  if s.driven k then s.openNow k cause stFaultF noSeq else s.enter k stFaultF cause noSeq

/-- A hard violation, with its event. -/
def State.hardViolation (s : State) (k cause value : Nat) : State := (s.violate k cause value).hardFault k cause

/-- A soft violation: the soft stop with state F. -/
def State.softViolation (s : State) (k cause value : Nat) : State :=
  ((s.violate k cause value).takeFault k cause).withdraw k cause noSeq true false

/-- CTRL.ENABLE set (R289, R291): the outlet starts afresh in IDLE. -/
def State.bayStart (s : State) (k : Nat) : State :=
  let s := (s.put (hdrEnable (0x30 + k)) 1).inc (F.BAYK_OEPOCH k)
  let m := (s.outlet k).mirOpen
  let s := (s.put (F.BAYK_PERIOD_COUNT k) 0).setOutlet k { mirOpen := m }
  let s := ((s.setReg (A.BAYK_PILOT k) 0).setReg (A.BAYK_VIOL k) 0).put (F.BAYK_STATE_LATCHED k) 0
  (s.setPilot k pilotHigh).enter k stIdle cHost noSeq

/-- CTRL.ENABLE cleared. -/
def State.bayStop (s : State) (k : Nat) : State :=
  let s := (s.put (hdrEnable (0x30 + k)) 0).put (F.BAYK_STATE_AUTHORISED k) 0
  let s := (s.enter k stDisabled cHost noSeq).setOutlet k { mirOpen := (s.outlet k).mirOpen }
  ((s.put (F.BAYK_PILOT_MODE k) 0).put (F.BAYK_PILOT_DUTY k) 0).put (F.BAYK_ALLOW_MA k) 0

/-- A soft reset of BAY[k] beside its registers (R313): outputs low at once, pilot inactive, a STATE event with cause HOST. -/
def State.resetOutlet (s : State) (k : Nat) : State :=
  let s := s.outputsLow k
  let (s, _) := s.bayEvent k 0x40 (s.bay k) stDisabled cHost 0 (s.allowance k).1 noSeq
  let m := (s.outlet k).mirOpen
  (s.put ⟨A.BAY_STATE (k / 4), 8 * (k % 4), 8⟩ stDisabled).setOutlet k { mirOpen := m }

end Sys2Proof.Machine
end

