-- ==== Sys2Proof/Machine/Session.lean ====
section
/-! DEFINITION. SES: the authorisation cache, tariffs, the session machine and the bodies of signed records (11_sessions_billing.md). -/
namespace Sys2Proof.Machine

-- Local time (R349, R571)

/-- Seconds, UTC, since 2020-01-01 00:00. -/
def State.utc (s : State) : Nat := s.ts / 32768

/-- Local seconds at a UTC second: SES.TZ as in force since the last whole minute. -/
def State.localSec (s : State) (u : Nat) : Int := u + s.se.tzNow * 60

/-- Weekday (0 Monday) and minute of the day of a UTC second; 2020-01-01 was a Wednesday. -/
def State.weekMinute (s : State) (u : Nat) : Nat × Nat :=
  let m := s.localSec u / 60
  (((m / 1440 + 2) % 7).toNat, (m % 1440).toNat)

-- The cache (R337 to R339)

def cacheBase : Nat := 0x60000

/-- The two buckets of a key (R338). -/
def buckets (key : List Byte) : Nat × Nat :=
  let k := ofBe key
  let b1 := k % 512
  let b2 := k / 512 % 512
  (b1, if b2 = b1 then Nat.xor b1 1 else b2)

/-- SRAM offsets of a bucket's entries. -/
def bucketAt (b : Nat) : List Nat := (List.range 8).map fun i => cacheBase + 128 * b + 16 * i

def State.cacheValid (s : State) (a : Nat) : Bool := (s.sramByte (a + 11)).toNat % 2 == 1

/-- The entry that holds a key. -/
def State.cacheFind (s : State) (key : List Byte) : Option Nat :=
  let (b1, b2) := buckets key
  (bucketAt b1 ++ bucketAt b2).find? fun a => s.cacheValid a && s.sramBytes a 8 == key

/-- A lookup's result: 0 ACCEPTED, 1 BLOCKED, 2 EXPIRED, 3 UNKNOWN, with FLAGS_EXP and GROUP_PLAN (R338). -/
def State.lookup (s : State) (key : List Byte) : Nat × Nat × Nat :=
  match s.cacheFind key with
  | none => (3, 0, 0)
  | some a =>
    let fe := (s.sramWord (a + 8)).toNat
    let gp := (s.sramWord (a + 12)).toNat
    let exp := fe % 2 ^ 24
    (if fe.testBit 25 then 1 else if exp ≠ 0xFFFFFF ∧ exp < s.utc / 3600 then 2 else 0, fe, gp)

/-- AC_COUNT follows a change. -/
def State.countCache (s : State) (d : Int) : State := s.put F.SES_AC_COUNT_ENTRIES ((s.get F.SES_AC_COUNT_ENTRIES : Int) + d).toNat

/-- INSERT (R339): in place, else into the emptier bucket; refused when both are full. -/
def State.cacheInsert (s : State) (key : List Byte) (fe gp : Nat) : State × Bool :=
  let bytes := key ++ le 4 (fe % 2 ^ 28 ||| 2 ^ 24) ++ le 4 (gp % 8 + gp / 65536 % 65536 * 65536)
  match s.cacheFind key with
  | some a => (s.sramPut a bytes, true)
  | none =>
    let (b1, b2) := buckets key
    let free (b : Nat) : List Nat := (bucketAt b).filter fun a => !s.cacheValid a
    let l := if (free b1).length < (free b2).length then free b2 else free b1
    match l with
    | a :: _ => ((s.sramPut a bytes).countCache 1, true)
    | [] => ((((s.incSat F.SES_AC_STAT_FULL_REFUSED).err 0x19 0x60).event 0x19 4 noUnit), false)

/-- The key in AC_KEY_HI and AC_KEY_LO. -/
def State.acKey (s : State) : List Byte := be 4 (s.reg A.SES_AC_KEY_HI).toNat ++ be 4 (s.reg A.SES_AC_KEY_LO).toNat

/-- A cache command ends: its result and CACHE_DONE. -/
def State.cacheDone (s : State) (r : Nat) : State := (s.put F.SES_AC_STAT_RESULT r).event 0x19 3 noUnit

def State.acInsert (s : State) : State :=
  let (s, ok) := s.cacheInsert s.acKey (s.reg A.SES_AC_FLAGS_EXP).toNat (s.reg A.SES_AC_GROUP).toNat
  s.cacheDone (if ok then 0 else 5)

def State.acDelete (s : State) : State :=
  match s.cacheFind s.acKey with
  | some a =>
    let f := (s.sramWord (a + 8)).toNat
    ((s.sramPut (a + 8) (le 4 (setBit f 24 false))).countCache (-1)).cacheDone 0
  | none => (s.err 0x19 0x61).cacheDone 6

def State.acLookup (s : State) : State :=
  let (r, fe, gp) := s.lookup s.acKey
  let s := if r = 3 then s else (s.setReg A.SES_AC_FLAGS_EXP (BitVec.ofNat 32 fe)).setReg A.SES_AC_GROUP (BitVec.ofNat 32 gp)
  s.cacheDone (r + 1)

/-- CLEAR: the whole region reads zero. -/
def State.acClear (s : State) : State :=
  ({ s with sram := s.sram.filter fun c => decide (c.1 < cacheBase) || decide (cacheBase + 65536 ≤ c.1) }.put F.SES_AC_COUNT_ENTRIES 0).cacheDone 0

/-- CACHE_INSERT, CACHE_DELETE, CACHE_LOOKUP, CACHE_CLEAR (R338, R339). -/
def execCacheInsert (s : State) : Out := s.onFabric fun s => done s.acInsert
def execCacheDelete (s : State) : Out := s.onFabric fun s => done s.acDelete
def execCacheLookup (s : State) : Out := s.onFabric fun s => done s.acLookup
def execCacheClear (s : State) : Out := s.onFabric fun s => done s.acClear

-- Tariffs (R348, R349)

def tariffActive : Nat := 0x70000
def tariffStaging : Nat := 0x70800

/-- One tariff entry: START, END, DAYS, PLAN, ENERGY, TIME, IDLE. -/
structure Tariff where
  start : Nat
  stop : Nat
  days : Nat
  plan : Nat
  energy : Nat
  time : Nat
  idle : Nat
  deriving DecidableEq, Repr

def State.tariff (s : State) (base i : Nat) : Tariff :=
  let w (j : Nat) : Nat := (s.sramWord (base + 16 * i + 4 * j)).toNat
  ⟨w 0 % 2048, w 0 / 2048 % 2048, w 0 / 2 ^ 22 % 128, w 0 / 2 ^ 29, w 1, w 2, w 3⟩

/-- The entries in use of a bank. -/
def State.tariffs (s : State) (base : Nat) : List Tariff :=
  ((List.range 96).map (s.tariff base)).filter fun t => t.days != 0

/-- Do sorted intervals cover 0 to 1,440 without gap or overlap? -/
def covers : Nat → List (Nat × Nat) → Bool
  | at', [] => at' == 1440
  | at', (a, b) :: l => a == at' && covers b l

/-- The check of R349: each entry ends after it starts, and each plan with an entry covers every minute of every weekday once. -/
def tariffOk (l : List Tariff) : Bool :=
  (l.all fun t => decide (t.start < t.stop) && decide (t.start ≤ 1439) && decide (t.stop ≤ 1440)) &&
  (List.range 8).all fun p =>
    let lp := l.filter fun t => t.plan == p
    lp.isEmpty || (List.range 7).all fun d =>
      covers 0 (((lp.filter fun t => t.days.testBit d).map fun t => (t.start, t.stop)).mergeSort fun a b => a.1 ≤ b.1)

/-- The price entry of a plan at a UTC second; none prices at zero. -/
def State.period (s : State) (plan u : Nat) : Option Tariff :=
  if !s.on F.SES_TARIFF_STAT_VALID then none
  else
    let (d, m) := s.weekMinute u
    (s.tariffs tariffActive).find? fun t => t.plan == plan && t.days.testBit d && decide (t.start ≤ m) && decide (m < t.stop)

/-- A write of TARIFF_W3 stores the staging entry (R348). -/
def State.tariffStore (s : State) : State :=
  let i := s.get F.SES_TARIFF_IDX_IDX
  s.sramPut (tariffStaging + 16 * i) (le 4 (s.reg A.SES_TARIFF_W0).toNat ++ le 4 (s.reg A.SES_TARIFF_W1).toNat
    ++ le 4 (s.reg A.SES_TARIFF_W2).toNat ++ le 4 (s.reg A.SES_TARIFF_W3).toNat)

/-- ACTIVATE (R349): the check, then activation at the next whole local minute. -/
def State.tariffActivate (s : State) : State :=
  if tariffOk (s.tariffs tariffStaging) then
    { s with se := { s.se with switchAt := some (s.utc / 60 * 60 + 60) } }.put F.SES_TARIFF_STAT_PENDING 1
  else s.err 0x19 0x62

def State.tariffCopy (s : State) : State := s.sramPut tariffStaging (s.sramBytes tariffActive 1536)

/-- TARIFF_STORE (R348), with the value written to W3. -/
def execTariffStore (_req : Req) (val : W32) (s : State) : Out := s.onFabric fun s =>
  if s.get F.SES_TARIFF_IDX_IDX < 96 then done (((s.setReg A.SES_TARIFF_W3 val).tariffStore).bumpSeq 0x19)
  else done (s.err 0x19 0x1E)

/-- TARIFF_ACTIVATE (R349). -/
def execTariffActivate (s : State) : Out := s.onFabric fun s => done s.tariffActivate

/-- TARIFF_COPY (R358). -/
def execTariffCopy (s : State) : Out := s.onFabric fun s => done s.tariffCopy

/-- TARIFF_SWITCH (R349): the whole minute has come. -/
def execTariffSwitch (s : State) : Out := s.onFabric fun s =>
  match s.se.switchAt with
  | none => done s
  | some _ =>
    let bank := s.sramBytes tariffStaging 1536
    let s := { s with se := { s.se with switchAt := none, tzNow := s.getInt F.SES_TZ_MIN } }.sramPut tariffActive bank
    let s := ((s.put F.SES_TARIFF_STAT_PENDING 0).put F.SES_TARIFF_STAT_VALID 1).incSat F.SES_TARIFF_STAT_COUNT
    done ((s.setReg A.SES_TARIFF_ID (BitVec.ofNat 32 (crc32 bank))).event 0x19 5 noUnit)

-- Sessions (R344 to R347)

/-- The session's legal register (R350). -/
def sessionReg (abs : Bool) (a : Accs) : Nat := legalWh (if abs then a.imp else a.net)

/-- COST of R350. -/
def State.costOf (s : State) (k : Nat) : Nat :=
  if s.on (F.SES_OUT_STAT_NOBILL k) then 0 else satU 0xFFFFFFFF (divEven ((s.session k).cost : Int) 3600000000).toNat

/-- The register words an open-session entry restores. -/
def State.sessionWords (s : State) (k : Nat) : List (Nat × W32) :=
  [A.SES_OUT_STAT k, A.SES_OUT_SESSION_ID k, A.SES_OUT_KEY_HI k, A.SES_OUT_KEY_LO k, A.SES_OUT_ENERGY_WH k, A.SES_OUT_COST k,
   A.SES_OUT_DURATION k, A.SES_OUT_IDLE_S k].map fun a => (a, s.reg a)

/-- The open-session entry is couched while the session is open, and closed with it (R346). -/
def State.saveEntry (s : State) (k : Nat) : State :=
  let rest := s.se.entries.filter fun e => e.1 != k
  if s.ses k = sesStarting ∨ s.ses k = sesActive ∨ s.ses k = sesEnding then
    { s with se := { s.se with entries := rest ++ [(k, ⟨s.session k, s.sessionWords k⟩)] } }
  else { s with se := { s.se with entries := rest } }

/-- The session state changes; ACTIVE_MASK and the entry follow. -/
def State.setSes (s : State) (k st : Nat) : State :=
  let s := s.put (F.SES_OUT_STAT_STATE k) st
  (s.put ⟨A.SES_ACTIVE_MASK, k, 1⟩ (decide (st = sesStarting ∨ st = sesActive ∨ st = sesEnding)).toNat).saveEntry k

/-- ENERGY_WH and COST follow the accumulators. -/
def State.showCost (s : State) (k : Nat) : State := s.put (F.SES_OUT_COST k) (s.costOf k)

/-- The response of R342; RESULT of a refused command is a free value, since the table names none. -/
def State.sesAnswer (s : State) (k typ ref status : Nat) (result : Option Nat) (mark : Nat) : State :=
  let s := if status = 0 then s else s.err 0x19 status
  let st := s.ses k
  let isOpen := decide (st = sesStarting ∨ st = sesActive ∨ st = sesEnding)
  let sid := if isOpen then s.get (F.SES_OUT_SESSION_ID k) else 0xFFFFFFFF
  let pay (r : Nat) : List Byte := le 1 r ++ le 1 st ++ le 2 0 ++ le 4 sid ++ le 2 (s.session k).group ++ le 1 (s.get (F.SES_OUT_STAT_PLAN k))
    ++ le 1 0 ++ le 4 mark
  match result with
  | some r => s.emit (3 + k) (0x80 + typ) (some ref) status (pay r)
  | none => (s.emit (3 + k) (0x80 + typ) (some ref) status (pay s.free)).took

/-- STARTING: AUTHORISE has gone to BAY and the session takes its SESSION_ID (R344, R346). -/
def State.sesBegin (s : State) (k : Nat) : State :=
  let id := s.se.nextId
  let s := { s with se := { s.se with nextId := (id + 1) % 2 ^ 32 } }
  let x := s.session k
  let s := s.setSession k { key := x.key, context := x.context, limit := x.limit, source := x.source, group := x.group }
  let s := ((s.put (F.SES_OUT_SESSION_ID k) id).put (F.SES_OUT_ENERGY_WH k) 0).put (F.SES_OUT_COST k) 0
  let s := ((s.put (F.SES_OUT_DURATION k) 0).put (F.SES_OUT_IDLE_S k) 0).put (F.SES_OUT_STAT_REAUTH k) 0
  (s.put F.SES_SESSION_NEXT s.se.nextId).setSes k sesStarting

/-- Does a BAY state allow an acceptance at once, or after plugging in? -/
def State.bayReady (s : State) (k : Nat) : Bool := s.bay k == stConnected || s.bay k == stOffering
def State.bayAccepts (s : State) (k : Nat) : Bool := s.bayReady k || s.bay k == stIdle

/-- The latched fields' register view. -/
def State.latch (s : State) (k : Nat) (key context : List Byte) (limit source plan group fe : Nat) : State :=
  let s := s.setSession k { s.session k with key := key, context := context, limit := limit, source := source, group := group % 65536 }
  let s := ((s.put (F.SES_OUT_STAT_PLAN k) plan).put (F.SES_OUT_STAT_PRIO k) (fe.testBit 26).toNat).put (F.SES_OUT_STAT_NOBILL k) (fe.testBit 27).toNat
  (s.put (F.SES_OUT_KEY_HI k) (ofBe (key.take 4))).put (F.SES_OUT_KEY_LO k) (ofBe (key.drop 4))

/-- An acceptance (R344): STARTING with AUTHORISE to BAY, or PREAUTH while no vehicle is connected. -/
def State.sesAccept (s : State) (k : Nat) (plan group fe : Nat) : State :=
  let x := s.session k
  let s := s.latch k x.key x.context x.limit x.source plan group fe
  if s.bayReady k then (s.authorise k).sesBegin k else s.setSes k sesPreauth

/-- ENDING waits for its couch once BAY reports both outputs low and STATE.CLOSED 0 (R344). -/
def State.sesLow (s : State) (k : Nat) : State :=
  if s.ses k = sesEnding ∧ !(s.session k).wait ∧ !s.outHigh k ∧ !s.on (F.BAYK_STATE_CLOSED k) then
    (s.setSession k { s.session k with wait := true }).saveEntry k
  else s

/-- A stop cause (R344, R345): held until the START record has been issued, then acted on; the first cause stays. -/
def State.sesStop (s : State) (k reason : Nat) : State :=
  let x := s.session k
  let st := s.ses k
  if st = sesStarting ∨ (st = sesActive ∧ x.startMark = 0) then
    match x.held with
    | none => s.setSession k { x with held := some reason }
    | some _ => s
  else if st = sesActive then
    let s := s.setSession k { x with reason := reason }
    let s := if s.on (F.BAYK_STATE_AUTHORISED k) then s.stopOutlet k cSes noSeq else s
    (s.setSes k sesEnding).sesLow k
  else s

/-- A referral ends without a decision: its IDENTIFY is answered (R342, R344). -/
def State.endReferral (s : State) (k : Nat) (result : Option Nat) : State :=
  let x := s.session k
  let s := (s.setSession k { x with referral := none }).setSes k sesIdle
  match x.referral with
  | some r => s.sesAnswer k 0x20 r 0 result 0xFFFFFFFF
  | none => s

/-- BAY has confirmed class A, or no cable with PP_MODE 1 (R344, R345). -/
def State.sesGone (s : State) (k : Nat) (classA : Bool) : State :=
  if s.ses k = sesPending then (if classA then s.endReferral k none else s) else s.sesStop k 0x02

/-- SES hears of a change of BAY's state (R344, R345). -/
def State.sesBay (s : State) (k old : Nat) : State :=
  let new := s.bay k
  if new = old then s.sesLow k
  else
    let s :=
      if s.ses k = sesPreauth ∧ new = stConnected ∧ s.pf.warned = false then (s.authorise k).sesBegin k
      else if new = stTripped then s.sesStop k 0x05
      else if new = stDisabled then s.sesStop k 0x07
      else if new = stWelded ∨ new = stService ∨ (new = stFaultF ∧ s.on (F.BAYK_STATE_LATCHED k)) then s.sesStop k 0x06
      else if new = stFaultF then s.setSession k { s.session k with retry := true }
      else if s.ses k = sesActive ∧ new = stConnected ∧ (s.session k).retry = true ∧ s.pf.warned = false then
        ((s.setSession k { s.session k with retry := false }).authorise k).put (F.SES_OUT_STAT_REAUTH k) 1
      else s
    s.sesLow k

/-- BAY has accepted AUTHORISE from the host (R344). -/
def State.sesHostAuth (s : State) (k : Nat) : State :=
  if s.ses k = sesIdle ∧ s.enabled 0x19 ∧ s.pf.warned = false then
    let z := List.replicate 8 (0 : Byte)
    (s.latch k z z 0 0 (s.get F.SES_CFG_DEFAULT_PLAN) 0 0).sesBegin k
  else s

-- Records (R351)

/-- What a STOP record adds: LINK_WATERMARK, DELTA_IMP, DELTA_EXP, DURATION and COST. -/
structure StopPart where
  link : Nat := 0xFFFFFFFF
  dimp : Nat := 0
  dexp : Nat := 0
  dur : Nat := 0
  cost : Nat := 0

/-- The 128-byte body, WATERMARK still zero (R351). -/
def State.body (s : State) (kind k flags reason tags : Nat) (c : LegalRec) (cts : Nat) (inSession : Bool) (context : List Byte)
    (stop : StopPart) : List Byte :=
  let (a, abs, _) := c.outlets.getD k ({}, false, 0)
  let x := s.session k
  let flags := flags + (if tags = 0 then 0 else 4) + (if inSession && s.on (F.SES_OUT_STAT_REAUTH k) then 8 else 0)
    + (if inSession && s.on (F.SES_OUT_STAT_NOBILL k) then 16 else 0)
  le 1 kind ++ le 1 1 ++ le 1 k ++ le 1 flags ++ le 4 0 ++ le 8 Config.serial.toNat ++ le 8 cts ++ le 4 s.epoch ++ le 4 c.seq
    ++ le 4 (s.reg A.CAL_SET_ID).toNat ++ le 4 (if inSession then s.get (F.SES_OUT_SESSION_ID k) else 0xFFFFFFFF)
    ++ le 8 a.imp ++ le 8 a.exp ++ le 8 a.net ++ le 8 a.varPos ++ le 8 a.varNeg
    ++ (if inSession then x.key else List.replicate 8 0) ++ context
    ++ le 2 (if inSession then x.group else 0) ++ le 1 (if inSession then s.get (F.SES_OUT_STAT_PLAN k) else 0) ++ le 1 reason
    ++ le 4 stop.link ++ le 4 stop.dimp ++ le 4 stop.dexp ++ le 4 stop.dur ++ le 4 stop.cost
    ++ le 1 (tags % 16) ++ le 1 abs.toNat ++ le 2 (s.get F.SES_TZ_MIN)
    ++ le 4 (if s.on F.SES_TARIFF_STAT_VALID then (s.reg A.SES_TARIFF_ID).toNat else 0)

/-- A record joins the signer's queue; none after a power-fail warning (R347). -/
def State.askSign (s : State) (r : SignReq) : State :=
  if s.pf.warned then s else { s with se := { s.se with queue := s.se.queue ++ [r] } }

/-- The START record and the latched totals of the first couch after AUTHORISE (R344). -/
def State.sesStart (s : State) (k : Nat) (c : LegalRec) (cts : Nat) : State :=
  let (a, abs, _) := c.outlets.getD k ({}, false, 0)
  let x := s.session k
  let s := s.setSession k { x with start := a, abs := abs, startTs := cts, prev := sessionReg abs a, coupled := cts, startMark := 0 }
  (s.askSign ⟨s.body 2 k 0 x.source x.tags c cts true x.context {}, 37, k, none⟩).setSes k sesActive

/-- The energy of a couch is priced (R350); `u` is the UTC second whose period applies. -/
def State.charge (s : State) (k : Nat) (c : LegalRec) (cts u : Nat) : State :=
  let x := s.session k
  let now := sessionReg x.abs (c.acc k)
  let d := (now + 1000000000 - x.prev) % 1000000000
  let p := match s.period (s.get (F.SES_OUT_STAT_PLAN k)) u with
    | some t => t.energy
    | none => 0
  let s := s.setSession k { x with prev := now, coupled := cts, cost := (x.cost + d * p * 3600) % 2 ^ 64 }
  (s.put (F.SES_OUT_ENERGY_WH k) ((now + 1000000000 - sessionReg x.abs x.start) % 1000000000)).showCost k

/-- The STOP record of a couch (R344, R351). -/
def State.sesFinish (s : State) (k : Nat) (c : LegalRec) (cts : Nat) (interrupted : Bool) : State :=
  let x := s.session k
  let a := c.acc k
  let diff (p q : Nat) : Nat := (legalWh p + 1000000000 - legalWh q) % 1000000000
  let stop : StopPart := {
    link := x.startMark
    dimp := if x.abs then diff a.imp x.start.imp else diff a.net x.start.net
    dexp := if x.abs then diff a.exp x.start.exp else 0
    dur := (cts - x.startTs) / 32768
    cost := s.costOf k }
  let s := s.setSession k { x with stopping := true }
  s.askSign ⟨s.body 3 k (interrupted.toNat + (if x.notOpen then 2 else 0)) x.reason x.tags c cts true x.context stop, 37, k, none⟩

/-- METER records due at this couch (R355). -/
def State.meterRecords (s : State) (c : LegalRec) (cts : Nat) : State :=
  let l := s.se.meters
  l.foldl (fun s m =>
    let k := m.outlet
    let inSes := decide (s.ses k = sesStarting ∨ s.ses k = sesActive ∨ s.ses k = sesEnding)
    let ctx := if m.ref.isSome then m.context else if inSes then (s.session k).context else m.context
    s.askSign ⟨s.body 1 k (if m.ref.isSome then 0 else 32) 0 (((s.meter k).lastTags >>> 2) % 16) c cts inSes ctx {}, 36, k, m.ref⟩)
    { s with se := { s.se with meters := [] } }

/-- SES takes a completed couch (R344, R350, R355). -/
def State.sesCouch (s : State) (c : LegalRec) (cts : Nat) : State :=
  let s := { s with se := { s.se with last := some (c, cts) } }
  if s.pf.warned then s
  else
    let s := (List.range 12).foldl (fun s k =>
      let x := s.session k
      if s.ses k = sesStarting then s.sesStart k c cts
      else if (s.ses k = sesActive ∨ s.ses k = sesEnding) ∧ x.stopping = false then
        let s := s.charge k c cts (cts / 32768)
        let s := if s.ses k = sesActive ∧ x.limit ≠ 0 ∧ x.limit ≤ s.get (F.SES_OUT_ENERGY_WH k) then s.sesStop k 0x04 else s
        if x.wait then s.sesFinish k c cts false else s.sesLow k
      else s) s
    s.meterRecords c cts

/-- A record has been queued on its ring (R353 step 5): the session that asked for it goes on. -/
def State.recordIssued (s : State) (r : SignReq) (mark : Nat) : State :=
  let k := r.outlet
  let kind := (r.body.headD 0).toNat
  if kind = 2 then
    let x := s.session k
    let s := ((s.setSession k { x with startMark := mark, held := none }).saveEntry k).event 0x19 0 k
    match x.held with
    | some c => s.sesStop k c
    | none => s
  else if kind = 3 then
    let x := s.session k
    let s := (s.put (F.SES_OUT_STAT_LAST_REASON k) x.reason).setSession k { x with stopping := false, wait := false, held := none }
    (s.setSes k sesIdle).event 0x19 1 k
  else match r.ref with
    | some q => s.sesAnswer k 0x23 q 0 (some 7) mark
    | none => s

/-- The frame of a signed record (R354). -/
def State.queueRecord (s : State) (x : Staged) : State :=
  (s.emit x.req.ring (x.req.body.headD 0).toNat none 0 x.bytes).recordIssued x.req x.mark

/-- The staged record's append is done: steps 5 and 6 of R353. -/
def State.markAppended (s : State) (mark : Nat) : State :=
  match s.se.staged with
  | some x =>
    if x.mark = mark then
      let s := { s with se := { s.se with staged := some { x with queued := true, delivered := true }, retry := false } }
      if x.queued then s else s.queueRecord x
    else s
  | none => s

/-- The staged record's append failed: step 5 once, and the append is tried again (R353). -/
def State.signedFailed (s : State) : State :=
  match s.se.staged with
  | some x =>
    let s := { s with se := { s.se with staged := some { x with queued := true }, retry := true } }
    if x.queued then s else s.queueRecord x
  | none => s

-- Commands (R341 to R343)

/-- The command at the head of ring 15 + k, if it has the given TYPE. -/
def State.cmdOutlet (s : State) (k typ : Nat) : Option Frame :=
  match s.head (15 + k) with
  | some f => if f.typ = typ then some f else none
  | none => none

/-- The checks every SES command shares, lowest code first (R341, R343, R358, R506, R580). -/
def State.sesRefusal (s : State) (k : Nat) (f : Frame) (bad legal closed : Bool) (needsKey clock : Bool) : Option Nat :=
  firstErr [(bad, 0x1E), (legal, 0x21), (fieldLe f.payload 0 4 != s.get (F.BAYK_OEPOCH k), 0x40), (s.boot.bench || s.pf.warned, 0x41),
    (!s.enabled 0x19 || closed, 0x63), (clock, 0x64), (needsKey && s.legal.watermark == 0xFFFFFFFF, 0x65),
    (needsKey && !s.on F.SEA_STAT_KEY_OK, 0xA6)]

/-- IDENTIFY (R338, R341, R343, R344, R347, R499). -/
def execIdentify (k : Fin 12) (s : State) : Out := s.onFabric fun s =>
  let k := k.val
  match s.cmdOutlet k 0x20 with
  | none => done s
  | some f =>
    let s := s.take (15 + k)
    let key := (f.payload.drop 4).take 8
    let src := fieldLe f.payload 24 1
    let st := s.ses k
    let tap := s.on F.SES_CFG_TAP_STOP && key == (s.session k).key
    let (res, fe, gp) := s.lookup key
    let pol := s.get F.SES_CFG_UNKNOWN_POLICY
    let accept := st == sesIdle && (res == 0 || (res == 3 && pol == 2))
    let closed := s.on (F.BAYK_CFG_AUTH_SRC k) || !s.enabled (0x20 + k) || s.on F.CAL_STATUS_JIG || s.se.restore != []
      || st == sesPending || st == sesPreauth || st == sesStarting || st == sesEnding || (st == sesActive && !tap)
      || (accept && !s.bayAccepts k)
    match s.sesRefusal k f (decide (f.payload.length < 28) || src == 0 || decide (4 < src)) (!s.on F.MTR_LEGAL_STAT_LEGAL_OK) closed true
        (!s.on F.BKP_STATUS_TIME_SET) with
    | some c => done (s.sesAnswer k 0x20 f.seq c none 0xFFFFFFFF)
    | none =>
      if st = sesActive then done ((s.sesStop k 0x03).sesAnswer k 0x20 f.seq 0 (some 6) 0xFFFFFFFF)
      else
        let s' := s.setSession k { s.session k with key := key, context := (f.payload.drop 12).take 8, limit := fieldLe f.payload 20 4,
                                                    source := src }
        if res = 0 then done ((s'.sesAccept k (gp % 8) (gp / 65536) fe).sesAnswer k 0x20 f.seq 0 (some 0) 0xFFFFFFFF)
        else if res = 3 ∧ pol = 2 then
          done ((s'.sesAccept k (s.get F.SES_CFG_DEFAULT_PLAN) 0 0).sesAnswer k 0x20 f.seq 0 (some 0) 0xFFFFFFFF)
        else if res = 3 ∧ pol = 1 then
          let s' := s'.setSession k { s'.session k with referral := some f.seq }
          done ((s'.setSes k sesPending).event 0x19 2 k)
        else done (s.sesAnswer k 0x20 f.seq 0 (some res) 0xFFFFFFFF)

/-- DECIDE (R341 to R344): the answer on a referral; the IDENTIFY is answered first. -/
def execDecide (k : Fin 12) (s : State) : Out := s.onFabric fun s =>
  let k := k.val
  match s.cmdOutlet k 0x21 with
  | none => done s
  | some f =>
    let s := s.take (15 + k)
    let answer := fieldLe f.payload 4 1
    let plan := fieldLe f.payload 6 1
    match s.sesRefusal k f (decide (f.payload.length < 16) || decide (1 < answer) || decide (7 < plan)) false (s.ses k != sesPending) false false with
    | some c => done (s.sesAnswer k 0x21 f.seq c none 0xFFFFFFFF)
    | none =>
      let x := s.session k
      let group := fieldLe f.payload 8 2
      let fe := fieldLe f.payload 12 4
      let s := if (fieldLe f.payload 5 1).testBit 0 then (s.cacheInsert x.key fe (plan + 65536 * group)).1 else s
      let s := s.setSession k { x with referral := none }
      let ok := answer == 0 && s.bayAccepts k
      let s := if ok then s.sesAccept k plan group fe else s.setSes k sesIdle
      let s := match x.referral with
        | some r => s.sesAnswer k 0x20 r 0 (some 4) 0xFFFFFFFF
        | none => s
      done (s.sesAnswer k 0x21 f.seq 0 (some (if ok then 0 else 3)) 0xFFFFFFFF)

/-- STOP_SESSION (R344, R345). -/
def execStopSession (k : Fin 12) (s : State) : Out := s.onFabric fun s =>
  let k := k.val
  match s.cmdOutlet k 0x22 with
  | none => done s
  | some f =>
    let s := s.take (15 + k)
    let st := s.ses k
    match s.sesRefusal k f (decide (f.payload.length < 8)) false (st == sesIdle || st == sesPending) false false with
    | some c => done (s.sesAnswer k 0x22 f.seq c none 0xFFFFFFFF)
    | none =>
      let s := if st = sesPreauth then s.setSes k sesIdle else s.sesStop k 0x01
      done (s.sesAnswer k 0x22 f.seq 0 (some 6) 0xFFFFFFFF)

/-- SIGN_READING (R355): answered with RESULT 7 when its record has been issued. -/
def execSignReading (k : Fin 12) (s : State) : Out := s.onFabric fun s =>
  let k := k.val
  match s.cmdOutlet k 0x23 with
  | none => done s
  | some f =>
    let s := s.take (15 + k)
    match s.sesRefusal k f (decide (f.payload.length < 12)) false false true false with
    | some c => done (s.sesAnswer k 0x23 f.seq c none 0xFFFFFFFF)
    | none => done { s with se := { s.se with meters := s.se.meters ++ [⟨k, (f.payload.drop 4).take 8, some f.seq⟩] } }

-- Timers

/-- DECIDE_TIMEOUT (R344): RESULT 5. -/
def execDecideTimeout (k : Fin 12) (s : State) : Out := s.onFabric fun s =>
  if s.ses k.val = sesPending then done (s.endReferral k.val (some 5)) else done s

/-- PLUG_TIMEOUT (R344): nothing is recorded. -/
def execPlugTimeout (k : Fin 12) (s : State) : Out := s.onFabric fun s =>
  if s.ses k.val = sesPreauth then done (s.setSes k.val sesIdle) else done s

/-- END_TIMEOUT (R344): a contactor still closed gives FLAGS.NOT_OPEN. -/
def execEndTimeout (k : Fin 12) (s : State) : Out := s.onFabric fun s =>
  let x := s.session k.val
  if s.ses k.val = sesEnding ∧ x.wait = false then
    done ((s.setSession k.val { x with wait := true, notOpen := s.on (F.BAYK_STATE_CLOSED k.val) }).saveEntry k.val)
  else done s

/-- One session's second tick (R350). -/
def State.sesSecond (s : State) (k : Nat) : State :=
  let x := s.session k
  if (s.ses k = sesActive ∨ s.ses k = sesEnding) ∧ x.stopping = false then
    let p := s.period (s.get (F.SES_OUT_STAT_PLAN k)) (s.utc - 1)
    let closed := s.on (F.BAYK_STATE_CLOSED k)
    let idle := s.get (F.MTRK_ESTAT_RUNNING k) == 0 &&
      decide (s.get F.SES_IDLE_CFG_IDLE_GRACE * 60 * 32768 ≤ s.ts - (s.meter k).idleFrom)
    let add := match p with
      | some t => (if closed then t.time * 1000 else 0) + (if idle then t.idle * 1000 else 0)
      | none => 0
    let s := s.setSession k { x with cost := (x.cost + add) % 2 ^ 64 }
    let s := if idle then s.inc (F.SES_OUT_IDLE_S k) else s
    ((s.put (F.SES_OUT_DURATION k) ((s.ts - x.startTs) / 32768)).showCost k).saveEntry k
  else s

/-- SECOND_TICK (R346, R349, R350). -/
def execSecondTick (s : State) : Out := s.onFabric fun s =>
  let s := (List.range 12).foldl State.sesSecond s
  done (if s.utc % 60 = 0 then { s with se := { s.se with tzNow := s.getInt F.SES_TZ_MIN } } else s)

/-- METER_PERIOD_DUE (R355, R506): every outlet enabled in MTR. -/
def execMeterPeriodDue (s : State) : Out := s.onFabric fun s =>
  if s.get F.SES_TIMING_METER_PERIOD = 0 ∨ s.pf.warned = true ∨ s.enabled 0x19 = false then done s
  else if !s.on F.SEA_STAT_KEY_OK then done (s.err 0x19 0xA6)
  else
    let l := ((List.range 12).filter fun k => s.enabled (0x20 + k)).map fun k => (⟨k, List.replicate 8 0, none⟩ : MeterReq)
    done { s with se := { s.se with meters := s.se.meters ++ l } }

/-- PROGRESS_TICK (R354): every ACTIVE session reports its couched values. -/
def execProgressTick (s : State) : Out := s.onFabric fun s =>
  if s.get F.SES_IDLE_CFG_PROGRESS_S = 0 then done s
  else
    done ((List.range 12).foldl (fun s k =>
      if s.ses k = sesActive then
        s.emit 37 0x10 none 0 (le 1 k ++ le 1 (s.ses k) ++ le 2 0 ++ le 4 (s.get (F.SES_OUT_SESSION_ID k)) ++ le 4 (s.get (F.SES_OUT_ENERGY_WH k))
          ++ le 4 (s.get (F.SES_OUT_COST k)) ++ le 4 (s.get (F.SES_OUT_DURATION k)) ++ le 4 (s.get (F.SES_OUT_IDLE_S k))
          ++ le 8 (s.session k).coupled)
      else s) s)

/-- R347: the entries left open by the run before are closed from the totals taken under R198, in ascending outlet order. -/
def State.closeRestored (s : State) (reason : Nat) : State :=
  match s.se.last with
  | none => s
  | some (c, cts) =>
    let l := s.se.restore
    l.foldl (fun s e =>
      let k := e.1
      let x := e.2.session
      let s := s.setSession k { x with reason := reason, held := none, wait := true }
      if x.startMark = 0 then s.setSes k sesIdle
      else ((s.setSes k sesEnding).charge k c cts (x.coupled / 32768)).sesFinish k c cts true)
      { s with se := { s.se with restore := [] } }

/-- A power-fail warning (R347): no new record is started; the one being signed goes on. -/
def State.sesWarn (s : State) : State := { s with se := { s.se with queue := s.se.queue.take 1, meters := [] } }

/-- A soft reset of SES beside its registers (R359): PENDING and PREAUTH end without records. -/
def State.resetSes (s : State) : State :=
  (List.range 12).foldl (fun s k =>
    if s.ses k = sesPending then s.endReferral k none else if s.ses k = sesPreauth then s.setSes k sesIdle else s)
    { s with se := { s.se with switchAt := none, meters := [] } }

end Sys2Proof.Machine
end

