-- ==== Sys2Proof/Machine/Storage.lean ====
section
/-! DEFINITION. NVF and NVL: the felt store, flash steps and jobs, reams, storage commands, scrubbing and retirement
(16_nonvolatile_storage.md). -/
namespace Sys2Proof.Machine

-- Contents

/-- A felt byte nothing has written (log entry 8), and an erased flash byte (R469). -/
def feltBlank (_ : Nat) : Byte := 0
def flashBlank (_ : Nat) : Byte := 0xFF

def State.ream (s : State) (r : Nat) : Ream := spRead (fun _ => ({} : Ream)) s.nv.reams r
def State.setReam (s : State) (r : Nat) (x : Ream) : State :=
  { s with nv := { s.nv with reams := spWrite (fun _ => ({} : Ream)) s.nv.reams r x } }
def State.streamHead (s : State) (n : Nat) : Head := spRead (fun _ => ({} : Head)) s.nv.heads n
def State.setHead (s : State) (n : Nat) (x : Head) : State :=
  { s with nv := { s.nv with heads := spWrite (fun _ => ({} : Head)) s.nv.heads n x } }

/-- A byte of flash: where a step was cut off, each bit whose target is 0 is open (R472). -/
def State.flashByte (s : State) (a : Nat) : Byte :=
  let b := spRead flashBlank s.nv.flash a
  match s.nv.torn.find? fun t => decide (t.1 ≤ a) && decide (a < t.1 + t.2.1) with
  | some (base, _, w) => (BitVec.ofNat 8 (w / 256 ^ (a - base)) ||| Config.openByte s.fresh (0x800000 + a)) &&& b
  | none => b
def State.flashBytes (s : State) (a n : Nat) : List Byte := (List.range n).map fun i => s.flashByte (a + i)
def State.flashPut (s : State) (a : Nat) (bs : List Byte) : State :=
  { s with nv := { s.nv with flash := spWrites flashBlank s.nv.flash a bs } }

/-- The reams of a stream in use, by REAM_SEQ. -/
def State.reamsOf (s : State) (n : Nat) : List Nat :=
  ((List.range 92).filter fun r => let x := s.ream r; (x.state == 1 || x.state == 2) && x.stream == n).mergeSort
    fun a b => (s.ream a).reamSeq ≤ (s.ream b).reamSeq
def State.openReam (s : State) (n : Nat) : Option Nat := (s.reamsOf n).find? fun r => (s.ream r).state == 1

/-- The oldest SEQ a stream stores. -/
def State.firstSeq (s : State) (n : Nat) : Nat :=
  match (s.reamsOf n).find? fun r => (s.ream r).records != 0 with
  | some r => (s.ream r).first
  | none => (s.streamHead n).next

/-- A ream's index entry as felt bytes (R477). -/
def Ream.bytes (x : Ream) : List Byte :=
  le 4 (x.state + 256 * x.stream) ++ le 4 x.reamSeq ++ le 4 x.first ++ le 4 x.last ++ le 4 x.ofs ++ le 4 x.records
    ++ le 4 x.erases ++ le 4 0

/-- A stream head as felt bytes. -/
def State.headBytes (s : State) (n : Nat) : List Byte :=
  le 4 (s.streamHead n).next ++ le 4 (s.firstSeq n) ++ le 4 ((s.openReam n).getD 0xFFFF) ++ le 4 (s.reamsOf n).length

/-- The start-attempt record of the felt store (R558). -/
def State.startRecord (s : State) : List Byte :=
  match s.boot.felt with
  | none => []
  | some c =>
    let b := le 4 s.boot.feltEpoch ++ le 1 c.fails ++ le 3 c.hist ++ le 2 c.mask ++ le 1 c.release.toNat ++ le 1 0
    b ++ le 4 (crc32 b)

/-- Felt regions whose records the spec gives no layout: the remap table and CAL's background record (R485, R247). -/
def feltOpen (a : Nat) : Bool := (decide (0x32200 ≤ a) && decide (a < 0x32400)) || (decide (0x34000 ≤ a) && decide (a < 0x38000))

/-- A byte of the felt store from 0x3_0000 on (R463). -/
def State.feltByte (s : State) (a : Nat) : Byte :=
  if feltOpen a then Config.openByte s.fresh (0x100000 + a) else
  if 0x32100 ≤ a ∧ a < 0x32110 then s.startRecord.getD (a - 0x32100) 0 else
  if 0x30000 ≤ a ∧ a < 0x30000 + 2944 then ((s.ream ((a - 0x30000) / 32)).bytes).getD ((a - 0x30000) % 32) 0
  else if 0x30C00 ≤ a ∧ a < 0x30C80 then (s.headBytes ((a - 0x30C00) / 16)).getD ((a - 0x30C00) % 16) 0
  else spRead feltBlank s.nv.felt a
def State.feltBytes (s : State) (a n : Nat) : List Byte := (List.range n).map fun i => s.feltByte (a + i)
def State.feltPut (s : State) (a : Nat) (bs : List Byte) : State := { s with nv := { s.nv with felt := spWrites feltBlank s.nv.felt a bs } }

/-- The couch journal's next entry (R463). -/
def State.journalCouch (s : State) (r : LegalRec) (time : Nat) : State :=
  let i := (s.nv.couchIdx + 1) % 256
  let s := { s with nv := { s.nv with couchIdx := i } }
  (s.feltPut (0x31000 + 16 * i) (le 4 r.seq ++ le 4 r.cycle ++ le 2 time ++ le 1 (s.mt.lastB.toNat + 2 * r.flags) ++ le 5 s.ts)).put
    F.NVF_COUCH_IDX_IDX i

-- Steps (R469, R470)

/-- The hold-up H in 0.1 ms (R471). -/
def State.holdup (s : State) : Nat :=
  let d := s.get F.NVL_HOLDUP_CFG_DECL_MS * 10
  if s.on F.NVL_HOLDUP_MEAS_VALID then min d (s.get F.NVL_HOLDUP_MEAS) else d

/-- May a step start (R470)? H in units of 0.01 ms against 42.5 ms + the step + 0.04 ms. -/
def State.stepAllowed (s : State) (e : FlashStep) : Bool :=
  let need := match e with
    | .erase _ => 4250 + 200 + 4
    | _ => 4250 + 3 + 4
  !s.nv.supplyLow && !s.pf.warned && decide (need ≤ s.holdup * 10)

/-- The step in hand: the first of the first job. -/
def State.step1 (s : State) : Option FlashStep := s.nv.jobs.head?.bind fun j => j.steps.head?

/-- HOLDUP.STEP_OK and DEFERRING, and the deferral of the step in hand; DEFER is raised as it begins (R470, R490). -/
def State.checkStep (s : State) : State :=
  let s := s.put F.NVL_HOLDUP_STEP_OK (s.stepAllowed (.prog 0 0)).toNat
  match s.step1 with
  | none => ({ s with nv := { s.nv with deferMs := none } }).put F.NVL_HOLDUP_DEFERRING 0
  | some e =>
    if s.stepAllowed e then ({ s with nv := { s.nv with deferMs := none } }).put F.NVL_HOLDUP_DEFERRING 0
    else match s.nv.deferMs with
      | some _ => s
      | none => (({ s with nv := { s.nv with deferMs := some 0 } }).put F.NVL_HOLDUP_DEFERRING 1).event 0x09 1 noUnit

/-- Is a job the seal domain's or NVL's own? These run ahead of ring 46 commands (R483). -/
def JobKind.ahead (k : JobKind) : Bool :=
  match k with
  | .append .. | .trim .. | .imgErase _ | .imgWrite .. | .scrub _ | .wrap .. => false
  | .store | .shim | .signed .. | .reclaim _ => true

/-- A job joins the queue, ahead of ring 46 commands where it is the seal domain's. -/
def State.pushJob (s : State) (j : Job) : State :=
  let jobs := s.nv.jobs
  let (a, b) := jobs.span fun x => x.kind.ahead
  let jobs := if j.kind.ahead then a ++ j :: b else jobs ++ [j]
  ({ s with nv := { s.nv with jobs := jobs } }).checkStep

/-- Is a ring 46 command, or any flash command, being carried out? -/
def State.cmdRunning (s : State) : Bool := s.nv.jobs.any fun j => j.ref.isSome
def State.flashBusy (s : State) : Bool := s.nv.jobs != []

/-- The completion of a ring 46 command on ring 47 (R481). The execution time is a free value. -/
def State.complete (s : State) (typ : Nat) (ref : Nat) (status n : Nat) (data : List Byte) : State :=
  (s.emit 47 (0x80 + typ) (some ref) status (le 4 n ++ le 4 s.free ++ data)).took

/-- A refused storage command (R481, R487): the serving page's error and interrupt, and the completion. -/
def State.refuseCmd (s : State) (page typ ref code : Nat) : State :=
  let s := s.err page code
  let s := if page = 0x08 then s.event 0x08 1 noUnit else s
  let s := if page = 0x08 ∧ code = 0x90 then s.event 0x08 0 noUnit else s
  s.complete typ ref code 0 []

def JobKind.typ (k : JobKind) : Nat :=
  match k with
  | .append .. | .wrap .. => 3
  | .trim .. => 5
  | .imgErase _ => 6
  | .imgWrite .. => 7
  | _ => 0

-- Reams

/-- Is a ream protected (R479)? -/
def State.reamProtected (s : State) (r : Nat) : Bool :=
  let p := s.get F.NVL_PROTECT
  decide (p = 1 ∧ 69 ≤ r) || decide (p = 2 ∧ 46 ≤ r) || decide (p = 3 ∧ 16 ≤ r)

/-- The free ream a stream opens: lowest ERASE_COUNT, then lowest number (R479); stream 0 takes reams 0 to 15. -/
def State.freeReam (s : State) (n : Nat) : Option Nat :=
  let l := (List.range 92).filter fun r => (s.ream r).state == 0 && (if n = 0 then decide (r < 16) else decide (16 ≤ r) && !s.reamProtected r)
  l.foldl (fun (b : Option Nat) r => match b with
    | none => some r
    | some x => if (s.ream r).erases < (s.ream x).erases then some r else some x) none

/-- FREE_REAMS (R490). -/
def State.countReams (s : State) : State :=
  let host := ((List.range 92).filter fun r => decide (16 ≤ r) && (s.ream r).state == 0 && !s.reamProtected r).length
  let sig := ((List.range 16).filter fun r => (s.ream r).state == 0).length
  (s.put F.NVL_FREE_REAMS_HOST host).put F.NVL_FREE_REAMS_SIG sig

/-- The byte address of a ream, and its sectors (R473). -/
def reamAddr (r : Nat) : Nat := 4096 * (256 + 8 * r)
def reamSectors (r : Nat) : List Nat := (List.range 8).map (256 + 8 * r + ·)

/-- A record with its header, CRC and COMMIT (R475). -/
def recordBytes (stream seq : Nat) (payload : List Byte) : List Byte :=
  let p := payload ++ List.replicate ((8 - payload.length % 8) % 8) 0
  let h := le 1 0xA5 ++ le 1 stream ++ le 2 payload.length ++ le 4 seq ++ p
  h ++ le 4 (crc32 h) ++ le 2 payload.length ++ le 2 0 ++ le 8 0

/-- The header of an opened ream (R474). -/
def reamHeader (stream reamSeq erases : Nat) : List Byte :=
  let h := le 4 0x4D414552 ++ le 1 stream ++ le 1 1 ++ le 2 0 ++ le 4 reamSeq ++ le 4 erases
  h ++ le 4 (crc32 h) ++ le 4 0 ++ le 8 0

/-- The program steps that write bytes in ascending word order. -/
def progSteps (a : Nat) (bs : List Byte) : List FlashStep :=
  (List.range ((bs.length + 7) / 8)).map fun i => .prog (a + 8 * i) (fieldLe (bs ++ List.replicate 8 0) (8 * i) 8)

/-- A ream is opened for a stream: its index entry, the next REAM_SEQ and its header's steps (R474, R477). -/
def State.openFor (s : State) (n r : Nat) : State × List FlashStep :=
  let h := s.streamHead n
  let x := s.ream r
  let s := match s.openReam n with
    | some o => s.setReam o { s.ream o with state := 2 }
    | none => s
  let s := s.setReam r { state := 1, stream := n, reamSeq := h.reamSeq, first := h.next, last := h.next, ofs := 32, records := 0, erases := x.erases }
  ((s.setHead n { h with reamSeq := h.reamSeq + 1 }).countReams, progSteps (reamAddr r) (reamHeader n h.reamSeq x.erases))

/-- The erase steps of a ream, and its entry in the erasing state. -/
def State.eraseReam (s : State) (r : Nat) : State × List FlashStep :=
  (s.setReam r { s.ream r with state := 3 }, (reamSectors r).map .erase)

/-- A ream erased: free again, its erases counted. -/
def State.freed (s : State) (r : Nat) : State :=
  (s.setReam r { state := 0, erases := (s.ream r).erases + 1 }).countReams

/-- The watermarks above SIG_ARCH; SIG_LOW as they exceed 1,698 (R480). -/
def State.sigCount (s : State) : State :=
  let n := min 0xFFFF (s.legal.watermark - s.nv.sigArch)
  let old := s.get F.NVL_SIG_STAT_UNARCHIVED
  let s := s.put F.NVL_SIG_STAT_UNARCHIVED n
  if 1698 < n ∧ old ≤ 1698 then s.event 0x09 4 noUnit else s

/-- The oldest stream 0 ream is erased when the last free one is opened; one with an unarchived watermark is logged first (R480). -/
def State.reclaimSig (s : State) : State :=
  if ((List.range 16).any fun r => (s.ream r).state == 0) then s
  else match s.reamsOf 0 with
    | [] => s
    | r :: _ =>
      let x := s.ream r
      let s := if s.nv.sigArch < x.last then
          ((s.event 0x09 5 noUnit).incSat F.NVL_SIG_STAT_OVERWRITES).log 0x0030 noOutlet (le 4 x.first ++ le 4 x.last) else s
      let (s, st) := s.eraseReam r
      s.pushJob { kind := .reclaim r, ref := none, steps := st }

/-- A signed record's append to stream 0 (R353, R480): done already when its watermark is the newest stored. -/
def State.appendSigned (s : State) (w : Nat) (payload : List Byte) : State × Bool :=
  if (s.streamHead 0).next = w + 1 ∧ s.reamsOf 0 ≠ [] then (s, true)
  else
    let bytes := recordBytes 0 w payload
    let s := s.setHead 0 { s.streamHead 0 with next := w }
    match s.openReam 0 with
    | some r =>
      if (s.ream r).ofs + bytes.length ≤ 32768 then
        (s.pushJob { kind := .signed w r (s.ream r).ofs bytes.length, ref := none, steps := progSteps (reamAddr r + (s.ream r).ofs) bytes }, false)
      else match s.freeReam 0 with
        | some f =>
          let (s, st) := s.openFor 0 f
          ((s.pushJob { kind := .signed w f 32 bytes.length, ref := none, steps := st ++ progSteps (reamAddr f + 32) bytes }).reclaimSig, false)
        | none => (s.reclaimSig, false)
    | none => match s.freeReam 0 with
        | some f =>
          let (s, st) := s.openFor 0 f
          ((s.pushJob { kind := .signed w f 32 bytes.length, ref := none, steps := st ++ progSteps (reamAddr f + 32) bytes }).reclaimSig, false)
        | none => (s.reclaimSig, false)

/-- A record committed: the index entry and the head move past it (R476, R477). -/
def State.recordDone (s : State) (n seq r ofs size : Nat) : State :=
  let x := s.ream r
  let s := s.setReam r { x with last := seq, records := x.records + 1, ofs := ofs + size, first := if x.records = 0 then seq else x.first }
  s.setHead n { s.streamHead n with next := seq + 1 }

-- Commands of ring 46 (R481 to R483)

/-- The command at the head of ring 46, if it has the given TYPE and no other command runs (R482). -/
def State.cmd46 (s : State) (typ : Nat) : Option Frame :=
  if s.cmdRunning then none else match s.head 46 with
  | some f => if f.typ = typ then some f else none
  | none => none

/-- System SRAM addresses a command names: aligned and inside, else 0x0006 (R481). -/
def sramBad (a n : Nat) : Bool := decide (a % 4 ≠ 0) || decide (a < 0x20000000) || decide (0x20100000 < a + n)

/-- System SRAM that only its block writes, or that its block protects now (R73, R265, R337, R348, R368, R385, R444, R453). -/
def State.sramOwned (s : State) (o : Nat) : Bool :=
  decide (o < 0x40000) || (decide (o < 0x60000) && s.enabled 0x14) || (decide (0x60000 ≤ o) && decide (o < 0x70000))
    || (decide (0x70000 ≤ o) && decide (o < 0x70600)) || (decide (0x70800 ≤ o) && decide (o < 0x70E00))
    || (decide (0x80000 ≤ o) && decide (o < 0x80000 + 16 * s.get F.LMG_SITE_CFG_POSTS) && s.on F.LMG_SITE_STAT_VALID)
    || (decide (0x90000 ≤ o) && decide (o < 0x98000))
    || (decide (0x98000 ≤ o) && decide (o < 0xA0000) && s.on F.MSH_POLL_CTRL_RUN)
    || (decide (0xC0000 ≤ o) && decide (o < 0xF0000))

/-- Is a byte of a command's destination in SRAM another block's? -/
def State.sramShut (s : State) (dst n : Nat) : Bool := (List.range n).any fun i => s.sramOwned (dst - 0x20000000 + i)

/-- Bytes to SRAM, or inline where the destination is 0. -/
def State.deliver (s : State) (typ ref dst n : Nat) (data : List Byte) : State :=
  if dst = 0 then s.complete typ ref 0 n data else (s.sramPut (dst - 0x20000000) data).complete typ ref 0 n []

/-- Inline data that would not fit the slot of ring 47. -/
def State.tooLong (s : State) (dst n : Nat) : Bool := decide (dst = 0) && decide (s.slotSize 47 < 28 + n)

/-- FELT_READ (R467, R481). -/
def execFeltRead (s : State) : Out := s.onFabric fun s =>
  match s.cmd46 1 with
  | none => done s
  | some f =>
    let s := s.take 46
    let a := fieldLe f.payload 0 4
    let n := fieldLe f.payload 4 4
    let dst := fieldLe f.payload 8 4
    match firstErr [(decide (a < 0x30000), 0x03), (decide (dst ≠ 0) && sramBad dst n, 0x06), (decide (dst ≠ 0) && s.sramShut dst n, 0x07),
        (s.tooLong dst n, 0x10), (!s.enabled 0x08 || decide (n < 4) || decide (1024 < n) || decide (n % 4 ≠ 0) || decide (a % 4 ≠ 0)
          || decide (0x80000 < a + n), 0x1E), (s.pf.warned, 0x95)] with
    | some c => done (s.refuseCmd 0x08 1 f.seq c)
    | none => done (s.took.deliver 1 f.seq dst n (s.feltBytes a n))

/-- Does a write touch a protected word of the user area (R467)? -/
def State.feltProtected (s : State) (a n : Nat) : Bool :=
  let p := s.get F.NVF_CFG_PROTECT
  let lo := if p = 1 then 0x70000 else if p = 2 then 0x60000 else if p = 3 then 0x40000 else 0x80000
  decide (lo < a + n)

/-- The data of a FELT_WRITE or APPEND: inline, or from SRAM. -/
def State.source (s : State) (f : Frame) (n : Nat) : List Byte :=
  let src := fieldLe f.payload 8 4
  if src = 0 then (f.payload.drop 12).take n else s.sramBytes (src - 0x20000000) n

/-- FELT_WRITE (R465, R467, R481). -/
def execFeltWrite (s : State) : Out := s.onFabric fun s =>
  match s.cmd46 2 with
  | none => done s
  | some f =>
    let s := s.take 46
    let a := fieldLe f.payload 0 4
    let n := fieldLe f.payload 4 4
    let src := fieldLe f.payload 8 4
    match firstErr [(decide (a < 0x40000) || decide (0x80000 < a + n), 0x03), (decide (src ≠ 0) && sramBad src n, 0x06),
        (!s.enabled 0x08 || decide (n < 4) || decide (1024 < n) || decide (n % 4 ≠ 0) || decide (a % 4 ≠ 0)
          || (decide (src = 0) && decide (f.payload.length < 12 + n)), 0x1E), (s.feltProtected a n, 0x90), (s.pf.warned, 0x95)] with
    | some c => done (s.refuseCmd 0x08 2 f.seq c)
    | none =>
      let s := (s.feltPut a (s.source f n)).put F.NVF_WRITES (s.get F.NVF_WRITES + n / 4)
      done (s.complete 2 f.seq 0 n [])

/-- The end of a refused or executed NVL command (R490). -/
def State.cmdDone (s : State) : State := s.event 0x09 0 noUnit
def State.refuseNvl (s : State) (typ ref code : Nat) : State := (s.refuseCmd 0x09 typ ref code).cmdDone

/-- APPEND (R476, R479, R481): the record's steps are queued; it completes after its commit. -/
def execAppend (s : State) : Out := s.onFabric fun s =>
  match s.cmd46 3 with
  | none => done s
  | some f =>
    let s := s.take 46
    let n := fieldLe f.payload 0 4 % 8
    let len := fieldLe f.payload 4 4 % 65536
    let src := fieldLe f.payload 8 4
    let seq := (s.streamHead n).next
    let bytes := recordBytes n seq (s.source f len)
    let cap := s.get (F.NVL_STREAM_CFG_MAX_REAMS n)
    let fits := match s.openReam n with
      | some r => decide ((s.ream r).ofs + bytes.length ≤ 32768) && !s.reamProtected r
      | none => false
    let canOpen := decide ((s.reamsOf n).length < cap) && (s.freeReam n).isSome
    let oldest := (s.reamsOf n).head?
    let wrapOk := s.on (F.NVL_STREAM_CFG_WRAP n) && oldest.isSome
    let hit := match oldest with
      | some r => !fits && !canOpen && wrapOk && s.reamProtected r
      | none => false
    match firstErr [(decide (src ≠ 0) && sramBad src len, 0x06),
        (!s.enabled 0x09 || decide (n = 0) || decide (len = 0) || decide (4032 < len) || (decide (src = 0) && decide (f.payload.length < 12 + len)), 0x1E),
        (hit, 0x90), (decide (cap = 0) || (!fits && !canOpen && !wrapOk), 0x93), (s.pf.warned, 0x95), (s.on F.NVL_CFG_STAT_BUSY, 0x97)] with
    | some c =>
      let s := if c = 0x93 then s.event 0x09 6 n else s
      done (s.refuseNvl 3 f.seq c)
    | none =>
      if fits then
        let r := (s.openReam n).getD 0
        done (s.pushJob { kind := .append n seq r (s.ream r).ofs bytes.length, ref := some f.seq, steps := progSteps (reamAddr r + (s.ream r).ofs) bytes })
      else if canOpen then
        let r := (s.freeReam n).getD 0
        let (s, st) := s.openFor n r
        done (s.pushJob { kind := .append n seq r 32 bytes.length, ref := some f.seq, steps := st ++ progSteps (reamAddr r + 32) bytes })
      else
        let r := oldest.getD 0
        let (s, er) := s.eraseReam r
        done (s.pushJob { kind := .wrap n r (s.source f len), ref := some f.seq, steps := er })

/-- The payload of a stored record: the records of a ream from an offset, until the SEQ is found (R475, R476). -/
def findRecord (flash : Nat → Nat → List Byte) (base stream seq : Nat) : Nat → Nat → Option (List Byte)
  | 0, _ => none
  | k + 1, ofs =>
    let h := flash (base + ofs) 8
    let len := fieldLe h 2 2
    let p := (len + 7) / 8 * 8
    if fieldLe h 0 1 ≠ 0xA5 ∨ len = 0 then none
    else
      let all := flash (base + ofs) (24 + p)
      if fieldLe h 4 4 = seq then
        if fieldLe h 1 1 = stream ∧ fieldLe all (8 + p) 4 = crc32 (all.take (8 + p)) ∧ fieldLe all (12 + p) 2 = len ∧ fieldLe all (16 + p) 8 = 0
        then some ((all.drop 8).take len) else none
      else findRecord flash base stream seq k (ofs + 24 + p)

/-- A record of a stream by SEQ. -/
def State.readRecord (s : State) (n seq : Nat) : Option (List Byte) :=
  if s.nv.lost.contains (n, seq) then none else
  ((s.reamsOf n).find? fun r => let x := s.ream r; x.records != 0 && decide (x.first ≤ seq) && decide (seq ≤ x.last)).bind fun r =>
    findRecord s.flashBytes (reamAddr r) n seq (s.ream r).records 32

/-- REAM_READ (R481): 0x0096 where the record is not stored or not valid. -/
def execReamRead (s : State) : Out := s.onFabric fun s =>
  match s.cmd46 4 with
  | none => done s
  | some f =>
    let s := s.take 46
    let n := fieldLe f.payload 0 4 % 8
    let seq := fieldLe f.payload 4 4
    let dst := fieldLe f.payload 8 4
    let r := s.readRecord n seq
    let len := (r.getD []).length
    match firstErr [(decide (dst ≠ 0) && sramBad dst len, 0x06), (decide (dst ≠ 0) && s.sramShut dst len, 0x07), (s.tooLong dst len, 0x10),
        (!s.enabled 0x09, 0x1E), (s.pf.warned, 0x95), (r.isNone, 0x96), (s.on F.NVL_CFG_STAT_BUSY, 0x97)] with
    | some c => done (s.refuseNvl 4 f.seq c)
    | none => done (s.deliver 4 f.seq dst seq (r.getD [])).cmdDone

/-- STREAM_TRIM (R479, R481): the oldest ream of a host stream is erased. -/
def execStreamTrim (s : State) : Out := s.onFabric fun s =>
  match s.cmd46 5 with
  | none => done s
  | some f =>
    let s := s.take 46
    let n := fieldLe f.payload 0 4 % 8
    match firstErr [(!s.enabled 0x09 || decide (n = 0), 0x1E), ((match (s.reamsOf n).head? with
        | some r => s.reamProtected r
        | none => false), 0x90), (s.pf.warned, 0x95), (decide (s.reamsOf n = []), 0x96), (s.on F.NVL_CFG_STAT_BUSY, 0x97)] with
    | some c => done (s.refuseNvl 5 f.seq c)
    | none =>
      let r := (s.reamsOf n).headD 0
      let (s, st) := s.eraseReam r
      done (s.pushJob { kind := .trim n r, ref := some f.seq, steps := st })

/-- The byte address and length of a waveform table copy (R468). -/
def imgAddr (b : Bool) : Nat := 4096 * (if b then 194 else 146)
def imgSize : Nat := 4096 * 48

/-- IMG_ERASE (R481). -/
def execImgErase (s : State) : Out := s.onFabric fun s =>
  match s.cmd46 6 with
  | none => done s
  | some f =>
    let s := s.take 46
    let t := fieldLe f.payload 0 4
    match firstErr [(!s.enabled 0x09 || decide (1 < t), 0x1E), (s.pf.warned, 0x95), (s.on F.NVL_CFG_STAT_BUSY, 0x97)] with
    | some c => done (s.refuseNvl 6 f.seq c)
    | none =>
      let base := if t = 1 then 194 else 146
      done (s.pushJob { kind := .imgErase (t == 1), ref := some f.seq, steps := (List.range 48).map fun i => .erase (base + i) })

/-- IMG_WRITE (R481): every target word must read erased. -/
def execImgWrite (s : State) : Out := s.onFabric fun s =>
  match s.cmd46 7 with
  | none => done s
  | some f =>
    let s := s.take 46
    let t := fieldLe f.payload 0 4
    let ofs := fieldLe f.payload 4 4
    let src := fieldLe f.payload 8 4
    let n := fieldLe f.payload 12 4
    let a := imgAddr (t == 1) + ofs
    match firstErr [(sramBad src n, 0x06), (!s.enabled 0x09 || decide (1 < t) || decide (ofs % 8 ≠ 0) || decide (n % 8 ≠ 0) || decide (n = 0)
        || decide (imgSize < ofs + n), 0x1E), (decide (ofs + n ≤ imgSize) && (s.flashBytes a n).any (· != 0xFF), 0x94), (s.pf.warned, 0x95),
        (s.on F.NVL_CFG_STAT_BUSY, 0x97)] with
    | some c => done (s.refuseNvl 7 f.seq c)
    | none => done (s.pushJob { kind := .imgWrite (t == 1) n, ref := some f.seq, steps := progSteps a (s.sramBytes (src - 0x20000000) n) })

/-- IMG_READ (R481). -/
def execImgRead (s : State) : Out := s.onFabric fun s =>
  match s.cmd46 8 with
  | none => done s
  | some f =>
    let s := s.take 46
    let t := fieldLe f.payload 0 4
    let ofs := fieldLe f.payload 4 4
    let dst := fieldLe f.payload 8 4
    let n := fieldLe f.payload 12 4
    match firstErr [(decide (dst ≠ 0) && sramBad dst n, 0x06), (decide (dst ≠ 0) && s.sramShut dst n, 0x07), (s.tooLong dst n, 0x10),
        (!s.enabled 0x09 || decide (1 < t) || decide (imgSize < ofs + n), 0x1E), (s.pf.warned, 0x95), (s.on F.NVL_CFG_STAT_BUSY, 0x97)] with
    | some c => done (s.refuseNvl 8 f.seq c)
    | none => done (s.deliver 8 f.seq dst n (s.flashBytes (imgAddr (t == 1) + ofs) n)).cmdDone

-- The end of a job

/-- A report on ring 48 (R249). -/
def State.report (s : State) (typ : Nat) (bytes : List Byte) : State := s.emit 48 typ none 0 bytes

/-- A jig operation ends (R233). -/
def State.jigEnd (s : State) (op ch : Nat) (code used : Nat) : State :=
  let ok := decide (code = 0)
  let s := { s with cal := { s.cal with jigOp := none } }
  let s := ((s.put F.CAL_JIG_STAT_BUSY 0).put F.CAL_JIG_STAT_OK ok.toNat).put F.CAL_JIG_STAT_USED (min used 0xFFFF)
  let s := if ok then s else s.err 0x13 code
  (s.irq 0x13 4).report 0x05 (le 1 op ++ le 1 ch ++ le 1 (s.get F.CAL_JIG_STAT_BAND) ++ le 1 ok.toNat ++ le 2 code ++ le 2 0
    ++ le 4 (s.reg A.CAL_JIG_RESULT).toNat ++ le 4 used)

/-- The commit has failed or been cut off before step 5 (R235). -/
def State.commitFailed (s : State) : State := { s with cal := { s.cal with commit := none } }.jigEnd 6 0 0x34 0

/-- The shim commit's last flash step (R234 step 5): the stored copy is valid and the log entry is written. -/
def State.shimStored (s : State) : State :=
  match s.cal.commit with
  | none => s
  | some c =>
    let cal := if s.cal.takenB then { s.cal with recA := some c.record, takenB := false } else { s.cal with recB := some c.record, takenB := true }
    let s := { s with cal := { cal with commit := some { c with step := 5 } } }
    s.log 0x0010 noOutlet (le 4 c.old ++ le 4 c.record.id ++ le 4 c.oldSeq ++ le 4 c.record.seq)

/-- The configuration record is stored (R468). -/
def State.cfgStored (s : State) : State :=
  let old := if s.nv.cfgLastB then s.nv.cfgB else s.nv.cfgA
  let r : CfgRecord := ⟨match old with
    | some x => x.seq + 1
    | none => 1, s.nv.cfgImage⟩
  let nv := if s.nv.cfgLastB then { s.nv with cfgA := some r, cfgLastB := false } else { s.nv with cfgB := some r, cfgLastB := true }
  (((({ s with nv := nv }).put F.NVL_CFG_STAT_BUSY 0).put F.NVL_CFG_STAT_OK 1).put F.NVL_CFG_STAT_SEQ r.seq)

/-- A job whose last step is done. -/
def State.jobDone (s : State) (j : Job) : State :=
  let fin (s : State) (n : Nat) : State := match j.ref with
    | some r => (s.complete j.kind.typ r 0 n []).cmdDone
    | none => s
  match j.kind with
  | .append n seq r ofs size => fin (s.recordDone n seq r ofs size) seq
  | .trim _ r => fin (s.freed r) 0
  | .imgErase _ => fin s imgSize
  | .imgWrite _ n => fin s n
  | .store => s.cfgStored
  | .shim => s.shimStored
  | .signed w r ofs size => ((s.recordDone 0 w r ofs size).sigCount).markAppended w
  | .reclaim r => s.freed r
  | .scrub r => s.freed r
  | .wrap n r p =>
    let s := s.freed r
    match s.freeReam n with
    | some f =>
      let seq := (s.streamHead n).next
      let bytes := recordBytes n seq p
      let (s, st) := s.openFor n f
      s.pushJob { kind := .append n seq f 32 bytes.length, ref := j.ref, steps := st ++ progSteps (reamAddr f + 32) bytes }
    | none => match j.ref with
      | some q => s.refuseNvl 3 q 0x93
      | none => s

/-- A job that fails: its command completes with the code (R470, R483); bytes a record cut short has left are never reused (R478); a
commit ends with 0x0034 (R235). -/
def State.jobFail (s : State) (j : Job) (code : Nat) : State :=
  let s := match j.ref with
    | some r => s.refuseNvl j.kind.typ r code
    | none => s.err 0x09 code
  match j.kind with
  | .append _ _ r ofs size =>
    if (s.flashBytes (reamAddr r + ofs) size).all (· == 0xFF) then s else s.setReam r { s.ream r with state := 2 }
  | .shim => s.commitFailed
  | .store => (s.put F.NVL_CFG_STAT_BUSY 0).put F.NVL_CFG_STAT_OK 0
  | .signed .. => s.signedFailed
  | _ => s

/-- The step in hand is done: the next one of its job, or the job's end. -/
def State.nextStep (s : State) : State :=
  match s.nv.jobs with
  | [] => s
  | j :: rest =>
    match j.steps with
    | [] | [_] => (({ s with nv := { s.nv with jobs := rest } }).jobDone j).checkStep
    | _ :: more => ({ s with nv := { s.nv with jobs := { j with steps := more, again := false, pulses := 0 } :: rest } }).checkStep

-- Retirement (R485, R486)

/-- A failing sector is replaced by the next free spare; with none left its content decides. -/
def State.retire (s : State) (sector : Nat) : State :=
  let used := s.get F.NVL_SPARE_USED
  if used < 32 then
    let s := { s with nv := { s.nv with remap := s.nv.remap ++ [(sector, used)] } }
    let s := (s.put F.NVL_SPARE_USED (used + 1)).event 0x09 2 noUnit
    if used = 31 then (s.event 0x09 3 noUnit).faultFrame 0x08 true 0 noUnit noLog else s
  else
    let s := s.event 0x09 3 noUnit
    if 256 ≤ sector ∧ sector < 992 then s.setReam ((sector - 256) / 8) { s.ream ((sector - 256) / 8) with state := 4 }
    else if sector < 128 then s.log 0x0051 noOutlet (le 1 (sector / 64) ++ le 1 2) else s

/-- The sector of a step. -/
def FlashStep.sector (e : FlashStep) : Nat :=
  match e with
  | .prog a _ => a / 4096
  | .erase n => n
  | .record n _ => n

/-- A bit can only be programmed from 1 to 0 (R469). -/
def State.program (s : State) (a w : Nat) : State :=
  let old := ofLe (spReads flashBlank s.nv.flash a 8)
  s.flashPut a (le 8 (Nat.land old w))

/-- A sector reads 0xFF. -/
def State.eraseSector (s : State) (n : Nat) : State :=
  { s with nv := { s.nv with flash := s.nv.flash.filter fun c => decide (c.1 / 4096 ≠ n), torn := s.nv.torn.filter fun t => decide (t.1 / 4096 ≠ n) } }

/-- A sector left between its content and the erased state: every byte reads an undefined value (R472). -/
def State.tearSector (s : State) (n : Nat) : State :=
  let s := s.eraseSector n
  { s with nv := { s.nv with torn := s.nv.torn ++ [(4096 * n, (4096, 0))] } }

/-- A step that has started always completes (R470); after one erase pulse the sector verifies or not. -/
def State.finishStep (s : State) : State :=
  match s.nv.deferMs, s.step1 with
  | none, some (.prog a w) => s.program a w
  | none, some (.erase n) => if s.free % 2 = 1 then s.took.eraseSector n else s.took.tearSector n
  | _, _ => s

/-- A step in progress when power is lost without a warning (R472). -/
def State.tearStep (s : State) : State :=
  match s.nv.deferMs, s.step1 with
  | none, some (.prog a w) => { s with nv := { s.nv with torn := s.nv.torn ++ [(a, (8, w))] } }
  | none, some (.erase n) => s.tearSector n
  | _, _ => s

/-- The A/B copy that the job in hand has begun to write fails its CRC (R235, R466, R472). -/
def State.cutCopy (s : State) : State :=
  match s.nv.jobs with
  | [] => s
  | j :: _ =>
    let begun (n : Nat) : Bool := s.nv.deferMs.isNone || j.pulses != 0 || decide (j.steps.length < n)
    match j.kind with
    | .store => if begun 7 then { s with nv := if s.nv.cfgLastB then { s.nv with cfgA := none } else { s.nv with cfgB := none } } else s
    | .shim => if begun 10 then { s with cal := if s.cal.takenB then { s.cal with recA := none } else { s.cal with recB := none } } else s
    | _ => s

/-- Does the job's target survive an exhausted pool: only a ream append goes on in place; any other copy is left invalid (R486). -/
def State.afterRetire (s : State) (j : Job) (used : Nat) : State :=
  if used < 32 then
    match s.nv.jobs with
    | j' :: rest => { s with nv := { s.nv with jobs := { j' with again := false, pulses := 0 } :: rest } }
    | [] => s
  else
    let s := s.cutCopy
    (({ s with nv := { s.nv with jobs := s.nv.jobs.tail } }).jobFail j 0x91).checkStep

/-- PROGRAM_STEP_DONE (R469, R476, R485): the word read back as intended, or not. -/
def execProgramStepDone (ok : Bool) (s : State) : Out := s.onFabric fun s =>
  match s.nv.jobs with
  | [] => done s
  | j :: rest =>
    if s.nv.deferMs.isSome then done s
    else match j.steps with
    | .prog a w :: _ =>
      if ok then done (s.program a w).nextStep
      else if !j.again then done { s with nv := { s.nv with jobs := { j with again := true } :: rest } }
      else let used := s.get F.NVL_SPARE_USED; done ((s.retire (a / 4096)).afterRetire j used)
    | .record n c :: more =>
      if ok then
        if c ≤ 1 then done s.nextStep
        else done { s with nv := { s.nv with jobs := { j with steps := .record n (c - 1) :: more, again := false } :: rest } }
      else if !j.again then done { s with nv := { s.nv with jobs := { j with again := true } :: rest } }
      else let used := s.get F.NVL_SPARE_USED; done ((s.retire n).afterRetire j used)
    | _ => done s

/-- ERASE_PULSE_DONE (R469, R485): at most 10 pulses to a sector. -/
def execErasePulseDone (ok : Bool) (s : State) : Out := s.onFabric fun s =>
  match s.nv.jobs with
  | [] => done s
  | j :: rest =>
    if s.nv.deferMs.isSome then done s
    else match j.steps with
    | .erase n :: _ =>
      if ok then done (s.eraseSector n).nextStep
      else if j.pulses + 1 < 10 then done { s with nv := { s.nv with jobs := { j with pulses := j.pulses + 1 } :: rest } }
      else
        let used := s.get F.NVL_SPARE_USED
        let s := s.retire n
        if used < 32 then done (s.eraseSector n).nextStep
        else done (s.afterRetire j used)
    | _ => done s

/-- STEP_DEFER_CHECK (R470): 1 ms later the conditions are checked again. -/
def execStepDeferCheck (supplyOk : Bool) (s : State) : Out := s.onFabric fun s =>
  let s := { s with nv := { s.nv with supplyLow := !supplyOk } }
  match s.nv.deferMs with
  | none => done s.checkStep
  | some t => done ({ s with nv := { s.nv with deferMs := some (t + 1) } }).checkStep

/-- STEP_WAIT_TIMEOUT (R470): a step deferred longer than STEP_WAIT fails its command with 0x0091. -/
def execStepWaitTimeout (s : State) : Out := s.onFabric fun s =>
  match s.nv.jobs, s.nv.deferMs with
  | j :: rest, some t =>
    if s.get F.NVL_CFG_STEP_WAIT ≤ t then
      let s := s.cutCopy
      done (({ s with nv := { s.nv with jobs := rest, deferMs := none } }).jobFail j 0x91).checkStep
    else done s
  | _, _ => done s

/-- Written sectors, ascending (R484): those with programmed bytes. -/
def State.nextScrub (s : State) (n : Nat) : Nat :=
  ((s.nv.flash.map fun c => c.1 / 4096).find? fun x => decide (n ≤ x)).getD 0

/-- What a scrub does about its finding in sector n (R484). -/
def State.scrubFound (s : State) (n : Nat) (found : ScrubFound) : State :=
  let r := (n - 256) / 8
  let inReam := decide (256 ≤ n) && decide (n < 992)
  match found with
  | .clean => s
  | .weak holds =>
    let s := s.incSat F.NVL_SCRUB_STAT_REFRESHED
    if holds then s else s.retire n
  | .unerased =>
    if inReam ∧ (s.ream r).state = 0 then
      let (s, st) := s.eraseReam r
      (s.pushJob { kind := .scrub r, ref := none, steps := st }).countReams
    else s
  | .badRecord n q =>
    let x := s.ream r
    if inReam ∧ x.stream = n ∧ x.records ≠ 0 ∧ x.first ≤ q ∧ q ≤ x.last ∧ s.nv.lost.contains (n.val, q) = false then
      { s with nv := { s.nv with lost := s.nv.lost ++ [(n.val, q)] } }.incSat F.NVL_SPARE_CORRUPT
    else s

/-- SCRUB_TICK (R484): the next written sector is read at both margins. -/
def execScrubTick (found : ScrubFound) (s : State) : Out := s.onFabric fun s =>
  if !s.on F.NVL_CFG_SCRUB_EN || s.flashBusy || !s.stepAllowed (.prog 0 0) then done s
  else
    let n := s.nextScrub (s.get F.NVL_SCRUB_STAT_NEXT)
    done ((s.scrubFound n found).put F.NVL_SCRUB_STAT_NEXT (n + 1))

/-- STORE (R468): the listed registers are captured, the copy not in use erased and written. -/
def State.storeCfg (s : State) (image : List (Nat × W32)) : State :=
  if s.on F.NVL_CFG_STAT_BUSY then s.err 0x09 0x97
  else if s.pf.warned then s.err 0x09 0x95
  else
    let base := if s.nv.cfgLastB then 242 else 248
    let s := ({ s with nv := { s.nv with cfgImage := image } }).put F.NVL_CFG_STAT_BUSY 1
    s.pushJob { kind := .store, ref := none, steps := ((List.range 6).map fun i => .erase (base + i)) ++ [.record base (image.length + 4)] }

/-- PROTECT raised by any requester, lowered only in the privileged view (R467, R479); an open ream that becomes protected is full. -/
def State.writeProtect (s : State) (priv nvl : Bool) (v : Nat) : State :=
  let f := if nvl then F.NVL_PROTECT else F.NVF_CFG_PROTECT
  if v < s.get f ∧ priv = false then s.err (if nvl then 0x09 else 0x08) 0x03
  else
    let s := (s.put f v).bumpSeq (if nvl then 0x09 else 0x08)
    if nvl then
      ((List.range 92).foldl (fun s r => if (s.ream r).state = 1 ∧ 16 ≤ r ∧ s.reamProtected r then s.setReam r { s.ream r with state := 2 } else s) s).countReams
    else s

def execProtectWrite (_req : Req) (priv : Bool) (nvl : Bool) (val : W32) (s : State) : Out := s.onFabric fun s =>
  done (s.writeProtect (priv && s.privOpen) nvl (getBits val 0 2))

/-- SIG_ARCH (R480): never lowered. -/
def State.writeSigArch (s : State) (v : Nat) : State :=
  if v < s.nv.sigArch then s.err 0x09 0x1E
  else ((({ s with nv := { s.nv with sigArch := v } }).put F.NVL_SIG_ARCH v).bumpSeq 0x09).sigCount

def execSigArchWrite (_req : Req) (val : W32) (s : State) : Out := s.onFabric fun s => done (s.writeSigArch val.toNat)

/-- MEAS_CLR (R471). -/
def State.measClr (s : State) : State :=
  (({ s with nv := { s.nv with holdupWord := none } }).put F.NVL_HOLDUP_MEAS_VALID 0).checkStep

def execMeasClr (s : State) : Out := s.onFabric fun s => if s.privOpen then done (s.measClr.bumpSeq 0x09) else done (s.err 0x09 0x03)

/-- HOLDUP_MEASURE_END (R471): the backup domain records the time from the warning, in 0.1 ms. -/
def execHoldupMeasureEnd (ms : Nat) (s : State) : Out :=
  if s.pf.warned then done { s with nv := { s.nv with holdupWord := some (min 0xFFFF ms) } } else done s

/-- After a warning the step in progress completes, the command in progress ends with 0x0095 and no step starts (R470, R235). -/
def State.flashWarn (s : State) : State :=
  let s := s.finishStep.cutCopy
  let jobs := s.nv.jobs
  jobs.foldl (fun s j => s.jobFail j 0x95) { s with nv := { s.nv with jobs := [], deferMs := none } }

end Sys2Proof.Machine
end

