-- ==== Sys2Proof/Machine/Sign.lean ====
section
/-! DEFINITION. The signing of records: staging, the watermark, the append and the delivery (R352, R353). -/
namespace Sys2Proof.Machine

/-- The body with its WATERMARK filled in. -/
def withMark (body : List Byte) (w : Nat) : List Byte := body.take 4 ++ le 4 w ++ body.drop 8

/-- Step 4 of R353 for the staged record: its append, done already by the duplicate check, under way, or failed. -/
def State.appendStaged (s : State) (x : Staged) : State :=
  let (s, had) := s.appendSigned x.mark x.bytes
  if had then s.markAppended x.mark
  else if s.nv.jobs.any fun j => match j.kind with
      | .signed w _ _ _ => w == x.mark
      | _ => false
  then s else s.signedFailed

/-- May the signer take the next record (R352, R353, R506)? -/
def State.canSign (s : State) : Bool :=
  s.on F.SEA_STAT_KEY_OK && decide (s.legal.watermark < 0xFFFFFFFF) && (match s.se.staged with
    | some x => x.delivered
    | none => true)

/-- The newest watermark used is the last of all (R352, R593). -/
def State.markEnd (s : State) (w : Nat) : State :=
  if w = 0xFFFFFFFF then (s.event 0x19 6 noUnit).faultFrame 0x0C true 0 noUnit noLog else s

/-- The newest START or STOP record of an outlet, kept for its deckle field (R356). -/
def State.keepMark (s : State) (k : Nat) (body : List Byte) : State :=
  let kind := (body.headD 0).toNat
  if kind = 2 ∨ kind = 3 then
    { s with lcd := { s.lcd with marks := (s.lcd.marks.filter fun (p : Nat × List Byte × Nat) => p.1 != k) ++ [(k, (body, s.ts))] } }
  else s

/-- SIGNATURE_DONE (R352, R353): the first record asked for is signed, staged under the next watermark and appended. -/
def execSignatureDone (s : State) : Out := s.onFabric fun s =>
  match s.se.queue with
  | [] => done s
  | r :: rest =>
    if s.canSign then
      let w := s.legal.watermark + 1
      let body := withMark r.body w
      let bytes := body ++ Config.ecdsaSign (s.sl.key.getD 0) s.fresh (Config.sha256 body)
      let x : Staged := ⟨bytes, w, r, false, false⟩
      let s := { s.took with se := { s.se with queue := rest, staged := some x }, legal := { s.legal with watermark := w } }
      done (((s.markEnd w).keepMark r.outlet body).appendStaged x)
    else done s

/-- APPEND_RETRY (R353): every 1 s until the staged record's append succeeds; none after a power-fail warning. -/
def execAppendRetry (s : State) : Out := s.onFabric fun s =>
  match s.se.staged with
  | some x => if s.se.retry ∧ x.delivered = false ∧ s.pf.warned = false then
      done ({ s with se := { s.se with retry := false } }.appendStaged x) else done s
  | none => done s

end Sys2Proof.Machine
end

