-- ==== Sys2Proof/Machine/Calib.lean ====
section
/-! DEFINITION. CAL: temperature bands, shims in jig mode, jig operations, commits and background calibration (07_calibration.md). -/
namespace Sys2Proof.Machine

-- Temperature bands (R224 to R227)

/-- Lower edges of bands 1 to 7 in 1/16 °C (R225). -/
def bandEdge (b : Nat) : Int := [0, -320, 0, 320, 640, 960, 1200, 1440].getD b 0

/-- The band that contains T. -/
def bandOf (t : Int) : Nat := ([1, 2, 3, 4, 5, 6, 7].filter fun b => decide (bandEdge b ≤ t)).length

/-- The decision of R226 from the band decided last. -/
def bandStep (cur : Nat) (t : Int) : Nat :=
  let b := bandOf t
  if b = cur then cur
  else if b = cur + 1 then (if bandEdge b + 16 ≤ t then b else cur)
  else if b + 1 = cur then (if t < bandEdge cur - 16 then b else cur)
  else b

/-- A new filtered temperature from the newest 16 readings (R224). -/
def State.takeTemp (s : State) (reading : Int) : State :=
  let l := (reading :: s.cal.readings).take 16
  let t := divEven (l.foldl (· + ·) 0) l.length
  let s := { s with cal := { s.cal with readings := l } }.putInt F.CAL_TEMP_T t
  let cur := if s.on F.CAL_TEMP_PENDING then s.get F.CAL_TEMP_NEXT else s.get F.CAL_TEMP_BAND
  let b := bandStep cur t
  if b = cur then s
  else { (s.put F.CAL_TEMP_NEXT b).put F.CAL_TEMP_PENDING 1 with cal := { s.cal with decidedAt := s.ts } }

/-- TEMP_MEASUREMENT (R224, R226): a reading in 1/16 °C, each 4 ms. -/
def execTempMeasurement (reading : Int) (s : State) : Out := s.onFabric fun s => done (s.takeTemp reading)

/-- MOD_LAYER_SWITCH (R227): DEC's modulator layer goes to the decided band. -/
def execModLayerSwitch (s : State) : Out := s.onFabric fun s =>
  if s.on F.CAL_TEMP_PENDING then done { s with cal := { s.cal with modBand := s.get F.CAL_TEMP_NEXT } } else done s

-- Shim words (R223, R231, R250)

/-- Does a word lie within the limits of R223? `tbl` and `w` as SHIM_SEL names them. -/
def shimOk (tbl w : Nat) (v : W32) : Bool :=
  let i := v.toInt
  if tbl = 0 then
    if w = 0 then decide (i.natAbs ≤ 335544)
    else if w = 1 then v != 0
    else if w = 2 then decide (i.natAbs ≤ 5000000)
    else decide (v.toNat ≤ 1)
  else if w = 0 ∧ tbl = 1 then decide (i.natAbs ≤ 335544)
  else if w = 1 ∧ tbl = 2 then decide (i.natAbs ≤ 5000000)
  else decide (0x3999999A ≤ v.toNat) && decide (v.toNat ≤ 0x46666666)

/-- The record word that SHIM_SEL selects, if it names one. -/
def State.shimIndex (s : State) : Option Nat :=
  let t := s.get F.CAL_SHIM_SEL_TABLE
  let w := s.get F.CAL_SHIM_SEL_WORD
  let u := s.get F.CAL_SHIM_SEL_UNIT
  let b := s.get F.CAL_SHIM_SEL_BAND
  let r := s.get F.CAL_SHIM_SEL_RANGE
  if t = 0 ∧ u < 64 then some (shimChan u b w)
  else if t = 1 ∧ u < 72 ∧ r < 6 ∧ w < 2 then some (shimMod u r b w)
  else if t = 2 ∧ u < 64 ∧ w < 2 then some (shimRef u w)
  else none

/-- What SHIM_DATA reads (R231). -/
def State.shimData (s : State) : W32 :=
  match s.shimIndex with
  | some i => spRead shimFactory (if s.on F.CAL_SHIM_SEL_SET then s.cal.pend else s.cal.active) i
  | none => 0

def State.pendWord (s : State) (i : Nat) : W32 := spRead shimFactory s.cal.pend i
def State.setPend (s : State) (i : Nat) (v : W32) : State := { s with cal := { s.cal with pend := spWrite shimFactory s.cal.pend i v } }

/-- PENDING_DIRTY: the pending set, CFG or a limit differs from the active set (R234, R253). -/
def State.dirty (s : State) : Bool :=
  s.cal.pend != s.cal.active || (s.reg A.CAL_CFG).toNat != s.cal.actCfg || (s.reg A.CAL_LIM_GAIN).toNat != s.cal.actGain
    || (s.reg A.CAL_LIM_PHASE).toNat != s.cal.actPhase
def State.showDirty (s : State) : State := s.put F.CAL_STATUS_PENDING_DIRTY s.dirty.toNat

/-- A write to SHIM_DATA (R231). -/
def State.writeShim (s : State) (priv : Bool) (v : W32) : State :=
  match firstErr [(!priv, 0x03), (s.shimIndex.isNone || !s.on F.CAL_SHIM_SEL_SET, 0x1E), (!s.on F.CAL_STATUS_JIG, 0x30),
      (!shimOk (s.get F.CAL_SHIM_SEL_TABLE) (s.get F.CAL_SHIM_SEL_WORD) v, 0x33)] with
  | some c => s.err 0x13 c
  | none =>
    let i := s.shimIndex.getD 0
    let s := s.setPend i v
    let s := if s.get F.CAL_SHIM_SEL_TABLE = 0 ∧ s.get F.CAL_SHIM_SEL_WORD < 3 then
        s.setPend (shimChan (s.get F.CAL_SHIM_SEL_UNIT) (s.get F.CAL_SHIM_SEL_BAND) 3) 1 else s
    s.showDirty.bumpSeq 0x13

/-- SHIM_WRITE (R231). -/
def execShimWrite (_req : Req) (priv : Bool) (val : W32) (s : State) : Out := s.onFabric fun s => done (s.writeShim (priv && s.privOpen) val)

/-- The bytes of the record from offset 8 to 36,383 (R250), of which SET_ID is the CRC-32. -/
def recordBody (cfg limGain limPhase : Nat) (words : List (Nat × W32)) : List Byte :=
  le 4 1 ++ List.replicate 8 0 ++ le 4 cfg ++ le 4 limGain ++ le 4 limPhase
    ++ (List.range 9088).flatMap fun i => le 4 (spRead shimFactory words (8 + i)).toNat

/-- SET_ID of a record. -/
def shimId (r : ShimRecord) : Nat := crc32 (recordBody r.cfg r.limGain r.limPhase r.words)

/-- Checks shared by every jig operation: BUSY or a bad operand, then jig mode (R231, R233, R580). -/
def State.jigRefuse (s : State) (bad : Bool) : Option Nat :=
  firstErr [(bad || s.on F.CAL_JIG_STAT_BUSY, 0x1E), (!s.on F.CAL_STATUS_JIG, 0x30)]

/-- A timed operation starts (R232). -/
def State.jigStart (s : State) (op ch refCh cycles : Nat) (volt : Bool) : State :=
  match s.jigRefuse (cycles == 0 || (op == 4 && (decide (cycles < 4096) || decide (64 ≤ s.src ch) || !s.injected ch))) with
  | some c => s.err 0x13 c
  | none =>
    let s := (((s.put F.CAL_JIG_STAT_BUSY 1).put F.CAL_JIG_STAT_OK 0).put F.CAL_JIG_STAT_USED 0).put F.CAL_JIG_STAT_BAND s.band
    { s with cal := { s.cal with jigOp := some { op := op, ch := ch, refCh := refCh, cycles := cycles, volt := volt } } }

/-- JIG_OFFSET, JIG_GAIN, JIG_PHASE and JIG_REF (R232). -/
def execJigOffset (ch : Fin 64) (cycles : Nat) (s : State) : Out := s.onFabric fun s => done (s.jigStart 1 ch 0 cycles false)
def execJigGain (ch : Fin 64) (volt : Bool) (cycles : Nat) (s : State) : Out := s.onFabric fun s => done (s.jigStart 2 ch 0 cycles volt)
def execJigPhase (ch refCh : Fin 64) (cycles : Nat) (s : State) : Out := s.onFabric fun s => done (s.jigStart 3 ch refCh cycles false)
def execJigRef (ch : Fin 64) (cycles : Nat) (s : State) : Out := s.onFabric fun s => done (s.jigStart 4 ch 0 cycles false)

/-- FILL (R232): the latched band's entry goes to every band not CALIBRATED, with CALIBRATED left 0. -/
def State.jigFill (s : State) (ch : Nat) : State :=
  match s.jigRefuse false with
  | some c => s.err 0x13 c
  | none =>
    let b0 := s.band
    let s := s.put F.CAL_JIG_STAT_BAND b0
    let s := (List.range 8).foldl (fun s b =>
      if (s.pendWord (shimChan ch b 3)).toNat % 2 = 1 then s
      else [0, 1, 2].foldl (fun s w => s.setPend (shimChan ch b w) (s.pendWord (shimChan ch b0 w))) s) s
    s.showDirty.jigEnd 5 ch 0 0

def execJigFill (ch : Fin 64) (s : State) : Out := s.onFabric fun s => done (s.jigFill ch)

/-- The pending set, CFG and the limits restored from the active set (R232, R236). -/
def State.restorePend (s : State) : State :=
  let s := { s with cal := { s.cal with pend := s.cal.active } }
  (((s.setReg A.CAL_CFG (BitVec.ofNat 32 s.cal.actCfg)).setReg A.CAL_LIM_GAIN (BitVec.ofNat 32 s.cal.actGain)).setReg A.CAL_LIM_PHASE
    (BitVec.ofNat 32 s.cal.actPhase)).showDirty

/-- DISCARD (R232). -/
def State.jigDiscard (s : State) : State :=
  match s.jigRefuse false with
  | some c => s.err 0x13 c
  | none => (s.put F.CAL_JIG_STAT_BAND s.band).restorePend.jigEnd 7 0 0 0

def execJigDiscard (s : State) : Out := s.onFabric fun s => done s.jigDiscard

/-- COMMIT (R234 steps 1 and 2): the record of the pending set goes to the copy not in use. -/
def State.jigCommit (s : State) : State :=
  match s.jigRefuse (!s.dirty || s.cal.commit.isSome) with
  | some c => s.err 0x13 c
  | none =>
    let r0 : ShimRecord := ⟨((s.reg A.CAL_SET_SEQ).toNat + 1) % 2 ^ 32, 0, (s.reg A.CAL_CFG).toNat, (s.reg A.CAL_LIM_GAIN).toNat,
      (s.reg A.CAL_LIM_PHASE).toNat, s.cal.pend⟩
    let r := { r0 with id := shimId r0 }
    let base := if s.cal.takenB then 128 else 137
    let s := ((s.put F.CAL_JIG_STAT_BUSY 1).put F.CAL_JIG_STAT_OK 0).put F.CAL_JIG_STAT_BAND s.band
    let s := { s with cal := { s.cal with commit := some ⟨1, (s.reg A.CAL_SET_ID).toNat, (s.reg A.CAL_SET_SEQ).toNat, r⟩ } }
    s.pushJob { kind := .shim, ref := none, steps := ((List.range 9).map fun i => .erase (base + i)) ++ [.record base 4549] }

def execJigCommit (s : State) : Out := s.onFabric fun s => done s.jigCommit

/-- PATH_FAULT of a channel clears (R245, R593). -/
def State.clearPath (s : State) (c : Nat) : State :=
  if s.on (bitFld64 A.CAL_FAULT_LO c) then (s.put (bitFld64 A.CAL_FAULT_LO c) 0).faultFrame 0x04 false 0 c noLog else s

def State.bgChan (s : State) (c : Nat) : BgChan := spRead (fun _ => ({} : BgChan)) s.cal.bg c
def State.setBg (s : State) (c : Nat) (x : BgChan) : State :=
  { s with cal := { s.cal with bg := spWrite (fun _ => ({} : BgChan)) s.cal.bg c x } }

/-- Background calibration of a channel restarts (R234). -/
def State.bgRestart (s : State) (c : Nat) : State :=
  let s := ((s.setBg c {}).put (F.CAL_BG_GAIN c) 0x40000000).put (F.CAL_BG_DELAY c) 0
  let s := ((s.put (bitFld64 A.CAL_CONV_LO c) 0).setReg (A.CAL_BG_QUAL_GAIN c) 0).setReg (A.CAL_BG_QUAL_PHASE c) 0
  s.clearPath c

/-- COMMIT_ACTIVATE (R234 step 6): at the next boundary the stored set becomes active in DEC and the lanes. -/
def State.activate (s : State) (c : Commit) : State :=
  let changed := (List.range 64).filter fun ch => [0, 1].any fun w =>
    spRead shimFactory s.cal.active (shimRef ch w) != spRead shimFactory c.record.words (shimRef ch w)
  let s := { s with cal := { s.cal with
    active := c.record.words, live := c.record.words, actCfg := c.record.cfg, actGain := c.record.limGain, actPhase := c.record.limPhase
    commit := none, windowOpen := false } }
  let s := (s.setReg A.CAL_SET_ID (BitVec.ofNat 32 c.record.id)).setReg A.CAL_SET_SEQ (BitVec.ofNat 32 c.record.seq)
  let s := if s.on F.CAL_STATUS_SHIM_OK then s else (s.put F.CAL_STATUS_SHIM_OK 1).faultFrame 0x06 false 0 noUnit noLog
  let s := (changed.foldl State.bgRestart s).showDirty
  let s := (s.irq 0x13 5).report 0x03 (le 4 c.old ++ le 4 c.record.id ++ le 4 c.record.seq ++ le 4 (s.get F.DEC_CYCLE_CNT))
  s.jigEnd 6 0 0 0

def execCommitActivate (s : State) : Out := s.onFabric fun s =>
  match s.cal.commit with
  | some c => if c.step = 5 then done (s.activate c) else done s
  | none => done s

/-- Jig mode ends (R230, R233, R235, R236): a running operation fails; without a completed commit the pending set is restored. -/
def State.leaveJig (s : State) : State :=
  let s := s.put F.CAL_STATUS_JIG 0
  let s := match s.cal.jigOp with
    | some o => s.jigEnd o.op o.ch 0x30 o.gathered
    | none => s
  match s.cal.commit with
  | some c => if c.step = 5 then s else s.restorePend
  | none => s.restorePend

-- Window arithmetic (R240)

/-- The raw samples of channel c's newest cycle paired with those one cycle earlier. -/
def State.rawPairs (s : State) (c : Nat) : List (Raw × Raw) :=
  let l := spRead (fun _ => []) s.ms.raw c
  (l.take 256).zip (l.drop 256)

/-- Tags that make a cycle unusable (R233). -/
def State.cycleTags (s : State) (c off : Nat) : Nat := s.segTags c off 256

/-- The sums of one usable cycle are added. -/
def BgChan.add (b : BgChan) (l : List (Raw × Raw)) : BgChan :=
  l.foldl (fun b p =>
    let d := p.1.x - p.2.x
    let e := p.1.e - p.2.e
    let f := p.1.f - p.2.f
    { b with n := b.n + 1, sde := b.sde + d * e, sdf := b.sdf + d * f, see := b.see + e * e, sff := b.sff + f * f,
             sef := b.sef + e * f, sdd := b.sdd + d * d }) { b with usable := b.usable + 1 }

/-- Is the newest cycle of channel c usable for R240? -/
def State.bgUsable (s : State) (c : Nat) : Bool :=
  let l := s.rawPairs c
  let dd := l.foldl (fun t p => t + (p.1.x - p.2.x) * (p.1.x - p.2.x)) 0
  let lim : Int := s.get F.CAL_CFG_DIFF_MAX * 6710886
  l.length == 256 && s.cycleTags c 0 == 0 && s.cycleTags c 256 == 0 && decide (dd * 1000000 ≤ 256 * lim * lim)
    && !s.ms.stand.contains (s.src c) && !s.ms.standPrev.contains (s.src c)
    && !(decide (s.src c < 64) && (s.group (s.src c / 8)).phase == .retry && (s.group (s.src c / 8)).unit == s.src c)

/-- The estimate of a window: g (30 fraction bits), tau (10 ps), sg (0.01 ppm) and stau (0.01 µrad at f_nom); none where the sums
determine none. -/
structure Estimate where
  g : Nat
  tau : Int
  sg : Nat
  stau : Nat

/-- f_nom in Hz (R240). -/
def State.fNom (s : State) : Nat := if s.tNominal = 0 then 50 else 60

/-- A delay in 10 ps as phase at f_nom in 0.01 µrad. -/
def State.phaseOf (s : State) (d : Int) : Int := divEven (d * 2 * piI * s.fNom) (2 ^ 40 * 1000)

def State.estimate (s : State) (b : BgChan) : Option Estimate :=
  let det := b.see * b.sff - b.sef * b.sef
  let an := b.sde * b.sff - b.sdf * b.sef
  let bn := b.sdf * b.see - b.sde * b.sef
  if det ≤ 0 ∨ an ≤ 0 ∨ b.n ≤ 2 then none
  else
    let vn := (b.sdd * det - an * b.sde - bn * b.sdf).toNat
    let dn := (b.n - 2) * an.toNat * an.toNat
    let st := rootRound (vn * b.see.toNat * 10 ^ 6) dn
    some ⟨(divEven (an * 1000000 * 2 ^ 54) det.toNat).toNat, divEven (-bn) an.toNat, rootRound (vn * b.sff.toNat * 10 ^ 16) dn,
      (divEven ((st : Int) * 2 * piI * s.fNom) (2 ^ 40 * 10 ^ 6)).toNat⟩

-- Jig operations as cycles pass (R232, R233)

/-- A completed cycle in a timed operation: it counts when usable, and its sums are gathered. -/
def State.jigCycle (s : State) : State :=
  match s.cal.jigOp with
  | none => s
  | some o =>
    if !o.begun then { s with cal := { s.cal with jigOp := some { o with begun := true } } }
    else if o.cycles ≤ o.gathered ∨ 4 * o.cycles ≤ o.elapsed then s
    else
      let tags := s.cycleTags o.ch 0 ||| (if o.op = 3 then s.cycleTags o.refCh 0 else 0)
      let o := { o with elapsed := o.elapsed + 1 }
      let usable := tags == 0 && s.enabled 0x13 && (o.op != 4 || s.bgUsable o.ch)
      let o :=
        if !usable then o
        else
          let l := ((spRead (fun _ => []) s.ms.raw o.ch).take 256).map Raw.clean
          let u := dft (vals (s.seg o.refCh 0 256)) 1
          let i := dft (vals (s.seg o.ch 0 256)) 1
          { o with
            gathered := o.gathered + 1
            n := o.n + l.length
            sx := o.sx + l.foldl (· + ·) 0
            sxx := o.sxx + l.foldl (fun t x => t + x * x) 0
            re := if o.op = 3 then o.re + reP u i else o.re
            im := if o.op = 3 then o.im + imP u i else o.im
            sums := if o.op = 4 then o.sums.add (s.rawPairs o.ch) else o.sums }
      let s := { s with cal := { s.cal with jigOp := some o } }
      s.put F.CAL_JIG_STAT_USED (min 0xFFFF o.gathered)

/-- The result of a timed operation: the pending words to write, and JIG_RESULT. -/
def State.jigResult (s : State) (o : JigOp) : List (Nat × W32) × Int :=
  let b := s.get F.CAL_JIG_STAT_BAND
  let ofs := (s.pendWord (shimChan o.ch b 0)).toInt
  let scale := (s.pendWord (shimChan o.ch b 1)).toInt
  let target := (s.reg A.CAL_JIG_TARGET).toInt
  if o.op = 1 then
    let m := divEven o.sx (o.n * 2 ^ 30)
    ([(shimChan o.ch b 0, wordI m)], m)
  else if o.op = 2 then
    let o' := ofs * 2 ^ 30
    let sq := (o.sxx - 2 * o' * o.sx + o.n * o' * o').toNat
    let unit := if o.volt then 1000 else 10000
    let w := if sq = 0 then 0 else rootRound (target.natAbs * target.natAbs * o.n * 2 ^ 140) (unit * unit * sq)
    let v : Int := if (scale < 0) = (target < 0) then w else -(w : Int)
    ([(shimChan o.ch b 1, wordI (if v.natAbs < 2 ^ 31 then v else 0))], rootRound sq (o.n * 2 ^ 60))
  else if o.op = 3 then
    let err := argMicro o.im o.re - target
    let d := divEven (err * 10 ^ 11 * 2 ^ 40) (2 * piI * s.get F.DEC_FREQ_RUN).toNat
    let v := (s.pendWord (shimChan o.ch b 2)).toInt - d
    ([(shimChan o.ch b 2, wordI (if v.natAbs < 2 ^ 31 then v else 0x7FFFFFFF))], err)
  else
    match s.estimate o.sums with
    | some e => ([(shimRef o.ch 0, wordN (min e.g 0xFFFFFFFF)), (shimRef o.ch 1, wordI (if e.tau.natAbs < 2 ^ 31 then e.tau else 0x7FFFFFFF))], e.g)
    | none => ([(shimRef o.ch 0, 0)], 0)

/-- Are the words within R223's limits? -/
def jigWordsOk (op : Nat) (l : List (Nat × W32)) : Bool :=
  if op = 4 then (match l with
    | [a, b] => shimOk 2 0 a.2 && shimOk 2 1 b.2
    | _ => false)
  else l.all fun p => shimOk 0 (op - 1) p.2

/-- JIG_OP_COMPLETE (R232, R233): the operation's cycles are gathered, or 4 × CYCLES have passed. -/
def execJigOpComplete (s : State) : Out := s.onFabric fun s =>
  match s.cal.jigOp with
  | none => done s
  | some o =>
    if o.gathered < o.cycles ∧ o.elapsed < 4 * o.cycles then done s
    else if s.band ≠ s.get F.CAL_JIG_STAT_BAND then done (s.jigEnd o.op o.ch 0x31 o.gathered)
    else if o.gathered < o.cycles then done (s.jigEnd o.op o.ch 0x32 o.gathered)
    else
      let (words, res) := s.jigResult o
      let s := s.setReg A.CAL_JIG_RESULT (wordI res)
      if jigWordsOk o.op words then
        let s := words.foldl (fun s p => s.setPend p.1 p.2) s
        let s := if o.op = 4 then s else s.setPend (shimChan o.ch (s.get F.CAL_JIG_STAT_BAND) 3) 1
        done (s.showDirty.jigEnd o.op o.ch 0 o.gathered)
      else done (s.jigEnd o.op o.ch 0x33 o.gathered)

-- Windows (R240 to R247)

/-- Does background calibration run? -/
def State.bgOn (s : State) : Bool := s.enabled 0x13 && s.on F.CAL_CFG_BG_EN

/-- A window opens: its length is that of CFG, its sums are empty. -/
def State.openWindow (s : State) : State :=
  let len := 1024 * 2 ^ s.get F.CAL_CFG_WINDOW_CODE
  let bg := s.cal.bg.map fun p => (p.1, { p.2 with usable := 0, n := 0, sde := 0, sdf := 0, see := 0, sff := 0, sef := 0, sdd := 0 })
  { s with cal := { s.cal with windowOpen := true, windowLeft := len, windowLen := len, bg := bg.filter fun p => p.2 != ({} : BgChan) } }

/-- A completed cycle in the open window. -/
def State.bgCycle (s : State) : State :=
  if !s.bgOn then { s with cal := { s.cal with windowOpen := false } }
  else if !s.cal.windowOpen then s.openWindow
  else if s.cal.windowLeft = 0 then s
  else
    let s := (List.range 64).foldl (fun s c =>
      if s.ms.live.testBit c && s.injected c && s.bgUsable c then s.setBg c ((s.bgChan c).add (s.rawPairs c)) else s) s
    { s with cal := { s.cal with windowLeft := s.cal.windowLeft - 1 } }

/-- The quality figures of a history (R243): gain in 0.01 ppm, phase in 0.01 µrad; and PASS (R248). -/
def figures (h : List BgCand) : Nat × Nat × Bool :=
  let n := h.length
  let f (g : BgCand → Nat) : Nat := if n = 0 then 0 else rootRound (h.foldl (fun t c => t + g c * g c) 0) (n * n)
  let a := f BgCand.sg
  let b := f BgCand.stau
  (a, b, decide (n ≠ 0) && decide (a ≤ 5000) && decide (b ≤ 2000))

/-- The figures of channel c reach QUAL_GAIN, QUAL_PHASE and CONV (R243, R248). -/
def State.showQual (s : State) (c : Nat) : State :=
  let h := (s.bgChan c).hist
  let (a, b, pass) := figures h
  let hide := s.on F.CAL_CFG_REPORT_MODE
  let s := ((s.put (F.CAL_BG_QUAL_GAIN_FIG c) (if hide then 0 else min a 0xFFFFFF)).put (F.CAL_BG_QUAL_GAIN_N c) h.length).put
    (F.CAL_BG_QUAL_GAIN_PASS c) pass.toNat
  (s.put (F.CAL_BG_QUAL_PHASE_FIG c) (if hide then 0 else min b 0xFFFFFF)).put (bitFld64 A.CAL_CONV_LO c) (decide (h.length = 4)).toNat

/-- The corrections a history gives: the means (R243). -/
def bgMeans (h : List BgCand) : Nat × Int :=
  let n := h.length
  ((divEven ((h.foldl (fun t c => t + c.gain) 0 : Nat) : Int) n).toNat, divEven (h.foldl (fun t c => t + c.delay) 0) n)

/-- Two candidates lie within half the step limits of each other (R244). -/
def State.bgNear (s : State) (a b : BgCand) : Bool :=
  decide ((((a.gain : Int) - b.gain).natAbs) * 2000000 ≤ s.get F.CAL_LIM_GAIN_STEP * b.gain) &&
  decide ((s.phaseOf (a.delay - b.delay)).natAbs ≤ 50 * s.get F.CAL_LIM_PHASE_STEP)

/-- What a window finds on one channel: the verdict code, the two deviations, and the candidate. -/
def State.bgVerdict (s : State) (c : Nat) (void : Bool) : Nat × Int × Int × BgCand :=
  let b := s.bgChan c
  let none' : BgCand := ⟨0, 0, 0, 0⟩
  if void ∨ b.usable * 4 < s.cal.windowLen * 3 then (4, 0, 0, none')
  else match s.estimate b with
    | none => (4, 0, 0, none')
    | some e =>
      let gr := (s.shim (shimRef c 0)).toNat
      let tr := s.shim (shimRef c 1)
      let dg := divEven (((e.g : Int) - gr) * 10 ^ 8) (max gr 1)
      let dp := s.phaseOf (e.tau - tr)
      let cand : BgCand := ⟨(divEven ((gr : Int) * 2 ^ 30) (max e.g 1)).toNat, tr - e.tau, e.sg, e.stau⟩
      let applied : Int := s.get (F.CAL_BG_GAIN c)
      if 10000 < e.sg ∨ 4000 < e.stau then (1, dg, dp, cand)
      else if s.get F.CAL_LIM_GAIN_ABS * 100 < dg.natAbs ∨ s.get F.CAL_LIM_PHASE_ABS * 100 < dp.natAbs then (3, dg, dp, cand)
      else if !b.skipStep && (decide (s.get F.CAL_LIM_GAIN_STEP * applied.toNat < ((cand.gain : Int) - applied).natAbs * 1000000)
          || decide (s.get F.CAL_LIM_PHASE_STEP * 100 < (s.phaseOf (cand.delay - s.getInt (F.CAL_BG_DELAY c))).natAbs)) then (2, dg, dp, cand)
      else (0, dg, dp, cand)

/-- Deviations as a report shows them. -/
def State.dev (s : State) (x : Int) : List Byte := le 4 (if s.on F.CAL_CFG_REPORT_MODE then 0 else unsignedOf 32 x)

/-- A candidate is accepted, with the history that follows (R243, R244). -/
def State.bgAccept (s : State) (c : Nat) (h : List BgCand) : State :=
  let s := s.setBg c { s.bgChan c with hist := h, stepRun := [], absRun := 0, skipStep := false }
  let s := { s with cal := { s.cal with nextGain := (s.cal.nextGain.filter fun p : Nat × (Nat × Int) => p.1 != c) ++ [(c, bgMeans h)] } }
  s.clearPath c

/-- PATH_FAULT on channel c (R245, R593). -/
def State.pathFault (s : State) (c : Nat) (dg dp : Int) : State :=
  if s.on (bitFld64 A.CAL_FAULT_LO c) then s
  else
    let s := (s.put (bitFld64 A.CAL_FAULT_LO c) 1).irq 0x13 2
    let s := s.report 0x04 (le 1 c ++ le 3 0 ++ s.dev dg ++ s.dev dp ++ le 4 (s.get F.DEC_CYCLE_CNT))
    let s := s.log 0x0011 noOutlet (le 1 c ++ le 3 0 ++ s.dev dg ++ s.dev dp)
    s.faultFrame 0x04 true 0 c s.lastLog

/-- One channel at the end of a window. -/
def State.bgJudge (s : State) (void : Bool) (c : Nat) : State :=
  let (code, dg, dp, cand) := s.bgVerdict c void
  let b := s.bgChan c
  let run := (cand :: b.stepRun).take 3
  let stuck := decide (code = 2) && run.length == 3 && (run.all fun x => run.all fun y => s.bgNear x y)
  let s :=
    if code = 0 then s.bgAccept c ((cand :: b.hist).take 4)
    else if stuck then
      ((s.bgAccept c run).irq 0x13 6).report 0x06 (le 1 c ++ le 3 0 ++ s.dev dg ++ s.dev dp ++ le 4 (s.get F.DEC_CYCLE_CNT))
    else if code = 2 then s.setBg c { b with stepRun := run, absRun := 0 }
    else if code = 3 then
      let s := s.setBg c { b with stepRun := [], absRun := b.absRun + 1 }
      if 2 ≤ b.absRun + 1 then s.pathFault c dg dp else s
    else if code = 1 then s.setBg c { b with stepRun := [], absRun := 0 }
    else s.setBg c { b with stepRun := [] }
  let code := if stuck then 0 else code
  let s := if code = 0 ∨ code = 4 then s else (s.incSat F.CAL_WIN_STAT_REJECTS).irq 0x13 1
  let s := s.showQual c
  let conv := s.on (bitFld64 A.CAL_CONV_LO c)
  s.report 0x01 (le 1 c ++ le 1 s.band ++ le 1 code ++ le 1 ((s.get (F.CAL_BG_QUAL_GAIN_PASS c)) + 2 * conv.toNat)
    ++ le 4 (s.get F.CAL_WIN_STAT_COUNT) ++ le 4 b.usable ++ s.dev dg ++ s.dev dp ++ le 4 (s.get (F.CAL_BG_QUAL_GAIN_FIG c))
    ++ le 4 (s.get (F.CAL_BG_QUAL_PHASE_FIG c)) ++ le 4 (s.get F.DEC_CYCLE_CNT))

/-- The background record is couched (R247). -/
def State.couchBg (s : State) : State :=
  let old := if s.cal.bgLastB then s.cal.bgB else s.cal.bgA
  let seq := match old with
    | some r => (r.seq + 1) % 2 ^ 32
    | none => 1
  let gains := (List.range 64).flatMap fun c => [(A.CAL_BG_GAIN c, s.reg (A.CAL_BG_GAIN c)), (A.CAL_BG_DELAY c, s.reg (A.CAL_BG_DELAY c))]
  let r : BgRecord := ⟨seq, (s.reg A.CAL_SET_ID).toNat, s.cal.bg, gains⟩
  if s.cal.bgLastB then { s with cal := { s.cal with bgA := some r, bgLastB := false } }
  else { s with cal := { s.cal with bgB := some r, bgLastB := true } }

/-- A window ends with one verdict per channel (R241), and the next one opens. -/
def State.endWindow (s : State) (void : Bool) : State :=
  let s := (s.inc F.CAL_WIN_STAT_COUNT).irq 0x13 0
  let s := ((List.range 64).foldl (fun s c => s.bgJudge void c) s).couchBg
  if void then { s with cal := { s.cal with windowOpen := false } } else s.openWindow

/-- BG_WINDOW_END (R241 to R247): the window's cycles have passed. -/
def execBgWindowEnd (s : State) : Out := s.onFabric fun s =>
  if s.cal.windowOpen ∧ s.cal.windowLeft = 0 then done (s.endWindow false) else done s

-- At a cycle boundary

/-- The decided band takes effect at the first boundary at least 2.0 ms after the decision (R227). -/
def State.bandBoundary (s : State) : State :=
  if s.on F.CAL_TEMP_PENDING ∧ 2 * 32768 ≤ (s.ts - s.cal.decidedAt) * 1000 then
    let old := s.band
    let new := s.get F.CAL_TEMP_NEXT
    let s := ((s.put F.CAL_TEMP_BAND new).put F.CAL_TEMP_PENDING 0)
    let s := { s with cal := { s.cal with modBand := new } }
    if old = new then s
    else
      let s := (s.irq 0x13 3).report 0x02 (le 1 old ++ le 1 new ++ le 2 (s.get F.CAL_TEMP_T) ++ le 4 (s.get F.DEC_CYCLE_CNT) ++ le 8 0)
      if s.cal.windowOpen then s.endWindow true else s
  else s

/-- CAL at a cycle boundary: the completed cycle's sums, corrections due, the band, and the set in force (R227, R229, R230, R243). -/
def State.calBoundary (s : State) : State :=
  let s := s.jigCycle.bgCycle
  let s := { s with ms := { s.ms with standPrev := s.ms.stand, stand := [] } }
  let s := s.cal.nextGain.foldl (fun s p => (s.put (F.CAL_BG_GAIN p.1) p.2.1).putInt (F.CAL_BG_DELAY p.1) p.2.2) s
  let s := { s with cal := { s.cal with nextGain := [] } }
  let s := s.bandBoundary
  let jig := s.on F.CAL_STATUS_JIG
  { s with cal := { s.cal with live := if jig then s.cal.pend else s.cal.active, noLegal := jig } }

/-- A soft reset of CAL beside its registers (R254): the running operation aborts, the pending set, CFG and limits return, windows end void;
the registers of the active set, the band and the corrections stay. -/
def State.resetCal (s : State) : State :=
  let s := match s.cal.jigOp with
    | some o => s.jigEnd o.op o.ch 0x30 o.gathered
    | none => s
  let s := match s.cal.commit with
    | some c => if c.step = 5 then s else
        let s := s.cutCopy
        ({ s with nv := { s.nv with jobs := s.nv.jobs.filter fun j => j.kind != JobKind.shim } }).commitFailed
    | none => s
  let s := if s.cal.windowOpen then s.endWindow true else s
  let s := s.restorePend
  (((s.setReg A.CAL_JIG_CMD 0).setReg A.CAL_JIG_TARGET 0).setReg A.CAL_JIG_STAT 0).setReg A.CAL_JIG_RESULT 0

/-- CAL at a start (R226, R247, R251): the record taken, the band that contains T, and the background record that matches it. -/
def State.calStart (s : State) (temp : Int) : State :=
  let pick (a b : Option ShimRecord) : Option (ShimRecord × Bool) := match a, b with
    | some x, some y => some (if (y.seq + 2 ^ 32 - x.seq) % 2 ^ 32 < 2 ^ 31 ∧ x.seq ≠ y.seq then (y, true) else (x, false))
    | some x, none => some (x, false)
    | none, some y => some (y, true)
    | none, none => none
  let b := bandOf temp
  let s := ((s.putInt F.CAL_TEMP_T temp).put F.CAL_TEMP_BAND b).put F.CAL_TEMP_NEXT b
  let s := { s with cal := { s.cal with readings := [temp], modBand := b, windowOpen := false, jigOp := none, commit := none, nextGain := [],
                                        noLegal := false, bg := [] } }
  match pick s.cal.recA s.cal.recB with
  | none => s.put F.CAL_STATUS_SHIM_OK 0
  | some (r, isB) =>
    let id := shimId r
    let s := { s with cal := { s.cal with takenB := isB, active := r.words, pend := r.words, live := r.words, actCfg := r.cfg,
                                          actGain := r.limGain, actPhase := r.limPhase } }
    let s := ((s.setReg A.CAL_SET_ID (BitVec.ofNat 32 id)).setReg A.CAL_SET_SEQ (BitVec.ofNat 32 r.seq)).put F.CAL_STATUS_SHIM_OK 1
    let s := s.restorePend
    let bg (x : Option BgRecord) : Option BgRecord := match x with
      | some r => if r.setId = id then some r else none
      | none => none
    let rec? := match bg s.cal.bgA, bg s.cal.bgB with
      | some x, some y => some (if (y.seq + 2 ^ 32 - x.seq) % 2 ^ 32 < 2 ^ 31 ∧ x.seq ≠ y.seq then (y, true) else (x, false))
      | some x, none => some (x, false)
      | none, some y => some (y, true)
      | none, none => none
    match rec? with
    | none => s
    | some (r, isB) =>
      let s := { s with cal := { s.cal with bg := r.chans, bgLastB := isB } }
      (List.range 64).foldl State.showQual (r.gains.foldl (fun s p => s.setReg p.1 p.2) s)

end Sys2Proof.Machine
end

