-- ==== Sys2Proof/Machine/Quality.lean ====
section
/-! DEFINITION. PQE: half-cycle values, events, their records, and waveform capture (08_power_quality.md). -/
namespace Sys2Proof.Machine

/-- The group delay of R118 in units of 1/32,768 s: 1,772.827 µs. -/
def pinDelay : Nat := 58

def State.pqIrq (s : State) (b : Nat) : State := s.irq 0x14 b

-- Capture: the trigger (R265 to R267)

def State.capState (s : State) : Nat := s.get F.PQE_CAP_STAT_STATE
def State.capNch (s : State) : Nat := 2 ^ s.get F.PQE_CAP_CFG_NCH_CODE
def State.capCh (s : State) (i : Nat) : Nat :=
  getBits (s.reg (if i < 4 then A.PQE_CAP_CH_LO else A.PQE_CAP_CH_HI)) (8 * (i % 4)) 6

/-- The offset in system SRAM of a cycle of slot i (R265): its place among the slot's cycles is the model's (log entry 20). -/
def State.capAddr (s : State) (i cycle : Nat) : Nat := 0x40000 + i * (0x20000 / s.capNch) + 1024 * (cycle % (128 / s.capNch))

/-- A trigger (R267); the CAPTURE_ID it gives, 0xFFFF for none. `ev` is the EVENT_ID it comes from. -/
def State.capTrigger (s : State) (ev : Nat) : State × Nat :=
  if !s.enabled 0x14 then (s, 0xFFFF)
  else if s.capState = 1 then
    if s.pf.warned then (s, 0xFFFF)
    else
      let id := s.pq.nextId
      (({ s with pq := { s.pq with trig := s.get F.DEC_CYCLE_CNT, nextId := (id + 1) % 65536 } }.put F.PQE_CAP_STAT_STATE 2).put
        F.PQE_CAP_STAT_LAST_ID id, id)
  else if s.capState = 2 then (s, s.get F.PQE_CAP_STAT_LAST_ID)
  else if s.capState = 3 then
    (((s.incSat F.PQE_CAP_COUNT_MISSED).pqIrq 5).emit 39 0x04 none 0 (le 4 ev ++ le 4 (s.get F.DEC_CYCLE_CNT)), 0xFFFF)
  else (s, 0xFFFF)

/-- A residual trip triggers a capture under TRIG bit 28 (R267, R333). -/
def State.capTrip (s : State) : State :=
  if (s.get F.PQE_CAP_CFG_TRIG).testBit 4 then (s.capTrigger 0xFFFFFFFF).1 else s

-- Records (R262, R263)

def PqEvent.head (e : PqEvent) : List Byte := le 1 e.kind ++ le 1 e.feeder ++ le 1 e.phases ++ le 1 e.flags ++ le 4 e.id ++ le 8 e.t0

/-- START: the fields after T_START read zero (R262), but U_EXT holds the value of the start instant (R263; log entry 21). -/
def PqEvent.startRecord (e : PqEvent) : List Byte := e.head ++ le 8 0 ++ le 4 0 ++ le 4 e.ext ++ le 16 0

def PqEvent.endRecord (e : PqEvent) (t hc : Nat) : List Byte :=
  e.head ++ le 4 e.cycle ++ le 1 e.half ++ le 1 e.phase ++ le 2 e.capture ++ le 4 e.udin ++ le 4 e.ext
    ++ le 8 t ++ le 4 hc ++ le 4 (divEven (((t : Int) - e.t0) * 1000) 32768).toNat

def actF (f kind : Nat) : Fld := ⟨A.PQE_FEEDER_CFG f, 7 + kind, 1⟩

/-- An event ends: at the instant numbered `inst` with time `t`, with the flags `fl` added. -/
def State.pqEnd (s : State) (e : PqEvent) (inst t fl : Nat) : State :=
  let (s, cap) := if (s.get F.PQE_CAP_CFG_TRIG).testBit 3 then s.capTrigger e.id else (s, 0xFFFF)
  let cap := if e.capture ≠ 0xFFFF then e.capture else cap
  let e' := { e with flags := e.flags ||| fl ||| (if cap ≠ 0xFFFF then 64 else 0), capture := cap }
  let hc := (inst + 2 ^ 32 - (2 * e.cycle + e.half) % 2 ^ 32) % 2 ^ 32
  let s := { s with pq := { s.pq with events := s.pq.events.filter fun x => x.id != e.id } }
  ((s.put (actF e.feeder e.kind) 0).pqIrq 3).emit 39 0x02 none 0 (e'.endRecord t hc)

/-- Every open event of the feeders chosen ends with a flag (R257, R264). -/
def State.pqCloseAll (s : State) (f? : Option Nat) (inst t fl : Nat) : State :=
  (s.pq.events.filter fun e => f?.all (· == e.feeder)).foldl (fun s e => s.pqEnd e inst t fl) s

/-- An event starts. -/
def State.pqStart (s : State) (kind f phases phase ext fl inst t : Nat) : State :=
  let id := s.get F.PQE_EVENT_ID_NEXT
  let (s, cap) := if (s.get F.PQE_CAP_CFG_TRIG).testBit (kind - 1) then s.capTrigger id else (s, 0xFFFF)
  let e : PqEvent := ⟨kind, f, phases, fl ||| (if cap ≠ 0xFFFF then 64 else 0), id, t, inst / 2 % 2 ^ 32, inst % 2, phase, ext,
    s.get (F.PQE_FEEDER_UDIN_MV f), cap⟩
  let s := { s with pq := { s.pq with events := s.pq.events ++ [e] } }
  let s := ((s.put (actF f kind) 1).inc F.PQE_EVENT_ID_NEXT).incSat
    (if kind = 1 then F.PQE_FEEDER_CNT_SS_SAG f else if kind = 2 then F.PQE_FEEDER_CNT_SS_SWELL f else F.PQE_FEEDER_CNT_INTR_INTR f)
  (s.pqIrq (kind - 1)).emit 39 0x01 none 0 e.startRecord

-- Values (R255, R256)

/-- A threshold in mV (R258). -/
def State.pqTh (s : State) (f th : Nat) : Nat := (divEven ((s.get (F.PQE_FEEDER_UDIN_MV f) * th : Nat) : Int) 1000).toNat

/-- The value of phase p of feeder f in mV with its tags; none where its channel stands or its lane is uncovered. -/
def State.pqValue (s : State) (f p : Nat) : Option (Nat × Nat) :=
  let c := 48 + 3 * f + p
  if s.ms.live.testBit c && s.enabled 0x12 && (s.carrier (c / 4)).isSome then
    let v := (vals (s.seg c 0 256)).foldl (fun t x => t + (x * x).toNat) 0
    some (satU 0xFFFFFFFF (rootRound (v * 10 ^ 6) (256 * 2 ^ 32)), s.segTags c 0 256)
  else none

def uF (f p : Nat) : Nat := if p = 0 then A.PQE_FEEDER_U1 f else if p = 1 then A.PQE_FEEDER_U2 f else A.PQE_FEEDER_U3 f

/-- The extreme among values: of the lowest, or of the highest; the lower phase number on a tie (R261). -/
def extreme (low : Bool) : List (Nat × Nat) → Nat × Nat
  | [] => (0, 0)
  | [x] => x
  | x :: l => let y := extreme low l; if (if low then x.2 ≤ y.2 else y.2 ≤ x.2) then x else y

/-- FLAGS that tags give: UNLOCKED bit 0, INVALID bit 1, CLIPPED bit 2 (swell only), BRIDGED bit 3. -/
def pqFlags (tags kind : Nat) : Nat :=
  (if tags.testBit 2 then 1 else 0) + (if tags.testBit 4 && kind == 2 then 4 else 0) + (if tags.testBit 5 then 8 else 0)

/-- One kind of event of a feeder at an instant (R259): `vs` are the phases evaluated, `all` says that every enabled phase is among
them; an open event ends only where its end is told by evaluated phases (R256, log entry 21). -/
def State.pqJudge (s : State) (f inst t : Nat) (vs : List (Nat × Nat)) (all : Bool) (tags : Nat) (inval : Bool) (kind : Nat) : State :=
  let sag := s.pqTh f (s.get F.PQE_TH_SAG_SWELL_SAG)
  let swell := s.pqTh f (s.get F.PQE_TH_SAG_SWELL_SWELL)
  let intr := s.pqTh f (s.get F.PQE_TH_INTR_HYST_INTR)
  let hyst := s.pqTh f (s.get F.PQE_TH_INTR_HYST_HYST)
  let low := kind != 2
  let beyond (u : Nat) : Bool := if kind = 1 then decide (u < sag) else if kind = 2 then decide (swell < u) else decide (u < intr)
  let back (u : Nat) : Bool :=
    if kind = 1 then decide (sag + hyst ≤ u) else if kind = 2 then decide (u + hyst ≤ swell) else decide (intr + hyst ≤ u)
  match s.pq.events.find? fun e => e.feeder == f && e.kind == kind with
  | some e =>
    let (p, u) := extreme low (if vs = [] then [(e.phase, e.ext)] else vs)
    let better := if low then decide (u < e.ext) || (u == e.ext && decide (p < e.phase))
      else decide (e.ext < u) || (u == e.ext && decide (p < e.phase))
    let fl := e.flags ||| pqFlags tags kind ||| (if inval then 2 else 0)
    let e' := if better then { e with ext := u, phase := p, flags := fl } else { e with flags := fl }
    let s := { s with pq := { s.pq with events := s.pq.events.map fun x => if x.id == e.id then e' else x } }
    let ends := if kind = 3 then vs.any fun v => back v.2 else all && vs.all fun v => back v.2
    if ends then s.pqEnd e' inst t 0 else s
  | none =>
    let hit := vs.filter fun v => beyond v.2
    let starts := if kind = 3 then all && hit.length == vs.length && vs != [] else hit != []
    if starts then
      let (p, u) := extreme low vs
      let s := s.pqStart kind f (hit.foldl (fun m v => m ||| 2 ^ v.1) 0) p u (pqFlags tags kind) inst t
      if kind = 3 then
        { s with pq := { s.pq with events := s.pq.events.map fun x => if x.feeder == f && x.kind == 1 then { x with flags := x.flags ||| 128 } else x } }
      else s
    else s

/-- A feeder at an instant (R255 to R259). -/
def State.pqFeeder (s : State) (inst t f : Nat) : State :=
  if !(s.get F.PQE_CFG_FEEDER_EN).testBit f then s
  else
    let phs := [0, 1, 2].filter fun p => (s.get (F.PQE_FEEDER_CFG_PH_EN f)).testBit p
    let vals := phs.filterMap fun p => (s.pqValue f p).map fun v => (p, v)
    let s := (s.setReg (A.PQE_FEEDER_LAST f) (wordN inst))
    let s := vals.foldl (fun s v => s.setReg (uF f v.1) (wordN v.2.1)) s
    let miss (s : State) (p : Nat) : Nat := spRead (fun _ => 0) s.pq.miss (3 * f + p)
    let s := phs.foldl (fun s p =>
      let n := if vals.any fun v => v.1 == p then 0 else min 4 (miss s p + 1)
      { s with pq := { s.pq with miss := spWrite (fun _ => 0) s.pq.miss (3 * f + p) n } }) s
    let gone := phs.filter fun p => decide (4 ≤ miss s p)
    let good := vals.filter fun v => !(v.2.2.testBit 1 || v.2.2.testBit 3)
    let all := good.length == phs.length && phs != []
    let lost := s.on (F.PQE_FEEDER_CFG_LOST f)
    if gone ≠ [] ∧ !lost then
      (((s.pqCloseAll (some f) inst t 32).put (F.PQE_FEEDER_CFG_LOST f) 1).pqIrq 6).emit 39 0x05 none 0
        (le 1 f ++ le 1 (gone.foldl (fun m p => m ||| 2 ^ p) 0) ++ le 2 0 ++ le 4 (s.get F.DEC_CYCLE_CNT))
    else if lost && !all then s
    else
      let s := s.put (F.PQE_FEEDER_CFG_LOST f) 0
      let inval := vals.any fun v => v.2.2.testBit 3
      let tags := good.foldl (fun m v => m ||| v.2.2) 0
      [1, 2, 3].foldl (fun s kind => s.pqJudge f inst t (good.map fun v => (v.1, v.2.1)) all tags inval kind) s

/-- PQE_INSTANT (R255, R259, R264): the sample just delivered has index 0 or 128, and its instant has not been evaluated. -/
def execPqeInstant (s : State) : Out := s.onFabric fun s =>
  if s.enabled 0x14 ∧ s.enabled 0x11 ∧ s.ms.idx % 128 = 1 ∧ s.pq.last ≠ s.mt.total then
    let inst := (2 * s.get F.DEC_CYCLE_CNT + s.ms.idx / 128) % 2 ^ 32
    let t := s.ts - pinDelay
    let s := { s with pq := { s.pq with last := s.mt.total, lastT := t } }
    if s.pf.warned then done (s.pqCloseAll none inst t 16)
    else done ((List.range 4).foldl (fun s f => s.pqFeeder inst t f) s)
  else done s

-- Capture: the history and its delivery (R265 to R269)

/-- A sample of every named channel enters the history. -/
def State.capSample (s : State) : State :=
  if s.enabled 0x14 && (s.capState == 1 || s.capState == 2) && !s.pf.warned then
    let s := if s.ms.idx = 1 then { s with pq := { s.pq with t0 := s.ts - pinDelay } } else s
    (List.range s.capNch).foldl (fun s i =>
      let c := s.capCh i
      if s.ms.live.testBit c then
        let v : Hist := (s.histOf c).headD {}
        s.sramPut (s.capAddr i (s.get F.DEC_CYCLE_CNT) + 4 * (s.ms.idx - 1)) (le 4 (unsignedOf 32 v.val))
      else s) s
  else s

/-- A line cycle has been completed: the history holds it, and an armed unit begins to fill. -/
def State.capBoundary (s : State) : State :=
  if !s.enabled 0x14 then s
  else
    let s := if (s.capState = 1 ∨ s.capState = 2) ∧ s.pf.warned = false then
        let cyc := s.get F.DEC_CYCLE_CNT
        let tags := (List.range s.capNch).map fun i =>
          let c := s.capCh i
          if s.ms.live.testBit c ∧ 256 ≤ (s.histOf c).length then s.segTags c 0 256 / 2 % 32 else 32
        let cs := s.pq.cycles ++ [⟨cyc, s.get F.DEC_INCR, s.pq.t0, tags⟩]
        let cs := cs.drop (cs.length - 128 / s.capNch)
        ({ s with pq := { s.pq with cycles := cs } }).put F.PQE_CAP_STAT_FILLED cs.length
      else s
    if s.pq.fillNext then
      ({ s with pq := { s.pq with fillNext := false, cycles := [] } }.put F.PQE_CAP_STAT_STATE 1).put F.PQE_CAP_STAT_FILLED 0
    else s

/-- The unit's history is released; it fills again while ARM is 1. -/
def State.capRelease (s : State) : State :=
  ({ s with pq := { s.pq with fillNext := s.on F.PQE_CAP_CTRL_ARM, cycles := [], slot := 0, pos := 0 } }.put F.PQE_CAP_STAT_STATE 0).put
    F.PQE_CAP_STAT_FILLED 0

/-- CAP_CTRL.ARM is written. -/
def State.capArm (s : State) (arm : Bool) : State :=
  let old := s.on F.PQE_CAP_CTRL_ARM
  let s := s.put F.PQE_CAP_CTRL_ARM arm.toNat
  if arm = old then s
  else if arm then (if s.capState = 0 then s.capRelease else s)
  else if s.capState ≤ 1 then { s.capRelease with pq := { s.capRelease.pq with fillNext := false } }
  else s

def State.capForce (s : State) : State := (s.capTrigger 0xFFFFFFFF).1
def State.capAbort (s : State) : State := if s.capState = 3 then s.capRelease else s

/-- CAPTURE_ARM, CAPTURE_FORCE and CAPTURE_ABORT: the writes to CAP_CTRL. -/
def execCaptureArm (arm : Bool) (s : State) : Out := s.onFabric fun s => done ((s.capArm arm).bumpSeq 0x14)
def execCaptureForce (s : State) : Out := s.onFabric fun s => done (s.capForce.bumpSeq 0x14)
def execCaptureAbort (s : State) : Out := s.onFabric fun s => done (s.capAbort.bumpSeq 0x14)

/-- CAPTURE_DELIVER_START (R268): the last post-trigger cycle is complete. -/
def execCaptureDeliverStart (s : State) : Out := s.onFabric fun s =>
  let passed := (s.get F.DEC_CYCLE_CNT + 2 ^ 32 - s.pq.trig) % 2 ^ 32
  if s.capState = 2 ∧ s.get F.PQE_CAP_CFG_POST ≤ passed then
    done (({ s with pq := { s.pq with slot := 0, pos := 0 } }).put F.PQE_CAP_STAT_STATE 3)
  else done s

/-- The frame that holds `n` cycles of slot `i` from position `pos` of the capture (R269). -/
def State.capPayload (s : State) (i pos n : Nat) : List Byte :=
  let pre := s.get F.PQE_CAP_CFG_PRE
  let total := pre + s.get F.PQE_CAP_CFG_POST
  let cyc (j : Nat) : Nat := (s.pq.trig + 2 ^ 32 + pos + j - pre) % 2 ^ 32
  let held (j : Nat) : Option CapCycle :=
    (s.pq.cycles.find? fun c => c.cycle == cyc j).bind fun c => if (c.tags.getD i 32).testBit 5 then none else some c
  let per {β : Type} (d : β) (g : CapCycle → β) (j : Nat) : β := match held j with
    | some c => g c
    | none => d
  le 2 (s.get F.PQE_CAP_STAT_LAST_ID) ++ le 1 (s.capCh i) ++ le 1 i ++ le 2 (unsignedOf 16 ((pos : Int) - pre)) ++ le 1 n
    ++ le 1 (decide (pos + n = total)).toNat ++ le 4 s.pq.trig ++ le 4 (cyc 0) ++ le 8 (per 0 CapCycle.t0 0)
    ++ ([0, 1, 2].flatMap fun j => le 4 (if j < n then per 0 CapCycle.incr j else 0))
    ++ ([0, 1, 2].flatMap fun j => le 1 (if j < n then per 32 (fun c => c.tags.getD i 32) j else 0)) ++ le 1 0
    ++ (List.range n).flatMap fun j => match held j with
      | some c => s.sramBytes (s.capAddr i c.cycle) 1024
      | none => List.replicate 1024 0

/-- CAPTURE_FRAME (R268): the next frame enters its ring once it has a free slot. -/
def execCaptureFrame (s : State) : Out := s.onFabric fun s =>
  let i := s.pq.slot
  let e := 40 + i % 4
  let total := s.get F.PQE_CAP_CFG_PRE + s.get F.PQE_CAP_CFG_POST
  let n := min (min 3 ((s.slotSize e - 60) / 1024)) (total - s.pq.pos)
  if s.enabled 0x14 ∧ s.capState = 3 ∧ 0 < n ∧ (s.ring e).lost = 0 ∧ (s.ring e).room (s.slots e) = true then
    let s := s.emit e 0x10 none 0 (s.capPayload i s.pq.pos n)
    let pos := s.pq.pos + n
    if pos < total then done { s with pq := { s.pq with pos := pos } }
    else if i + 1 < s.capNch then done { s with pq := { s.pq with pos := 0, slot := i + 1 } }
    else
      let s := ((s.incSat F.PQE_CAP_COUNT_DONE).pqIrq 4).emit 39 0x03 none 0
        (le 2 (s.get F.PQE_CAP_STAT_LAST_ID) ++ le 1 s.capNch ++ le 1 0 ++ le 4 s.pq.trig)
      done s.capRelease
  else done s

/-- CTRL.ENABLE of PQE is set, or bits of FEEDER_EN: their counts begin anew (R270). -/
def State.pqCounts (s : State) (mask : Nat) : State :=
  (List.range 4).foldl (fun s f => if mask.testBit f then (s.setReg (A.PQE_FEEDER_CNT_SS f) 0).setReg (A.PQE_FEEDER_CNT_INTR f) 0 else s) s

/-- A soft reset of PQE beside its registers (R264, R271). -/
def State.resetPqe (s : State) : State :=
  let s := (List.range 4).foldl (fun s f => s.pqCloseAll (some f) (s.reg (A.PQE_FEEDER_LAST f)).toNat s.pq.lastT 32) s
  { s with pq := { s.pq with events := [], miss := [], cycles := [], fillNext := false, slot := 0, pos := 0 } }

end Sys2Proof.Machine
end

