-- ==== Sys2Proof/Machine/Residual.lean ====
section
/-! DEFINITION. RCM: evaluation of the residual tap, the trip path, the self-test, protective earth and readiness
(10_residual_current_earth.md). -/
namespace Sys2Proof.Machine

-- Start counters (R560)

def State.startCnt (s : State) : StartCnt :=
  ⟨s.get F.SYS_START_CNT_FAILS, s.on F.SYS_START_CNT_RELEASE, s.on F.SYS_START_CNT_PATH, s.get F.SYS_START_CNT_PATH_MASK,
    (s.reg A.SYS_FALLBACK_CAUSE).toNat / 256⟩

/-- The registers show counters. -/
def State.showCnt (s : State) (c : StartCnt) : State :=
  ((((s.put F.SYS_START_CNT_FAILS c.fails).put F.SYS_START_CNT_RELEASE c.release.toNat).put F.SYS_START_CNT_PATH c.path.toNat).put
    F.SYS_START_CNT_PATH_MASK c.mask).put ⟨A.SYS_FALLBACK_CAUSE, 8, 24⟩ c.hist

/-- The counters are written, in both copies while the fabric clock runs. -/
def State.writeCnt (s : State) (c : StartCnt) (fabric : Bool) : State :=
  { s.showCnt c with boot := { s.boot with bk := some c, felt := if fabric then some c else s.boot.felt } }

-- Values of an outlet

def State.rcmOn (s : State) (k : Nat) : Bool := s.enabled 0x17 && (s.get F.RCM_OUT_EN_EN).testBit k
def State.rcmLive (s : State) (k : Nat) : Bool := s.ms.live.testBit (4 * k + 3)

/-- Samples of the DC and of the AC window (R319). -/
def State.nDc (s : State) : Nat := max 1 (divEven 16000000000 (s.get F.DEC_FREQ_RUN)).toNat
def State.nAc (s : State) : Nat := max 1 (divEven 8000000000 (s.get F.DEC_FREQ_RUN)).toNat

def State.rowEn (s : State) (n : Nat) : Bool := s.on (F.RCM_ROW_A_EN n)
def State.rowLevel (s : State) (n : Nat) : Nat := s.get (F.RCM_ROW_A_LEVEL n)

/-- |DC| or AC of the last evaluation, as row n compares it (R322). -/
def State.rowVal (s : State) (k n : Nat) : Nat :=
  if s.on (F.RCM_ROW_A_KIND n) then s.get (F.RCM_AC_UA k) else (s.getInt (F.RCM_DC_UA k)).natAbs

/-- DC and AC lie below half of every enabled row's LEVEL of their kind (R328, R332). -/
def State.calmNow (s : State) (k : Nat) : Bool :=
  (List.range 8).all fun n => !s.rowEn n || decide (2 * s.rowVal k n < s.rowLevel n)

-- Events (R333)

/-- An RCM event on ring 3 + k. Offset 24 holds a row's LEVEL or a code; where there is neither it is a free value (log entry 22). -/
def State.rcmEvent (s : State) (k typ b0 row : Nat) (level : Option Nat) : State :=
  let (v, s) := match level with
    | some v => (v, s)
    | none => (s.free, s.took)
  s.emit (3 + k) typ none 0 (le 1 b0 ++ le 1 row ++ le 2 0 ++ le 4 (s.get (F.BAYK_OEPOCH k)) ++ le 8 s.ts
    ++ le 4 (s.get (F.RCM_DC_UA k)) ++ le 4 (s.get (F.RCM_AC_UA k)) ++ le 4 v ++ le 4 (s.get F.DEC_CYCLE_CNT))

-- Readiness (R332)

/-- Every condition of R332 but that on the latch. -/
def State.rcmFit (s : State) (k : Nat) : Bool :=
  s.rcmOn k && s.on (F.RCM_STAT_SETTLED k) && !s.on (F.RCM_STAT_INVALID k) && (s.rc k).test.isNone && (s.rc k).lastOk
    && s.testFresh k && !(s.on (F.RCM_PE_WIN_PE_EN k) && s.on (F.RCM_STAT_PE_FAULT k)) && s.calmNow k

/-- READY follows the conditions, with an event on a change of readiness. -/
def State.showReady (s : State) (k : Nat) : State :=
  let fit := s.rcmFit k
  let ok := fit && !s.latched k
  let was := s.on (bitFld A.RCM_READY k)
  let s := ((s.put (bitFld A.RCM_READY k) ok.toNat).put (bitFld A.RCM_READY (16 + k)) (fit && (s.rc k).postOk).toNat).put
    (F.RCM_STAT_ST_DUE k) (!s.testFresh k).toNat
  if ok = was then s else (s.irq 0x17 3).rcmEvent k 0x53 ok.toNat 0xFF none

-- The trip path (R325, R333)

/-- A decision of outlet k. With the latch already set it changes nothing (log entry 23). -/
def State.trip (s : State) (k cause : Nat) (row : Option Nat) (val : Option Int) (level : Option Nat) : State :=
  if s.latched k then s
  else
    let (r, s) := match row with
      | some r => (r, s)
      | none => (s.free, s.took)
    let (v, s) := match val with
      | some v => (v, s)
      | none => ((s.free : Int), s.took)
    let s := s.put (bitFld A.RCM_LATCH k) 1
    let s := (((s.put (F.RCM_TRIP_INFO_CAUSE k) cause).put (F.RCM_TRIP_INFO_ROW k) r).incSat (F.RCM_TRIP_INFO_COUNT k)).putInt
      (F.RCM_TRIP_VAL_UA k) v
    let s := (s.setReg64 (A.RCM_TRIP_TS_LO k) s.ts).irq 0x17 0
    let before := (s.markLost (3 + k)).ring (3 + k) |>.next
    let s := s.rcmEvent k 0x50 cause (row.getD 0xFF) level
    let s := s.setOutlet k { s.outlet k with tripSeq := s.seqSince (3 + k) before, tripDue := true, lowTs := if s.driven k then s.ts else (s.outlet k).lowTs }
    let s := s.setRc k { s.rc k with postDue := true, postOk := false, calm := 0 }
    (s.showHolds.capTrip).showReady k

/-- PATH_FAULT of outlet k (R325, R560, R593). -/
def State.pathFaultRcm (s : State) (k : Nat) : State :=
  let s := ((s.irq 0x17 4).rcmEvent k 0x55 0 0xFF none).faultFrame 0x09 true 0 k noLog
  let c := s.startCnt
  s.writeCnt { c with path := true, mask := setBit c.mask k true } true

/-- The latch is released at an accepted RESET_FAULT (R327). -/
def State.rcmRelease (s : State) (k : Nat) : State :=
  let s := s.put (bitFld A.RCM_LATCH k) 0
  let s := s.setRc k { s.rc k with cnt := List.replicate 8 0, postOk := false, postDue := false, calm := 0 }
  ((s.rcmEvent k 0x54 0 0xFF none).showHolds).showReady k

-- Self-test (R328 to R330)

/-- A test may run now. -/
def State.testOk (s : State) (k : Nat) : Bool :=
  s.rcmOn k && s.rcmLive k && !s.outHigh k && s.on (F.RCM_STAT_SETTLED k) && !s.on (F.RCM_STAT_INVALID k) && (s.rc k).test.isNone
    && !s.pf.warned && !s.boot.bench

/-- A test starts. -/
def State.testStart (s : State) (k : Nat) : State :=
  ((s.setRc k { s.rc k with test := some {}, auto := false, tw := 0 }).put (F.RCM_STAT_ST_BUSY k) 1).showReady k

/-- A test ends with a result: 1 pass, 2 DC, 3 AC, 4 trip path, 5 void, 6 abandoned. -/
def State.testEnd (s : State) (k r : Nat) : State :=
  let x := s.rc k
  let s := s.setRc k { x with test := none, tw := 0, testLatch := false, lastOk := r == 1, postOk := x.postOk || (r == 1 && s.latched k) }
  let s := (s.put (F.RCM_STAT_ST_BUSY k) 0).put (F.RCM_ST_RESULT_RESULT k) r
  let s := if 2 ≤ r ∧ r ≤ 4 then (s.incSat (F.RCM_ST_RESULT_FAILS k)).irq 0x17 1 else s
  let s := if r = 1 then s.setReg64 (A.RCM_ST_TS_LO k) s.ts else s
  ((s.rcmEvent k 0x51 r 0xFF none).showHolds).showReady k

def State.testAbandon (s : State) (k : Nat) : State := if (s.rc k).test.isSome then s.testEnd k 6 else s

/-- Every running test is abandoned (R330). -/
def State.testAbandonAll (s : State) : State := (List.range 12).foldl (fun s k => s.testAbandon k) s

/-- Is `v` within `m` ± 20 % (m = p / q)? -/
def near20 (v : Int) (p q : Nat) : Bool := decide ((v * q - p).natAbs * 5 ≤ p)

/-- One millisecond of a test, after the evaluation's values are shown (R329). -/
def State.testMs (s : State) (k : Nat) : State :=
  match (s.rc k).test with
  | none => s
  | some t =>
    let dc := s.getInt (F.RCM_DC_UA k)
    let ac := s.get (F.RCM_AC_UA k)
    let ua := s.get (F.RCM_TEST_UA_UA k)
    let ms := t.ms + 1
    let span := decide (ms ≤ 100) || (decide (200 < ms) && decide (ms ≤ 500)) || (decide (600 < ms) && decide (ms ≤ 800))
    let t := if span then { t with ms := ms, dc := t.dc + dc, ac := t.ac + ac, n := t.n + 1 } else { t with ms := ms }
    let mdc := divEven t.dc t.n
    let mac := (divEven (t.ac : Int) t.n).toNat
    let keep (s : State) (t : SelfTest) (tw : Nat) : State := s.setRc k { s.rc k with test := some t, tw := tw }
    let bad (t : SelfTest) (r : Nat) : Nat := if t.result = 1 then r else t.result
    if ms = 100 then
      if ua < 10 * mdc.natAbs ∨ ua < 10 * mac then s.testEnd k 5
      else keep s { t with dc := 0, ac := 0, n := 0, dc0 := mdc, ac0 := mac } 1
    else if ms = 500 then
      keep s { t with dc := 0, ac := 0, n := 0, result := if near20 (mdc - t.dc0) ua 1 then t.result else bad t 2 } 2
    else if ms = 800 then
      let r := if !near20 (mdc - t.dc0) ua 2 then bad t 2
        else if !near20 (Nat.sqrt (mac * mac - t.ac0 * t.ac0) : Nat) ua 2 then bad t 3 else t.result
      let s := keep s { t with dc := 0, ac := 0, n := 0, result := r } 0
      (s.setRc k { s.rc k with testLatch := true }).showHolds
    else if ms = 801 then
      let s := keep s t 0
      (s.setRc k { s.rc k with testLatch := false }).showHolds
    else keep s t (s.rc k).tw

/-- ST_CMD.START (R328, R334). -/
def State.stCommand (s : State) (k : Nat) : State :=
  if 12 ≤ k then s.err 0x17 0x1E else if s.testOk k then s.testStart k else s.err 0x17 0x50

/-- SELFTEST_START: an automatic start that waits, else the command. -/
def execSelftestStart (k : Fin 12) (s : State) : Out := s.onFabric fun s =>
  if s.testOk k then done ((s.testStart k).bumpSeq 0x17)
  else if (s.rc k).auto then done s
  else done (s.err 0x17 0x50)

/-- SELFTEST_AFTER_TRIP (R328): due once after a trip, after 1 s of calm; it waits until a test may run. -/
def execSelftestAfterTrip (k : Fin 12) (s : State) : Out := s.onFabric fun s =>
  let x := s.rc k
  if x.postDue ∧ s.latched k ∧ 1000 ≤ x.calm ∧ s.testOk k then done ((s.setRc k { x with postDue := false }).testStart k) else done s

/-- SELFTEST_COMPLETE (R329 step 8): at 900 ms. -/
def execSelftestComplete (k : Fin 12) (s : State) : Out := s.onFabric fun s =>
  match (s.rc k).test with
  | none => done s
  | some t =>
    if t.ms < 900 then done s
    else
      let ua := s.get (F.RCM_TEST_UA_UA k)
      let r := if t.result ≠ 1 then t.result
        else if ua ≤ 10 * (s.getInt (F.RCM_DC_UA k) - t.dc0).natAbs then 2
        else if ua ≤ 10 * s.get (F.RCM_AC_UA k) then 3 else 1
      done (s.testEnd k r)

/-- TRIP_PATH_CHECK (R325, R329): the readback 100 µs after a decision or a test decision. -/
def execTripPathCheck (k : Fin 12) (mHigh : Bool) (aHigh : Bool) (s : State) : Out := s.onFabric fun s =>
  let x := s.rc k
  if !(s.latched k || x.testLatch) then done s
  else if !(mHigh || aHigh) then done s
  else
    let s := match x.test with
      | some t => s.setRc k { x with test := some { t with result := if t.result = 1 then 4 else t.result } }
      | none => s
    done (s.pathFaultRcm k)

-- Evaluation (R320 to R322)

/-- The window of an outlet begins anew: RCM or the outlet is enabled or disabled. -/
def State.rcmRestart (s : State) (k : Nat) : State :=
  let s := s.testAbandon k
  let s := s.setRc k { s.rc k with taps := [], count := 0, held := 0, cnt := List.replicate 8 0, calm := 0, auto := false }
  ((s.put (F.RCM_STAT_SETTLED k) 0).put (F.RCM_STAT_INVALID k) 0).showReady k

/-- The row counters at an evaluation, and the first row that decides. -/
def State.rcmRows (s : State) (k : Nat) (clip : Bool) : State :=
  let x := s.rc k
  let step (n : Nat) (c : Nat) : Nat :=
    if !s.rowEn n then c else if clip || decide (s.rowLevel n ≤ s.rowVal k n) then c + 1 else c - 1
  let cnt := (List.range 8).map fun n => step n (x.cnt.getD n 0)
  let hit := (List.range 8).find? fun n =>
    s.rowEn n && cnt.getD n 0 == s.get (F.RCM_ROW_B_HOLD n) + 1 && x.cnt.getD n 0 != cnt.getD n 0
  let s := s.setRc k { x with cnt := cnt }
  match hit with
  | none => s
  | some n =>
    let isAc := s.on (F.RCM_ROW_A_KIND n)
    s.trip k (if isAc then 2 else 1) (some n) (some (if isAc then (s.get (F.RCM_AC_UA k) : Int) else s.getInt (F.RCM_DC_UA k)))
      (some (s.rowLevel n))

/-- One evaluation with its 16 tap samples, each with its INVALID tag. -/
def State.rcmEval (s : State) (k : Nat) (taps : List (Int × Bool)) : State :=
  let x := s.rc k
  let fs := s.get (F.RCM_FS_UA_UA k)
  let i := taps.map fun t => divEven (t.1 * fs) 6710886
  let w := (i.reverse ++ x.taps).take 512
  let s := s.setRc k { x with taps := w, count := min 100000 (x.count + taps.length), held := x.held - 1 }
  let nd := s.nDc
  let na := s.nAc
  if (s.rc k).count < nd + 27 then (s.put (F.RCM_STAT_SETTLED k) 0).showReady k
  else
    let inval := taps.any fun t => t.2
    let clip := taps.any fun t => decide (8388607 ≤ t.1.natAbs)
    let sum := (w.take nd).foldl (· + ·) 0
    let dc := divEven (sum - s.getInt (F.RCM_OFS_UA k) * nd) nd
    let ss := (w.take na).foldl (fun t v => t + (v * nd - sum) * (v * nd - sum)) 0
    let ac := rootRound ss.toNat (na * nd * nd)
    let s := ((s.putInt (F.RCM_DC_UA k) dc).put (F.RCM_AC_UA k) (min ac 0xFFFFFFFF)).put (F.RCM_STAT_INVALID k) inval.toNat
    let s := if s.on (F.RCM_STAT_SETTLED k) then s
      else (s.put (F.RCM_STAT_SETTLED k) 1).setRc k { s.rc k with cnt := List.replicate 8 0 }
    if inval then ((s.setRc k { s.rc k with calm := 0 }).testAbandon k).showReady k
    else
      let s := s.setRc k { s.rc k with calm := if !clip && s.calmNow k then min 1000 ((s.rc k).calm + 1) else 0 }
      let s := if (s.rc k).test.isSome then s.testMs k else if x.held ≠ 0 then s else s.rcmRows k clip
      s.showReady k

/-- RCM_EVALUATION (R320). -/
def execRcmEvaluation (k : Fin 12) (taps : List (Int × Bool)) (s : State) : Out := s.onFabric fun s =>
  if s.rcmOn k ∧ s.rcmLive k then done (s.rcmEval k taps) else done s

/-- RCM_SIGNAL_TIMEOUT (R321): INVALID, or no tap sample, for 2 ms. -/
def execRcmSignalTimeout (k : Fin 12) (s : State) : Out := s.onFabric fun s =>
  if !s.rcmOn k then done s
  else
    let gone := !s.rcmLive k
    if !gone ∧ !s.on (F.RCM_STAT_INVALID k) then done s
    else
      let s := s.testAbandon k
      let s := if gone then s.put (F.RCM_STAT_SETTLED k) 0 else s
      let s := if s.outHigh k then s.trip k (if gone then 4 else 3) none none none else s
      done (s.showReady k)

-- Protective earth (R331)

/-- A code of AUX_36+k. -/
def State.peConversion (s : State) (k code : Nat) : State :=
  if s.rcmOn k && s.on (F.RCM_PE_WIN_PE_EN k) then
    let x := s.rc k
    let c := if code < s.get (F.RCM_PE_WIN_LO k) then 5 else if s.get (F.RCM_PE_WIN_HI k) < code then 6 else 0
    let out := c != 0
    let run := if out = (x.pe != 0) then 0 else x.peRun + 1
    if run < s.get F.RCM_CFG_PE_DEB then s.setRc k { x with peRun := run }
    else
      let s := (s.setRc k { x with peRun := 0, pe := c }).put (F.RCM_STAT_PE_FAULT k) out.toNat
      let s := (s.irq 0x17 2).rcmEvent k 0x52 c 0xFF (some code)
      let s := if out && s.outHigh k then s.trip k c none none (some code) else s
      s.showReady k
  else s

-- Registers (R323, R335)

/-- HOLD of a row in ms, from TIME, OPEN_T and KIND (R323): floor(TIME − OPEN_T − W − 3.905). -/
def rowHold (time openT : Nat) (ac : Bool) : Int := ((time : Int) * 1000 - openT * 1000 - (if ac then 11750 else 23500) - 3905) / 1000

/-- A soft reset of RCM beside its registers (R335): self-tests are abandoned; the latches stay. -/
def State.resetRcm (s : State) : State :=
  let s := s.testAbandonAll
  (List.range 12).foldl (fun s k => s.setRc k {}) s

end Sys2Proof.Machine
end

