-- ==== Sys2Proof/Machine/Outlet.lean ====
section
/-! DEFINITION. AUX and BAY[k]: conversions, the pilot, the outlet state machine, lock, timers and outlet commands
(09_outlet_control.md). -/
namespace Sys2Proof.Machine

def State.bayOn (s : State) (k : Nat) : Bool := s.enabled 0x16 && s.enabled (0x30 + k)
def State.outCfg (s : State) (f : Nat → Fld) (k : Nat) : Bool := s.on (f k)
def bayPg (k : Nat) : Nat := 0x30 + k

-- AUX (R273, R314, R315)

/-- A window compare (R315): the WINDOW condition follows each setting of a WIN_STAT bit. -/
def State.auxWindow (s : State) (n code : Nat) : State :=
  if s.on (bitFld64 A.AUX_WIN_EN_LO n) && (decide (code < s.get (F.AUX_WIN_LO n)) || decide (s.get (F.AUX_WIN_HI n) < code))
      && !s.on (bitFld64 A.AUX_WIN_STAT_LO n) then
    (s.put (bitFld64 A.AUX_WIN_STAT_LO n) 1).event 0x18 0 n
  else s

/-- A conversion of input n is counted and compared. -/
def State.auxCount (s : State) (n code : Nat) : State :=
  ((s.setReg A.AUX_CONV_CNT (s.reg A.AUX_CONV_CNT + 1)).inc (F.AUX_DATA_SEQ n)).auxWindow n code

/-- The row of R284 that holds a resistance of `rpu` × code ÷ (4,096 − code). -/
def ppRow (rpu code : Nat) : Nat :=
  let r := rpu * code
  let d := 4096 - code
  if r < 60 * d then 6
  else if 80 * d ≤ r ∧ r ≤ 140 * d then 4
  else if 164 * d ≤ r ∧ r ≤ 308 * d then 3
  else if 400 * d ≤ r ∧ r ≤ 936 * d then 2
  else if 1100 * d ≤ r ∧ r ≤ 2460 * d then 1
  else if 4500 * d ≤ r then 0 else 5

/-- Proximity of outlet k (R284): a row is confirmed by 16 conversions in it. -/
def State.ppConversion (s : State) (k code : Nat) : State :=
  if s.enabled (bayPg k) && s.on (F.BAYK_CFG_PP_MODE k) then
    let rpu := s.get (F.BAYK_PP_RPU_OHM k)
    let s := s.put (F.BAYK_PP_OHM k) (min 0xFFFF (divEven ((rpu * code : Nat) : Int) (4096 - code)).toNat)
    let x := s.outlet k
    let row := ppRow rpu code
    let run := if x.ppRow = row then min 16 (x.ppRun + 1) else 1
    let new := decide (16 ≤ run) && (!x.ppKnown || s.get (F.BAYK_PP_CAP k) != row)
    let s := s.setOutlet k { x with ppRow := row, ppRun := run, ppKnown := x.ppKnown || new, ppNew := x.ppNew || new }
    if new then s.put (F.BAYK_PP_CAP k) row else s
  else s

/-- Voltage presence of outlet k (R298), with the weld of a voltage that appears on an open outlet. -/
def State.vConversion (s : State) (k code : Nat) : State :=
  if s.enabled (bayPg k) && s.on (F.BAYK_CFG_WELD_V_EN k) then
    let x := s.outlet k
    if s.get (F.BAYK_WELD_CFG_V_TH k) < code then
      let n := min 20 (x.vHigh + 1)
      let comes := decide (20 ≤ n) && !s.on (F.BAYK_STATE_VOLTAGE k)
      let long := !s.outHigh k && decide (s.get (F.BAYK_WELD_CFG_WELD_T k) * 10 * 32768 < (s.ts - x.lowTs) * 1000)
      let s := s.setOutlet k { x with vHigh := n, vLow := 0, vAbs := x.vAbs && !comes, weldV := x.weldV || (comes && long) }
      if comes then s.put (F.BAYK_STATE_VOLTAGE k) 1 else s
    else
      let n := min 20 (x.vLow + 1)
      let s := s.setOutlet k { x with vLow := n, vHigh := 0, vAbs := x.vAbs || decide (20 ≤ n) }
      if 20 ≤ n then s.put (F.BAYK_STATE_VOLTAGE k) 0 else s
  else s

/-- AUX_CONVERSION (R273): the pilot inputs are converted in bursts and keep their DATA. -/
def execAuxConversion (n : Fin 48) (code : Nat) (s : State) : Out := s.onFabric fun s =>
  if !s.enabled 0x18 then done s
  else
    let c := code % 4096
    let s := s.auxCount n c
    if n.val < 12 then done s
    else
      let s := s.put (F.AUX_DATA_CODE n) c
      let k := n.val % 12
      done (if n.val < 24 then s.ppConversion k c else if n.val < 36 then s.vConversion k c else s.peConversion k c)

-- Pilot measurement (R274, R280 to R283)

/-- The two middle codes of four. -/
def midSum (l : List Nat) : Nat :=
  let v := l.take 4
  v.foldl (· + ·) 0 - v.foldl max 0 - v.foldl min 4096

def State.thresholds (s : State) : List Int :=
  [s.getInt F.BAY_TH_HI_TH_A, s.getInt F.BAY_TH_HI_TH_B, s.getInt F.BAY_TH_MID_TH_C, s.getInt F.BAY_TH_MID_TH_D, s.getInt F.BAY_TH_LO_TH_F]

/-- The class that contains a voltage (R281): 0 A to 5 N. -/
def State.classOf (s : State) (v : Int) : Nat := (s.thresholds.takeWhile fun t => decide (v < t)).length

/-- The class after hysteresis, from class c. -/
def State.classFrom (s : State) (c : Nat) (v : Int) : Nat :=
  let th := s.thresholds
  let h : Int := s.get F.BAY_TH_LO_HYST
  let up := decide (0 < c) && decide (h < 2 * (v - th.getD (c - 1) 0))
  let down := decide (c < 5) && decide (h < 2 * (th.getD c 0 - v))
  if up || down then s.classOf v else c

/-- A high plateau: the candidate class, its run, and flickers (R282). -/
def State.highPlateau (s : State) (k : Nat) (v : Int) : State :=
  let x := s.outlet k
  let old := s.get (F.BAYK_PILOT_CANDIDATE k)
  let c := if x.read then s.classFrom old v else s.classOf v
  if x.read && c == old then s.setOutlet k { x with run := min 255 (x.run + 1) }
  else
    let fl := x.read && !(x.known && old == s.get (F.BAYK_PILOT_CLASS k)) && decide (x.run < s.get F.BAY_TIMING_DEBOUNCE)
    let s := s.setOutlet k { x with read := true, run := 1, since := s.get (F.BAYK_PERIOD_COUNT k) }
    let s := s.put (F.BAYK_PILOT_CANDIDATE k) c
    if fl then s.incSat (F.BAYK_PILOT_FLICKER k) else s

/-- A low plateau: the diode check while the pilot runs in PWM (R283). -/
def State.lowPlateau (s : State) (k : Nat) (v : Int) : State :=
  if s.get (F.BAYK_PILOT_MODE k) ≠ 2 then s
  else
    let f := s.getInt F.BAY_TH_LO_TH_F
    let h : Int := s.get F.BAY_TH_LO_HYST
    let x := s.outlet k
    if h < 2 * (f - v) then (s.put (F.BAYK_PILOT_DIODE_OK k) 1).setOutlet k { x with diodeBad := 0 }
    else if h ≤ 2 * (v - f) then
      let n := min 255 (x.diodeBad + 1)
      let s := s.setOutlet k { x with diodeBad := n }
      if s.get F.BAY_TIMING_DEBOUNCE ≤ n then s.put (F.BAYK_PILOT_DIODE_OK k) 0 else s
    else s.setOutlet k { x with diodeBad := 0 }

/-- PILOT_BURST (R274, R280). -/
def execPilotBurst (k : Fin 12) (high : Bool) (codes : List Nat) (s : State) : Out := s.onFabric fun s =>
  if s.enabled 0x18 ∧ s.enabled 0x16 then
    let codes := codes.map (· % 4096)
    let s := (codes.take 4).foldl (fun s c => s.auxCount k c) s
    let m := midSum codes
    let s := if high then s.put (F.AUX_DATA_CODE k) (divEven (m : Int) 2).toNat else s
    if !s.enabled (bayPg k) then done s
    else
      let v := divEven (((m : Int) - 2 * s.get (F.BAYK_PILOT_CAL_OFS k)) * s.get (F.BAYK_PILOT_CAL_GAIN k)) 8192
      if high then done ((s.putInt (F.BAYK_PILOT_V_HIGH k) v).highPlateau k v)
      else done ((s.putInt (F.BAYK_PILOT_V_LOW k) v).lowPlateau k v)
  else done s

-- Pilot generation (R276 to R279, R285)

/-- ALLOW changes; a decrease opens a grace (R304). -/
def State.setAllow (s : State) (k v : Nat) : State :=
  let old := s.get (F.BAYK_ALLOW_MA k)
  let s := s.put (F.BAYK_ALLOW_MA k) v
  if v < old then s.setOutlet k { s.outlet k with grace := (s.outlet k).grace ++ [old] } else s

/-- What ALLOW reports under a pilot setting. -/
def State.announced (s : State) (k : Nat) (p : Nat × Nat) : Nat :=
  if p.1 ≠ 2 then 0 else if s.on (F.BAYK_CFG_DIGITAL k) then (s.allowance k).1 else dutyMa p.2

def lowMode (m : Nat) : Bool := m == 0 || m == 3

/-- A pilot setting takes effect at a rising edge (R276, R285). -/
def State.applyPilot (s : State) (k : Nat) (p : Nat × Nat) : State :=
  let old := (s.get (F.BAYK_PILOT_MODE k), s.get (F.BAYK_PILOT_DUTY k))
  if p = old then s
  else
    let s := (s.put (F.BAYK_PILOT_MODE k) p.1).put (F.BAYK_PILOT_DUTY k) p.2
    let s := (s.setReg64 (A.BAYK_EDGE_TS_LO k) (s.ts + 80 * k * 32768 / 1000000)).note k 0x48 cNone p.1 p.2 noSeq
    let s := s.setAllow k (s.announced k p)
    if lowMode p.1 = lowMode old.1 then s else s.setOutlet k { s.outlet k with run := 0, fresh := false, diodeBad := 0 }

/-- The rising edge of outlet k: the period counts, a pause begins, or a setting that is due takes effect. -/
def State.risingEdge (s : State) (k : Nat) : State :=
  let s := s.inc (F.BAYK_PERIOD_COUNT k)
  let x := s.outlet k
  if x.pauseNext ≠ 0 then (s.setOutlet k { x with pauseNext := 0, paused := true }).applyPilot k pilotHigh
  else match x.nextPilot with
    | none => s
    | some p =>
      if x.paused ∧ p.1 = 2 then s
      else (s.setOutlet k { x with nextPilot := none, paused := false }).applyPilot k p

/-- PILOT_FRAME_START (R274). -/
def execPilotFrameStart (s : State) : Out := s.onFabric fun s =>
  if !s.enabled 0x16 then done s
  else
    let s := s.setReg A.BAY_FRAME_CNT (s.reg A.BAY_FRAME_CNT + 1)
    done ((List.range 12).foldl (fun s k => if s.enabled (bayPg k) then s.risingEdge k else s) s)

/-- PILOT_PAUSE_END (R285): PWM resumes at a rising edge in OFFERING, CLOSING and CHARGING. -/
def execPilotPauseEnd (k : Fin 12) (s : State) : Out := s.onFabric fun s =>
  let x := s.outlet k
  if !x.paused then done s
  else
    let s := s.setOutlet k { x with paused := false }
    let b := s.bay k
    done (if b = stOffering ∨ b = stClosing ∨ b = stCharging then s.setPilot k (s.pilotPwm k) else s)

-- The lock (R300 to R302)

/-- A lock drive starts: 1 lock, 2 unlock. -/
def State.lockStart (s : State) (k dir try' : Nat) : State :=
  s.setOutlet k { s.outlet k with lockDir := dir, lockTry := try', lockWait := false, lckA := dir == 1, lckB := dir == 2 }

/-- The conditions of R301. -/
def State.unlockOk (s : State) (k : Nat) : Bool :=
  s.on (F.BAYK_CFG_LOCK_EN k) && !s.outHigh k && (s.outlet k).mirOpen
    && (!s.on (F.BAYK_CFG_WELD_V_EN k) || (s.outlet k).vAbs) && s.bay k != stWelded && s.bay k != stService

/-- LOCK_PULSE_END: the drive goes low. -/
def execLockPulseEnd (k : Fin 12) (s : State) : Out := s.onFabric fun s => done (s.setOutlet k { s.outlet k with lckA := false, lckB := false })

/-- LOCK_FEEDBACK_CONFIRM: the feedback is stable for 10 ms; a drive to that position is confirmed. -/
def execLockFeedbackConfirm (k : Fin 12) (locked : Bool) (ms : Nat) (s : State) : Out := s.onFabric fun s =>
  let s := s.put (F.BAYK_STATE_LOCKED k) locked.toNat
  let x := s.outlet k
  if x.lockDir = (if locked then 1 else 2) then
    done ((s.setOutlet k { x with lockDir := 0, lockTry := 0, lockWait := false }).note k 0x44 cNone locked.toNat ms noSeq)
  else done s

/-- LOCK_CONFIRM_TIMEOUT: the drive is repeated once after 500 ms; a second failure raises LOCK with DETAIL 2. -/
def execLockConfirmTimeout (k : Fin 12) (s : State) : Out := s.onFabric fun s =>
  let x := s.outlet k
  if x.lockDir = 0 ∨ x.lockWait then done s
  else if x.lockTry < 2 then done (s.setOutlet k { x with lockWait := true })
  else
    let s := if x.lockDir = 1 then s.put (F.BAYK_STATE_AUTHORISED k) 0 else s
    let v := s.free
    done ((s.took.setOutlet k { x with lockDir := 0, lockTry := 0 }).note k 0x44 cLock 2 v noSeq)

/-- LOCK_REPEAT: no drive starts after a power-fail warning (R302). -/
def execLockRepeat (k : Fin 12) (s : State) : Out := s.onFabric fun s =>
  let x := s.outlet k
  if x.lockWait ∧ s.pf.warned = false then done (s.lockStart k x.lockDir 2) else done s

-- The evaluation (R286 to R305)

/-- The confirmed class under the present drive. -/
def State.cls (s : State) (k : Nat) : Option Nat :=
  if (s.outlet k).known && (s.outlet k).fresh then some (s.get (F.BAYK_PILOT_CLASS k)) else none

/-- A class becomes confirmed (R282), with its CLASS event; class A ends the connection (R289, R305). -/
def State.confirmClass (s : State) (k : Nat) : State :=
  let x := s.outlet k
  let c := s.get (F.BAYK_PILOT_CANDIDATE k)
  let old := s.get (F.BAYK_PILOT_CLASS k)
  let s :=
    if x.read && decide (s.get F.BAY_TIMING_DEBOUNCE ≤ x.run) && (!x.known || !x.fresh || c != old) then
      let s := (s.setOutlet k { x with known := true, fresh := true, skip := x.known && old == 0 && (c == 2 || c == 3) }).put
        (F.BAYK_PILOT_CLASS k) c
      if x.known && c == old then s
      else (s.bayEventAt k 0x41 (s.bay k) (s.bay k) cNone (c + 16 * if x.known then old else 15) x.since
        (unsignedOf 32 (s.getInt (F.BAYK_PILOT_V_HIGH k))) noSeq).1
    else s
  if s.cls k = some 0 then (s.put (F.BAYK_STATE_AUTHORISED k) 0).put (F.BAYK_VIOL_RETRIES k) 0 else s

/-- The proximity event, and what a confirmed no cable clears (R284, R289, R305). -/
def State.noCable (s : State) (k : Nat) : Bool :=
  s.on (F.BAYK_CFG_PP_MODE k) && (s.outlet k).ppKnown && s.get (F.BAYK_PP_CAP k) == 0
def State.readPp (s : State) (k : Nat) : State :=
  let x := s.outlet k
  let s := if x.ppNew then
      (s.setOutlet k { x with ppNew := false }).note k 0x45 cNone (s.get (F.BAYK_PP_CAP k)) (s.get (F.BAYK_PP_OHM k)) noSeq
    else s
  if s.noCable k then
    let s := s.put (F.BAYK_STATE_AUTHORISED k) 0
    if s.bay k = stFaultF then s else s.put (F.BAYK_VIOL_RETRIES k) 0
  else s

/-- The largest current of a published cycle in 0.1 mA (R304). -/
def State.outCurrent (s : State) (k : Nat) : Nat :=
  if s.isDc k then (s.getInt ⟨A.MTRK_DC_I k, 0, 32⟩).natAbs
  else (s.phases k).foldl (fun m p => max m (s.reg (A.MTRK_PH_I_RMS k p)).toNat) 0

/-- The overcurrent threshold in mA (R304). -/
def State.ocLimit (s : State) (k : Nat) : Nat :=
  let a := (s.outlet k).grace.foldl max (s.get (F.BAYK_ALLOW_MA k))
  a * (100 + s.get F.BAY_OC_CFG_OC_TOL) / 100 + s.get F.BAY_OC_CFG_OC_ABS

/-- A published cycle is judged (R287, R303, R304). -/
def State.readCycle (s : State) (k : Nat) : State :=
  let x := s.outlet k
  let cyc := s.get (F.MTRK_QSTAT_CYCLE k)
  if cyc = x.seenCycle ∨ !s.on (F.MTRK_QSTAT_VALID k) then s.setOutlet k { x with seenCycle := cyc }
  else
    let i := s.outCurrent k
    let after := (cyc + 65536 - x.entryCycle) % 65536
    s.setOutlet k { x with
      seenCycle := cyc
      current := i
      excess := if x.paused then x.excess else decide (s.ocLimit k * 10 < i)
      gross := if s.get (F.BAYK_RATED_MA k) * 50 < i * 4 then min 10 (x.gross + 1) else 0
      low := decide (0 < after) && decide (after < 32768) && decide (i < s.get F.BAY_HOLD_TIME_OPEN_I * 10) }

/-- The current in mA, as events give it. -/
def State.mA (s : State) (k : Nat) : Nat := (divEven ((s.outlet k).current : Int) 10).toNat

def activeState (b : Nat) : Bool := [stIdle, stConnected, stOffering, stClosing, stCharging, stWithdrawing, stOpening].contains b
def closedState (b : Nat) : Bool := b == stClosing || b == stCharging || b == stWithdrawing

/-- One input of R286: the state after it, and whether it caused a transition. -/
abbrev Judged := State × Bool

/-- Entering a state that a stop ends in without OPENING: the mirror is still supervised (R289). -/
def State.enterHard (s : State) (k new cause seq : Nat) : State :=
  let was := s.driven k
  let x := s.outlet k
  let (s, q) := ((s.outputsLow k).setPilot k pilotLow).enter' k new cause 0 seq
  if was then s.setOutlet k { s.outlet k with awaitOpen := true, openCause := cause, seq := if seq = noSeq then q else seq }
  else s.setOutlet k { s.outlet k with awaitOpen := x.awaitOpen }

/-- 1: hardware holds. -/
def State.judgeHolds (s : State) (k : Nat) : Judged :=
  let b := s.bay k
  let x := s.outlet k
  if b = stDisabled ∨ b = stService then (s, false)
  else if s.latched k ∧ b ≠ stTripped ∧ (b ≠ stWelded ∨ x.tripDue = true) then
    ((s.setOutlet k { x with tripDue := false }).enterHard k stTripped cTrip x.tripSeq, true)
  else if s.boot.bench then (s.enterHard k stService cBench noSeq, true)
  else if s.pf.warned ∧ closedState b then ((s.takeFault k cPower).setPilot k pilotLow |>.openNow k cPower stFaultF noSeq, true)
  else (s, false)

/-- A weld is found (R295, R298). -/
def State.weld (s : State) (k cause : Nat) : State :=
  let s := s.note k 0x46 cause (cause == cWeld).toNat (s.get (F.AUX_DATA_CODE (24 + k))) noSeq
  let s := s.setOutlet k { s.outlet k with weldV := false, weldCheck := false }
  let s := s.enterHard k stWelded cause noSeq
  s.setOutlet k { s.outlet k with unlockDue := false }

/-- OPENING ends in its target (R289). -/
def State.openEnd (s : State) (k : Nat) : State :=
  let t := s.get (F.BAYK_STATE_TARGET k)
  let c := (s.outlet k).openCause
  let s := s.setOutlet k { s.outlet k with allowClose := false, blocked := false }
  if t = stIdle then ((s.setPilot k pilotHigh).askUnlock k).enter k stIdle c noSeq
  else if t = stOffering then (s.setPilot k (s.pilotPwm k)).enter k stOffering c noSeq
  else if t = stConnected then (s.setPilot k pilotHigh).enter k stConnected c noSeq
  else s.enter k stFaultF c noSeq

/-- The open confirmation's CONTACTOR event, once its cause is known (R296, R297). -/
def State.openNote (s : State) (k : Nat) : State :=
  let x := s.outlet k
  if x.awaitOpen && x.mirOpen then
    let s := s.note k 0x43 x.openCause 0 x.mirUs x.seq
    s.setOutlet k { s.outlet k with awaitOpen := false, weldCheck := s.on (F.BAYK_CFG_WELD_V_EN k) }
  else s

/-- 2: mirror and weld findings. -/
def State.judgeMirror (s : State) (k : Nat) : Judged :=
  let s := s.openNote k
  let b := s.bay k
  let x := s.outlet k
  let closed := s.on (F.BAYK_STATE_CLOSED k)
  if b = stOpening ∧ !x.awaitOpen then (s.openEnd k, true)
  else if b = stClosing ∧ closed then ((s.note k 0x43 (s.get (F.BAYK_STATE_CAUSE k)) 1 x.mirUs noSeq).enter k stCharging cNone noSeq, true)
  else if (b = stCharging ∨ b = stWithdrawing) ∧ x.mirOpen ∧ (s.outHigh k ∨ x.causeOut) then
    let s := s.takeFault k cMirror
    (s.enterHard k stFaultF cMirror noSeq, true)
  else if [stDisabled, stService, stWelded, stOpening].contains b then (s, false)
  else if closed && !s.outHigh k && decide (s.get (F.BAYK_CONT_TIME_T_OPEN k) * 32768 < (s.ts - x.lowTs) * 1000) then (s.weld k cMirror, true)
  else if x.weldV then (s.weld k cWeld, true)
  else (s, false)

/-- May the outlet close (R288)? -/
def State.mayClose (s : State) (k : Nat) : Bool :=
  s.enabled (0x20 + k) && s.on (F.MTRK_QSTAT_VALID k) && s.on (bitFld A.RCM_READY k)
    && (!s.on (F.BAYK_CFG_LOCK_EN k) || s.on (F.BAYK_STATE_LOCKED k)) && (!s.on (F.BAYK_CFG_WELD_V_EN k) || (s.outlet k).vAbs)
    && decide (6000 ≤ (s.allowance k).1) && !s.pf.warned && (!s.on (F.BAYK_CFG_DIG_GATE k) || (s.outlet k).allowClose)

/-- A request for energy in OFFERING (R288, R289). -/
def State.request (s : State) (k : Nat) : Judged :=
  if s.mayClose k then
    let s := s.setOutlet k { s.outlet k with
      conM := true
      conA := s.get (F.BAYK_CFG_AUX_MODE k) == 1
      closeCap := capMa (s.get (F.BAYK_PP_CAP k))
      excess := false
      gross := 0
      causeOut := false }
    (s.enter k stClosing cVehicle noSeq, true)
  else if (s.outlet k).blocked then (s, false)
  else
    let s := s.setOutlet k { s.outlet k with blocked := true }
    ((s.bayEvent k 0x40 stOffering stOffering cBlocked 0 (s.allowance k).1 noSeq).1, false)

/-- 3: the confirmed pilot class and the diode check. -/
def State.judgeClass (s : State) (k : Nat) : Judged :=
  let b := s.bay k
  let x := s.outlet k
  let mode := s.get (F.BAYK_PILOT_MODE k)
  let back := s.openTarget k false false
  match s.cls k with
  | none => (s, false)
  | some c =>
    if !activeState b then (s, false)
    else if (c = 5 ∧ (mode = 1 ∨ mode = 2)) ∨ (mode = 3 ∧ c ≠ 5) then
      (s.hardViolation k cDriver (s.mA k), true)
    else if c = 4 then
      (s.hardViolation k cShort (s.mA k), true)
    else if mode = 2 ∧ s.get F.BAY_TIMING_DEBOUNCE ≤ x.diodeBad then
      (s.hardViolation k cDiode (s.mA k), true)
    else if c = 0 then
      if closedState b then
        let s := s.violate k cUnplug (s.mA k)
        (s.openNow k cUnplug stIdle noSeq, true)
      else if b = stConnected then ((s.askUnlock k).enter k stIdle cVehicle noSeq, true)
      else if b = stOffering then (((s.setPilot k pilotHigh).askUnlock k).enter k stIdle cVehicle noSeq, true)
      else (s, false)
    else if b = stIdle then
      let s := if x.skip then s.violate k cSkip (s.mA k) else s
      let s := (s.setOutlet k { s.outlet k with skip := false }).note k 0x49 cVehicle c 0 noSeq
      (s.enter k stConnected cVehicle noSeq, true)
    else if c = 1 then
      if b = stClosing ∨ b = stCharging then (s.openNow k cVehicle back noSeq, true)
      else if b = stWithdrawing ∧ !x.stateF then (s.openNow k (s.get (F.BAYK_STATE_CAUSE k)) back x.seq, true)
      else if b = stOffering then (s.setOutlet k { x with allowClose := false, blocked := false }, false)
      else (s, false)
    else if c = 3 ∧ !s.on (F.BAYK_CFG_VENT_OK k) then
      if b = stCharging then ((s.violate k cVent (s.mA k)).openNow k cVent back noSeq, true) else (s, false)
    else if b = stOffering then s.request k
    else (s, false)

/-- 4: proximity and lock. -/
def State.judgeProx (s : State) (k : Nat) : Judged :=
  let b := s.bay k
  let x := s.outlet k
  if b = stFaultF ∧ retriable x.fault ∧ s.noCable k then
    let s := (s.put (F.BAYK_VIOL_RETRIES k) 0).put (F.BAYK_STATE_LATCHED k) 0
    ((s.setPilot k pilotHigh).enter k stIdle cNone noSeq, true)
  else if closedState b ∧ s.on (F.BAYK_CFG_PP_MODE k) ∧ capMa (s.get (F.BAYK_PP_CAP k)) < x.closeCap then
    (s.hardViolation k cProx (s.mA k), true)
  else if closedState b ∧ s.on (F.BAYK_CFG_LOCK_EN k) ∧ !s.on (F.BAYK_STATE_LOCKED k) then (s.hardViolation k cLock (s.mA k), true)
  else (s, false)

/-- 5 and 6: metering, overcurrent, the allowance, and the authorisation of SES and the host. -/
def State.judgeMeter (s : State) (k : Nat) : Judged :=
  let b := s.bay k
  let x := s.outlet k
  let enough := decide (6000 ≤ (s.allowance k).1)
  let auth := s.on (F.BAYK_STATE_AUTHORISED k)
  if activeState b ∧ 10 ≤ x.gross ∧ s.driven k then ((s.setOutlet k { x with gross := 0 }).hardViolation k cGross (s.mA k), true)
  else if b = stWithdrawing ∧ x.low then
    (s.openNow k (s.get (F.BAYK_STATE_CAUSE k)) (s.openTarget k false x.stateF) x.seq, true)
  else if b = stWithdrawing ∧ x.byAllow ∧ enough then ((s.setPilot k (s.pilotPwm k)).enter k stCharging cLmg noSeq, true)
  else if b = stCharging ∧ !enough then (s.withdraw k cLmg noSeq false true, true)
  else if b = stClosing ∧ !enough then (s.openNow k cLmg (s.openTarget k false false) noSeq, true)
  else if b = stOffering ∧ !enough then ((s.setPilot k pilotHigh).enter k stConnected cLmg noSeq, true)
  else if b = stOffering ∧ !auth then ((s.setPilot k pilotHigh).enter k stConnected cHost noSeq, true)
  else if b = stConnected ∧ auth ∧ enough ∧ s.pf.warned = false
      ∧ (!s.on (F.BAYK_CFG_LOCK_EN k) || s.on (F.BAYK_STATE_LOCKED k)) = true then
    let s := s.setOutlet k { x with allowClose := false, blocked := false }
    ((s.setPilot k (s.pilotPwm k)).enter k stOffering (if s.on (F.BAYK_CFG_AUTH_SRC k) then cHost else cSes) noSeq, true)
  else (s, false)

/-- What follows every evaluation: the binding term, the duty, the lock (R277, R289, R301). -/
def State.upkeep (s : State) (k : Nat) : State :=
  let a := s.allowance k
  let s := s.put (F.BAYK_ALLOW_BIND k) a.2
  let b := s.bay k
  let s := if (b = stOffering ∨ b = stClosing ∨ b = stCharging) ∧ 6000 ≤ a.1 then
      let p := s.pilotPwm k
      let s := if s.get (F.BAYK_PILOT_MODE k) = 2 ∧ s.on (F.BAYK_CFG_DIGITAL k) then s.setAllow k a.1 else s
      if p = (s.get (F.BAYK_PILOT_MODE k), s.get (F.BAYK_PILOT_DUTY k)) then s.setOutlet k { s.outlet k with nextPilot := none }
      else s.setPilot k p
    else s
  let x := s.outlet k
  let idleLock := x.lockDir == 0 && !s.pf.warned && b != stService
  if b = stConnected ∧ s.on (F.BAYK_STATE_AUTHORISED k) ∧ s.on (F.BAYK_CFG_LOCK_EN k) ∧ !s.on (F.BAYK_STATE_LOCKED k) ∧ idleLock then
    s.lockStart k 1 1
  else if x.unlockDue ∧ idleLock ∧ s.unlockOk k then (s.setOutlet k { x with unlockDue := false }).lockStart k 2 1
  else s

/-- The inputs in the order of R286; the first that causes a transition decides. -/
def State.judge (s : State) (k : Nat) : State :=
  ([State.judgeHolds, State.judgeMirror, State.judgeClass, State.judgeProx, State.judgeMeter].foldl
    (fun (r : Judged) f => if r.2 then r else f r.1 k) (s, false)).1

/-- SES hears of the evaluation's outcome, class A and no cable (R344, R345). -/
def State.tellSes (s : State) (k old : Nat) (hadA hadNone : Bool) : State :=
  let s := s.sesBay k old
  let s := if s.cls k = some 0 ∧ !hadA then s.sesGone k true else s
  if s.noCable k && !hadNone then s.sesGone k false else s

/-- OUTLET_EVALUATION (R286). -/
def execOutletEvaluation (k : Fin 12) (s : State) : Out := s.onFabric fun s =>
  if !s.bayOn k then done s
  else
    let old := s.bay k
    let hadA := decide (s.cls k = some 0)
    let hadNone := s.noCable k && !(s.outlet k).ppNew
    let s := ((s.confirmClass k).readPp k).readCycle k
    done ((((s.judge k).upkeep k).tellSes k old hadA hadNone))

-- Timers and alarms (R282, R287, R289, R290, R293 to R298, R303, R304)

/-- FLICKER_WINDOW_END (R303): every window above FLICKER_MAX is a violation; the third in a row is answered. -/
def execFlickerWindowEnd (k : Fin 12) (s : State) : Out := s.onFabric fun s =>
  if !s.bayOn k then done s
  else
    let n := s.get (F.BAYK_PILOT_FLICKER k)
    let old := s.bay k
    let s := s.put (F.BAYK_PILOT_FLICKER k) 0
    if n ≤ s.get F.BAY_TIMING_FLICKER_MAX then done (s.setOutlet k { s.outlet k with badWins := 0 })
    else
      let bad := (s.outlet k).badWins + 1
      let s := (s.setOutlet k { s.outlet k with badWins := if bad < 3 then bad else 0 }).violate k cFlicker n
      if bad < 3 ∨ !activeState old then done s
      else if old = stClosing ∨ old = stCharging then done (((s.takeFault k cFlicker).withdraw k cFlicker noSeq true false).sesBay k old)
      else if old = stWithdrawing then
        let s := (s.takeFault k cFlicker).setPilot k pilotLow
        done (s.setOutlet k { s.outlet k with stateF := true, byAllow := false })
      else done ((s.hardFault k cFlicker).sesBay k old)

/-- INVALID_STATE_ALARM (R290, R291): a code of the table raises none. -/
def execInvalidStateAlarm (k : Fin 12) (code : Nat) (s : State) : Out := s.onFabric fun s =>
  if bayCodes.contains (code % 256) then done s
  else
    let old := s.bay k
    let s := s.setOutlet k { s.outlet k with alarmHold := true }
    let s := (s.showHolds.inc (F.BAYK_OEPOCH k)).event 0x16 0 k
    let s := (s.put (F.BAYK_STATE_CODE k) code).note k 0x47 cInvalid (code % 256) 0 noSeq
    done (((s.takeFault k cInvalid).enterHard k stFaultF cInvalid noSeq).sesBay k old)

/-- MIRROR_CONFIRM (R203, R294): what follows is judged at the next evaluation. -/
def execMirrorConfirm (k : Fin 12) (closed : Bool) (us : Nat) (s : State) : Out := s.onFabric fun s =>
  let s := (s.put (F.BAYK_STATE_CLOSED k) closed.toNat).setOutlet k { s.outlet k with mirOpen := !closed, mirUs := us }
  if s.pf.warned && !closed && bit s.pf.closed k then done { s with pf := { s.pf with confirmed := setBit s.pf.confirmed k true } } else done s

/-- CONTACTOR_TIMEOUT (R289): T_CLOSE in CLOSING; T_OPEN while an opening waits for the mirror. -/
def execContactorTimeout (k : Fin 12) (s : State) : Out := s.onFabric fun s =>
  let x := s.outlet k
  let old := s.bay k
  if !s.bayOn k then done s
  else if old = stClosing ∧ !s.on (F.BAYK_STATE_CLOSED k) then
    done ((((s.takeFault k cMirror).setPilot k pilotLow).openNow k cMirror stFaultF noSeq).sesBay k old)
  else if x.awaitOpen ∧ !x.mirOpen ∧ old ≠ stService ∧ old ≠ stDisabled then done ((s.weld k cMirror).sesBay k old)
  else done s

/-- CAUSE_WAIT_TIMEOUT (R296): the outputs are low without a command and without a known cause. -/
def execCauseWaitTimeout (k : Fin 12) (s : State) : Out := s.onFabric fun s =>
  if s.bayOn k ∧ closedState (s.bay k) ∧ s.driven k ∧ !s.outHigh k ∧ !s.latched k ∧ !s.pf.warned ∧ !s.boot.bench then
    done (s.setOutlet k { s.outlet k with causeOut := true })
  else done s

/-- AUX_CONTACTOR_DELAY (R293): AUX_MODE 2. -/
def execAuxContactorDelay (k : Fin 12) (s : State) : Out := s.onFabric fun s =>
  let x := s.outlet k
  if s.get (F.BAYK_CFG_AUX_MODE k) = 2 ∧ x.conM ∧ s.on (F.BAYK_STATE_CLOSED k) then done (s.setOutlet k { x with conA := true }) else done s

/-- WELD_CHECK (R298): the voltage is present WELD_T × 10 ms after the open confirmation. -/
def execWeldCheck (k : Fin 12) (s : State) : Out := s.onFabric fun s =>
  let x := s.outlet k
  let old := s.bay k
  if !s.bayOn k ∨ !x.weldCheck then done s
  else
    let s := s.setOutlet k { x with weldCheck := false }
    if s.on (F.BAYK_STATE_VOLTAGE k) ∧ !s.outHigh k ∧ ([stDisabled, stService, stWelded].contains old) = false then
      done ((s.weld k cWeld).sesBay k old)
    else done s

/-- WITHDRAW_TIMEOUT (R287, R303). -/
def execWithdrawTimeout (k : Fin 12) (s : State) : Out := s.onFabric fun s =>
  let x := s.outlet k
  let old := s.bay k
  if !s.bayOn k ∨ old ≠ stWithdrawing then done s
  else
    let ign := decide (s.get F.BAY_HOLD_TIME_OPEN_I * 10 ≤ x.current)
    let s := if ign then s.violate k cIgnored (s.mA k) else s
    done ((s.openNow k (if ign then cIgnored else s.get (F.BAYK_STATE_CAUSE k)) (s.openTarget k false x.stateF) x.seq).sesBay k old)

/-- FAULT_HOLD_EXPIRY (R289, R305). -/
def execFaultHoldExpiry (k : Fin 12) (s : State) : Out := s.onFabric fun s =>
  if s.bayOn k ∧ s.bay k = stFaultF ∧ retriable (s.outlet k).fault ∧ s.get (F.BAYK_VIOL_RETRIES k) < s.get F.BAY_OC_CFG_RETRY_MAX then
    done (((s.setPilot k pilotHigh).enter k stIdle cNone noSeq).sesBay k stFaultF)
  else done s

/-- OVERCURRENT_TIMEOUT (R303): level 1 is the escalation limit, level 2 the soft violation. -/
def execOvercurrentTimeout (k : Fin 12) (s : State) : Out := s.onFabric fun s =>
  let x := s.outlet k
  if !s.bayOn k ∨ s.bay k ≠ stCharging ∨ !x.excess ∨ x.paused then done s
  else if s.get (F.BAYK_VIOL_LEVEL k) = 0 then
    let s := (s.put (F.BAYK_VIOL_LEVEL k) 1).setOutlet k { x with excess := false }
    done ((s.violate k cOver (s.mA k)).sesBay k stCharging)
  else if x.grace ≠ [] then done s
  else done (((s.put (F.BAYK_VIOL_LEVEL k) 2).softViolation k cOver (s.mA k)).sesBay k stCharging)

/-- OC_GRACE_END (R304): the oldest decrease of ALLOW has passed. -/
def execOcGraceEnd (k : Fin 12) (s : State) : Out := s.onFabric fun s => done (s.setOutlet k { s.outlet k with grace := (s.outlet k).grace.tail })

/-- METER_LOST_TIMEOUT (R303). -/
def execMeterLostTimeout (k : Fin 12) (s : State) : Out := s.onFabric fun s =>
  if s.bayOn k ∧ s.bay k = stCharging ∧ !s.on (F.MTRK_QSTAT_VALID k) then done ((s.softViolation k cMeter (s.mA k)).sesBay k stCharging)
  else done s

-- Commands (R306, R307)

/-- The oldest frame of ring 15 + k, where it is the command `typ`. -/
def State.bayHead (s : State) (k typ : Nat) : Option Frame :=
  match s.head (15 + k) with
  | some f => if f.typ = typ then some f else none
  | none => none

def cmdArg (f : Frame) : Nat := fieldLe f.payload 4 4

/-- The first check that refuses a command (R307, R580). -/
def State.bayRefuse (s : State) (k : Nat) (f : Frame) (argOk accepted : Bool) : Option Nat :=
  firstErr [(f.payload.length != 8 || !argOk, 0x1E), (fieldLe f.payload 0 4 != s.get (F.BAYK_OEPOCH k), 0x40),
    (!accepted || s.boot.bench || s.pf.warned, 0x41)]

/-- The response (R307). -/
def State.bayAnswer (s : State) (k : Nat) (f : Frame) (status : Nat) : State :=
  s.emit (3 + k) (0x80 + f.typ) (some f.seq) status (le 1 (s.bay k) ++ le 3 0 ++ le 4 (s.get (F.BAYK_OEPOCH k)))

/-- A command is taken, judged and answered; an accepted one acts. -/
def State.bayCommand (s : State) (k typ : Nat) (argOk : Nat → Bool) (accepted : Bool) (act : State → Frame → State) : Out :=
  match s.bayHead k typ with
  | none => done s
  | some f =>
    let old := s.bay k
    let s := s.take (15 + k)
    match s.bayRefuse k f (argOk (cmdArg f)) accepted with
    | some c => done ((s.err (bayPg k) c).bayAnswer k f c)
    | none => done (((act s f).bayAnswer k f 0).sesBay k old)

/-- AUTHORISE. -/
def execAuthorise (k : Fin 12) (s : State) : Out := s.onFabric fun s =>
  s.bayCommand k 1 (· == 0) (s.on (F.BAYK_CFG_AUTH_SRC k) && s.bayReady k) fun s _ => (s.authorise k).sesHostAuth k

/-- STOP. -/
def execStop (k : Fin 12) (s : State) : Out := s.onFabric fun s => s.bayCommand k 2 (· == 0) true fun s f => s.stopOutlet k cHost f.seq

/-- SET_LIMIT. -/
def execSetLimit (k : Fin 12) (s : State) : Out := s.onFabric fun s =>
  s.bayCommand k 3 (fun a => decide (a ≤ 100000) || a == 0xFFFFF) true fun s f => s.put (F.BAYK_HOST_LIMIT_MA k) (cmdArg f)

/-- PILOT_PAUSE. -/
def execPilotPause (k : Fin 12) (s : State) : Out := s.onFabric fun s =>
  s.bayCommand k 4 (fun a => decide (1 ≤ a) && decide (a ≤ 10000)) ([stOffering, stClosing, stCharging].contains (s.bay k))
    fun s f => s.setOutlet k { s.outlet k with pauseNext := cmdArg f }

/-- ALLOW_CLOSE. -/
def execAllowClose (k : Fin 12) (s : State) : Out := s.onFabric fun s =>
  s.bayCommand k 5 (· == 0) (s.bay k == stOffering && s.on (F.BAYK_CFG_DIG_GATE k))
    fun s _ => s.setOutlet k { s.outlet k with allowClose := true }

/-- LOCK. -/
def execLock (k : Fin 12) (s : State) : Out := s.onFabric fun s =>
  s.bayCommand k 6 (· == 0) ((s.bay k == stIdle || s.bay k == stConnected) && s.on (F.BAYK_CFG_LOCK_EN k)) fun s _ => s.lockStart k 1 1

/-- UNLOCK (R301). -/
def execUnlock (k : Fin 12) (s : State) : Out := s.onFabric fun s => s.bayCommand k 7 (· == 0) (s.unlockOk k) fun s _ => s.lockStart k 2 1

/-- May RESET_FAULT leave the state (R299, R307, R327)? -/
def State.resetOk (s : State) (k : Nat) : Bool :=
  let b := s.bay k
  b == stFaultF || (b == stTripped && s.on (bitFld A.RCM_READY (16 + k)))
    || (b == stWelded && (s.outlet k).mirOpen && (!s.on (F.BAYK_CFG_WELD_V_EN k) || (s.outlet k).vAbs))

/-- RESET_FAULT. -/
def execResetFault (k : Fin 12) (s : State) : Out := s.onFabric fun s =>
  s.bayCommand k 8 (· == 0) (s.resetOk k) fun s _ =>
    let s := if s.bay k = stTripped then s.rcmRelease k else s
    let s := (s.put (F.BAYK_VIOL_RETRIES k) 0).put (F.BAYK_STATE_LATCHED k) 0
    let s := (s.setOutlet k { s.outlet k with alarmHold := false, tripDue := false }).showHolds
    (s.setPilot k pilotHigh).enter k stIdle cHost noSeq

/-- DIGITAL (R279): a change takes effect at the next rising edge. -/
def execDigital (k : Fin 12) (s : State) : Out := s.onFabric fun s =>
  s.bayCommand k 9 (fun a => decide (a ≤ 1)) (s.bay k != stService) fun s f =>
    let s := s.put (F.BAYK_CFG_DIGITAL k) (cmdArg f)
    if [stOffering, stClosing, stCharging].contains (s.bay k) then s.setPilot k (s.pilotPwm k) else s

/-- An unknown TYPE on ring 15 + k is refused by BAY (R307); SES takes 0x20 to 0x23 (R341). -/
def State.bayUnknown (s : State) (k : Nat) (f : Frame) : State :=
  ((s.take (15 + k)).err (bayPg k) 0x1E).bayAnswer k f 0x1E

-- Registers (R291, R292)

/-- A write of CTRL.ENABLE; the code that refuses it, if any. -/
def State.bayEnable (s : State) (k : Nat) (en : Bool) : State × Option Nat :=
  let old := s.bay k
  if en then
    if !s.enabled 0x16 || !s.enabled 0x18 || s.get (F.BAYK_RATED_MA k) == 0 || s.boot.bench then (s.err (bayPg k) 0x1E, some 0x1E)
    else if s.enabled (bayPg k) then (s, none)
    else ((s.bayStart k).sesBay k old, none)
  else if [stClosing, stCharging, stWithdrawing, stOpening, stService].contains old then (s.err (bayPg k) 0x1E, some 0x1E)
  else if !s.enabled (bayPg k) then (s, none)
  else (((s.bayStop k).testAbandon k).sesBay k old, none)

/-- BAY_ENABLE_WRITE. -/
def execBayEnableWrite (_req : Req) (k : Fin 12) (en : Bool) (s : State) : Out := s.onFabric fun s =>
  let (s, r) := s.bayEnable k en
  done (if r = none then s.bumpSeq (bayPg k) else s)

/-- A write to LMG_LIMIT. -/
def State.lmgLimit (s : State) (k : Nat) (v : W32) : State × Option Nat :=
  match firstErr [(decide (100000 < getBits v 0 20), 0x1E), (getBits v 24 8 != s.get (F.BAYK_OEPOCH k) % 256, 0x40)] with
  | some c => (s.err (bayPg k) c, some c)
  | none => ((s.put (F.BAYK_LMG_LIMIT_MA k) (getBits v 0 20)).put (F.BAYK_LMG_LIMIT_EPOCH k) (getBits v 24 8), none)

/-- LMG_LIMIT_WRITE. -/
def execLmgLimitWrite (_req : Req) (k : Fin 12) (val : W32) (s : State) : Out := s.onFabric fun s =>
  let (s, r) := s.lmgLimit k val
  done (if r = none then s.bumpSeq (bayPg k) else s)

end Sys2Proof.Machine
end

