-- ==== Sys2Proof/Machine/Seal.lean ====
section
/-! DEFINITION. SEA and TAM: seal sessions, keys, the log's replay, totals, the readout port and tamper supervision
(17_seal_tamper.md). -/
namespace Sys2Proof.Machine

-- Codes (R500)

def seClosed : Nat := 0x17
def seChallenged : Nat := 0x2B
def seOpen : Nat := 0x4D
def seJig : Nat := 0x8E
def keyAbsent : Nat := 0x71
def keyReady : Nat := 0xB2
def keyErased : Nat := 0xD4

def State.sea (s : State) : Nat := s.get F.SEA_STAT_SESSION
def State.setSea (s : State) (c : Nat) : State := s.put F.SEA_STAT_SESSION c
def State.keyCode (s : State) : Nat := s.get F.SEA_STAT_KEY

/-- STAT.BUSY: a VERIFY or KEY_CMD runs. -/
def State.showBusy (s : State) : State := s.put F.SEA_STAT_BUSY (s.sl.verify.isSome || s.sl.op.isSome).toNat

-- Keys (R501, R504 to R506)

/-- KEY_ID in digest order: the first 4 bytes of the digest of the uncompressed point. -/
def keyIdOf (pub : List Byte) : List Byte := (Config.sha256 (4 :: pub)).take 4

/-- PUBKEY and KEY_ID of signing key `n`. -/
def State.showKey (s : State) (n : Nat) : State :=
  let pub := Config.publicKey n
  let s := (List.range 16).foldl (fun s i => s.setReg (A.SEA_PUBKEY i) (wordN (fieldLe pub (4 * i) 4))) s
  s.setReg A.SEA_KEY_ID (wordN (ofBe (keyIdOf pub)))

/-- VK_STAT; slot 0 is Hercia's, with both roles. -/
def State.showSlots (s : State) : State :=
  let roles (i : Nat) : Nat := match s.sl.slots.find? fun p => p.1 == i with
    | some p => p.2.2
    | none => 0
  let has (i : Nat) : Bool := s.sl.slots.any fun p => p.1 == i
  (s.put F.SEA_VK_STAT_VALID (1 + 2 * (has 1).toNat + 4 * (has 2).toNat + 8 * (has 3).toNat)).put F.SEA_VK_STAT_ROLES
    (3 + 4 * roles 1 + 16 * roles 2 + 64 * roles 3)

/-- The key state changes; the fault of R593 starts or clears with it. -/
def State.setKey (s : State) (c : Nat) : State :=
  let old := s.keyCode
  let s := (s.put F.SEA_STAT_KEY c).put F.SEA_STAT_KEY_OK (c == keyReady).toNat
  if c = old then s
  else
    let s := s.event 0x0A 2 noUnit
    if c = keyReady then s.faultFrame 0x07 false 0 noUnit noLog
    else if old = keyReady then s.faultFrame 0x07 true 0 noUnit noLog else s

/-- An erase abandons the record being signed, unless it is a STOP record, which waits (R506). -/
def State.signErased (s : State) : State :=
  match s.se.queue with
  | r :: rest =>
    if r.body.headD 0 = 3 then s
    else
      let s := { s with se := { s.se with queue := rest } }
      match r.ref with
      | some q => s.sesAnswer r.outlet 0x23 q 0xA6 none 0
      | none => s
  | [] => s

/-- The hardware erase (R518): with or without VDD. -/
def State.hwErase (s : State) : State :=
  let op := match s.sl.op with
    | some o => if o.op = 1 then none else some o
    | none => none
  let s := { s with sl := { s.sl with key := none, kek := none, op := op, erasedByTam := true } }
  let s := (s.incSat F.TAM_ERASE_CNT_COUNT).irq 0x0B 2
  if s.mainDown then s else ((s.setKey keyErased).signErased).showBusy

/-- A container is stored in the copy not in use (R501). -/
def State.storeBox (s : State) (key : Option Nat) (slots : List (Nat × (List Byte × Nat))) : State :=
  let cur := if s.sl.boxLastB then s.sl.boxB else s.sl.boxA
  let b : KeyBox := ⟨(match cur with
    | some b => b.seq + 1
    | none => 1), key, slots⟩
  let sl := { s.sl with slots := slots }
  { s with sl := if s.sl.boxLastB then { sl with boxA := some b, boxLastB := false } else { sl with boxB := some b, boxLastB := true } }

/-- The signing key that the container in use wraps. -/
def State.boxKey (s : State) : Option Nat := match (if s.sl.boxLastB then s.sl.boxB else s.sl.boxA) with
  | some b => b.key
  | none => none

-- Seal sessions (R495 to R499)

/-- The session closes; jig mode ends with it. -/
def State.closeSession (s : State) : State :=
  if s.sea = seOpen ∨ s.sea = seJig then
    let jig := decide (s.sea = seJig)
    let s := ((s.setSea seClosed).setReg A.SEA_SESS_STAT (s.reg A.SEA_SESS_STAT &&& 0x00FF0000))
    let s := if jig then s.leaveJig.log 0x0042 noOutlet [0] else s
    s.event 0x0A 0 noUnit
  else s

/-- CHALLENGE; the code that refuses it, if any. -/
def State.seaChallenge (s : State) (slot role : Nat) : State × Option Nat :=
  match firstErr [(s.sea == seOpen || s.sea == seJig || (role != 1 && role != 2), 0x1E), (s.get F.SEA_SESS_LOCK_LEFT != 0, 0xA3)] with
  | some c => (s.err 0x0A c, some c)
  | none =>
    let b := (Config.randomBytes s.fresh).take 32
    let b := b ++ List.replicate (32 - b.length) 0
    let s := { s.took with sl := { s.sl with chal := some ⟨b, slot, role, s.get F.SEA_SESS_PARAM_DURATION_S⟩ } }
    ((List.range 8).foldl (fun s i => s.setReg (A.SEA_CHAL i) (wordN (fieldLe b (4 * i) 4))) (s.setSea seChallenged), none)

/-- Does a slot hold a key that permits the role? -/
def State.slotPermits (s : State) (slot role : Nat) : Bool :=
  slot == 0 || s.sl.slots.any fun p => p.1 == slot && p.2.2.testBit (role - 1)

/-- The public key of a slot. -/
def State.slotKey (s : State) (slot : Nat) : List Byte :=
  if slot = 0 then Config.romKey else match s.sl.slots.find? fun p => p.1 == slot with
    | some p => p.2.1
    | none => []

/-- VERIFY as written (R496, R497). -/
def State.seaVerify (s : State) (slot role : Nat) : State × Option Nat :=
  let same := match s.sl.chal with
    | some c => c.slot == slot && c.role == role
    | none => false
  match firstErr [(s.on F.SEA_STAT_BUSY || (role != 1 && role != 2), 0x1E), (!s.sealEn, 0xA0), (!same, 0xA1),
      (s.get F.SEA_SESS_LOCK_LEFT != 0, 0xA3), (!s.slotPermits slot role, 0xA5)] with
  | some c =>
    let s := s.err 0x0A c
    if c = 0x1E ∨ s.sl.chal.isNone then (s, some c)
    else ((({ s with sl := { s.sl with chal := none } }).setSea seClosed).event 0x0A 1 noUnit, some c)
  | none => match s.sl.chal with
    | none => (s, none)
    | some ch =>
      let sig := (List.range 16).flatMap fun i => le 4 (s.reg (A.SEA_RESP i)).toNat
      (({ s with sl := { s.sl with chal := none, verify := some (ch, sig) } }).showBusy, none)

/-- The lockout after `n` consecutive failures, in seconds. -/
def lockout (n : Nat) : Nat := if n < 5 then 0 else min 3600 (60 * 2 ^ (n - 5))

def execChallenge (slot role : Nat) (s : State) : Out := s.onFabric fun s =>
  let (s, r) := s.seaChallenge (slot % 4) role
  done (if r = none then s.bumpSeq 0x0A else s)
def execVerify (slot role : Nat) (s : State) : Out := s.onFabric fun s =>
  let (s, r) := s.seaVerify (slot % 4) role
  done (if r = none then s.bumpSeq 0x0A else s)

/-- VERIFY_DONE (R497). -/
def execVerifyDone (s : State) : Out := s.onFabric fun s =>
  match s.sl.verify with
  | none => done s
  | some (ch, sig) =>
    let s := ({ s with sl := { s.sl with chal := none, verify := none } }).showBusy
    let msg := ch.bytes ++ le 8 Config.serial.toNat ++ le 4 s.epoch ++ le 1 ch.slot ++ le 1 ch.role ++ le 2 ch.dur
    let good := Config.ecdsaVerify (s.slotKey ch.slot) (Config.sha256 msg) sig
    match firstErr [(!s.sealEn, 0xA0), (!good, 0xA2), (s.get F.SEA_SESS_LOCK_LEFT != 0, 0xA3), (!s.slotPermits ch.slot ch.role, 0xA5)] with
    | some c =>
      let s := ((s.setSea seClosed).err 0x0A c).event 0x0A 1 noUnit
      if good then done s
      else
        let s := s.incSat F.SEA_SESS_STAT_FAILS
        let n := s.get F.SEA_SESS_STAT_FAILS
        let l := lockout n
        let s := if n < 5 then s else s.put F.SEA_SESS_LOCK_LEFT l
        done (if n = 5 then s.log 0x0041 noOutlet (le 1 ch.slot ++ le 1 n ++ le 2 0 ++ le 4 l) else s)
    | none =>
      let s := (((s.setSea seOpen).put F.SEA_SESS_STAT_LEFT ch.dur).put F.SEA_SESS_STAT_SLOT ch.slot).put F.SEA_SESS_STAT_ROLE ch.role
      let s := (s.put F.SEA_SESS_STAT_FAILS 0).event 0x0A 0 noUnit
      done (s.log 0x0040 noOutlet (le 1 ch.slot ++ le 1 ch.role ++ le 2 ch.dur))

def execClose (s : State) : Out := s.onFabric fun s => done (s.closeSession.bumpSeq 0x0A)

/-- JIG_ENTER (R499). -/
def State.seaJigEnter (s : State) : State × Option Nat :=
  let busy := (List.range 12).any (fun k => closedState (s.bay k)) || s.get F.SES_ACTIVE_MASK_OUT != 0
  if s.sea = seOpen ∧ s.get F.SEA_SESS_STAT_ROLE = 2 ∧ !busy then
    (((s.setSea seJig).put F.CAL_STATUS_JIG 1).log 0x0042 noOutlet [1], none)
  else (s.err 0x0A 0xA4, some 0xA4)

/-- JIG_LEAVE. -/
def State.seaJigLeave (s : State) : State × Option Nat :=
  if s.sea = seJig then (((s.leaveJig).setSea seOpen).log 0x0042 noOutlet [0], none) else (s.err 0x0A 0x1E, some 0x1E)

def execJigEnter (s : State) : Out := s.onFabric fun s =>
  let (s, r) := s.seaJigEnter
  done (if r = none then s.bumpSeq 0x0A else s)
def execJigLeave (s : State) : Out := s.onFabric fun s =>
  let (s, r) := s.seaJigLeave
  done (if r = none then s.bumpSeq 0x0A else s)

/-- CHALLENGE_EXPIRY: 60 s pass with the challenge still waiting. -/
def execChallengeExpiry (s : State) : Out := s.onFabric fun s =>
  if s.sl.chal.isSome then done (({ s with sl := { s.sl with chal := none } }).setSea seClosed) else done s

/-- SESSION_EXPIRY: the session's duration ends. -/
def execSessionExpiry (s : State) : Out := s.onFabric fun s => done s.closeSession

/-- LOCKOUT_END. -/
def execLockoutEnd (s : State) : Out := done (s.put F.SEA_SESS_LOCK_LEFT 0)

/-- SEAL_EN_CHANGE (R51, R498). -/
def execSealEnChange (level : Bool) (s : State) : Out :=
  let s := { s with sealEn := level }
  done (if level then s else s.closeSession)

-- Key operations (R504)

/-- KEY_CMD as written; `priv` is the privileged view. -/
def State.keyCmd (s : State) (op slot roles : Nat) : State × Option Nat :=
  match firstErr [(!s.privOpen, 0x03), (s.on F.SEA_STAT_BUSY || op == 0 || decide (3 < op) || (op != 1 && slot == 0), 0x1E),
      (s.sea != seJig, 0x30), (op != 1 && decide (1 < s.get F.SEA_SESS_STAT_SLOT), 0xA5)] with
  | some c => (s.err 0x0A c, some c)
  | none =>
    let data := (List.range 16).flatMap fun i => le 4 (s.reg (A.SEA_VK_DATA i)).toNat
    (({ s with sl := { s.sl with op := some ⟨op, slot, roles, data⟩ } }).showBusy, none)

def execKeygen (s : State) : Out := s.onFabric fun s =>
  let (s, r) := s.keyCmd 1 1 0
  done (if r = none then s.bumpSeq 0x0A else s)
def execVkInstall (slot roles : Nat) (s : State) : Out := s.onFabric fun s =>
  let (s, r) := s.keyCmd 2 (slot % 4) (roles % 4)
  done (if r = none then s.bumpSeq 0x0A else s)
def execVkRevoke (slot : Nat) (s : State) : Out := s.onFabric fun s =>
  let (s, r) := s.keyCmd 3 (slot % 4) 0
  done (if r = none then s.bumpSeq 0x0A else s)

/-- KEY_CMD_DONE (R501, R504, R506): the container has been written, or its write has failed. -/
def execKeyCmdDone (ok : Bool) (s : State) : Out := s.onFabric fun s =>
  match s.sl.op with
  | none => done s
  | some o =>
    let s := ({ s with sl := { s.sl with op := none } }).showBusy
    if !ok then done (s.err 0x0A 0xA7)
    else if o.op = 1 then
      let old := be 4 (s.reg A.SEA_KEY_ID).toNat
      let n := s.fresh
      let s := (s.took.storeBox (some n) s.sl.slots).showKey n
      let s := { s with sl := { s.sl with key := some n, kek := some n, erasedByTam := false } }
      done ((s.log 0x0043 noOutlet (old ++ keyIdOf (Config.publicKey n) ++ le 4 s.legal.watermark)).setKey keyReady)
    else
      let rest := s.sl.slots.filter fun p => p.1 != o.slot
      let slots := if o.op = 2 then rest ++ [(o.slot, (o.data, o.roles))] else rest
      let s := (s.storeBox s.boxKey slots).showSlots
      done (s.log 0x0044 noOutlet (le 1 o.slot ++ le 1 (if o.op = 2 then o.roles else 0)))

-- The log's replay and totals (R510)

/-- Replay frames enter ring 38 while it has a free slot. -/
def State.replayStep : Nat → State → State
  | 0, s => s
  | n + 1, s => match s.legal.replay with
    | none => s
    | some q => match s.legal.log.find? fun e => e.seq == q with
      | none => ({ s with legal := { s.legal with replay := none } }).put F.SEA_STAT_REPLAYING 0
      | some e =>
        if (s.ring 38).lost = 0 && (s.ring 38).room (s.slots 38) then
          State.replayStep n (({ s with legal := { s.legal with replay := some (q + 1) } }).emit 38 0x03 none 0 e.bytes)
        else s

/-- A write of a LOG_SEQ to LOG_REPLAY. -/
def State.logReplay (s : State) (v : Nat) : State :=
  let first := match s.legal.log.head? with
    | some e => max v e.seq
    | none => v
  State.replayStep 600 ((({ s with legal := { s.legal with replay := some first } }).setReg A.SEA_LOG_REPLAY (wordN v)).put F.SEA_STAT_REPLAYING 1)

def execLogReplay (_req : Req) (val : W32) (s : State) : Out := s.onFabric fun s => done ((s.logReplay val.toNat).bumpSeq 0x0A)

/-- A write to TOTALS_REQ. -/
def State.totalsReq (s : State) (v : Nat) : State := s.put F.SEA_TOTALS_REQ_OUT (s.get F.SEA_TOTALS_REQ_OUT ||| v % 4096)

def execTotalsReq (_req : Req) (val : W32) (s : State) : Out := s.onFabric fun s => done ((s.totalsReq val.toNat).bumpSeq 0x0A)

/-- The totals frames asked for, after a couch. -/
def State.totalsCouch (s : State) (c : LegalRec) (cts : Nat) : State :=
  let m := s.get F.SEA_TOTALS_REQ_OUT
  let s := s.put F.SEA_TOTALS_REQ_OUT 0
  (List.range 12).foldl (fun s k =>
    if m.testBit k then
      let (a, abs, _) := c.outlets.getD k ({}, false, 0)
      s.emit 38 0x02 none 0 (le 1 k ++ le 1 abs.toNat ++ le 2 0 ++ le 4 c.seq ++ le 8 cts ++ le 8 a.imp ++ le 8 a.exp ++ le 8 a.net
        ++ le 8 a.varPos ++ le 8 a.varNeg ++ le 8 a.va)
    else s) s

-- Invalid codes (R500)

/-- One of TAM's history entries is written (R517, R519). -/
def State.tamHistory (s : State) (src : Nat) (cleared shadow : Bool) (resp : Nat) : State :=
  let n := s.get F.TAM_HIST_STAT_COUNT
  let i := if n = 0 then 0 else (s.get F.TAM_HIST_STAT_NEWEST + 1) % 16
  let lost := s.tam.waiting.contains i
  let s := if lost then (s.incSat F.TAM_HIST_STAT_LOST) else s
  let s := { s with tam := { s.tam with waiting := (s.tam.waiting.filter (· != i)) ++ [i] } }
  let s := (s.put F.TAM_HIST_STAT_NEWEST i).put F.TAM_HIST_STAT_COUNT (min 16 (n + 1))
  let s := s.setReg (A.TAM_HIST_INFO i) (wordN (src + 16 * cleared.toNat + 32 * s.boot.off.toNat + 64 * shadow.toNat + 256 * resp))
  s.setReg64 (A.TAM_HIST_TS_LO i) s.ts

/-- The responses configured for a source: bit 0 ERASE, bit 1 CLOSE. -/
def State.tamResp (s : State) (src : Nat) : Nat :=
  if src < 8 then getBits (s.reg (A.TAM_SRC src)) 16 2 else getBits (s.reg A.TAM_ENV_CFG) (17 + 3 * (src - 8)) 2

/-- Is a source configured (R514)? -/
def State.tamOn (s : State) (src : Nat) : Bool :=
  if src < 8 then s.get (F.TAM_SRC_MODE src) != 0
  else if src = 12 then true else getBits (s.reg A.TAM_ENV_CFG) (16 + 3 * (src - 8)) 1 != 0

/-- A source triggers (R517). -/
def State.tamTrigger (s : State) (src : Nat) (shadow : Bool) (resp : Nat) : State :=
  let s := (s.put (bitFld A.TAM_STICKY src) 1).put (bitFld A.TAM_LIVE src) 1
  let s := (s.tamHistory src false shadow resp).irq 0x0B 0
  let s := if resp.testBit 0 then s.hwErase else s
  if resp.testBit 1 then s.closeSession else s

/-- SEAL_INVALID_CODE (R500): a code of the table is none. -/
def execSealInvalidCode (key : Bool) (code : Nat) (s : State) : Out := s.onFabric fun s =>
  if key then
    if [keyAbsent, keyReady, keyErased].contains code then done s else done (s.hwErase.tamTrigger 12 false (s.tamResp 12))
  else if [seClosed, seChallenged, seOpen, seJig].contains code then done s
  else
    let s := s.closeSession
    done ((({ s with sl := { s.sl with chal := none } }).setSea seClosed).tamTrigger 12 false (s.tamResp 12))

-- Tamper supervision (R514 to R523)

/-- TAMPER_TRIGGER: only a source that is configured and not triggered already. -/
def execTamperTrigger (src : Fin 13) (s : State) : Out :=
  if s.tamOn src && !s.on (bitFld A.TAM_LIVE src) then done (s.tamTrigger src false (s.tamResp src)) else done s

/-- TAMPER_CLEAR: a history entry only. -/
def execTamperClear (src : Fin 13) (s : State) : Out :=
  if s.on (bitFld A.TAM_LIVE src) then
    done (((s.put (bitFld A.TAM_LIVE src) 0).tamHistory src true false 0).irq 0x0B 1)
  else done s

/-- TAMPER_REPORT (R519, R523): the oldest entry not reported, with its log entry first. -/
def execTamperReport (s : State) : Out := s.onFabric fun s =>
  match s.tam.waiting with
  | [] => done s
  | i :: rest =>
    if s.mainDown ∨ s.boot.romOnly ∨ !s.linkUp then done s
    else
      let info := s.reg (A.TAM_HIST_INFO i)
      let ts := s.reg64 (A.TAM_HIST_TS_LO i)
      let off := getBits info 5 1
      let p := le 1 (getBits info 0 4) ++ le 1 (getBits info 4 1) ++ le 1 (getBits info 8 2) ++ le 1 (getBits info 5 2)
        ++ le 4 (s.get F.TAM_HIST_STAT_LOST) ++ le 8 ts ++ le 4 s.legal.next ++ le 12 0
      let s := { s with tam := { s.tam with waiting := rest } }
      done ((s.logAt ts 0x0050 noOutlet (off != 0) p).emit 49 0x01 none 0 p)

/-- One step of a loop's sequence x^16 + x^14 + x^13 + x^11 + 1. -/
def loopStep (v : Nat) : Nat :=
  let b := (v + v / 4 + v / 8 + v / 32) % 2
  v / 2 + 32768 * b

/-- LOOP_RESEED (R516): every enabled loop is seeded while VDD is present. -/
def execLoopReseed (s : State) : Out :=
  if s.boot.off then done s
  else done ((List.range 4).foldl (fun s j =>
    if (s.get F.TAM_LOOP_CFG_EN).testBit j then
      { s.took with tam := { s.tam with loops := spWrite (fun _ => 0) s.tam.loops j (ofLe ((Config.randomBytes s.fresh).take 2)) } }
    else s) s)

/-- LOOP_BIT_CHANGE (R516): the next bit of loop j; the low bit of the sequence is driven on TAMP_OUT_j. -/
def execLoopBitChange (j : Fin 4) (s : State) : Out :=
  if (s.get F.TAM_LOOP_CFG_EN).testBit j then
    done { s with tam := { s.tam with loops := spWrite (fun _ => 0) s.tam.loops j.val (loopStep (spRead (fun _ => 0) s.tam.loops j)) } }
  else done { s with tam := { s.tam with loops := spWrite (fun _ => 0) s.tam.loops j.val 0 } }

/-- SHADOW_CHECK (R520): each source whose word and shadow differ, with the responses its shadow gives; ALARM triggers as well. -/
def execShadowCheck (bad : List (Nat × Nat)) (s : State) : Out :=
  if bad = [] then done s
  else
    let s := bad.foldl (fun s p => if p.1 < 12 then s.tamTrigger p.1 true (s.tamResp p.1 ||| p.2 % 4) else s) s
    done (s.tamTrigger 12 true (s.tamResp 12))

/-- A write to STICKY (R522): bits clear, but for a source that is still triggered. -/
def State.stickyClear (s : State) (mask : Nat) : State :=
  s.put F.TAM_STICKY_FLAG ((List.range 13).foldl (fun v i =>
    if mask.testBit i && !s.on (bitFld A.TAM_LIVE i) then setBit v i false else v) (s.get F.TAM_STICKY_FLAG))

/-- STICKY_CLEAR. -/
def execStickyClear (_req : Req) (priv : Bool) (mask : W32) (s : State) : Out := s.onFabric fun s =>
  if priv && s.privOpen then done ((s.stickyClear mask.toNat).bumpSeq 0x0B) else done (s.err 0x0B 0x03)

-- The legal readout port (R511 to R513)

def ascii (t : String) : List Byte := t.toList.map fun c => BitVec.ofNat 8 c.toNat
def decText (n : Nat) : List Byte := (Nat.toDigits 10 n).map fun c => BitVec.ofNat 8 c.toNat

/-- `n` digits in base `b`, the lowest `n` of the number; upper case. -/
def digitsText (b : Nat) : Nat → Nat → List Byte
  | 0, _ => []
  | n + 1, v => digitsText b n (v / b) ++ [BitVec.ofNat 8 (let d := v % b; if d < 10 then 48 + d else 55 + d)]

def hexBytes (l : List Byte) : List Byte := l.flatMap fun b => digitsText 16 2 b.toNat
def crlf : List Byte := [13, 10]
def inParens (name v : List Byte) : List Byte := name ++ ascii "(" ++ v ++ ascii ")" ++ crlf

/-- A legal register in kWh as 012,345.678*kWh (R192, R512). -/
def kwhText (wh : Nat) : List Byte :=
  digitsText 10 3 (wh / 1000000) ++ ascii "," ++ digitsText 10 3 (wh / 1000) ++ ascii "." ++ digitsText 10 3 wh ++ ascii "*kWh"

/-- STX, lines, ETX and BCC. -/
def framed (l : List Byte) : List Byte := [2] ++ l ++ [3] ++ [(l ++ [3]).foldl (· ^^^ ·) 0]

/-- The last completed couch: this run's, else the record a start has taken. -/
def State.lastCouch (s : State) : Option LegalRec := match s.se.last with
  | some p => some p.1
  | none => if s.mt.lastB then s.mt.copyB else s.mt.copyA

/-- Does the readout port answer (R562)? -/
def State.portUp (s : State) : Bool := !s.boot.silent && !s.mainDown

def State.portSend (s : State) (l : List Byte) : State := { s with sl := { s.sl with sent := l } }
def State.setPort (s : State) (p : Nat) : State := { s with sl := { s.sl with port := p } }

/-- The readout lines (R512); only SN and ST in a run without a seal image (R563). -/
def State.readout (s : State) : List Byte :=
  let sn := inParens (ascii "SN") (digitsText 16 16 Config.serial.toNat)
  let st := inParens (ascii "ST") (digitsText 16 4 (s.boot.bench.toNat + 2 * (s.on F.SEA_STAT_KEY_OK).toNat
    + 4 * (s.get F.TAM_STICKY_FLAG != 0).toNat + 8 * (s.on F.MTR_LEGAL_STAT_LEGAL_OK).toNat))
  if s.boot.romOnly then sn ++ st
  else
    let regs := match s.lastCouch with
      | none => []
      | some c => (List.range 12).flatMap fun k =>
        if !s.enabled (0x20 + k) then []
        else
          let (a, abs, _) := c.outlets.getD k ({}, false, 0)
          let nm (t : String) : List Byte := digitsText 10 2 k ++ ascii t
          if abs then inParens (nm ".I") (kwhText (legalWh a.imp)) ++ inParens (nm ".E") (kwhText (legalWh a.exp))
          else inParens (nm ".N") (kwhText (legalWh a.net))
    sn ++ inParens (ascii "KI") (digitsText 16 8 (s.reg A.SEA_KEY_ID).toNat) ++ inParens (ascii "WM") (decText s.legal.watermark)
      ++ regs ++ inParens (ascii "LG") (decText s.lastLog) ++ st

/-- OPT_SIGN_ON: without an address, or with the serial number. -/
def execOptSignOn (address : Option (List Byte)) (s : State) : Out := s.onFabric fun s =>
  let mine : Bool := match address with
    | none => true
    | some a => a == digitsText 16 16 Config.serial.toNat
  if s.portUp ∧ s.sl.port = 0 ∧ mine then
    done (((s.incSat F.SEA_OPT_STAT_SESSIONS).setPort 1).portSend (ascii "/HMD5EA1248" ++ crlf))
  else done s

/-- OPT_ACKNOWLEDGE (R511). -/
def execOptAcknowledge (z : Nat) (y : Nat) (s : State) : Out := s.onFabric fun s =>
  if !s.portUp ∨ s.sl.port ≠ 1 then done s
  else if 5 < z ∨ (y ≠ 0 ∧ y ≠ 6) then done (s.setPort 0)
  else
    let s := (s.put F.SEA_OPT_STAT_BAUD z).put F.SEA_OPT_STAT_MODE y
    if y = 0 then done ((s.setPort 0).portSend (framed (s.readout ++ ascii "!" ++ crlf))) else done (s.setPort 2)

/-- OPT_SILENCE_TIMEOUT. -/
def execOptSilenceTimeout (s : State) : Out := s.onFabric fun s => if s.sl.port = 1 then done (s.setPort 0) else done s

/-- A request of query mode (R513): NAK on a BCC error, ER(code) where it is refused. -/
def State.query (s : State) (bcc : Bool) (ans : Sum Nat (List Byte)) : State :=
  if !s.portUp || s.sl.port != 2 then s
  else if !bcc then (s.incSat F.SEA_OPT_STAT_BCC_ERR).portSend [0x15]
  else
    let ans := if s.boot.romOnly then .inl 0x21 else ans
    s.portSend (framed (match ans with
      | .inl c => inParens (ascii "ER") (digitsText 16 4 c)
      | .inr l => l))

/-- QUERY_T: the totals of the last couch in micro-units. -/
def execQueryT (k : Nat) (bcc : Bool) (s : State) : Out := s.onFabric fun s =>
  done (s.query bcc (if 12 ≤ k then .inl 0x1E else match s.lastCouch with
    | none => .inl 0x21
    | some c =>
      let a := c.acc k
      .inr (inParens (ascii "C") (decText c.seq) ++ inParens (ascii "IMP") (decText a.imp) ++ inParens (ascii "EXP") (decText a.exp)
        ++ inParens (ascii "NET") (decText a.net) ++ inParens (ascii "VARH_POS") (decText a.varPos)
        ++ inParens (ascii "VARH_NEG") (decText a.varNeg) ++ inParens (ascii "VAH") (decText a.va))))

/-- QUERY_L: a log entry. -/
def execQueryL (n : Nat) (bcc : Bool) (s : State) : Out := s.onFabric fun s =>
  done (s.query bcc (match s.legal.log.find? fun e => e.seq == n with
    | some e => .inr (hexBytes e.bytes ++ crlf)
    | none => .inl 0x96))

/-- QUERY_R: a signed record of stream 0. -/
def execQueryR (w : Nat) (bcc : Bool) (s : State) : Out := s.onFabric fun s =>
  done (s.query bcc (match s.readRecord 0 w with
    | some b => .inr (hexBytes b ++ crlf)
    | none => .inl 0x96))

/-- QUERY_K: X and Y, then KI(). -/
def execQueryK (bcc : Bool) (s : State) : Out := s.onFabric fun s =>
  let pub := (List.range 16).flatMap fun i => le 4 (s.reg (A.SEA_PUBKEY i)).toNat
  done (s.query bcc (.inr (hexBytes pub ++ crlf ++ inParens (ascii "KI") (digitsText 16 8 (s.reg A.SEA_KEY_ID).toNat))))

/-- QUERY_END and QUERY_TIMEOUT: query mode ends. -/
def execQueryEnd (s : State) : Out := s.onFabric fun s => if s.sl.port = 2 then done (s.setPort 0) else done s
def execQueryTimeout (s : State) : Out := s.onFabric fun s => if s.sl.port = 2 then done (s.setPort 0) else done s

-- Resets (R521, R525)

/-- A soft reset of SEA beside its registers. -/
def State.resetSea (s : State) : State :=
  let s := s.closeSession
  { s with sl := { s.sl with chal := none, verify := none }, legal := { s.legal with replay := none } }

end Sys2Proof.Machine
end

