-- ==== Sys2Proof/Machine/Load.lean ====
section
/-! DEFINITION. LMG: allocation rounds, verification, overload, and site budgets (12_load_management.md). -/
namespace Sys2Proof.Machine

-- Inputs (R360 to R362)

def State.lmgRole (s : State) : Nat := s.get F.LMG_CFG_ROLE
def State.lmgOn (s : State) : Bool := s.enabled 0x1A

/-- The site phase of post phase p. -/
def State.sitePh (s : State) (p : Nat) : Nat := (p + s.get F.LMG_CFG_ROT) % 3

/-- Does outlet k participate (R361)? -/
def State.lmgPart (s : State) (k : Nat) : Bool :=
  s.on (F.BAYK_CFG_LMG_IL k) && (s.on (F.BAYK_STATE_AUTHORISED k) || closedState (s.bay k))

/-- The declared load of an enabled outlet without LMG_IL. -/
def State.declared (s : State) (k : Nat) : Nat :=
  if s.enabled (0x30 + k) && !s.on (F.BAYK_CFG_LMG_IL k) then s.get (F.LMG_OUT_CFG_DECL_MA k) else 0

/-- m_k in mA: the largest I_RMS of the last published cycle. -/
def State.lmgMeas (s : State) (k : Nat) : Nat :=
  (divEven (((s.phases k).foldl (fun m p => max m (s.reg (A.MTRK_PH_I_RMS k p)).toNat) 0 : Nat) : Int) 10).toNat

/-- The cap of R362. -/
def State.lmgCap (s : State) (k : Nat) : Nat :=
  let c := min (s.get (F.BAYK_RATED_MA k)) (s.get (F.BAYK_HOST_LIMIT_MA k))
  if s.on (F.BAYK_CFG_PP_MODE k) then min c (capMa (s.get (F.BAYK_PP_CAP k))) else c

def State.alloc (s : State) (k : Nat) : Nat := s.get (F.LMG_OUT_ALLOC_MA k)
def State.prioOf (s : State) (k : Nat) : Bool := s.on (F.SES_OUT_STAT_PRIO k)

/-- The demand of R362, and whether it is reclaimed. -/
def State.lmgDemand (s : State) (k : Nat) : Nat × Bool :=
  let cap := s.lmgCap k
  if !s.on (F.LMG_OUT_CFG_RECLAIM k) then (cap, false)
  else
    let m := s.lmgMeas k
    let v := s.get F.LMG_VERIFY_VERIFY_MA
    let since := spRead (fun _ => 0) s.lm.below k
    if since ≠ 0 ∧ m + v < s.alloc k ∧ 60 * 32768 ≤ s.ts + 1 - since then (min cap (max 6000 (m + v)), true)
    else if s.lm.reclaimed.contains k ∧ s.alloc k ≤ m + v ∧ s.alloc k - m = v then (s.get (F.LMG_OUT_DEMAND_MA k), true)
    else if s.lm.reclaimed.contains k ∧ m + v < s.alloc k then (s.get (F.LMG_OUT_DEMAND_MA k), true)
    else (cap, false)

/-- Participants in the order of R361: PRIO first, then by joining. -/
def State.parts (s : State) : List Nat :=
  (s.lm.joined.filter fun k => s.prioOf k) ++ s.lm.joined.filter fun k => !s.prioOf k

-- Constraints (R360): index 0 the post, 1 to 4 the feeders, each on phases 0 to 2

/-- The limit of a constraint with RESERVE and the declared loads taken off; none where unbounded. -/
def State.conLimit (s : State) (c p : Nat) : Option Int :=
  if c = 0 then
    let lim := s.get (F.LMG_POST_LIM_MA p)
    some (if s.lmgRole = 0 then lim else min lim (s.get (F.LMG_BUDGET_MA (s.sitePh p))))
  else if s.get (F.LMG_FEEDER_LIM_MA (c - 1)) = 0xFFFFF then none else some (s.get (F.LMG_FEEDER_LIM_MA (c - 1)))

/-- Does outlet k draw on the constraint? -/
def State.usesCon (s : State) (k c p : Nat) : Bool := (s.phases k).contains p && (c == 0 || s.get (F.MTRK_CFG_FEEDER k) == c - 1)

def cons : List (Nat × Nat) := (List.range 5).flatMap fun c => (List.range 3).map fun p => (c, p)

/-- Slack of every constraint, given what outlets take. -/
def State.slack (s : State) (take : List (Nat × Nat)) : List ((Nat × Nat) × Int) :=
  cons.filterMap fun (c, p) => (s.conLimit c p).map fun lim =>
    let decl := (List.range 12).foldl (fun t k => if s.usesCon k c p then t + s.declared k else t) 0
    let used := take.foldl (fun t x => if s.usesCon x.1 c p then t + x.2 else t) 0
    ((c, p), lim - ((s.get F.LMG_RESERVE_MA + decl + used : Nat) : Int))

/-- The smallest slack among the constraints outlet k uses; large where none binds. -/
def State.slackOf (s : State) (k : Nat) (take : List (Nat × Nat)) : Int :=
  (s.slack take).foldl (fun m x => if s.usesCon k x.1.1 x.1.2 then min m x.2 else m) (2 ^ 40)

def shareOf (l : List (Nat × Nat)) (k : Nat) : Nat := match l.find? fun p => p.1 == k with
  | some p => p.2
  | none => 0
def shareSet (l : List (Nat × Nat)) (k v : Nat) : List (Nat × Nat) := l.map fun p => if p.1 == k then (k, v) else p

/-- Step 2 of R363 for one class: the open participants rise together. -/
def State.fill' (s : State) (d : List (Nat × Nat)) : Nat → List (Nat × Nat) → List Nat → List (Nat × Nat)
  | 0, t, _ => t
  | n + 1, t, op =>
    if op = [] then t
    else
      let sl := s.slack t
      let count (c : Nat × Nat) : Nat := (op.filter fun k => s.usesCon k c.1 c.2).length
      let d0 : Int := op.foldl (fun m k => min m ((shareOf d k : Int) - shareOf t k)) (2 ^ 40)
      let delta := sl.foldl (fun (m : Int) x => if count x.1 = 0 then m else min m (x.2 / (count x.1 : Int))) d0
      if delta ≤ 0 then
        State.fill' s d n t (op.filter fun k => !sl.any fun x => s.usesCon k x.1.1 x.1.2 && decide (x.2 < (count x.1 : Int)))
      else
        let t := op.foldl (fun t k => shareSet t k (shareOf t k + delta.toNat)) t
        State.fill' s d n t (op.filter fun k => shareOf t k != shareOf d k)

/-- The target allocations of R363. -/
def State.targets (s : State) (d : List (Nat × Nat)) : List (Nat × Nat) :=
  let ks := s.parts
  let t := ks.foldl (fun t k => t ++ [(k, if 6000 ≤ s.slackOf k t then 6000 else 0)]) ([] : List (Nat × Nat))
  let open' (t : List (Nat × Nat)) (prio : Bool) : List Nat :=
    ks.filter fun k => decide (6000 ≤ shareOf t k) && s.prioOf k == prio && decide (shareOf t k < shareOf d k)
  let t := s.fill' d 64 t (open' t true)
  s.fill' d 64 t (open' t false)

-- Events (R376)

def State.lmgEvent (s : State) (typ code idx : Nat) (vals : List Nat) : State :=
  s.emit 51 typ none 0 (le 1 code ++ le 1 idx ++ le 2 0 ++ le 4 (s.get F.LMG_BUDGET_SEQ_TAKEN) ++ le 8 s.ts
    ++ ([0, 1, 2].flatMap fun i => le 4 (vals.getD i 0)) ++ le 4 (s.get F.DEC_CYCLE_CNT))

def State.regs3 (s : State) (f : Nat → Fld) : List Nat := [0, 1, 2].map fun p => s.get (f p)

-- Writing allocations (R364 to R366)

/-- LMG writes a limit with the epoch it knows; a restart is met with a rewrite (R366). -/
def State.lmgWrite (s : State) (k v : Nat) : State :=
  if s.pf.warned || s.boot.bench then s
  else
    let e := s.get (F.BAYK_OEPOCH k)
    let known := spRead (fun _ => 0) s.lm.epochs k
    let s := if known = e then s
      else { s.err (0x30 + k) 0x40 with lm := { s.lm with
        epochs := spWrite (fun _ => 0) s.lm.epochs k e
        held := s.lm.held.filter fun h => h.1 != k } }
    ((s.put (F.BAYK_LMG_LIMIT_MA k) v).put (F.BAYK_LMG_LIMIT_EPOCH k) e).bumpSeq (0x30 + k)

/-- An allocation is the limit written, so none changes while LMG writes nothing. -/
def State.setAlloc (s : State) (k v : Nat) : State :=
  if s.pf.warned || s.boot.bench then s else (s.put (F.LMG_OUT_ALLOC_MA k) v).lmgWrite k v

/-- The held value h_k. -/
def State.heldVal (s : State) (k : Nat) : Nat := match s.lm.held.find? fun h => h.1 == k with
  | some h => max h.2.1 (s.alloc k)
  | none => s.alloc k

/-- A decrease is written at once, the old allocation held. -/
def State.decrease (s : State) (k v : Nat) : State :=
  if s.pf.warned || s.boot.bench then s else
  let h := s.heldVal k
  let s := { s with lm := { s.lm with held := (s.lm.held.filter fun (x : Nat × (Nat × Nat)) => x.1 != k) ++ [(k, (h, s.ts))] } }
  (s.put (F.LMG_OUT_ALLOC_PENDING k) 1).setAlloc k v

/-- An increase is granted as far as it fits with every outlet at its held value. -/
def State.increase (s : State) (k v : Nat) : State :=
  if s.lm.frozenC.any fun i => s.usesCon k (i % 5) (i / 5) then s
  else
    let h := s.heldVal k
    let room := s.slackOf k (s.parts.map fun j => (j, s.heldVal j))
    let v' := min v ((h : Int) + max 0 room).toNat
    if s.alloc k < v' then s.setAlloc k v' else s

/-- APPLIED_SEQ follows once the budget is met with every decrease verified (R370). -/
def State.applied (s : State) : State :=
  if s.lm.met && s.lm.held == [] then s.put F.LMG_BUDGET_SEQ_APPLIED (s.get F.LMG_BUDGET_SEQ_TAKEN) else s

/-- The participants as they stand: leavers give up their allocation (log entry 24), joiners come last. -/
def State.lmgJoin (s : State) : State :=
  let now := (List.range 12).filter s.lmgPart
  let gone := s.lm.joined.filter fun k => !now.contains k
  let come := now.filter fun k => !s.lm.joined.contains k
  let s := { s with lm := { s.lm with
      joined := (s.lm.joined.filter fun k => now.contains k) ++ come
      held := s.lm.held.filter fun h => now.contains h.1
      reclaimed := s.lm.reclaimed.filter now.contains
      epochs := come.foldl (fun l k => spWrite (fun _ => 0) l k (s.get (F.BAYK_OEPOCH k))) s.lm.epochs } }
  let s := gone.foldl (fun s k => (s.put (F.LMG_OUT_ALLOC_PENDING k) 0).setAlloc k 0) s
  s.put F.LMG_STAT_PART (now.foldl (fun m k => m + 2 ^ k) 0)

/-- A round (R363, R364). -/
def State.lmgRound (s : State) : State :=
  let before := (List.range 12).map s.alloc
  let s := s.lmgJoin
  let ds : List (Nat × (Nat × Bool)) := s.parts.map fun k => (k, s.lmgDemand k)
  let s := ds.foldl (fun s x => (s.put (F.LMG_OUT_DEMAND_MA x.1) x.2.1).put (F.LMG_OUT_DEMAND_PRIO x.1) (s.prioOf x.1).toNat) s
  let s := { s with lm := { s.lm with reclaimed := (ds.filter fun (x : Nat × (Nat × Bool)) => x.2.2).map fun (x : Nat × (Nat × Bool)) => x.1 } }
  let s := (List.range 12).foldl (fun s k => s.put (F.LMG_OUT_MEAS_MA k) (s.lmgMeas k)) s
  let t : List (Nat × Nat) := s.targets (ds.map fun (x : Nat × (Nat × Bool)) => (x.1, x.2.1))
  let s := t.foldl (fun s x => if x.2 < s.alloc x.1 then s.decrease x.1 x.2 else s) s
  let s := t.foldl (fun s x => if s.alloc x.1 < x.2 then s.increase x.1 x.2 else s) s
  let s := ({ s with lm := { s.lm with met := s.lm.master.isSome } }).applied
  if (List.range 12).map s.alloc = before then s
  else s.lmgEvent 0x60 s.lm.joined.length 0 ([0, 1, 2].map fun p =>
    s.lm.joined.foldl (fun t k => if s.usesCon k 0 p then t + s.alloc k else t) 0)

/-- LMG_ROUND. -/
def execLmgRound (s : State) : Out := s.onFabric fun s => if s.lmgOn then done s.lmgRound else done s

/-- A decrease is verified. -/
def State.verified (s : State) (k : Nat) : State :=
  (({ s with lm := { s.lm with held := s.lm.held.filter fun h => h.1 != k } }).put (F.LMG_OUT_ALLOC_PENDING k) 0).applied

/-- DECREASE_VERIFY (R365): the measured current is within VERIFY_MA of the target, or the ramp window has passed. -/
def execDecreaseVerify (k : Fin 12) (s : State) : Out := s.onFabric fun s =>
  match s.lm.held.find? fun h => h.1 == k.val with
  | none => done s
  | some (_, _, t) =>
    if s.lmgMeas k ≤ s.alloc k + s.get F.LMG_VERIFY_VERIFY_MA ∨ s.get F.BAY_OC_TIME_OC_GRACE * 32768 ≤ (s.ts - t) * 1000 then
      done (s.verified k)
    else done s

/-- A published cycle: measured currents, and how long a participant draws well below its allocation (R362). -/
def State.lmgCycle (s : State) : State :=
  if !s.lmgOn then s
  else (List.range 12).foldl (fun s k =>
    let m := s.lmgMeas k
    let since := spRead (fun _ => 0) s.lm.below k
    let now := if m + s.get F.LMG_VERIFY_VERIFY_MA < s.alloc k then (if since = 0 then s.ts + 1 else since) else 0
    ({ s with lm := { s.lm with below := spWrite (fun _ => 0) s.lm.below k now } }).put (F.LMG_OUT_MEAS_MA k) m) s

-- Overload (R367)

/-- The measured total of a constraint in mA. -/
def State.conTotal (s : State) (c p : Nat) : Nat :=
  (divEven (((List.range 12).foldl (fun t k =>
    if s.usesCon k c p && s.enabled (0x20 + k) then t + (s.reg (A.MTRK_PH_I_RMS k p)).toNat else t) 0 : Nat) : Int) 10).toNat
    + s.get F.LMG_RESERVE_MA

def State.showOver (s : State) : State :=
  s.put F.LMG_STAT_OVERLOAD (maskOf ([0, 1, 2].map fun p => s.lm.frozenC.contains (5 * p)))

/-- LMG_OVERLOAD: outside every ramp window. -/
def execLmgOverload (con : Fin 5) (p : Fin 3) (s : State) : Out := s.onFabric fun s =>
  let i := con.val + 5 * p.val
  match s.conLimit con p with
  | none => done s
  | some lim =>
    if s.lmgOn ∧ s.lm.held = [] ∧ !s.lm.frozenC.contains i ∧ lim + s.get F.LMG_VERIFY_VERIFY_MA < s.conTotal con p then
      let s := ((s.irq 0x1A 1).lmgEvent 0x63 con p [s.conTotal con p, lim.toNat, 0])
      let s := ({ s with lm := { s.lm with frozenC := s.lm.frozenC ++ [i] } }).showOver
      let ks := s.parts.filter fun k => s.usesCon k con p
      let rest := (s.parts.filter fun k => !s.usesCon k con p).map fun k => (k, s.alloc k)
      let t := ks.foldl (fun t k => t ++ [(k, if 6000 ≤ s.slackOf k t then 6000 else 0)]) rest
      done (ks.foldl (fun s k => if shareOf t k < s.alloc k then s.decrease k (shareOf t k) else s) s)
    else done s

/-- OVERLOAD_CLEAR. -/
def execOverloadClear (con : Fin 5) (p : Fin 3) (s : State) : Out := s.onFabric fun s =>
  let i := con.val + 5 * p.val
  match s.conLimit con p with
  | none => done s
  | some lim =>
    if s.lm.frozenC.contains i ∧ (s.conTotal con p : Int) ≤ lim then
      done ({ s with lm := { s.lm with frozenC := s.lm.frozenC.filter (· != i) } }).showOver
    else done s

-- A member's budget (R369, R370, R373)

/-- Sums over participants in site phases, with RESERVE and the declared loads. -/
def State.siteSum (s : State) (f : Nat → Nat) : List Nat :=
  [0, 1, 2].map fun q =>
    (List.range 3).foldl (fun t p =>
      if s.sitePh p = q then
        t + s.get F.LMG_RESERVE_MA + (List.range 12).foldl (fun t k =>
          if (s.phases k).contains p then t + s.declared k + (if s.lm.joined.contains k then f k else 0) else t) 0
      else t) 0

def State.ownReport (s : State) : PostReport :=
  { applied := s.get F.LMG_BUDGET_SEQ_APPLIED
    demand := s.siteSum fun k => s.get (F.LMG_OUT_DEMAND_MA k)
    prio := s.siteSum fun k => if s.prioOf k then s.get (F.LMG_OUT_DEMAND_MA k) else 0
    minA := s.siteSum fun _ => 6000
    safeA := s.regs3 F.LMG_SAFE_MA }

/-- The 56-byte report payload. -/
def State.reportPayload (s : State) : List Byte :=
  let r := s.ownReport
  let three (l : List Nat) : List Byte := [0, 1, 2].flatMap fun i => le 4 (l.getD i 0)
  le 4 s.epoch ++ le 2 r.applied ++ le 1 (s.get F.LMG_STAT_STATE) ++ le 1 (s.get F.LMG_CFG_ROT) ++ three r.demand ++ three r.prio
    ++ three r.minA ++ three r.safeA

/-- Is SEQ `a` later than `b`, modulo 2^16 (R64)? -/
def seqLater (a b : Nat) : Bool := a != b && decide ((a + 65536 - b) % 65536 < 32768)

def State.setBudget (s : State) (b : List Nat) : State := [0, 1, 2].foldl (fun s q => s.put (F.LMG_BUDGET_MA q) (b.getD q 0)) s

/-- A budget section received by a member. -/
def State.takeBudget (s : State) (p : List Byte) : State :=
  if !(s.lmgOn && s.lmgRole == 1 && p.length == 24) then s
  else
    let ep := fieldLe p 0 4
    let seq := fieldLe p 4 2
    let age := fieldLe p 6 2
    let b := [fieldLe p 8 4, fieldLe p 12 4, fieldLe p 16 4]
    let lease := fieldLe p 20 1 * 1000
    let ev (s : State) (c : Nat) : State := (s.irq 0x1A 2).lmgEvent 0x61 c 0 b
    if lease ≤ age then ev s 1
    else if s.lm.master = some ep ∧ !seqLater seq (s.get F.LMG_BUDGET_SEQ_TAKEN) then ev s 2
    else
      let was := s.get F.LMG_STAT_STATE
      let s := { s with lm := { s.lm with master := some ep, met := false, leaseEnd := s.ts + (lease - age) * 32768 / 1000 } }
      let s := ((s.put F.LMG_BUDGET_SEQ_TAKEN seq).setBudget b).put F.LMG_STAT_STATE 1
      let s := ev s 0
      let s := if was = 2 then (s.irq 0x1A 0).lmgEvent 0x62 0 0 (s.regs3 F.LMG_SAFE_MA) else s
      s.lmgRound

/-- LEASE.LEFT_MS as read. -/
def State.leaseLeft (s : State) : Nat := if s.get F.LMG_STAT_STATE = 1 then (s.lm.leaseEnd - s.ts) * 1000 / 32768 else 0

/-- LEASE_FALLBACK (R373). -/
def execLeaseFallback (s : State) : Out := s.onFabric fun s =>
  if s.lmgOn ∧ s.get F.LMG_STAT_STATE = 1 ∧ s.leaseLeft ≤ s.get F.LMG_TIMING_FB_LEAD_S * 1000 then
    let safe := s.regs3 F.LMG_SAFE_MA
    let s := (s.setBudget safe).put F.LMG_STAT_STATE 2
    done ((s.irq 0x1A 0).lmgEvent 0x62 1 0 safe).lmgRound
  else done s

/-- HOLD of a master (R375). -/
def State.holdBegin (s : State) : State :=
  ((s.put F.LMG_SITE_STAT_HOLD 1).irq 0x1A 4).lmgEvent 0x65 1 0 (s.regs3 F.LMG_SITE_LIM_MA)

/-- CFG.ROLE is written (R373, R377); the code that refuses it, if any. -/
def State.lmgRoleWrite (s : State) (old : Nat) : State :=
  let new := s.lmgRole
  let safe := s.regs3 F.LMG_SAFE_MA
  if new = old then s
  else
    let s := { s with lm := { s.lm with master := none, met := false } }
    if new = 1 then (s.setBudget safe).put F.LMG_STAT_STATE 2
    else
      let s := s.put F.LMG_STAT_STATE 0
      if new = 0 then s.setBudget [0xFFFFF, 0xFFFFF, 0xFFFFF]
      else
        let s := s.setBudget safe
        if s.lmgOn then s.holdBegin else s

/-- May ROLE 1 be set: is SAFE at least RESERVE plus the declared loads on every site phase (R377)? -/
def State.safeOk (s : State) : Bool :=
  [0, 1, 2].all fun p => decide (s.get F.LMG_RESERVE_MA
    + (List.range 12).foldl (fun t k => if (s.phases k).contains p then t + s.declared k else t) 0 ≤ s.get (F.LMG_SAFE_MA (s.sitePh p)))

/-- MASTER_HOLD_END. -/
def execMasterHoldEnd (s : State) : Out := s.onFabric fun s =>
  if s.on F.LMG_SITE_STAT_HOLD then
    done (((s.put F.LMG_SITE_STAT_HOLD 0).irq 0x1A 4).lmgEvent 0x65 0 0 (s.regs3 F.LMG_SITE_LIM_MA))
  else done s

-- The master's table and budgets (R368, R371, R372)

def State.posts (s : State) : Nat := s.get F.LMG_SITE_CFG_POSTS
def State.postAddr (s : State) (n : Nat) : Nat := ofLe (s.sramBytes (0x80000 + 16 * n) 2)
def State.postSafe (s : State) (n : Nat) : List Nat := [0, 1, 2].map fun q => ofLe (s.sramBytes (0x80000 + 16 * n + 4 + 4 * q) 4)

def noRepeat : List Nat → Bool
  | [] => true
  | a :: l => !l.contains a && noRepeat l

/-- SITE_CFG.ACTIVATE. -/
def State.siteActivate (s : State) : State :=
  let ns := List.range s.posts
  let addrs := ns.map s.postAddr
  let ok := s.posts != 0 && noRepeat addrs && addrs.contains (s.get F.MSH_ADDR_ADDR)
    && [0, 1, 2].all fun q => decide (ns.foldl (fun t n => t + (s.postSafe n).getD q 0) 0 ≤ s.get (F.LMG_SITE_LIM_MA q))
  if ok then s.put F.LMG_SITE_STAT_VALID 1 else s.err 0x1A 0x70

def State.siteRelease (s : State) : State × Option Nat :=
  if s.lmgRole = 2 ∧ s.lmgOn then (s.err 0x1A 0x1E, some 0x1E) else (s.put F.LMG_SITE_STAT_VALID 0, none)

def execSiteActivate (s : State) : Out := s.onFabric fun s => done (s.siteActivate.bumpSeq 0x1A)
def execSiteRelease (s : State) : Out := s.onFabric fun s =>
  let (s, r) := s.siteRelease
  done (if r = none then s.bumpSeq 0x1A else s)

/-- The master's own table entry. -/
def State.ownPost (s : State) : Option Nat := (List.range s.posts).find? fun n => s.postAddr n == s.get F.MSH_ADDR_ADDR

/-- The report of a table entry; the master's own at once. -/
def State.reportOf (s : State) (n : Nat) : Option PostReport :=
  if s.ownPost = some n then some s.ownReport else match s.lm.reports.find? fun r => r.1 == n with
    | some r => some r.2
    | none => none

/-- The reservation V_i of R372 on site phase q, before a new budget. -/
def State.reserve (s : State) (n q : Nat) : Nat :=
  let mine := s.lm.sent.filter fun b => b.post == n
  let applied := match s.reportOf n with
    | some r => some r.applied
    | none => none
  let live (b : SentBudget) : Bool := (applied.all fun a => seqLater b.seq a)
    && decide ((s.ts - b.ts) * 1000 < (s.get F.LMG_TIMING_LEASE_S * 1000 + s.get F.LMG_VERIFY_GUARD_MS) * 32768)
  let last := match mine.getLast? with
    | some b => b.b.getD q 0
    | none => 0
  let own := if s.ownPost = some n then s.get (F.LMG_BUDGET_MA q) else 0
  ((mine.filter live).foldl (fun m b => max m (b.b.getD q 0)) (max own (max last ((s.postSafe n).getD q 0))))

/-- Budgets rise under the reservation (R371): `b` and `cap` by post; `room` is what is left of SITE_LIM. -/
def waterFill (v cap : List Nat) : Nat → List Nat → Nat → List Nat → List Nat × Nat
  | 0, b, room, _ => (b, room)
  | n + 1, b, room, op =>
    if op = [] then (b, room)
    else
      let at' (l : List Nat) (i : Nat) : Nat := l.getD i 0
      let paying := op.filter fun i => decide (at' v i ≤ at' b i)
      let d0 := op.foldl (fun m i => min m (at' cap i - at' b i)) (2 ^ 40)
      let d1 := op.foldl (fun m i => if at' b i < at' v i then min m (at' v i - at' b i) else m) d0
      let delta := if paying = [] then d1 else min d1 (room / paying.length)
      if delta = 0 then waterFill v cap n b room (op.filter fun i => decide (at' b i < at' v i))
      else
        let b := (List.range b.length).map fun i => if op.contains i then at' b i + delta else at' b i
        waterFill v cap n b (room - delta * paying.length) (op.filter fun i => decide (at' b i < at' cap i))

/-- The budgets of all posts on one site phase (R371, R372, R375). -/
def State.budgets (s : State) (q : Nat) : List Nat :=
  let ns := List.range s.posts
  let v := ns.map fun n => s.reserve n q
  let lim := s.get (F.LMG_SITE_LIM_MA q)
  let safe := ns.map fun n => (s.postSafe n).getD q 0
  let rep (n : Nat) : Option PostReport := match s.reportOf n with
    | some r => if s.on F.LMG_SITE_STAT_HOLD || r.safeA != s.postSafe n then none else some r
    | none => none
  let first (room : Nat) (n : Nat) : Nat × Nat :=
    match rep n with
    | none => (safe.getD n 0, room)
    | some r =>
      let w := min (r.demand.getD q 0) (max (safe.getD n 0) (r.minA.getD q 0))
      let b := min w (v.getD n 0 + room)
      (b, room - (b - v.getD n 0))
  let (b, room) := ns.foldl (fun (x : List Nat × Nat) n => let y := first x.2 n; (x.1 ++ [y.1], y.2))
    (([] : List Nat), lim - v.foldl (· + ·) 0)
  let cap (f : PostReport → List Nat) : List Nat := ns.map fun n => match rep n with
    | some r => max (b.getD n 0) ((f r).getD q 0)
    | none => b.getD n 0
  let c1 := cap PostReport.prio
  let (b, room) := waterFill v c1 4096 b room (ns.filter fun n => decide (b.getD n 0 < c1.getD n 0))
  let c2 := cap PostReport.demand
  (waterFill v c2 4096 b room (ns.filter fun n => decide (b.getD n 0 < c2.getD n 0))).1

/-- The master computes every post's budget; its own takes effect at once. -/
def State.computeBudgets (s : State) : State :=
  if !(s.lmgOn && s.lmgRole == 2 && s.on F.LMG_SITE_STAT_VALID) then s
  else
    let bs := [0, 1, 2].map s.budgets
    let of' (n : Nat) : List Nat := bs.map fun b => b.getD n 0
    let s := { s with lm := { s.lm with targets := (List.range s.posts).map fun n => (n, of' n) } }
    match s.ownPost with
    | some n => s.setBudget (of' n)
    | none => s

/-- The budget section for a poll to address `a` (R369, R372), with the budget noted as sent. -/
def State.sendBudget (s : State) (a : Nat) : State × List Byte :=
  if !(s.lmgOn && s.lmgRole == 2 && s.on F.LMG_SITE_STAT_VALID) then (s, [])
  else match (List.range s.posts).find? fun n => s.postAddr n == a with
    | none => (s, [])
    | some n =>
      let want := match s.lm.targets.find? fun t => t.1 == n with
        | some t => t.2
        | none => s.postSafe n
      let b := [0, 1, 2].map fun q =>
        let total := (List.range s.posts).foldl (fun t m => t + s.reserve m q) 0
        min (want.getD q 0) (s.reserve n q + (s.get (F.LMG_SITE_LIM_MA q) - total))
      let seq := (s.lm.seq + 1) % 65536
      let s := { s with lm := { s.lm with seq := seq, sent := s.lm.sent ++ [⟨n, seq, s.ts, b⟩] } }
      (s, le 4 s.epoch ++ le 2 seq ++ le 2 0 ++ (b.flatMap fun x => le 4 x) ++ le 1 (s.get F.LMG_TIMING_LEASE_S) ++ le 3 0)

/-- A report from the post at address `a` (R369, R370, R371). -/
def State.takeReport (s : State) (a : Nat) (p : List Byte) : State :=
  if !(s.lmgOn && s.lmgRole == 2 && s.on F.LMG_SITE_STAT_VALID && p.length == 56) then s
  else match (List.range s.posts).find? fun n => s.postAddr n == a with
    | none => s
    | some n =>
      let three (o : Nat) : List Nat := [0, 4, 8].map fun i => fieldLe p (o + i) 4
      let r : PostReport := ⟨fieldLe p 4 2, three 8, three 20, three 32, three 44⟩
      let old := s.reportOf n
      let s := { s with lm := { s.lm with
          reports := (s.lm.reports.filter fun x => x.1 != n) ++ [(n, r)]
          sent := s.lm.sent.filter fun b => b.post != n || !seqLater r.applied b.seq } }
      let s := if r.safeA = s.postSafe n then s
        else ((s.incSat F.LMG_SITE_STAT_MISMATCH).irq 0x1A 3).lmgEvent 0x64 (n % 256) 0 r.safeA
      if (old.map PostReport.demand) = some r.demand then s else s.computeBudgets

-- CTRL.ENABLE and soft reset (R377, R378)

/-- CTRL.ENABLE of LMG is set: a master begins in HOLD (R375). -/
def State.lmgStart (s : State) : State := if s.lmgRole = 2 then s.holdBegin else s

/-- A soft reset of LMG beside its registers; the post table stays. -/
def State.resetLmg (s : State) : State := { s with lm := { seq := s.lm.seq } }

end Sys2Proof.Machine
end

