-- ==== Sys2Proof/Machine/Display.lean ====
section
/-! DEFINITION. EPD: pixel records, waveform tables, updates, the deckle and its writer, and the panel's supplies (13_display.md). -/
namespace Sys2Proof.Machine

-- The panel and its pixel records (R380, R383)

def State.panW (s : State) : Nat := s.get F.EPD_PANEL_W
def State.panH (s : State) : Nat := s.get F.EPD_PANEL_H
def State.epdBusy (s : State) : Bool := s.lcd.slots != [] || s.lcd.waiting.isSome
def State.epdEvent (s : State) (b : Nat) : State := s.event 0x1E b noUnit

/-- A pixel record: CUR, TGT and the signed residue RES. -/
structure Pix where
  cur : Nat
  tgt : Nat
  res : Int

def Pix.ofNat (v : Nat) : Pix := ⟨v % 16, v / 16 % 16, signedOf 8 (v / 256 % 256)⟩
def Pix.toNat (p : Pix) : Nat := p.cur + 16 * p.tgt + 256 * unsignedOf 8 p.res

/-- Byte offset of the record of pixel (x, y). -/
def State.pixAt (s : State) (x y : Nat) : Nat := 2 * (y * s.panW + x)
def State.pix (s : State) (x y : Nat) : Pix := Pix.ofNat (ofLe (s.dispBytes (s.pixAt x y) 2))
def State.setPix (s : State) (x y : Nat) (p : Pix) : State := s.dispPut (s.pixAt x y) (le 2 p.toNat)

/-- The deckle in force: DX, DY, DW, DH. -/
def DeckleLayout.rect (l : DeckleLayout) : Nat × Nat × Nat × Nat :=
  (getBits l.xy 0 12, getBits l.xy 16 12, getBits l.wh 0 12, getBits l.wh 16 12)
def State.deckle (s : State) : Nat × Nat × Nat × Nat := match s.lcd.layout with
  | some l => l.rect
  | none => (0, 0, 0, 0)
def inRect (x y : Nat) : Nat × Nat × Nat × Nat → Bool
  | (x0, y0, w, h) => decide (x0 ≤ x) && decide (x < x0 + w) && decide (y0 ≤ y) && decide (y < y0 + h)
def State.inDeckle (s : State) (x y : Nat) : Bool := inRect x y s.deckle

/-- Is the pixel one of the update's (R389)? -/
def State.covers (s : State) (u : Update) (x y : Nat) : Bool :=
  inRect x y (u.x, u.y, u.w, u.h) && (u.zone == 2 || s.inDeckle x y == (u.zone == 1))

/-- The update's pixels of one row, and all of them. -/
def State.rowOf (s : State) (u : Update) (y : Nat) : List (Nat × Nat) :=
  ((List.range u.w).map fun i => (u.x + i, y)).filter fun q => s.covers u q.1 q.2
def State.pixelsOf (s : State) (u : Update) : List (Nat × Nat) := (List.range u.h).flatMap fun j => s.rowOf u (u.y + j)

/-- Does a running or waiting update hold the pixel? -/
def State.pixBusy (s : State) (x y : Nat) : Bool :=
  (s.lcd.slots.any fun p => s.covers p.2 x y) || match s.lcd.waiting with
    | some u => s.covers u x y
    | none => false

/-- Does a running update hold one of the update's pixels? -/
def State.overlaps (s : State) (u : Update) : Bool :=
  (s.pixelsOf u).any fun q => s.lcd.slots.any fun p => s.covers p.2 q.1 q.2

-- Waveform tables (R385 to R388)

/-- Where a table's bytes are read from: SRAM for the table in force, flash for a copy. -/
abbrev Table := Nat → Nat → List Byte
def Table.num (t : Table) (a n : Nat) : Nat := ofLe (t a n)
def State.table (s : State) : Table := fun a n => s.sramBytes (0xC0000 + a) n
def State.tableCopy (s : State) (b : Bool) : Table := fun a n => s.flashBytes (imgAddr b + a) n

def Table.frames (t : Table) (m b : Nat) : Nat := t.num (32 + 8 * (8 * m + b) + 4) 2
def Table.code (t : Table) (m b c g n : Nat) : Nat :=
  t.num (t.num (32 + 8 * (8 * m + b)) 4 + 64 * n + (16 * c + g) / 4) 1 / 4 ^ ((16 * c + g) % 4) % 4
def Table.blindFrames (t : Table) (b : Nat) : Nat := t.num (1056 + 8 * b + 4) 2
def Table.blindCode (t : Table) (b n : Nat) : Nat := t.num (t.num (1056 + 8 * b) 4 + n) 1 % 4
def Table.edge (t : Table) (i : Nat) : Int := signedOf 16 (t.num (12 + 2 * i) 2)

/-- What a code adds to RES (R386). -/
def codeRes (c : Nat) : Int := if c = 1 then 1 else if c = 2 then -1 else 0
def sumRes (l : List Nat) : Int := l.foldl (fun t c => t + codeRes c) 0

/-- The codes of one transition, frame by frame. -/
def Table.wave (t : Table) (m b c g : Nat) : List Nat := (List.range (t.frames m b)).map fun n => t.code m b c g n
def Table.blindWave (t : Table) (b : Nat) : List Nat := (List.range (t.blindFrames b)).map fun n => t.blindCode b n

/-- Does the running sum stay within ±63? -/
def runOk : Int → List Nat → Bool
  | _, [] => true
  | v, c :: l => decide ((v + codeRes c).natAbs ≤ 63) && runOk (v + codeRes c) l

def pairs16 : List (Nat × Nat) := (List.range 16).flatMap fun c => (List.range 16).map fun g => (c, g)

/-- A copy that can be read at all: LENGTH within bounds and the CRC verifies. -/
def Table.whole (t : Table) : Bool :=
  let n := t.num 4 4
  decide (1124 ≤ n) && decide (n ≤ 196608) && decide (crc32 (t 0 (n - 4)) = t.num (n - 4) 4)

/-- The checks of R387. -/
def Table.qualifies (t : Table) : Bool :=
  let n := t.num 4 4
  t.whole && decide (t.num 0 1 = 1) && decide (11765 ≤ t.num 28 4) && decide (t.num 28 4 ≤ 100000)
    && ((List.range 6).all fun i => decide (t.edge i < t.edge (i + 1)))
    && ((List.range 8).all fun b =>
      ((List.range 16).all fun m => decide (t.frames m b ≤ 255)
        && (decide (t.frames m b = 0) || decide (t.num (32 + 8 * (8 * m + b)) 4 + 64 * t.frames m b ≤ n)))
      && decide (t.blindFrames b ≤ 255) && decide (t.num (1056 + 8 * b) 4 + t.blindFrames b ≤ n)
      && decide (t.frames 0 b ≠ 0) && decide (t.blindFrames b ≠ 0)
      && decide (sumRes (t.blindWave b) = 0) && runOk 0 (t.blindWave b)
      && (pairs16.all fun q => decide (sumRes (t.wave 0 b q.1 q.2) = 0))
      && ((List.range 16).all fun m => pairs16.all fun q => runOk 0 (t.wave m b q.1 q.2)))

/-- Is copy B newer than copy A (R198, by SEQ)? -/
def State.newerB (s : State) : Bool :=
  let d := ((s.tableCopy true).num 8 4 + 2 ^ 32 - (s.tableCopy false).num 8 4) % 2 ^ 32
  decide (1 ≤ d) && decide (d < 2 ^ 31)

/-- The copy R198 takes among those that pass a test. -/
def State.pickCopy (s : State) (ok : Table → Bool) : Option Bool :=
  match ok (s.tableCopy false), ok (s.tableCopy true) with
  | true, true => some s.newerB
  | true, false => some false
  | false, true => some true
  | false, false => none

/-- Does the panel's frame fit a frame period (R382)? In ns. -/
def State.frameFits (s : State) (frameUs : Nat) : Bool :=
  decide ((s.panW / 4 + s.get F.EPD_BUS_LINE_PAD) * s.get F.EPD_BUS_SCLK_DIV * 10 * (s.panH + 1) + 100000 ≤ frameUs * 1000)

/-- A copy is loaded into SRAM and comes into force (R385, R405). -/
def State.loadTable (s : State) (b : Bool) : State :=
  let t := s.tableCopy b
  let n := t.num 4 4
  let s := s.sramPut 0xC0000 (t 0 n)
  let s := ((s.put F.EPD_WF_STAT_VALID 1).put F.EPD_WF_STAT_TAKEN_B b.toNat).put F.EPD_WF_STAT_SEQ (t.num 8 4)
  (s.setReg A.EPD_WF_ID (BitVec.ofNat 32 (t.num (n - 4) 4))).put F.EPD_FRAME_US_US (t.num 28 4)

/-- The temperature in use and its band (R388). -/
def State.epdTemp (s : State) : Int :=
  if s.on F.EPD_TEMP_CFG_SRC && !s.on F.EPD_TEMP_STAT_STALE then s.getInt F.EPD_TEMP_HOST_T
  else s.getInt F.CAL_TEMP_T + s.getInt F.EPD_TEMP_CFG_OFS
def State.epdBand (s : State) : Nat :=
  if s.on F.EPD_WF_STAT_VALID then ((List.range 7).filter fun i => decide (s.table.edge i ≤ s.epdTemp)).length else 0

/-- TEMP_STAT follows. -/
def State.showPanelTemp (s : State) : State := (s.putInt F.EPD_TEMP_STAT_T s.epdTemp).put F.EPD_TEMP_STAT_BAND s.epdBand

/-- A write of TEMP_HOST refreshes it. -/
def State.tempHost (s : State) (v : Nat) : State :=
  ({ s with lcd := { s.lcd with hostTs := s.ts } }.put F.EPD_TEMP_HOST_T v).put F.EPD_TEMP_STAT_STALE 0 |>.showPanelTemp

/-- TEMP_HOST_STALE (R388): TEMP_HOST older than 600 s. -/
def execTempHostStale (s : State) : Out := s.onFabric fun s =>
  if s.on F.EPD_TEMP_CFG_SRC ∧ 600 * 32768 < s.ts - s.lcd.hostTs then done (s.put F.EPD_TEMP_STAT_STALE 1).showPanelTemp
  else done s

-- Driving (R392)

/-- The code a pixel receives in frame n. -/
def Update.code (u : Update) (t : Table) (n : Nat) (q : Pix) : Nat :=
  if u.blind then t.blindCode u.band n
  else if n < u.p then (if 0 < q.res then 2 else if q.res < 0 then 1 else 0)
  else t.code u.mode u.band q.cur q.tgt (n - u.p)

/-- A pixel record after frame n. -/
def Update.drive (u : Update) (t : Table) (n : Nat) (q : Pix) : Pix :=
  let q := { q with res := signedOf 8 (unsignedOf 8 (q.res + codeRes (u.code t n q))) }
  if n + 1 ≠ u.frames then q
  else if u.blind then ⟨t.num 1 1 % 16, t.num 1 1 % 16, 0⟩
  else { q with cur := q.tgt }

/-- A record after frames `from` to `from + n − 1`. -/
def Update.driveFrom (u : Update) (t : Table) (start : Nat) : Nat → Pix → Pix
  | 0, q => q
  | n + 1, q => Update.driveFrom u t (start + 1) n (u.drive t start q)

/-- One frame over the update's rows, but for those driven before a power loss. -/
def State.driveFrame (s : State) (u : Update) : State :=
  let t := s.table
  (List.range (u.h - u.skip)).foldl (fun s j => (s.rowOf u (u.y + u.skip + j)).foldl
    (fun s q => s.setPix q.1 q.2 (u.drive t u.frame (s.pix q.1 q.2))) s) s

-- Slot registers and frames on ring 45 (R394, R405)

/-- The payload of R394. -/
def State.updPayload (s : State) (slot : Nat) (u : Update) : List Byte :=
  le 1 slot ++ le 1 (maskOf [u.clipped, u.masked, u.upgraded, u.stale]) ++ le 1 u.mode ++ le 1 u.band
    ++ le 2 u.x ++ le 2 u.y ++ le 2 u.w ++ le 2 u.h ++ le 2 u.frames ++ le 2 0 ++ le 8 s.ts

/-- FILL and WF_ACTIVATE have no mode, band or frame count: the words are free values. -/
def State.plainPayload (s : State) (u : Update) : List Byte :=
  s.updPayload 0xFF { u with mode := s.free % 256, band := s.free / 256 % 256, frames := s.free / 65536 % 65536 }

def State.accept (s : State) (ref status : Nat) (payload : List Byte) : State := s.emit 45 0x81 (some ref) status payload

/-- A refused display command: the block's error and the code in the response (R579). -/
def State.epdRefuse (s : State) (ref code : Nat) (u : Update) : State :=
  ((s.err 0x1E code).accept ref code (s.plainPayload u)).took

def State.slotUsed (s : State) (n : Nat) : Bool := s.lcd.slots.any fun p => p.1 == n
def State.freeSlot (s : State) : Option Nat := [1, 2, 3].find? fun n => !s.slotUsed n

/-- STATE.BUSY: the slots that run, and the one the waiting update is to take. -/
def State.showUpdSlots (s : State) : State :=
  let wait := if s.lcd.waiting.isSome then s.freeSlot else none
  s.put F.EPD_STATE_BUSY (maskOf ((List.range 4).map fun n => s.slotUsed n || wait == some n))

def State.setUpd (s : State) (n : Nat) (u : Update) : State :=
  let s := { s with lcd := { s.lcd with slots := (s.lcd.slots.filter fun (p : Nat × Update) => p.1 != n) ++ [(n, u)] } }
  let s := ((s.put (F.EPD_SLOT_XY_X n) u.x).put (F.EPD_SLOT_XY_Y n) u.y)
  let s := ((s.put (F.EPD_SLOT_WH_W n) u.w).put (F.EPD_SLOT_WH_H n) u.h)
  let s := ((s.put (F.EPD_SLOT_INFO_MODE n) u.mode).put (F.EPD_SLOT_INFO_BAND n) u.band)
  let s := ((s.put (F.EPD_SLOT_INFO_UPGRADED n) u.upgraded.toNat).put (F.EPD_SLOT_INFO_FRAMES n) u.frames)
  ((s.put (F.EPD_SLOT_PROG_FRAME n) u.frame).put (F.EPD_SLOT_PROG_P n) u.p).showUpdSlots

def State.dropSlot (s : State) (n : Nat) : State :=
  ({ s with lcd := { s.lcd with slots := s.lcd.slots.filter fun p => p.1 != n } }).showUpdSlots

/-- The preparation pass (R393): mode 0 where a pixel would end beyond RES_LIM, and the balance phase of mode 0. -/
def State.prepare (s : State) (u : Update) : Update :=
  let t := s.table
  if u.blind then { u with frames := t.blindFrames u.band, p := 0, frame := 0, mode := 0 }
  else
    let px := (s.pixelsOf u).map fun q => s.pix q.1 q.2
    let bad := u.mode ≠ 0 ∧ (px.any fun q =>
      decide (s.get F.EPD_RES_LIM_LIM < (q.res + sumRes (t.wave u.mode u.band q.cur q.tgt)).natAbs)) = true
    let mode := if bad then 0 else u.mode
    let p := if mode = 0 then px.foldl (fun m q => max m q.res.natAbs) 0 else 0
    { u with mode := mode, upgraded := u.upgraded || decide bad, p := p, frames := p + t.frames mode u.band, frame := 0 }

/-- RES is taken as zero at the start of a blind clear (R392). -/
def State.blindStart (s : State) (u : Update) : State :=
  if u.blind then (s.pixelsOf u).foldl (fun s q => s.setPix q.1 q.2 { s.pix q.1 q.2 with res := 0 }) s else s

/-- UPDATE_SLOT_START (R389, R391, R393, R394): the waiting update takes a free slot once it overlaps none that runs. -/
def execUpdateSlotStart (s : State) : Out := s.onFabric fun s =>
  match s.lcd.waiting, s.freeSlot with
  | some u, some n =>
    if !s.enabled 0x1E || s.overlaps u || s.pf.warned || !s.on F.EPD_WF_STAT_VALID then done s
    else
      let u := { u with band := s.epdBand, stale := s.on F.EPD_TEMP_STAT_STALE }
      let s := { s with lcd := { s.lcd with waiting := none } }
      if !u.blind ∧ s.table.frames u.mode u.band = 0 then
        done (match u.ref with
          | some r => (s.epdRefuse r 0x83 u).showUpdSlots
          | none => s.showUpdSlots)
      else
        let u := s.prepare u
        let s := (s.blindStart u).setUpd n u
        done (match u.ref with
          | some r => s.accept r 0 (s.updPayload n u)
          | none => s)
  | _, _ => done s

-- The deckle's records and journal in the felt store (R399, R400)

def deckleBase : Nat := 0x20000
def journalBase : Nat := 0x32000
def State.journal (s : State) (i : Nat) : Nat := ofLe (s.feltBytes (journalBase + 4 * i) 4)
def State.setJournal (s : State) (i v : Nat) : State := s.feltPut (journalBase + 4 * i) (le 4 v)

/-- Deckle pixels in raster order. -/
def State.decklePixels (s : State) : List (Nat × Nat) :=
  let (x, y, w, h) := s.deckle
  (List.range h).flatMap fun j => (List.range w).map fun i => (x + i, y + j)

def State.feltPix (s : State) (i : Nat) : Pix := Pix.ofNat (ofLe (s.feltBytes (deckleBase + 2 * i) 2))
def State.setFeltPix (s : State) (i : Nat) (q : Pix) : State := s.feltPut (deckleBase + 2 * i) (le 2 q.toNat)

/-- The felt records into display SRAM, each changed by `f` of its row within the deckle. -/
def State.loadDeckle (s : State) (f : Nat → Pix → Pix) : State :=
  let w := s.deckle.2.2.1
  (s.decklePixels.zipIdx).foldl (fun s q => s.setPix q.1.1 q.1.2 (f (q.2 / max 1 w) (s.feltPix q.2))) s

/-- One word of the commit: its old content saved, then the final records. -/
def State.commitWord (s : State) (u : Update) (i : Nat) : State :=
  let t := s.table
  let s := (s.setJournal 3 i).setJournal 4 (ofLe (s.feltBytes (deckleBase + 4 * i) 4))
  let s := s.setJournal 3 (i + 65536)
  (s.setFeltPix (2 * i) (u.driveFrom t 0 u.frames (s.feltPix (2 * i)))).setFeltPix (2 * i + 1)
    (u.driveFrom t 0 u.frames (s.feltPix (2 * i + 1)))

/-- DECKLE_COMMIT (R400) from word `i` on. -/
def State.commitDeckle (s : State) (u : Update) (i : Nat) : State :=
  let w0 := s.journal 0
  let s := s.setJournal 0 (w0 - w0 % 4 + 2)
  let s := (List.range (16384 - i)).foldl (fun s j => s.commitWord u (i + j)) s
  s.setJournal 0 (w0 - w0 % 4)

/-- The update the journal names. -/
def State.journalUpdate (s : State) : Update :=
  let (x, y, w, h) := s.deckle
  let w0 := s.journal 0
  let w1 := s.journal 1
  { mode := w0 / 16 % 16, band := w0 / 256 % 8, upgraded := w0.testBit 11, zone := 1, x := x, y := y, w := w, h := h,
    frames := w1 % 65536, p := w1 / 65536 % 256 }

-- The writer (R356, R396, R397)

/-- The totals of the last couch, or of the newest copy before the first couch of a run (R200). -/
def State.couched (s : State) : LegalRec :=
  match s.se.last with
  | some (c, _) => c
  | none => ((if s.mt.lastB then s.mt.copyB else s.mt.copyA)).getD ⟨0, 0, 0, 0, 0, 0, 0, []⟩

def digits (n v : Nat) : List Char := (List.range n).map fun i => Char.ofNat (48 + v / 10 ^ (n - 1 - i) % 10)

/-- The 11-character form of R396. -/
def kwh (v : Nat) : List Char := digits 3 (v / 1000000) ++ ",".toList ++ digits 3 (v / 1000) ++ ".".toList ++ digits 3 v

/-- Lines L0, and L1 in absolute mode. -/
def headLines (k : Nat) (m : Char) (abs : Bool) (imp exp net : Nat) : List (List Char) :=
  let l0 (v : Nat) : List Char := digits 2 k ++ [m] ++ kwh v ++ "kWh".toList
  if abs then [l0 imp, "−".toList ++ kwh exp ++ "kWh".toList] else [l0 net]

def sub9 (a b : Nat) : Nat := (a + 1000000000 - b % 1000000000) % 1000000000

/-- The lines of an outlet in a situation (R397); `mark` is its newest START or STOP record. -/
def State.fieldLines (s : State) (k sit : Nat) (mark : List Byte) : List (List Char) :=
  let (a, abs, _) := s.couched.outlets.getD k ({}, false, 0)
  let m := if sit = 3 then '×' else if sit = 1 then '●' else ' '
  if sit = 2 then
    let abs := (fieldLe mark 121 1).testBit 0
    let m := if (fieldLe mark 3 1).testBit 0 then '!' else ' '
    let imp := legalWh (fieldLe mark 40 8)
    let exp := legalWh (fieldLe mark 48 8)
    let net := legalWh (fieldLe mark 56 8)
    let di := fieldLe mark 104 4
    let de := fieldLe mark 108 4
    headLines k m abs imp exp net ++ ["W".toList ++ digits 8 (fieldLe mark 4 4)] ++
      (if abs then ["Δ+".toList ++ kwh di, "Δ−".toList ++ kwh de, "<+".toList ++ kwh (sub9 imp di), "<−".toList ++ kwh (sub9 exp de)]
       else ["Δ".toList ++ kwh di, "<".toList ++ kwh (sub9 net di)])
  else
    let heads := headLines k m abs (legalWh a.imp) (legalWh a.exp) (legalWh a.net)
    if sit = 1 then
      let x := (s.session k).start
      heads ++ ["#".toList ++ digits 8 (s.get (F.SES_OUT_SESSION_ID k))] ++
        (if abs then ["Δ+".toList ++ kwh (sub9 (legalWh a.imp) (legalWh x.imp)), "Δ−".toList ++ kwh (sub9 (legalWh a.exp) (legalWh x.exp))]
         else ["Δ".toList ++ kwh (sub9 (legalWh a.net) (legalWh x.net))])
    else heads

/-- The situation of an outlet (R356), the record it follows, and the value whose change calls for a write. -/
def State.situation (s : State) (k : Nat) : Nat × List Byte × Nat :=
  let (a, abs, _) := s.couched.outlets.getD k ({}, false, 0)
  let idle : Nat × List Byte × Nat := (0, [], legalWh (if abs then a.imp else a.net) + 1000000000 * (if abs then legalWh a.exp else 0))
  if s.boot.bench then (3, [], 0)
  else match s.lcd.marks.find? fun p => p.1 == k with
  | none => idle
  | some (_, b, ts) =>
    let hold := s.get F.SES_DECKLE_CFG_HOLD_MIN
    if (b.headD 0).toNat = 2 then (1, b, sessionReg abs a)
    else if hold = 0 ∨ s.ts - ts < hold * 3600 * 32768 then (2, b, 0)
    else idle

/-- Does R356 call for a write of outlet k's field? -/
def State.fieldCall (s : State) (k : Nat) : Bool :=
  let (sit, b, reg) := s.situation k
  (s.enabled (0x20 + k) || s.boot.bench) && match s.lcd.shown.find? fun p => p.1 == k with
    | none => true
    | some (_, f) =>
      f.sit != sit || f.mark != b ||
      (sit == 0 && f.reg != reg && decide (s.get F.SES_DECKLE_CFG_IDLE_MIN * 240 * 32768 ≤ s.ts - f.ts)) ||
      (sit == 1 && decide (s.get F.SES_DECKLE_CFG_STEP ≤ sub9 reg f.reg)
        && decide (s.get F.SES_DECKLE_CFG_MIN_S * 32768 ≤ s.ts - f.ts))

/-- The fields R356 calls for are rendered; TRUNC marks absolute-mode outlets in FORM 0 fields (R397). -/
def State.renderFields (s : State) (l : DeckleLayout) : State :=
  (List.range 12).foldl (fun s k =>
    let w := l.fields.getD k 0
    if w.toNat.testBit 31 && s.fieldCall k then
      let (sit, b, reg) := s.situation k
      let all := s.fieldLines k sit b
      let abs := if sit = 2 then (fieldLe b 121 1).testBit 0 else (s.couched.outlets.getD k ({}, false, 0)).2.1
      let trunc := abs && !w.toNat.testBit 30
      let f : DeckleField := ⟨sit, if trunc then all.take 4 else all, b, reg, s.ts⟩
      let old := (s.get F.EPD_DECKLE_STAT_TRUNC).testBit k
      let s := { s with lcd := { s.lcd with shown := (s.lcd.shown.filter fun (p : Nat × DeckleField) => p.1 != k) ++ [(k, f)], due := true } }
      let s := s.put ⟨A.EPD_DECKLE_STAT, k, 1⟩ trunc.toNat
      if trunc && !old then s.epdEvent 3 else s
    else s) s

/-- Ink or paper at a pixel of the deckle (R396). -/
def State.ink (s : State) (l : DeckleLayout) (x y : Nat) : Bool :=
  let big := getBits l.cfg 0 1 = 1
  let cw := if big then 10 else 5
  let ch := if big then 16 else 8
  (List.range 12).any fun k =>
    let w := l.fields.getD k 0
    let x0 := getBits w 0 12
    let y0 := getBits w 16 12
    let n := if w.toNat.testBit 30 then 7 else 4
    w.toNat.testBit 31 && inRect x y (x0, y0, 17 * cw, n * ch) && match s.lcd.shown.find? fun p => p.1 == k with
      | none => false
      | some (_, f) => match (f.lines.getD ((y - y0) / ch) [])[(x - x0) / cw]? with
        | some c => c != ' ' && Config.glyph c big ((x - x0) % cw) ((y - y0) % ch)
        | none => false

/-- TGT of every deckle pixel, in felt and in display SRAM. -/
def State.drawDeckle (s : State) (l : DeckleLayout) : State :=
  let (x0, y0, _, _) := l.rect
  (s.decklePixels.zipIdx).foldl (fun s q =>
    let g := if s.ink l (q.1.1 - x0) (q.1.2 - y0) then 0 else 15
    (s.setFeltPix q.2 { s.feltPix q.2 with tgt := g }).setPix q.1.1 q.1.2 { s.pix q.1.1 q.1.2 with tgt := g }) s

/-- A deckle update starts in slot 0 (R398, R400). -/
def State.startDeckle (s : State) (l : DeckleLayout) : State :=
  let (x, y, w, h) := l.rect
  let useq := (s.journal 0 / 65536 + 1) % 65536
  let every := max 1 (getBits l.cfg 8 8)
  let s := s.drawDeckle l
  let u : Update := {
    zone := 1, x := x, y := y, w := w, h := h, band := s.epdBand, stale := s.on F.EPD_TEMP_STAT_STALE
    mode := if useq % every = 0 then 0 else getBits l.cfg 4 4 }
  let u := if s.table.frames u.mode u.band = 0 then { u with mode := 0 } else u
  let u := s.prepare u
  let s := ((s.setJournal 1 (u.frames % 65536 + 65536 * (u.p % 256))).setJournal 2 (65536 * 0xFFFF)).setJournal 5 (s.reg A.EPD_WF_ID).toNat
  let s := s.setJournal 0 (1 + 16 * u.mode + 256 * u.band + 2048 * u.upgraded.toNat + 65536 * useq)
  { s with lcd := { s.lcd with due := false } }.setUpd 0 u

/-- DECKLE_UPDATE_START (R356, R398): new content is rendered, and drawn where slot 0 and the deckle's pixels are free. -/
def execDeckleUpdateStart (s : State) : Out := s.onFabric fun s =>
  match s.lcd.layout with
  | none => done s
  | some l =>
    if !s.enabled 0x1E || s.pf.warned || !s.on F.EPD_WF_STAT_VALID then done s
    else
      let s := s.renderFields l
      if s.lcd.due && !s.slotUsed 0 && !(s.lcd.slots.any fun (p : Nat × Update) => p.2.zone == 2)
          && !(match s.lcd.waiting with
            | some u => u.zone == 2
            | none => false) then done (s.startDeckle l)
      else done s

-- Frames (R381, R392, R394, R400)

/-- The records a blind clear leaves in the felt store where it took the deckle in (R401). -/
def State.blindFelt (s : State) : State :=
  let v := s.table.num 1 1 % 16
  let s := (s.decklePixels.zipIdx).foldl (fun s q => s.setFeltPix q.2 ⟨v, v, 0⟩) s
  { s.setJournal 0 (s.journal 0 - s.journal 0 % 4) with lcd := { s.lcd with storedNew := false } }

/-- A slot's last frame has ended: UPDATE_DONE, and for slot 0 DECKLE_COMMIT. -/
def State.endSlot (s : State) (n : Nat) (u : Update) : State :=
  let s := s.dropSlot n
  if n = 0 then
    let s := s.commitDeckle u 0
    if s.boot.bench then s.put F.SYS_BENCH_STAT_DECKLE_OK 1 else s
  else
    let s := if u.blind then (s.put F.EPD_STATE_OUTER_VALID 1).epdEvent 4 else s
    let s := if u.blind ∧ u.zone = 2 then s.blindFelt else s
    match u.ref with
    | some r => (s.emit 45 0x82 (some r) 0 (s.updPayload n u)).epdEvent 0
    | none => s

/-- One slot's share of a frame. -/
def State.slotFrame (s : State) (n : Nat) (u : Update) : State :=
  let s := s.driveFrame u
  let s := if n = 0 then s.setJournal 2 (u.frame % 65536 + 65536 * ((u.h + 65535) % 65536)) else s
  if u.frames ≤ u.frame + 1 then s.endSlot n u else s.setUpd n { u with frame := u.frame + 1, skip := 0 }

/-- EPD_FRAME (R381): every running slot's pixels receive their codes. -/
def execEpdFrame (s : State) : Out := s.onFabric fun s =>
  if s.get F.EPD_STATE_POWER ≠ 2 ∨ s.pf.warned = true ∨ s.lcd.slots = [] then done s
  else done (s.lcd.slots.foldl (fun s p => s.slotFrame p.1 p.2) (s.inc ⟨A.EPD_FRAME_CNT, 0, 32⟩))

-- Supplies (R402 to R404)

/-- PANEL_POWER_ON (R402): the whole sequence, for an update that runs or waits. -/
def execPanelPowerOn (s : State) : Out := s.onFabric fun s =>
  if s.enabled 0x1E = true ∧ s.get F.EPD_STATE_POWER = 0 ∧ s.epdBusy = true ∧ s.on F.EPD_WF_STAT_VALID = true ∧ s.pf.warned = false then
    done ({ s with lcd := { s.lcd with epwr := 63, edis := 0 } }.put F.EPD_STATE_POWER 2)
  else done s

/-- Supplies off and the panel discharged. -/
def State.panelOff (s : State) : State := { s with lcd := { s.lcd with epwr := 0, edis := 3 } }.put F.EPD_STATE_POWER 0

/-- PANEL_POWER_OFF (R403): abandoned where a slot is ready. -/
def execPanelPowerOff (s : State) : Out := s.onFabric fun s =>
  if s.get F.EPD_STATE_POWER = 2 ∧ s.epdBusy = false then done s.panelOff else done s

/-- The panel's part of a power-fail warning (R404). -/
def State.epdWarn (s : State) : State := if s.get F.EPD_STATE_POWER = 0 then s else s.panelOff

-- Host commands (R390, R391)

/-- The oldest frame of ring 44 where it is the command `typ`. -/
def State.cmd44 (s : State) (typ : Nat) : Option Frame :=
  match s.head 44 with
  | some f => if f.typ = typ then some f else none
  | none => none

/-- The rectangle of a command, clipped to the panel. -/
def State.clip (s : State) (f : Frame) : Update :=
  let v (i : Nat) : Int := signedOf 16 (fieldLe f.payload i 2)
  let cut (a n : Int) (lim : Nat) : Nat × Nat :=
    let lo := max 0 a
    let hi := min (a + n) lim
    if lo < hi then (lo.toNat, (hi - lo).toNat) else (0, 0)
  let (x, w) := cut (v 0) (v 4) s.panW
  let (y, h) := cut (v 2) (v 6) s.panH
  let e := w = 0 ∨ h = 0
  let u : Update := {
    ref := some f.seq, zone := 0, x := x, y := y, w := if e then 0 else w, h := if e then 0 else h
    clipped := decide (((w * h : Nat) : Int) < max 0 (v 4) * max 0 (v 6)) }
  { u with masked := decide ((s.pixelsOf u).length < u.w * u.h) }

/-- What the frame checks of every display command refuse (R391, R580). -/
def State.epdChecks (s : State) (f : Frame) (argOk : Bool) (empty : Bool) : Option Nat :=
  firstErr [(f.payload.length != 12 || !argOk, 0x1E), (s.pf.warned, 0x41), (empty, 0x81)]

/-- Must a drawing command still wait (R389, R391)? -/
def State.epdHeld (s : State) : Bool := !s.pf.warned && (!s.on F.EPD_STATE_OUTER_VALID || s.lcd.waiting.isSome)

/-- UPDATE (R390 to R392): the update waits for its slot. -/
def execUpdate (s : State) : Out := s.onFabric fun s =>
  match s.cmd44 1 with
  | none => done s
  | some f =>
    if s.epdHeld then done s
    else
      let s := s.take 44
      let u := { s.clip f with mode := fieldLe f.payload 8 4 % 16 }
      match s.epdChecks f (decide (fieldLe f.payload 8 4 < 16)) ((s.pixelsOf u).isEmpty) with
      | some c => done (s.epdRefuse f.seq c u)
      | none => done ({ s with lcd := { s.lcd with waiting := some u } }).showUpdSlots

/-- FILL (R390): TGT of the rectangle, once no running update holds one of its pixels. -/
def execFill (s : State) : Out := s.onFabric fun s =>
  match s.cmd44 2 with
  | none => done s
  | some f =>
    let u := s.clip f
    if s.epdHeld || (!s.pf.warned && s.overlaps u) then done s
    else
      let s := s.take 44
      let g := fieldLe f.payload 8 4
      match s.epdChecks f (decide (g < 16)) ((s.pixelsOf u).isEmpty) with
      | some c => done (s.epdRefuse f.seq c u)
      | none =>
        let s := (s.pixelsOf u).foldl (fun s q => s.setPix q.1 q.2 { s.pix q.1 q.2 with tgt := g }) s
        let u := { u with stale := s.on F.EPD_TEMP_STAT_STALE }
        done (s.accept f.seq 0 (s.plainPayload u)).took

/-- The blind clear over the whole panel, but for the deckle unless it takes part (R389, R401). -/
def State.blindUpdate (s : State) (ref : Option Nat) (zone : Nat) : Update :=
  { ref := ref, blind := true, zone := zone, w := s.panW, h := s.panH }

/-- BLIND_CLEAR (R390, R392). -/
def execBlindClear (s : State) : Out := s.onFabric fun s =>
  match s.cmd44 3 with
  | none => done s
  | some f =>
    if s.epdHeld then done s
    else
      let s := s.take 44
      let u := s.blindUpdate (some f.seq) 0
      let u := { u with masked := decide ((s.pixelsOf u).length < u.w * u.h) }
      match s.epdChecks f true ((s.pixelsOf u).isEmpty) with
      | some c => done (s.epdRefuse f.seq c u)
      | none => done ({ s with lcd := { s.lcd with waiting := some u } }).showUpdSlots

/-- WF_ACTIVATE (R382, R387, R390): once no slot runs or waits, the newest copy comes into force or is refused. -/
def execWfActivate (s : State) : Out := s.onFabric fun s =>
  match s.cmd44 4 with
  | none => done s
  | some f =>
    if s.epdBusy && !s.pf.warned then done s
    else
      let s := s.take 44
      let pick := s.pickCopy Table.whole
      let bad := match pick with
        | some b => !(s.tableCopy b).qualifies
        | none => true
      let fits := match pick with
        | some b => s.frameFits ((s.tableCopy b).num 28 4)
        | none => true
      match firstErr [(f.payload.length != 12, 0x1E), (s.pf.warned, 0x41), (bad, 0x80), (!fits, 0x84)] with
      | some c => done (s.epdRefuse f.seq c {})
      | none =>
        let s := match pick with
          | some b => ((s.loadTable b).showPanelTemp).epdEvent 1
          | none => s
        done (s.accept f.seq 0 (s.plainPayload { stale := s.on F.EPD_TEMP_STAT_STALE })).took

-- Register writes (R382, R389, R395, R406)

/-- CTRL.ENABLE of EPD: refused with 0x0084 or, cleared while a slot runs or waits, with 0x001E; an enable runs the blind clear of
R401 while OUTER_VALID is 0. -/
def State.epdEnable (s : State) (en : Bool) : State × Option Nat :=
  if en = s.enabled 0x1E then (s, none)
  else if en then
    if s.frameFits (s.get F.EPD_FRAME_US_US) then
      let s := (s.put (hdrEnable 0x1E) 1).showPanelTemp
      let s := if s.on F.EPD_STATE_OUTER_VALID then s else { s with lcd := { s.lcd with waiting := some (s.blindUpdate none 0) } }.showUpdSlots
      (s, none)
    else (s, some 0x84)
  else if s.epdBusy then (s, some 0x1E)
  else (s.put (hdrEnable 0x1E) 0, none)

/-- Are two rectangles disjoint? -/
def apart : Nat × Nat × Nat × Nat → Nat × Nat × Nat × Nat → Bool
  | (x, y, w, h), (x', y', w', h') => decide (x + w ≤ x') || decide (x' + w' ≤ x) || decide (y + h ≤ y') || decide (y' + h' ≤ y)

/-- The layout as the registers give it. -/
def State.layoutRegs (s : State) : DeckleLayout :=
  ⟨s.reg A.EPD_DECKLE_XY, s.reg A.EPD_DECKLE_WH, s.reg A.EPD_DECKLE_CFG, (List.range 12).map fun k => s.reg (A.EPD_FIELD k)⟩

/-- The rectangles of the fields in use. -/
def DeckleLayout.fieldRects (l : DeckleLayout) : List (Nat × Nat × Nat × Nat) :=
  let big := getBits l.cfg 0 1 = 1
  (l.fields.filter fun w => w.toNat.testBit 31).map fun w =>
    (getBits w 0 12, getBits w 16 12, 17 * (if big then 10 else 5), (if w.toNat.testBit 30 then 7 else 4) * (if big then 16 else 8))

def allApart : List (Nat × Nat × Nat × Nat) → Bool
  | [] => true
  | r :: l => l.all (apart r) && allApart l

/-- The checks of R395. -/
def State.layoutOk (s : State) (l : DeckleLayout) : Bool :=
  let (x, y, w, h) := l.rect
  decide (x + w ≤ s.panW) && decide (y + h ≤ s.panH)
    && (l.fieldRects.all fun (a, b, c, d) => decide (a + c ≤ w) && decide (b + d ≤ h)) && allApart l.fieldRects
    && s.on F.EPD_WF_STAT_VALID && (List.range 8).all fun b => s.table.frames (getBits l.cfg 4 4) b != 0

/-- DECKLE_CMD.COMMIT (R395, R406): jig mode only; checked, logged and stored for the next start. -/
def State.deckleCommit (s : State) : State × Option Nat :=
  let l := s.layoutRegs
  if s.get F.SEA_STAT_SESSION ≠ 0x8E then (s, some 0x30)
  else if !s.layoutOk l then (s, some 0x86)
  else
    let s := { s with lcd := { s.lcd with stored := some l, storedNew := true } }.put F.EPD_DECKLE_STAT_PENDING 1
    (s.log 0x0020 noOutlet (le 4 l.xy.toNat ++ le 4 l.wh.toNat ++ le 4 l.cfg.toNat), none)

def execDeckleLayoutCommit (s : State) : Out := s.onFabric fun s =>
  match s.deckleCommit with
  | (s, some c) => done (s.err 0x1E c)
  | (s, none) => done (s.bumpSeq 0x1E)

/-- A write of display SRAM (R384): TGT of both pixels of the word, or the refusal; beyond the records, unmapped (R383). -/
def State.dispWrite (s : State) (a : Nat) (val : W32) : State × Option Nat :=
  let i := a / 2
  if s.panW * s.panH ≤ i then (s, some 0x04)
  else
    let px := [i, i + 1].filter fun j => decide (j < s.panW * s.panH)
    let xy (j : Nat) : Nat × Nat := (j % s.panW, j / s.panW)
    if px.any fun j => s.inDeckle (xy j).1 (xy j).2 then (s, some 0x03)
    else if px.any fun j => s.pixBusy (xy j).1 (xy j).2 then (s, some 0x82)
    else (px.foldl (fun s j => s.setPix (xy j).1 (xy j).2
      { s.pix (xy j).1 (xy j).2 with tgt := getBits val (16 * (j - i) + 4) 4 }) s, none)

/-- A read of display SRAM: deckle records read zero in the unprivileged view. -/
def State.dispRead (s : State) (priv : Bool) (a : Nat) : W32 :=
  let i := a / 2
  if s.panW * s.panH ≤ i then 0
  else if !priv && s.inDeckle (i % s.panW) (i / s.panW) then 0
  else BitVec.ofNat 32 (ofLe (s.dispBytes a 4))

/-- A soft reset of EPD, where no slot runs or waits (R406). -/
def State.resetEpd (s : State) : State :=
  let s := if s.get F.EPD_STATE_POWER = 0 then s else s.panelOff
  let s := [A.EPD_PANEL, A.EPD_BUS, A.EPD_PWR_DLY, A.EPD_TEMP_CFG, A.EPD_TEMP_HOST, A.EPD_RES_LIM].foldl
    (fun s a => s.setReg a (resetWord a)) s
  (s.put F.EPD_STATE_OUTER_VALID 0).put (hdrEnable 0x1E) 0

-- The start (R401)

/-- Step 4 for PHASE 1 and the table in force: the records as the power loss left them, and slot 0 goes on from the next row. -/
def State.resumeDeckle (s : State) : State :=
  let u := s.journalUpdate
  let t := s.table
  let n := s.journal 2 % 65536
  let row := s.journal 2 / 65536
  let rows := if row = 0xFFFF then 0 else row + 1
  let s := s.loadDeckle fun r q =>
    let q := u.driveFrom t 0 n q
    if r < rows then u.drive t n q else q
  let s := (s.put F.EPD_DECKLE_STAT_RESUMED 1).epdEvent 2
  let u := if u.h ≤ rows then { u with frame := n + 1 } else { u with frame := n, skip := rows }
  if u.frames ≤ u.frame then s.commitDeckle u 0 else s.setUpd 0 u

/-- Step 4 for PHASE 2. -/
def State.recommitDeckle (s : State) : State :=
  let w3 := s.journal 3
  let i := w3 % 16384
  let s := if w3.testBit 16 then s.feltPut (deckleBase + 4 * i) (le 4 (s.journal 4)) else s
  (s.commitDeckle s.journalUpdate i).loadDeckle fun _ q => q

/-- The blind clear takes the deckle in (R401). -/
def State.reinitDeckle (s : State) : State :=
  (s.put F.EPD_DECKLE_STAT_REINIT 1).log 0x0021 noOutlet (le 4 (s.reg A.EPD_WF_ID).toNat)

/-- EPD at a start, its configuration registers restored (R387, R401); `cfgOk` where a configuration record was valid. -/
def State.epdStart (s : State) (cfgOk : Bool) : State :=
  let s := match s.pickCopy Table.qualifies with
    | some b => s.loadTable b
    | none => s.epdEvent 5
  let s := { s with lcd := { s.lcd with layout := s.lcd.stored } }
  let s := match s.lcd.stored with
    | some l =>
      let s := ((s.setReg A.EPD_DECKLE_XY l.xy).setReg A.EPD_DECKLE_WH l.wh).setReg A.EPD_DECKLE_CFG l.cfg
      ((l.fields.zipIdx).foldl (fun (s : State) (p : W32 × Nat) => s.setReg (A.EPD_FIELD p.2) p.1) s).put F.EPD_DECKLE_STAT_VALID 1
    | none => s
  if cfgOk && s.on F.EPD_WF_STAT_VALID && s.lcd.layout.isSome then
    let s := (s.put (hdrEnable 0x1E) 1).showPanelTemp
    let phase := s.journal 0 % 4
    let anew := s.lcd.storedNew || (phase == 1 && s.journal 5 != (s.reg A.EPD_WF_ID).toNat)
    let s := if anew then s.reinitDeckle
      else if phase = 1 then s.resumeDeckle
      else if phase = 2 then s.recommitDeckle
      else s.loadDeckle fun _ q => q
    { s with lcd := { s.lcd with waiting := some (s.blindUpdate none (if anew then 2 else 0)) } }.showUpdSlots
  else s.showPanelTemp

end Sys2Proof.Machine
end

