-- ==== Sys2Proof/Machine/Plc.lean ====
section
/-! DEFINITION. PLC: the coding of a Vileva frame, its transmission and its reception (14_powerline_phy.md). -/
namespace Sys2Proof.Machine

-- Coding (R411 to R423)

/-- The bits of bytes, bit 0 of each first (R418). -/
def bitsOf (bs : List Byte) : List Bool := bs.flatMap fun b => (List.range 8).map fun i => b.toNat.testBit i

/-- CRC-8 of R415 over bits in the order of transmission. -/
def crc8 (l : List Bool) : Nat :=
  l.foldl (fun c b => let c' := c * 2 % 256; if (c.testBit 7) != b then Nat.xor c' 0x07 else c') 0

/-- The 24 header bits below HCS, and the whole header (R415). -/
def plcHead24 (mode len span txph : Nat) : Nat := mode + 8 * len + 2 ^ 14 * span + 2 ^ 16 * txph + 2 ^ 18
def numBits (n v : Nat) : List Bool := (List.range n).map fun i => v.testBit i
def plcHeader (mode len span txph : Nat) : List Bool :=
  let l := numBits 24 (plcHead24 mode len span txph)
  l ++ numBits 8 (crc8 l)

/-- The convolutional code of R420: the six previous bits, newest first as the highest bit. -/
def convBits : Nat → List Bool → List Bool
  | _, [] => []
  | r, b :: l =>
    let x := r + 64 * b.toNat
    let par (g : Nat) : Bool := (List.range 7).foldl (fun p i => p != (x.testBit i && g.testBit i)) false
    par 0o133 :: par 0o171 :: convBits (x / 2) l

/-- The scrambler x^7 + x^4 + 1 of R419. -/
def scramble : Nat → List Bool → List Bool
  | _, [] => []
  | r, b :: l =>
    let f := (r.testBit 6) != (r.testBit 3)
    (b != f) :: scramble (r * 2 % 128 + f.toNat) l

/-- Bytes of bits, bit 0 first. -/
def bytesOfBits : Nat → List Bool → List Nat
  | 0, _ => []
  | n + 1, l => maskOf (l.take 8) :: bytesOfBits n (l.drop 8)

/-- Multiplication in GF(256) modulo 0x11D (R420). -/
def gfMul (a b : Nat) : Nat :=
  (List.range 8).foldr (fun i t =>
    let t := t * 2
    let t := if t.testBit 8 then Nat.xor t 0x11D else t
    if b.testBit i then Nat.xor t a else t) 0

/-- The generator's coefficients, highest degree first. -/
def rsGen : List Nat :=
  ((List.range 16).foldl (fun (g : List Nat × Nat) _ =>
    ((g.1 ++ [0]).zipWith Nat.xor (0 :: g.1.map (gfMul g.2)), gfMul g.2 2)) ([1], 1)).1

/-- The 16 parity bytes of a block: the remainder, highest degree first. -/
def rsParity (data : List Nat) : List Nat :=
  data.foldl (fun r d =>
    let f := Nat.xor d (r.headD 0)
    (r.tail ++ [0]).zipWith Nat.xor ((rsGen.tail).map (gfMul f))) (List.replicate 16 0)

/-- The blocks of R420, each with its parity. -/
def rsBlocks (big len : Nat) : Nat → List Nat → List Nat
  | 0, _ => []
  | n + 1, l =>
    let k := if 0 < big then len + 1 else len
    l.take k ++ rsParity (l.take k) ++ rsBlocks (big - 1) len n (l.drop k)

/-- The coded bits of a payload (R418 to R420). -/
def plcCoded (bytes : List Byte) : List Bool :=
  let n := bytes.length
  let b := (n + 238) / 239
  let data := bytesOfBits n (scramble 127 (bitsOf bytes))
  convBits 0 ((rsBlocks (n % b) (n / b) b data).flatMap (numBits 8) ++ List.replicate 6 false)

/-- Coded bits per symbol and repetition factor (R421). -/
def plcC (mode : Nat) : Nat := if mode = 1 then 80 else if mode = 2 then 120 else 40
def plcF (mode : Nat) : Nat := if mode = 3 then 4 else if mode = 4 then 6 else 1
def plcNc (len : Nat) : Nat := 2 * (8 * (len + 16 * ((len + 238) / 239)) + 6)
def plcNs1 (mode len : Nat) : Nat :=
  let n := (plcNc len + plcC mode - 1) / plcC mode
  if plcF mode = 1 then n else max 33 n
/-- N_S of R421. -/
def plcNs (mode len : Nat) : Nat := plcF mode * plcNs1 mode len

/-- The interleaver block of symbol t of a copy: its first symbol and its length (R422). -/
def plcBlock (ns1 smax t : Nat) : Nat × Nat :=
  let nb := (ns1 + smax - 1) / smax
  let small := ns1 / nb
  let bigs := ns1 % nb
  if t < bigs * (small + 1) then (t / (small + 1) * (small + 1), small + 1)
  else (bigs * (small + 1) + (t - bigs * (small + 1)) / small * small, small)

/-- The bit at position p of symbol t of a copy. -/
def plcBitAt (bits : List Bool) (c ns1 smax t p : Nat) : Bool :=
  let (sg, su) := plcBlock ns1 smax t
  bits.getD (c * sg + (t - sg) + su * ((p + 64 * c - 7 * (t - sg)) % c)) false

/-- The phase step of a label (R417), in units of π/4. -/
def plcStep (mode : Nat) (d : List Bool) : Nat :=
  let b (i : Nat) : Nat := (d.getD i false).toNat
  if mode = 1 then 2 * ([0, 1, 3, 2].getD (2 * b 0 + b 1) 0)
  else if mode = 2 then [0, 1, 3, 2, 7, 6, 4, 5].getD (4 * b 0 + 2 * b 1 + b 2) 0
  else 4 * b 0

/-- The steps of payload symbol j on the 40 carriers (R421 to R423). -/
def plcPayloadSteps (bits : List Bool) (mode span len j : Nat) : List Nat :=
  let c := plcC mode
  let ns1 := plcNs1 mode len
  let r := j / ns1
  let t := j % ns1
  (List.range 40).map fun i =>
    if plcF mode = 1 then plcStep mode ((List.range (c / 40)).map fun b => plcBitAt bits c ns1 (32 * 2 ^ span) t (i + 40 * b))
    else plcStep 0 [plcBitAt bits c ns1 (32 * 2 ^ span) t ((i + 280 - 7 * r) % 40)]

/-- The steps of the four header symbols (R416). -/
def plcHeaderSteps (h : List Bool) : List (List Nat) :=
  let c := convBits 0 (h ++ List.replicate 6 false) ++ List.replicate 4 false
  let sym (o : Nat) (rev : Bool) : List Nat := (List.range 40).map fun i => 4 * (c.getD (o + if rev then 39 - i else i) false).toNat
  [sym 0 false, sym 40 false, sym 0 true, sym 40 true]

/-- Phases accumulate from symbol to symbol. -/
def plcPhases (prev : List Nat) : List (List Nat) → List (List Nat)
  | [] => []
  | st :: l => let now := prev.zipWith (fun a b => (a + b) % 8) st; now :: plcPhases now l

/-- A whole frame: SYNCP, SYNCM, header and payload (R413 to R417), phases in units of π/4 by symbol and carrier. -/
def plcFrame (bytes : List Byte) (mode span txph : Nat) : List (List Nat) :=
  let sync := (List.range 40).map fun i => i * (i + 1) / 2 % 8
  let m := sync.map fun x => (x + 4) % 8
  let bits := plcCoded bytes
  List.replicate 8 sync ++ [m] ++ plcPhases m (plcHeaderSteps (plcHeader mode bytes.length span txph)
    ++ (List.range (plcNs mode bytes.length)).map (plcPayloadSteps bits mode span bytes.length))

/-- The frame time in ns (R413). -/
def plcFrameNs (mode len : Nat) : Nat := (13 + plcNs mode len) * 960000 + 26667

-- Transmission (R424 to R429)

def State.plcReady (s : State) : Bool := s.enabled 0x1C && !s.pf.warned
def State.plcBusy (s : State) : Bool := s.on F.PLC_STATUS_TX_BUSY

/-- A reception in progress is abandoned (R428, R429). -/
def State.plcAbandon (s : State) : State :=
  if s.on F.PLC_STATUS_RX_BUSY then (s.put F.PLC_STATUS_RX_BUSY 0).incSat F.PLC_RX_DROP_ABANDON else s

/-- The first request goes on the line, if none is. -/
def State.plcStart (s : State) : State :=
  match s.plc.queue with
  | [] => s
  | q :: _ =>
    if s.plcBusy || !s.plcReady then s
    else
      let s := s.plcAbandon
      let ph := q.phase.getD (s.get F.PLC_CFG_TX_PHASE)
      ({ s with plc := { s.plc with txen := if ph = 3 then 7 else 2 ^ ph, wave := plcFrame q.bytes q.mode q.span ph } }).put
        F.PLC_STATUS_TX_BUSY 1

/-- What R424 refuses. -/
def State.plcRefuses (s : State) (q : PlcReq) : Bool :=
  q.bytes.isEmpty || decide (2047 < q.bytes.length) || decide (4 < q.mode) || !s.enabled 0x1C

/-- The frame being sent goes back to its backoff: an attempt without an outcome (R436). -/
def State.attemptVoid (s : State) : State :=
  match s.msh.cur with
  | some t => if t.stage = 1 then { s with msh := { s.msh with cur := some { t with stage := 0 } } } else s
  | none => s

/-- PLC_TX_REQUEST (R424, R428). -/
def execPlcTxRequest (s : State) : Out := s.onFabric fun s =>
  match s.plc.asked with
  | [] => done s
  | q :: rest =>
    let s := { s with plc := { s.plc with asked := rest } }
    if s.plcRefuses q then
      let s := s.err 0x1C 0x1E
      done (if q.isAck then s else s.attemptVoid)
    else done ({ s with plc := { s.plc with queue := s.plc.queue ++ [q] } }).plcStart

/-- A transmission ends early (R429), and the requests behind it with it. -/
def State.plcAbort (s : State) : State :=
  let busy := s.plcBusy
  let s := { s with plc := {} }.put F.PLC_STATUS_TX_BUSY 0
  let s := if busy then (s.incSat F.PLC_TX_CNT_ABORT).irq 0x1C 4 else s
  (s.attemptVoid).plcAbandon

/-- CTRL.ENABLE of PLC. -/
def State.plcEnable (s : State) (en : Bool) : State :=
  if en = s.enabled 0x1C then s
  else if en then s.put (hdrEnable 0x1C) 1
  else ((s.plcAbort).put (hdrEnable 0x1C) 0).put F.PLC_STATUS_CS 0

/-- A soft reset of PLC (R438), its registers apart. -/
def State.resetPlc (s : State) : State := s.plcAbort

-- Reception (R430 to R433)

/-- CARRIER_SENSE_CHANGE (R433); `preamble` where a frame begins, `noise` the levels of the idle symbols before. -/
def execCarrierSenseChange (on : Bool) (preamble : Bool) (noise : List Nat) (s : State) : Out := s.onFabric fun s =>
  if !s.plcReady || s.plcBusy then done s
  else
    let s := s.put F.PLC_STATUS_CS on.toNat
    let s := if on then (((s.put F.PLC_NOISE_A (noise.getD 0 0)).put F.PLC_NOISE_B (noise.getD 1 0)).put F.PLC_NOISE_C (noise.getD 2 0)) else s
    done (s.put F.PLC_STATUS_RX_BUSY (on && preamble).toNat)

/-- The phase with the highest preamble SNR. -/
def bestPhase (l : List Int) : Nat :=
  let v (i : Nat) : Int := l.getD i 0
  if v 1 ≤ v 0 ∧ v 2 ≤ v 0 then 0 else if v 2 ≤ v 1 then 1 else 2

/-- RX_FRAME (R430 to R433): counted and discarded, or delivered to MSH. -/
def State.plcReceive (s : State) (rx : PlcRx) : State × Bool :=
  if !s.plcReady || s.plcBusy then (s, false)
  else
    let s := (s.put F.PLC_STATUS_RX_BUSY 0).put F.PLC_STATUS_CS 0
    let p (i : Nat) : Int := rx.phSnr.getD i 0
    let s := (((s.putInt F.PLC_PH_SNR_A (p 0)).putInt F.PLC_PH_SNR_B (p 1)).putInt F.PLC_PH_SNR_C (p 2)).put F.PLC_PH_SNR_BEST (bestPhase rx.phSnr)
    let s := ((s.put F.PLC_NOISE_A (rx.noise.getD 0 0)).put F.PLC_NOISE_B (rx.noise.getD 1 0)).put F.PLC_NOISE_C (rx.noise.getD 2 0)
    let mode := getBits rx.header 0 3
    let len := getBits rx.header 3 11
    if crc8 (numBits 24 rx.header.toNat) ≠ getBits rx.header 24 8 ∨ getBits rx.header 18 2 ≠ 1 ∨ 4 < mode ∨ len = 0 then
      ((s.incSat F.PLC_ERR_CNT_HDR).irq 0x1C 2, false)
    else
      let s := if rx.erased = 0 then s
        else (s.put F.PLC_RX_DROP_ERASED (min 0xFFFF (s.get F.PLC_RX_DROP_ERASED + rx.erased))).irq 0x1C 6
      match rx.payload with
      | none => ((s.incSat F.PLC_ERR_CNT_RS).irq 0x1C 3, false)
      | some b =>
        let snr := max (-40) (min 80 rx.snr)
        let s := (s.inc ⟨A.PLC_RX_OK, 0, 32⟩).irq 0x1C 0
        let s := ((s.put F.PLC_LAST_RX_MODE mode).put F.PLC_LAST_RX_PHASE rx.phase).putInt F.PLC_LAST_RX_SNR snr
        let s := (s.put F.PLC_LAST_RX_ERASED (min 255 rx.erased)).put F.PLC_LAST_RX_CORR (min 255 rx.corrected)
        ({ s with msh := { s.msh with inbox := s.msh.inbox ++ [⟨b.take len, mode, snr, min 255 rx.erased, s.ts⟩] } }, true)

end Sys2Proof.Machine
end

