-- ==== Sys2Proof/Machine/Mesh.lean ====
section
/-! DEFINITION. MSH: frames, neighbours, routes, medium access, acknowledgement and polling (15_mesh_polling.md). -/
namespace Sys2Proof.Machine

-- Roles and events (R439, R440, R461)

def State.mshRole (s : State) : Nat := s.get F.MSH_CFG_ROLE
def State.mshAddr (s : State) : Nat := s.get F.MSH_ADDR_ADDR
def State.mshRuns (s : State) : Bool := s.enabled 0x1D && !s.pf.warned && s.mshRole != 0
def bcast : Nat := 0xFFFF

/-- A secs span in the units of the timestamp. -/
def secTs (n : Nat) : Nat := n * 32768

/-- An MSH event: the frame of ring 35 D2H; the spec gives its code byte no value, so it is a free value. -/
def State.mshEvent (s : State) (b addr : Nat) : State :=
  ((s.irq 0x1D b).emit 64 (0x90 + b) none 0 (le 2 addr ++ le 1 s.free ++ le 1 0 ++ le 8 s.ts ++ le 4 0)).took

/-- TX_RESULT (R456); the spec gives its TYPE no value, so it is a free value. -/
def State.txResult (s : State) (ref result code : Nat) : State :=
  (s.emit 64 (s.free % 256) none 0 (le 2 ref ++ le 1 result ++ le 1 0 ++ le 2 code)).took

-- Neighbours and link cost (R444, R445)

def State.nb (s : State) (a : Nat) : Option Neigh := match s.msh.neigh.find? fun p => p.1 == a with
  | some p => some p.2
  | none => none
def State.setNb (s : State) (a : Nat) (n : Neigh) : State :=
  { s with msh := { s.msh with neigh := (s.msh.neigh.filter fun (p : Nat × Neigh) => p.1 != a) ++ [(a, n)] } }
def State.quarantined (s : State) (a : Nat) : Bool := s.msh.quar.any fun p => p.1 == a

/-- SNR_TH of a rung (R435). -/
def State.snrTh (s : State) (rung : Nat) : Int :=
  if rung = 4 then s.getInt F.PLC_SNR_TH0_D8PSK else if rung = 3 then s.getInt F.PLC_SNR_TH0_DQPSK
  else if rung = 2 then s.getInt F.PLC_SNR_TH0_DBPSK else if rung = 1 then s.getInt F.PLC_SNR_TH0_ROBUST4
  else s.getInt F.PLC_SNR_TH1_ROBUST6

/-- The rungs of a link, highest first. -/
def rungsOf (chosen : Nat) : List Nat := if chosen = 1 then [3, 2, 1] else [4, 3, 2, 1, 0]
def rungWeight (r : Nat) : Nat := [180, 120, 30, 15, 10].getD r 180
def rungMode (r : Nat) : Nat := [4, 3, 0, 1, 2].getD r 3

def State.linkSnr (_s : State) (n : Neigh) : Int := min n.snrIn n.snrOut

/-- The cost formula, for the highest rung the SNR meets. -/
def State.costAt (s : State) (n : Neigh) (snr : Int) : Option Nat :=
  match (rungsOf n.chosen).find? fun r => decide (s.snrTh r ≤ snr) with
  | some r => some (rungWeight r * 256 / max n.dr 16)
  | none => none

/-- The link cost; none where the link is unusable (R445, R446, R449). -/
def State.linkCost (s : State) (a : Nat) (n : Neigh) : Option Nat :=
  if n.valid && n.lists && n.chosen != 0 && !s.quarantined a && decide (32 ≤ n.dr) then s.costAt n (s.linkSnr n) else none

def capCost (c : Nat) : Nat := min 0xFFFF c
def State.hopPen (s : State) : Nat := s.get F.MSH_ACCESS_HOP_PEN

-- Destination rows (R444, R447)

def State.row (s : State) (d : Nat) : Option (Nat × RouteRow) := s.msh.rows.find? fun p => p.2.dest == d

def RouteRow.best (r : RouteRow) : Option Cand :=
  r.cands.foldl (fun (m : Option Cand) c => match m with
    | none => some c
    | some x => if c.cost < x.cost then some c else some x) none
def RouteRow.chosen (r : RouteRow) : Option Cand := r.cands.find? fun c => some c.via == r.sel

/-- The selected candidate changes only when it has gone or another costs less than 7/8 of it (R447). -/
def RouteRow.select (r : RouteRow) : RouteRow :=
  match r.best, r.chosen with
  | none, _ => { r with sel := none }
  | some b, none => { r with sel := some b.via }
  | some b, some c => if b.cost * 8 < c.cost * 7 then { r with sel := some b.via } else r

/-- Four candidates, the direct one first, then the cheapest. -/
def RouteRow.trim (r : RouteRow) : RouteRow :=
  let d := r.cands.filter fun c => c.direct
  let o := (r.cands.filter fun c => !c.direct).mergeSort fun a b => a.cost ≤ b.cost
  { r with cands := d ++ o.take (4 - d.length) }

/-- The selected next hop, cost and hops to a destination. -/
def State.route (s : State) (d : Nat) : Option Cand := match s.row d with
  | some (_, r) => r.chosen
  | none => none

/-- Registers that show the routes. -/
def State.showRoutes (s : State) : State :=
  let s := s.put F.MSH_ROUTE_STAT_DESTS s.msh.rows.length
  if s.mshRole = 2 then (s.put F.MSH_ROUTE_STAT_COST_M 0).put F.MSH_MASTER_HOPS 0
  else match s.route (s.get F.MSH_MASTER_ADDR) with
    | some c => (s.put F.MSH_ROUTE_STAT_COST_M c.cost).put F.MSH_MASTER_HOPS c.hops
    | none => (s.put F.MSH_ROUTE_STAT_COST_M 0xFFFF).put F.MSH_MASTER_HOPS 0

/-- A row replaced; one without candidates is no longer in use. A change of the master's selected candidate raises ROUTE, and a
route that has just become valid is noted (R447, R455). -/
def State.setRow (s : State) (i : Nat) (r : RouteRow) : State :=
  let r := r.trim.select
  let old := match s.msh.rows.find? fun p => p.1 == i with
    | some p => if p.2.dest = r.dest then p.2.sel else none
    | none => none
  let rows := s.msh.rows.filter fun (p : Nat × RouteRow) => p.1 != i
  let s := { s with msh := { s.msh with rows := if r.cands = [] then rows else rows ++ [(i, r)] } }
  let s := if r.dest = s.get F.MSH_MASTER_ADDR ∧ s.mshRole = 1 ∧ r.sel ≠ old then
      let s := if old = none then { s with msh := { s.msh with freshRoute := true } } else s
      s.mshEvent 1 r.dest
    else s
  s.showRoutes

/-- The row a destination uses or takes: its own, an unused one, or that of the highest selected cost, never a neighbour's or the
master's. -/
def State.rowFor (s : State) (d : Nat) : Option Nat :=
  match s.row d with
  | some (i, _) => some i
  | none =>
    match (List.range 512).find? fun i => !s.msh.rows.any fun p => p.1 == i with
    | some i => some i
    | none =>
      let cand := s.msh.rows.filter fun (p : Nat × RouteRow) =>
        p.2.dest != s.get F.MSH_MASTER_ADDR && !p.2.cands.any fun c => c.direct
      let worst := cand.foldl (fun (m : Option (Nat × Nat)) p =>
        let c := match p.2.chosen with
          | some c => c.cost
          | none => 0xFFFF
        match m with
        | none => some (p.1, c)
        | some (i, w) => if w < c then some (p.1, c) else some (i, w)) none
      match worst with
      | some (i, _) => some i
      | none => none

def State.rowAt (s : State) (i d : Nat) : RouteRow := match s.msh.rows.find? fun p => p.1 == i with
  | some p => if p.2.dest = d then p.2 else { dest := d }
  | none => { dest := d }

/-- A candidate entered or refreshed. -/
def State.addCand (s : State) (d : Nat) (c : Cand) : State :=
  match s.rowFor d with
  | none => s
  | some i =>
    let r := s.rowAt i d
    s.setRow i { r with cands := (r.cands.filter fun x => x.via != c.via) ++ [c] }

/-- A candidate removed. -/
def State.dropCand (s : State) (d via : Nat) : State :=
  match s.row d with
  | none => s
  | some (i, r) => s.setRow i { r with cands := r.cands.filter fun x => x.via != via }

/-- A neighbour's own candidate, and the one it offers towards the master, as its link stands (R445, R447). -/
def State.syncNb (s : State) (a : Nat) : State :=
  match s.nb a with
  | none => s
  | some n =>
    match s.linkCost a n with
    | none =>
      let ds := s.msh.rows.map fun p => p.2.dest
      ds.foldl (fun s d => s.dropCand d a) s
    | some c =>
      let s := s.addCand a ⟨a, capCost (c + s.hopPen), 1, true, n.ts⟩
      let m := s.get F.MSH_MASTER_ADDR
      if s.mshRole ≠ 1 ∨ m = bcast ∨ a = m then s
      else if n.master = m ∧ n.hopsM ≠ 8 ∧ n.nextM ≠ s.mshAddr ∧ n.costM ≠ 0xFFFF then
        s.addCand m ⟨a, capCost (c + n.costM + s.hopPen), n.hopsM + 1, false, s.ts⟩
      else s.dropCand m a

/-- A byte of the route table as read at 0x2009_0000 (R444). -/
def State.routeByte (s : State) (o : Nat) : Byte :=
  match s.msh.rows.find? fun p => p.1 == o / 64 with
  | none => 0
  | some (_, r) => match r.cands[o % 64 / 16]? with
    | none => 0
    | some c =>
      let n := (s.nb c.via).getD {}
      let flags := 1 + 2 * c.direct.toNat + 4 * (if r.sel = some c.via then 1 else 0) + 8 * (if c.direct && n.chosen != 0 then 1 else 0)
        + 16 * (s.quarantined c.via).toNat
      let age := (s.ts - (if c.direct then n.ts else c.ts)) / 32768
      let bs := le 2 r.dest ++ le 2 c.via ++ le 2 c.cost ++ le 1 c.hops ++ le 1 flags ++ le 2 age ++
        (if c.direct then le 2 n.epoch ++ le 1 n.inc ++ le 1 n.rung ++ le 1 (unsignedOf 8 (s.linkSnr n)) ++ le 1 n.dr else List.replicate 6 0)
      bs.getD (o % 16) 0

-- Frames (R441, R443)

def NetHdr.bytes (h : NetHdr) : List Byte :=
  le 2 h.orig ++ le 2 h.dest ++ le 2 h.nseq ++ le 1 h.hops ++ le 1 (h.path.length + 16 * h.idx) ++ le 2 h.pcost ++ le 1 h.prio ++ le 1 0
    ++ h.path.flatMap fun a => le 2 a

/-- The sections of a frame: type, second byte and body; none where the lengths do not sum to it. -/
def sections : Nat → List Byte → Option (List (Nat × Nat × List Byte))
  | 0, bs => if bs = [] then some [] else none
  | n + 1, bs =>
    if bs = [] then some []
    else
      let len := fieldLe bs 2 2
      if bs.length < 4 + len then none
      else match sections n (bs.drop (4 + len)) with
        | some l => some ((fieldLe bs 0 1, fieldLe bs 1 1, (bs.drop 4).take len) :: l)
        | none => none
def sectionsOf (bs : List Byte) : Option (List (Nat × Nat × List Byte)) := sections (bs.length + 1) bs
def mkSection (t x : Nat) (body : List Byte) : List Byte := le 1 t ++ le 1 x ++ le 2 body.length ++ body

/-- Every BUDGET section's AGE raised, saturating (R451). -/
def ageSections (ms : Nat) (bs : List Byte) : List Byte :=
  match sectionsOf bs with
  | none => bs
  | some l => l.flatMap fun x =>
    let body := if x.1 = 2 then x.2.2.take 6 ++ le 2 (min 0xFFFF (fieldLe x.2.2 6 2 + ms)) ++ x.2.2.drop 8 else x.2.2
    mkSection x.1 x.2.1 body

/-- What R451 adds to an AGE: from the end of the reception to the end of this node's transmission. -/
def relayMs (ns : Nat) : Nat := (ns * 10001 + 9999999999) / 10000000000 + 1

/-- The version on a link: 1 for HELLO, TENON and broadcasts, else CHOSEN. -/
def State.pverOf (s : State) (t : MeshTx) : Nat :=
  if t.ftype = 1 ∨ t.ftype = 3 ∨ t.ftype = 4 ∨ t.rx = bcast then 1
  else match s.nb t.rx with
    | some n => max 1 n.chosen
    | none => 1

/-- MODE of an attempt (R435, R442). -/
def State.modeOf (s : State) (t : MeshTx) : Nat :=
  if t.ftype = 1 ∨ t.ftype = 3 ∨ t.ftype = 4 ∨ t.rx = bcast then 3
  else match s.nb t.rx with
    | some n => rungMode n.rung
    | none => 3

/-- A frame with its CRC. -/
def State.linkBytes (s : State) (ftype flags pver : Nat) (ack : Bool) (rx lseq : Nat) (rest : List Byte) : List Byte :=
  let b := le 1 (ftype + 16 * pver + 64 * ack.toNat) ++ le 1 flags ++ le 2 (s.get F.MSH_ADDR_SITE) ++ le 2 s.mshAddr ++ le 2 rx
    ++ le 4 s.epoch ++ le 1 s.msh.inc ++ le 1 0 ++ le 2 lseq ++ rest
  b ++ le 4 (crc32 b)

-- The send queue and the medium (R448, R452)

def State.setCur (s : State) (t : Option MeshTx) : State := { s with msh := { s.msh with cur := t } }

/-- The next frame comes up when none is being sent. -/
def State.pump (s : State) : State :=
  match s.msh.cur, s.msh.outq with
  | none, t :: rest => { s with msh := { s.msh with cur := some { t with be := s.get F.MSH_ACCESS_BE_MIN }, outq := rest } }
  | _, _ => s

def State.enqueue (s : State) (t : MeshTx) : State :=
  if s.mshRuns then ({ s with msh := { s.msh with outq := s.msh.outq ++ [t] } }).pump else s

def State.takeNseq (s : State) : State := { s with msh := { s.msh with nseq := (s.msh.nseq + 1) % 65536 } }

/-- Every push a frame carries has its result (R456). -/
def State.pushResults (s : State) (t : MeshTx) (code : Nat) : State :=
  t.pushes.foldl (fun s p => if p.2 && code == 0 then s
    else
      let s := { s with msh := { s.msh with e2e := s.msh.e2e.filter fun e => e.ref != p.1 } }
      s.txResult p.1 0 code) s

/-- A frame has been sent: acknowledged, or not to be acknowledged. -/
def State.sentOk (s : State) (t : MeshTx) : State := ((s.pushResults t 0).setCur none).pump

/-- DR, the rung and the run of failures after an attempt (R436, R445). -/
def State.outcome (s : State) (a : Nat) (clean : Bool) : State :=
  match s.nb a with
  | none => s
  | some n =>
    let rungs := rungsOf n.chosen
    let n := if clean then
        let n := { n with dr := n.dr + (256 - n.dr) / 16, cleans := n.cleans + 1, fails := 0, failRun := 0 }
        let up := n.rung + 1
        if s.get F.PLC_ADAPT_UP_N ≤ n.cleans ∧ rungs.contains up = true ∧ s.snrTh up + 2 * s.get F.PLC_ADAPT_UP_MARGIN ≤ n.snrOut then
          { n with rung := up, cleans := 0 }
        else n
      else
        let n := { n with dr := n.dr - n.dr / 16, fails := n.fails + 1, cleans := 0, failRun := n.failRun + 1 }
        let n := if s.get F.PLC_ADAPT_DOWN_N ≤ n.fails ∧ n.rung ≠ 0 ∧ rungs.contains (n.rung - 1) = true then
            { n with rung := n.rung - 1, fails := 0 } else n
        if s.get F.MSH_ACCESS_RETRY_MAX + 1 ≤ n.failRun then { n with valid := false } else n
    (s.setNb a n).syncNb a

/-- The next valid candidate for a frame whose attempts have failed (R452). -/
def State.altHop (s : State) (t : MeshTx) : Option Nat :=
  match t.net with
  | some h =>
    if h.path.length ≠ h.idx ∧ t.ftype ≠ 7 then none
    else match s.row h.dest with
      | some (_, r) => match r.cands.find? fun c => c.via != t.rx with
        | some c => some c.via
        | none => none
      | none => none
  | none => none

/-- The frame is given up (R452). -/
def State.dropTx (s : State) (t : MeshTx) : State :=
  ((((s.incSat F.MSH_FAIL_CNT_HOPFAIL).err 0x1D 0x77).pushResults t 0x77).setCur none).pump

/-- A failed attempt's consequence: another try, another candidate, or the end. -/
def State.retryTx (s : State) (t : MeshTx) : State :=
  let t := { t with fails := t.fails + 1, stage := 0, be := min (s.get F.MSH_ACCESS_BE_MAX) (t.be + 1) }
  if t.alt then s.dropTx t
  else if t.fails ≤ s.get F.MSH_ACCESS_RETRY_MAX then s.setCur (some t)
  else match s.altHop t with
    | some a => s.setCur (some { t with rx := a, alt := true, lseq := none })
    | none => s.dropTx t

/-- May the frame pass on its link yet (R450)? -/
def State.linkOpen (s : State) (t : MeshTx) : Bool :=
  t.rx == bcast || t.ftype ≤ 4 || match s.nb t.rx with
    | some n => n.chosen != 0
    | none => false

/-- The LSEQ an attempt carries: the same for a retry, else the next to that receiver. -/
def State.takeLseq (s : State) (t : MeshTx) : State × Nat :=
  match t.lseq with
  | some q => (s, q)
  | none =>
    if t.rx = bcast then ({ s with msh := { s.msh with bseq := (s.msh.bseq + 1) % 65536 } }, s.msh.bseq)
    else match s.nb t.rx with
      | some n => (s.setNb t.rx { n with next := (n.next + 1) % 65536 }, n.next)
      | none => (s, 0)

/-- BACKOFF_EXPIRY (R448): the countdown ends and PLC is asked to transmit. -/
def execBackoffExpiry (s : State) : Out := s.onFabric fun s =>
  match s.msh.cur with
  | none => done s
  | some t =>
    if t.stage ≠ 0 ∨ s.mshRuns = false ∨ s.on F.PLC_STATUS_CS = true ∨ s.on F.PLC_STATUS_RX_BUSY = true then done s
    else if !s.linkOpen t then done (s.retryTx t)
    else
      let (s, q) := s.takeLseq t
      let s := if t.fails ≠ 0 then s.incSat F.MSH_TX_CNT_RETRIES else s
      let head := match t.net with
        | some h => h.bytes
        | none => []
      let mode := s.modeOf t
      let len := 16 + head.length + t.body.length + 4
      let body := match t.rxTs with
        | none => t.body
        | some t0 => ageSections (relayMs ((s.ts - t0) * 1000000000 / 32768 + s.get F.PLC_TXEN_TIME_LEAD * 1000 + plcFrameNs mode len)) t.body
      let bytes := s.linkBytes t.ftype (maskOf [t.net.isSome, t.fails != 0, t.unsol]) (s.pverOf t) (t.ack && t.rx != bcast) t.rx q (head ++ body)
      let s := s.setCur (some { t with lseq := some q, stage := 1 })
      done { s with plc := { s.plc with asked := s.plc.asked ++ [⟨bytes, mode, s.get F.PLC_CFG_SPAN, none, false⟩] } }

/-- TX_DONE (R426): the next request goes on the line, and MSH is told. -/
def execTxDone (clipped : Bool) (s : State) : Out := s.onFabric fun s =>
  if !s.plcBusy then done s
  else match s.plc.queue with
    | [] => done s
    | q :: rest =>
      let s := ({ s with plc := { s.plc with queue := rest, txen := 0, wave := [] } }.put F.PLC_STATUS_TX_BUSY 0).inc F.PLC_TX_CNT_DONE
      let s := (s.irq 0x1C 1).inc F.MSH_TX_CNT_FRAMES
      let s := (if clipped then s.irq 0x1C 5 else s).plcStart
      if q.isAck then done s
      else match s.msh.cur with
        | some t => if t.stage ≠ 1 then done s
          else if t.ack && t.rx != bcast then done (s.setCur (some { t with stage := 2 })) else done (s.sentOk t)
        | none => done s

/-- ACK_SEND (R442): without carrier sense. -/
def execAckSend (s : State) : Out := s.onFabric fun s =>
  match s.msh.ack with
  | none => done s
  | some a =>
    let s := { s with msh := { s.msh with ack := none } }
    if !s.mshRuns then done s
    else
      let t : MeshTx := { ftype := 2, rx := a.rx }
      let (s, q) := s.takeLseq t
      let bytes := s.linkBytes 2 0 (s.pverOf t) false a.rx q (le 1 (unsignedOf 8 a.snr) ++ le 1 a.erased ++ le 2 0)
      done { s with plc := { s.plc with asked := s.plc.asked ++ [⟨bytes, if 3 ≤ a.mode then a.mode else 0, s.get F.PLC_CFG_SPAN, none, true⟩] } }

/-- ACK_TIMEOUT (R452). -/
def execAckTimeout (s : State) : Out := s.onFabric fun s =>
  match s.msh.cur with
  | some t => if t.stage = 2 then done ((s.outcome t.rx false).retryTx t) else done s
  | none => done s

-- Judging received frames (R451, R452, R458)

/-- The link header's fields. -/
structure LinkHdr where
  ftype : Nat
  pver : Nat
  ack : Bool
  net : Bool
  site : Nat
  tx : Nat
  rx : Nat
  epoch : Nat
  inc : Nat
  lseq : Nat

def linkHdr (b : List Byte) : LinkHdr :=
  { ftype := fieldLe b 0 1 % 16, pver := fieldLe b 0 1 / 16 % 4, ack := (fieldLe b 0 1).testBit 6, net := (fieldLe b 1 1).testBit 0
    site := fieldLe b 2 2, tx := fieldLe b 4 2, rx := fieldLe b 6 2, epoch := fieldLe b 8 4, inc := fieldLe b 12 1, lseq := fieldLe b 14 2 }

def netHdr (b : List Byte) : NetHdr :=
  { orig := fieldLe b 16 2, dest := fieldLe b 18 2, nseq := fieldLe b 20 2, hops := fieldLe b 22 1, idx := fieldLe b 23 1 / 16 % 8
    pcost := fieldLe b 24 2, prio := fieldLe b 26 1
    path := (List.range (fieldLe b 23 1 % 8)).map fun i => fieldLe b (28 + 2 * i) 2 }

/-- The content after the headers, without the CRC. -/
def content (b : List Byte) : List Byte :=
  let n := if (linkHdr b).net then 28 + 2 * (netHdr b).path.length else 16
  (b.take (b.length - 4)).drop n

def frameWhole (b : List Byte) : Bool := decide (20 ≤ b.length) && decide (crc32 (b.take (b.length - 4)) = fieldLe b (b.length - 4) 4)
def addrOk (a : Nat) : Bool := decide (1 ≤ a ∧ a ≤ 1000) || a == bcast

/-- Check 5 of R458, but for an unknown FTYPE. -/
def State.malformed (s : State) (b : List Byte) : Bool :=
  let h := linkHdr b
  let c := content b
  let chosen := match s.nb h.tx with
    | some n => n.chosen
    | none => 0
  let netType := decide (5 ≤ h.ftype)
  h.pver == 0 || h.pver == 3 || (h.ftype != 3 && h.ftype != 4 && !(chosen == 0 && (h.ftype == 1 || h.ftype == 2)) && decide (chosen < h.pver))
    || h.net != netType || !addrOk h.tx || !addrOk h.rx
    || (if netType then
        let n := netHdr b
        decide (b.length < 32 + 2 * n.path.length) || (sectionsOf c).isNone || decide (7 < n.hops) || decide (n.path.length < n.idx)
          || !addrOk n.orig || !addrOk n.dest || !n.path.all addrOk
      else if h.ftype = 1 then decide (c.length < 20) || decide (c.length ≠ 20 + 4 * fieldLe c 18 1) || decide (32 < fieldLe c 18 1)
      else if h.ftype = 2 then c.length != 4
      else c.length != 8)

/-- A malformed frame counts; enough of them within 60 s put the transmitter into quarantine. -/
def State.countMalformed (s : State) (tx : Nat) : State :=
  let s := s.incSat F.MSH_DROP_CNT_MALFORMED
  let l := (s.msh.malf.filter fun (p : Nat × Nat) => decide (s.ts - p.2 ≤ secTs 60)) ++ [(tx, s.ts)]
  let s := { s with msh := { s.msh with malf := l } }
  if s.get F.MSH_MALF_MALF_MAX ≤ (l.filter fun p => p.1 == tx).length then
    let s := { s with msh := { s.msh with quar := s.msh.quar ++ [(tx, s.ts + secTs (s.get F.MSH_MALF_QUAR_S))],
                                          malf := l.filter fun p => p.1 != tx } }
    (s.syncNb tx).mshEvent 4 tx
  else s

/-- Is a pair older (some false), equal or newer than the stored one (R451)? -/
def pairOrder (ef is_ es i : Nat) : Ordering :=
  if ef ≠ es then (if (ef + 2 ^ 32 - es) % 2 ^ 32 < 2 ^ 31 then .gt else .lt)
  else
    let d := (is_ + 256 - i) % 256
    if d = 0 then .eq else if d < 128 then .gt else .lt

/-- A TENON_REQ to a neighbour (R450). -/
def State.sendTenon (s : State) (a : Nat) : State :=
  match s.nb a with
  | none => s
  | some n =>
    if s.mshAddr < a ∧ n.chosen = 0 ∧ n.reqs < 3 then
      let nonce := le 4 s.free
      let s := s.took.setNb a { n with reqs := n.reqs + 1, nonce := nonce }
      s.enqueue { ftype := 3, ack := false, rx := a, body := le 1 1 ++ le 1 (s.get F.MSH_CFG_VMAX) ++ le 2 0 ++ nonce }
    else s

/-- A neighbour entry made anew (R435, R445, R451): a tenon exchange follows. -/
def State.renewNb (s : State) (a epoch inc : Nat) : State :=
  let old := (s.nb a).getD {}
  let s := (s.setNb a { epoch := epoch, inc := inc, snrIn := old.snrIn, ts := s.ts, next := old.next }).syncNb a
  s.sendTenon a

/-- A neighbour is heard. -/
def State.hear (s : State) (a : Nat) (snr : Int) : State :=
  match s.nb a with
  | some n => s.setNb a { n with snrIn := snr, ts := s.ts }
  | none => s

/-- ORIG and NSEQ seen within 60 s (R452)? -/
def State.seen (s : State) (o n : Nat) : Bool :=
  s.msh.dups.any fun d => d.1 == o && d.2.1 == n && decide (s.ts - d.2.2 ≤ secTs 60)
def State.noteSeen (s : State) (o n : Nat) : State :=
  let l := s.msh.dups ++ [(o, (n, s.ts))]
  { s with msh := { s.msh with dups := l.drop (l.length - 256) } }

/-- An ACK falls due for a unicast frame that asks for it. -/
def State.dueAck (s : State) (h : LinkHdr) (r : MeshRx) : State :=
  if h.ack ∧ h.rx = s.mshAddr ∧ s.mshRole ≠ 0 then { s with msh := { s.msh with ack := some ⟨h.tx, r.mode, r.snr, r.erased⟩ } } else s

/-- RX_FRAME (R433, R458): received by PLC; checks 1 to 4 and an unknown FTYPE discard the frame, the rest waits for its type's row. -/
def execRxFrame (rx : PlcRx) (s : State) : Out := s.onFabric fun s =>
  let (s, ok) := s.plcReceive rx
  if !ok then done s
  else match s.msh.inbox.getLast? with
    | none => done s
    | some r =>
      let h := linkHdr r.bytes
      let drop := { s with msh := { s.msh with inbox := s.msh.inbox.take (s.msh.inbox.length - 1) } }
      if !s.enabled 0x1D then done drop
      else if !frameWhole r.bytes then done (drop.incSat F.MSH_DROP_CNT_CRC)
      else if h.site ≠ s.get F.MSH_ADDR_SITE then done drop
      else if h.rx ≠ s.mshAddr ∧ h.rx ≠ bcast then done drop
      else if s.quarantined h.tx then done drop
      else if h.ftype = 0 ∨ 7 < h.ftype then done (drop.countMalformed h.tx)
      else done s

/-- The oldest delivered frame where it is of a type. -/
def State.inHead (s : State) (ftype : Nat) : Option MeshRx :=
  match s.msh.inbox with
  | r :: _ => if (linkHdr r.bytes).ftype = ftype then some r else none
  | [] => none

/-- Checks 5 to 8 of R458 on a frame taken from the inbox: the state, and whether it is to be delivered or forwarded. -/
def State.judgeFrame (s : State) (r : MeshRx) : State × Bool :=
  let s := { s with msh := { s.msh with inbox := s.msh.inbox.tail } }
  let h := linkHdr r.bytes
  if s.malformed r.bytes then (s.countMalformed h.tx, false)
  else
    let ord := match s.nb h.tx with
      | some n => pairOrder h.epoch h.inc n.epoch n.inc
      | none => .eq
    if ord = .lt then (s.incSat F.MSH_DROP_CNT_STALE, false)
    else
      let s := if ord = .gt then s.renewNb h.tx h.epoch h.inc else s
      let s := if (s.nb h.tx).isNone ∧ (h.ftype = 1 ∨ h.ftype = 3) then s.renewNb h.tx h.epoch h.inc else s
      let s := (s.hear h.tx r.snr).syncNb h.tx
      let n := (s.nb h.tx).getD {}
      let last := if h.rx = bcast then n.seqB else n.seqU
      let net := netHdr r.bytes
      if last = some h.lseq ∨ (h.net = true ∧ (net.orig = s.mshAddr ∨ s.seen net.orig net.nseq = true)) then
        ((s.incSat F.MSH_DROP_CNT_DUP).dueAck h r, false)
      else
        let s := if (s.nb h.tx).isSome then
            s.setNb h.tx (if h.rx = bcast then { n with seqB := some h.lseq } else { n with seqU := some h.lseq }) else s
        let s := if h.net then s.noteSeen net.orig net.nseq else s
        (s.dueAck h r, true)

-- HELLO, TENON and ACK (R442, R446, R447, R450)

/-- COST_M as advertised. -/
def State.costM (s : State) : Nat := s.get F.MSH_ROUTE_STAT_COST_M

/-- The neighbours a HELLO lists: 32 with the lowest link cost. -/
def State.helloList (s : State) : List (Nat × Neigh) :=
  let cost (p : Nat × Neigh) : Nat := (s.costAt p.2 p.2.snrIn).getD 0xFFFF
  (s.msh.neigh.mergeSort fun a b => cost a ≤ cost b).take 32

def State.helloBody (s : State) : List Byte :=
  let l := s.helloList
  let m := if s.mshRole = 2 then s.mshAddr else s.get F.MSH_MASTER_ADDR
  let next := match s.route m with
    | some c => c.via
    | none => 0xFFFF
  le 8 Config.serial.toNat ++ le 2 m ++ le 2 s.costM ++ le 1 (s.get F.MSH_MASTER_HOPS) ++ le 1 s.mshRole ++ le 1 1
    ++ le 1 (s.get F.MSH_CFG_VMAX) ++ le 2 (if s.mshRole = 2 then 0xFFFF else next) ++ le 1 l.length ++ le 1 0
    ++ l.flatMap fun p => le 2 p.1 ++ le 1 (unsignedOf 8 p.2.snrIn) ++ le 1 p.2.dr

/-- HELLO_TIMER (R446). -/
def execHelloTimer (s : State) : Out := s.onFabric fun s => done (s.enqueue { ftype := 1, ack := false, rx := bcast, body := s.helloBody })

/-- What a HELLO says of this node: the SNR at which the neighbour hears it. -/
def helloOfMe (me : Nat) (c : List Byte) : Option Int :=
  match (List.range (fieldLe c 18 1)).find? fun i => fieldLe c (20 + 4 * i) 2 == me with
  | some i => some (signedOf 8 (fieldLe c (22 + 4 * i) 1))
  | none => none

/-- A HELLO that names another master on this site (R440). -/
def State.roleConflict (s : State) (m : Nat) : State :=
  if s.mshRole = 2 ∧ m ≠ bcast ∧ m ≠ s.mshAddr then
    { s with msh := { s.msh with conflict := some (m, s.ts) } }.mshEvent 5 m
  else s

/-- HELLO (R446, R447). -/
def execHello (s : State) : Out := s.onFabric fun s =>
  match s.inHead 1 with
  | none => done s
  | some r =>
    let (s, ok) := s.judgeFrame r
    if !ok then done s
    else
      let h := linkHdr r.bytes
      let c := content r.bytes
      let m := fieldLe c 8 2
      let s := s.roleConflict m
      let s := if s.mshRole = 1 ∧ s.get F.MSH_MASTER_ADDR = bcast ∧ m ≠ bcast then s.put F.MSH_MASTER_ADDR m else s
      match s.nb h.tx with
      | none => done s
      | some n =>
        let mine := helloOfMe s.mshAddr c
        let n := { n with lists := mine.isSome, snrOut := mine.getD n.snrOut, valid := n.valid || mine.isSome,
                          failRun := if n.valid then n.failRun else 0,
                          master := m, costM := fieldLe c 10 2, hopsM := fieldLe c 12 1, nextM := fieldLe c 16 2 }
        done ((s.setNb h.tx n).syncNb h.tx)

/-- ACK (R452). -/
def execAck (s : State) : Out := s.onFabric fun s =>
  match s.inHead 2 with
  | none => done s
  | some r =>
    let (s, ok) := s.judgeFrame r
    let h := linkHdr r.bytes
    if !ok then done s
    else
      let s := match s.nb h.tx with
        | some n => s.setNb h.tx { n with snrOut := signedOf 8 (fieldLe (content r.bytes) 0 1) }
        | none => s
      match s.msh.cur with
      | some t => if t.stage = 2 ∧ t.rx = h.tx ∧ h.rx = s.mshAddr then done ((s.outcome h.tx true).sentOk t) else done s
      | none => done s

/-- The link's version, once the exchange has found one (R450). -/
def State.linkVersion (s : State) (a chosen : Nat) : State :=
  match s.nb a with
  | none => s
  | some n =>
    let s := (s.setNb a { n with chosen := chosen, reqs := 3, rung := if (rungsOf chosen).contains n.rung then n.rung else 1 }).syncNb a
    if chosen = 0 then s.mshEvent 0 a else s

/-- TENON_REQ (R450). -/
def execTenonReq (s : State) : Out := s.onFabric fun s =>
  match s.inHead 3 with
  | none => done s
  | some r =>
    let (s, ok) := s.judgeFrame r
    if !ok then done s
    else
      let h := linkHdr r.bytes
      let c := content r.bytes
      let top := min (fieldLe c 1 1) (s.get F.MSH_CFG_VMAX)
      let chosen := if max 1 (fieldLe c 0 1) ≤ top then top else 0
      let s := s.enqueue { ftype := 4, ack := false, rx := h.tx, body := le 1 1 ++ le 1 (s.get F.MSH_CFG_VMAX) ++ le 1 chosen ++ le 1 0 ++ (c.drop 4).take 4 }
      done (s.linkVersion h.tx chosen)

/-- TENON_RSP (R450). -/
def execTenonRsp (s : State) : Out := s.onFabric fun s =>
  match s.inHead 4 with
  | none => done s
  | some r =>
    let (s, ok) := s.judgeFrame r
    if !ok then done s
    else
      let h := linkHdr r.bytes
      let c := content r.bytes
      match s.nb h.tx with
      | some n =>
        if n.reqs ≠ 0 ∧ n.nonce = (c.drop 4).take 4 then done (s.linkVersion h.tx (min (fieldLe c 2 1) (s.get F.MSH_CFG_VMAX))) else done s
      | none => done s

/-- TENON_RETRY (R450). -/
def execTenonRetry (n : Nat) (s : State) : Out := s.onFabric fun s => done (if s.mshRuns then s.sendTenon n else s)

-- Ageing (R440, R449, R458)

/-- NEIGHBOUR_EXPIRY. -/
def execNeighbourExpiry (n : Nat) (s : State) : Out := s.onFabric fun s =>
  match s.nb n with
  | some x =>
    if secTs (s.get F.MSH_TIMING_NEIGH_TO) ≤ s.ts - x.ts then
      let s := { s with msh := { s.msh with neigh := s.msh.neigh.filter fun p => p.1 != n } }
      let ds := s.msh.rows.map fun p => p.2.dest
      done ((ds.foldl (fun s d => s.dropCand d n) s).mshEvent 0 n)
    else done s
  | none => done s

/-- ROUTE_EXPIRY. -/
def execRouteExpiry (dest : Nat) (via : Nat) (s : State) : Out := s.onFabric fun s =>
  match s.row dest with
  | some (_, r) => match r.cands.find? fun c => c.via == via with
    | some c => if c.direct = false ∧ secTs (s.get F.MSH_TIMING_ROUTE_TO) ≤ s.ts - c.ts then done ((s.dropCand dest via).mshEvent 0 dest) else done s
    | none => done s
  | none => done s

/-- QUARANTINE_END. -/
def execQuarantineEnd (n : Nat) (s : State) : Out := s.onFabric fun s =>
  if s.msh.quar.any fun p => p.1 == n && decide (p.2 ≤ s.ts) then
    done ({ s with msh := { s.msh with quar := s.msh.quar.filter fun p => p.1 != n } }.syncNb n)
  else done s

/-- ROLE_CONFLICT_CLEAR. -/
def execRoleConflictClear (s : State) : Out := s.onFabric fun s =>
  match s.msh.conflict with
  | some (_, t) => if secTs (s.get F.MSH_TIMING_NEIGH_TO) ≤ s.ts - t then done { s with msh := { s.msh with conflict := none } } else done s
  | none => done s

/-- Does the conflict silence this master (R440)? -/
def State.silenced (s : State) : Bool := match s.msh.conflict with
  | some (m, _) => decide (m < s.mshAddr)
  | none => false

-- Sending to a destination (R441, R453 to R456)

def pollBase : Nat := 0x98000
def State.pollNum (s : State) (i o n : Nat) : Nat := ofLe (s.sramBytes (pollBase + 32 * i + o) n)
def State.setPoll (s : State) (i o n v : Nat) : State := s.sramPut (pollBase + 32 * i + o) (le n v)
def State.pollEn (s : State) (i : Nat) : Bool := (s.pollNum i 2 1).testBit 0
def State.pollPath (s : State) (i : Nat) : List Nat := (List.range (s.pollNum i 3 1)).map fun j => s.pollNum i (4 + 2 * j) 2
def State.entries (s : State) : Nat := s.get F.MSH_POLL_CTRL_ENTRIES
def State.pollEntry (s : State) (a : Nat) : Option Nat := (List.range s.entries).find? fun i => s.pollEn i && s.pollNum i 0 2 == a

/-- A frame with a network header of this node's own. -/
def State.ownFrame (s : State) (ftype dest prio : Nat) (path : List Nat) (rx : Nat) (unsol : Bool) (body : List Byte)
    (pushes : List (Nat × Bool)) : State :=
  let n := s.msh.nseq
  let s := s.takeNseq
  let e := (pushes.filter fun p => p.2).map fun p => (⟨p.1, dest, n, s.ts⟩ : E2e)
  let s := { s with msh := { s.msh with e2e := s.msh.e2e ++ e } }
  s.enqueue { ftype := ftype, unsol := unsol, rx := rx, net := some { orig := s.mshAddr, dest := dest, nseq := n, prio := prio, path := path },
              body := body, pushes := pushes }

/-- The path and first hop to a destination: a poll entry's at the master, else the route table's. -/
def State.hopTo (s : State) (d : Nat) : Option (List Nat × Nat) :=
  match if s.mshRole = 2 then s.pollEntry d else none with
  | some i => let p := s.pollPath i; some (p, p.headD d)
  | none => match s.route d with
    | some c => some ([], c.via)
    | none => none

/-- DATA to a destination, or 0x0071 where there is no route. -/
def State.sendData (s : State) (d prio : Nat) (body : List Byte) (pushes : List (Nat × Bool)) : State × Bool :=
  if d = bcast then (s.ownFrame 5 d prio [] bcast false body pushes, true)
  else match s.hopTo d with
    | some (p, rx) => (s.ownFrame 5 d prio p rx false body pushes, true)
    | none => ((s.incSat F.MSH_FAIL_CNT_NOROUTE).err 0x1D 0x71, false)

/-- Does the host's section wait for a poll (R454, R455)? -/
def State.waitsPoll (s : State) (d : Nat) : Bool :=
  if s.mshRole = 2 then s.on F.MSH_POLL_CTRL_RUN && (s.pollEntry d).isSome
  else match s.route d with
    | some c => d == s.get F.MSH_MASTER_ADDR || decide (s.costM ≤ c.cost)
    | none => (s.route (s.get F.MSH_MASTER_ADDR)).isSome

/-- LINK_TRANSMIT_PUSH (R456): the oldest frame of ring 27 + p. -/
def execLinkTransmitPush (p : Fin 4) (s : State) : Out := s.onFabric fun s =>
  match s.head (27 + p) with
  | none => done s
  | some f =>
    if !s.mshRuns then done s
    else
      let s := s.take (27 + p)
      let d := fieldLe f.payload 0 2
      let e2e := (fieldLe f.payload 2 1).testBit 0
      let sec := mkSection 1 e2e.toNat (f.payload.drop 4)
      let path := match s.hopTo d with
        | some (l, _) => l.length
        | none => 0
      if f.payload.length < 4 ∨ 2047 < 32 + 2 * path + sec.length then done ((s.err 0x1D 0x72).txResult f.seq 0 0x72)
      else if d ≠ bcast ∧ s.waitsPoll d = true then
        done { s with msh := { s.msh with secs := s.msh.secs ++ [(⟨d, p, sec, some (f.seq, e2e)⟩ : MeshSec)] } }
      else
        let (s, ok) := s.sendData d p sec [(f.seq, e2e)]
        done (if ok then s else s.txResult f.seq 0 0x71)

/-- E2E_TIMEOUT (R456): 60 s. -/
def execE2eTimeout (ref : Nat) (s : State) : Out := s.onFabric fun s =>
  match s.msh.e2e.find? fun e => e.ref == ref with
  | some e =>
    if secTs 60 ≤ s.ts - e.ts then
      done (({ s with msh := { s.msh with e2e := s.msh.e2e.filter fun x => x.ref != ref } }.err 0x1D 0x77).txResult ref 0 0x77)
    else done s
  | none => done s

-- Polling (R453 to R455)

/-- POLL_CTRL.RUN set: the list is checked and cycles start; the code that refuses it. -/
def State.pollRun (s : State) : State × Option Nat :=
  let l := List.range s.entries
  let addrs := l.map fun i => s.pollNum i 0 2
  if s.mshRole ≠ 2 then (s, some 0x1E)
  else if !noRepeat addrs || !(addrs.all fun a => decide (1 ≤ a ∧ a ≤ 1000) && a != s.mshAddr) || l.any fun i => decide (7 < s.pollNum i 3 1) then
    (s, some 0x75)
  else if s.on F.MSH_POLL_CTRL_RUN then (s, none)
  else
    let s := s.put F.MSH_POLL_CTRL_RUN 1
    (({ s with msh := { s.msh with cycIdx := 0, cycStart := s.ts, cycLm := s.ts, cycOn := true } }).computeBudgets, none)

def State.setEntries (s : State) (n : Nat) : State := s.put F.MSH_POLL_CTRL_ENTRIES n

def execPollRun (s : State) : Out := s.onFabric fun s =>
  match s.pollRun with
  | (s, some c) => done (s.err 0x1D c)
  | (s, none) => done (s.bumpSeq 0x1D)

/-- The next entry a cycle visits, from an index on. -/
def State.nextVisit (s : State) (i : Nat) : Option Nat :=
  (List.range s.entries).find? fun j => decide (i ≤ j) && s.pollEn j && (s.pollNum j 19 1 != 2 || s.msh.cycNum % 8 == 0)

/-- A cycle ends with its last poll (R454); the next begins while RUN is 1. -/
def State.cycleCheck (s : State) : State :=
  let run := s.on F.MSH_POLL_CTRL_RUN
  if !s.msh.cycOn || s.msh.polls != [] || (run && (s.nextVisit s.msh.cycIdx).isSome) then s
  else
    let ms (t : Nat) : Nat := (t - s.msh.cycStart) * 1000 / 32768
    let long := decide ((s.get F.LMG_TIMING_LEASE_S - s.get F.LMG_TIMING_FB_LEAD_S) * 500 < ms s.msh.cycLm)
    let s := (s.put F.MSH_CYCLE_LAST_MS (ms s.ts)).inc F.MSH_CYCLE_COUNT
    let s := if long then s.mshEvent 3 s.mshAddr else s
    let s := { s with msh := { s.msh with cycIdx := 0, cycNum := s.msh.cycNum + 1, cycStart := s.ts, cycLm := s.ts, cycOn := run } }
    if run then s.computeBudgets else s

/-- The waiting sections for a destination that fit into `n` bytes, in order; what is left over. -/
def fitSecs (d : Nat → Bool) : Nat → List MeshSec → List MeshSec × List MeshSec
  | _, [] => ([], [])
  | n, x :: l =>
    if d x.dest && decide (x.bytes.length ≤ n) then let (a, b) := fitSecs d (n - x.bytes.length) l; (x :: a, b)
    else let (a, b) := fitSecs d n l; (a, x :: b)

/-- POLL_SEND (R454). -/
def execPollSend (s : State) : Out := s.onFabric fun s =>
  if !s.mshRuns || !s.msh.cycOn || !s.on F.MSH_POLL_CTRL_RUN || s.silenced || decide (s.get F.MSH_POLL_CFG_WINDOW ≤ s.msh.polls.length) then
    done s.cycleCheck
  else match s.nextVisit s.msh.cycIdx with
    | none => done s.cycleCheck
    | some i =>
      let a := s.pollNum i 0 2
      let lm := (s.pollNum i 2 1).testBit 1
      let path := s.pollPath i
      let poll := mkSection 4 0 (le 4 s.msh.cycNum ++ le 2 s.free ++ le 2 0)
      let (s, b) := if lm then s.took.sendBudget a else (s.took, [])
      let budget := if b = [] then [] else mkSection 2 0 b
      let (now, later) := fitSecs (fun d => d == a) (2047 - 32 - 2 * path.length - poll.length - budget.length) s.msh.secs
      let s := { s with msh := { s.msh with secs := later, cycIdx := i + 1, polls := s.msh.polls ++ [(⟨a, i, s.ts, lm⟩ : PollOut)] } }
      done (s.ownFrame 6 a ((now.map fun (x : MeshSec) => x.prio).headD 0) path (path.headD a) false
        (poll ++ budget ++ now.flatMap fun (x : MeshSec) => x.bytes) (now.filterMap fun (x : MeshSec) => x.push))

/-- POLL_TIMEOUT (R454): a miss. -/
def execPollTimeout (dest : Nat) (s : State) : Out := s.onFabric fun s =>
  match s.msh.polls.find? fun p => p.dest == dest with
  | none => done s
  | some p =>
    if s.get F.MSH_POLL_CFG_HOP_MS * (s.pollNum p.idx 3 1 + 1) * 32768 ≤ (s.ts - p.ts) * 1000 then
      let s := { s with msh := { s.msh with polls := s.msh.polls.filter fun x => x.dest != dest, cycLm := if p.lm then s.ts else s.msh.cycLm } }
      let m := min 255 (s.pollNum p.idx 18 1 + 1)
      let s := s.setPoll p.idx 18 1 m
      let s := if s.get F.MSH_POLL_CFG_MISS_MAX ≤ m ∧ s.pollNum p.idx 19 1 ≠ 2 then
          let s := (s.setPoll p.idx 19 1 2).mshEvent 2 dest
          if (s.pollNum p.idx 2 1).testBit 2 then s else (s.setPoll p.idx 3 1 0).sramPut (pollBase + 32 * p.idx + 4) (List.replicate 14 0)
        else s
      done s.cycleCheck
    else done s

/-- A REPLY of this slave (R455): its report where asked, then waiting sections in priority order. -/
def State.sendReply (s : State) (room : Nat) (report unsol : Bool) : State :=
  let m := s.get F.MSH_MASTER_ADDR
  match s.route m with
  | none => s
  | some c =>
    let rep := if report then mkSection 3 0 s.reportPayload else []
    let order := s.msh.secs.mergeSort fun a b => a.prio ≤ b.prio
    let (now, later) := if unsol then ([], s.msh.secs) else fitSecs (fun _ => true) (min room 2015 - rep.length) order
    let s := { s with msh := { s.msh with secs := later } }
    s.ownFrame 7 m ((now.map fun (x : MeshSec) => x.prio).headD 0) [] c.via unsol (rep ++ now.flatMap fun (x : MeshSec) => x.bytes) (now.filterMap fun (x : MeshSec) => x.push)

/-- UNSOLICITED_REPLY (R455). -/
def execUnsolicitedReply (s : State) : Out := s.onFabric fun s =>
  if s.mshRuns ∧ s.mshRole = 1 ∧ (s.msh.freshRoute = true ∨ secTs (s.get F.MSH_POLL_CFG_POLL_LOSS_S) ≤ s.ts - s.msh.polled) then
    done ({ s with msh := { s.msh with freshRoute := false, polled := s.ts } }.sendReply 0 false true)
  else done s

-- Delivery and forwarding (R440, R443, R447, R455 to R458)

/-- The route learned from a passing frame (R447). -/
def State.learn (s : State) (tx : Nat) (h : NetHdr) : State :=
  match s.nb tx with
  | some n => match s.linkCost tx n with
    | some c => if h.orig = tx ∨ h.orig = s.mshAddr ∨ h.orig = bcast then s
      else s.addCand h.orig ⟨tx, capCost (h.pcost + c), h.hops + 1, false, s.ts⟩
    | none => s
  | none => s

/-- A USER section of a received frame (R456). -/
def State.userIn (s : State) (h : NetHdr) (snr : Int) (x : Nat) (data : List Byte) : State :=
  let s := s.emit (31 + h.prio % 4) 1 none 0
    (le 2 h.orig ++ le 1 h.hops ++ le 1 0 ++ le 2 h.nseq ++ le 1 (unsignedOf 8 snr) ++ le 1 0 ++ data)
  if x % 2 = 1 then (s.sendData h.orig (h.prio % 4) (mkSection 7 0 (le 2 h.nseq ++ le 2 0)) []).1 else s

/-- An end-to-end acknowledgement. -/
def State.e2eIn (s : State) (orig nseq : Nat) : State :=
  match s.msh.e2e.find? fun e => e.dest == orig && e.nseq == nseq with
  | some e => { s with msh := { s.msh with e2e := s.msh.e2e.filter fun x => x.ref != e.ref } }.txResult e.ref 1 0
  | none => s

/-- A REMOTE_RSP section at the master: RSEQ, then the response's payload (R457). -/
def State.remoteIn (s : State) (orig : Nat) (b : List Byte) : State :=
  match s.msh.remotes.find? fun r => r.dest == orig && r.rseq == fieldLe b 0 2 with
  | some r => { s with msh := { s.msh with remotes := s.msh.remotes.filter fun x => x != r } }.emit 64 (0x80 + r.typ) (some r.ref)
      (fieldLe b 4 2) (b.drop 4)
  | none => s

/-- A section delivered here; a REMOTE_REQ is left to be executed. -/
def State.sectionIn (s : State) (h : NetHdr) (r : MeshRx) (x : Nat × Nat × List Byte) : State :=
  if x.1 = 1 then s.userIn h r.snr x.2.1 x.2.2
  else if x.1 = 2 then (if s.mshRole = 1 ∧ h.orig = s.get F.MSH_MASTER_ADDR then s.takeBudget x.2.2 else s)
  else if x.1 = 3 then (if s.mshRole = 2 then s.takeReport h.orig x.2.2 else s)
  else if x.1 = 5 then { s with msh := { s.msh with todo := s.msh.todo ++ [(h.orig, x.2.2)] } }
  else if x.1 = 6 then s.remoteIn h.orig x.2.2
  else if x.1 = 7 then s.e2eIn h.orig (fieldLe x.2.2 0 2)
  else s

def State.sectionsIn (s : State) (h : NetHdr) (r : MeshRx) : State :=
  (((sectionsOf (content r.bytes)).getD []).foldl (fun s x => s.sectionIn h r x) s).inc F.MSH_RX_CNT_DELIVERED

/-- A frame for another node is forwarded (R443, R455): along its path, or by the route table; a REPLY gains this relay. -/
def State.forward (s : State) (r : MeshRx) (h : NetHdr) : State :=
  let l := linkHdr r.bytes
  let link := match s.nb l.tx with
    | some n => (s.linkCost l.tx n).getD 0xFFFF
    | none => 0xFFFF
  let h' := { h with hops := h.hops + 1, pcost := capCost (h.pcost + link + s.hopPen) }
  let h' := if l.ftype = 7 then { h' with path := (h.path ++ [s.mshAddr]).take 7, idx := min 7 (h.path.length + 1) }
    else if h.idx < h.path.length then { h' with idx := h.idx + 1 } else h'
  let hop := if l.ftype ≠ 7 ∧ h.path ≠ [] then some (h.path.getD (h.idx + 1) h.dest)
    else match s.route h.dest with
      | some c => some c.via
      | none => none
  match hop with
  | none => (s.incSat F.MSH_FAIL_CNT_NOROUTE).err 0x1D 0x71
  | some rx =>
    if l.ftype = 7 ∧ 7 ≤ h.path.length then s
    else
      let s := s.enqueue { ftype := l.ftype, unsol := (fieldLe r.bytes 1 1).testBit 2, rx := rx, net := some h', body := content r.bytes, rxTs := some r.ts }
      s.inc F.MSH_RX_CNT_FORWARDED

/-- A judged frame with a network header: the route it teaches, and whether it is for this node. -/
def State.arrive (s : State) (r : MeshRx) : State × NetHdr × Bool :=
  let h := netHdr r.bytes
  let s := s.learn (linkHdr r.bytes).tx h
  (s, h, h.dest == s.mshAddr || h.dest == bcast)

/-- DATA (R458), but for the execution of a REMOTE_REQ. -/
def State.data (s : State) (r : MeshRx) : State :=
  let (s, ok) := s.judgeFrame r
  if !ok then s
  else
    let (s, h, mine) := s.arrive r
    if mine then s.sectionsIn h r else s.forward r h

/-- POLL (R454, R455), but for the execution of a REMOTE_REQ. -/
def State.poll (s : State) (r : MeshRx) : State :=
  let (s, ok) := s.judgeFrame r
  if !ok then s
  else
    let (s, h, mine) := s.arrive r
    if !mine then s.forward r h
    else
      let secs := (sectionsOf (content r.bytes)).getD []
      let s := s.sectionsIn h r
      if s.mshRole ≠ 1 ∨ h.orig ≠ s.get F.MSH_MASTER_ADDR then s
      else
        let room := match secs.head? with
          | some (4, _, b) => fieldLe b 4 2
          | _ => 0
        { s with msh := { s.msh with polled := s.ts } }.sendReply room (secs.any fun x => x.1 == 2) false

/-- A REPLY at the master: the poll entry, its path, and the cycle (R454, R455). -/
def State.replyIn (s : State) (h : NetHdr) : State :=
  match (List.range s.entries).find? fun i => s.pollNum i 0 2 == h.orig with
  | none => s
  | some i =>
    let s := ((s.setPoll i 18 1 0).setPoll i 19 1 1).setPoll i 20 4 s.ts
    let s := if (s.pollNum i 2 1).testBit 2 then s
      else (s.setPoll i 3 1 h.path.length).sramPut (pollBase + 32 * i + 4)
        ((h.path.reverse.flatMap fun a => le 2 a) ++ List.replicate (14 - 2 * h.path.length) 0)
    match s.msh.polls.find? fun p => p.dest == h.orig with
    | some p =>
      let s := s.setPoll i 24 2 (min 0xFFFF ((s.ts - p.ts) * 1000 / 32768))
      { s with msh := { s.msh with polls := s.msh.polls.filter fun x => x.dest != h.orig, cycLm := if p.lm then s.ts else s.msh.cycLm } }
    | none => s

-- Remote commands of the master's host (R450, R457)

/-- The oldest command of ring 35 H2D goes out as a REMOTE_REQ section: its type, a zero word's rest, then the command's payload. -/
def State.remoteCmd (s : State) (typ : Nat) : State :=
  match s.head 35 with
  | none => s
  | some f =>
    if f.typ ≠ typ ∨ s.mshRuns = false then s
    else
      let s := s.take 35
      let d := fieldLe f.payload 0 2
      let refuse (s : State) (c : Nat) : State := (s.err 0x1D c).emit 64 (0x80 + typ) (some f.seq) c (le 2 c ++ le 2 0)
      let v1 := match s.nb d with
        | some n => n.chosen == 1
        | none => false
      let sec := mkSection 5 0 (le 4 typ ++ f.payload)
      match firstErr [(f.payload.length < 16 || s.mshRole != 2, 0x1E), ((s.hopTo d).isNone, 0x71), (v1 || s.get F.MSH_CFG_VMAX == 1, 0x76)] with
      | some c => refuse (if c = 0x71 then s.incSat F.MSH_FAIL_CNT_NOROUTE else s) c
      | none =>
        let s := { s with msh := { s.msh with remotes := s.msh.remotes ++ [(⟨d, fieldLe f.payload 2 2, f.seq, typ⟩ : RemoteOut)] } }
        if s.waitsPoll d then { s with msh := { s.msh with secs := s.msh.secs ++ [(⟨d, 0, sec, none⟩ : MeshSec)] } }
        else (s.sendData d 0 sec []).1

def execRemoteRead (s : State) : Out := s.onFabric fun s => done (s.remoteCmd 1)
def execRemoteWrite (s : State) : Out := s.onFabric fun s => done (s.remoteCmd 2)

-- CTRL.ENABLE and soft reset (R439, R452, R462)

/-- May INC advance (R452): at most 120 times within any 255 s? -/
def State.incFree (s : State) : Bool := decide ((s.msh.incTs.filter fun t => decide (s.ts - t < secTs 255)).length < 120)
def State.incAdvance (s : State) : State :=
  { s with msh := { s.msh with inc := (s.msh.inc + 1) % 256, incTs := (s.msh.incTs.filter fun t => decide (s.ts - t < secTs 255)) ++ [s.ts] } }

/-- CTRL.ENABLE of MSH; the code that refuses it. -/
def State.mshEnable (s : State) (en : Bool) : State × Option Nat :=
  if en = s.enabled 0x1D then (s, none)
  else if en then
    if s.mshAddr = 0 ∨ s.incFree = false then (s, some 0x1E)
    else
      let s := (s.put (hdrEnable 0x1D) 1).incAdvance
      let s := if s.mshRole = 2 then s.put F.MSH_MASTER_ADDR s.mshAddr else s
      ({ s with msh := { s.msh with polled := s.ts } }.showRoutes, none)
  else
    let s := { s with msh := { s.msh with outq := [], cur := none, ack := none, inbox := [], polls := [], cycOn := false } }
    (s.put (hdrEnable 0x1D) 0, none)

def execMshEnableWrite (_req : Req) (en : Bool) (s : State) : Out := s.onFabric fun s =>
  match s.mshEnable en with
  | (s, some c) => done (s.err 0x1D c)
  | (s, none) => done (s.bumpSeq 0x1D)

/-- A soft reset of MSH beside its registers: the poll list stays. -/
def State.resetMsh (s : State) : State :=
  { s with msh := { inc := s.msh.inc, incTs := s.msh.incTs } }.incAdvance

end Sys2Proof.Machine
end

