-- ==== Sys2Proof/Machine/Dma.lean ====
section
/-! DEFINITION. DMA: descriptors, their checks, loops and addresses, and the control of channels (18_dma.md). The moving of elements
is in Machine/Engine.lean. -/
namespace Sys2Proof.Machine

def State.chan (s : State) (n : Nat) : DmaChan := spRead (fun _ => ({} : DmaChan)) s.dma n
def State.setChan (s : State) (n : Nat) (c : DmaChan) : State := { s with dma := spWrite (fun _ => ({} : DmaChan)) s.dma n c }

/-- A byte of system SRAM as read: the ring windows are the ring logic's (a free value), the route table is MSH's own (R444). -/
def State.memByte (s : State) (o : Nat) : Byte :=
  if o < 0x40000 then Config.openByte s.fresh o
  else if 0x90000 ≤ o ∧ o < 0x98000 then s.routeByte (o - 0x90000) else s.sramByte o
def State.memBytes (s : State) (o n : Nat) : List Byte := (List.range n).map fun i => s.memByte (o + i)

-- States (R527)

def dmaIdle : Nat := 0
def dmaRun : Nat := 1
def dmaWait : Nat := 2
def dmaPaused : Nat := 3
def State.dmaState (s : State) (n : Nat) : Nat := s.get (F.DMA_STAT_STATE n)
def State.setDma (s : State) (n v : Nat) : State :=
  (s.put (F.DMA_STAT_STATE n) v).put ⟨A.DMA_ACTIVE, n, 1⟩ (if v = dmaIdle then 0 else 1)
def State.halted (s : State) : Bool := s.on F.DMA_HALT_HALTED

-- The descriptor in the registers (R527)

def State.descWord (s : State) (n w : Nat) : W32 := s.reg (A.DMA_DESC0 n + 4 * w)
def State.descInt (s : State) (n w : Nat) : Int := signedOf 32 (s.descWord n w).toNat
def State.c0 (s : State) (n : Nat) : Nat := s.get (F.DMA_DESC2_C0 n)
def State.c1 (s : State) (n : Nat) : Nat := s.get (F.DMA_DESC2_C1 n)
def State.c2 (s : State) (n : Nat) : Nat := s.get (F.DMA_DESC3_C2 n)
def State.k0 (s : State) (n : Nat) : Nat := s.get (F.DMA_POS0_K0 n)
def State.k1 (s : State) (n : Nat) : Nat := s.get (F.DMA_POS0_K1 n)
def State.k2 (s : State) (n : Nat) : Nat := s.get (F.DMA_POS1_K2 n)
def State.elemSize (s : State) (n : Nat) : Nat := 2 ^ s.get (F.DMA_DESC3_ELEM n)
def State.waitLevel (s : State) (n : Nat) : Nat := s.get (F.DMA_DESC13_WAIT_LEVEL n)

/-- The address of the element at the channel's position (R530): one step is added from element to element, so every position has
made k0 + (C0 − 1) × (k1 + C1 × k2) inner steps, k1 + (C1 − 1) × k2 middle steps and k2 outer steps. `w` is the first step's word. -/
def State.elemAddr (s : State) (n base w : Nat) : Nat :=
  let inner := s.k0 n + (s.c0 n - 1) * (s.k1 n + s.c1 n * s.k2 n)
  let mid := s.k1 n + (s.c1 n - 1) * s.k2 n
  (((s.descWord n base).toNat + inner * s.descInt n w + mid * s.descInt n (w + 1) + s.k2 n * s.descInt n (w + 2)) % (2 : Int) ^ 32).toNat
def State.srcAddr (s : State) (n : Nat) : Nat := s.elemAddr n 0 4
def State.dstAddr (s : State) (n : Nat) : Nat := s.elemAddr n 1 7

/-- The position of the next element; none after the last (R530). -/
def State.nextPos (s : State) (n : Nat) : Option (Nat × Nat × Nat) :=
  let k0 := s.k0 n
  let k1 := s.k1 n
  let k2 := s.k2 n
  if k0 + 1 < s.c0 n then some (k0 + 1, k1, k2)
  else if k1 + 1 < s.c1 n then some (0, k1 + 1, k2)
  else if k2 + 1 < s.c2 n then some (0, 0, k2 + 1)
  else none

def State.setPos (s : State) (n k0 k1 k2 : Nat) : State :=
  ((s.put (F.DMA_POS0_K0 n) k0).put (F.DMA_POS0_K1 n) k1).put (F.DMA_POS1_K2 n) k2

/-- Is the channel at the start of a pass it waits before (R534)? -/
def State.waitsHere (s : State) (n : Nat) : Bool :=
  (s.waitLevel n == 1 && s.k0 n == 0) || (s.waitLevel n == 2 && s.k0 n == 0 && s.k1 n == 0)

/-- RUN, or WAIT at the start of a pass. -/
def State.enterPass (s : State) (n : Nat) : State :=
  let c := s.chan n
  if s.waitsHere n && !c.clear then s.setDma n dmaWait else s.setDma n dmaRun

-- Completion frames (R536)

def State.dmaFrame (s : State) (n typ code : Nat) : State :=
  let c := s.chan n
  let s := s.emit 50 typ none 0 (le 1 n ++ le 1 c.chained.toNat ++ le 2 code ++ le 4 (s.descWord n 15).toNat ++ le 4 c.addr
    ++ le 4 c.moved ++ le 8 s.ts)
  if typ = 1 then s.irq 0x06 0 else if typ = 2 then s.irq 0x06 1 else s

def State.lastCode (s : State) (n code : Nat) : State := s.put (F.DMA_STAT_LAST_CODE n) code

-- The checks of R529

/-- Checks 2 and 3 on the words of a descriptor. -/
def descCheck (w : List W32) : Option Nat :=
  let at' (i : Nat) : W32 := w.getD i 0
  let lvl := getBits (at' 13) 16 8
  let next := (at' 14).toNat
  if getBits (at' 2) 0 16 = 0 ∨ getBits (at' 2) 16 16 = 0 ∨ getBits (at' 3) 0 16 = 0 then some 0xB0
  else if 4 < getBits (at' 3) 16 8 ∨ getBits (at' 3) 26 6 ≠ 0 ∨ 2 < lvl ∨ (lvl ≠ 0 ∧ (at' 10).toNat % 4 ≠ 0)
      ∨ (next ≠ 0 ∧ (next % 16 ≠ 0 ∨ next < 0x20000000 ∨ 0x20100000 < next + 64)) then some 0xB1
  else none

/-- The descriptor words of the registers. -/
def State.descRegs (s : State) (n : Nat) : List W32 := (List.range 16).map fun w => s.descWord n w

/-- The descriptor words at an SRAM address. -/
def State.descAt (s : State) (a : Nat) : List W32 :=
  (List.range 16).map fun w => BitVec.ofNat 32 (ofLe (s.memBytes (a - 0x20000000 + 4 * w) 4))

/-- The words go into the registers' fields. -/
def State.putDesc (s : State) (n : Nat) (l : List W32) : State :=
  (l.zipIdx).foldl (fun s p =>
    let w := if p.2 = 3 then p.1 &&& 0x0307FFFF else if p.2 = 13 then p.1 &&& 0x0003FFFF else p.1
    s.setReg (A.DMA_DESC0 n + 4 * p.2) w) s

/-- The descriptor runs from its first element. -/
def State.runDesc (s : State) (n : Nat) (chained : Bool) (addr : Nat) : State :=
  ((s.setPos n 0 0 0).setChan n { chained := chained, addr := addr }).enterPass n

def loadAddrOk (a : Nat) : Bool := decide (a % 16 = 0) && decide (0x20000000 ≤ a) && decide (a + 64 ≤ 0x20100000)

/-- Beats issued (R535, R543). -/
def State.beats (s : State) (n : Nat) : State := s.put F.DMA_BEATS (s.get F.DMA_BEATS + n)

-- Commands (R528, R540)

/-- A refused command: its code in ERRCODE and in LAST_CODE. -/
def State.dmaRefuse (s : State) (n code : Nat) : State × Option Nat := (s.lastCode n code, some code)

/-- START and LOAD. -/
def State.dmaStart (s : State) (n : Nat) (load : Bool) : State × Option Nat :=
  let a := (s.reg (A.DMA_LOAD_ADDR n)).toNat
  match firstErr [(!s.enabled 0x06, 0x1E), (s.dmaState n != dmaIdle, 0xB3), (s.halted, 0xB4)] with
  | some c => s.dmaRefuse n c
  | none =>
    if load && !loadAddrOk a then s.dmaRefuse n 0xB1
    else
      let l := if load then s.descAt a else s.descRegs n
      let s := if load then (s.took.beats 4).putDesc n l else s
      match descCheck l with
      | some c => s.dmaRefuse n c
      | none => (s.runDesc n load (if load then a else 0), none)

/-- RESUME: a failed channel repeats its element. -/
def State.dmaResume (s : State) (n : Nat) : State × Option Nat :=
  match firstErr [(s.dmaState n != dmaPaused, 0xB3), (s.halted, 0xB4)] with
  | some c => s.dmaRefuse n c
  | none => ((s.put (F.DMA_STAT_FAILED n) 0).enterPass n, none)

/-- ABORT: without effect on an idle channel or once the last element has been moved. -/
def State.dmaAbort (s : State) (n : Nat) : State :=
  if s.dmaState n = dmaIdle ∨ (s.chan n).fin = true then s
  else ((s.dmaFrame n 3 0).put (F.DMA_STAT_FAILED n) 0).setDma n dmaIdle

/-- A direct command's end. -/
def dmaDone (x : State × Option Nat) : Out :=
  match x with
  | (s, some c) => done (s.err 0x06 c)
  | (s, none) => done (s.bumpSeq 0x06)

def execDmaStart (n : Fin 16) (s : State) : Out := s.onFabric fun s => dmaDone (s.dmaStart n false)
def execDmaLoad (n : Fin 16) (s : State) : Out := s.onFabric fun s => dmaDone (s.dmaStart n true)
def execDmaResume (n : Fin 16) (s : State) : Out := s.onFabric fun s => dmaDone (s.dmaResume n)
def execDmaAbort (n : Fin 16) (s : State) : Out := s.onFabric fun s => done ((s.dmaAbort n).bumpSeq 0x06)

/-- HALT_CLEAR (R540). -/
def State.haltClear (s : State) : State := s.put F.DMA_HALT_HALTED 0
def execHaltClear (s : State) : Out := s.onFabric fun s => done (s.haltClear.bumpSeq 0x06)

/-- POS0 or POS1 written (R540, R543). -/
def State.posWrite (s : State) (n : Nat) (pos1 : Bool) (val : W32) : State × Option Nat :=
  let v := val.toNat
  let out := if pos1 then decide (s.c2 n ≤ v % 65536) else decide (s.c0 n ≤ v % 65536) || decide (s.c1 n ≤ v / 65536)
  match firstErr [(out, 0x1E), (s.dmaState n != dmaPaused || s.halted, 0xB3)] with
  | some c => (s, some c)
  | none =>
    let s := s.setChan n { s.chan n with fin := false }
    (if pos1 then s.put (F.DMA_POS1_K2 n) (v % 65536) else s.setReg (A.DMA_POS0 n) val, none)

def execPosWrite (_req : Req) (n : Fin 16) (pos1 : Bool) (val : W32) (s : State) : Out := s.onFabric fun s => dmaDone (s.posWrite n pos1 val)

/-- DESCRIPTOR_COMPLETE (R528, R530, R536): a DONE frame where RING is set or the chain ends; the descriptor at NEXT runs. -/
def execDescriptorComplete (n : Fin 16) (s : State) : Out := s.onFabric fun s =>
  if s.dmaState n ≠ dmaRun ∨ (s.chan n).fin = false then done s
  else
    let next := (s.descWord n 14).toNat
    let s := s.inc (F.DMA_POS1_DESCS n)
    let s := if s.on (F.DMA_DESC3_RING n) || next == 0 then s.dmaFrame n 1 0 else s
    if next = 0 then done ((s.setChan n { s.chan n with fin := false }).setDma n dmaIdle)
    else
      let l := s.descAt next
      let s := ((s.took.beats 4).putDesc n l).setChan n { chained := true, addr := next }
      match descCheck l with
      | some c => done (((s.lastCode n c).dmaFrame n 2 c).setDma n dmaIdle)
      | none => done (s.runDesc n true next)

/-- WAIT_TIMEOUT (R534): the chain ends with 0x00B2. -/
def execWaitTimeout (n : Fin 16) (s : State) : Out := s.onFabric fun s =>
  let lim := s.get (F.DMA_DESC13_WAIT_TO n)
  if s.dmaState n = dmaWait ∧ lim ≠ 0 ∧ lim ≤ (s.chan n).polls then
    done ((((s.err 0x06 0xB2).lastCode n 0xB2).dmaFrame n 2 0xB2).setDma n dmaIdle)
  else done s

-- Bus errors (R539)

/-- A refused beat: its address, whether a write or a poll, and the target's code. -/
structure BusFail where
  addr : Nat
  write : Bool
  poll : Bool
  code : Nat

/-- The engine halts. -/
def State.busHalt (s : State) (n : Nat) (f : BusFail) : State :=
  let s := ((s.put (F.DMA_STAT_FAILED n) 1).lastCode n f.code).dmaFrame n 2 f.code
  let s := (List.range 16).foldl (fun s k => if s.dmaState k = dmaRun ∨ s.dmaState k = dmaWait then s.setDma k dmaPaused else s) s
  let s := (s.setReg A.DMA_ERR_ADDR (BitVec.ofNat 32 f.addr)).setReg A.DMA_ERR_INFO
    (BitVec.ofNat 32 (f.code + 2 ^ 16 * f.write.toNat + 2 ^ 17 * f.poll.toNat + 2 ^ 20 * n))
  (s.put F.DMA_HALT_HALTED 1).irq 0x06 2

-- CTRL.ENABLE and soft reset (R541)

def State.dmaEnable (s : State) (en : Bool) : State × Option Nat :=
  if !en && s.get F.DMA_ACTIVE_CH != 0 then (s, some 0x1E) else (s.put (hdrEnable 0x06) en.toNat, none)

/-- A soft reset's ABORTED frames; the registers return to reset with the page. -/
def State.resetDma (s : State) : State :=
  { (List.range 16).foldl (fun s n => if s.dmaState n = dmaIdle then s else s.dmaFrame n 3 0) s with dma := [] }

end Sys2Proof.Machine
end

