-- ==== Sys2Proof/Machine/Chain.lean ====
section
/-! DEFINITION. The measurement chain from the output sample to the couch, across its blocks: samples, batches, cycle boundaries,
metering enables, the couch, and the power-fail sequence up to its cutoff (04, 05 and 06 of spec/). -/
namespace Sys2Proof.Machine

-- Samples, boundaries and batches

/-- OUTPUT_SAMPLE (R129, R131, R132, R211, R265): every running channel delivers a tagged sample, the pulse stages add their share and
the capture history takes its value. After sample 255 the boundary comes first. -/
def execOutputSample (values : List Int) (w : List Int) (v : List Int) (s : State) : Out := s.onFabric fun s =>
  if s.enabled 0x11 ∧ s.ms.idx < 256 then
    let s := s.sampleAll values w v
    done ((List.range 16).foldl (fun s n => s.stageShare (s.get F.DEC_INCR) n) s).capSample
  else done s

/-- CYCLE_BOUNDARY (R131): the cycle of 256 samples is complete; what is tied to the boundary applies to the one that begins. -/
def execCycleBoundary (s : State) : Out := s.onFabric fun s =>
  if s.enabled 0x11 ∧ s.ms.idx = 256 then
    let s := s.capBoundary
    let words := if s.enabled 0x12 then s.harmWords (s.get F.DEC_CYCLE_CNT) else []
    let s := { s with mt := { s.mt with harmNext := words, harmSel := (s.get F.MTR_HARM_SEL_CH, s.get F.MTR_HARM_SEL_H) } }
    let s := ({ s with ms := { s.ms with idx := 0, endMark := [] } }).inc F.DEC_CYCLE_CNT
    let s := s.trackBoundary.settleBoundary
    let s := (List.range 12).foldl (fun s k => s.runBoundary k) s
    done s.calBoundary
  else done s

/-- The couch in progress completes (R193, R197, R200, R344, R463, R510); a final one is followed by the power-fail entry of the legal log
(R202 step 7), whose data are bytes 12 to 23 of the record. -/
def State.finishCouch (s : State) (time : Nat) : State :=
  match s.mt.couching with
  | none => s
  | some r =>
    let s := (s.couchWrite r (min 0xFFFF time)).journalCouch r (min 0xFFFF time)
    let s := (s.sesCouch r s.ts).totalsCouch r s.ts
    if r.flags.testBit 0 then
      s.log 0x0001 noOutlet (le 1 r.flags ++ le 1 1 ++ le 2 0 ++ le 2 r.pfWait ++ le 2 r.pfUnconf ++ le 2 r.pfCurrent ++ le 2 0)
    else s

/-- A couch falls due: one still in progress completes first, its time being free (R197). -/
def State.couchDue (s : State) (flags : Nat) : State :=
  let s := if s.mt.couching.isSome then s.took.finishCouch (s.free % 4001) else s
  { s with mt := { s.mt with couching := some (s.legalRecord flags) } }

/-- COUCH_COMPLETE (R193, R197): the time it took, in 0.01 µs. -/
def execCouchComplete (time : Nat) (s : State) : Out := s.onFabric fun s => done (s.finishCouch time)

/-- The harmonic of the cycle published (R179): HARM_SEL keeps its selection. -/
def State.showHarm (s : State) : State :=
  s.mt.harmNext.foldl (fun s w =>
    s.setReg w.1 (if w.1 = A.MTR_HARM_SEL then (s.reg w.1 &&& 0xFFFF) ||| w.2 else w.2)) s

/-- The results of the batch made ready last are published; a couch falls due at batches 7 and 15 (R143, R197), and LMG takes a published
cycle (R363). -/
def State.publishBatch (s : State) (last : Nat) : State :=
  let s := ((List.range 16).foldl (fun s j => s.publishSlot j) s).feedStages
  let b := last % 16
  let s := if (b = 7 ∨ b = 15) ∧ s.couchable then s.couchDue (if b = 15 then 4 else 0) else s
  if b = 15 then s.showHarm.lmgCycle else s

/-- BATCH_READY (R143): the sixteenth sample of a batch is there; the batch before it is published, and every slot starts this one. -/
def execBatchReady (s : State) : Out := s.onFabric fun s =>
  let r := s.mt.readied
  if s.enabled 0x12 ∧ s.enabled 0x11 ∧ 16 * (r + 1) ≤ s.mt.total then
    let s := if r = 0 then s else s.publishBatch (r - 1)
    let off := s.mt.total - 16 * (r + 1)
    let s := (List.range 16).foldl (fun s j => s.slotBatch (r / 16 % 2 ^ 32) (r % 16) off j) s
    let s := (s.fastWords off).startAudits
    done { s with mt := { s.mt with readied := r + 1 } }
  else done s

-- Metering enables (R182, R189, R199, R251)

/-- A write of MTR[k].CTRL.ENABLE; the code that refuses it, if any. -/
def State.mtrkEnable (s : State) (k : Nat) (en : Bool) : State × Option Nat :=
  let p := 0x20 + k
  let code := if en then
      firstErr [(!s.enabled 0x12 || s.get (F.MTRK_IB_IB k) == 0, 0x1E), (!s.on F.MTR_LEGAL_STAT_LEGAL_OK, 0x21),
        (!s.on F.CAL_STATUS_SHIM_OK, 0x35)]
    else firstErr [(s.on (F.BAYK_STATE_CLOSED k), 0x1E)]
  match code with
  | some c => (s.err p c, some c)
  | none =>
    if en then (if s.enabled p then s else s.meterStart k, none)
    else if s.enabled p then ((s.meterStop k).sesStop k 0x07, none) else (s, none)

/-- MTR_ENABLE_WRITE. -/
def execMtrEnableWrite (_req : Req) (k : Fin 12) (en : Bool) (s : State) : Out := s.onFabric fun s =>
  let (s, r) := s.mtrkEnable k en
  done (if r = none then s.bumpSeq (0x20 + k) else s)

-- Power failure (R201 to R204)

/-- The outlets closed at a warning (R203). -/
def State.closedNow (s : State) : Nat :=
  maskOf ((List.range 12).map fun k => s.outHigh k || s.on (F.BAYK_STATE_CLOSED k))

/-- A warning (R202 step 1): contactor outputs low in hardware, no new step, test, record, frame or start of a transmission. -/
def State.powerWarn (s : State) : State :=
  let closed := s.closedNow
  let s := (List.range 12).foldl (fun s k => if s.outHigh k then s.setOutlet k { s.outlet k with lowTs := s.ts } else s) s
  let s := { s with pf := { s.pf with warned := true, couches := s.couchable, warnTs := s.ts, closed := closed, confirmed := 0 } }
  ((s.showHolds.testAbandonAll).flashWarn.sesWarn).epdWarn.plcAbort

/-- POWER_FAIL_WARNING (R201, R202): armed from the release of the host link on; it wakes the device from STANDBY (R568). -/
def execPowerFailWarning (s : State) : Out :=
  if s.pf.armed ∧ s.pf.warned = false ∧ s.pf.halted = false then done s.wakeUp.powerWarn else done s

/-- PF_WAIT_END (R203): 40 ms after the warning, or a half cycle after the last of the closed outlets confirmed open. -/
def execPfWaitEnd (timeout : Bool) (s : State) : Out := s.onFabric fun s =>
  let all := decide (Nat.land s.pf.closed s.pf.confirmed = s.pf.closed)
  if s.pf.warned && s.pf.couches && !s.pf.waitEnded && (timeout || all) then
    let t := if timeout then 400 else if s.pf.closed = 0 then 0 else min 400 ((s.ts - s.pf.warnTs) * 10000 / 32768)
    done { s with pf := { s.pf with waitEnded := true, wait := t, timeout := timeout } }
  else done s

/-- The closing batch of outlet k (R204): the provisional increments of the n samples since its last batch; the remainder stays. -/
def State.closingIncs (s : State) (k n : Nat) : List Incr :=
  let x := s.slot k
  let bad := (s.outTags k 0 n).testBit 1 || (s.meter k).waitCycle || s.deciding k == [] || !(x.valid || s.mt.readied % 16 == 0)
  if bad || n = 0 then []
  else if s.isDc k then
    let (_, _, ui, ii) := s.dcSums k 0 n
    let e := (s.energy (ui * 1000000 - s.cableR k * ii) 1000000, (0 : Int), (0 : Int))
    if s.running k 0 then [(handOut (add3 e (x.rem.getD 0 (0, 0, 0)))).1] else []
  else (s.phases k).map fun p =>
    let q := x.prevQS.getD p (0, 0)
    if s.running k p then (handOut (add3 (s.provisional k p 0 n q.1 q.2) (x.rem.getD p (0, 0, 0)))).1 else {}

/-- Results still waiting for the gate and the closing batch reach the accumulators and the pulse stages (R202 steps 4 and 5). -/
def State.cutoffSlot (s : State) (n k : Nat) : State :=
  if s.enabled (0x20 + k) && !(s.slot k).stopped && (s.carrier k).isSome then
    let x := s.slot k
    let s := (s.setSlot k { x with buf := [] })
    let s := x.buf.foldl (fun s r => s.accumulate k r.incs) s
    let s := s.accumulate k (s.closingIncs k n)
    let m := s.meter k
    s.setMeter k { m with pub := add3 m.pub m.pubNext, pubNext := (0, 0, 0) }
  else s

/-- PF_CUTOFF (R202, R204): 2.0 ms after the wait end; the final couch falls due. Its HALF bit is free: the spec ties it to batches 7 and
15 alone. -/
def execPfCutoff (s : State) : Out := s.onFabric fun s =>
  if s.pf.waitEnded && !s.pf.cutoff then
    let n := s.mt.total - 16 * s.mt.readied
    let s := ((List.range 12).foldl (fun s k => s.cutoffSlot n k) s).feedStages
    let half := s.free % 2
    let s := { s.took with pf := { s.pf with cutoff := true } }
    done (s.couchDue (1 + 4 * half))
  else done s

end Sys2Proof.Machine
end

