-- ==== Sys2Proof/Machine/Access.lean ====
section
/-! DEFINITION. Reading the address map: requesters, the page header, what each register reads as, 64-bit read shadows, and words of
the four regions (02_registers_host_link.md R39 to R54). -/
namespace Sys2Proof.Machine

-- Requesters (R41, R52)

/-- The page on which a requester records what is refused to it; the start sequencer has none (R556). -/
def reqPage (r : Req) : Option Nat :=
  match r with
  | .host => some 0x04
  | .dma _ => some 0x06
  | .mesh => some 0x1D
  | .boot => none

/-- The requester records an error. -/
def State.reqErr (s : State) (r : Req) (code : Nat) : State :=
  match reqPage r with
  | some p => s.err p code
  | none => s

/-- Does an access act as privileged (R50, R52)? `priv` names the privileged view. -/
def State.acts (s : State) (r : Req) (priv : Bool) : Bool :=
  match r with
  | .host => priv && s.privOpen
  | .boot => true
  | _ => false

/-- A refusal that the target page and the requester both record; once where they are the same page (R53). -/
def State.bothErr (s : State) (r : Req) (p code : Nat) : State :=
  let s := s.err p code
  if reqPage r = some p then s else s.reqErr r code

-- The address map (R39)

/-- Where an address lies: an offset in system SRAM, in display SRAM or in the register space (with the view), or nowhere. -/
inductive Place where
  | sram (o : Nat)
  | disp (o : Nat)
  | reg (a : Nat) (priv : Bool)
  | none
  deriving DecidableEq, Repr

def placeOf (addr : Nat) : Place :=
  if 0x20000000 ≤ addr ∧ addr < 0x20100000 then .sram (addr - 0x20000000)
  else if 0x30000000 ≤ addr ∧ addr < 0x30200000 then .disp (addr - 0x30000000)
  else if 0x40000000 ≤ addr ∧ addr < 0x40100000 then .reg (addr - 0x40000000) false
  else if 0x40800000 ≤ addr ∧ addr < 0x40900000 then .reg (addr - 0x40800000) true
  else .none

-- The page header (R44, R45)

/-- Both HLK pages share the CTRL of page 0x04 (R77). -/
def ctrlPage (p : Nat) : Nat := if p = 0x05 then 0x04 else p

/-- STATUS: ACTIVE, SRST_BUSY and the block's own bits; MCLK_RUN follows AFE (R565). -/
def State.statusWord (s : State) (p : Nat) : W32 :=
  let w := s.reg (4096 * p + 0x00C)
  let w := putBits w 0 2 ((s.enabled (ctrlPage p)).toNat + 2 * (s.on (hdrSrst (ctrlPage p))).toNat)
  if p = 0x02 then putBits w 5 1 (s.enabled 0x10).toNat else w

/-- What a header offset reads. -/
def State.headWord (s : State) (p o : Nat) : W32 :=
  if o = 0x008 then s.reg (4096 * ctrlPage p + 0x008)
  else if o = 0x00C then s.statusWord p
  else if o = 0x010 then 0
  else if o = 0x028 then wordN s.epoch
  else if p = 0x05 ∧ (o = 0x014 ∨ o = 0x018) then 0
  else s.reg (4096 * p + o)

-- Registers that show state held elsewhere

/-- Bit n: ring n holds a frame for the host (R77). -/
def State.readyMask (s : State) : Nat :=
  maskOf ((List.range 64).map fun n => if n = 35 then (s.ring 64).frames != [] else !s.h2d n && (s.ring n).frames != [])

/-- Bit n: host-to-device ring n has no free slot (R77). -/
def State.fullMask (s : State) : Nat := maskOf ((List.range 64).map fun n => s.h2d n && decide (s.slots n ≤ (s.ring n).frames.length))

/-- Pages from `base` on with IRQ_PEND AND IRQ_EN non-zero (R77). -/
def State.pendMask (s : State) (base n : Nat) : Nat :=
  maskOf ((List.range n).map fun i => (s.headWord (base + i) 0x018 &&& s.headWord (base + i) 0x014) != 0)

/-- Open clock branches (R576): those of enabled blocks. -/
def State.gateMask (s : State) (base n : Nat) : Nat := maskOf ((List.range n).map fun i => s.enabled (ctrlPage (base + i)))

/-- RING_SEQ and RING_FILL of ring entry `e` (R78). -/
def State.ringSeqWord (s : State) (e : Nat) : W32 :=
  let r := s.ring e
  let oldest := if s.h2d e then r.prev else match r.frames.head? with
    | some f => f.seq
    | none => r.next
  wordN (r.next % 65536 + 65536 * oldest)
def State.ringFillWord (s : State) (e : Nat) : W32 :=
  let r := s.ring e
  wordN (r.frames.length % 512 + 65536 * min 0xFFFF r.lost)

/-- Backup word 0 (R558). -/
def State.backupWord0 (s : State) : Nat :=
  match s.boot.bk with
  | none => 0
  | some c =>
    let hist := c.hist % 256
    let b2 := c.release.toNat + 2 * c.path.toNat
    c.fails + 256 * hist + 65536 * b2 + 2 ^ 24 * Nat.xor 0x5A (Nat.xor c.fails (Nat.xor hist b2))

/-- Backup words 0 to 7 (R573). -/
def State.backupWord (s : State) (w : Nat) : W32 :=
  if w = 0 then wordN s.backupWord0
  else if w = 1 then wordN (s.boot.bkEpoch.getD 0)
  else if w = 2 then match s.nv.holdupWord with
    | some ms => wordN (ms + 65536)
    | none => 0
  else if w = 3 then wordN (s.get F.SEA_SESS_STAT_FAILS + 256 * s.get F.SEA_SESS_LOCK_LEFT)
  else 0

/-- STREAM[n] from FIRST_SEQ on (R490). -/
def State.streamWord (s : State) (n o : Nat) : Option W32 :=
  if o = 4 then some (wordN (s.firstSeq n))
  else if o = 8 then some (wordN (s.streamHead n).next)
  else if o = 12 then some (wordN ((s.reamsOf n).length + 256 * (s.openReam n).getD 0xFFFF))
  else none

/-- A word of BKP that state beside the bank gives (R573, R577). -/
def State.bkpWord (s : State) (o : Nat) : Option W32 :=
  if o = 0x100 then some (wordN s.ts)
  else if o = 0x104 then some (wordN (s.ts / 2 ^ 32))
  else if o = 0x120 then some (spRead (fun _ => (0 : W32)) s.boot.rsram (s.get F.BKP_RSRAM_IDX_IDX))
  else if 0x180 ≤ o ∧ o < 0x1A0 then some (s.backupWord ((o - 0x180) / 4))
  else none

/-- A word of HLK that the rings give (R77, R78). -/
def State.hlkWord (s : State) (p o : Nat) : Option W32 :=
  if p = 0x05 then
    if o % 16 = 4 then some (s.ringSeqWord ((o - 0x100) / 16))
    else if o % 16 = 8 then some (s.ringFillWord ((o - 0x100) / 16))
    else none
  else if o = 0x120 then some (wordN s.readyMask)
  else if o = 0x124 then some (wordN (s.readyMask / 2 ^ 32))
  else if o = 0x128 then some (wordN s.fullMask)
  else if o = 0x12C then some (wordN (s.fullMask / 2 ^ 32))
  else if o = 0x138 then some (wordN (s.pendMask 0 32))
  else if o = 0x13C then some (wordN (s.pendMask 32 28))
  else none

/-- A word of RST or CLK (R575, R576). -/
def State.rstWord (s : State) (p o : Nat) : Option W32 :=
  if p = 0x02 then
    if o = 0x108 then some (wordN (s.gateMask 0 32)) else if o = 0x10C then some (wordN (s.gateMask 32 28)) else none
  else if o = 0x110 then
    some (putBits (s.reg A.RST_FUSE_DATA) 8 4 (spRead (fun _ => 0) s.boot.sensed (s.get F.RST_FUSE_IDX_BALL)))
  else if o = 0x118 then some (putBits (s.reg A.RST_FUSE_STAT) 0 1 s.boot.fuseJob.isSome.toNat)
  else none

/-- A word of MTR[k]: the accumulators, LEGAL_OK, and the set a requester has frozen (R161, R186, R194). -/
def State.mtrkWord (s : State) (req : Req) (k o : Nat) : Option W32 :=
  if 0x310 ≤ o ∧ o < 0x398 then
    let v := (s.meter k).acc.regs.getD ((o - 0x310) / 8) 0
    some (wordN (if o % 8 = 0 then v else v / 2 ^ 32))
  else if o = 0x308 then some (putBits (s.reg (A.MTRK_ESTAT k)) 4 1 (s.on F.MTR_LEGAL_STAT_LEGAL_OK).toNat)
  else if (0x110 ≤ o ∧ o < 0x300) ∨ (0x404 ≤ o ∧ o < 0x420) then
    match s.mt.frozen.find? fun f => f.req == req && f.snap == decide (0x404 ≤ o) && f.outlet == k with
    | some f => match f.words.find? fun w => w.1 == 0x20000 + 4096 * k + o with
      | some w => some w.2
      | none => some (resetWord (0x20000 + 4096 * k + o))
    | none => none
  else none

/-- A block register word that state beside the bank gives; none where the bank holds it. -/
def State.shown (s : State) (req : Req) (p o : Nat) : Option W32 :=
  if p = 0x01 ∨ p = 0x02 then s.rstWord p o
  else if p = 0x03 then s.bkpWord o
  else if p = 0x04 ∨ p = 0x05 then s.hlkWord p o
  else if p = 0x08 then
    (if o = 0x104 ∧ s.linkUp = true then some (putBits (s.reg 0x8104) 16 16 (Config.portWait s.ts s.fresh).toNat) else none)
  else if p = 0x09 then
    if 0x140 ≤ o ∧ o < 0x1C0 then s.streamWord ((o - 0x140) / 16) (o % 16)
    else if o = 0x10C then some (putBits (s.reg A.NVL_HOLDUP) 17 1 (s.stepAllowed (.prog 0 0)).toNat)
    else none
  else if p = 0x0A then
    if o = 0x100 then some (putBits (s.reg A.SEA_STAT) 17 1 s.sealEn.toNat)
    else if o = 0x240 then some (if s.boot.romOnly then 0 else wordN s.legal.next)
    else none
  else if p = 0x12 then (if 0x130 ≤ o ∧ o < 0x140 ∧ s.enabled 0x12 = true then some (Config.laneDuty s.ts s.fresh ((o - 0x130) / 4)) else none)
  else if p = 0x13 then (if o = 0x144 then some s.shimData else none)
  else if p = 0x19 then (if o = 0x150 then some (if s.boot.romOnly then 0 else wordN s.legal.watermark) else none)
  else if p = 0x1A then (if o = 0x150 then some (wordN (min 0xFFFFFF s.leaseLeft)) else none)
  else if p = 0x1E then (if o = 0x114 then some (s.showPanelTemp.reg A.EPD_TEMP_STAT) else none)
  else if 0x20 ≤ p ∧ p < 0x2C then s.mtrkWord req (p - 0x20) o
  else none

/-- The bits of the fields that a test picks. -/
def fieldBits (l : List FieldSpec) (p : FieldSpec → Bool) : Nat :=
  l.foldl (fun m f => if p f then m ||| (2 ^ (f.hi - f.lo + 1) - 1) * 2 ^ f.lo else m) 0

/-- Which fields a read returns (R15, R53): not write-only ones, and ROS ones to a privileged access alone. -/
def readable (priv : Bool) (f : FieldSpec) : Bool := f.acc != .wo && (priv || f.acc != .ros)

/-- What a register-space offset reads as, unmapped offsets zero (R41, R53). -/
def State.regView (s : State) (req : Req) (priv : Bool) (a : Nat) : W32 :=
  let p := a / 4096
  let o := a % 4096
  if !mapped a then 0
  else if o < 0x100 then s.headWord p o
  else match findReg a with
    | none => 0
    | some h =>
      let w := match s.shown req p o with
        | some w => w
        | none => s.reg a
      w &&& wordN (fieldBits h.reg.fields (readable priv))

-- 64-bit registers (R43)

/-- Is `a` the low word of a 64-bit register? -/
def low64 (a : Nat) : Bool :=
  let p := a / 4096
  let o := a % 4096
  if p = 0x03 then o == 0x100 || o == 0x108
  else if p = 0x0B then decide (0x144 ≤ o) && decide (o < 0x244) && o % 16 == 4
  else if p = 0x17 then decide (0x200 ≤ o) && decide (o < 0x500) && (o % 64 == 0x20 || o % 64 == 0x2C)
  else if 0x20 ≤ p ∧ p < 0x2C then decide (0x310 ≤ o) && decide (o < 0x398) && o % 8 == 0
  else if 0x30 ≤ p ∧ p < 0x3C then o == 0x13C
  else false

/-- The shadow list with a requester's entry replaced. -/
def putShadow (l : List Shadow) (x : Shadow) : List Shadow := l.filter (fun y => y.req != x.req) ++ [x]

/-- A read of one register word: the low word of a 64-bit register captures both halves, the high word comes from the capture while it is
of that register (R43). -/
def State.read64 (s : State) (req : Req) (priv : Bool) (a : Nat) : State × W32 :=
  if low64 a then
    ({ s with readShadow := putShadow s.readShadow ⟨req, a, s.regView req priv (a + 4)⟩ }, s.regView req priv a)
  else if 4 ≤ a ∧ low64 (a - 4) then
    match s.readShadow.find? fun x => x.req == req && x.addr == a - 4 with
    | some x => (s, x.word)
    | none => (s, s.regView req priv a)
  else (s, s.regView req priv a)

/-- A read of a register word with what it does beside answering: QSTAT and SNAP_SEQ freeze their sets (R161, R194), RSRAM_DATA moves
to the next word (R577). -/
def State.regRead (s : State) (req : Req) (priv : Bool) (a : Nat) : State × W32 :=
  let p := a / 4096
  let o := a % 4096
  let s := if 0x20 ≤ p ∧ p < 0x2C ∧ o = 0x108 then s.freeze req false (p - 0x20) 0x110 0x2FC
    else if 0x20 ≤ p ∧ p < 0x2C ∧ o = 0x400 then s.freeze req true (p - 0x20) 0x404 0x41C
    else s
  let (s, w) := s.read64 req priv a
  (if a = A.BKP_RSRAM_DATA then s.put F.BKP_RSRAM_IDX_IDX (s.get F.BKP_RSRAM_IDX_IDX + 1) else s, w)

/-- One aligned word read at an address, by a requester (R39, R41): an unmapped address reads zero without an error. -/
def State.busRead (s : State) (req : Req) (addr : Nat) : State × W32 :=
  match placeOf addr with
  | .sram o => (if o < 0x40000 then s.took else s, wordN (ofLe (s.memBytes o 4)))
  | .disp o => (s, s.dispRead (s.privOpen && reqPage req == some 0x04) o)
  | .reg a priv => s.regRead req (s.acts req priv) a
  | .none => (s, 0)

end Sys2Proof.Machine
end

