-- ==== Sys2Proof/Machine/SoftReset.lean ====
section
/-! DEFINITION. Soft resets of every block (R46, R548, R549 and the rules R549 names), what refuses them, and the direct commands of
SYS, RST and BKP (19_reset_boot_clocks.md R552, R564, R569, R571). -/
namespace Sys2Proof.Machine

-- Returning registers to their reset values

/-- The header fields that a soft reset clears (R46); SEQ counts it. -/
def State.clearHeader (s : State) (p : Nat) : State :=
  let ro : Bool := match findPage p with
    | some x => x.enable == .ro
    | none => true
  let s := s.setReg (4096 * p + 0x008) (if ro = true then 1 else 0)
  let s := [0x014, 0x018, 0x01C, 0x020, 0x040, 0x044, 0x048, 0x04C, 0x050, 0x054, 0x058, 0x05C].foldl
    (fun s o => s.setReg (4096 * p + o) 0) s
  s.bumpSeq p

/-- The block registers of a page return to their reset values, but for the offsets kept. -/
def State.resetRegs (s : State) (p : Nat) (keep : Nat → Bool) : State :=
  { s with regs := s.regs.filter fun r => !(r.1 / 4096 == p && decide (0x100 ≤ r.1 % 4096) && !keep (r.1 % 4096)) }

/-- STATUS bits of a block cleared. -/
def State.clearStatus (s : State) (p : Nat) : State := s.setReg (4096 * p + 0x00C) 0

-- HLK (R74)

/-- A ring at a soft reset of HLK: host-to-device frames go; unacknowledged device-to-host frames are counted in a lost marker, which is
written at once. -/
def Ring.hlkReset (r : Ring) (h2d : Bool) (now epoch : Nat) : Ring :=
  if h2d then { r with frames := [] }
  else
    let n := r.frames.length + r.lost
    if n = 0 then { r with frames := [], aged := false }
    else
      let r := { r with frames := [], aged := false, lost := min 0xFFFFFFFF n, lostFirst := if r.lost = 0 then now else r.lostFirst, lostLast := now }
      { r.enter (lostFrame r epoch 1) with lost := 0, lostFirst := 0, lostLast := 0 }

/-- A soft reset of HLK: every ring; RING_CFG of the rings empty after it; the link as after a device start. -/
def State.resetHlk (s : State) : State :=
  let s := { s with rings := [] } |> fun t =>
    (List.range 65).foldl (fun t e =>
      let r := (s.ring e).hlkReset (s.h2d e) s.ts s.epoch
      let t := t.setRing e r
      if !s.h2d e ∧ r.frames ≠ [] then t.irq 0x04 3 else t) t
  let s := (List.range 65).foldl (fun s e =>
    if (s.ring e).frames = [] then s.setReg (A.HLKR_RING_CFG e) (resetWord (A.HLKR_RING_CFG e)) else s) s
  (s.put F.HLK_LINK_VER 0).put F.HLK_LINK_TENON_DONE 0

-- Blocks whose soft reset acts beyond their page

/-- A soft reset of MTR[k] (R183): metering stops, the slot's epoch counts, and what it held unaccepted is recorded as an interruption. -/
def State.softMtrk (s : State) (k : Nat) : State :=
  let was := s.enabled (0x20 + k)
  let s := if was then (s.meterStop k).sesStop k 0x07 else s
  let s := (s.inc (laneEpochF k)).setSlot k { stopped := (s.slot k).stopped }
  let s := s.log 0x0003 k (le 4 2 ++ le 4 (s.get F.DEC_CYCLE_CNT))
  s.resetRegs (0x20 + k) fun o => decide (0x300 ≤ o)

/-- A soft reset of BAY[k] (R313). -/
def State.softBay (s : State) (k : Nat) : State :=
  let old := s.bay k
  let s := ((s.resetOutlet k).testAbandon k).resetRegs (0x30 + k) fun o => o == 0x134
  ((s.inc (F.BAYK_OEPOCH k)).put (hdrEnable (0x30 + k)) 0).sesBay k old

/-- A soft reset of DEC (R140): the channels stop, the tracker is disabled, and the table returns to its reset values. -/
def State.softDec (s : State) : State := ((s.put (hdrEnable 0x11) 0).resetDec.resetRegs 0x11 fun _ => false).clearStatus 0x11

/-- A soft reset of AFE (R113): AFE keeps MOD_FAIL, SPARE_FAIL, SPARE_MAP and what its monitors show. -/
def State.softAfe (s : State) : State :=
  ((s.put (hdrEnable 0x10) 0).resetRegs 0x10 fun o => decide (0x11C ≤ o) && decide (o < 0x134)).resetAfe

/-- Registers that a soft reset of SES keeps with the cache, the tariff banks and the last sessions (R359). -/
def sesKeeps (o : Nat) : Bool :=
  o == 0x128 || o == 0x148 || o == 0x14C || o == 0x150 || o == 0x154 || decide (0x200 ≤ o)

/-- A soft reset of SEA (R525). -/
def State.softSea (s : State) : State :=
  let s := s.resetSea
  let s := if s.sea = seChallenged then s.setSea seClosed else s
  (s.put F.SEA_STAT_REPLAYING 0).showBusy

/-- What the soft reset of page p does beyond the header fields of R46 (R549). -/
def State.softReset (s : State) (p : Nat) : State :=
  if p = 0x04 ∨ p = 0x05 then s.resetHlk
  else if p = 0x06 then s.resetDma.resetRegs p fun _ => false
  else if p = 0x08 then s.resetRegs p fun o => o != 0x10C && o != 0x104
  else if p = 0x09 then ((s.put F.NVL_SPARE_CORRUPT 0).put F.NVL_SCRUB_STAT_REFRESHED 0).put F.NVL_SIG_STAT_OVERWRITES 0
  else if p = 0x0A then s.softSea
  else if p = 0x0B then s.resetRegs p fun o => decide (0x12C ≤ o)
  else if p = 0x10 then s.softAfe
  else if p = 0x11 then s.softDec
  else if p = 0x12 then (s.resetMtr.resetRegs p fun o => o != 0x100 && o != 0x124)
  else if p = 0x13 then (s.put (hdrEnable p) 0).resetCal
  else if p = 0x14 then (s.resetPqe.resetRegs p fun _ => false)
  else if p = 0x15 then (s.resetRegs p fun _ => false).resetPls
  else if p = 0x16 then
    (((List.range 12).foldl (fun s k => (s.softBay k).clearHeader (0x30 + k)) s).resetRegs p fun _ => false).showHolds
  else if p = 0x17 then (s.resetRcm.resetRegs p fun o => o == 0x108).showHolds
  else if p = 0x18 then s.resetRegs p fun _ => false
  else if p = 0x19 then (s.resetSes.resetRegs p sesKeeps).put F.SES_TARIFF_STAT_PENDING 0
  else if p = 0x1A then (s.resetRegs p fun _ => false).resetLmg
  else if p = 0x1C then (s.resetPlc.resetRegs p fun _ => false).clearStatus p
  else if p = 0x1D then (s.resetMsh.resetRegs p fun _ => false)
  else if p = 0x1E then s.resetEpd
  else if 0x20 ≤ p ∧ p < 0x2C then s.softMtrk (p - 0x20)
  else if 0x30 ≤ p ∧ p < 0x3C then (s.softBay (p - 0x30)).showHolds
  else s

/-- Is any BAY[k] enabled? -/
def State.anyBay (s : State) : Bool := (List.range 12).any fun k => s.enabled (0x30 + k)

/-- Is any outlet that LMG serves enabled (R378)? -/
def State.lmgServes (s : State) : Bool := (List.range 12).any fun k => s.enabled (0x30 + k) && s.on (F.BAYK_CFG_LMG_IL k)

/-- What refuses a soft reset (R549). -/
def State.softRefuse (s : State) (priv : Bool) (p : Nat) : Option Nat :=
  firstErr [
    (p == 0x0B && !priv, 0x03),
    (((p == 0x17 || p == 0x18) && s.anyBay) || (p == 0x19 && s.get F.SES_ACTIVE_MASK_OUT != 0)
      || (p == 0x1A && (s.lmgServes || s.parts != [])) || (p == 0x1D && !s.incFree) || (p == 0x1E && s.epdBusy), 0x1E),
    (p == 0x09 && (s.flashBusy || s.on F.NVL_CFG_STAT_BUSY), 0x97)]

/-- A write that sets SRST (R46): the reset starts and SRST reads 1 until it completes. -/
def State.startReset (s : State) (req : Req) (priv : Bool) (p : Nat) : State × Option Nat :=
  match s.softRefuse priv p with
  | some c => (if c = 0x03 then s.bothErr req p c else s.err p c, some c)
  | none =>
    let q := ctrlPage p
    ((((s.softReset q).clearHeader q).put (hdrSrst q) 1), none)

-- Commands of SYS, RST and BKP. Each answers the refusing code, not yet recorded.

/-- BENCH_RELEASE (R564): accepted in bench mode and in FAILED. -/
def State.benchRelease (s : State) : State × Option Nat :=
  if s.boot.bench || s.get F.SYS_BOOT_STAT_STAGE == 8 then
    ((s.writeCnt { s.startCnt with release := true } true).put F.SYS_BENCH_RELEASE_RELEASE 1, none)
  else (s, some 0x1E)

/-- The pages whose CTRL.ENABLE is of access RW. -/
def enablePages : List Nat := pages.flatMap fun x => if x.enable == .ro then [] else (List.range x.n).map (x.page + ·)

/-- STANDBY (R569). -/
def State.standby (s : State) : State × Option Nat :=
  let busy := enablePages.any (fun p => s.enabled p) || s.get F.DMA_ACTIVE_CH != 0 || s.flashBusy || (s.ring 46).frames != []
    || s.on F.SEA_STAT_BUSY
  if busy then (s, some 0xC2) else (s.put F.RST_PWR_STAT_STATE 2, none)

/-- TIME_SET (R571): TS takes TIME_NEW. -/
def State.timeSet (s : State) (priv : Bool) : State × Option Nat :=
  let set := s.on F.BKP_STATUS_TIME_SET
  match firstErr [(set && !priv, 0x03), (set && s.get F.SES_ACTIVE_MASK_OUT != 0, 0x1E)] with
  | some c => (s, some c)
  | none =>
    ((({ s with ts := s.reg64 A.BKP_TIME_NEW_LO }).put F.BKP_STATUS_TIME_SET 1).put F.BKP_STICKY_TIME_STEP 1, none)

/-- An entry's parity (R550). -/
def evenOnes (v : Nat) : Bool := ([0, 1, 2, 3].filter fun i => v.testBit i).length % 2 == 0

/-- FUSE_CMD.PROG starts programming the entry of FUSE_IDX (R552). -/
def State.fuseStart (s : State) (priv : Bool) : State × Option Nat :=
  let b := s.get F.RST_FUSE_IDX_BALL
  let v := spRead (fun _ => 0) s.boot.fuse b ||| s.get F.RST_FUSE_DATA_NEW
  match firstErr [(!priv, 0x03), (!evenOnes v || decide (401 < b) || s.boot.fuseJob.isSome, 0x1E), (s.boot.fuseLock, 0xC1)] with
  | some c => (s, some c)
  | none => ({ s with boot := { s.boot with fuseJob := some (b, v) } }, none)

/-- The programming ends; an entry that does not verify is reported (R552). -/
def State.fuseEnd (s : State) (verified : Bool) : State × Option Nat :=
  match s.boot.fuseJob with
  | none => (s, none)
  | some (b, v) =>
    if verified then ({ s with boot := { s.boot with fuse := spWrite (fun _ => 0) s.boot.fuse b v, fuseJob := none } }, none)
    else
      let w := Nat.land v (s.free % 16) ||| spRead (fun _ => 0) s.boot.fuse b
      ({ s.took with boot := { s.boot with fuse := spWrite (fun _ => 0) s.boot.fuse b w, fuseJob := none } }, some 0xC0)

/-- FUSE_LOCK (R552). -/
def State.fuseLockSet (s : State) (priv : Bool) : State × Option Nat :=
  match firstErr [(!priv, 0x03), (s.boot.fuseLock, 0xC1)] with
  | some c => (s, some c)
  | none => ({ s with boot := { s.boot with fuseLock := true } }, none)

end Sys2Proof.Machine
end

