-- ==== Sys2Proof/Machine/Regs.lean ====
section
/-! DEFINITION. Register writes: the header, the conditions each block puts on its registers, what a write does beside storing its bits,
and words of the four regions (R39 to R54, and the rules of the block chapters named below). -/
namespace Sys2Proof.Machine

-- Outcomes of a shared operation

/-- An operation that answers a code: the page records it. -/
def coded (p : Nat) (r : State × Option Nat) : State × Option Nat :=
  match r with
  | (s, some c) => (s.err p c, some c)
  | (s, none) => (s, none)

/-- An operation that records its own refusal: the code is read back from the page. -/
def State.judged (s : State) (p : Nat) (f : State → State) : State × Option Nat :=
  let n := s.get (hdrErrcount p)
  let t := f (s.put (hdrErrcount p) 0)
  let m := t.get (hdrErrcount p)
  (t.put (hdrErrcount p) (min 0xFFFFFFFF (n + m)), if m = 0 then none else some (t.get (hdrErrcode p)))

/-- Operations one after another; the first refusal ends them. -/
def chain (r : State × Option Nat) (f : State → State × Option Nat) : State × Option Nat :=
  match r with
  | (s, some c) => (s, some c)
  | (s, none) => f s

/-- An operation made only when a bit of the write asks for it. -/
def onBit (b : Bool) (f : State → State × Option Nat) (s : State) : State × Option Nat := if b then f s else (s, none)

-- CTRL.ENABLE (R45 and the block chapters)

/-- Setting or clearing a block's enable. -/
def State.enableBlock (s : State) (p : Nat) (en : Bool) : State × Option Nat :=
  let set (s : State) : State := s.put (hdrEnable p) en.toNat
  let no (b : Bool) (f : State → State) : State × Option Nat := if b then (s.err p 0x1E, some 0x1E) else (f s, none)
  if 0x20 ≤ p ∧ p < 0x2C then s.mtrkEnable (p - 0x20) en
  else if 0x30 ≤ p ∧ p < 0x3C then s.bayEnable (p - 0x30) en
  else if p = 0x06 then coded p (s.dmaEnable en)
  else if p = 0x1C then (s.plcEnable en, none)
  else if p = 0x1D then coded p (s.mshEnable en)
  else if p = 0x1E then coded p (s.epdEnable en)
  else if en = s.enabled p then (s, none)
  else if p = 0x10 then ((set s).syncChannels, none)
  else if p = 0x11 then (if en then (set s).decStart else (set s).decStop, none)
  else if p = 0x12 then (if en then (set s).mtrStart else set s, none)
  else if p = 0x14 then (if en then (set s).pqCounts (s.get F.PQE_CFG_FEEDER_EN) else set s, none)
  else if p = 0x15 then ((List.range 16).foldl (fun s n => s.stagePin n (s.on (F.PLS_STG_STAT_ACTIVE n))) (set s), none)
  else if p = 0x16 then no (!en && s.anyBay) fun s => if en then (set s).setReg A.BAY_FRAME_CNT 0 else set s
  else if p = 0x17 then no (!en && s.anyBay) fun s =>
    (List.range 12).foldl (fun s k => if (s.get F.RCM_OUT_EN_EN).testBit k then s.rcmRestart k else s) (set s)
  else if p = 0x18 then no (!en && s.anyBay) set
  else if p = 0x1A then
    no ((en && [0, 1, 2].any fun i => s.get (F.LMG_POST_LIM_MA i) == 0) || (!en && s.lmgServes)) fun s => if en then (set s).lmgStart else set s
  else (set s, none)

-- The header (R45 to R48)

/-- IRQ_PEND bits cleared by ones; bits that hardware sets in the same cycle stay set and are counted (R47). -/
def State.clearPend (s : State) (p mask hw : Nat) : State :=
  let a := 4096 * p + 0x018
  let s := s.setReg a (s.reg a &&& ~~~(wordN mask))
  (List.range 32).foldl (fun s b => if hw.testBit b then s.irq p b else s) s

/-- ERRCODE cleared by 0xFFFF (R45). -/
def State.clearErrcode (s : State) (p : Nat) (v : W32) : State := if v.toNat % 65536 = 0xFFFF then s.put (hdrErrcode p) 0 else s

/-- EVCNT bytes written 0x00 are cleared (R48). -/
def State.writeEvcnt (s : State) (p m : Nat) (v : W32) : State :=
  [0, 1, 2, 3].foldl (fun s i => if getBits v (8 * i) 8 = 0 then s.put (hdrEvcnt p (4 * m + i)) 0 else s) s

/-- A write of CTRL: a soft reset and nothing else, or the enable and SLEEP_OK (R46). -/
def State.writeCtrl (s : State) (req : Req) (priv : Bool) (p : Nat) (v : W32) : State × Option Nat :=
  let q := ctrlPage p
  let ro : Bool := match findPage q with
    | some x => x.enable == .ro
    | none => true
  if v.toNat.testBit 1 then s.startReset req priv q
  else
    chain (if ro then (s, none) else s.enableBlock q (v.toNat.testBit 0)) fun s =>
      ((s.put ⟨4096 * q + 0x008, 2, 1⟩ (getBits v 2 1)).bumpSeq q, none)

/-- A write to the header. -/
def State.writeHead (s : State) (req : Req) (priv : Bool) (p o : Nat) (v : W32) : State × Option Nat :=
  if o = 0x008 then s.writeCtrl req priv p v
  else if p = 0x05 ∧ (o = 0x014 ∨ o = 0x018) then (s, none)
  else if o = 0x014 then ((s.setReg (4096 * p + 0x014) v).bumpSeq p, none)
  else if o = 0x018 then (s.clearPend p v.toNat 0, none)
  else if o = 0x01C then (s.clearErrcode p v, none)
  else if 0x040 ≤ o then (s.writeEvcnt p ((o - 0x040) / 4) v, none)
  else (s, none)

-- Conditions on block registers

/-- The registers of a page that may be written only at certain times, and whether now is not one (R95, R139, R182, R189, R216, R258,
R266, R271, R311, R313, R335, R359, R378, R406, R438, R462, R491). -/
def State.lockedNow (s : State) (p o i : Nat) : Bool :=
  if p = 0x09 then (o == 0x100 || o == 0x140) && s.cmdRunning
  else if p = 0x10 then o == 0x200 && s.chEn i
  else if p = 0x11 then o == 0x200 && s.chEn i
  else if p = 0x14 then
    ((o == 0x104 || o == 0x108) && s.get F.PQE_CFG_FEEDER_EN != 0)
      || ((o == 0x140 || o == 0x144) && (s.get F.PQE_CFG_FEEDER_EN).testBit i)
      || ((o == 0x10C || o == 0x110 || o == 0x114) && s.on F.PQE_CAP_CTRL_ARM)
  else if p = 0x16 then s.anyBay
  else if p = 0x17 then
    ((o == 0x100 || o == 0x120 || o == 0x124) && s.anyBay) || (decide (0x200 ≤ o) && s.enabled (0x30 + i))
  else if p = 0x19 then (o == 0x100 || o == 0x104 || o == 0x108 || o == 0x160) && s.get F.SES_ACTIVE_MASK_OUT != 0
  else if p = 0x1A then
    ((decide (o < 0x140) || o == 0x200) && s.parts != []) || (o == 0x160 && s.on F.LMG_SITE_STAT_VALID)
  else if p = 0x1C then (o == 0x100 || o == 0x108 || o == 0x10C) && s.enabled p
  else if p = 0x1D then (decide (o < 0x114) || o == 0x140) && s.enabled p
  else if p = 0x1E then (o == 0x100 || o == 0x104 || o == 0x10C || o == 0x118) && s.enabled p
  else if 0x20 ≤ p ∧ p < 0x2C then (o == 0x100 || o == 0x104 || o == 0x300 || o == 0x304) && s.enabled p
  else if 0x30 ≤ p ∧ p < 0x3C then (o == 0x100 || o == 0x104 || o == 0x148) && s.enabled p
  else false

/-- FB_LEAD must cover the overcurrent grace and a round (R374). -/
def leadOk (fb grace round : Nat) : Bool := decide (grace + round ≤ fb * 1000)

/-- The BAY thresholds in order, each gap at least twice the hysteresis (R311); words TH_HI, TH_MID, TH_LO. -/
def thresholdsOk (a b c : W32) : Bool :=
  let t := [signedOf 16 (getBits a 0 16), signedOf 16 (getBits a 16 16), signedOf 16 (getBits b 0 16), signedOf 16 (getBits b 16 16),
    signedOf 16 (getBits c 0 16)]
  let h : Int := 2 * getBits c 16 16
  (t.zip t.tail).all fun x => decide (x.2 < x.1) && decide (h ≤ x.1 - x.2)

/-- A capture setting (R266): at least a cycle before and after, the history long enough, the slots of every ring used 2,048 bytes or more. -/
def State.captureOk (s : State) (cfg : W32) : Bool :=
  let nch := 2 ^ getBits cfg 0 2
  decide (1 ≤ getBits cfg 4 8) && decide (1 ≤ getBits cfg 16 8) && decide ((getBits cfg 4 8 + getBits cfg 16 8) * nch ≤ 128)
    && (List.range (min 4 nch)).all fun i => decide (2048 ≤ s.slotSize (40 + i))

/-- Is a value refused with 0x001E although each field lies in its range? `v` is the whole register as it would read. -/
def State.settingBad (s : State) (p o i : Nat) (v : W32) : Bool :=
  let b (lsb wid : Nat) : Nat := getBits v lsb wid
  if p = 0x0B then
    o == 0x124 && !(decide (signedOf 8 (b 0 8) < signedOf 8 (b 8 8)) || decide (b 0 8 < b 8 8))
  else if p = 0x11 then
    (o == 0x104 && !(v.toNat.testBit 7 || v.toNat.testBit 15 || v.toNat.testBit 23 || v.toNat.testBit 31))
      || (o == 0x200 && v.toNat.testBit 0 && decide (i < 48) && i % 4 == 3)
  else if p = 0x13 then (o == 0x104 || o == 0x108) && decide (b 0 16 < b 16 16)
  else if p = 0x14 then
    if o = 0x104 ∨ o = 0x108 then
      let w1 := if o = 0x104 then v else s.reg A.PQE_TH_SAG_SWELL
      let w2 := if o = 0x108 then v else s.reg A.PQE_TH_INTR_HYST
      let sag := getBits w1 0 16
      let swell := getBits w1 16 16
      let intr := getBits w2 0 16
      let hyst := getBits w2 16 16
      !(decide (intr + hyst ≤ sag) && decide (sag + hyst ≤ 1000) && decide (1000 + hyst ≤ swell))
    else if o = 0x100 then
      [0, 1, 2, 3].any fun f => v.toNat.testBit f && !(s.get F.PQE_CFG_FEEDER_EN).testBit f && s.get (F.PQE_FEEDER_UDIN_MV f) == 0
    else o == 0x10C && !s.captureOk v
  else if p = 0x16 then
    ((o == 0x100 || o == 0x104 || o == 0x108) &&
      !thresholdsOk (if o = 0x100 then v else s.reg A.BAY_TH_HI) (if o = 0x104 then v else s.reg A.BAY_TH_MID)
        (if o = 0x108 then v else s.reg A.BAY_TH_LO))
    || (o == 0x114 && !leadOk (s.get F.LMG_TIMING_FB_LEAD_S) (b 16 16) (s.get F.LMG_TIMING_ROUND_MS))
  else if p = 0x17 then
    if o = 0x100 then
      (List.range 8).any fun r => s.rowEn r && decide (rowHold (s.get (F.RCM_ROW_B_TIME r)) (b 0 8) (s.on (F.RCM_ROW_A_KIND r)) < 0)
    else if o = 0x104 then
      (List.range 12).any fun k =>
        let d := v.toNat.testBit k != (s.get F.RCM_OUT_EN_EN).testBit k
        d && (s.enabled (0x30 + k) || (v.toNat.testBit k && s.get (F.RCM_FS_UA_UA k) == 0))
    else if o = 0x120 then
      v.toNat.testBit 31 && decide (rowHold (s.get (F.RCM_ROW_B_TIME i)) (s.get F.RCM_CFG_OPEN_T) (v.toNat.testBit 28) < 0)
    else if o = 0x124 then
      s.rowEn i && decide (rowHold (b 0 16) (s.get F.RCM_CFG_OPEN_T) (s.on (F.RCM_ROW_A_KIND i)) < 0)
    else decide (0x200 ≤ o) && (o - 0x200) % 64 == 0xC && !decide (b 0 12 < b 16 12)
  else if p = 0x1A then
    if o = 0x100 then b 0 2 == 1 && s.lmgRole != 1 && !(s.setReg A.LMG_CFG v).safeOk
    else o == 0x104 && (!leadOk (b 24 8) (s.get F.BAY_OC_TIME_OC_GRACE) (b 0 14) || decide (b 16 8 < 2 * b 24 8))
  else if p = 0x1C then
    (o == 0x114 || o == 0x118) && (
      let a := if o = 0x114 then v else s.reg A.PLC_SNR_TH0
      let c := if o = 0x118 then v else s.reg A.PLC_SNR_TH1
      let t := [signedOf 8 (getBits a 0 8), signedOf 8 (getBits a 8 8), signedOf 8 (getBits a 16 8), signedOf 8 (getBits a 24 8), signedOf 8 (getBits c 0 8)]
      !((t.zip t.tail).all fun x => decide (x.2 < x.1)))
  else if p = 0x1D then
    (o == 0x108 && decide (b 8 8 < 3 * b 0 8)) || (o == 0x10C && decide (b 8 4 < b 4 4)) || (o == 0x138 && v.toNat.testBit 29)
  else if p = 0x1E then
    (o == 0x100 && (b 0 12 % 4 != 0 || decide (1024000 < b 0 12 * b 16 12)))
      || (o == 0x180 && b 0 12 % 4 != 0) || (o == 0x184 && (b 0 12 % 4 != 0 || decide (32768 < b 0 12 * b 16 12)))
  else if 0x20 ≤ p ∧ p < 0x2C then o == 0x100 && v.toNat.testBit 8 && !v.toNat.testBit 0
  else false

/-- Registers written only in jig mode (R224, R406): CAL's configuration and the deckle layout. -/
def jigOnly (p o : Nat) : Bool :=
  (p == 0x13 && (o == 0x100 || o == 0x104 || o == 0x108))
    || (p == 0x1E && ((decide (0x180 ≤ o) && decide (o < 0x18C)) || (decide (0x1C0 ≤ o) && decide (o < 0x1F0))))

/-- Do the written fields lie in their ranges? -/
def inRange (fs : List FieldSpec) (v : W32) : Bool :=
  fs.all fun f => f.acc == .ro || f.acc == .ros || f.ok.holds (f.hi - f.lo + 1) (getBits v f.lo (f.hi - f.lo + 1))

/-- The register after a plain write: RW fields take their value, W1C fields clear, the rest stay (R15). -/
def mergeWord (fs : List FieldSpec) (old v : W32) : W32 :=
  let rw := wordN (fieldBits fs fun f => f.acc == .rw || f.acc == .rws || f.acc == .wo)
  let cl := wordN (fieldBits fs fun f => f.acc == .w1c)
  ((old &&& ~~~rw) ||| (v &&& rw)) &&& ~~~(v &&& cl)

-- What particular registers do

/-- The windows of the rings in system SRAM, in bytes; each half of ring 35 has half of one (R72). -/
def ringWindow (e : Nat) : Nat :=
  if e = 35 ∨ e = 64 then 1024 else if 36 ≤ e ∧ e ≤ 39 then 4096 else if 40 ≤ e ∧ e ≤ 43 then 32768 else 2048

/-- RING_CFG (R73). -/
def State.writeRingCfg (s : State) (e : Nat) (v : W32) : State × Option Nat :=
  let code := getBits v 0 3
  let size := 64 * 2 ^ code * (2 * 2 ^ getBits v 4 3)
  match (if code = 7 then some 0x1E else firstErr [(decide (ringWindow e < size), 0x1C), ((s.ring e).frames != [], 0x1D)]) with
  | some c => (s.err 0x05 c, some c)
  | none =>
    let a := A.HLKR_RING_CFG e
    let s := s.setReg a (putBits (putBits (s.reg a) 0 3 code) 4 3 (getBits v 4 3))
    (if 52 ≤ e ∧ e ≤ 63 then s.setReg a (putBits (s.reg a) 8 1 (getBits v 8 1)) else s, none)

/-- JIG_CMD (R232, R233): the operation of OP. -/
def State.writeJig (s : State) (v : W32) : State × Option Nat :=
  let op := getBits v 0 4
  let ch := getBits v 4 6
  let ref := getBits v 10 6
  let n := getBits v 17 15
  s.judged 0x13 fun s =>
    let t := s.setReg A.CAL_JIG_CMD v
    let r := if op = 1 ∨ op = 3 ∨ op = 4 then t.jigStart op ch ref n false
      else if op = 2 then t.jigStart op ch 0 n (v.toNat.testBit 16)
      else if op = 5 then t.jigFill ch
      else if op = 6 then t.jigCommit
      else if op = 7 then t.jigDiscard
      else s.err 0x13 0x1E
    if r.get (hdrErrcount 0x13) = 0 then r else s.err 0x13 (r.get (hdrErrcode 0x13))

/-- SESS_CMD (R494 to R499): every refusal is recorded by the command. -/
def State.writeSess (s : State) (v : W32) : State × Option Nat :=
  let op := getBits v 0 3
  let slot := getBits v 4 2
  let role := getBits v 8 2
  if op = 1 then s.seaChallenge slot role
  else if op = 2 then s.seaVerify slot role
  else if op = 3 then (s.closeSession, none)
  else if op = 4 then s.seaJigEnter
  else if op = 5 then s.seaJigLeave
  else (s.err 0x0A 0x1E, some 0x1E)

/-- AC_CMD (R339). -/
def State.writeCache (s : State) (v : W32) : State × Option Nat :=
  let op := getBits v 0 3
  if op = 0 ∨ 4 < op ∨ s.on F.SES_AC_STAT_BUSY then (s.err 0x19 0x1E, some 0x1E)
  else s.judged 0x19 fun s => if op = 1 then s.acInsert else if op = 2 then s.acDelete else if op = 3 then s.acLookup else s.acClear

/-- STG[n].CFG and CONST (R216): SRC, OUTLET_MASK and CONST stay while the stage is enabled. -/
def State.writeStage (s : State) (n : Nat) (isConst : Bool) (v : W32) : State × Option Nat :=
  let a := if isConst then A.PLS_STG_CONST n else A.PLS_STG_CFG n
  let old := s.reg a
  let v := if isConst then v &&& 0xFFFFF else if n < 12 then v &&& 0x7F1F else v &&& 0x0FFF7F1F
  let fixed : W32 := if isConst then 0xFFFFF else 0x0FFF000E
  if s.on (F.PLS_STG_CFG_EN n) ∧ (old ^^^ v) &&& fixed ≠ 0 then ((s.err 0x15 0x1E).event 0x15 1 n, some 0x1E)
  else
    let was := s.on (F.PLS_STG_CFG_EN n)
    let s := s.setReg a v
    if isConst then (s, none)
    else if v.toNat.testBit 0 && !was then (s.stageStart n, none)
    else (s.stagePin n (s.on (F.PLS_STG_STAT_ACTIVE n)), none)

/-- POLL_CTRL (R454): ENTRIES only while RUN is 0; RUN starts or ends the cycle. -/
def State.writePoll (s : State) (v : W32) : State × Option Nat :=
  let run := v.toNat.testBit 16
  let now := s.on F.MSH_POLL_CTRL_RUN
  if now ∧ getBits v 0 11 ≠ s.entries then (s.err 0x1D 0x1E, some 0x1E)
  else
    let t := s.setEntries (getBits v 0 11)
    if run then
      match t.pollRun with
      | (_, some c) => (s.err 0x1D c, some c)
      | (t, none) => (t, none)
    else (t.put F.MSH_POLL_CTRL_RUN 0, none)

/-- Every row's HOLD (R324). -/
def State.showRowHold (s : State) : State :=
  (List.range 8).foldl (fun s r =>
    s.put (F.RCM_ROW_B_HOLD r) (max 0 (rowHold (s.get (F.RCM_ROW_B_TIME r)) (s.get F.RCM_CFG_OPEN_T) (s.on (F.RCM_ROW_A_KIND r)))).toNat) s

/-- What the start sequence restores and STORE captures (R556): register addresses block by block. -/
def cfgRegs : List Nat :=
  [0x10008] ++ (List.range 64).map A.AFE_CH_CFG ++ [A.AFE_TEST_CFG, A.AFE_INJ_CFG, A.AFE_BSI_CFG_LO, A.AFE_BSI_CFG_HI, A.AFE_MCLK_CFG,
      A.AFE_CH_EN_LO, A.AFE_CH_EN_HI]
    ++ [0x11008, A.DEC_TRACK_CFG, A.DEC_TRACK_REF] ++ (List.range 64).map A.DEC_CH_CFG
    ++ [0x12008, A.MTR_CFG] ++ (List.range 12).flatMap (fun k => [0x20008 + 4096 * k, A.MTRK_CFG k, A.MTRK_CABLE_R k])
    ++ [0x13008]
    ++ [0x14008, A.PQE_CFG, A.PQE_TH_SAG_SWELL, A.PQE_TH_INTR_HYST] ++ (List.range 4).flatMap (fun f => [A.PQE_FEEDER_UDIN f, A.PQE_FEEDER_CFG f])
    ++ [0x15008] ++ (List.range 16).flatMap (fun n => [A.PLS_STG_CFG n, A.PLS_STG_CONST n])
    ++ [0x08008, A.NVF_CFG] ++ [0x09008, A.NVL_CFG, A.NVL_PROTECT] ++ (List.range 8).map A.NVL_STREAM_CFG
    ++ [0x1E008, A.EPD_PANEL, A.EPD_BUS, A.EPD_PWR_DLY, A.EPD_TEMP_CFG, A.EPD_RES_LIM]

/-- The captured image: unprivileged addresses with the words as they stand. -/
def State.cfgImage (s : State) : List (Nat × W32) := cfgRegs.map fun a => (0x40000000 + a, s.regView .boot true a)

/-- A refusal as seal-owned state is also the requester's (R53); other codes are the target's alone. -/
def sealed (req : Req) (r : State × Option Nat) : State × Option Nat :=
  match r with
  | (s, some c) => (if c = 0x03 then s.reqErr req c else s, some c)
  | (s, none) => (s, none)

/-- The registers whose write does more than store bits, once the checks have passed; none for a plain register. -/
def State.writeSpecial (s : State) (req : Req) (pr : Bool) (p o i : Nat) (v : W32) : Option (State × Option Nat) :=
  let b (k : Nat) : Bool := v.toNat.testBit k
  if p = 0x00 then (if o = 0x10C then some (onBit (b 0) (fun s => coded p s.benchRelease) s) else none)
  else if p = 0x01 then
    if o = 0x104 then some (onBit (b 0) (fun s => coded p s.standby) s)
    else if o = 0x114 then
      let go (f : State → Bool → State × Option Nat) (s : State) : State × Option Nat :=
        sealed req (coded p (f s pr))
      some (chain (onBit (b 0) (go State.fuseStart) s) (onBit (b 1) (go State.fuseLockSet)))
    else none
  else if p = 0x03 then
    if o = 0x110 then
      some (onBit (b 0) (fun s => sealed req (coded p (s.timeSet pr))) s)
    else if o = 0x120 then
      let j := s.get F.BKP_RSRAM_IDX_IDX
      some (({ s with boot := { s.boot with rsram := spWrite (fun _ => (0 : W32)) s.boot.rsram j v } }).put F.BKP_RSRAM_IDX_IDX (j + 1), none)
    else none
  else if p = 0x05 then (if o % 16 = 0 then some (s.writeRingCfg i v) else none)
  else if p = 0x06 then
    if o = 0x100 then some (onBit (b 0) (fun s => (s.haltClear, none)) s)
    else if decide (0x200 ≤ o) && decide (o < 0x600) then
      if s.dmaState i = dmaIdle then none else some (s.err p 0xB3, some 0xB3)
    else if 0x600 ≤ o then
      let c := o % 32
      if c = 0 then
        some (chain (chain (chain (onBit (b 0) (fun s => coded p (s.dmaStart i false)) s) (onBit (b 1) fun s => coded p (s.dmaStart i true)))
          (onBit (b 2) fun s => coded p (s.dmaResume i))) (onBit (b 3) fun s => (s.dmaAbort i, none)))
      else if c = 0xC ∨ c = 0x10 then some (coded p (s.posWrite i (c == 0x10) v))
      else none
    else none
  else if p = 0x08 then (if o = 0x100 then some (sealed req (s.judged p fun s => s.writeProtect pr false (getBits v 0 2))) else none)
  else if p = 0x09 then
    if o = 0x104 then some (sealed req (s.judged p fun s => s.writeProtect pr true (getBits v 0 2)))
    else if o = 0x108 then
      let s := (s.put F.NVL_HOLDUP_CFG_DECL_MS (getBits v 0 16)).checkStep
      some (if b 16 then s.measClr else s, none)
    else if o = 0x110 then some (s.judged p fun s => s.writeSigArch v.toNat)
    else if o = 0x124 then some (onBit (b 0) (fun s => s.judged p fun s => s.storeCfg s.cfgImage) s)
    else if o = 0x140 ∧ i = 0 then some (s, none)
    else none
  else if p = 0x0A then
    if o = 0x104 then some (s.writeSess v)
    else if o = 0x1C4 then some (s.keyCmd (getBits v 0 3) (getBits v 4 2) (getBits v 8 2))
    else if o = 0x244 then some (s.logReplay v.toNat, none)
    else if o = 0x248 then some (s.totalsReq v.toNat, none)
    else none
  else if p = 0x0B then (if o = 0x12C then some (s.stickyClear v.toNat, none) else none)
  else if p = 0x10 then (if o = 0x100 ∨ o = 0x104 then some (s.judged p fun s => s.writeChEn (o == 0x104) v) else none)
  else if p = 0x13 then
    if o = 0x118 then some (s.writeJig v)
    else if o = 0x144 then some (s.judged p fun s => s.writeShim pr v)
    else none
  else if p = 0x14 then
    if o = 0x118 then
      let s := s.capArm (b 0)
      let s := if b 1 then s.capForce else s
      some (if b 2 then s.capAbort else s, none)
    else none
  else if p = 0x15 then (if o % 16 = 0 then some (s.writeStage i false v) else if o % 16 = 4 then some (s.writeStage i true v) else none)
  else if p = 0x17 then
    if o = 0x110 then some (onBit (b 8) (fun s => s.judged p fun s => s.stCommand (getBits v 0 4)) s) else none
  else if p = 0x19 then
    if o = 0x120 then some (s.writeCache v)
    else if o = 0x140 then some ((s.setReg A.SES_TARIFF_W3 v).tariffStore, none)
    else if o = 0x144 then
      some (chain (onBit (b 0) (fun s => s.judged p State.tariffActivate) s) (onBit (b 1) fun s => (s.tariffCopy, none)))
    else none
  else if p = 0x1A then
    if o = 0x170 then
      let s := s.put F.LMG_SITE_CFG_POSTS (getBits v 0 11)
      some (chain (onBit (b 16) (fun s => s.judged p State.siteActivate) s) (onBit (b 17) State.siteRelease))
    else none
  else if p = 0x1D then (if o = 0x114 then some (s.writePoll v) else none)
  else if p = 0x1E then
    if o = 0x110 then some (s.tempHost (getBits v 0 16), none)
    else if o = 0x18C then some (onBit (b 0) (fun s => coded p s.deckleCommit) s)
    else none
  else if 0x30 ≤ p ∧ p < 0x3C then (if o = 0x10C then some (s.lmgLimit (p - 0x30) v) else none)
  else none

/-- What follows the storing of a plain register; `old` is what it held. -/
def State.afterWrite (s : State) (p o i : Nat) (old : W32) : State :=
  let now := s.reg (4096 * p + o)
  if p = 0x14 ∧ o = 0x100 then s.pqCounts (now &&& ~~~old).toNat
  else if p = 0x17 ∧ o = 0x104 then
    (List.range 12).foldl (fun s k => if (now ^^^ old).toNat.testBit k then s.rcmRestart k else s) s
  else if p = 0x17 ∧ (o = 0x100 ∨ (0x120 ≤ o ∧ o < 0x160)) then s.showRowHold
  else if p = 0x1A ∧ o = 0x100 then s.lmgRoleWrite (getBits old 0 2)
  else if p = 0x1E ∧ o = 0x10C then s.showPanelTemp
  else if 0x20 ≤ p ∧ p < 0x2C ∧ o = 0x300 ∧ now ≠ old then
    s.log 0x0012 (p - 0x20) [BitVec.ofNat 8 (getBits old 0 1), BitVec.ofNat 8 (getBits now 0 1)]
  else if p = 0x0B ∧ i = 0 ∧ o = 0x120 then s
  else s

-- A block register written

/-- The outcome of a write: the state, the code that refuses it, and whether a field took effect (R58). -/
abbrev Wrote := State × Option Nat × Bool

/-- A write to a register at 0x100 or above, mapped and not 64 bits wide. -/
def State.writeBlock (s : State) (req : Req) (pr : Bool) (h : RegHit) (a : Nat) (v : W32) : Wrote :=
  let p := a / 4096
  let o := a % 4096
  let o0 := h.reg.off
  let fs := h.reg.fields
  let old := s.reg a
  if !pr && fs.any (·.acc == .rws) then (s.bothErr req p 0x03, some 0x03, false)
  else
    let m := mergeWord fs old v
    match firstErr [(!inRange fs v || s.lockedNow p o0 h.idx || s.settingBad p o0 h.idx m, 0x1E),
        (jigOnly p o0 && !s.on F.CAL_STATUS_JIG, 0x30)] with
    | some c => (s.err p c, some c, false)
    | none =>
      match s.writeSpecial req pr p o h.idx v with
      | some (t, some c) => (t, some c, p == 0x10)
      | some (t, none) => (if t.get (hdrSeq p) = s.get (hdrSeq p) then t.bumpSeq p else t, none, true)
      | none => (((s.setReg a m).afterWrite p o h.idx old).bumpSeq p, none, true)

/-- A write to a register-space offset (R41, R43, R46, R53). -/
def State.regWrite (s : State) (req : Req) (priv : Bool) (a : Nat) (v : W32) : Wrote :=
  let p := a / 4096
  let o := a % 4096
  if !mapped a then (s.reqErr req 0x04, some 0x04, false)
  else if s.on (hdrSrst (ctrlPage p)) then ({ s with held := s.held ++ [⟨req, priv, a, v⟩] }, none, true)
  else if o < 0x100 then
    match s.writeHead req (s.acts req priv) p o v with
    | (s, c) => (s, c, c.isNone)
  else if low64 a then ({ s with writeShadow := putShadow s.writeShadow ⟨req, a, v⟩ }, none, true)
  else if low64 (a - 4) then
    match s.writeShadow.find? fun x => x.req == req && x.addr == a - 4 with
    | none => (s.reqErr req 0x05, some 0x05, false)
    | some x =>
      let s := { s with writeShadow := s.writeShadow.filter fun y => y.req != req }
      (if a = A.BKP_TIME_NEW_HI then ((s.setReg A.BKP_TIME_NEW_LO x.word).setReg A.BKP_TIME_NEW_HI v).bumpSeq p else s.bumpSeq p, none, true)
  else match findReg a with
    | none => (s.reqErr req 0x04, some 0x04, false)
    | some h => s.writeBlock req (s.acts req priv) h a v

-- Words of the other regions

/-- Bytes written to system SRAM; refused whole where a byte is owned. -/
def State.sramWrite (s : State) (req : Req) (o : Nat) (bs : List Byte) : Wrote :=
  if (List.range bs.length).any fun i => s.sramOwned (o + i) then (s.reqErr req 0x07, some 0x07, false)
  else (s.sramPut o bs, none, true)

/-- A word of display SRAM written (R384). -/
def State.dispWriteWord (s : State) (req : Req) (o : Nat) (v : W32) : Wrote :=
  match s.dispWrite o v with
  | (s, some c) => (if c = 0x03 then s.bothErr req 0x1E c else if c = 0x04 then s.reqErr req c else s.err 0x1E c, some c, false)
  | (s, none) => (s, none, true)

/-- One aligned word written at an address (R39). -/
def State.busWrite (s : State) (req : Req) (addr : Nat) (v : W32) : Wrote :=
  match placeOf addr with
  | .sram o => s.sramWrite req o (le 4 v.toNat)
  | .disp o => s.dispWriteWord req o v
  | .reg a priv => s.regWrite req priv a v
  | .none => (s.reqErr req 0x04, some 0x04, false)

-- The commands

/-- REGISTER_WRITE. -/
def execRegisterWrite (req : Req) (priv : Bool) (addr : Nat) (val : W32) (s : State) : Out := s.onFabric fun s => done (s.regWrite req priv addr val).1

/-- SOFT_RESET (R46). -/
def execSoftReset (req : Req) (priv : Bool) (page : Nat) (s : State) : Out := s.onFabric fun s => done (s.regWrite req priv (4096 * page + 0x008) 2).1

/-- The held writes of a page, in their order, once its reset has completed (R46). -/
def State.applyHeld (s : State) (p : Nat) : State :=
  let mine := s.held.filter fun x => ctrlPage (x.addr / 4096) == p
  mine.foldl (fun s x => (s.regWrite x.req x.priv x.addr x.val).1) { s with held := s.held.filter fun x => ctrlPage (x.addr / 4096) != p }

/-- SOFT_RESET_DONE (R45, R46). -/
def execSoftResetDone (page : Nat) (s : State) : Out := s.onFabric fun s =>
  let p := ctrlPage page
  if s.on (hdrSrst p) then done ((s.put (hdrSrst p) 0).applyHeld p) else done s

/-- IRQ_PEND_CLEAR (R47): `hw` are the bits that hardware sets in the same cycle. -/
def execIrqPendClear (page : Nat) (mask : W32) (hw : W32) (s : State) : Out := s.onFabric fun s =>
  if mapped (4096 * page + 0x018) ∧ page ≠ 0x05 then done (s.clearPend page mask.toNat hw.toNat) else done s

/-- ERRCODE_CLEAR (R48): an error recorded in the same cycle (0 for none) stays. -/
def execErrcodeClear (page same : Nat) (s : State) : Out := s.onFabric fun s =>
  if mapped (4096 * page + 0x01C) then
    let s := s.put (hdrErrcode page) 0
    done (if same = 0 then s else s.err page same)
  else done s

/-- EVCNT_WRITE (R48): bytes of 0x00 clear their counters; occurrences in the same cycle (mask `hw` of the four bytes) leave 0x01. -/
def execEvcntWrite (page : Nat) (m : Fin 8) (val : W32) (hw : Nat) (s : State) : Out := s.onFabric fun s =>
  if mapped (4096 * page + 0x040) then
    let s := s.writeEvcnt page m val
    done ([0, 1, 2, 3].foldl (fun s i => if hw.testBit i then s.irq page (4 * m + i) else s) s)
  else done s

/-- READ_64_LOW (R43). -/
def execRead64Low (req : Req) (priv : Bool) (addr : Nat) (s : State) : Out := s.onFabric fun s =>
  if low64 addr then done (s.regRead req (s.acts req priv) addr).1 else done s

/-- WRITE_64_LOW (R43). -/
def execWrite64Low (req : Req) (addr : Nat) (val : W32) (s : State) : Out := s.onFabric fun s =>
  if low64 addr then done (s.regWrite req false addr val).1 else done s

/-- WRITE_64_HIGH (R43). -/
def execWrite64High (req : Req) (addr : Nat) (val : W32) (s : State) : Out := s.onFabric fun s =>
  if 4 ≤ addr ∧ low64 (addr - 4) then done (s.regWrite req false addr val).1 else done s

/-- CH_EN_WRITE (R96). -/
def execChEnWrite (req : Req) (hi : Bool) (val : W32) (s : State) : Out := s.onFabric fun s =>
  done (s.regWrite req false (if hi then A.AFE_CH_EN_HI else A.AFE_CH_EN_LO) val).1

/-- DISPLAY_SRAM_WRITE (R384): `addr` is the word's offset in display SRAM. -/
def execDisplaySramWrite (req : Req) (addr : Nat) (val : W32) (s : State) : Out := s.onFabric fun s =>
  if addr % 4 = 0 ∧ addr < 0x200000 then done (s.dispWriteWord req addr val).1 else done (s.reqErr req 0x04)

/-- STORE (R468). -/
def execStore (s : State) : Out := s.onFabric fun s =>
  if s.privOpen then
    match s.judged 0x09 fun s => s.storeCfg s.cfgImage with
    | (s, none) => done (s.bumpSeq 0x09)
    | (s, some _) => done s
  else done (s.err 0x09 0x03)

end Sys2Proof.Machine
end

