-- ==== Sys2Proof/Machine/HostLink.lean ====
section
/-! DEFINITION. The Dirok host link: transactions on the quad-SPI pins, the checks of pushed frames, pulls, the tenon exchange, lost
markers and the interrupt line (02_registers_host_link.md R55 to R76). A transaction is one command; `resp` is what the device drives
from the marker on. -/
namespace Sys2Proof.Machine

-- Answers (R57)

/-- The CRC that ends a transaction: CRC-32 under version 2, CRC-16 otherwise (R57, R62). -/
def State.linkCrc (s : State) (bs : List Byte) : List Byte := if s.ver = 2 then le 4 (crc32 bs) else le 2 (crc16 bs)

/-- An answer behind the marker 0xA5. -/
def State.answer (s : State) (bs : List Byte) : State := { s with resp := 0xA5 :: bs ++ s.linkCrc bs }

/-- Nothing is driven. -/
def State.mute (s : State) : State := { s with resp := [] }

/-- The answer 0xE1 with status 0x001B. -/
def State.busy1B (s : State) : State := { s with resp := 0xE1 :: le 2 0x1B ++ s.linkCrc (le 2 0x1B) }

/-- A transaction as the link stands: silent without a fabric clock or without supply, 0xE1 before the release and while the device wakes
from STANDBY, both unrecorded (R55, R57, R555, R562, R569). -/
def State.onLink (s : State) (f : State → State) : Out :=
  if s.boot.silent ∨ s.mainDown then done s.mute
  else if s.linkUp = false then done s.busy1B
  else if s.get F.RST_PWR_STAT_STATE = 2 then done s.wakeUp.busy1B
  else done (f s)

/-- The host's CRC holds over the bytes before it. -/
def State.crcOk (s : State) (bs : List Byte) (crc : Nat) : Bool := decide (ofLe (s.linkCrc bs) = crc)

/-- A CRC failure of a transaction or frame is counted (R77). -/
def State.crcFailed (s : State) : State := s.incSat F.HLK_CRC_ERRS

/-- HLK records a refused frame with code `c`. -/
def State.linkErr (s : State) (c : Nat) : State := (if c = 0x12 then s.crcFailed else s).err 0x04 c

/-- The lower of two codes; a check that does not fail gives none. -/
def lowerCode : Option Nat → Option Nat → Option Nat
  | some a, some b => some (min a b)
  | some a, none => some a
  | none, b => b

/-- What refuses a transaction: of its CRC, the tenon exchange it needs and its own checks the lowest failing code (R60, R580). -/
def transCheck (crc tenon : Bool) (own : Option Nat) : Option Nat :=
  lowerCode (if crc then none else some 0x12) (lowerCode (if tenon then none else some 0x18) own)

-- SUMMARY (R60)

/-- The bytes of the summary ahead of its CRC-16. -/
def State.summaryBody (s : State) : List Byte :=
  le 8 s.readyMask ++ le 8 s.fullMask ++ le 4 s.epoch ++ le 1 (s.get F.HLK_LINK_VER)
    ++ le 1 ((s.conds != []).toNat + 2 * (s.on F.HLK_LINK_TENON_DONE).toNat + 4 * s.boot.bench.toNat)

def execSummary (s : State) : Out :=
  s.onLink fun s => { s with resp := 0xA5 :: s.summaryBody ++ le 2 (crc16 s.summaryBody) }

-- READ and WRITE (R58)

/-- Does a transfer cross a register page or the end of its SRAM region? -/
def crosses (addr n : Nat) : Bool :=
  match placeOf addr with
  | .sram o => decide (0x100000 < o + n)
  | .disp o => decide (0x200000 < o + n)
  | .reg a _ => decide (4096 < a % 4096 + n)
  | .none => false

/-- The checks on a transfer, in their order. -/
def transferCheck (addr count : Nat) : Option Nat :=
  if addr % 4 ≠ 0 then some 0x05
  else if count = 0 ∨ 256 < count then some 0x1E
  else if crosses addr (4 * count) then some 0x06
  else none

/-- `n` words read from an address on. -/
def State.readWords (s : State) (req : Req) : Nat → Nat → State × List W32
  | _, 0 => (s, [])
  | addr, n + 1 =>
    let (s, w) := s.busRead req addr
    let (s, ws) := State.readWords s req (addr + 4) n
    (s, w :: ws)

/-- Words written from an address on: the first error and the number of words that took effect. -/
def State.writeWords (s : State) (req : Req) : Nat → List W32 → State × Option Nat × Nat
  | _, [] => (s, none, 0)
  | addr, w :: ws =>
    let (s, c, took) := s.busWrite req addr w
    let (s, c', n) := State.writeWords s req (addr + 4) ws
    (s, match c with
      | some c => some c
      | none => c', n + took.toNat)

/-- READ. -/
def execRead (addr : W32) (count crc : Nat) (s : State) : Out :=
  s.onLink fun s =>
    let good := s.crcOk (0x3C :: le 4 addr.toNat ++ le 2 count) crc
    match transCheck good true (transferCheck addr.toNat count) with
    | some c => ((if good then s else s.crcFailed).err 0x04 c).answer (le 2 c)
    | none =>
      let (t, ws) := s.readWords .host addr.toNat count
      t.answer (le 2 0 ++ ws.flatMap fun w => le 4 w.toNat)

/-- WRITE: performed only after its CRC verifies; before the tenon exchange it is refused (R60). -/
def execWrite (addr : W32) (count : Nat) (words : List W32) (crc : Nat) (s : State) : Out :=
  s.onLink fun s =>
    let good := s.crcOk (0x3D :: le 4 addr.toNat ++ le 2 count ++ words.flatMap fun w => le 4 w.toNat) crc
    match transCheck good (s.on F.HLK_LINK_TENON_DONE) (transferCheck addr.toNat count) with
    | some c => ((if good then s else s.crcFailed).err 0x04 c).answer (le 2 c ++ le 2 0)
    | none =>
      let (t, c, n) := s.writeWords .host addr.toNat (words.take count)
      t.answer (le 2 (c.getD 0) ++ le 2 n)

-- Frames (R61, R62)

/-- A frame's bytes on ring n. -/
def Frame.bytes (f : Frame) (n : Nat) : List Byte :=
  let b := le 2 (20 + f.payload.length) ++ le 1 n ++ le 1 f.typ ++ le 2 f.seq ++ le 2 (f.ref.getD 0xFFFF) ++ le 4 f.epoch
    ++ le 2 f.status ++ le 1 f.ref.isSome.toNat ++ le 1 f.ver ++ f.payload
  b ++ (if f.ver = 2 then le 4 (crc32 b) else le 2 (crc16 b) ++ le 2 0)

/-- The trailer holds the CRC of the frame's own VER. -/
def trailerOk (b : List Byte) : Bool :=
  let n := b.length - 4
  let body := b.take n
  if fieldLe b 15 1 = 2 then decide (fieldLe b n 4 = crc32 body) else decide (fieldLe b n 2 = crc16 body)

-- PUSH (R63, R64)

/-- How many bytes of a frame the device consumes, from its LENGTH (checks 3 and 4). -/
def consumed (len : Nat) : Nat := if len < 20 ∨ len % 4 ≠ 0 then max 20 ((len + 3) / 4 * 4) else len

/-- Is ring n writable by the host? -/
def State.pushable (s : State) (n : Nat) : Bool := decide (n < 64) && s.h2d n

/-- The checks of R63 from 2 on, in their order; `b` is the frame, whole. -/
def State.pushCheck (s : State) (n : Nat) (b : List Byte) : Option Nat :=
  let len := fieldLe b 0 2
  let f := b.take len
  let ver := fieldLe b 15 1
  let tenon := n == 0 && fieldLe b 3 1 == 0xF0
  let done' := s.on F.HLK_LINK_TENON_DONE
  let d := (fieldLe b 4 2 + 65536 - (s.ring n).next) % 65536
  let checks : List (Bool × Nat) := [
    (!s.pushable n, 0x17),
    (decide (len < 20) || decide (len % 4 ≠ 0), 0x11),
    (decide (s.slotSize n < len), 0x10),
    (!trailerOk f, 0x12),
    (fieldLe b 2 1 != n, 0x17),
    (if tenon then ver != 1 else done' && ver != s.get F.HLK_LINK_VER, 0x19),
    (!done' && !tenon, 0x18),
    (fieldLe b 8 4 != s.epoch && !tenon, 0x15),
    (!tenon && decide (1 ≤ d) && decide (d < 32768), 0x14),
    (!tenon && decide (32768 ≤ d), 0x13),
    (decide (s.slots n ≤ (s.ring n).frames.length), 0x16)]
  firstErr checks

/-- A refused push: LAST_REJ, LAST_REJ_INFO, the error and the interrupts (R59, R63, R77). -/
def State.pushReject (s : State) (n c : Nat) (b : List Byte) : State :=
  let whole := decide (16 ≤ b.length)
  let seq := if whole then fieldLe b 4 2 else 0xFFFF
  let s := (s.put F.HLK_LAST_REJ_CODE c).put F.HLK_LAST_REJ_SEQ seq
  let s := ((s.put F.HLK_LAST_REJ_INFO_RING n).put F.HLK_LAST_REJ_INFO_SEQ_VALID whole.toNat).incSat F.HLK_LAST_REJ_INFO_COUNT
  let s := (s.linkErr c).irq 0x04 2
  if c = 0x15 then s.irq 0x04 4 else s

/-- An accepted frame is held in its slot; all but a tenon request advance the expected SEQ. -/
def State.pushAccept (s : State) (n : Nat) (b : List Byte) : State :=
  let len := fieldLe b 0 2
  let r := s.ring n
  let f : Frame := ⟨fieldLe b 3 1, fieldLe b 4 2, none, fieldLe b 8 4, fieldLe b 12 2, fieldLe b 15 1, (b.take (len - 4)).drop 16⟩
  let tenon := decide (n = 0) && f.typ == 0xF0
  s.setRing n { r with frames := r.frames ++ [f], next := if tenon then r.next else (r.next + 1) % 65536 }

/-- Is TYPE `t` a command of ring n (R70, R306, R341, R391, R456, R457, R481)? The user rings take any. -/
def knownType (n t : Nat) : Bool :=
  if n = 0 then t == 0xF0
  else if 15 ≤ n ∧ n ≤ 26 then (decide (1 ≤ t) && decide (t ≤ 9)) || (decide (0x20 ≤ t) && decide (t ≤ 0x23))
  else if n = 35 then t == 1 || t == 2
  else if n = 44 then decide (1 ≤ t) && decide (t ≤ 4)
  else if n = 46 then decide (1 ≤ t) && decide (t ≤ 8)
  else true

/-- The oldest frame of ring n, where its TYPE is none of the ring's commands, is taken and refused with 0x001E (R307, R341). -/
def State.refuseHead (s : State) (n : Nat) : State :=
  match s.head n with
  | none => s
  | some f =>
    if knownType n f.typ then s
    else if 15 ≤ n ∧ n ≤ 26 then s.bayUnknown (n - 15) f
    else if n = 0 then ((s.take 0).err 0x04 0x1E).emit 1 (0x80 + f.typ % 128) (some f.seq) 0x1E []
    else if n = 35 then ((s.take 35).err 0x1D 0x1E).emit 64 (0x80 + f.typ % 128) (some f.seq) 0x1E (le 2 0x1E ++ le 2 0)
    else if n = 44 then (s.take 44).epdRefuse f.seq 0x1E {}
    else if s.cmdRunning then s
    else (s.take 46).refuseNvl f.typ f.seq 0x1E

/-- Every ring of commands in turn. -/
def State.refuseUnknown (s : State) : State :=
  ([0, 35, 44, 46] ++ (List.range 12).map (15 + ·)).foldl (fun s n => (s.ring n).frames.foldl (fun s _ => s.refuseHead n) s) s

/-- PUSH: one status for every frame, echoing its SEQ; a frame cut short by CS_N gets no answer. -/
def execPush (ring : Byte) (bytes : List Byte) (s : State) : Out :=
  s.onLink fun s =>
    let n := ring.toNat
    if bytes.length < consumed (fieldLe bytes 0 2) then (s.pushReject n 0x1A bytes).mute
    else
      let echo := fieldLe bytes 4 2
      match s.pushCheck n bytes with
      | some c => (s.pushReject n c bytes).answer (le 2 c ++ le 2 echo)
      | none => (s.answer (le 2 0 ++ le 2 echo)).pushAccept n bytes |>.refuseUnknown

-- PULL (R67, R68)

/-- The ring entry that a PULL of ring n reads; none where n is not device to host. -/
def State.pullEntry (s : State) (n : Nat) : Option Nat :=
  if n = 35 then some 64 else if n < 64 ∧ s.h2d n = false then some n else none

/-- The frames up to and including ACK_SEQ leave; none where it is not held. -/
def ackFrames (l : List Frame) (seq : Nat) : Option (List Frame) :=
  match l.findIdx? fun f => f.seq == seq with
  | some i => some (l.drop (i + 1))
  | none => none

/-- Slots of a ring have been freed: a lost marker that is due is written, and a replay of the legal log goes on (R68, R510). -/
def State.freedSlots (s : State) (e : Nat) : State :=
  let s := s.markLost e
  if e = 38 then State.replayStep 600 s else s

/-- The checks of a PULL in the order of R67: ring byte, COUNT, ACK_SEQ. -/
def State.pullCheck (s : State) (n ackSeq count : Nat) (ack : Bool) : Option Nat :=
  match s.pullEntry n with
  | none => some 0x17
  | some e => firstErr [
      (decide (count = 0) || decide ((if s.ver = 2 then 8 else 1) < count), 0x1E),
      (ack && (ackFrames (s.ring e).frames ackSeq).isNone, 0x14)]

/-- PULL. -/
def execPull (ring : Byte) (ackSeq : Nat) (flags : Byte) (count : Nat) (s : State) : Out :=
  s.onLink fun s =>
    let n := ring.toNat
    let ack := flags.toNat.testBit 0
    match transCheck true (s.on F.HLK_LINK_TENON_DONE) (s.pullCheck n ackSeq count ack) with
    | some c => (s.err 0x04 c).answer (le 2 c ++ le 2 0)
    | none =>
      let e := (s.pullEntry n).getD n
      let r := s.ring e
      let l := if ack then (ackFrames r.frames ackSeq).getD r.frames else r.frames
      let t := if l = r.frames then s else (s.setRing e { r with frames := l, aged := false }).freedSlots e
      t.answer (le 2 0 ++ ((t.ring e).frames.take count).flatMap (fun f => f.bytes n) ++ le 2 0)

-- Other transactions

/-- The commands of R56. -/
def linkCommands : List Nat := [0x5A, 0x3C, 0x3D, 0x6B, 0x6C]

/-- UNKNOWN_COMMAND_BYTE (R56). -/
def execUnknownCommandByte (b : Byte) (s : State) : Out :=
  if linkCommands.contains b.toNat then done s else s.onLink fun s => (s.err 0x04 0x08).mute

/-- TRANSACTION_ENDED_EARLY (R59): `got` are the bytes after the command byte. -/
def execTransactionEndedEarly (cmd : Byte) (got : List Byte) (s : State) : Out :=
  if !linkCommands.contains cmd.toNat || !s.linkUp then done s
  else if cmd = 0x6B then s.onLink fun s => (s.pushReject (got.headD 0).toNat 0x1A got.tail).mute
  else s.onLink fun s => (s.err 0x04 0x1A).mute

/-- FABRIC_WAIT_TIMEOUT (R57). -/
def execFabricWaitTimeout (cmd : Byte) (s : State) : Out :=
  if linkCommands.contains cmd.toNat then s.onLink fun s => (s.err 0x04 0x1B).busy1B else done s

-- The tenon exchange (R70, R71)

/-- The highest version within both ranges, 0 where there is none. -/
def chosenVersion (hmin hmax dmax : Nat) : Nat := if max hmin 1 ≤ min hmax dmax then min hmax dmax else 0

/-- The answer's payload. -/
def State.tenonPayload (s : State) (chosen : Nat) (nonce : List Byte) : List Byte :=
  le 1 1 ++ le 1 (s.get F.HLK_TENON_VMAX_VMAX) ++ le 1 chosen ++ le 1 0 ++ le 4 s.epoch ++ le 4 (s.reg 0x4004).toNat ++ nonce ++ le 2 4096 ++ le 6 0

/-- A host-to-device ring at a successful exchange. -/
def Ring.restart (r : Ring) : Ring := { r with prev := if r.next = 0 then r.prev else r.next - 1, next := 0 }

/-- TENON_REQUEST: the oldest frame of ring 0. -/
def execTenonRequest (s : State) : Out :=
  match s.head 0 with
  | none => done s
  | some f =>
    if f.typ ≠ 0xF0 then done s
    else
      let s := s.take 0
      let p := f.payload
      let nonce := le 4 (fieldLe p 8 4)
      let v := chosenVersion (fieldLe p 0 1) (fieldLe p 1 1) (s.get F.HLK_TENON_VMAX_VMAX)
      if v = 0 then done ((s.err 0x04 0x19).emitVer 1 1 0xF0 (some f.seq) 0x19 (s.tenonPayload 0 nonce))
      else
        let s := s.emitVer 1 1 0xF0 (some f.seq) 0 (s.tenonPayload v nonce)
        let s := (List.range 64).foldl (fun s n => if s.h2d n then s.setRing n (s.ring n).restart else s) s
        let s := ((s.put F.HLK_LINK_VER v).put F.HLK_LINK_TENON_DONE 1).incSat F.HLK_LINK_TENON_COUNT
        done ((s.setReg A.HLK_HOST_CAPS (wordN (fieldLe p 4 4))).irq 0x04 1)

-- Lost markers and the interrupt line (R68, R75)

/-- LOST_MARKER. -/
def execLostMarker (n : Fin 65) (s : State) : Out := if s.h2d n then done s else done (s.markLost n)

/-- RING_AGE_TIMEOUT: a held frame of an enabled ring is older than TIMEOUT. -/
def execRingAgeTimeout (n : Fin 65) (s : State) : Out :=
  let r := s.ring n
  if s.h2d n ∨ r.frames = [] ∨ s.get (F.HLKR_RING_IRQ_TIMEOUT n) = 0 then done s
  else done (s.setRing n { r with aged := true })

/-- IRQ_PULSE_END. -/
def execIrqPulseEnd (s : State) : Out := done { s with irqPulse := false }

end Sys2Proof.Machine
end

