-- ==== Sys2Proof/Machine/Engine.lean ====
section
/-! DEFINITION. The moving of DMA elements and the polls of a waiting channel, through the address map as each channel's own requester
(18_dma.md R530 to R539). -/
namespace Sys2Proof.Machine

/-- An access of a channel: the state, the refusal (with the address of the failing beat) if any, what was read, and beats. -/
structure Access where
  s : State
  fail : Option (Nat × Nat) := none
  bytes : List Byte := []
  beats : Nat := 0

/-- Beats of 16 bytes that `n` bytes from an address take (R532). -/
def spanBeats (addr n : Nat) : Nat := (addr + n - 1) / 16 - addr / 16 + 1

/-- What refuses an element by its shape (R533, R54): register space takes aligned elements of 4, 8 or 16 bytes within a page. -/
def shapeCheck (addr n : Nat) : Option Nat :=
  match placeOf addr with
  | .reg a _ => if n < 4 ∨ addr % 4 ≠ 0 then some 0x05 else if 4096 < a % 4096 + n then some 0x06 else none
  | .sram o => if 0x100000 < o + n then some 0x06 else none
  | .disp o => if 0x200000 < o + n then some 0x06 else none
  | .none => none

/-- An element read. -/
def State.dmaRead (s : State) (ch : Fin 16) (addr n : Nat) : Access :=
  match shapeCheck addr n with
  | some c => { s := s.reqErr (.dma ch) c, fail := some (addr, c), beats := 1 }
  | none => match placeOf addr with
    | .reg _ _ =>
      let (s, ws) := s.readWords (.dma ch) addr (n / 4)
      { s := s, bytes := ws.flatMap fun w => le 4 w.toNat, beats := n / 4 }
    | .sram o => { s := if o < 0x40000 then s.took else s, bytes := s.memBytes o n, beats := spanBeats addr n }
    | .disp o =>
      let first := o / 4 * 4
      let all := (List.range ((o + n + 3) / 4 - o / 4)).flatMap fun i => le 4 (s.dispRead false (first + 4 * i)).toNat
      { s := s, bytes := (all.drop (o - first)).take n, beats := spanBeats addr n }
    | .none => { s := s, bytes := List.replicate n 0, beats := spanBeats addr n }

/-- Register words written in ascending order until one is refused. -/
def State.dmaWords (s : State) (ch : Fin 16) : Nat → List Byte → Nat → Access
  | _, [], b => { s := s, beats := b }
  | addr, x0 :: x1 :: x2 :: x3 :: rest, b =>
    match s.busWrite (.dma ch) addr (wordN (ofLe [x0, x1, x2, x3])) with
    | (t, none, _) => State.dmaWords t ch (addr + 4) rest (b + 1)
    | (t, some c, _) => { s := t, fail := some (addr, c), beats := b + 1 }
  | _, _, b => { s := s, beats := b }

/-- Display words written word by word: only the TGT fields of the element's own bytes change, and the other words of a beat with a
refused word take effect (R384, R532); the beat after a failing one is not issued (R539). `f` is the first refusal so far. -/
def State.dmaDisp (s : State) (ch : Fin 16) (o : Nat) (bs : List Byte) (f : Option (Nat × Nat)) : Nat → Nat → Access
  | 0, _ => { s := s, fail := f, beats := spanBeats o bs.length }
  | n + 1, w =>
    if f.isSome && w % 16 == 0 then { s := s, fail := f, beats := 1 }
    else
      let old := s.dispBytes w 4
      let now := (List.range 4).map fun i => if o ≤ w + i ∧ w + i < o + bs.length then bs.getD (w + i - o) 0 else old.getD i 0
      match s.dispWriteWord (.dma ch) w (wordN (ofLe now)) with
      | (t, none, _) => State.dmaDisp t ch o bs f n (w + 4)
      | (t, some c, _) => State.dmaDisp t ch o bs (match f with
        | none => some (0x30000000 + w, c)
        | some x => some x) n (w + 4)

/-- An element written; a beat that was written before the failing one stays written (R532, R539). -/
def State.dmaWrite (s : State) (ch : Fin 16) (addr : Nat) (bs : List Byte) : Access :=
  let n := bs.length
  match shapeCheck addr n with
  | some c => { s := s.reqErr (.dma ch) c, fail := some (addr, c), beats := 1 }
  | none => match placeOf addr with
    | .reg _ _ => s.dmaWords ch addr bs 0
    | .sram o =>
      let k := min n (16 - o % 16)
      match s.sramWrite (.dma ch) o (bs.take k) with
      | (t, some c, _) => { s := t, fail := some (addr, c), beats := 1 }
      | (t, none, _) =>
        if k = n then { s := t, beats := 1 }
        else match t.sramWrite (.dma ch) (o + k) (bs.drop k) with
          | (t, some c, _) => { s := t, fail := some (addr + k, c), beats := 2 }
          | (t, none, _) => { s := t, beats := 2 }
    | .disp o => s.dmaDisp ch o bs none ((o + n + 3) / 4 - o / 4) (o / 4 * 4)
    | .none => { s := s.reqErr (.dma ch) 0x04, fail := some (addr, 0x04), beats := 1 }

/-- The element at the channel's position: read, then written; the refusal if there is one. -/
def State.dmaMove (s : State) (n : Fin 16) : State × Option BusFail :=
  let src := s.srcAddr n
  let dst := s.dstAddr n
  let r := s.dmaRead n src (s.elemSize n)
  let s := r.s.beats r.beats
  match r.fail with
  | some (a, c) => (s, some ⟨a, false, false, c⟩)
  | none =>
    let s := s.setReg (A.DMA_CUR_SRC n) (wordN src)
    let w := s.dmaWrite n dst r.bytes
    let s := w.s.beats w.beats
    match w.fail with
    | some (a, c) => (s, some ⟨a, true, false, c⟩)
    | none => (s.setReg (A.DMA_CUR_DST n) (wordN dst), none)

/-- The channel goes on to its next element (R530, R534). -/
def State.dmaNext (s : State) (n : Nat) : State :=
  let c := s.chan n
  let s := s.setChan n { c with moved := (c.moved + 1) % 2 ^ 32 }
  match s.nextPos n with
  | none => s.setChan n { s.chan n with fin := true }
  | some (k0, k1, k2) =>
    let s := s.setPos n k0 k1 k2
    let s := if s.waitsHere n then s.setChan n { s.chan n with clear := false, polls := 0 } else s
    s.enterPass n

/-- May the channel move an element now? -/
def State.dmaReady (s : State) (n : Nat) : Bool := s.dmaState n == dmaRun && !(s.chan n).fin && !s.halted

/-- DMA_ELEMENT (R530 to R533): a refused beat halts the engine (R539). -/
def execDmaElement (n : Fin 16) (s : State) : Out := s.onFabric fun s =>
  if s.dmaReady n then
    match s.dmaMove n with
    | (t, some f) => done (t.busHalt n f)
    | (t, none) => done (if t.dmaState n = dmaRun then t.dmaNext n else t)
  else done s

/-- WAIT_POLL (R534). -/
def execWaitPoll (n : Fin 16) (s : State) : Out := s.onFabric fun s =>
  if s.dmaState n = dmaWait ∧ s.halted = false then
    let (t, v) := s.busRead (.dma n) (s.descWord n 10).toNat
    let t := t.beats 1
    if v &&& t.descWord n 11 = t.descWord n 12 then done ((t.setChan n { t.chan n with clear := true, polls := 0 }).setDma n dmaRun)
    else done (t.setChan n { t.chan n with polls := (t.chan n).polls + 1 })
  else done s

/-- BUS_ERROR (R538, R539): the channel's access is refused by its target. An access that its target takes is no bus error. -/
def execBusError (n : Fin 16) (s : State) : Out := s.onFabric fun s =>
  if s.dmaReady n then
    match s.dmaMove n with
    | (t, some f) => done (t.busHalt n f)
    | (_, none) => done s
  else done s

end Sys2Proof.Machine
end

