-- ==== Sys2Proof/Machine/Remote.lean ====
section
/-! DEFINITION. Remote access at its target, and the frames that may carry a request for it: DATA, POLL and REPLY
(15_mesh_polling.md R450, R455, R457). -/
namespace Sys2Proof.Machine

/-- A REMOTE_REQ as its section carries it (R457). -/
structure RemoteReq where
  write : Bool
  rseq : Nat
  addr : Nat
  count : Nat
  token : Nat
  words : List W32
  deriving DecidableEq, Repr

/-- The request in a section's body. -/
def remoteReq (b : List Byte) : RemoteReq :=
  let n := fieldLe b 12 2
  ⟨fieldLe b 0 4 == 2, fieldLe b 6 2, fieldLe b 8 4, n, fieldLe b 16 4,
    (List.range (min n ((b.length - 20) / 4))).map fun i => wordN (fieldLe b (20 + 4 * i) 4)⟩

/-- Does REMOTE_WMASK keep an address from remote writes (R457)? -/
def State.remoteShut (s : State) (addr : Nat) : Bool :=
  let open' (p : Nat) : Bool :=
    p != 0x1D && decide (p < 60) && (s.reg64 A.MSH_REMOTE_WMASK_LO).testBit p
  match placeOf addr with
  | .sram _ => true
  | .disp _ => true
  | .reg a _ => !open' (a / 4096)
  | .none => false

/-- What refuses a request at its target, beside the checks on its words (R457). -/
def State.remoteCheck (s : State) (q : RemoteReq) : Option Nat :=
  firstErr [
    (q.count == 0 || decide (64 < q.count) || (q.write && q.words.length != q.count), 0x1E),
    (!s.on F.MSH_CFG_REMOTE_EN || q.token != (s.reg A.MSH_REMOTE_TOKEN).toNat
      || (q.write && (s.boot.bench || s.remoteShut q.addr)), 0x74)]

/-- A response: status, the number of words written, the words read. -/
def remoteRsp (status count : Nat) (ws : List W32) : List Byte := le 2 status ++ le 2 count ++ ws.flatMap fun w => le 4 w.toNat

/-- The request carried out. -/
def State.remoteRun (s : State) (orig : Nat) (q : RemoteReq) : State × List Byte :=
  match s.remoteCheck q with
  | some c => (s.err 0x1D c, remoteRsp c 0 [])
  | none => match transferCheck q.addr q.count with
    | some c => (s.err 0x1D c, remoteRsp c 0 [])
    | none =>
      if q.write then
        let (t, c, n) := s.writeWords .mesh q.addr q.words
        (if n = 0 then t else t.mshEvent 6 orig, remoteRsp (c.getD 0) n [])
      else
        let (t, ws) := s.readWords .mesh q.addr q.count
        (t, remoteRsp 0 0 ws)

/-- The response sent to the origin: in a later REPLY or POLL where it has to wait for one, else at once. -/
def State.remoteAnswer (s : State) (orig rseq : Nat) (b : List Byte) : State :=
  let sec := mkSection 6 0 (le 2 rseq ++ le 2 0 ++ b)
  if s.waitsPoll orig then { s with msh := { s.msh with secs := s.msh.secs ++ [(⟨orig, 0, sec, none⟩ : MeshSec)] } }
  else (s.sendData orig 0 sec []).1

/-- One request: a repeated RSEQ is answered from the copy, so that it executes once (R457). A version-1 node answers none (R450). -/
def State.remoteServe (s : State) (orig : Nat) (b : List Byte) : State :=
  let q := remoteReq b
  if s.get F.MSH_CFG_VMAX = 1 then s
  else match s.msh.served.find? fun x => x.1 == orig && x.2.1 == q.rseq with
    | some (_, _, r) => s.remoteAnswer orig q.rseq r
    | none =>
      let (s, r) := s.remoteRun orig q
      let kept : List (Nat × (Nat × List Byte)) := s.msh.served.filter fun x => x.1 != orig
      let kept := kept.drop (kept.length - 7) ++ [(orig, (q.rseq, r))]
      { s with msh := { s.msh with served := kept } }.remoteAnswer orig q.rseq r

/-- The requests that a frame left to be executed. -/
def State.remoteTodo (s : State) : State :=
  s.msh.todo.foldl (fun (s : State) (x : Nat × List Byte) => s.remoteServe x.1 x.2) { s with msh := { s.msh with todo := [] } }

/-- DATA (R458). -/
def execData (s : State) : Out := s.onFabric fun s =>
  match s.inHead 5 with
  | none => done s
  | some r => done (s.data r).remoteTodo

/-- POLL (R454, R455). -/
def execPoll (s : State) : Out := s.onFabric fun s =>
  match s.inHead 6 with
  | none => done s
  | some r => done (s.poll r).remoteTodo

/-- REPLY (R455). -/
def execReply (s : State) : Out := s.onFabric fun s =>
  match s.inHead 7 with
  | none => done s
  | some r =>
    let (s, ok) := s.judgeFrame r
    if !ok then done s
    else
      let (s, h, mine) := s.arrive r
      if !mine then done (s.forward r h)
      else if s.mshRole ≠ 2 then done (s.sectionsIn h r).remoteTodo
      else done (((s.replyIn h).sectionsIn h r).cycleCheck).remoteTodo

end Sys2Proof.Machine
end

