-- ==== Sys2Proof/Machine/Reset.lean ====
section
/-! DEFINITION. Resets and what they keep, the halt, the last-chance couch, fuses, power states, and the commands of the backup domain
(19_reset_boot_clocks.md R544 to R578, 06_energy_registers_pulses.md R205, R206). -/
namespace Sys2Proof.Machine

-- What a reset clears (R545 to R548)

/-- Registers that a power-on or pin reset leaves: those of BKP and TAM, and the session failures and lockout of SEA (R521, R548, R577). -/
def keptReg (a : Nat) : Bool :=
  let p := a / 4096
  let o := a % 4096
  (p == 0x03 && (o == 0x00C || decide (0x100 ≤ o))) || (p == 0x0B && decide (0x100 ≤ o)) || a == A.SEA_SESS_LOCK

/-- A couch in progress is cut short: the copy it was writing fails its CRC, is still untouched, or is whole (R206, R466). -/
def State.cutCouch (s : State) : State :=
  match s.mt.couching with
  | none => s
  | some r =>
    let n := s.free % 3
    let s := s.took
    if n = 0 then s
    else if n = 1 then s.storeLegal r
    else { s with mt := if s.mt.lastB then { s.mt with copyA := none } else { s.mt with copyB := none } }

/-- Every entry of the fuse map sensed, with LOCK (R551); entries with a failed parity are counted (R550). -/
def State.sense (s : State) : State :=
  let bad := (s.boot.fuse.filter fun e => decide (e.1 < 402) && !evenOnes e.2).length
  ({ s with boot := { s.boot with sensed := s.boot.fuse } }.put F.RST_FUSE_STAT_LOCKED s.boot.fuseLock.toNat).put F.RST_FUSE_STAT_PARITY_ERR bad

/-- The main domain in reset: the backup domain, the felt store, the flash, the fuse map and the pins' levels stay; the rest is as at reset
(R548). -/
def State.mainReset (s : State) : State :=
  let t : State := {
    regs := s.regs.filter fun r => keptReg r.1
    sram := s.sram
    dsram := s.dsram
    resp := s.resp
    epoch := s.epoch
    ts := s.ts
    trimPhase := s.trimPhase
    sealEn := s.sealEn
    fresh := s.fresh
    cal := { recA := s.cal.recA, recB := s.cal.recB, takenB := s.cal.takenB, bgA := s.cal.bgA, bgB := s.cal.bgB, bgLastB := s.cal.bgLastB }
    legal := { log := s.legal.log, next := s.legal.next, watermark := s.legal.watermark }
    mt := { copyA := s.mt.copyA, copyB := s.mt.copyB, lastB := s.mt.lastB }
    nv := { felt := s.nv.felt, flash := s.nv.flash, torn := s.nv.torn, lost := s.nv.lost, reams := s.nv.reams, heads := s.nv.heads, remap := s.nv.remap,
            couchIdx := s.nv.couchIdx, cfgA := s.nv.cfgA, cfgB := s.nv.cfgB, cfgLastB := s.nv.cfgLastB, holdupWord := s.nv.holdupWord }
    se := { staged := s.se.staged, entries := s.se.entries, nextId := s.se.nextId, last := s.se.last }
    sl := { boxA := s.sl.boxA, boxB := s.sl.boxB, boxLastB := s.sl.boxLastB, kek := s.sl.kek, erasedByTam := s.sl.erasedByTam,
            imgA := s.sl.imgA, imgB := s.sl.imgB }
    tam := s.tam
    boot := { bk := s.boot.bk, felt := s.boot.felt, bkEpoch := s.boot.bkEpoch, feltEpoch := s.boot.feltEpoch, fuse := s.boot.fuse,
              fuseLock := s.boot.fuseLock, rsram := s.boot.rsram }
    lcd := { stored := s.lcd.stored, storedNew := s.lcd.storedNew, marks := s.lcd.marks }
    pending := s.pending }
  (t.put F.SEA_SESS_STAT_FAILS (s.get F.SEA_SESS_STAT_FAILS)).sense

/-- RST.CAUSE. -/
def State.setCause (s : State) (por pin backup halted : Bool) : State :=
  (((s.put F.RST_CAUSE_POR por.toNat).put F.RST_CAUSE_PIN pin.toNat).put F.RST_CAUSE_BACKUP_POR backup.toNat).put F.RST_CAUSE_FROM_HALT halted.toNat

/-- POWER_ON_RESET (R545, R472): VDD is lost and a flash step in progress may stop part way. RST.CAUSE keeps whether the device was halted. -/
def execPowerOnReset (s : State) : Out :=
  if s.boot.off then done s
  else
    let h := s.pf.halted
    let s := (if h then s else s.tearStep.cutCopy.cutCouch).mainReset.setCause true false false h
    done { s with boot := { s.boot with off := true, starting := false } }

/-- BACKUP_POWER_ON (R545, R548): BKP, TAM and the lockout return to their reset values, and the key RAM reads zero. -/
def execBackupPowerOn (s : State) : Out :=
  if s.boot.off then
    let s := { s with regs := s.regs.filter fun r => !keptReg r.1, ts := 0, trimPhase := 0, tam := {},
                      sl := { s.sl with kek := none, erasedByTam := false }, nv := { s.nv with holdupWord := none },
                      boot := { s.boot with bk := none, bkEpoch := none, rsram := [] } }
    done ((s.put F.SEA_SESS_STAT_FAILS 0).put F.RST_CAUSE_BACKUP_POR 1)
  else done s

/-- POWER_ON (R545): the release of a power-on reset; a start is due. -/
def execPowerOn (s : State) : Out :=
  if s.boot.off then
    let b := s.on F.RST_CAUSE_BACKUP_POR
    let h := s.on F.RST_CAUSE_FROM_HALT
    done (s.mainReset.setCause true false b h)
  else done s

/-- PIN_RESET (R546): a flash step in progress completes first; a start is due at the release. -/
def execPinReset (s : State) : Out :=
  if s.boot.off then done s
  else
    let h := s.pf.halted
    done ((if h then s else s.finishStep.cutCopy.cutCouch).mainReset.setCause false true false h)

-- The halt (R205, R566)

/-- Everything but the backup domain stops; no start is due until a reset. -/
def State.halt (s : State) : State :=
  let pf := { s.pf with halted := true }
  let s := s.mainReset
  let s := { s with pf := pf, boot := { s.boot with starting := false } }
  s.put F.RST_PWR_STAT_STATE 3

/-- HALT (R202, R205): the end of the power-fail sequence, once the final couch has completed where one is due. -/
def execHalt (s : State) : Out :=
  if s.pf.warned && !s.mainDown && (!s.pf.couches || (s.pf.cutoff && s.mt.couching.isNone)) then done s.halt else done s

/-- LAST_CHANCE_COUCH (R206): a couch in progress completes as it is, the accepted totals are couched with LAST_CHANCE, and the device halts. -/
def execLastChanceCouch (s : State) : Out :=
  if s.pf.warned && !s.mainDown then
    if s.pf.couches then
      let s := match s.mt.couching with
        | some r => (s.couchWrite r (s.free % 4001)).took
        | none => s
      let r := s.legalRecord 2
      let s := s.couchWrite r (s.free % 4001)
      let s := { s.took with se := { s.se with last := some (r, s.ts) } }
      done s.halt
    else done s.halt
  else done s

/-- REFERENCE_LOST (R566). -/
def execReferenceLost (s : State) : Out :=
  if s.mainDown then done s else done ((s.put F.BKP_STICKY_REF_FAIL 1).halt.irq 0x03 2)

/-- XO32_FAIL (R567): the timestamp counter goes on from the reference; TAM raises CLK_STOP with and without VDD. -/
def execXo32Fail (s : State) : Out :=
  let s := if s.boot.off then s
    else
      let s := ((s.put F.CLK_STATUS_TS_REF 1).put F.CLK_STATUS_XO32_OK 0).irq 0x02 0
      (s.put F.BKP_STICKY_XO32_FAIL 1).irq 0x03 1
  done (if s.tamOn 10 && !s.on (bitFld A.TAM_LIVE 10) then s.tamTrigger 10 false (s.tamResp 10) else s)

-- Fuses (R552)

/-- A command's refusal recorded: 0x03 is the host's as well (R53). -/
def State.hostCoded (s : State) (p : Nat) (r : State × Option Nat) : State :=
  match r with
  | (_, some c) => if c = 0x03 then s.bothErr .host p c else s.err p c
  | (t, none) => t.bumpSeq p

/-- FUSE_PROG: FUSE_CMD.PROG with its end, or the end of a programming in progress. -/
def execFuseProg (verified : Bool) (s : State) : Out := s.onFabric fun s =>
  let fin (s : State) : State := match s.fuseEnd verified with
    | (t, some c) => t.err 0x01 c
    | (t, none) => t
  if s.boot.fuseJob.isSome then done (fin s)
  else match s.fuseStart s.privOpen with
    | (t, none) => done (fin (t.bumpSeq 0x01))
    | r => done (s.hostCoded 0x01 r)

/-- FUSE_LOCK. -/
def execFuseLock (s : State) : Out := s.onFabric fun s => done (s.hostCoded 0x01 (s.fuseLockSet s.privOpen))

-- Power states and the backup domain (R564, R568 to R571, R577)

/-- BENCH_RELEASE. -/
def execBenchRelease (s : State) : Out := s.onFabric fun s => done (s.hostCoded 0x00 s.benchRelease)

/-- STANDBY. -/
def execStandby (s : State) : Out := s.onFabric fun s => done (s.hostCoded 0x01 s.standby)

/-- STANDBY_WAKE: 0 CS_N, 1 OPT_RXD, 2 a TAM source, 3 a power-fail warning. -/
def execStandbyWake (_src : Fin 4) (s : State) : Out := if s.mainDown then done s else done s.wakeUp

/-- TIME_SET. -/
def execTimeSet (s : State) : Out := s.onFabric fun s => done (s.hostCoded 0x03 (s.timeSet s.privOpen))

/-- RSRAM_ACCESS. -/
def execRsramAccess (req : Req) (write : Option W32) (s : State) : Out := s.onFabric fun s =>
  match write with
  | some v => done (s.regWrite req false A.BKP_RSRAM_DATA v).1
  | none => done (s.regRead req false A.BKP_RSRAM_DATA).1

end Sys2Proof.Machine
end

