-- ==== Sys2Proof/Machine/Start.lean ====
section
/-! DEFINITION. The start sequence: its eight steps, failures, the epoch, attempt counting and bench mode
(19_reset_boot_clocks.md R553 to R563, and the rules of the blocks it restores). -/
namespace Sys2Proof.Machine

-- Choosing a copy (R198, R466)

/-- Is SEQ x newer than SEQ y? -/
def newerSeq (x y : Nat) : Bool := let d := (x + 2 ^ 32 - y) % 2 ^ 32; decide (1 ≤ d) && decide (d < 2 ^ 31)

/-- The copy taken, and whether it is B. -/
def takeCopy {α : Type} (seq : α → Nat) (a b : Option α) : Option (α × Bool) :=
  match a, b with
  | some x, some y => some (if newerSeq (seq x) (seq y) then (x, false) else (y, true))
  | some x, none => some (x, false)
  | none, some y => some (y, true)
  | none, none => none

/-- The legal totals copy a start takes. -/
def State.takenLegal (s : State) : Option (LegalRec × Bool) := takeCopy LegalRec.seq s.mt.copyA s.mt.copyB

-- Step 4: counters and epoch (R557 to R559)

/-- The valid copies of the start-attempt record combined. -/
def combineCnt (bk felt : Option StartCnt) : StartCnt :=
  match bk, felt with
  | none, none => {}
  | some b, none => { b with hist := b.hist % 256, mask := 0 }
  | none, some f => { f with path := f.mask != 0 }
  | some b, some f => { f with fails := max b.fails f.fails, release := b.release || f.release, path := b.path || f.mask != 0 }

/-- The new device epoch. -/
def State.nextEpoch (s : State) (felt : Bool) : Nat :=
  let a := s.boot.bkEpoch.getD 0
  let b := if felt && s.boot.felt.isSome then s.boot.feltEpoch else 0
  let c := match s.takenLegal with
    | some (r, _) => r.epoch
    | none => 0
  (1 + max a (max b c)) % 2 ^ 32

/-- A bench start begins, or bench mode is entered: its flag and hold, and its first cause (R560, R563). -/
def State.benchOn (s : State) (cause : Nat) : State :=
  let s := if s.boot.bench then s else s.put F.SYS_FALLBACK_CAUSE_CAUSE cause
  { s with boot := { s.boot with bench := true } }.showHolds

/-- The memories zeroed, the start-attempt record decided, the new epoch written. -/
def State.startMemory (s : State) (felt : Bool) : State :=
  let s := { s with sram := [], dsram := [] }
  let c := combineCnt s.boot.bk (if felt then s.boot.felt else none)
  let e := s.nextEpoch felt
  let bench := !c.release && (c.path || decide (3 ≤ c.fails))
  let d := if c.release then { c with fails := 0, path := false, release := false, mask := 0 } else c
  let s := s.writeCnt d felt
  let s := { s with epoch := e, boot := { s.boot with bkEpoch := some e, feltEpoch := if felt then e else s.boot.feltEpoch } }
  if bench then s.benchOn (if c.path then 0x07 else c.hist % 256) else s

-- Step 5: the seal domain, NVL and CAL

/-- The legal totals restored from the record taken, with what it says of the last power failure (R189, R198, R199, R209). -/
def State.startLegal (s : State) : State :=
  let s := (s.put F.MTR_LEGAL_STAT_A_VALID s.mt.copyA.isSome.toNat).put F.MTR_LEGAL_STAT_B_VALID s.mt.copyB.isSome.toNat
  match s.takenLegal with
  | none =>
    let s := { s with mt := { s.mt with lastB := true }, se := { s.se with last := none } }
    let s := (s.put F.MTR_LEGAL_STAT_LEGAL_OK 0).log 0x0004 noOutlet [0]
    s.faultFrame 0x05 true 0 noUnit s.lastLog
  | some (r, b) =>
    let s := { s with mt := { s.mt with lastB := b }, se := { s.se with last := some (r, match s.se.last with
      | some p => p.2
      | none => 0) } }
    let s := (s.put F.MTR_LEGAL_STAT_TAKEN_B b.toNat).put F.MTR_LEGAL_STAT_LEGAL_OK 1
    let s := (List.range 12).foldl (fun s k =>
      let (a, abs, ib) := r.outlets.getD k ({}, false, 0)
      let s := s.setMeter k { s.meter k with acc := a }
      ((s.put (F.MTRK_ECFG_ABS k) abs.toNat).put (F.MTRK_IB_IB k) ib).snapshot r k) s
    if r.flags % 4 = 0 then (s.put F.MTR_PF_LAST_ABRUPT 1).log 0x0002 noOutlet (le 4 r.seq)
    else
      let s := (s.put F.MTR_PF_LAST_WAIT r.pfWait).put F.MTR_PF_LAST_TIMEOUT (r.pfUnconf / 0x8000)
      let s := s.put F.MTR_PF_LAST_LAST_CHANCE (bit r.flags 1).toNat
      (s.put F.MTR_PF_LAST_OUT_UNCONF r.pfUnconf).put F.MTR_PF_LAST_OUT_CURRENT r.pfCurrent

/-- The key state (R502); a key that is not READY is a fault (R593). -/
def State.startKey (s : State) : State :=
  let slots := match takeCopy KeyBox.seq s.sl.boxA s.sl.boxB with
    | some (x, _) => x.slots
    | none => []
  let b := match takeCopy KeyBox.seq s.sl.boxA s.sl.boxB with
    | some (_, b) => b
    | none => true
  let s := { s with sl := { s.sl with slots := slots, boxLastB := b } }.showSlots
  match s.boxKey with
  | none => (s.put F.SEA_STAT_KEY keyAbsent).faultFrame 0x07 true 0 noUnit noLog
  | some n =>
    let s := s.showKey n
    if s.sl.kek = some n then
      let s := { s with sl := { s.sl with key := some n } }
      (s.put F.SEA_STAT_KEY keyReady).put F.SEA_STAT_KEY_OK 1
    else
      let s := (s.put F.SEA_STAT_KEY keyErased).log 0x0045 noOutlet [if s.sl.erasedByTam then 0 else 1]
      s.faultFrame 0x07 true 0 noUnit s.lastLog

/-- The image in use, and an image copy that fails its check (R492, R494). With both valid the choice by their SEQ is open. -/
def State.startImage (s : State) : State :=
  let b := if s.sl.imgA && s.sl.imgB then s.free % 2 else (!s.sl.imgA).toNat
  let s := s.took.put F.SEA_STAT_IMAGE_B b
  if s.sl.imgA && s.sl.imgB then s
  else
    let s := (s.put F.SEA_STAT_IMAGE_FAULT 1).log 0x0051 noOutlet (le 1 (if s.sl.imgA then 1 else 0) ++ le 1 1)
    s.faultFrame 0x0A true 0 noUnit s.lastLog

/-- Open sessions and the staged record (R346, R347, R353): an undelivered record is appended and queued; a session whose STOP record is
staged is closed by it, one whose START record is staged takes its watermark. -/
def State.startSessions (s : State) : State :=
  let due := match s.se.staged with
    | some x => if x.delivered then none else some ((x.req.body.headD 0).toNat, x.req.outlet, x.mark)
    | none => none
  let fix (e : Nat × OpenEntry) : Nat × OpenEntry :=
    let x := { e.2.session with held := none, stopping := false, retry := false }
    let x := match due with
      | some (2, k, w) => if k = e.1 ∧ x.startMark = 0 then { x with startMark := w } else x
      | _ => x
    (e.1, { e.2 with session := x })
  let l : List (Nat × OpenEntry) := (s.se.entries.map fix).mergeSort fun a b => a.1 ≤ b.1
  let s := l.foldl (fun (s : State) (e : Nat × OpenEntry) =>
    let s := e.2.words.foldl (fun (s : State) (w : Nat × W32) => s.setReg w.1 w.2) (s.setSession e.1 e.2.session)
    s.put ⟨A.SES_ACTIVE_MASK, e.1, 1⟩ 1) s
  let open' : List (Nat × OpenEntry) := l.filter fun (e : Nat × OpenEntry) => match due with
    | some (3, k, _) => k != e.1
    | _ => true
  let s := { s with se := { s.se with restore := open' } }.put F.SES_SESSION_NEXT s.se.nextId
  match s.se.staged with
  | some x =>
    if x.delivered then s
    else
      let x : Staged := { x with queued := false, req := { x.req with ref := none } }
      { s with se := { s.se with staged := some x } }.appendStaged x
  | none => s

/-- Does a ream read 0xFF from an offset to its end? -/
def State.blankFrom (s : State) (r ofs : Nat) : Bool :=
  let a := reamAddr r
  !(s.nv.flash.any fun c => decide (a + ofs ≤ c.1) && decide (c.1 < a + 32768))
    && !(s.nv.torn.any fun t => decide (a + ofs < t.1 + t.2.1) && decide (t.1 < a + 32768))

/-- An open ream examined at WRITE_OFS (R478): blank, one valid record to be taken in, or a record cut short. -/
def State.examine (s : State) (r : Nat) : State :=
  let x := s.ream r
  let full (s : State) : State := s.setReam r { s.ream r with state := 2 }
  if s.blankFrom r x.ofs then s
  else
    let h := s.flashBytes (reamAddr r + x.ofs) 8
    let seq := fieldLe h 4 4
    let size := 24 + (fieldLe h 2 2 + 7) / 8 * 8
    if x.ofs + size ≤ 32768 ∧ (findRecord s.flashBytes (reamAddr r) x.stream seq 1 x.ofs).isSome = true then
      let s := s.recordDone x.stream seq r x.ofs size
      if s.blankFrom r (x.ofs + size) then s else full s
    else full s

/-- NVL makes the ream store available (R471, R478, R480): erasing reams are erased again, and the fields are filled. -/
def State.startNvl (s : State) : State :=
  let s := (List.range 92).foldl (fun s r => if (s.ream r).state = 1 then s.examine r else s) s
  let s := (List.range 8).foldl (fun s n => match (s.reamsOf n).getLast? with
    | some r => let x := s.ream r; s.setHead n { s.streamHead n with next := if x.records = 0 then x.first else x.last + 1 }
    | none => s) s
  let s := (s.countReams.put F.NVL_SPARE_USED (min 32 s.nv.remap.length)).put F.NVF_COUCH_IDX_IDX (if s.nv.couchIdx = 255 then 0 else s.nv.couchIdx)
  let s := match s.nv.holdupWord with
    | some ms =>
      let s := (s.put F.NVL_HOLDUP_MEAS ms).put F.NVL_HOLDUP_MEAS_VALID 1
      if ms * 10 < 4454 then s.event 0x09 7 noUnit else s
    | none => s
  let s := (List.range 92).foldl (fun s r =>
    if (s.ream r).state = 3 then s.pushJob { kind := .reclaim r, ref := none, steps := (reamSectors r).map .erase } else s) s
  s.checkStep

/-- Step 5. Without a seal image the seal core runs from ROM and restores nothing of its own (R563). -/
def State.startSeal (s : State) (temp : Int) : State × Option Nat :=
  let cal (s : State) : State :=
    let s := s.calStart temp
    if s.on F.CAL_STATUS_SHIM_OK then s else s.faultFrame 0x06 true 0 noUnit noLog
  if !s.sl.imgA && !s.sl.imgB then (cal { s with boot := { s.boot with romOnly := true } }.startNvl, some 0x02)
  else
    let s := s.startImage.startKey.startLegal.startNvl.startSessions
    (cal ((s.put F.SES_WATERMARK s.legal.watermark).sigCount), none)

-- Step 6: the configuration record (R556) and the self-tests

/-- A captured word with its enable fields at 0. -/
def maskEnable (a : Nat) (v : W32) : W32 :=
  if a % 4096 = 0x008 then putBits v 0 2 0
  else if a = A.AFE_CH_EN_LO ∨ a = A.AFE_CH_EN_HI then 0
  else if a = A.PQE_CFG then putBits v F.PQE_CFG_FEEDER_EN.lsb F.PQE_CFG_FEEDER_EN.wid 0
  else if 0x15100 ≤ a ∧ a < 0x15200 ∧ a % 16 = 0 then putBits v 0 1 0
  else v

/-- One entry written by the sequencer; a refusal is counted. -/
def State.cfgWrite (s : State) (a : Nat) (v : W32) : State :=
  match s.regWrite .boot true a v with
  | (s, some _, _) => ((s.incSat F.SYS_CFG_STAT_REFUSED).put F.SYS_CFG_STAT_PARTIAL 1)
  | (s, none, _) => s

/-- The configuration record that a start applies. -/
def State.takenCfg (s : State) : Option (CfgRecord × Bool) := takeCopy CfgRecord.seq s.nv.cfgA s.nv.cfgB

/-- The first pass: every entry in record order, enables at 0. -/
def State.cfgFirst (s : State) : State :=
  match s.takenCfg with
  | none => { s with nv := { s.nv with cfgLastB := true } }
  | some (r, b) =>
    let s := { s with nv := { s.nv with cfgLastB := b } }
    let s := ((s.put F.SYS_CFG_STAT_VALID 1).put F.SYS_CFG_STAT_TAKEN_B b.toNat).put F.NVL_CFG_STAT_SEQ r.seq
    r.regs.foldl (fun s e => s.cfgWrite (e.1 - 0x40000000) (maskEnable (e.1 - 0x40000000) e.2)) s

/-- The second pass: the enables the record holds, EPD's left to R401; in bench mode without METER_OK those of NVF and NVL alone. -/
def State.cfgSecond (s : State) (meter : Bool) : State :=
  match s.takenCfg with
  | none => s
  | some (r, _) =>
    r.regs.foldl (fun s e =>
      let a := e.1 - 0x40000000
      let v := if a % 4096 = 0x008 then e.2 &&& 5 else e.2
      let p := a / 4096
      if maskEnable a v = v ∨ p = 0x1E ∨ (!meter ∧ p ≠ 0x08 ∧ p ≠ 0x09) then s else s.cfgWrite a v) s

/-- METER_OK (R563). -/
def State.meterOk (s : State) : Bool :=
  let en : Nat := match s.takenCfg with
    | none => 0
    | some (r, _) =>
      let w (a : Nat) : Nat := match r.regs.find? fun e => e.1 == 0x40000000 + a with
        | some e => e.2.toNat
        | none => 0
      w A.AFE_CH_EN_LO + 2 ^ 32 * w A.AFE_CH_EN_HI
  s.on F.CAL_STATUS_SHIM_OK && s.on F.MTR_LEGAL_STAT_LEGAL_OK
    && (List.range 64).all fun c => !en.testBit c || ((!s.modFail c || s.carried c) && (s.carrier (c / 4)).isSome)

-- Steps 7 and 8

/-- The host link is released and the warning armed (R76, R201). -/
def State.startRelease (s : State) (o : StartOutcome) : State :=
  if s.linkUp then s
  else
    let s := ({ s with linkUp := true, pf := { s.pf with armed := true } }.irq 0x04 0).put F.SYS_START_TIME_RELEASED o.released
    let s := if s.on F.RST_CAUSE_BACKUP_POR then s.irq 0x03 0 else s
    if o.warn then s.powerWarn else s

/-- EPD at a start (R401); without a seal image the deckle layout is not read (R563). -/
def State.startEpd (s : State) : State :=
  let cfgOk := s.on F.SYS_CFG_STAT_VALID
  if s.boot.romOnly then
    let l := s.lcd.stored
    let s := { s with lcd := { s.lcd with stored := none } }.epdStart cfgOk
    { s with lcd := { s.lcd with stored := l } }
  else s.epdStart cfgOk

/-- Step 8's work. -/
def State.startRun (s : State) : State :=
  let meter := !s.boot.bench || s.meterOk
  let s := s.put F.SYS_BENCH_STAT_METER_OK s.meterOk.toNat
  let s := s.cfgSecond meter
  let s := if s.on F.SYS_CFG_STAT_PARTIAL then s.event 0x00 2 noUnit else s
  let reason := match s.takenLegal with
    | some (r, _) => if r.flags % 4 = 0 then 0x09 else 0x08
    | none => 0x09
  let s := if s.boot.romOnly then s else s.closeRestored reason
  let s := s.startEpd
  if s.boot.bench then { s with lcd := { s.lcd with due := true } } else s

/-- RUN, or bench mode (R554, R560, R561). -/
def State.startEnd (s : State) (o : StartOutcome) : State :=
  let s := (s.startRelease o).put F.RST_PWR_STAT_STATE (if s.pf.halted then 3 else 1)
  let s := { s with boot := { s.boot with starting := false, hang := none } }
  if s.boot.bench then (s.put F.SYS_BOOT_STAT_STAGE 7).event 0x00 0 noUnit
  else
    let s := (s.put F.SYS_BOOT_STAT_STAGE 6).put F.SYS_START_TIME_RUN o.run
    (s.writeCnt { s.startCnt with fails := 0 } true).put F.SYS_FALLBACK_CAUSE_CAUSE 0

-- The sequence

/-- One step and the cause with which it fails, if it does. -/
def State.startStep (s : State) (o : StartOutcome) (n : Nat) : State × Option Nat :=
  if n = 1 then ((s.put F.SYS_BOOT_STAT_STAGE 1).put F.CLK_STATUS_XO32_OK 1, none)
  else if n = 2 then
    let ok := o.xo && decide (23880 ≤ o.count) && decide (o.count ≤ 24120)
    (((s.put F.CLK_REF_CHECK_COUNT o.count).put F.CLK_XO_START_US o.xoUs).put F.CLK_STATUS_XO_OK ok.toNat, if ok then none else some 0x03)
  else if n = 3 then ((s.put F.CLK_STATUS_PLL_LOCK o.pll.toNat).put F.SYS_BOOT_STAT_STAGE 2, if o.pll then none else some 0x04)
  else if n = 4 then (s.startMemory o.felt, if !o.sram then some 0x05 else if !o.felt then some 0x06 else none)
  else if n = 5 then (s.put F.SYS_BOOT_STAT_STAGE 3).startSeal o.temp
  else if n = 6 then (((((s.put F.SYS_BOOT_STAT_STAGE 4).put F.AFE_STATUS_REF_OK 1).cfgFirst).startTest o.afe).laneTest o.lanes, none)
  else if n = 7 then ((s.put F.SYS_BOOT_STAT_STAGE 5).startRelease o, none)
  else (s.startRun, none)

/-- A failed step (R560): the attempt is counted; whether the start goes on as a bench start. Without a fabric clock the device stays silent in
FAILED (R562); below three failures FAILED releases the host link and starts nothing further (R563). -/
def State.startFail (s : State) (o : StartOutcome) (n cause : Nat) : State × Bool :=
  let fabric := decide (3 < n)
  let c := if fabric then s.startCnt else combineCnt s.boot.bk none
  let c := { c with fails := satInc 255 c.fails, hist := (c.hist * 256 + cause) % 2 ^ 24 }
  let s := (s.writeCnt c fabric).put F.SYS_BOOT_STAT_FAIL_STEP n
  let failed (s : State) : State :=
    { s.put F.SYS_BOOT_STAT_STAGE 8 with boot := { s.boot with starting := false, hang := none } }
  if cause = 0x03 ∨ cause = 0x04 then
    let s := failed s
    ({ s with boot := { s.boot with silent := true } }.put F.SYS_FALLBACK_CAUSE_CAUSE cause, false)
  else if s.boot.bench ∨ 3 ≤ c.fails then (s.benchOn cause, true)
  else (((failed (s.benchOn cause)).startRelease o).event 0x00 1 noUnit, false)

/-- The steps from n on. -/
def State.startFrom (o : StartOutcome) : Nat → Nat → State → State
  | 0, _, s => s.startEnd o
  | k + 1, n, s =>
    if o.hang = n then { s with boot := { s.boot with hang := some (n, o) } }
    else match s.startStep o n with
      | (s, none) => State.startFrom o k (n + 1) s
      | (s, some c) => match s.startFail o n c with
        | (s, true) => State.startFrom o k (n + 1) s
        | (s, false) => s

/-- START_SEQUENCE (R553, R554): at the release of reset. -/
def execStartSequence (o : StartOutcome) (s : State) : Out :=
  if s.boot.starting && !s.mainDown && s.boot.hang.isNone then done (State.startFrom o 8 1 s) else done s

/-- START_TIMEOUT (R555, R560, R561): 2 s after the release. The step that hangs has failed; a start counts one TIMEOUT at most. -/
def execStartTimeout (s : State) : Out :=
  match s.boot.hang with
  | none => done s
  | some (n, o) =>
    let s := { s with boot := { s.boot with hang := none } }
    let o := { o with hang := 0 }
    match s.startFail o n 0x01 with
    | (s, true) => done (State.startFrom o (8 - n) (n + 1) s)
    | (s, false) => done s

end Sys2Proof.Machine
end

