-- ==== Sys2Proof/Machine/Time.lean ====
section
/-! DEFINITION. What happens at a tick of 32.768 kHz when no command waits (R571, R572; log entry 5). -/
namespace Sys2Proof.Machine

/-- What one tick adds to TS, and the trim's phase in units of 10^-7 ticks (R572): a tick is added or dropped each time the phase is whole. -/
def trimTick (ppm : Int) (phase : Nat) : Nat × Nat :=
  let n := phase + ppm.natAbs
  if 10000000 ≤ n then (if ppm < 0 then 0 else 2, n - 10000000) else (1, n)

/-- A second has passed: the open session and a lockout have one second less (R497, R498). -/
def State.second (s : State) : State :=
  (s.put F.SEA_SESS_STAT_LEFT (s.get F.SEA_SESS_STAT_LEFT - 1)).put F.SEA_SESS_LOCK_LEFT (s.get F.SEA_SESS_LOCK_LEFT - 1)

/-- One period of the timestamp clock; frames of no known TYPE are refused in passing (R307, R341). -/
def State.tick (s : State) : State :=
  let x := trimTick (s.getInt F.BKP_TRIM_PPM) s.trimPhase
  let t := { s with ts := (s.ts + x.1) % 2 ^ 64, trimPhase := x.2 }
  let t := if t.ts / 32768 = s.ts / 32768 then t else t.second
  (if t.runs then t.refuseUnknown else t).settle

end Sys2Proof.Machine
end

