-- ==== Sys2Proof/Machine/Dispatch.lean ====
section
/-! DEFINITION. What each command does to everything but the queue: one arm per constructor, each a direct call of its meaning. -/
namespace Sys2Proof.Machine

/-- The effect of a command, by the spec's rules. -/
def exec (i : Instr) (s : State) : Host.Outcome State Fault Refusal :=
  match i with
  | .summary => Sys2Proof.Machine.execSummary s
  | .read addr count crc => Sys2Proof.Machine.execRead addr count crc s
  | .write addr count words crc => Sys2Proof.Machine.execWrite addr count words crc s
  | .push ring bytes => Sys2Proof.Machine.execPush ring bytes s
  | .pull ring ackSeq flags count => Sys2Proof.Machine.execPull ring ackSeq flags count s
  | .unknownCommandByte b => Sys2Proof.Machine.execUnknownCommandByte b s
  | .transactionEndedEarly cmd got => Sys2Proof.Machine.execTransactionEndedEarly cmd got s
  | .fabricWaitTimeout cmd => Sys2Proof.Machine.execFabricWaitTimeout cmd s
  | .tenonRequest => Sys2Proof.Machine.execTenonRequest s
  | .lostMarker n => Sys2Proof.Machine.execLostMarker n s
  | .ringAgeTimeout n => Sys2Proof.Machine.execRingAgeTimeout n s
  | .irqPulseEnd => Sys2Proof.Machine.execIrqPulseEnd s
  | .registerWrite req priv addr val => Sys2Proof.Machine.execRegisterWrite req priv addr val s
  | .softReset req priv page => Sys2Proof.Machine.execSoftReset req priv page s
  | .softResetDone page => Sys2Proof.Machine.execSoftResetDone page s
  | .irqPendClear page mask hw => Sys2Proof.Machine.execIrqPendClear page mask hw s
  | .errcodeClear page same => Sys2Proof.Machine.execErrcodeClear page same s
  | .evcntWrite page m val hw => Sys2Proof.Machine.execEvcntWrite page m val hw s
  | .read64Low req priv addr => Sys2Proof.Machine.execRead64Low req priv addr s
  | .write64Low req addr val => Sys2Proof.Machine.execWrite64Low req addr val s
  | .write64High req addr val => Sys2Proof.Machine.execWrite64High req addr val s
  | .sealEnChange level => Sys2Proof.Machine.execSealEnChange level s
  | .chEnWrite req hi val => Sys2Proof.Machine.execChEnWrite req hi val s
  | .afeStartTestDone results => Sys2Proof.Machine.execAfeStartTestDone results s
  | .testSlot g run => Sys2Proof.Machine.execTestSlot g run s
  | .returnCompareRetry g back overload => Sys2Proof.Machine.execReturnCompareRetry g back overload s
  | .runGuard m => Sys2Proof.Machine.execRunGuard m s
  | .monitorAlarm stream bias => Sys2Proof.Machine.execMonitorAlarm stream bias s
  | .spareCheckVerdict g spareAlarms => Sys2Proof.Machine.execSpareCheckVerdict g spareAlarms s
  | .streamAlarmClear stream => Sys2Proof.Machine.execStreamAlarmClear stream s
  | .cycleBoundary => Sys2Proof.Machine.execCycleBoundary s
  | .modLayerSwitch => Sys2Proof.Machine.execModLayerSwitch s
  | .batchReady => Sys2Proof.Machine.execBatchReady s
  | .trackerEvaluation meas silent => Sys2Proof.Machine.execTrackerEvaluation meas silent s
  | .holdoverExpiry => Sys2Proof.Machine.execHoldoverExpiry s
  | .decSnapshot => Sys2Proof.Machine.execDecSnapshot s
  | .integratorPreload c mean => Sys2Proof.Machine.execIntegratorPreload c mean s
  | .replayRequest already toCome => Sys2Proof.Machine.execReplayRequest already toCome s
  | .replayCatchUp already toCome pause => Sys2Proof.Machine.execReplayCatchUp already toCome pause s
  | .replayHandover => Sys2Proof.Machine.execReplayHandover s
  | .lanePauseEnd => Sys2Proof.Machine.execLanePauseEnd s
  | .resultHandover slot epoch cycle batch => Sys2Proof.Machine.execResultHandover slot epoch cycle batch s
  | .batchDeadline slot => Sys2Proof.Machine.execBatchDeadline slot s
  | .laneFault lane => Sys2Proof.Machine.execLaneFault lane s
  | .auditCompare n same => Sys2Proof.Machine.execAuditCompare n same s
  | .auditSelfTestDone n laneOk auditorOk => Sys2Proof.Machine.execAuditSelfTestDone n laneOk auditorOk s
  | .mtrStartTestDone passed => Sys2Proof.Machine.execMtrStartTestDone passed s
  | .qstatRead req k => Sys2Proof.Machine.execQstatRead req k s
  | .snapSeqRead req k => Sys2Proof.Machine.execSnapSeqRead req k s
  | .mtrEnableWrite req k en => Sys2Proof.Machine.execMtrEnableWrite req k en s
  | .couchComplete time => Sys2Proof.Machine.execCouchComplete time s
  | .powerFailWarning => Sys2Proof.Machine.execPowerFailWarning s
  | .pfWaitEnd timeout => Sys2Proof.Machine.execPfWaitEnd timeout s
  | .pfCutoff => Sys2Proof.Machine.execPfCutoff s
  | .halt => Sys2Proof.Machine.execHalt s
  | .lastChanceCouch => Sys2Proof.Machine.execLastChanceCouch s
  | .pulseStart n => Sys2Proof.Machine.execPulseStart n s
  | .pulseEnd n => Sys2Proof.Machine.execPulseEnd n s
  | .plsStageEnable n => Sys2Proof.Machine.execPlsStageEnable n s
  | .tempMeasurement reading => Sys2Proof.Machine.execTempMeasurement reading s
  | .shimWrite req priv val => Sys2Proof.Machine.execShimWrite req priv val s
  | .jigOffset ch cycles => Sys2Proof.Machine.execJigOffset ch cycles s
  | .jigGain ch volt cycles => Sys2Proof.Machine.execJigGain ch volt cycles s
  | .jigPhase ch refCh cycles => Sys2Proof.Machine.execJigPhase ch refCh cycles s
  | .jigRef ch cycles => Sys2Proof.Machine.execJigRef ch cycles s
  | .jigFill ch => Sys2Proof.Machine.execJigFill ch s
  | .jigCommit => Sys2Proof.Machine.execJigCommit s
  | .jigDiscard => Sys2Proof.Machine.execJigDiscard s
  | .jigOpComplete => Sys2Proof.Machine.execJigOpComplete s
  | .commitActivate => Sys2Proof.Machine.execCommitActivate s
  | .bgWindowEnd => Sys2Proof.Machine.execBgWindowEnd s
  | .pqeInstant => Sys2Proof.Machine.execPqeInstant s
  | .captureArm arm => Sys2Proof.Machine.execCaptureArm arm s
  | .captureForce => Sys2Proof.Machine.execCaptureForce s
  | .captureDeliverStart => Sys2Proof.Machine.execCaptureDeliverStart s
  | .captureFrame => Sys2Proof.Machine.execCaptureFrame s
  | .captureAbort => Sys2Proof.Machine.execCaptureAbort s
  | .pilotFrameStart => Sys2Proof.Machine.execPilotFrameStart s
  | .pilotBurst k high codes => Sys2Proof.Machine.execPilotBurst k high codes s
  | .auxConversion n code => Sys2Proof.Machine.execAuxConversion n code s
  | .outletEvaluation k => Sys2Proof.Machine.execOutletEvaluation k s
  | .flickerWindowEnd k => Sys2Proof.Machine.execFlickerWindowEnd k s
  | .invalidStateAlarm k code => Sys2Proof.Machine.execInvalidStateAlarm k code s
  | .mirrorConfirm k closed us => Sys2Proof.Machine.execMirrorConfirm k closed us s
  | .contactorTimeout k => Sys2Proof.Machine.execContactorTimeout k s
  | .causeWaitTimeout k => Sys2Proof.Machine.execCauseWaitTimeout k s
  | .auxContactorDelay k => Sys2Proof.Machine.execAuxContactorDelay k s
  | .weldCheck k => Sys2Proof.Machine.execWeldCheck k s
  | .lockFeedbackConfirm k locked ms => Sys2Proof.Machine.execLockFeedbackConfirm k locked ms s
  | .lockPulseEnd k => Sys2Proof.Machine.execLockPulseEnd k s
  | .lockConfirmTimeout k => Sys2Proof.Machine.execLockConfirmTimeout k s
  | .withdrawTimeout k => Sys2Proof.Machine.execWithdrawTimeout k s
  | .faultHoldExpiry k => Sys2Proof.Machine.execFaultHoldExpiry k s
  | .overcurrentTimeout k => Sys2Proof.Machine.execOvercurrentTimeout k s
  | .ocGraceEnd k => Sys2Proof.Machine.execOcGraceEnd k s
  | .meterLostTimeout k => Sys2Proof.Machine.execMeterLostTimeout k s
  | .pilotPauseEnd k => Sys2Proof.Machine.execPilotPauseEnd k s
  | .authorise k => Sys2Proof.Machine.execAuthorise k s
  | .stop k => Sys2Proof.Machine.execStop k s
  | .setLimit k => Sys2Proof.Machine.execSetLimit k s
  | .pilotPause k => Sys2Proof.Machine.execPilotPause k s
  | .allowClose k => Sys2Proof.Machine.execAllowClose k s
  | .lock k => Sys2Proof.Machine.execLock k s
  | .unlock k => Sys2Proof.Machine.execUnlock k s
  | .resetFault k => Sys2Proof.Machine.execResetFault k s
  | .digital k => Sys2Proof.Machine.execDigital k s
  | .bayEnableWrite req k en => Sys2Proof.Machine.execBayEnableWrite req k en s
  | .lmgLimitWrite req k val => Sys2Proof.Machine.execLmgLimitWrite req k val s
  | .rcmEvaluation k taps => Sys2Proof.Machine.execRcmEvaluation k taps s
  | .tripPathCheck k mHigh aHigh => Sys2Proof.Machine.execTripPathCheck k mHigh aHigh s
  | .rcmSignalTimeout k => Sys2Proof.Machine.execRcmSignalTimeout k s
  | .selftestStart k => Sys2Proof.Machine.execSelftestStart k s
  | .selftestAfterTrip k => Sys2Proof.Machine.execSelftestAfterTrip k s
  | .selftestComplete k => Sys2Proof.Machine.execSelftestComplete k s
  | .identify k => Sys2Proof.Machine.execIdentify k s
  | .decide k => Sys2Proof.Machine.execDecide k s
  | .stopSession k => Sys2Proof.Machine.execStopSession k s
  | .signReading k => Sys2Proof.Machine.execSignReading k s
  | .cacheInsert => Sys2Proof.Machine.execCacheInsert s
  | .cacheDelete => Sys2Proof.Machine.execCacheDelete s
  | .cacheLookup => Sys2Proof.Machine.execCacheLookup s
  | .cacheClear => Sys2Proof.Machine.execCacheClear s
  | .decideTimeout k => Sys2Proof.Machine.execDecideTimeout k s
  | .plugTimeout k => Sys2Proof.Machine.execPlugTimeout k s
  | .endTimeout k => Sys2Proof.Machine.execEndTimeout k s
  | .secondTick => Sys2Proof.Machine.execSecondTick s
  | .tariffStore req val => Sys2Proof.Machine.execTariffStore req val s
  | .tariffActivate => Sys2Proof.Machine.execTariffActivate s
  | .tariffSwitch => Sys2Proof.Machine.execTariffSwitch s
  | .tariffCopy => Sys2Proof.Machine.execTariffCopy s
  | .meterPeriodDue => Sys2Proof.Machine.execMeterPeriodDue s
  | .progressTick => Sys2Proof.Machine.execProgressTick s
  | .signatureDone => Sys2Proof.Machine.execSignatureDone s
  | .appendRetry => Sys2Proof.Machine.execAppendRetry s
  | .lmgRound => Sys2Proof.Machine.execLmgRound s
  | .decreaseVerify k => Sys2Proof.Machine.execDecreaseVerify k s
  | .lmgOverload con p => Sys2Proof.Machine.execLmgOverload con p s
  | .overloadClear con p => Sys2Proof.Machine.execOverloadClear con p s
  | .leaseFallback => Sys2Proof.Machine.execLeaseFallback s
  | .masterHoldEnd => Sys2Proof.Machine.execMasterHoldEnd s
  | .siteActivate => Sys2Proof.Machine.execSiteActivate s
  | .siteRelease => Sys2Proof.Machine.execSiteRelease s
  | .update => Sys2Proof.Machine.execUpdate s
  | .fill => Sys2Proof.Machine.execFill s
  | .blindClear => Sys2Proof.Machine.execBlindClear s
  | .wfActivate => Sys2Proof.Machine.execWfActivate s
  | .updateSlotStart => Sys2Proof.Machine.execUpdateSlotStart s
  | .epdFrame => Sys2Proof.Machine.execEpdFrame s
  | .deckleUpdateStart => Sys2Proof.Machine.execDeckleUpdateStart s
  | .panelPowerOn => Sys2Proof.Machine.execPanelPowerOn s
  | .panelPowerOff => Sys2Proof.Machine.execPanelPowerOff s
  | .deckleLayoutCommit => Sys2Proof.Machine.execDeckleLayoutCommit s
  | .displaySramWrite req addr val => Sys2Proof.Machine.execDisplaySramWrite req addr val s
  | .tempHostStale => Sys2Proof.Machine.execTempHostStale s
  | .plcTxRequest => Sys2Proof.Machine.execPlcTxRequest s
  | .txDone clipped => Sys2Proof.Machine.execTxDone clipped s
  | .rxFrame rx => Sys2Proof.Machine.execRxFrame rx s
  | .carrierSenseChange on preamble noise => Sys2Proof.Machine.execCarrierSenseChange on preamble noise s
  | .helloTimer => Sys2Proof.Machine.execHelloTimer s
  | .hello => Sys2Proof.Machine.execHello s
  | .ack => Sys2Proof.Machine.execAck s
  | .ackSend => Sys2Proof.Machine.execAckSend s
  | .ackTimeout => Sys2Proof.Machine.execAckTimeout s
  | .tenonReq => Sys2Proof.Machine.execTenonReq s
  | .tenonRsp => Sys2Proof.Machine.execTenonRsp s
  | .tenonRetry n => Sys2Proof.Machine.execTenonRetry n s
  | .data => Sys2Proof.Machine.execData s
  | .poll => Sys2Proof.Machine.execPoll s
  | .reply => Sys2Proof.Machine.execReply s
  | .backoffExpiry => Sys2Proof.Machine.execBackoffExpiry s
  | .neighbourExpiry n => Sys2Proof.Machine.execNeighbourExpiry n s
  | .routeExpiry dest via => Sys2Proof.Machine.execRouteExpiry dest via s
  | .quarantineEnd n => Sys2Proof.Machine.execQuarantineEnd n s
  | .roleConflictClear => Sys2Proof.Machine.execRoleConflictClear s
  | .pollRun => Sys2Proof.Machine.execPollRun s
  | .pollSend => Sys2Proof.Machine.execPollSend s
  | .pollTimeout dest => Sys2Proof.Machine.execPollTimeout dest s
  | .unsolicitedReply => Sys2Proof.Machine.execUnsolicitedReply s
  | .linkTransmitPush p => Sys2Proof.Machine.execLinkTransmitPush p s
  | .e2eTimeout ref => Sys2Proof.Machine.execE2eTimeout ref s
  | .remoteRead => Sys2Proof.Machine.execRemoteRead s
  | .remoteWrite => Sys2Proof.Machine.execRemoteWrite s
  | .mshEnableWrite req en => Sys2Proof.Machine.execMshEnableWrite req en s
  | .feltRead => Sys2Proof.Machine.execFeltRead s
  | .feltWrite => Sys2Proof.Machine.execFeltWrite s
  | .append => Sys2Proof.Machine.execAppend s
  | .reamRead => Sys2Proof.Machine.execReamRead s
  | .streamTrim => Sys2Proof.Machine.execStreamTrim s
  | .imgErase => Sys2Proof.Machine.execImgErase s
  | .imgWrite => Sys2Proof.Machine.execImgWrite s
  | .imgRead => Sys2Proof.Machine.execImgRead s
  | .programStepDone ok => Sys2Proof.Machine.execProgramStepDone ok s
  | .erasePulseDone ok => Sys2Proof.Machine.execErasePulseDone ok s
  | .stepDeferCheck supplyOk => Sys2Proof.Machine.execStepDeferCheck supplyOk s
  | .stepWaitTimeout => Sys2Proof.Machine.execStepWaitTimeout s
  | .scrubTick found => Sys2Proof.Machine.execScrubTick found s
  | .store => Sys2Proof.Machine.execStore s
  | .protectWrite req priv nvl val => Sys2Proof.Machine.execProtectWrite req priv nvl val s
  | .sigArchWrite req val => Sys2Proof.Machine.execSigArchWrite req val s
  | .measClr => Sys2Proof.Machine.execMeasClr s
  | .holdupMeasureEnd ms => Sys2Proof.Machine.execHoldupMeasureEnd ms s
  | .challenge slot role => Sys2Proof.Machine.execChallenge slot role s
  | .verify slot role => Sys2Proof.Machine.execVerify slot role s
  | .verifyDone => Sys2Proof.Machine.execVerifyDone s
  | .close => Sys2Proof.Machine.execClose s
  | .jigEnter => Sys2Proof.Machine.execJigEnter s
  | .jigLeave => Sys2Proof.Machine.execJigLeave s
  | .challengeExpiry => Sys2Proof.Machine.execChallengeExpiry s
  | .sessionExpiry => Sys2Proof.Machine.execSessionExpiry s
  | .lockoutEnd => Sys2Proof.Machine.execLockoutEnd s
  | .sealInvalidCode key code => Sys2Proof.Machine.execSealInvalidCode key code s
  | .keygen => Sys2Proof.Machine.execKeygen s
  | .vkInstall slot roles => Sys2Proof.Machine.execVkInstall slot roles s
  | .vkRevoke slot => Sys2Proof.Machine.execVkRevoke slot s
  | .keyCmdDone ok => Sys2Proof.Machine.execKeyCmdDone ok s
  | .logReplay req val => Sys2Proof.Machine.execLogReplay req val s
  | .totalsReq req val => Sys2Proof.Machine.execTotalsReq req val s
  | .optSignOn address => Sys2Proof.Machine.execOptSignOn address s
  | .optAcknowledge z y => Sys2Proof.Machine.execOptAcknowledge z y s
  | .optSilenceTimeout => Sys2Proof.Machine.execOptSilenceTimeout s
  | .queryT k bcc => Sys2Proof.Machine.execQueryT k bcc s
  | .queryL n bcc => Sys2Proof.Machine.execQueryL n bcc s
  | .queryR w bcc => Sys2Proof.Machine.execQueryR w bcc s
  | .queryK bcc => Sys2Proof.Machine.execQueryK bcc s
  | .queryEnd => Sys2Proof.Machine.execQueryEnd s
  | .queryTimeout => Sys2Proof.Machine.execQueryTimeout s
  | .tamperTrigger src => Sys2Proof.Machine.execTamperTrigger src s
  | .tamperClear src => Sys2Proof.Machine.execTamperClear src s
  | .tamperReport => Sys2Proof.Machine.execTamperReport s
  | .loopReseed => Sys2Proof.Machine.execLoopReseed s
  | .shadowCheck bad => Sys2Proof.Machine.execShadowCheck bad s
  | .stickyClear req priv mask => Sys2Proof.Machine.execStickyClear req priv mask s
  | .dmaStart n => Sys2Proof.Machine.execDmaStart n s
  | .dmaLoad n => Sys2Proof.Machine.execDmaLoad n s
  | .dmaResume n => Sys2Proof.Machine.execDmaResume n s
  | .dmaAbort n => Sys2Proof.Machine.execDmaAbort n s
  | .descriptorComplete n => Sys2Proof.Machine.execDescriptorComplete n s
  | .waitPoll n => Sys2Proof.Machine.execWaitPoll n s
  | .waitTimeout n => Sys2Proof.Machine.execWaitTimeout n s
  | .busError n => Sys2Proof.Machine.execBusError n s
  | .haltClear => Sys2Proof.Machine.execHaltClear s
  | .posWrite req n pos1 val => Sys2Proof.Machine.execPosWrite req n pos1 val s
  | .powerOn => Sys2Proof.Machine.execPowerOn s
  | .powerOnReset => Sys2Proof.Machine.execPowerOnReset s
  | .backupPowerOn => Sys2Proof.Machine.execBackupPowerOn s
  | .pinReset => Sys2Proof.Machine.execPinReset s
  | .startSequence o => Sys2Proof.Machine.execStartSequence o s
  | .startTimeout => Sys2Proof.Machine.execStartTimeout s
  | .fuseProg verified => Sys2Proof.Machine.execFuseProg verified s
  | .fuseLock => Sys2Proof.Machine.execFuseLock s
  | .benchRelease => Sys2Proof.Machine.execBenchRelease s
  | .standby => Sys2Proof.Machine.execStandby s
  | .standbyWake src => Sys2Proof.Machine.execStandbyWake src s
  | .referenceLost => Sys2Proof.Machine.execReferenceLost s
  | .xo32Fail => Sys2Proof.Machine.execXo32Fail s
  | .timeSet => Sys2Proof.Machine.execTimeSet s
  | .rsramAccess req write => Sys2Proof.Machine.execRsramAccess req write s
  | .outputSample values w v => Sys2Proof.Machine.execOutputSample values w v s
  | .dmaElement n => Sys2Proof.Machine.execDmaElement n s
  | .lockRepeat k => Sys2Proof.Machine.execLockRepeat k s
  | .loopBitChange j => Sys2Proof.Machine.execLoopBitChange j s
  | .eccSingleError lane => Sys2Proof.Machine.execEccSingleError lane s

end Sys2Proof.Machine
end

