-- ==== Sys2Proof/Safety.lean ====
section
/-! DEFINITION. What counts as a well-kept state, and what it means that a command leaves the rest of the machine alone, in the
terms the statements use. -/
namespace Sys2Proof.Machine

/-- The register bank and the byte memories keep their canonical form. -/
def State.wf (s : State) : Bool :=
  spWf resetWord s.regs && spWf (fun _ => ({} : Ring)) s.rings && spWf sramBlank s.sram && spWf sramBlank s.dsram

/-- The parts of State beside the register bank, the rings and the interrupt line, one name for each field. -/
inductive Part where
  | sram | dsram | resp | linkUp | epoch | ts | trimPhase | readShadow | writeShadow | held | sealEn | fresh | ms | cal | legal | mt
  | pf | nv | outlets | rcm | se | sl | tam | pq | lm | boot | lcd | plc | msh | dma | pending
  deriving DecidableEq, Repr

/-- Do two states agree in a part? The byte memories are compared by what each address reads as. -/
def Part.same (s t : State) : Part → Prop
  | .sram => ∀ a, t.sramByte a = s.sramByte a
  | .dsram => ∀ a, spRead sramBlank t.dsram a = spRead sramBlank s.dsram a
  | .resp => t.resp = s.resp
  | .linkUp => t.linkUp = s.linkUp
  | .epoch => t.epoch = s.epoch
  | .ts => t.ts = s.ts
  | .trimPhase => t.trimPhase = s.trimPhase
  | .readShadow => t.readShadow = s.readShadow
  | .writeShadow => t.writeShadow = s.writeShadow
  | .held => t.held = s.held
  | .sealEn => t.sealEn = s.sealEn
  | .fresh => t.fresh = s.fresh
  | .ms => t.ms = s.ms
  | .cal => t.cal = s.cal
  | .legal => t.legal = s.legal
  | .mt => t.mt = s.mt
  | .pf => t.pf = s.pf
  | .nv => t.nv = s.nv
  | .outlets => t.outlets = s.outlets
  | .rcm => t.rcm = s.rcm
  | .se => t.se = s.se
  | .sl => t.sl = s.sl
  | .tam => t.tam = s.tam
  | .pq => t.pq = s.pq
  | .lm => t.lm = s.lm
  | .boot => t.boot = s.boot
  | .lcd => t.lcd = s.lcd
  | .plc => t.plc = s.plc
  | .msh => t.msh = s.msh
  | .dma => t.dma = s.dma
  | .pending => t.pending = s.pending

/-- `t` is `s` but for the registers in `R`, the ring entries in `E`, the parts in `P`, and the interrupt line, which is judged
at the end of every command and has statements of its own. -/
structure Keeps (s t : State) (R : Nat → Prop) (E : List Nat) (P : List Part) : Prop where
  regs : ∀ a, ¬ R a → t.reg a = s.reg a
  rings : ∀ e, e ∉ E → t.ring e = s.ring e
  parts : ∀ p, p ∉ P → p.same s t

/-- The registers of one page. -/
abbrev inPage (p a : Nat) : Prop := a / 4096 = p

/-- The registers a frame queued on a device-to-host ring may touch: HLK's IRQ_PEND.LOST and its EVCNT (R68, R77). -/
abbrev lostRegs (a : Nat) : Prop := a = 0x4018 ∨ a = 0x4040

/-- The registers an error record of a page touches: ERRCODE and ERRCOUNT (R45). -/
abbrev errRegs (p a : Nat) : Prop := a = p * 4096 + 0x01C ∨ a = p * 4096 + 0x020

/-- The registers an occurrence of interrupt condition `b` of a page touches: IRQ_PEND and the word of EVCNT (R45). -/
abbrev irqRegs (p b a : Nat) : Prop := a = p * 4096 + 0x018 ∨ a = p * 4096 + 0x040 + 4 * (b / 4)

/-- The registers of a list. -/
abbrev among (l : List Nat) (a : Nat) : Prop := a ∈ l

/-- The registers of the listed pages. -/
abbrev inPages (l : List Nat) (a : Nat) : Prop := a / 4096 ∈ l

/-- The command completes: it answers a next state, of which `P` holds. -/
def Ends (o : Out) (P : State → Prop) : Prop := ∃ t, o = .next t ∧ P t

/-- The host link is released and the device is awake: a transaction is served (R55, R555, R569). -/
def State.served (s : State) : Prop :=
  s.boot.silent = false ∧ s.mainDown = false ∧ s.linkUp = true ∧ s.get F.RST_PWR_STAT_STATE ≠ 2

/-- The registers of the listed pages, and HLK's record of a lost marker on a ring that takes a frame. -/
abbrev onPages (l : List Nat) (a : Nat) : Prop := a / 4096 ∈ l ∨ lostRegs a

/-- An event of bit `b` of page `p` on ring 2: IRQ_PEND, EVCNT, and HLK's record of a lost marker (R45, R68, R582). -/
abbrev eventRegs (p b a : Nat) : Prop := irqRegs p b a ∨ lostRegs a

/-- A ring entry that takes a record at once: nothing lost before it, and a slot beside the one kept back (R68). -/
def State.takes (s : State) (e : Nat) : Prop := (s.ring e).lost = 0 ∧ (s.ring e).room (s.slots e) = true

/-- `t` holds in ring entry `e` what `s` holds and one record more, with the next sequence number (R66). -/
def Queued (s t : State) (e typ : Nat) (ref : Option Nat) (status : Nat) (payload : List Byte) : Prop :=
  (t.ring e).frames = (s.ring e).frames ++
    [{ typ := typ, seq := (s.ring e).next, ref := ref, epoch := s.epoch, status := status, ver := s.ver, payload := pad4 payload }]
  ∧ (t.ring e).next = ((s.ring e).next + 1) % 65536

/-- Outlet `k`'s command in `f` passes the checks on an outlet command's frame and on the device (R307). -/
def State.bayTakes (s : State) (k : Nat) (f : Frame) : Prop :=
  s.runs = true ∧ f.payload.length = 8 ∧ fieldLe f.payload 0 4 = s.get (F.BAYK_OEPOCH k) ∧ s.boot.bench = false ∧ s.pf.warned = false

/-- The reply to an outlet command, where the outlet's ring takes it at once (R72, R306). -/
def outletReply (s t : State) (k : Nat) (f : Frame) (status : Nat) : Prop :=
  s.takes (3 + k) → ∃ g, (t.ring (3 + k)).frames = (s.ring (3 + k)).frames ++ [g] ∧ g.typ = 0x80 + f.typ ∧ g.ref = some f.seq ∧ g.status = status

/-- A session command in `f` passes the checks that every one of them has (R341). -/
def State.sesTakes (s : State) (k : Nat) (f : Frame) : Prop :=
  s.runs = true ∧ s.enabled 0x19 = true ∧ fieldLe f.payload 0 4 = s.get (F.BAYK_OEPOCH k) ∧ s.boot.bench = false ∧ s.pf.warned = false

/-- An IDENTIFY in `f` passes every check that does not concern the session's own state (R341 to R343). -/
def State.canIdentify (s : State) (k : Nat) (f : Frame) : Prop :=
  s.sesTakes k f ∧ f.payload.length = 28 ∧ 1 ≤ fieldLe f.payload 24 1 ∧ fieldLe f.payload 24 1 ≤ 4 ∧ s.on F.MTR_LEGAL_STAT_LEGAL_OK = true
  ∧ s.on F.BKP_STATUS_TIME_SET = true ∧ s.on F.SEA_STAT_KEY_OK = true ∧ s.legal.watermark ≠ 0xFFFFFFFF ∧ s.on (F.BAYK_CFG_AUTH_SRC k) = false
  ∧ s.enabled (0x20 + k) = true ∧ s.on F.CAL_STATUS_JIG = false ∧ s.se.restore = []

/-- A storage command of type `typ` in `f` meets an enabled page, no warning and no step in progress (R483, R491). -/
def State.storageTakes (s : State) (page typ : Nat) (f : Frame) : Prop :=
  s.runs = true ∧ s.cmd46 typ = some f ∧ s.enabled page = true ∧ s.pf.warned = false ∧ s.on F.NVL_CFG_STAT_BUSY = false

/-- The command leaves ring 46, and its reply goes out where ring 47 takes it at once. -/
def storageReply (s t : State) (typ ref status n : Nat) (data : List Byte) : Prop :=
  (t.ring 46).frames = (s.ring 46).frames.tail ∧
  (s.takes 47 → ∃ g, (t.ring 47).frames = (s.ring 47).frames ++ [g] ∧ g.typ = 0x80 + typ ∧ g.ref = some ref ∧ g.status = status
    ∧ fieldLe g.payload 0 4 = n ∧ ∃ w, g.payload = pad4 (le 4 n ++ w ++ data) ∧ w.length = 4)

/-- The rows that judge a received frame, by FTYPE (R442, R458). -/
def meshRows : List (Nat × Instr) := [(1, .hello), (2, .ack), (3, .tenonReq), (4, .tenonRsp), (5, .data), (6, .poll), (7, .reply)]

/-- A frame that passes checks 5 to 8 of R458. -/
def State.judgedGood (s : State) (r : MeshRx) : Prop :=
  let h := linkHdr r.bytes
  s.malformed r.bytes = false
  ∧ (∀ n, s.nb h.tx = some n → pairOrder h.epoch h.inc n.epoch n.inc ≠ .lt
      ∧ (pairOrder h.epoch h.inc n.epoch n.inc = .eq → (if h.rx = 0xFFFF then n.seqB else n.seqU) ≠ some h.lseq))
  ∧ (h.net = true → (netHdr r.bytes).orig ≠ s.mshAddr ∧ s.seen (netHdr r.bytes).orig (netHdr r.bytes).nseq = false)

/-- The sections of a frame, in order (R443). -/
def frameSections (r : MeshRx) : List (Nat × Nat × List Byte) := (sectionsOf (content r.bytes)).getD []

end Sys2Proof.Machine
end

