-- ==== Sys2Proof/Certificates/Slice0/Obligations.lean ====
section
/-! DEFINITION. The statements for the provers. Each is a conjunction of clauses; a clause says of a command, under hypotheses on the
state and the operands alone, that it answers a next state, what that state is, and what the command leaves alone (`Keeps`). -/
open Sys2Proof Sys2Proof.Machine

/-- For every command c and state s with c at the front of its queue, step of s is exec of c on s with the queue's rest; with no command waiting, the step
is one tick of the 32.768 kHz clock, which with TRIM.PPM 0 and no fabric running adds one to the timestamp. That an empty queue ticks the clock is the
model's choice (log entry 5). (R571) -/
def Obligations.StepTakesTheFrontCommand : Prop :=
  (∀ (s : State) (c : Instr) (cs : List Instr), s.pending = c :: cs → step s = exec c { s with pending := cs })
  ∧ (∀ s : State, s.pending = [] → step s = .next s.tick)
  ∧ (∀ s : State, s.pending = [] → s.runs = false → s.getInt F.BKP_TRIM_PPM = 0 → s.ts % 32768 ≠ 32767 → s.ts + 1 < 2 ^ 64 →
    Ends (step s) fun t => t.ts = s.ts + 1 ∧ ∀ p ∈ ([.sram, .dsram, .resp, .epoch, .legal, .mt, .nv, .se, .msh, .dma, .pending] : List Part), p.same s t)

/-- State.reset has no command waiting, every register at the reset value of its table, every ring empty, IRQ_N high with no condition, the host link not
released, no seal session and the contactor outputs low. Values the spec gives no reset value for are the model's (log entries 4, 9 and 10). (R3,
R545, R75, R76) -/
def Obligations.ResetLeaves : Prop :=
  State.reset.pending = [] ∧ (∀ a, State.reset.reg a = resetWord a) ∧ (∀ e, (State.reset.ring e).frames = [] ∧ (State.reset.ring e).next = 0)
  ∧ (∀ a, State.reset.sramByte a = 0) ∧ State.reset.linkUp = false ∧ State.reset.conds = [] ∧ State.reset.irqLow = false
  ∧ State.reset.irqPulse = false ∧ State.reset.privOpen = false ∧ State.reset.wf = true
  ∧ (∀ k, k < 12 → State.reset.enabled (0x30 + k) = false ∧ State.reset.enabled (0x20 + k) = false ∧ State.reset.outHigh k = false)
  ∧ (∀ c, c < 64 → State.reset.on (bitFld64 A.AFE_CH_EN_LO c) = false)

/-- For every state s, step answers a next state t, and in t IRQ_N is low or in its pulse exactly where at least one interrupt condition holds. No command
ends in a fault or a refusal; the conditions themselves are spelled out by InterruptConditions. (R75, R76) -/
def Obligations.EveryStepJudgesTheInterruptLine : Prop :=
  ∀ s : State, Ends (step s) fun t => (t.irqLow || t.irqPulse) = !t.conds.isEmpty

/-- In every well-kept state: before the host link is released there is no condition; after it there is one exactly where some page has an IRQ_PEND bit
set together with its IRQ_EN bit, or some enabled device-to-host ring holds at least THRESH frames (a THRESH of 0 acting as 1) or a frame marked as
older than its TIMEOUT. (R75, R76, R77) -/
def Obligations.InterruptConditions : Prop :=
  (∀ s : State, s.linkUp = false → s.conds = [])
  ∧ ∀ s : State, s.wf = true → s.linkUp = true →
    (s.conds ≠ [] ↔
      (∃ p b, b < 32 ∧ s.get (hdrPend p b) = 1 ∧ s.on (bitFld (p * 4096 + 0x014) b) = true)
      ∨ ∃ e, s.h2d e = false ∧ s.on (bitFld64 A.HLK_RING_IRQ_EN_LO (if e = 64 then 35 else e)) = true ∧ (s.ring e).frames ≠ []
          ∧ (max 1 (s.get (F.HLKR_RING_IRQ_THRESH e)) ≤ (s.ring e).frames.length ∨ (s.ring e).aged = true))

/-- A write of ones to IRQ_PEND in the cycle in which hardware sets bits: the bits hardware sets stay set and their EVCNT counters count, the other
written bits clear, and nothing else changes. (R47) -/
def Obligations.ClearsLoseNoOccurrence : Prop :=
  ∀ (s : State) (page : Nat) (mask hw : W32), s.runs = true → mapped (4096 * page + 0x018) = true → page ≠ 0x05 →
    Ends (exec (.irqPendClear page mask hw) s) fun t =>
      (∀ b, b < 32 → t.get (hdrPend page b) =
        if hw.toNat.testBit b then 1 else if mask.toNat.testBit b then 0 else s.get (hdrPend page b))
      ∧ (∀ b, b < 32 → t.get (hdrEvcnt page b) = if hw.toNat.testBit b then satInc 255 (s.get (hdrEvcnt page b)) else s.get (hdrEvcnt page b))
      ∧ Keeps s t (fun a => a = page * 4096 + 0x018 ∨ (page * 4096 + 0x040 ≤ a ∧ a < page * 4096 + 0x060)) [] []

/-- A byte 0 written to EVCNT clears its counter and any other byte leaves it, a clear in the cycle of an occurrence leaves 1, and an error recorded in
the cycle of an ERRCODE clear leaves its code. (R48) -/
def Obligations.CountersAndErrcodeClear : Prop :=
  (∀ (s : State) (page : Nat) (m : Fin 8) (val : W32) (hw : Nat), s.runs = true → mapped (4096 * page + 0x040) = true →
    Ends (exec (.evcntWrite page m val hw) s) fun t =>
      (∀ i, i < 4 →
        let old := if getBits val (8 * i) 8 = 0 then 0 else s.get (hdrEvcnt page (4 * m + i))
        t.get (hdrEvcnt page (4 * m + i)) = if hw.testBit i then satInc 255 old else old)
      ∧ Keeps s t (fun a => a = page * 4096 + 0x018 ∨ a = page * 4096 + 0x040 + 4 * m) [] [])
  ∧ (∀ (s : State) (page same : Nat), s.runs = true → mapped (4096 * page + 0x01C) = true → same < 65536 →
    Ends (exec (.errcodeClear page same) s) fun t =>
      t.get (hdrErrcode page) = same
      ∧ t.get (hdrErrcount page) = (if same = 0 then s.get (hdrErrcount page) else satInc (2 ^ 32 - 1) (s.get (hdrErrcount page)))
      ∧ Keeps s t (errRegs page) [] [])

/-- Writes of unmapped offsets, of a plain RW word, of a page in soft reset (held), the start and end of a soft reset with the held write carried out
after it, and the shadows of 64-bit register halves by requester. ERRCODE 0x04 for an unmapped offset and the replay of held writes follow R41 and
R46; a held write is answered without error (log entry 18). (R41, R43, R45, R46, R49, R573, R574) -/
def Obligations.RegisterWrites : Prop :=
  (
  (∀ (s : State) (req : Req) (p : Nat) (priv : Bool) (a : Nat) (v : W32), s.runs = true → mapped a = false → reqPage req = some p →
    Ends (exec (.registerWrite req priv a v) s) fun t => t.get (hdrErrcode p) = 0x04 ∧ Keeps s t (errRegs p) [] [])
  ∧ (∀ (s : State) (req : Req) (priv : Bool) (w : Nat) (v : W32), s.runs = true → s.on (hdrSrst 0x03) = false → 8 ≤ w → w < 32 →
    Ends (exec (.registerWrite req priv (0x3180 + 4 * w) v) s) fun t =>
      t.reg (0x3180 + 4 * w) = v ∧ t.get (hdrSeq 0x03) = (s.get (hdrSeq 0x03) + 1) % 2 ^ 32
      ∧ Keeps s t (among [0x3180 + 4 * w, 0x3024]) [] [])
  ∧ (∀ (s : State) (req : Req) (priv : Bool) (a : Nat) (v : W32), s.runs = true → mapped a = true → s.on (hdrSrst (ctrlPage (a / 4096))) = true →
    Ends (exec (.registerWrite req priv a v) s) fun t => t.held = s.held ++ [⟨req, priv, a, v⟩] ∧ Keeps s t (among []) [] [.held])
  ∧ (∀ (s : State) (page : Nat) (req : Req) (priv : Bool), s.runs = true → mapped (4096 * page + 0x008) = true → s.on (hdrSrst (ctrlPage page)) = false →
    s.softRefuse (s.acts req priv) (ctrlPage page) = none →
    Ends (exec (.softReset req priv page) s) fun t =>
      t.get (hdrSrst (ctrlPage page)) = 1 ∧ t.get (hdrErrcode (ctrlPage page)) = 0 ∧ t.get (hdrErrcount (ctrlPage page)) = 0
      ∧ t.reg (4096 * ctrlPage page + 0x014) = 0 ∧ t.reg (4096 * ctrlPage page + 0x018) = 0
      ∧ ∀ m, m < 8 → t.reg (4096 * ctrlPage page + 0x040 + 4 * m) = 0)
  ∧ (∀ (s : State) (page : Nat), s.runs = true → page = 0x00 ∨ page = 0x02 ∨ page = 0x03 → s.on (hdrSrst page) = false →
    Ends (exec (.softReset .host false page) s) fun t =>
      t.get (hdrSeq page) = (s.get (hdrSeq page) + 1) % 2 ^ 32 ∧ t.reg (4096 * page + 0x008) = 3
      ∧ Keeps s t (fun a => a / 4096 = page ∧ a % 4096 < 0x100) [] [])
  ∧ (∀ (s : State) (page : Nat), s.runs = true → s.on (hdrSrst (ctrlPage page)) = true →
    (∀ x ∈ s.held, ctrlPage (x.addr / 4096) ≠ ctrlPage page) →
    Ends (exec (.softResetDone page) s) fun t =>
      t.get (hdrSrst (ctrlPage page)) = 0 ∧ Keeps s t (among [ctrlPage page * 4096 + 0x008]) [] [])
  ∧ (∀ (s : State) (page : Nat) (x : HeldWrite), s.runs = true → s.on (hdrSrst (ctrlPage page)) = true →
    s.held = [x] → ctrlPage (x.addr / 4096) = ctrlPage page →
    exec (.softResetDone page) s = exec (.registerWrite x.req x.priv x.addr x.val) ({ s with held := [] }.put (hdrSrst (ctrlPage page)) 0))
  ) ∧ (
  (∀ (s : State) (req : Req) (priv : Bool) (addr : Nat), s.runs = true → low64 addr = true →
    Ends (exec (.read64Low req priv addr) s) fun t =>
      (∃ x ∈ t.readShadow, x = ⟨req, addr, s.regView req (s.acts req priv) (addr + 4)⟩)
      ∧ (∀ (u : State) (pr : Bool), u.readShadow = t.readShadow → (u.regRead req pr (addr + 4)).2 = s.regView req (s.acts req priv) (addr + 4))
      ∧ (∀ x, x.req ≠ req → (x ∈ t.readShadow ↔ x ∈ s.readShadow))
      ∧ Keeps s t (among []) [] [.readShadow])
  ∧ (∀ (s : State) (req : Req) (addr : Nat) (v : W32), s.runs = true → low64 addr = true → mapped addr = true →
    s.on (hdrSrst (ctrlPage (addr / 4096))) = false →
    Ends (exec (.write64Low req addr v) s) fun t =>
      (∃ x ∈ t.writeShadow, x = ⟨req, addr, v⟩) ∧ (∀ x, x.req ≠ req → (x ∈ t.writeShadow ↔ x ∈ s.writeShadow))
      ∧ Keeps s t (among []) [] [.writeShadow])
  ∧ (∀ (s : State) (req : Req) (lo v : W32), s.runs = true → s.on (hdrSrst 0x03) = false → s.writeShadow = [⟨req, 0x3108, lo⟩] →
    Ends (exec (.write64High req 0x310C v) s) fun t =>
      t.reg 0x3108 = lo ∧ t.reg 0x310C = v ∧ t.writeShadow = [] ∧ t.get (hdrSeq 0x03) = (s.get (hdrSeq 0x03) + 1) % 2 ^ 32
      ∧ Keeps s t (among [0x3108, 0x310C, 0x3024]) [] [.writeShadow])
  ∧ (∀ (s : State) (req : Req) (p : Nat) (v : W32), s.runs = true → s.on (hdrSrst 0x03) = false → reqPage req = some p →
    (∀ x ∈ s.writeShadow, x.req ≠ req ∨ x.addr ≠ 0x3108) →
    Ends (exec (.write64High req 0x310C v) s) fun t => t.get (hdrErrcode p) = 0x05 ∧ Keeps s t (errRegs p) [] [])
  )

/-- A transaction before the link is released is answered 0x001B; unknown command bytes, transactions that end early and waits on the fabric record their
error; a lost marker, a frame's age and the end of an IRQ_N pulse have their effect; a tenon request chooses a version or is refused with 0x0019.
IRQ_PULSE_END and RING_AGE_TIMEOUT act at once where they apply (log entry 11). (R55, R56, R57, R59, R61, R68, R70, R75, R77) -/
def Obligations.LinkErrorsAndRingEvents : Prop :=
  (
  ∀ (s : State) (c : Instr),
    (c = .summary ∨ (∃ a n crc, c = .read a n crc) ∨ (∃ a n ws crc, c = .write a n ws crc) ∨ (∃ r bs, c = .push r bs)
      ∨ (∃ r a f n, c = .pull r a f n)) →
    s.boot.silent = false → s.mainDown = false → s.linkUp = false →
    Ends (exec c s) fun t => t.resp = [0xE1, 0x1B, 0x00] ++ s.linkCrc [0x1B, 0x00] ∧ Keeps s t (among []) [] [.resp]
  ) ∧ (
  (∀ (s : State) (b : Byte), s.served → linkCommands.contains b.toNat = false →
    Ends (exec (.unknownCommandByte b) s) fun t => t.resp = [] ∧ t.get (hdrErrcode 4) = 0x08 ∧ Keeps s t (errRegs 4) [] [.resp])
  ∧ (∀ (s : State) (cmd : Byte) (got : List Byte), s.served → linkCommands.contains cmd.toNat = true → cmd ≠ 0x6B →
    Ends (exec (.transactionEndedEarly cmd got) s) fun t => t.resp = [] ∧ t.get (hdrErrcode 4) = 0x1A ∧ Keeps s t (errRegs 4) [] [.resp])
  ∧ (∀ (s : State) (got : List Byte), s.served →
    Ends (exec (.transactionEndedEarly 0x6B got) s) fun t => t.resp = [] ∧ t.get F.HLK_LAST_REJ_CODE = 0x1A
      ∧ Keeps s t (fun a => among [F.HLK_LAST_REJ_CODE.addr, F.HLK_LAST_REJ_INFO_RING.addr] a ∨ errRegs 4 a ∨ irqRegs 4 2 a) [] [.resp])
  ∧ (∀ (s : State) (cmd : Byte), s.served → linkCommands.contains cmd.toNat = true →
    Ends (exec (.fabricWaitTimeout cmd) s) fun t =>
      t.resp = [0xE1, 0x1B, 0x00] ++ s.linkCrc [0x1B, 0x00] ∧ t.get (hdrErrcode 4) = 0x1B ∧ Keeps s t (errRegs 4) [] [.resp])
  ∧ (∀ (s : State) (n : Fin 65), s.h2d n = false → (s.ring n).lost ≠ 0 → (s.ring n).room (s.slots n) = true →
    Ends (exec (.lostMarker n) s) fun t =>
      (∃ f : Frame, (t.ring n).frames = (s.ring n).frames ++ [f] ∧ f.typ = 0xFE ∧ f.seq = (s.ring n).next
        ∧ f.payload = le 4 (s.ring n).lost ++ le 8 (s.ring n).lostFirst ++ le 8 (s.ring n).lostLast)
      ∧ (t.ring n).lost = 0 ∧ Keeps s t lostRegs [n] [])
  ∧ (∀ (s : State) (n : Fin 65), s.h2d n = false → (s.ring n).frames ≠ [] → s.get (F.HLKR_RING_IRQ_TIMEOUT n) ≠ 0 →
    Ends (exec (.ringAgeTimeout n) s) fun t => t.ring n = { s.ring n with aged := true } ∧ Keeps s t (among []) [n.val] [])
  ∧ (∀ s : State,
    Ends (exec .irqPulseEnd s) fun t => (t.conds = [] → t.irqLow = false ∧ t.irqPulse = false)
      ∧ (t.conds ≠ [] → t.irqLow = true ∨ t.irqPulse = true) ∧ Keeps s t (among []) [] [])
  ) ∧ (
  (∀ (s : State) (f : Frame), s.head 0 = some f → f.typ = 0xF0 → s.h2d 0 = true → s.h2d 1 = false → s.takes 1 →
    let v := chosenVersion (fieldLe f.payload 0 1) (fieldLe f.payload 1 1) (s.get F.HLK_TENON_VMAX_VMAX)
    v ≠ 0 →
    Ends (exec .tenonRequest s) fun t =>
      t.get F.HLK_LINK_VER = v % 4 ∧ t.on F.HLK_LINK_TENON_DONE = true ∧ t.reg A.HLK_HOST_CAPS = wordN (fieldLe f.payload 4 4)
      ∧ t.get (hdrPend 4 1) = 1
      ∧ (∀ n, n < 64 → s.h2d n = true → (t.ring n).next = 0)
      ∧ (∃ g : Frame, (t.ring 1).frames = (s.ring 1).frames ++ [g] ∧ g.typ = 0xF0 ∧ g.ref = some f.seq ∧ g.status = 0 ∧ g.ver = 1
        ∧ fieldLe g.payload 2 1 = v % 256 ∧ fieldLe g.payload 4 4 = s.epoch % 2 ^ 32)
      ∧ Keeps s t (fun a => among [F.HLK_LINK_VER.addr, A.HLK_HOST_CAPS] a ∨ irqRegs 4 1 a) ((List.range 64).filter fun n => s.h2d n || n = 1) [])
  ∧ (∀ (s : State) (f : Frame), s.head 0 = some f → f.typ = 0xF0 → s.takes 1 →
    chosenVersion (fieldLe f.payload 0 1) (fieldLe f.payload 1 1) (s.get F.HLK_TENON_VMAX_VMAX) = 0 →
    Ends (exec .tenonRequest s) fun t =>
      t.get (hdrErrcode 4) = 0x19
      ∧ (∃ g : Frame, (t.ring 1).frames = (s.ring 1).frames ++ [g] ∧ g.typ = 0xF0 ∧ g.ref = some f.seq ∧ g.status = 0x19)
      ∧ Keeps s t (errRegs 4) [0, 1] [])
  )

/-- SUMMARY answers the masks, EPOCH, the version and the flags; READ of system SRAM answers its bytes with the CRC; WRITE of system SRAM the host may
write stores exactly its words. (R39, R57, R58, R60, R62) -/
def Obligations.SummaryReadWrite : Prop :=
  (∀ s : State, s.served →
    Ends (exec .summary s) fun t =>
      (∃ flags : Nat, (flags.testBit 0 = true ↔ s.conds ≠ []) ∧ flags.testBit 1 = s.on F.HLK_LINK_TENON_DONE ∧ flags.testBit 2 = s.boot.bench ∧
        ∃ body, body = le 8 s.readyMask ++ le 8 s.fullMask ++ le 4 s.epoch ++ le 1 (s.get F.HLK_LINK_VER) ++ le 1 flags ∧ 
          t.resp = 0xA5 :: body ++ le 2 (crc16 body))
      ∧ Keeps s t (among []) [] [.resp])
  ∧ (∀ (s : State) (o n : Nat), s.served → 0x40000 ≤ o → o % 4 = 0 → 1 ≤ n → n ≤ 256 → o + 4 * n ≤ 0x100000 →
    let addr : W32 := BitVec.ofNat 32 (0x20000000 + o)
    let crc := ofLe (s.linkCrc (0x3C :: le 4 addr.toNat ++ le 2 n))
    Ends (exec (.read addr n crc) s) fun t =>
      t.resp = 0xA5 :: (le 2 0 ++ s.memBytes o (4 * n)) ++ s.linkCrc (le 2 0 ++ s.memBytes o (4 * n)) ∧ Keeps s t (among []) [] [.resp])
  ∧ (∀ (s : State) (o : Nat) (ws : List W32), s.served → s.on F.HLK_LINK_TENON_DONE = true → o % 4 = 0 → 1 ≤ ws.length → ws.length ≤ 256 →
      o + 4 * ws.length ≤ 0x100000 → (∀ i, i < 4 * ws.length → s.sramOwned (o + i) = false) →
    let addr : W32 := BitVec.ofNat 32 (0x20000000 + o)
    let data := ws.flatMap fun w => le 4 w.toNat
    let crc := ofLe (s.linkCrc (0x3D :: le 4 addr.toNat ++ le 2 ws.length ++ data))
    Ends (exec (.write addr ws.length ws crc) s) fun t =>
      t.resp = 0xA5 :: (le 2 0 ++ le 2 ws.length) ++ s.linkCrc (le 2 0 ++ le 2 ws.length)
      ∧ (∀ a, t.sramByte a = if o ≤ a ∧ a < o + 4 * ws.length then data.getD (a - o) 0 else s.sramByte a)
      ∧ Keeps s t (among []) [] [.resp, .sram])

/-- An accepted PUSH enters its ring with the next SEQ, a refused one records its code and changes no ring, a PULL answers the oldest frames, and an
acknowledgement frees every frame up to the named one. (R63, R64, R65, R66, R67) -/
def Obligations.PushAndPull : Prop :=
  (∀ (s : State) (ring : Byte) (bytes : List Byte), s.served →
    (∀ e f, f ∈ (s.ring e).frames → knownType e f.typ = true) → knownType ring.toNat (fieldLe bytes 3 1) = true →
    consumed (fieldLe bytes 0 2) ≤ bytes.length → s.pushCheck ring.toNat bytes = none →
    Ends (exec (.push ring bytes) s) fun t =>
      t.resp = 0xA5 :: (le 2 0 ++ le 2 (fieldLe bytes 4 2)) ++ s.linkCrc (le 2 0 ++ le 2 (fieldLe bytes 4 2))
      ∧ (∃ f : Frame, (t.ring ring.toNat).frames = (s.ring ring.toNat).frames ++ [f] ∧ f.typ = fieldLe bytes 3 1 ∧ f.seq = fieldLe bytes 4 2
          ∧ f.payload = (bytes.take (fieldLe bytes 0 2 - 4)).drop 16)
      ∧ (t.ring ring.toNat).next =
          (if ring = 0 ∧ fieldLe bytes 3 1 = 0xF0 then (s.ring ring.toNat).next else ((s.ring ring.toNat).next + 1) % 65536)
      ∧ Keeps s t (among []) [ring.toNat] [.resp])
  ∧ (∀ (s : State) (ring : Byte) (bytes : List Byte) (c : Nat), s.served → consumed (fieldLe bytes 0 2) ≤ bytes.length →
    s.pushCheck ring.toNat bytes = some c →
    Ends (exec (.push ring bytes) s) fun t =>
      t.resp = 0xA5 :: (le 2 c ++ le 2 (fieldLe bytes 4 2)) ++ s.linkCrc (le 2 c ++ le 2 (fieldLe bytes 4 2))
      ∧ t.get F.HLK_LAST_REJ_CODE = c % 65536 ∧ t.get (hdrErrcode 0x04) = c % 65536
      ∧ Keeps s t (fun a => among [F.HLK_LAST_REJ_CODE.addr, F.HLK_LAST_REJ_INFO_RING.addr, F.HLK_CRC_ERRS.addr] a ∨ errRegs 4 a ∨ irqRegs 4 2 a ∨ irqRegs 4 4 a)
          [] [.resp])
  ∧ (∀ (s : State) (ring ackSeq : Byte) (count e : Nat), s.served → s.on F.HLK_LINK_TENON_DONE = true → s.pullEntry ring.toNat = some e →
    1 ≤ count → count ≤ (if s.ver = 2 then 8 else 1) →
    Ends (exec (.pull ring ackSeq.toNat 0 count) s) fun t =>
      t.resp = 0xA5 :: (le 2 0 ++ ((s.ring e).frames.take count).flatMap (fun f => f.bytes ring.toNat) ++ le 2 0)
        ++ s.linkCrc (le 2 0 ++ ((s.ring e).frames.take count).flatMap (fun f => f.bytes ring.toNat) ++ le 2 0)
      ∧ Keeps s t (among []) [] [.resp])
  ∧ (∀ (s : State) (ring : Byte) (ackSeq count e : Nat) (held left : List Frame) (f : Frame), s.served → s.on F.HLK_LINK_TENON_DONE = true →
    s.pullEntry ring.toNat = some e → e ≠ 38 → 1 ≤ count → count ≤ (if s.ver = 2 then 8 else 1) → (s.ring e).lost = 0 →
    (s.ring e).frames = held ++ f :: left → (∀ g ∈ held, g.seq ≠ ackSeq) → f.seq = ackSeq →
    Ends (exec (.pull ring ackSeq 1 count) s) fun t =>
      (t.ring e).frames = left
      ∧ t.resp = 0xA5 :: (le 2 0 ++ (left.take count).flatMap (fun f => f.bytes ring.toNat) ++ le 2 0)
        ++ s.linkCrc (le 2 0 ++ (left.take count).flatMap (fun f => f.bytes ring.toNat) ++ le 2 0)
      ∧ Keeps s t (among []) [e] [.resp])

/-- With d the distance of SEQ from the expected one: d = 0 passes (or is refused 0x0016 with every slot full), 1 to 32,767 is refused with 0x0014, 32,768
to 65,535 with 0x0013. (R64, R65) -/
def Obligations.PushSequence : Prop :=
  ∀ (s : State) (n : Nat) (bytes : List Byte), s.on F.HLK_LINK_TENON_DONE = true → s.pushable n = true →
    ¬ (n = 0 ∧ fieldLe bytes 3 1 = 0xF0) →
    20 ≤ fieldLe bytes 0 2 → fieldLe bytes 0 2 % 4 = 0 → fieldLe bytes 0 2 ≤ s.slotSize n →
    trailerOk (bytes.take (fieldLe bytes 0 2)) = true → fieldLe bytes 2 1 = n → fieldLe bytes 15 1 = s.get F.HLK_LINK_VER →
    fieldLe bytes 8 4 = s.epoch → (s.ring n).next < 65536 →
    let d := (fieldLe bytes 4 2 + 65536 - (s.ring n).next) % 65536
    s.pushCheck n bytes = if d = 0 then (if s.slots n ≤ (s.ring n).frames.length then some 0x16 else none)
      else if d < 32768 then some 0x14 else some 0x13

/-- Run guards, monitor alarms, spare checks, stream alarms that clear, writes of CH_EN, the start test, test slots and a retried return comparison: what
each marks, counts, reports and reassigns. Analog verdicts are operands of the rows (log entry 65). (R87, R96, R99, R101, R105, R107, R108, R109,
R110) -/
def Obligations.AlarmsAndGuards : Prop :=
  (
  (∀ (s : State) (m : Fin 72), s.runs = true →
    Ends (exec (.runGuard m) s) fun t =>
      t.ms = { s.ms with guards := spWrite (fun _ => 0) s.ms.guards m.val (spRead (fun _ => 0) s.ms.guards m.val + 1) }
      ∧ t.get (hdrPend 0x10 4) = 1 ∧ Keeps s t (eventRegs 0x10 4) [2] [.ms])
  ∧ (∀ (s : State) (x : Fin 88) (bias : Bool), s.runs = true → 72 ≤ x.val → s.watched x = true → x.val ∉ s.ms.alarms →
    Ends (exec (.monitorAlarm x bias) s) fun t =>
      t.ms = { s.ms with alarms := s.ms.alarms ++ [x.val] } ∧ t.on (bitFld A.AFE_BSI_STAT (x.val - 72)) = true
      ∧ t.get (hdrPend 0x10 3) = 1 ∧ Keeps s t (fun a => a = A.AFE_BSI_STAT ∨ eventRegs 0x10 3 a) [2] [.ms])
  ∧ (∀ (s : State) (x : Fin 88), s.runs = true → x.val < 64 → s.watched x = true → x.val ∉ s.ms.alarms → s.spareFree (x.val / 8) = true →
    Ends (exec (.monitorAlarm x false) s) fun t =>
      t.ms.alarms = s.ms.alarms ++ [x.val] ∧ (t.group (x.val / 8)).phase = .check ∧ (t.group (x.val / 8)).unit = x.val
      ∧ (∀ g, g ≠ x.val / 8 → t.group g = s.group g) ∧ Keeps s t (fun a => a = A.AFE_TEST_STAT) [] [.ms, .rcm])
  ∧ (∀ (s : State) (x : Fin 88), s.runs = true → x.val < 64 → s.watched x = true → x.val ∉ s.ms.alarms → s.spareFree (x.val / 8) = true →
    Ends (exec (.monitorAlarm x true) s) fun t =>
      t.modFail x = true ∧ t.carried x = true ∧ t.get (hdrPend 0x10 0) = 1 ∧ Keeps s t (onPages [0x10, 0x13]) [2] [.ms, .cal, .rcm])
  ∧ (∀ (s : State) (x : Fin 88) (bias : Bool), s.runs = true → x.val < 72 → s.watched x = true → x.val ∉ s.ms.alarms →
    (x.val < 64 → s.spareFree (x.val / 8) = false) →
    Ends (exec (.monitorAlarm x bias) s) fun t =>
      t.ms.uncovered = s.ms.uncovered ++ [x.val] ∧ t.get (hdrPend 0x10 6) = 1 ∧ Keeps s t (eventRegs 0x10 6) [2] [.ms, .rcm])
  ∧ (∀ (s : State) (g : Fin 8), s.runs = true → (s.group g).phase = .check → (∀ m ∈ s.ms.uncovered, m / 8 ≠ g.val) →
    Ends (exec (.spareCheckVerdict g true) s) fun t =>
      (t.group g).phase = .idle ∧ t.get (hdrPend 0x10 2) = 1 ∧ (∀ m, t.modFail m = s.modFail m)
      ∧ Keeps s t (fun a => a = A.AFE_TEST_STAT ∨ eventRegs 0x10 2 a) [2] [.ms])
  ∧ (∀ (s : State) (g : Fin 8), s.runs = true → (s.group g).phase = .check → (s.group g).unit / 8 = g.val →
    Ends (exec (.spareCheckVerdict g false) s) fun t =>
      (t.group g).phase = .idle ∧ t.modFail (s.group g).unit = true ∧ t.carried (s.group g).unit = true ∧ t.get (hdrPend 0x10 0) = 1
      ∧ Keeps s t (onPages [0x10, 0x13]) [2] [.ms, .cal])
  ∧ (∀ (s : State) (x : Fin 88), s.runs = true → x.val ∈ s.ms.alarms → x.val < 72 →
    Ends (exec (.streamAlarmClear x) s) fun t =>
      t.ms = { s.ms with alarms := s.ms.alarms.filter (· != x.val), uncovered := s.ms.uncovered.filter (· != x.val) }
      ∧ Keeps s t lostRegs [2] [.ms])
  ∧ (∀ (s : State) (x : Fin 88), s.runs = true → x.val ∈ s.ms.alarms → 72 ≤ x.val →
    Ends (exec (.streamAlarmClear x) s) fun t =>
      x.val ∉ t.ms.alarms ∧ t.on (bitFld A.AFE_BSI_STAT (x.val - 72)) = false ∧ Keeps s t (fun a => a = A.AFE_BSI_STAT ∨ lostRegs a) [2] [.ms])
  ) ∧ (
  (∀ (s : State) (results : List OffLine), s.runs = true → s.on F.AFE_STATUS_START_TEST_DONE = false → results.length = 72 →
    Ends (exec (.afeStartTestDone results) s) fun t =>
      t.on F.AFE_STATUS_START_TEST_DONE = true ∧ t.get (hdrPend 0x10 5) = 1
      ∧ (∀ m (h : m < 64) (o : OffLine), results[m]? = some o → t.modFail m = !offLinePass o)
      ∧ Keeps s t (onPages [0x10, 0x11, 0x13]) [2] [.ms, .cal, .rcm])
  ∧ (∀ (s : State) (g : Fin 8) (run : SlotRun) (m : Nat), s.runs = true → s.enabled 0x10 = true → s.on F.AFE_STATUS_START_TEST_DONE = true →
    s.on F.AFE_TEST_CFG_EN = true → s.spareFail g = false → s.spareUsed g = false → (s.group g).phase = .idle → s.pf.warned = false →
    s.turnOf g = some m → run.touched = none →
    Ends (exec (.testSlot g run) s) fun t =>
      t.ms.stand = m :: s.ms.stand ∧ (t.group g).turn = (m + 1) % 8
      ∧ (offLinePass run.offline = true → shadowPass run.forward = true → shadowPass run.back = true →
          (t.group g).phase = .idle ∧ ∀ x, t.modFail x = s.modFail x)
      ∧ (offLinePass run.offline = false → t.modFail m = true ∧ t.get (hdrPend 0x10 0) = 1)
      ∧ (offLinePass run.offline = true → shadowPass run.forward = false → t.spareFail g = true ∧ t.get (hdrPend 0x10 1) = 1)
      ∧ Keeps s t (onPages [0x10, 0x13]) [2] [.ms, .cal])
  ∧ (∀ (s : State) (g : Fin 8) (back : List Int), s.runs = true → (s.group g).phase = .retry → shadowPass back = true → s.pf.warned = false →
    Ends (exec (.returnCompareRetry g back false) s) fun t =>
      (t.group g).phase = .idle ∧ (∀ i, i ≠ g.val → t.group i = s.group i) ∧ Keeps s t (fun a => a = A.AFE_TEST_STAT) [] [.ms])
  ∧ (∀ (s : State) (req : Req) (hi : Bool) (val : W32), s.runs = true → s.on (hdrSrst 0x10) = false →
    Ends (exec (.chEnWrite req hi val) s) fun t =>
      let base := if hi then 32 else 0
      (∀ i, i < 32 → t.chEn (base + i) = (val.toNat.testBit i && (s.chEn (base + i) || s.available (base + i))))
      ∧ ((∃ i, i < 32 ∧ val.toNat.testBit i = true ∧ s.chEn (base + i) = false ∧ s.available (base + i) = false) →
          t.get (hdrErrcode 0x10) = 0x20)
      ∧ Keeps s t (inPages [0x10, 0x11]) [] [.ms, .rcm])
  )

/-- Evaluations of the tracker, the end of holdover, the preload of an integrator, snapshots, replays, catch-up, handover and the end of a lane pause. The
number of samples bridged at an aged-out or reset replay is free (log entry 26). (R123, R124, R125, R135, R137, R138, R170, R171, R172, R173) -/
def Obligations.TrackerStates : Prop :=
  (
  (∀ s : State, s.runs = true → s.trk = trkHoldover → s.get F.DEC_TRACK_STAT_HOLD_LEFT = 0 →
    Ends (exec .holdoverExpiry s) fun t =>
      t.trk = trkFree ∧ t.ms = s.ms ∧ t.get (hdrPend 0x11 3) = 1
      ∧ Keeps s t (fun a => among [F.DEC_TRACK_STAT_STATE.addr, F.DEC_STATUS_LOCKED.addr] a ∨ eventRegs 0x11 3 a) [2] [.ms])
  ∧ (∀ (s : State) (meas : List RefMeas) (m : RefMeas) (silent : Nat), s.runs = true → s.trk = trkLocked →
    meas[s.get F.DEC_TRACK_STAT_REF_IDX]? = some m → m.lowHalf = true →
    Ends (exec (.trackerEvaluation meas silent) s) fun t =>
      t.trk = trkHoldover ∧ t.get F.DEC_TRACK_STAT_HOLD_LEFT = s.tHold ∧ t.get (hdrPend 0x11 1) = 1
      ∧ t.get F.DEC_INCR = s.get F.DEC_INCR ∧ Keeps s t (onPages [0x11]) [2] [.ms])
  ∧ (∀ (s : State) (m : RefMeas) (silent : Nat), s.runs = true → s.trk = trkFree → s.refEn 0 = true → 7 ≤ (s.ref 0).good →
    m.cycle = true → m.lowCycle = false → periodOk m.period = true → within m.period (s.ref 0).prev 5 = true →
    Ends (exec (.trackerEvaluation [m] silent) s) fun t =>
      t.trk = trkLocked ∧ t.get F.DEC_TRACK_STAT_REF_IDX = 0 ∧ t.on F.DEC_STATUS_LOCKED = true ∧ t.get (hdrPend 0x11 0) = 1
      ∧ Keeps s t (onPages [0x11]) [2] [.ms])
  ∧ (∀ (s : State) (meas : List RefMeas) (silent : Nat), s.trk = trkDisabled →
    Ends (exec (.trackerEvaluation meas silent) s) fun t => Keeps s t (among []) [] [])
  ∧ (∀ (s : State) (c : Fin 64) (mean : Int), s.runs = true → s.ms.live.testBit c = true → s.integ c = true →
    Ends (exec (.integratorPreload c mean) s) fun t =>
      spRead (fun _ => 0) t.ms.preload c.val = mean ∧ spRead (fun _ => 0) t.ms.fill c.val ≤ fillTime
      ∧ (∀ d, d ≠ c.val → spRead (fun _ => 0) t.ms.preload d = spRead (fun _ => 0) s.ms.preload d
          ∧ spRead (fun _ => 0) t.ms.fill d = spRead (fun _ => 0) s.ms.fill d)
      ∧ Keeps s t (among []) [] [.ms])
  ) ∧ (
  (∀ s : State, s.runs = true → s.enabled 0x11 = true → (∀ r, s.ms.waiting = some r → s.ms.snap + 1 < r.snap + 4) →
    Ends (exec .decSnapshot s) fun t => t.ms = { s.ms with snap := s.ms.snap + 1 } ∧ Keeps s t (among []) [] [.ms])
  ∧ (∀ (s : State) (r : Replay), s.runs = true → s.enabled 0x11 = true → s.ms.waiting = some r → r.snap + 4 ≤ s.ms.snap + 1 →
    Ends (exec .decSnapshot s) fun t =>
      t.ms.waiting = none ∧ t.get F.DEC_REPLAY_STAT_REFUSED = satInc (2 ^ F.DEC_REPLAY_STAT_REFUSED.wid - 1) (s.get F.DEC_REPLAY_STAT_REFUSED)
      ∧ t.get (hdrPend 0x11 6) = 1 ∧ Keeps s t (onPages [0x11, 0x12]) [2] [.ms, .fresh])
  ∧ (∀ (s : State) (r : Replay) (rest : List Replay) (a n : Nat), s.runs = true → s.ms.due = r :: rest → s.ms.snap < r.snap + 4 →
    s.ms.replay = none →
    Ends (exec (.replayRequest a n) s) fun t =>
      t.ms = { s.ms with due := rest, replay := some r, caught := false } ∧ t.mt = { s.mt with paused := some r.lane }
      ∧ t.on F.DEC_STATUS_REPLAY_BUSY = true ∧ Keeps s t (among [F.DEC_STATUS_REPLAY_BUSY.addr]) [] [.ms, .mt])
  ∧ (∀ (s : State) (r q : Replay) (rest : List Replay) (a n : Nat), s.runs = true → s.ms.due = r :: rest → s.ms.snap < r.snap + 4 →
    s.ms.replay = some q → s.ms.waiting = none →
    Ends (exec (.replayRequest a n) s) fun t =>
      t.ms = { s.ms with due := rest, waiting := some r } ∧ t.on F.DEC_STATUS_REPLAY_BUSY = true
      ∧ Keeps s t (among [F.DEC_STATUS_REPLAY_BUSY.addr]) [] [.ms])
  ∧ (∀ (s : State) (r : Replay) (a n pause : Nat), s.runs = true → s.ms.replay = some r → s.ms.caught = false →
    Ends (exec (.replayCatchUp a n pause) s) fun t =>
      t.ms.caught = true ∧ t.get F.MTR_LAST_DOVETAIL_KIND = 2 ∧ t.get F.MTR_LAST_DOVETAIL_BRIDGED = (a + n) % 2 ^ F.MTR_LAST_DOVETAIL_BRIDGED.wid
      ∧ t.get (hdrPend 0x12 2) = 1 ∧ Keeps s t (onPages [0x12]) [2] [.ms])
  ∧ (∀ s : State, s.runs = true → s.ms.replay.isSome = true → s.ms.caught = true →
    Ends (exec .replayHandover s) fun t =>
      t.ms = { s.ms with replay := s.ms.waiting, waiting := none, caught := false }
      ∧ t.mt = { s.mt with paused := s.ms.waiting.map Replay.lane } ∧ t.on F.DEC_STATUS_REPLAY_BUSY = s.ms.waiting.isSome
      ∧ Keeps s t (among [F.DEC_STATUS_REPLAY_BUSY.addr, F.DEC_REPLAY_STAT_DONE.addr]) [] [.ms, .mt])
  ∧ (∀ s : State, s.runs = true → s.ms.caught = true →
    Ends (exec .lanePauseEnd s) fun t => t.mt = { s.mt with paused := none } ∧ Keeps s t (among []) [] [.mt])
  )

/-- A result handed over with the expected batch ordinal and the lane epoch in force is accepted and counted, any other is refused and changes no total.
(R174, R175, R176) -/
def Obligations.ResultGate : Prop :=
  (∀ (s : State) (j : Fin 16) (r : BatchRes) (rest : List BatchRes) (epoch cycle batch : Nat), s.runs = true →
    (s.slot j).buf = r :: rest → epoch = s.get (laneEpochF j) → r.cycle = cycle → r.batch = batch → j.val < 12 → s.cal.noLegal = false →
    s.on F.MTR_LEGAL_STAT_LEGAL_OK = true →
    Ends (exec (.resultHandover j epoch cycle batch) s) fun t =>
      t.slot j = { s.slot j with buf := rest, handed := (s.slot j).handed ++ [r] } ∧ (∀ i, i ≠ j.val → t.slot i = s.slot i)
      ∧ (t.meter j).acc = (s.meter j).acc.add (sumInc Incr.dp r.incs) (sumInc Incr.dq r.incs) (sumInc Incr.ds r.incs)
      ∧ (∀ i, i ≠ j.val → t.meter i = s.meter i)
      ∧ Keeps s t (fun a => a = A.MTRK_ESTAT j ∨ lostRegs a) [3 + j.val] [.mt])
  ∧ (∀ (s : State) (j : Fin 16) (r : BatchRes) (rest : List BatchRes) (epoch cycle batch : Nat), s.runs = true →
    (s.slot j).buf = r :: rest → epoch = s.get (laneEpochF j) → r.cycle = cycle → r.batch = batch →
    (12 ≤ j.val ∨ s.cal.noLegal = true ∨ s.on F.MTR_LEGAL_STAT_LEGAL_OK = false) →
    Ends (exec (.resultHandover j epoch cycle batch) s) fun t =>
      t.slot j = { s.slot j with buf := rest, handed := (s.slot j).handed ++ [r] } ∧ (∀ i, i ≠ j.val → t.slot i = s.slot i)
      ∧ (∀ i, (t.meter i).acc = (s.meter i).acc) ∧ Keeps s t (among []) [] [.mt])
  ∧ (∀ (s : State) (j : Fin 16) (epoch cycle batch : Nat), s.runs = true →
    (∀ r rest, (s.slot j).buf = r :: rest → epoch ≠ s.get (laneEpochF j) ∨ r.cycle ≠ cycle ∨ r.batch ≠ batch) →
    Ends (exec (.resultHandover j epoch cycle batch) s) fun t =>
      t.get F.MTR_GATE_REFUSED = satInc (2 ^ 32 - 1) (s.get F.MTR_GATE_REFUSED) ∧ Keeps s t (among [F.MTR_GATE_REFUSED.addr]) [] [])

/-- An increment goes to the quadrant of its signs and to no other, NET less DEBT follows the signed active sum, and NET does not move while an import is
taken by DEBT or the sum is an export. (R185, R186, R187) -/
def Obligations.TotalsFollowTheSignedSums : Prop :=
  (∀ (a : Accs) (dp dq ds : Int), a.wh.length = 4 → a.varh.length = 4 → a.vah.length = 4 →
    let b := a.add dp dq ds
    (∀ i, i < 4 → b.wh.getD i 0 = if i = quadrant dp dq then (a.wh.getD i 0 + dp.natAbs) % 2 ^ 64 else a.wh.getD i 0)
    ∧ (∀ i, i < 4 → b.varh.getD i 0 = if i = quadrant dp dq then (a.varh.getD i 0 + dq.natAbs) % 2 ^ 64 else a.varh.getD i 0)
    ∧ (∀ i, i ≠ quadrant dp dq → b.vah.getD i 0 = a.vah.getD i 0))
  ∧ (∀ (a : Accs) (dp dq ds : Int), a.net < 2 ^ 64 → a.debt < 2 ^ 64 →
    (((a.add dp dq ds).net : Int) - (a.add dp dq ds).debt) % 2 ^ 64 = ((a.net : Int) - a.debt + dp) % 2 ^ 64)
  ∧ (∀ (a : Accs) (dp dq ds : Int), dp < 0 → (a.add dp dq ds).net = a.net)
  ∧ (∀ (a : Accs) (dp dq ds : Int), 0 ≤ dp → a.debt ≠ 0 → a.net < 2 ^ 64 → dp.toNat ≤ a.debt → (a.add dp dq ds).net = a.net)

/-- A failed lane's slot goes to a free spare or is marked, deadlines and single errors count, an audit's comparison decides between agreement, transient
and failed lane, and the self-tests mark what fails. Verdicts of comparisons and self-tests are operands (log entry 65). (R144, R163, R164, R165,
R166, R167, R168, R169) -/
def Obligations.LaneFailuresAndAudits : Prop :=
  (
  (∀ (s : State) (lane : Fin 18) (i j : Nat), s.runs = true → s.slotOf lane = some j → s.freeLane = some i → 16 + i ≠ lane.val →
    Ends (exec (.laneFault lane) s) fun t =>
      t.on (bitFld A.MTR_LANE_STAT lane) = true ∧ t.get (laneEpochF j) = (s.get (laneEpochF j) + 1) % 2 ^ 32 ∧ t.carrier j = some (16 + i)
      ∧ t.get F.MTR_DOVETAIL_CNT_LANE = satInc 65535 (s.get F.MTR_DOVETAIL_CNT_LANE) ∧ t.get F.MTR_LAST_DOVETAIL_KIND = 1
      ∧ t.get F.MTR_LAST_DOVETAIL_UNIT = lane ∧ t.get (hdrPend 0x12 (if lane.val < 16 then 0 else 1)) = 1 ∧ t.get (hdrPend 0x12 2) = 1
      ∧ (∀ x, x ≠ j → t.slot x = s.slot x) ∧ Keeps s t (onPages [0x12]) [2] [.mt])
  ∧ (∀ (s : State) (lane : Fin 18) (j : Nat), s.runs = true → s.slotOf lane = some j → s.freeLane = none →
    Ends (exec (.laneFault lane) s) fun t =>
      t.on (bitFld A.MTR_LANE_STAT lane) = true ∧ t.get (laneEpochF j) = (s.get (laneEpochF j) + 1) % 2 ^ 32 ∧ (t.slot j).stopped = true
      ∧ (t.slot j).buf = [] ∧ t.get (hdrPend 0x12 (if lane.val < 16 then 0 else 1)) = 1 ∧ t.get (hdrPend 0x12 4) = 1 ∧ (j < 12 → t.on (F.MTRK_QSTAT_VALID j) = false)
      ∧ (∀ x, x ≠ j → t.slot x = s.slot x) ∧ Keeps s t (onPages [0x0A, 0x12, 0x20 + j]) [2, 38] [.mt, .legal])
  ∧ (∀ (s : State) (lane : Fin 18), s.runs = true → lane.val < 16 → s.slotOf lane = none →
    Ends (exec (.laneFault lane) s) fun t => Keeps s t (among []) [] [])
  ∧ (∀ (s : State) (lane : Fin 18), s.runs = true → 16 ≤ lane.val → s.slotOf lane = none → s.on (spareLaneFailF (lane - 16)) = false →
    Ends (exec (.laneFault lane) s) fun t =>
      t.on (spareLaneFailF (lane - 16)) = true ∧ t.on (spareLaneUsedF (lane - 16)) = false ∧ t.get (hdrPend 0x12 1) = 1
      ∧ (∀ x, t.slot x = s.slot x) ∧ Keeps s t (fun a => a = A.MTR_LANE_STAT ∨ a = A.MTR_LANE_MAP ∨ eventRegs 0x12 1 a) [2] [.mt])
  ∧ (∀ (s : State) (slot : Fin 16) (lane : Fin 18), s.runs = true → s.carrier slot = some lane.val → (s.slot slot).buf ≠ [] →
    exec (.batchDeadline slot) s = exec (.laneFault lane) s)
  ∧ (∀ (s : State) (slot : Fin 16) (i : Nat), s.runs = true → s.carrier slot = some slot.val → (s.slot slot).buf ≠ [] → s.freeLane = some i →
    Ends (exec (.batchDeadline slot) s) fun t =>
      t.on (bitFld A.MTR_LANE_STAT slot) = true ∧ t.carrier slot = some (16 + i) ∧ t.get (hdrPend 0x12 2) = 1
      ∧ Keeps s t (onPages [0x12]) [2] [.mt])
  ∧ (∀ (s : State) (slot : Fin 16), s.runs = true → (s.slot slot).buf = [] →
    Ends (exec (.batchDeadline slot) s) fun t => Keeps s t (among []) [] [])
  ∧ (∀ (s : State) (lane : Fin 18), s.runs = true →
    Ends (exec (.eccSingleError lane) s) fun t =>
      t.mt = { s.mt with eccSingle := spWrite (fun _ => 0) s.mt.eccSingle lane.val (spRead (fun _ => 0) s.mt.eccSingle lane.val + 1) }
      ∧ Keeps s t (among []) [] [.mt])
  ) ∧ (
  (∀ (s : State) (i : Fin 2) (a : Audit), s.runs = true → s.mt.audits.find? (fun x => x.spare == i.val && !x.testing) = some a →
    Ends (exec (.auditCompare i true) s) fun t =>
      a ∉ t.mt.audits ∧ t.on (auditingF i) = false ∧ t.get F.MTR_AUDIT_CNT_AUDITS = satInc 65535 (s.get F.MTR_AUDIT_CNT_AUDITS)
      ∧ Keeps s t (among [F.MTR_AUDIT_CNT_AUDITS.addr, A.MTR_LANE_STAT]) [] [.mt])
  ∧ (∀ (s : State) (i : Fin 2) (a : Audit), s.runs = true → s.mt.audits.find? (fun x => x.spare == i.val && !x.testing) = some a →
    Ends (exec (.auditCompare i false) s) fun t =>
      t.mt.audits = (s.mt.audits.map fun x => if x = a then { x with testing := true } else x) ∧ t.get F.MTR_AUDIT_CNT_AUDITS = satInc 65535 (s.get F.MTR_AUDIT_CNT_AUDITS)
      ∧ t.get F.MTR_AUDIT_CNT_MISMATCH = satInc 255 (s.get F.MTR_AUDIT_CNT_MISMATCH) ∧ t.get (hdrPend 0x12 3) = 1
      ∧ Keeps s t (fun x => x = F.MTR_AUDIT_CNT_AUDITS.addr ∨ eventRegs 0x12 3 x) [2] [.mt])
  ∧ (∀ (s : State) (i : Fin 2) (a : Audit), s.runs = true → s.mt.audits.find? (fun x => x.spare == i.val && x.testing) = some a → a.lane < 16 →
    Ends (exec (.auditSelfTestDone i false true) s) fun t =>
      a ∉ t.mt.audits ∧ t.on (bitFld A.MTR_LANE_STAT a.lane) = true ∧ t.on (spareLaneUsedF i) = true
      ∧ (t.carrier a.lane = some (16 + i.val) ∨ (i.val = 1 ∧ s.on F.MTR_LANE_MAP_S16_VALID = true ∧ s.get F.MTR_LANE_MAP_S16_SLOT = a.lane))
      ∧ t.get (laneEpochF a.lane) = (s.get (laneEpochF a.lane) + 1) % 2 ^ 32 ∧ Keeps s t (onPages [0x12]) [2] [.mt])
  ∧ (∀ (s : State) (i : Fin 2) (a : Audit), s.runs = true → s.mt.audits.find? (fun x => x.spare == i.val && x.testing) = some a →
    Ends (exec (.auditSelfTestDone i true false) s) fun t =>
      a ∉ t.mt.audits ∧ t.on (spareLaneFailF i) = true ∧ t.get (hdrPend 0x12 1) = 1 ∧ (∀ j, t.slot j = s.slot j)
      ∧ Keeps s t (fun x => x = A.MTR_LANE_STAT ∨ x = A.MTR_LANE_MAP ∨ eventRegs 0x12 1 x) [2] [.mt])
  ∧ (∀ (s : State) (i : Fin 2) (a : Audit), s.runs = true → s.mt.audits.find? (fun x => x.spare == i.val && x.testing) = some a → a.lane < 16 →
    Ends (exec (.auditSelfTestDone i true true) s) fun t =>
      a ∉ t.mt.audits ∧ t.get F.MTR_AUDIT_CNT_TRANSIENT = satInc 255 (s.get F.MTR_AUDIT_CNT_TRANSIENT)
      ∧ t.get (laneEpochF a.lane) = (s.get (laneEpochF a.lane) + 1) % 2 ^ 32 ∧ (t.slot a.lane).ctxEpoch = t.get (laneEpochF a.lane)
      ∧ Keeps s t (fun x => x = F.MTR_AUDIT_CNT_TRANSIENT.addr ∨ x = A.MTR_LANE_STAT ∨ x = (laneEpochF a.lane).addr) [] [.mt])
  ∧ (∀ (s : State) (i : Fin 2) (a : Audit), s.runs = true → s.mt.audits.find? (fun x => x.spare == i.val && x.testing) = some a → a.lane < 16 →
    Ends (exec (.auditSelfTestDone i false false) s) fun t =>
      a ∉ t.mt.audits ∧ t.on (bitFld A.MTR_LANE_STAT a.lane) = true ∧ t.on (spareLaneFailF i) = true ∧ t.get (hdrPend 0x12 0) = 1
      ∧ t.get (hdrPend 0x12 1) = 1 ∧ Keeps s t (onPages [0x0A, 0x12, 0x20 + a.lane]) [2, 38] [.mt, .legal])
  ∧ (∀ (s : State) (passed : List Bool), s.runs = true → s.on F.MTR_STATUS_START_TEST_DONE = false → passed.length = 18 →
    Ends (exec (.mtrStartTestDone passed) s) fun t =>
      t.on F.MTR_STATUS_START_TEST_DONE = true ∧ (∀ j, j < 16 → t.on (bitFld A.MTR_LANE_STAT j) = (passed[j]? == some false))
      ∧ (∀ i, i < 2 → t.on (spareLaneFailF i) = (passed[16 + i]? == some false))
      ∧ (∀ j, j < 16 → passed[j]? = some true → t.carrier j = some j)
      ∧ (∀ j, j < 16 → passed[16]? = some true → passed[j]? = some false → (∀ x, x < j → passed[x]? = some true) → t.carrier j = some 16)
      ∧ Keeps s t (onPages [0x0A, 0x12, 0x20, 0x21, 0x22, 0x23, 0x24, 0x25, 0x26, 0x27, 0x28, 0x29, 0x2A, 0x2B]) [2, 38] [.mt, .legal])
  )

/-- An output sample enters the histories and the batch count, a cycle boundary moves the tables and counters, a batch made ready starts every slot and
lets couches fall due, reads of QSTAT and SNAP_SEQ freeze their words, and pulse stages start, end and enable. (R131, R133, R143, R161, R194, R195,
R197, R211, R212, R213, R214, R216) -/
def Obligations.SamplesCyclesAndBatches : Prop :=
  (
  (∀ (s : State) (req : Req) (k : Fin 12), s.runs = true →
    Ends (exec (.qstatRead req k) s) fun t =>
      (∃ f ∈ t.mt.frozen, f.req = req ∧ f.snap = false ∧ f.outlet = k.val ∧
        ∀ o, 0x110 ≤ o → o ≤ 0x2FC → spRead resetWord f.words (0x20000 + 4096 * k.val + o) = s.reg (0x20000 + 4096 * k.val + o))
      ∧ (∀ f, (f.req ≠ req ∨ f.snap = true ∨ f.outlet ≠ k.val) → (f ∈ t.mt.frozen ↔ f ∈ s.mt.frozen)) ∧ Keeps s t (among []) [] [.mt])
  ∧ (∀ (s : State) (req : Req) (k : Fin 12), s.runs = true →
    Ends (exec (.snapSeqRead req k) s) fun t =>
      (∃ f ∈ t.mt.frozen, f.req = req ∧ f.snap = true ∧ f.outlet = k.val ∧
        ∀ o, 0x404 ≤ o → o ≤ 0x41C → spRead resetWord f.words (0x20000 + 4096 * k.val + o) = s.reg (0x20000 + 4096 * k.val + o))
      ∧ (∀ f, (f.req ≠ req ∨ f.snap = false ∨ f.outlet ≠ k.val) → (f ∈ t.mt.frozen ↔ f ∈ s.mt.frozen)) ∧ Keeps s t (among []) [] [.mt])
  ∧ (∀ (s : State) (n : Fin 16), s.runs = true → s.enabled 0x15 = true → s.on (F.PLS_STG_CFG_EN n) = true → s.on (F.PLS_STG_STAT_ACTIVE n) = false →
    s.get (F.PLS_STG_STAT_PENDING n) ≠ 0 → us500 ≤ (s.stage n).since →
    Ends (exec (.pulseStart n) s) fun t =>
      t.get (F.PLS_STG_STAT_PENDING n) = s.get (F.PLS_STG_STAT_PENDING n) - 1 ∧ t.on (F.PLS_STG_STAT_ACTIVE n) = true
      ∧ t.get (F.PLS_STG_COUNT n) = (s.get (F.PLS_STG_COUNT n) + 1) % 2 ^ 32 ∧ (t.stage n).pin = (!s.on (F.PLS_STG_CFG_POL n))
      ∧ (t.stage n).since = 0 ∧ (t.stage n).e = (s.stage n).e ∧ (∀ m, m ≠ n.val → t.stage m = s.stage m)
      ∧ Keeps s t (among [(F.PLS_STG_STAT_PENDING n).addr, (F.PLS_STG_COUNT n).addr]) [] [.mt])
  ∧ (∀ (s : State) (n : Fin 16), s.runs = true → s.get (F.PLS_STG_COUNT n) ≠ 0 → (s.stage n).since < us500 →
    Ends (exec (.pulseStart n) s) fun t => Keeps s t (among []) [] [])
  ∧ (∀ (s : State) (n : Fin 16), s.runs = true → s.on (F.PLS_STG_STAT_ACTIVE n) = true →
    Ends (exec (.pulseEnd n) s) fun t =>
      t.on (F.PLS_STG_STAT_ACTIVE n) = false
      ∧ (t.stage n).pin = (s.enabled 0x15 && s.on (F.PLS_STG_CFG_EN n) && s.on (F.PLS_STG_CFG_POL n))
      ∧ (∀ m, m ≠ n.val → t.stage m = s.stage m) ∧ Keeps s t (among [(F.PLS_STG_STAT_ACTIVE n).addr]) [] [.mt])
  ∧ (∀ (s : State) (n : Fin 16), s.runs = true → s.on (F.PLS_STG_CFG_EN n) = false →
    Ends (exec (.plsStageEnable n) s) fun t =>
      t.on (F.PLS_STG_CFG_EN n) = true ∧ t.get (F.PLS_STG_COUNT n) = 0 ∧ t.get (F.PLS_STG_STAT_PENDING n) = 0 ∧ t.get (F.PLS_STG_STAT_DROPPED n) = 0
      ∧ (t.stage n).e = 0 ∧ (t.stage n).r = 0 ∧ t.get (hdrSeq 0x15) = (s.get (hdrSeq 0x15) + 1) % 2 ^ 32 ∧ (∀ m, m ≠ n.val → t.stage m = s.stage m)
      ∧ Keeps s t (among [(F.PLS_STG_CFG_EN n).addr, (F.PLS_STG_STAT_PENDING n).addr, (F.PLS_STG_COUNT n).addr, 0x15024]) [] [.mt])
  ) ∧ (
  (∀ (s : State) (values w v : List Int), s.runs = true → s.enabled 0x11 = true → s.ms.idx < 256 →
    Ends (exec (.outputSample values w v) s) fun t =>
      t.ms.idx = s.ms.idx + 1 ∧ t.mt.total = s.mt.total + 1 ∧ t.ms.acc = (s.ms.acc + s.get F.DEC_INCR) % 2 ^ 36
      ∧ (∀ c, s.ms.live.testBit c = false → t.histOf c = s.histOf c)
      ∧ (∀ c, c < 64 → s.ms.live.testBit c = true → ∃ h, t.histOf c = (h :: s.histOf c).take 512 ∧ h.tags.testBit 1 = s.on (settleF c)
          ∧ h.tags.testBit 2 = decide (s.trk ≠ trkLocked) ∧ h.tags.testBit 4 = decide (sat24 (values.getD c 0) ≠ values.getD c 0))
      ∧ (∀ k, (t.meter k).acc = (s.meter k).acc) ∧ Keeps s t (onPages [0x11, 0x12, 0x15]) [2] [.ms, .mt, .pq, .sram])
  ∧ (∀ (s : State), s.runs = true → s.enabled 0x11 = true → s.ms.idx = 256 → (∀ p ∈ s.cal.nextGain, p.1 < 64) →
    Ends (exec .cycleBoundary s) fun t =>
      t.ms.idx = 0 ∧ t.get F.DEC_CYCLE_CNT = (s.get F.DEC_CYCLE_CNT + 1) % 2 ^ 32 ∧ t.cal.noLegal = t.on F.CAL_STATUS_JIG
      ∧ t.cal.live = (if t.on F.CAL_STATUS_JIG then t.cal.pend else t.cal.active) ∧ t.ms.stand = [] ∧ t.ms.standPrev = s.ms.stand
      ∧ (∀ k, (t.meter k).acc = (s.meter k).acc)
      ∧ Keeps s t (onPages ([0x0A, 0x11, 0x13, 0x14] ++ List.range' 0x20 12)) [2, 38, 48] [.ms, .mt, .cal, .pq, .legal])
  ∧ (∀ (s : State), s.runs = true → s.enabled 0x11 = true → s.enabled 0x12 = true → s.mt.readied = 0 → 16 ≤ s.mt.total →
    Ends (exec .batchReady s) fun t =>
      t.mt.readied = 1 ∧ (∀ j, j < 16 → (s.slotOwns j = true ∧ (s.slot j).stopped = false ∧ (s.carrier j).isSome = true) →
        ∃ r, (t.slot j).buf = (s.slot j).buf ++ [r] ∧ r.cycle = 0 ∧ r.batch = 0)
      ∧ (∀ k, (t.meter k).acc = (s.meter k).acc) ∧ Keeps s t (onPages (0x12 :: List.range' 0x20 12)) [2] [.mt])
  ∧ (∀ (s : State), s.runs = true → s.enabled 0x11 = true → s.enabled 0x12 = true → s.mt.readied ≠ 0 → 16 * (s.mt.readied + 1) ≤ s.mt.total →
    s.mt.couching = none →
    Ends (exec .batchReady s) fun t =>
      t.mt.readied = s.mt.readied + 1 ∧ (∀ k, (t.meter k).acc = (s.meter k).acc)
      ∧ (s.mt.readied % 16 ≠ 8 → s.mt.readied % 16 ≠ 0 → t.mt.couching = none)
      ∧ (s.mt.readied % 16 = 8 ∨ s.mt.readied % 16 = 0 → (∀ j, (s.slot j).handed = []) → s.mt.harmNext = [] → t.mt.couching.isSome = s.couchable)
      ∧ Keeps s t (fun a => onPages ([0x0A, 0x12, 0x15, 0x1A] ++ List.range' 0x20 12) a
            ∨ (∃ j, ∃ r ∈ (s.slot j).handed, ∃ w ∈ r.words, w.1 = a) ∨ ∃ w ∈ s.mt.harmNext, w.1 = a)
          (2 :: 38 :: List.range' 3 12) [.mt, .legal, .se, .lm])
  ∧ (∀ (s : State), s.runs = true → s.mt.total < 16 * (s.mt.readied + 1) →
    Ends (exec .batchReady s) fun t => Keeps s t (among []) [] [])
  )

/-- A couch that completes writes the copy it has to and its time; MTR[k].CTRL.ENABLE is accepted or refused by the conditions of R182 and R189. (R182,
R189, R193, R196, R197, R198, R199) -/
def Obligations.CouchesAndMeterEnables : Prop :=
  (∀ (s : State) (r : LegalRec) (time : Nat), s.runs = true → s.mt.couching = some r → s.get F.SEA_TOTALS_REQ_OUT = 0 →
    (s.pf.warned = true ∨ (s.se.meters = [] ∧ ∀ k, k < 12 → s.ses k = sesIdle)) →
    Ends (exec (.couchComplete time) s) fun t =>
      t.mt.couching = none ∧ t.mt.lastB = (!s.mt.lastB) ∧ (if t.mt.lastB then t.mt.copyB else t.mt.copyA) = some r
      ∧ (if t.mt.lastB then t.mt.copyA = s.mt.copyA else t.mt.copyB = s.mt.copyB)
      ∧ t.reg A.MTR_COUCH_SEQ = wordN r.seq ∧ t.reg A.MTR_COUCH_CYC = wordN r.cycle
      ∧ t.get F.MTR_COUCH_MAX_TIME = max (s.get F.MTR_COUCH_MAX_TIME) (min 0xFFFF time)
      ∧ (∀ k, k < 12 → t.reg (A.MTRK_SNAP_SEQ k) = wordN r.seq ∧ t.reg (A.MTRK_SNAP_WH_IMP k) = wordN ((r.acc k).imp / 1000)
          ∧ t.reg (A.MTRK_SNAP_WH_EXP k) = wordN ((r.acc k).exp / 1000) ∧ t.reg (A.MTRK_SNAP_NET k) = wordN ((r.acc k).net / 1000))
      ∧ (∀ k, (t.meter k).acc = (s.meter k).acc) ∧ (r.flags.testBit 0 = false → t.legal = s.legal)
      ∧ Keeps s t (onPages ([0x08, 0x0A, 0x12] ++ List.range' 0x20 12)) [2, 38] [.mt, .nv, .se, .legal])
  ∧ (∀ (s : State) (time : Nat), s.runs = true → s.mt.couching = none →
    Ends (exec (.couchComplete time) s) fun t => Keeps s t (among []) [] [])
  ∧ (∀ (s : State) (req : Req) (k : Fin 12), s.runs = true → s.enabled 0x12 = true → s.get (F.MTRK_IB_IB k) ≠ 0 →
    s.on F.MTR_LEGAL_STAT_LEGAL_OK = true → s.on F.CAL_STATUS_SHIM_OK = true → s.enabled (0x20 + k) = false →
    Ends (exec (.mtrEnableWrite req k true) s) fun t =>
      t.enabled (0x20 + k) = true ∧ t.get (F.MTRK_ESTAT_RUNNING k) = 0 ∧ t.on (F.MTRK_QSTAT_VALID k) = false ∧ (t.meter k).waitCycle = true
      ∧ (t.meter k).acc = (s.meter k).acc ∧ (∀ j, j ≠ k.val → t.meter j = s.meter j)
      ∧ t.get (hdrSeq (0x20 + k)) = (s.get (hdrSeq (0x20 + k)) + 1) % 2 ^ 32
      ∧ Keeps s t (among [(0x20 + k) * 4096 + 0x008, (0x20 + k) * 4096 + 0x024, A.MTRK_ESTAT k, A.MTRK_QSTAT k]) [] [.mt])
  ∧ (∀ (s : State) (req : Req) (k : Fin 12), s.runs = true →
    (s.enabled 0x12 = false ∨ s.get (F.MTRK_IB_IB k) = 0 ∨ s.on F.MTR_LEGAL_STAT_LEGAL_OK = false ∨ s.on F.CAL_STATUS_SHIM_OK = false) →
    Ends (exec (.mtrEnableWrite req k true) s) fun t =>
      t.get (hdrErrcode (0x20 + k)) = (if s.enabled 0x12 = false ∨ s.get (F.MTRK_IB_IB k) = 0 then 0x1E
        else if s.on F.MTR_LEGAL_STAT_LEGAL_OK = false then 0x21 else 0x35)
      ∧ Keeps s t (errRegs (0x20 + k)) [] [])
  ∧ (∀ (s : State) (req : Req) (k : Fin 12), s.runs = true → s.on (F.BAYK_STATE_CLOSED k) = true →
    Ends (exec (.mtrEnableWrite req k false) s) fun t => t.get (hdrErrcode (0x20 + k)) = 0x1E ∧ Keeps s t (errRegs (0x20 + k)) [] [])
  ∧ (∀ (s : State) (req : Req) (k : Fin 12), s.runs = true → s.on (F.BAYK_STATE_CLOSED k) = false → s.ses k = sesIdle →
    Ends (exec (.mtrEnableWrite req k false) s) fun t =>
      t.enabled (0x20 + k) = false ∧ (s.enabled (0x20 + k) = true → t.get (F.MTRK_ESTAT_RUNNING k) = 0 ∧ t.on (F.MTRK_QSTAT_VALID k) = false)
      ∧ Keeps s t (among [(0x20 + k) * 4096 + 0x008, (0x20 + k) * 4096 + 0x024, A.MTRK_ESTAT k, A.MTRK_QSTAT k]) [] [])

/-- The warning drops the outputs and stops new work, the wait ends, the cut-off closes the batch and makes the final couch fall due, the halt stops the
device and a last-chance couch completes. (R201, R202, R203, R204, R205, R206) -/
def Obligations.PowerFailure : Prop :=
  (∀ (s : State), s.pf.armed = true → s.pf.warned = false → s.pf.halted = false →
    Ends (exec .powerFailWarning s) fun t =>
      t.pf = { s.pf with warned := true, couches := s.couchable, warnTs := s.ts, closed := s.closedNow, confirmed := 0 }
      ∧ (∀ k, t.outHigh k = false) ∧ t.get F.BAY_HW_HOLD_PF = 1 ∧ t.nv.jobs = [])
  ∧ (∀ (s : State), s.pf.armed = true → s.pf.warned = false → s.pf.halted = false → s.nv.jobs = [] →
    Ends (exec .powerFailWarning s) fun t =>
      (s.get F.RST_PWR_STAT_STATE = 2 → t.get F.RST_PWR_STAT_STATE = 1) ∧ t.se.queue = s.se.queue.take 1 ∧ t.se.meters = []
      ∧ Keeps s t (onPages [0x01, 0x16, 0x17, 0x1C, 0x1E]) (2 :: List.range' 3 12) [.pf, .outlets, .rcm, .nv, .se, .lcd, .plc, .msh, .fresh])
  ∧ (∀ (s : State), s.runs = true → s.pf.warned = true → s.pf.couches = true → s.pf.waitEnded = false →
    Ends (exec (.pfWaitEnd true) s) fun t =>
      t.pf = { s.pf with waitEnded := true, wait := 400, timeout := true } ∧ Keeps s t (among []) [] [.pf])
  ∧ (∀ (s : State), s.runs = true → s.pf.warned = true → s.pf.couches = true → s.pf.waitEnded = false →
    Nat.land s.pf.closed s.pf.confirmed = s.pf.closed →
    Ends (exec (.pfWaitEnd false) s) fun t =>
      t.pf.waitEnded = true ∧ t.pf.timeout = false ∧ (s.pf.closed = 0 → t.pf.wait = 0) ∧ t.pf.wait ≤ 400
      ∧ t.pf = { s.pf with waitEnded := true, wait := t.pf.wait, timeout := false } ∧ Keeps s t (among []) [] [.pf])
  ∧ (∀ (s : State), s.runs = true → s.pf.waitEnded = true → s.pf.cutoff = false → s.mt.couching = none →
    Ends (exec .pfCutoff s) fun t =>
      t.pf = { s.pf with cutoff := true }
      ∧ (∃ r, t.mt.couching = some r ∧ r.flags.testBit 0 = true ∧ r.flags.testBit 1 = false ∧ r.pfWait = s.pf.wait
          ∧ ∀ k, k < 12 → r.acc k = (t.meter k).acc)
      ∧ (∀ k, k < 12 → s.enabled (0x20 + k) = false → (t.meter k).acc = (s.meter k).acc)
      ∧ Keeps s t (onPages (List.range' 0x20 12)) (List.range' 3 12) [.pf, .mt, .fresh])
  ∧ (∀ (s : State), s.pf.warned = true → s.mainDown = false → (s.pf.couches = false ∨ (s.pf.cutoff = true ∧ s.mt.couching = none)) →
    Ends (exec .halt s) fun t =>
      t.pf = { s.pf with halted := true } ∧ t.get F.RST_PWR_STAT_STATE = 3 ∧ t.runs = false ∧ (∀ k, t.outHigh k = false)
      ∧ (∀ a, keptReg a = true → t.reg a = s.reg a) ∧ t.get F.SEA_SESS_STAT_FAILS = s.get F.SEA_SESS_STAT_FAILS ∧ t.ts = s.ts
      ∧ t.tam = s.tam ∧ t.mt.copyA = s.mt.copyA ∧ t.mt.copyB = s.mt.copyB ∧ t.legal.log = s.legal.log ∧ t.nv.felt = s.nv.felt
      ∧ t.nv.flash = s.nv.flash ∧ t.boot.fuse = s.boot.fuse ∧ t.pending = s.pending)
  ∧ (∀ (s : State), s.pf.warned = true → s.mainDown = false → s.pf.couches = true →
    Ends (exec .lastChanceCouch s) fun t =>
      (∃ r, (if t.mt.lastB then t.mt.copyB else t.mt.copyA) = some r ∧ r.flags = 2 ∧ ∀ k, k < 12 → r.acc k = (s.meter k).acc)
      ∧ t.pf.halted = true ∧ t.runs = false ∧ (∀ a, keptReg a = true → t.reg a = s.reg a) ∧ t.ts = s.ts ∧ t.tam = s.tam
      ∧ t.legal.log = s.legal.log ∧ t.nv.felt = s.nv.felt ∧ t.nv.flash = s.nv.flash)

/-- Power-on, power-on reset, backup power-on and pin reset return what they reset and keep what they keep; the loss of the reference and of the 32.768
kHz oscillator have their effect. State the spec gives no reset value for follows log entries 4, 9 and 10. (R545, R546, R547, R548, R566, R567) -/
def Obligations.ResetsAndWhatTheyKeep : Prop :=
  (∀ (s : State), s.boot.off = false →
    Ends (exec .powerOnReset s) fun t =>
      t.boot.off = true ∧ t.boot.starting = false ∧ t.runs = false ∧ t.linkUp = false ∧ t.rings = [] ∧ t.pf = {} ∧ t.get F.RST_CAUSE_POR = 1
      ∧ t.get F.RST_CAUSE_PIN = 0 ∧ t.on F.RST_CAUSE_FROM_HALT = s.pf.halted ∧ (∀ a, keptReg a = true → t.reg a = s.reg a)
      ∧ t.get F.SEA_SESS_STAT_FAILS = s.get F.SEA_SESS_STAT_FAILS ∧ t.ts = s.ts ∧ t.tam = s.tam ∧ t.boot.fuse = s.boot.fuse
      ∧ t.boot.rsram = s.boot.rsram ∧ t.legal.log = s.legal.log ∧ t.nv.felt = s.nv.felt ∧ t.sl.kek = s.sl.kek ∧ t.pending = s.pending)
  ∧ (∀ (s : State), s.boot.off = true →
    Ends (exec .backupPowerOn s) fun t =>
      t.ts = 0 ∧ t.tam = {} ∧ t.sl.kek = none ∧ t.boot.rsram = [] ∧ t.boot.bk = none ∧ t.get F.RST_CAUSE_BACKUP_POR = 1
      ∧ t.get F.SEA_SESS_STAT_FAILS = 0 ∧ (∀ a, keptReg a = true → t.reg a = resetWord a)
      ∧ Keeps s t (fun a => keptReg a = true ∨ a = F.SEA_SESS_STAT_FAILS.addr ∨ a = F.RST_CAUSE_BACKUP_POR.addr) []
          [.ts, .trimPhase, .tam, .sl, .nv, .boot])
  ∧ (∀ (s : State), s.boot.off = true →
    Ends (exec .powerOn s) fun t =>
      t.boot.off = false ∧ t.boot.starting = true ∧ t.runs = true ∧ t.linkUp = false ∧ t.rings = [] ∧ t.get F.RST_CAUSE_POR = 1
      ∧ t.on F.RST_CAUSE_BACKUP_POR = s.on F.RST_CAUSE_BACKUP_POR ∧ t.on F.RST_CAUSE_FROM_HALT = s.on F.RST_CAUSE_FROM_HALT
      ∧ (∀ a, keptReg a = true → t.reg a = s.reg a) ∧ t.ts = s.ts ∧ t.tam = s.tam ∧ t.nv.felt = s.nv.felt ∧ t.nv.flash = s.nv.flash
      ∧ t.legal.log = s.legal.log ∧ t.boot.sensed = s.boot.fuse ∧ t.pending = s.pending)
  ∧ (∀ (s : State), s.boot.off = false →
    Ends (exec .pinReset s) fun t =>
      t.boot.starting = true ∧ t.runs = true ∧ t.linkUp = false ∧ t.rings = [] ∧ t.pf = {} ∧ t.get F.RST_CAUSE_PIN = 1 ∧ t.get F.RST_CAUSE_POR = 0
      ∧ t.on F.RST_CAUSE_FROM_HALT = s.pf.halted ∧ (∀ a, keptReg a = true → t.reg a = s.reg a)
      ∧ t.get F.SEA_SESS_STAT_FAILS = s.get F.SEA_SESS_STAT_FAILS ∧ t.ts = s.ts ∧ t.tam = s.tam ∧ t.boot.fuse = s.boot.fuse
      ∧ t.legal.log = s.legal.log ∧ t.nv.felt = s.nv.felt ∧ t.pending = s.pending)
  ∧ (∀ (s : State), s.mainDown = false →
    Ends (exec .referenceLost s) fun t =>
      t.pf.halted = true ∧ t.runs = false ∧ t.get F.RST_PWR_STAT_STATE = 3 ∧ t.on F.BKP_STICKY_REF_FAIL = true ∧ t.get (hdrPend 0x03 2) = 1
      ∧ (∀ a, keptReg a = true → a ≠ F.BKP_STICKY_REF_FAIL.addr → t.reg a = s.reg a) ∧ t.ts = s.ts ∧ t.tam = s.tam ∧ t.nv.felt = s.nv.felt)
  ∧ (∀ (s : State), s.boot.off = false → s.tamOn 10 = false →
    Ends (exec .xo32Fail s) fun t =>
      t.on F.CLK_STATUS_TS_REF = true ∧ t.on F.CLK_STATUS_XO32_OK = false ∧ t.on F.BKP_STICKY_XO32_FAIL = true ∧ t.get (hdrPend 0x02 0) = 1
      ∧ t.get (hdrPend 0x03 1) = 1
      ∧ Keeps s t (fun a => a = F.CLK_STATUS_TS_REF.addr ∨ a = F.BKP_STICKY_XO32_FAIL.addr ∨ irqRegs 0x02 0 a ∨ irqRegs 0x03 1 a) [] [])

/-- A start that passes every step runs with the link released, a start that fails stops where it fails and counts, and a timeout ends in FAILED. Outcomes
of the analog steps are operands of START_SEQUENCE (log entry 65). (R554, R555, R556, R557, R559, R560, R562) -/
def Obligations.Starts : Prop :=
  (∀ (s : State) (o : StartOutcome), s.boot.starting = true → s.mainDown = false → s.boot.hang = none → o.hang = 0 → o.xo = true → 23880 ≤ o.count →
    o.count ≤ 24120 → o.pll = true → o.sram = true → o.felt = true → s.sl.imgA = true →
    Ends (exec (.startSequence o) s) fun t =>
      t.linkUp = true ∧ t.boot.starting = false ∧ t.boot.hang = none ∧ t.get F.SYS_BOOT_STAT_STAGE = (if t.boot.bench then 7 else 6))
  ∧ (∀ (s : State) (o : StartOutcome), s.boot.starting = true → s.mainDown = false → s.boot.hang = none → o.hang = 0 →
    (o.xo = false ∨ o.count < 23880 ∨ 24120 < o.count) →
    Ends (exec (.startSequence o) s) fun t =>
      t.boot.silent = true ∧ t.runs = false ∧ t.boot.starting = false ∧ t.get F.SYS_BOOT_STAT_STAGE = 8 ∧ t.get F.SYS_BOOT_STAT_FAIL_STEP = 2
      ∧ t.get F.SYS_FALLBACK_CAUSE_CAUSE = 3 ∧ t.on F.CLK_STATUS_XO_OK = false ∧ t.boot.felt = s.boot.felt
      ∧ Keeps s t (inPages [0x00, 0x02]) [] [.boot])
  ∧ (∀ (s : State) (o : StartOutcome), s.boot.starting = true → s.mainDown = false → s.boot.hang = none → s.linkUp = false → o.hang = 0 → o.xo = true →
    23880 ≤ o.count → o.count ≤ 24120 → o.pll = true → o.sram = false → o.felt = true → o.warn = false →
    (combineCnt s.boot.bk s.boot.felt).path = false → (combineCnt s.boot.bk s.boot.felt).fails < 2 → s.boot.bench = false →
    Ends (exec (.startSequence o) s) fun t =>
      t.get F.SYS_BOOT_STAT_STAGE = 8 ∧ t.get F.SYS_BOOT_STAT_FAIL_STEP = 4 ∧ t.get F.SYS_FALLBACK_CAUSE_CAUSE = 5 ∧ t.linkUp = true
      ∧ t.pf.armed = true ∧ t.boot.starting = false ∧ t.boot.bench = true ∧ t.epoch = s.nextEpoch true ∧ t.boot.bkEpoch = some (s.nextEpoch true)
      ∧ (∀ a, t.sramByte a = 0) ∧ t.get (hdrPend 0x00 1) = 1 ∧ t.get (hdrPend 0x04 0) = 1
      ∧ Keeps s t (onPages [0x00, 0x02, 0x03, 0x04, 0x16]) [2] [.sram, .dsram, .boot, .epoch, .linkUp, .pf])
  ∧ (∀ (s : State) (o : StartOutcome), s.boot.starting = true → s.mainDown = false → s.boot.hang = none → o.hang = 1 →
    Ends (exec (.startSequence o) s) fun t => t.boot = { s.boot with hang := some (1, o) } ∧ Keeps s t (among []) [] [.boot])
  ∧ (∀ (s : State) (n : Nat) (o : StartOutcome), s.boot.hang = some (n, o) → 4 ≤ n → n ≤ 8 → s.boot.bench = false → s.linkUp = false → o.warn = false →
    s.get F.SYS_START_CNT_FAILS < 2 →
    Ends (exec .startTimeout s) fun t =>
      t.get F.SYS_BOOT_STAT_STAGE = 8 ∧ t.get F.SYS_BOOT_STAT_FAIL_STEP = n ∧ t.get F.SYS_FALLBACK_CAUSE_CAUSE = 1 ∧ t.boot.hang = none
      ∧ t.boot.starting = false ∧ t.linkUp = true ∧ t.get F.SYS_START_CNT_FAILS = s.get F.SYS_START_CNT_FAILS + 1
      ∧ Keeps s t (onPages [0x00, 0x03, 0x04, 0x16]) [2] [.boot, .linkUp, .pf])
  ∧ (∀ (s : State) (n : Nat) (o : StartOutcome), s.boot.hang = some (n, o) → 4 ≤ n → n ≤ 8 → 2 ≤ s.get F.SYS_START_CNT_FAILS →
    Ends (exec .startTimeout s) fun t =>
      t.boot.hang = none ∧ t.boot.starting = false ∧ t.linkUp = true ∧ t.get F.SYS_BOOT_STAT_STAGE = (if t.boot.bench then 7 else 6))

/-- Fuse programming and locking, BENCH_RELEASE, STANDBY and its wake, TIME_SET and RSRAM accesses: accepted and refused. (R549, R552, R564, R568, R569,
R571, R572, R577) -/
def Obligations.FusesPowerStatesAndTime : Prop :=
  (∀ (s : State) (b v : Nat), s.runs = true → s.privOpen = true → s.boot.fuseJob = none → s.boot.fuseLock = false → b = s.get F.RST_FUSE_IDX_BALL →
    b ≤ 401 → v = spRead (fun _ => 0) s.boot.fuse b ||| s.get F.RST_FUSE_DATA_NEW → evenOnes v = true →
    Ends (exec (.fuseProg true) s) fun t =>
      (∀ i, spRead (fun _ => 0) t.boot.fuse i = if i = b then v else spRead (fun _ => 0) s.boot.fuse i) ∧ t.boot.sensed = s.boot.sensed
      ∧ t.boot.fuseJob = none ∧ t.get (hdrSeq 0x01) = (s.get (hdrSeq 0x01) + 1) % 2 ^ 32 ∧ Keeps s t (among [0x1024]) [] [.boot])
  ∧ (∀ (s : State) (b v : Nat), s.runs = true → s.privOpen = true → s.boot.fuseJob = none → s.boot.fuseLock = false → b = s.get F.RST_FUSE_IDX_BALL →
    b ≤ 401 → v = spRead (fun _ => 0) s.boot.fuse b ||| s.get F.RST_FUSE_DATA_NEW → evenOnes v = true →
    Ends (exec (.fuseProg false) s) fun t =>
      t.get (hdrErrcode 0x01) = 0xC0 ∧ (∀ i, i ≠ b → spRead (fun _ => 0) t.boot.fuse i = spRead (fun _ => 0) s.boot.fuse i)
      ∧ Keeps s t (fun a => a = 0x1024 ∨ errRegs 0x01 a) [] [.boot, .fresh])
  ∧ (∀ (s : State) (ok : Bool), s.runs = true → s.boot.fuseJob = none → s.privOpen = false →
    Ends (exec (.fuseProg ok) s) fun t => t.get (hdrErrcode 0x01) = 0x03 ∧ Keeps s t (fun a => errRegs 0x01 a ∨ errRegs 0x04 a) [] [])
  ∧ (∀ (s : State), s.runs = true → s.privOpen = true → s.boot.fuseLock = false →
    Ends (exec .fuseLock s) fun t => t.boot = { s.boot with fuseLock := true } ∧ Keeps s t (among [0x1024]) [] [.boot])
  ∧ (∀ (s : State), s.runs = true → s.privOpen = true → s.boot.fuseLock = true →
    Ends (exec .fuseLock s) fun t => t.get (hdrErrcode 0x01) = 0xC1 ∧ Keeps s t (errRegs 0x01) [] [])
  ∧ (∀ (s : State), s.runs = true → (s.boot.bench = true ∨ s.get F.SYS_BOOT_STAT_STAGE = 8) →
    Ends (exec .benchRelease s) fun t =>
      t.get F.SYS_START_CNT_RELEASE = 1 ∧ t.get F.SYS_BENCH_RELEASE_RELEASE = 1 ∧ t.boot.bk = some { s.startCnt with release := true }
      ∧ t.get (hdrSeq 0x00) = (s.get (hdrSeq 0x00) + 1) % 2 ^ 32 ∧ Keeps s t (inPage 0x00) [] [.boot])
  ∧ (∀ (s : State), s.runs = true → s.boot.bench = false → s.get F.SYS_BOOT_STAT_STAGE ≠ 8 →
    Ends (exec .benchRelease s) fun t => t.get (hdrErrcode 0x00) = 0x1E ∧ Keeps s t (errRegs 0x00) [] [])
  ∧ (∀ (s : State), s.runs = true → (∀ p ∈ enablePages, s.enabled p = false) → s.get F.DMA_ACTIVE_CH = 0 → s.flashBusy = false → (s.ring 46).frames = [] →
    s.on F.SEA_STAT_BUSY = false →
    Ends (exec .standby s) fun t =>
      t.get F.RST_PWR_STAT_STATE = 2 ∧ t.runs = false ∧ Keeps s t (among [F.RST_PWR_STAT_STATE.addr, 0x1024]) [] [])
  ∧ (∀ (s : State) (p : Nat), s.runs = true → p ∈ enablePages → s.enabled p = true →
    Ends (exec .standby s) fun t => t.get (hdrErrcode 0x01) = 0xC2 ∧ Keeps s t (errRegs 0x01) [] [])
  ∧ (∀ (s : State) (src : Fin 4), s.mainDown = false → s.get F.RST_PWR_STAT_STATE = 2 →
    Ends (exec (.standbyWake src) s) fun t =>
      t.get F.RST_PWR_STAT_STATE = 1 ∧ t.get F.RST_PWR_STAT_WAKES = satInc 255 (s.get F.RST_PWR_STAT_WAKES)
      ∧ Keeps s t (among [F.RST_PWR_STAT_STATE.addr]) [] [])
  ∧ (∀ (s : State), s.runs = true → (s.on F.BKP_STATUS_TIME_SET = false ∨ (s.privOpen = true ∧ s.get F.SES_ACTIVE_MASK_OUT = 0)) →
    Ends (exec .timeSet s) fun t =>
      t.ts = s.reg64 A.BKP_TIME_NEW_LO ∧ t.on F.BKP_STATUS_TIME_SET = true ∧ t.on F.BKP_STICKY_TIME_STEP = true
      ∧ Keeps s t (among [F.BKP_STATUS_TIME_SET.addr, F.BKP_STICKY_TIME_STEP.addr, 0x3024]) [] [.ts])
  ∧ (∀ (s : State), s.runs = true → s.on F.BKP_STATUS_TIME_SET = true → s.privOpen = true → s.get F.SES_ACTIVE_MASK_OUT ≠ 0 →
    Ends (exec .timeSet s) fun t => t.get (hdrErrcode 0x03) = 0x1E ∧ Keeps s t (errRegs 0x03) [] [])
  ∧ (∀ (s : State) (req : Req), s.runs = true →
    (s.regRead req false A.BKP_RSRAM_DATA).2 = spRead (fun _ => (0 : W32)) s.boot.rsram (s.get F.BKP_RSRAM_IDX_IDX)
    ∧ Ends (exec (.rsramAccess req none) s) fun t =>
      t.get F.BKP_RSRAM_IDX_IDX = (s.get F.BKP_RSRAM_IDX_IDX + 1) % 1024 ∧ Keeps s t (among [F.BKP_RSRAM_IDX_IDX.addr]) [] [])
  ∧ (∀ (s : State) (req : Req) (v : W32), s.runs = true → s.on (hdrSrst 0x03) = false →
    Ends (exec (.rsramAccess req (some v)) s) fun t =>
      (∀ i, spRead (fun _ => (0 : W32)) t.boot.rsram i = if i = s.get F.BKP_RSRAM_IDX_IDX then v else spRead (fun _ => (0 : W32)) s.boot.rsram i)
      ∧ t.get F.BKP_RSRAM_IDX_IDX = (s.get F.BKP_RSRAM_IDX_IDX + 1) % 1024
      ∧ t.get (hdrSeq 0x03) = (s.get (hdrSeq 0x03) + 1) % 2 ^ 32 ∧ Keeps s t (among [F.BKP_RSRAM_IDX_IDX.addr, 0x3024]) [] [.boot])

/-- SEAL_EN, CHALLENGE, VERIFY and its completion, CLOSE, JIG_ENTER, JIG_LEAVE, expiries and the end of a lockout: the session's state, the permissions
and the codes that refuse. A challenge drawn while a VERIFY runs is dropped at its completion (log entry 54). (R50, R51, R496, R497, R498, R499, R500) -/
def Obligations.SealSessions : Prop :=
  (∀ (s : State) (slot role : Nat), s.runs = true → slot < 4 → (role = 1 ∨ role = 2) → s.sea ≠ seOpen → s.sea ≠ seJig → s.get F.SEA_SESS_LOCK_LEFT = 0 →
    Ends (exec (.challenge slot role) s) fun t =>
      t.sea = seChallenged ∧ (∃ ch, t.sl = { s.sl with chal := some ch } ∧ ch.slot = slot ∧ ch.role = role ∧ ch.dur = s.get F.SEA_SESS_PARAM_DURATION_S
        ∧ ch.bytes.length = 32 ∧ ∀ i, i < 8 → t.reg (A.SEA_CHAL i) = wordN (fieldLe ch.bytes (4 * i) 4))
      ∧ t.get (hdrSeq 0x0A) = (s.get (hdrSeq 0x0A) + 1) % 2 ^ 32
      ∧ Keeps s t (fun a => a = A.SEA_STAT ∨ (A.SEA_CHAL 0 ≤ a ∧ a ≤ A.SEA_CHAL 7) ∨ a = 0xA024) [] [.sl, .fresh])
  ∧ (∀ (s : State) (slot role : Nat), s.runs = true → (s.sea = seOpen ∨ s.sea = seJig ∨ (role ≠ 1 ∧ role ≠ 2) ∨ s.get F.SEA_SESS_LOCK_LEFT ≠ 0) →
    Ends (exec (.challenge slot role) s) fun t =>
      t.get (hdrErrcode 0x0A) = (if s.sea = seOpen ∨ s.sea = seJig ∨ (role ≠ 1 ∧ role ≠ 2) then 0x1E else 0xA3) ∧ Keeps s t (errRegs 0x0A) [] [])
  ∧ (∀ (s : State) (ch : Challenge), s.runs = true → s.sl.chal = some ch → ch.slot < 4 → (ch.role = 1 ∨ ch.role = 2) → s.on F.SEA_STAT_BUSY = false →
    s.sealEn = true → s.get F.SEA_SESS_LOCK_LEFT = 0 → s.slotPermits ch.slot ch.role = true →
    Ends (exec (.verify ch.slot ch.role) s) fun t =>
      (∃ sig, t.sl = { s.sl with chal := none, verify := some (ch, sig) } ∧ sig = (List.range 16).flatMap fun i => le 4 (s.reg (A.SEA_RESP i)).toNat)
      ∧ t.on F.SEA_STAT_BUSY = true ∧ Keeps s t (among [A.SEA_STAT, 0xA024]) [] [.sl])
  ∧ (∀ (s : State) (ch : Challenge), s.runs = true → s.sl.chal = some ch → ch.slot < 4 → (ch.role = 1 ∨ ch.role = 2) → s.on F.SEA_STAT_BUSY = false →
    s.sealEn = false →
    Ends (exec (.verify ch.slot ch.role) s) fun t =>
      t.sea = seClosed ∧ t.sl = { s.sl with chal := none } ∧ t.get (hdrErrcode 0x0A) = 0xA0 ∧ t.get (hdrPend 0x0A 1) = 1
      ∧ Keeps s t (fun a => a = A.SEA_STAT ∨ errRegs 0x0A a ∨ eventRegs 0x0A 1 a) [2] [.sl])
  ∧ (∀ (s : State) (ch : Challenge) (sig : List Byte), s.runs = true → s.sl.verify = some (ch, sig) → ch.slot < 4 → ch.role < 4 → s.sealEn = true →
    s.get F.SEA_SESS_LOCK_LEFT = 0 → s.slotPermits ch.slot ch.role = true →
    Ends (exec .verifyDone s) fun t =>
      let msg := ch.bytes ++ le 8 Config.serial.toNat ++ le 4 s.epoch ++ le 1 ch.slot ++ le 1 ch.role ++ le 2 ch.dur
      let n := satInc 255 (s.get F.SEA_SESS_STAT_FAILS)
      t.sl.chal = none ∧ t.sl.verify = none
      ∧ (if Config.ecdsaVerify (s.slotKey ch.slot) (Config.sha256 msg) sig = true then
          t.sea = seOpen ∧ t.get F.SEA_SESS_STAT_SLOT = ch.slot ∧ t.get F.SEA_SESS_STAT_ROLE = ch.role ∧ t.get F.SEA_SESS_STAT_LEFT = ch.dur % 65536
            ∧ t.get F.SEA_SESS_STAT_FAILS = 0 ∧ t.legal.log.getLast?.map LogEntry.code = some 0x0040
        else
          t.sea = seClosed ∧ t.get F.SEA_SESS_STAT_FAILS = n ∧ t.get (hdrErrcode 0x0A) = 0xA2 ∧ t.get F.SEA_SESS_LOCK_LEFT = lockout n
            ∧ t.legal.next = s.legal.next + (if n = 5 then 1 else 0))
      ∧ Keeps s t (onPages [0x0A]) [2, 38] [.sl, .legal])
  ∧ (∀ (s : State), s.runs = true → s.sea = seOpen →
    Ends (exec .close s) fun t =>
      t.sea = seClosed ∧ t.privOpen = false ∧ t.get F.SEA_SESS_STAT_LEFT = 0 ∧ t.get F.SEA_SESS_STAT_FAILS = s.get F.SEA_SESS_STAT_FAILS
      ∧ t.get (hdrPend 0x0A 0) = 1 ∧ Keeps s t (fun a => a = A.SEA_STAT ∨ a = A.SEA_SESS_STAT ∨ a = 0xA024 ∨ eventRegs 0x0A 0 a) [2] [])
  ∧ (∀ (s : State), s.runs = true → s.sea = seJig →
    Ends (exec .close s) fun t =>
      t.sea = seClosed ∧ t.privOpen = false ∧ t.on F.CAL_STATUS_JIG = false ∧ t.legal.log.getLast?.map LogEntry.code = some 0x0042
      ∧ Keeps s t (onPages [0x0A, 0x13]) [2, 38, 48] [.cal, .legal])
  ∧ (∀ (s : State), s.runs = true → (s.sea = seOpen ∨ s.sea = seJig) →
    Ends (exec .sessionExpiry s) fun t =>
      t.sea = seClosed ∧ t.privOpen = false ∧ t.get F.SEA_SESS_STAT_LEFT = 0 ∧ t.get (hdrPend 0x0A 0) = 1
      ∧ Keeps s t (onPages [0x0A, 0x13]) [2, 38, 48] [.cal, .legal])
  ∧ (∀ (s : State), s.runs = true → s.sea = seOpen → s.get F.SEA_SESS_STAT_ROLE = 2 → (∀ k, k < 12 → closedState (s.bay k) = false) →
    s.get F.SES_ACTIVE_MASK_OUT = 0 →
    Ends (exec .jigEnter s) fun t =>
      t.sea = seJig ∧ t.on F.CAL_STATUS_JIG = true ∧ t.legal.log.getLast?.map LogEntry.code = some 0x0042
      ∧ Keeps s t (fun a => a = F.CAL_STATUS_JIG.addr ∨ onPages [0x0A] a) [2, 38] [.legal])
  ∧ (∀ (s : State), s.runs = true → (s.sea ≠ seOpen ∨ s.get F.SEA_SESS_STAT_ROLE ≠ 2 ∨ s.get F.SES_ACTIVE_MASK_OUT ≠ 0) →
    Ends (exec .jigEnter s) fun t => t.get (hdrErrcode 0x0A) = 0xA4 ∧ Keeps s t (errRegs 0x0A) [] [])
  ∧ (∀ (s : State), s.runs = true → s.sea = seJig →
    Ends (exec .jigLeave s) fun t =>
      t.sea = seOpen ∧ t.on F.CAL_STATUS_JIG = false ∧ t.legal.log.getLast?.map LogEntry.code = some 0x0042
      ∧ Keeps s t (onPages [0x0A, 0x13]) [2, 38, 48] [.cal, .legal])
  ∧ (∀ (s : State), s.runs = true → s.sea ≠ seJig →
    Ends (exec .jigLeave s) fun t => t.get (hdrErrcode 0x0A) = 0x1E ∧ Keeps s t (errRegs 0x0A) [] [])
  ∧ (∀ (s : State), s.runs = true → s.sl.chal.isSome = true →
    Ends (exec .challengeExpiry s) fun t => t.sea = seClosed ∧ t.sl = { s.sl with chal := none } ∧ Keeps s t (among [A.SEA_STAT]) [] [.sl])
  ∧ (∀ (s : State), Ends (exec .lockoutEnd s) fun t => t.get F.SEA_SESS_LOCK_LEFT = 0 ∧ Keeps s t (among [A.SEA_SESS_LOCK]) [] [])
  ∧ (∀ (s : State),
    Ends (exec (.sealEnChange false) s) fun t =>
      t.sealEn = false ∧ t.privOpen = false ∧ (s.sea = seOpen ∨ s.sea = seJig → t.sea = seClosed)
      ∧ Keeps s t (onPages [0x0A, 0x13]) [2, 38, 48] [.sealEn, .cal, .legal])
  ∧ (∀ (s : State), Ends (exec (.sealEnChange true) s) fun t => t.sealEn = true ∧ Keeps s t (among []) [] [.sealEn])

/-- Key generation, installation and revocation, their completion, the seal commands of no valid code, LOG_REPLAY and TOTALS_REQ. The container of a key
command is abstracted (log entry 55). (R495, R502, R503, R504, R506, R510) -/
def Obligations.KeysReplayAndTotals : Prop :=
  (∀ (s : State), s.runs = true → s.privOpen = true → s.on F.SEA_STAT_BUSY = false → s.sea = seJig →
    Ends (exec .keygen s) fun t =>
      (∃ o, t.sl = { s.sl with op := some o } ∧ o.op = 1) ∧ t.on F.SEA_STAT_BUSY = true ∧ Keeps s t (among [A.SEA_STAT, 0xA024]) [] [.sl])
  ∧ (∀ (s : State) (slot roles : Nat), s.runs = true → s.privOpen = true → s.on F.SEA_STAT_BUSY = false → s.sea = seJig → 1 ≤ slot → slot < 4 → roles < 4 →
    s.get F.SEA_SESS_STAT_SLOT ≤ 1 →
    Ends (exec (.vkInstall slot roles) s) fun t =>
      (∃ o, t.sl = { s.sl with op := some o } ∧ o.op = 2 ∧ o.slot = slot ∧ o.roles = roles
        ∧ o.data = (List.range 16).flatMap fun i => le 4 (s.reg (A.SEA_VK_DATA i)).toNat)
      ∧ t.on F.SEA_STAT_BUSY = true ∧ Keeps s t (among [A.SEA_STAT, 0xA024]) [] [.sl])
  ∧ (∀ (s : State) (slot : Nat), s.runs = true → s.privOpen = true → s.on F.SEA_STAT_BUSY = false → s.sea = seJig → 1 ≤ slot → slot < 4 →
    s.get F.SEA_SESS_STAT_SLOT ≤ 1 →
    Ends (exec (.vkRevoke slot) s) fun t =>
      (∃ o, t.sl = { s.sl with op := some o } ∧ o.op = 3 ∧ o.slot = slot) ∧ t.on F.SEA_STAT_BUSY = true
      ∧ Keeps s t (among [A.SEA_STAT, 0xA024]) [] [.sl])
  ∧ (∀ (s : State), s.runs = true → s.privOpen = false →
    Ends (exec .keygen s) fun t => t.get (hdrErrcode 0x0A) = 0x03 ∧ Keeps s t (errRegs 0x0A) [] [])
  ∧ (∀ (s : State) (o : KeyOp), s.runs = true → s.sl.op = some o → o.op = 1 →
    Ends (exec (.keyCmdDone true) s) fun t =>
      t.sl.op = none ∧ t.sl.key = some s.fresh ∧ t.sl.kek = some s.fresh ∧ t.boxKey = some s.fresh ∧ t.keyCode = keyReady ∧ t.on F.SEA_STAT_KEY_OK = true
      ∧ t.reg A.SEA_KEY_ID = wordN (ofBe (keyIdOf (Config.publicKey s.fresh))) ∧ t.sl.slots = s.sl.slots
      ∧ t.legal.log.getLast?.map LogEntry.code = some 0x0043 ∧ Keeps s t (onPages [0x0A]) [2, 38] [.sl, .legal, .fresh])
  ∧ (∀ (s : State) (o : KeyOp), s.runs = true → s.sl.op = some o → o.op = 2 ∨ o.op = 3 →
    Ends (exec (.keyCmdDone true) s) fun t =>
      t.sl.op = none ∧ t.sl.key = s.sl.key ∧ t.boxKey = s.boxKey
      ∧ t.sl.slots = (s.sl.slots.filter fun p => p.1 != o.slot) ++ (if o.op = 2 then [(o.slot, (o.data, o.roles))] else [])
      ∧ t.legal.log.getLast?.map LogEntry.code = some 0x0044 ∧ Keeps s t (onPages [0x0A]) [2, 38] [.sl, .legal])
  ∧ (∀ (s : State) (o : KeyOp), s.runs = true → s.sl.op = some o →
    Ends (exec (.keyCmdDone false) s) fun t =>
      t.sl = { s.sl with op := none } ∧ t.get (hdrErrcode 0x0A) = 0xA7 ∧ Keeps s t (fun a => a = A.SEA_STAT ∨ errRegs 0x0A a) [] [.sl])
  ∧ (∀ (s : State) (req : Req) (v : W32), s.runs = true →
    Ends (exec (.logReplay req v) s) fun t =>
      t.reg A.SEA_LOG_REPLAY = v ∧ t.on F.SEA_STAT_REPLAYING = t.legal.replay.isSome ∧ t.legal = { s.legal with replay := t.legal.replay }
      ∧ (∀ e, s.legal.log.head? = some e → v.toNat ≤ e.seq → s.takes 38 →
          ∃ f, (s.ring 38).frames ++ [f] <+: (t.ring 38).frames ∧ f.typ = 0x03 ∧ f.payload = pad4 e.bytes)
      ∧ Keeps s t (fun a => a = A.SEA_LOG_REPLAY ∨ a = A.SEA_STAT ∨ a = 0xA024 ∨ lostRegs a) [38] [.legal])
  ∧ (∀ (s : State) (req : Req) (v : W32), s.runs = true →
    Ends (exec (.totalsReq req v) s) fun t =>
      t.get F.SEA_TOTALS_REQ_OUT = s.get F.SEA_TOTALS_REQ_OUT ||| v.toNat % 4096 ∧ Keeps s t (among [F.SEA_TOTALS_REQ_OUT.addr, 0xA024]) [] [])
  ∧ (∀ (s : State) (code : Nat), s.runs = true → code ∉ [keyAbsent, keyReady, keyErased] → (∀ r ∈ s.se.queue, r.outlet < 12) →
    Ends (exec (.sealInvalidCode true code) s) fun t =>
      t.sl.key = none ∧ t.sl.kek = none ∧ t.keyCode = keyErased ∧ t.on F.SEA_STAT_KEY_OK = false ∧ t.on (bitFld A.TAM_STICKY 12) = true
      ∧ t.on (bitFld A.TAM_LIVE 12) = true ∧ t.get (hdrPend 0x0B 2) = 1
      ∧ Keeps s t (onPages [0x0A, 0x0B, 0x13, 0x19]) ([2, 38, 48] ++ List.range' 3 12) [.sl, .tam, .se, .cal, .legal, .fresh])
  ∧ (∀ (s : State) (code : Nat), s.runs = true → code ∉ [seClosed, seChallenged, seOpen, seJig] → (∀ r ∈ s.se.queue, r.outlet < 12) →
    Ends (exec (.sealInvalidCode false code) s) fun t =>
      t.sea = seClosed ∧ t.sl.chal = none ∧ t.privOpen = false ∧ t.on (bitFld A.TAM_STICKY 12) = true ∧ t.on (bitFld A.TAM_LIVE 12) = true
      ∧ Keeps s t (onPages [0x0A, 0x0B, 0x13, 0x19]) ([2, 38, 48] ++ List.range' 3 12) [.sl, .tam, .se, .cal, .legal, .fresh])

/-- A trigger and its clearing, its report, the loop's sequence and comparison, and the shadow check. (R514, R515, R516, R517, R519, R520, R521, R523) -/
def Obligations.TamperSupervision : Prop :=
  (∀ (s : State) (src : Fin 13), s.tamOn src = true → s.on (bitFld A.TAM_LIVE src) = false → s.tamResp src = 0 →
    Ends (exec (.tamperTrigger src) s) fun t =>
      t.on (bitFld A.TAM_STICKY src) = true ∧ t.on (bitFld A.TAM_LIVE src) = true ∧ t.get (hdrPend 0x0B 0) = 1
      ∧ t.get F.TAM_HIST_STAT_COUNT = min 16 (s.get F.TAM_HIST_STAT_COUNT + 1)
      ∧ t.reg64 (A.TAM_HIST_TS_LO (t.get F.TAM_HIST_STAT_NEWEST)) = s.ts % 2 ^ 64 ∧ t.tam.waiting.getLast? = some (t.get F.TAM_HIST_STAT_NEWEST)
      ∧ getBits (t.reg (A.TAM_HIST_INFO (t.get F.TAM_HIST_STAT_NEWEST))) 0 5 = src.val ∧ Keeps s t (inPage 0x0B) [] [.tam])
  ∧ (∀ (s : State) (src : Fin 13), s.tamOn src = true → s.on (bitFld A.TAM_LIVE src) = false → (∀ r ∈ s.se.queue, r.outlet < 12) →
    Ends (exec (.tamperTrigger src) s) fun t =>
      t.on (bitFld A.TAM_STICKY src) = true ∧ t.on (bitFld A.TAM_LIVE src) = true
      ∧ ((s.tamResp src).testBit 0 = true → t.sl.key = none ∧ t.sl.kek = none ∧ t.get (hdrPend 0x0B 2) = 1
          ∧ t.get F.TAM_ERASE_CNT_COUNT = satInc 65535 (s.get F.TAM_ERASE_CNT_COUNT) ∧ (s.mainDown = false → t.keyCode = keyErased))
      ∧ ((s.tamResp src).testBit 1 = true → t.privOpen = false)
      ∧ Keeps s t (onPages [0x0A, 0x0B, 0x13, 0x19]) ([2, 38, 48] ++ List.range' 3 12) [.sl, .tam, .se, .cal, .legal, .fresh])
  ∧ (∀ (s : State) (src : Fin 13), (s.tamOn src = false ∨ s.on (bitFld A.TAM_LIVE src) = true) →
    Ends (exec (.tamperTrigger src) s) fun t => Keeps s t (among []) [] [])
  ∧ (∀ (s : State) (src : Fin 13), s.on (bitFld A.TAM_LIVE src) = true →
    Ends (exec (.tamperClear src) s) fun t =>
      t.on (bitFld A.TAM_LIVE src) = false ∧ (∀ i, i < 13 → t.on (bitFld A.TAM_STICKY i) = s.on (bitFld A.TAM_STICKY i)) ∧ t.get (hdrPend 0x0B 1) = 1
      ∧ getBits (t.reg (A.TAM_HIST_INFO (t.get F.TAM_HIST_STAT_NEWEST))) 0 5 = src.val + 16 ∧ Keeps s t (inPage 0x0B) [] [.tam])
  ∧ (∀ (s : State) (i : Nat) (rest : List Nat), s.runs = true → s.tam.waiting = i :: rest → s.boot.romOnly = false → s.linkUp = true →
    Ends (exec .tamperReport s) fun t =>
      t.tam = { s.tam with waiting := rest } ∧ t.legal.next = s.legal.next + 1 ∧ t.legal.log.getLast?.map LogEntry.code = some 0x0050
      ∧ t.legal.log.getLast?.map LogEntry.ts = some (s.reg64 (A.TAM_HIST_TS_LO i)) ∧ Keeps s t (onPages [0x0A]) [2, 38, 49] [.tam, .legal])
  ∧ (∀ (s : State), s.boot.off = false →
    Ends (exec .loopReseed s) fun t =>
      t.fresh = s.fresh + ((List.range 4).filter fun j => (s.get F.TAM_LOOP_CFG_EN).testBit j).length
      ∧ (∀ j, 4 ≤ j ∨ (s.get F.TAM_LOOP_CFG_EN).testBit j = false → spRead (fun _ => 0) t.tam.loops j = spRead (fun _ => 0) s.tam.loops j)
      ∧ t.tam.waiting = s.tam.waiting ∧ Keeps s t (among []) [] [.tam, .fresh])
  ∧ (∀ (s : State) (j : Fin 4),
    Ends (exec (.loopBitChange j) s) fun t =>
      spRead (fun _ => 0) t.tam.loops j = (if (s.get F.TAM_LOOP_CFG_EN).testBit j then loopStep (spRead (fun _ => 0) s.tam.loops j) else 0)
      ∧ (∀ i, i ≠ j.val → spRead (fun _ => 0) t.tam.loops i = spRead (fun _ => 0) s.tam.loops i) ∧ t.tam.waiting = s.tam.waiting
      ∧ Keeps s t (among []) [] [.tam])
  ∧ (∀ (s : State) (src w : Nat), src < 12 → (∀ r ∈ s.se.queue, r.outlet < 12) →
    Ends (exec (.shadowCheck [(src, w)]) s) fun t =>
      t.on (bitFld A.TAM_STICKY src) = true ∧ t.on (bitFld A.TAM_STICKY 12) = true ∧ t.on (bitFld A.TAM_LIVE src) = true
      ∧ t.on (bitFld A.TAM_LIVE 12) = true ∧ ((s.tamResp src ||| w % 4).testBit 0 = true → t.sl.key = none ∧ t.sl.kek = none)
      ∧ ((s.tamResp src ||| w % 4).testBit 1 = true → t.privOpen = false)
      ∧ Keeps s t (onPages [0x0A, 0x0B, 0x13, 0x19]) ([2, 38, 48] ++ List.range' 3 12) [.sl, .tam, .se, .cal, .legal, .fresh])
  ∧ (∀ (s : State), Ends (exec (.shadowCheck []) s) fun t => Keeps s t (among []) [] [])

/-- Writing ones to STICKY in the privileged view clears those flags whose source is not triggered and leaves the others; outside the privileged view
nothing clears. (R522) -/
def Obligations.StickyFlagsOfActiveSourcesStay : Prop :=
  ∀ (s : State) (req : Req) (priv : Bool) (mask : W32), s.runs = true →
    (priv = true ∧ s.privOpen = true →
      Ends (exec (.stickyClear req priv mask) s) fun t =>
        (∀ i, i < 13 → t.on (bitFld A.TAM_STICKY i) =
          (s.on (bitFld A.TAM_STICKY i) && !(mask.toNat.testBit i && !s.on (bitFld A.TAM_LIVE i))))
        ∧ Keeps s t (among [A.TAM_STICKY, 0xB024]) [] [])
    ∧ (¬ (priv = true ∧ s.privOpen = true) →
      Ends (exec (.stickyClear req priv mask) s) fun t => t.get (hdrErrcode 0x0B) = 0x03 ∧ Keeps s t (errRegs 0x0B) [] [])

/-- Sign-on, acknowledgement, silence and the queries of mode C: what the port answers and the state it goes to. (R511, R512, R513) -/
def Obligations.ReadoutPort : Prop :=
  (∀ (s : State), s.runs = true → s.sl.port = 0 →
    Ends (exec (.optSignOn none) s) fun t =>
      t.sl = { s.sl with port := 1, sent := ascii "/HMD5EA1248" ++ [13, 10] } ∧ t.get F.SEA_OPT_STAT_SESSIONS = satInc 65535 (s.get F.SEA_OPT_STAT_SESSIONS)
      ∧ Keeps s t (among [F.SEA_OPT_STAT_SESSIONS.addr]) [] [.sl])
  ∧ (∀ (s : State) (a : List Byte), s.runs = true → s.sl.port = 0 →
    Ends (exec (.optSignOn (some a)) s) fun t =>
      (t.sl.port = if a = digitsText 16 16 Config.serial.toNat then 1 else 0) ∧ Keeps s t (among [F.SEA_OPT_STAT_SESSIONS.addr]) [] [.sl])
  ∧ (∀ (s : State) (z : Nat), s.runs = true → s.sl.port = 1 → z ≤ 5 →
    Ends (exec (.optAcknowledge z 0) s) fun t =>
      t.sl = { s.sl with port := 0, sent := t.sl.sent } ∧ t.sl.sent.head? = some 2
      ∧ (∃ body, t.sl.sent = 2 :: body ++ [3, (body ++ [3]).foldl (· ^^^ ·) 0] ∧ ascii "SN(" <+: body ∧ ascii "!" ++ [13, 10] <:+ body)
      ∧ t.get F.SEA_OPT_STAT_BAUD = z ∧ t.get F.SEA_OPT_STAT_MODE = 0 ∧ Keeps s t (among [F.SEA_OPT_STAT_BAUD.addr]) [] [.sl])
  ∧ (∀ (s : State) (z : Nat), s.runs = true → s.sl.port = 1 → z ≤ 5 →
    Ends (exec (.optAcknowledge z 6) s) fun t =>
      t.sl = { s.sl with port := 2 } ∧ t.get F.SEA_OPT_STAT_BAUD = z ∧ t.get F.SEA_OPT_STAT_MODE = 6
      ∧ Keeps s t (among [F.SEA_OPT_STAT_BAUD.addr]) [] [.sl])
  ∧ (∀ (s : State), s.runs = true → s.sl.port = 1 →
    Ends (exec .optSilenceTimeout s) fun t => t.sl = { s.sl with port := 0 } ∧ Keeps s t (among []) [] [.sl])
  ∧ (∀ (s : State) (k : Nat) (c : LegalRec) (ts : Nat), s.runs = true → s.sl.port = 2 → s.boot.romOnly = false → s.se.last = some (c, ts) →
    Ends (exec (.queryT k true) s) fun t =>
      t.sl = { s.sl with sent := framed (if 12 ≤ k then inParens (ascii "ER") (ascii "001E") else
        inParens (ascii "C") (decText c.seq) ++ inParens (ascii "IMP") (decText (c.acc k).imp) ++ inParens (ascii "EXP") (decText (c.acc k).exp)
        ++ inParens (ascii "NET") (decText (c.acc k).net) ++ inParens (ascii "VARH_POS") (decText (c.acc k).varPos)
        ++ inParens (ascii "VARH_NEG") (decText (c.acc k).varNeg) ++ inParens (ascii "VAH") (decText (c.acc k).va)) }
      ∧ Keeps s t (among []) [] [.sl])
  ∧ (∀ (s : State) (n : Nat), s.runs = true → s.sl.port = 2 → s.boot.romOnly = false →
    Ends (exec (.queryL n true) s) fun t =>
      t.sl = { s.sl with sent := framed (match s.legal.log.find? fun e => e.seq == n with
        | some e => hexBytes e.bytes ++ [13, 10]
        | none => inParens (ascii "ER") (ascii "0096")) }
      ∧ Keeps s t (among []) [] [.sl])
  ∧ (∀ (s : State) (w : Nat), s.runs = true → s.sl.port = 2 → s.boot.romOnly = false →
    Ends (exec (.queryR w true) s) fun t =>
      t.sl = { s.sl with sent := framed (match s.readRecord 0 w with
        | some b => hexBytes b ++ [13, 10]
        | none => inParens (ascii "ER") (ascii "0096")) }
      ∧ Keeps s t (among []) [] [.sl])
  ∧ (∀ (s : State), s.runs = true → s.sl.port = 2 → s.boot.romOnly = false →
    Ends (exec (.queryK true) s) fun t =>
      t.sl = { s.sl with sent := framed (hexBytes ((List.range 16).flatMap fun i => le 4 (s.reg (A.SEA_PUBKEY i)).toNat) ++ [13, 10]
        ++ inParens (ascii "KI") (digitsText 16 8 (s.reg A.SEA_KEY_ID).toNat)) }
      ∧ Keeps s t (among []) [] [.sl])
  ∧ (∀ (s : State) (c : Instr), s.runs = true → s.sl.port = 2 →
    (c = .queryK false ∨ (∃ n, c = .queryT n false) ∨ (∃ n, c = .queryL n false) ∨ (∃ n, c = .queryR n false)) →
    Ends (exec c s) fun t =>
      t.sl = { s.sl with sent := [0x15] } ∧ t.get F.SEA_OPT_STAT_BCC_ERR = satInc 255 (s.get F.SEA_OPT_STAT_BCC_ERR)
      ∧ Keeps s t (among [F.SEA_OPT_STAT_BCC_ERR.addr]) [] [.sl])
  ∧ (∀ (s : State) (c : Instr), s.runs = true → s.sl.port = 2 → (c = .queryEnd ∨ c = .queryTimeout) →
    Ends (exec c s) fun t => t.sl = { s.sl with port := 0 } ∧ Keeps s t (among []) [] [.sl])
  ∧ (∀ (s : State) (c : Instr), s.runs = true → s.sl.port ≠ 2 →
    (c = .queryEnd ∨ c = .queryTimeout ∨ (∃ b, c = .queryK b) ∨ (∃ n b, c = .queryT n b) ∨ (∃ n b, c = .queryL n b) ∨ (∃ n b, c = .queryR n b)) →
    Ends (exec c s) fun t => Keeps s t (among []) [] [])

/-- START, LOAD, RESUME, ABORT, HALT clears and POS writes, wait timeouts and the end of a descriptor: the channel's state, its position and the frames on
ring 50. (R528, R529, R530, R533, R534, R535, R537, R538, R540, R541) -/
def Obligations.DmaChannelControl : Prop :=
  (∀ (s : State) (n : Fin 16), s.runs = true → s.enabled 0x06 = true → s.dmaState n = dmaIdle → s.halted = false → descCheck (s.descRegs n) = none →
    Ends (exec (.dmaStart n) s) fun t =>
      t.k0 n = 0 ∧ t.k1 n = 0 ∧ t.k2 n = 0 ∧ t.chan n = {} ∧ t.dmaState n = (if s.waitLevel n = 0 then dmaRun else dmaWait)
      ∧ t.on ⟨A.DMA_ACTIVE, n, 1⟩ = true ∧ t.get (hdrSeq 0x06) = (s.get (hdrSeq 0x06) + 1) % 2 ^ 32 ∧ (∀ m, m ≠ n.val → t.chan m = s.chan m)
      ∧ Keeps s t (among [A.DMA_POS0 n, (F.DMA_POS1_K2 n).addr, (F.DMA_STAT_STATE n).addr, A.DMA_ACTIVE, 0x6024]) [] [.dma])
  ∧ (∀ (s : State) (n : Fin 16), s.runs = true →
    (s.enabled 0x06 = false ∨ s.dmaState n ≠ dmaIdle ∨ s.halted = true ∨ ∃ c, descCheck (s.descRegs n) = some c) →
    Ends (exec (.dmaStart n) s) fun t =>
      t.get (hdrErrcode 0x06) = (if s.enabled 0x06 = false then 0x1E else if s.dmaState n ≠ dmaIdle then 0xB3 else if s.halted then 0xB4
        else (descCheck (s.descRegs n)).getD 0)
      ∧ t.get (F.DMA_STAT_LAST_CODE n) = t.get (hdrErrcode 0x06)
      ∧ Keeps s t (fun a => a = (F.DMA_STAT_LAST_CODE n).addr ∨ errRegs 0x06 a) [] [])
  ∧ (∀ (s : State) (n : Fin 16) (a : Nat), s.runs = true → s.enabled 0x06 = true → s.dmaState n = dmaIdle → s.halted = false →
    a = (s.reg (A.DMA_LOAD_ADDR n)).toNat → loadAddrOk a = true → descCheck (s.descAt a) = none →
    Ends (exec (.dmaLoad n) s) fun t =>
      (∀ w, w < 16 → w ≠ 3 → w ≠ 13 → t.descWord n w = (s.descAt a).getD w 0) ∧ t.k0 n = 0 ∧ t.k1 n = 0 ∧ t.k2 n = 0
      ∧ t.chan n = { chained := true, addr := a } ∧ (t.dmaState n = dmaRun ∨ t.dmaState n = dmaWait)
      ∧ t.get F.DMA_BEATS = (s.get F.DMA_BEATS + 4) % 2 ^ 32
      ∧ Keeps s t (fun x => (A.DMA_DESC0 n ≤ x ∧ x < A.DMA_DESC0 n + 64) ∨ x ∈ [A.DMA_POS0 n, (F.DMA_POS1_K2 n).addr,
          (F.DMA_STAT_STATE n).addr, A.DMA_ACTIVE, F.DMA_BEATS.addr, 0x6024]) [] [.dma, .fresh])
  ∧ (∀ (s : State) (n : Fin 16), s.runs = true → s.enabled 0x06 = true → s.dmaState n = dmaIdle → s.halted = false →
    loadAddrOk (s.reg (A.DMA_LOAD_ADDR n)).toNat = false →
    Ends (exec (.dmaLoad n) s) fun t =>
      t.get (hdrErrcode 0x06) = 0xB1 ∧ t.get (F.DMA_STAT_LAST_CODE n) = 0xB1
      ∧ Keeps s t (fun a => a = (F.DMA_STAT_LAST_CODE n).addr ∨ errRegs 0x06 a) [] [])
  ∧ (∀ (s : State) (n : Fin 16), s.runs = true → s.dmaState n = dmaPaused → s.halted = false →
    Ends (exec (.dmaResume n) s) fun t =>
      t.on (F.DMA_STAT_FAILED n) = false ∧ t.dmaState n = (if s.waitsHere n && !(s.chan n).clear then dmaWait else dmaRun)
      ∧ t.k0 n = s.k0 n ∧ t.k1 n = s.k1 n ∧ t.k2 n = s.k2 n
      ∧ Keeps s t (among [(F.DMA_STAT_STATE n).addr, A.DMA_ACTIVE, 0x6024]) [] [])
  ∧ (∀ (s : State) (n : Fin 16), s.runs = true → (s.dmaState n ≠ dmaPaused ∨ s.halted = true) →
    Ends (exec (.dmaResume n) s) fun t =>
      t.get (hdrErrcode 0x06) = (if s.dmaState n ≠ dmaPaused then 0xB3 else 0xB4)
      ∧ Keeps s t (fun a => a = (F.DMA_STAT_LAST_CODE n).addr ∨ errRegs 0x06 a) [] [])
  ∧ (∀ (s : State) (n : Fin 16), s.runs = true → s.dmaState n ≠ dmaIdle → (s.chan n).fin = false → s.takes 50 →
    Ends (exec (.dmaAbort n) s) fun t =>
      t.dmaState n = dmaIdle ∧ t.on ⟨A.DMA_ACTIVE, n, 1⟩ = false ∧ t.on (F.DMA_STAT_FAILED n) = false
      ∧ (∃ pl, Queued s t 50 0x03 none 0 pl ∧ pl.head? = some (BitVec.ofNat 8 n)) ∧ (∀ m, t.chan m = s.chan m)
      ∧ Keeps s t (among [(F.DMA_STAT_STATE n).addr, A.DMA_ACTIVE, 0x6024]) [50] [])
  ∧ (∀ (s : State), s.runs = true →
    Ends (exec .haltClear s) fun t => t.halted = false ∧ Keeps s t (among [F.DMA_HALT_HALTED.addr, 0x6024]) [] [])
  ∧ (∀ (s : State) (req : Req) (n : Fin 16) (v : W32), s.runs = true → s.dmaState n = dmaPaused → s.halted = false → v.toNat % 65536 < s.c0 n →
    v.toNat / 65536 < s.c1 n →
    Ends (exec (.posWrite req n false v) s) fun t =>
      t.k0 n = v.toNat % 65536 ∧ t.k1 n = v.toNat / 65536 ∧ t.k2 n = s.k2 n ∧ (t.chan n).fin = false ∧ Keeps s t (among [A.DMA_POS0 n, 0x6024]) [] [.dma])
  ∧ (∀ (s : State) (req : Req) (n : Fin 16) (v : W32), s.runs = true → s.dmaState n = dmaPaused → s.halted = false → v.toNat % 65536 < s.c2 n →
    Ends (exec (.posWrite req n true v) s) fun t =>
      t.k2 n = v.toNat % 65536 ∧ t.k0 n = s.k0 n ∧ t.k1 n = s.k1 n ∧ (t.chan n).fin = false
      ∧ Keeps s t (among [(F.DMA_POS1_K2 n).addr, 0x6024]) [] [.dma])
  ∧ (∀ (s : State) (n : Fin 16), s.runs = true → s.dmaState n = dmaRun → (s.chan n).fin = true → s.descWord n 14 = 0 → s.takes 50 →
    Ends (exec (.descriptorComplete n) s) fun t =>
      t.dmaState n = dmaIdle ∧ (t.chan n).fin = false ∧ t.get (F.DMA_POS1_DESCS n) = (s.get (F.DMA_POS1_DESCS n) + 1) % 65536
      ∧ (∃ pl, Queued s t 50 0x01 none 0 pl ∧ pl.head? = some (BitVec.ofNat 8 n)) ∧ t.get (hdrPend 0x06 0) = 1
      ∧ Keeps s t (fun a => a ∈ [(F.DMA_STAT_STATE n).addr, A.DMA_ACTIVE, (F.DMA_POS1_DESCS n).addr] ∨ irqRegs 0x06 0 a) [50] [.dma])
  ∧ (∀ (s : State) (n : Fin 16) (a : Nat), s.runs = true → s.dmaState n = dmaRun → (s.chan n).fin = true → a = (s.descWord n 14).toNat → a ≠ 0 →
    s.on (F.DMA_DESC3_RING n) = false → descCheck (s.descAt a) = none →
    Ends (exec (.descriptorComplete n) s) fun t =>
      (∀ w, w < 16 → w ≠ 3 → w ≠ 13 → t.descWord n w = (s.descAt a).getD w 0) ∧ t.chan n = { chained := true, addr := a }
      ∧ (t.dmaState n = dmaRun ∨ t.dmaState n = dmaWait) ∧ t.get (F.DMA_POS1_DESCS n) = (s.get (F.DMA_POS1_DESCS n) + 1) % 65536
      ∧ Keeps s t (fun x => (A.DMA_DESC0 n ≤ x ∧ x < A.DMA_DESC0 n + 64) ∨ x ∈ [A.DMA_POS0 n, (F.DMA_POS1_K2 n).addr,
          (F.DMA_STAT_STATE n).addr, A.DMA_ACTIVE, F.DMA_BEATS.addr]) [] [.dma, .fresh])
  ∧ (∀ (s : State) (n : Fin 16), s.runs = true → s.dmaState n = dmaWait → s.get (F.DMA_DESC13_WAIT_TO n) ≠ 0 →
    s.get (F.DMA_DESC13_WAIT_TO n) ≤ (s.chan n).polls → s.takes 50 →
    Ends (exec (.waitTimeout n) s) fun t =>
      t.dmaState n = dmaIdle ∧ t.get (hdrErrcode 0x06) = 0xB2 ∧ t.get (F.DMA_STAT_LAST_CODE n) = 0xB2 ∧ t.get (hdrPend 0x06 1) = 1
      ∧ (∃ pl, Queued s t 50 0x02 none 0 pl)
      ∧ Keeps s t (fun a => a ∈ [(F.DMA_STAT_STATE n).addr, A.DMA_ACTIVE] ∨ errRegs 0x06 a ∨ irqRegs 0x06 1 a) [50] [])

/-- An element moves its bytes and advances the position, a poll reads and waits or goes on, and a bus error halts the channel. (R530, R531, R534, R538,
R539) -/
def Obligations.DmaElementsAndPolls : Prop :=
  (∀ (s : State) (n : Fin 16) (i j m : Nat), s.runs = true → s.dmaReady n = true → s.srcAddr n = 0x20000000 + i → s.dstAddr n = 0x20000000 + j →
    s.elemSize n = m → m ≤ 16 → 0x40000 ≤ i → i + m ≤ 0x100000 → j + m ≤ 0x100000 → (∀ x, x < m → s.sramOwned (j + x) = false) →
    Ends (exec (.dmaElement n) s) fun t =>
      (∀ a, t.sramByte a = if j ≤ a ∧ a < j + m then s.memByte (i + (a - j)) else s.sramByte a)
      ∧ t.reg (A.DMA_CUR_SRC n) = wordN (0x20000000 + i) ∧ t.reg (A.DMA_CUR_DST n) = wordN (0x20000000 + j)
      ∧ (t.chan n).moved = ((s.chan n).moved + 1) % 2 ^ 32 ∧ (t.chan n).fin = (s.nextPos n).isNone
      ∧ (∀ a b c, s.nextPos n = some (a, b, c) → t.k0 n = a ∧ t.k1 n = b ∧ t.k2 n = c)
      ∧ t.get F.DMA_BEATS = (s.get F.DMA_BEATS + spanBeats i m + spanBeats j m) % 2 ^ 32 ∧ (∀ x, x ≠ n.val → t.chan x = s.chan x)
      ∧ Keeps s t (among [A.DMA_CUR_SRC n, A.DMA_CUR_DST n, A.DMA_POS0 n, (F.DMA_POS1_K2 n).addr, (F.DMA_STAT_STATE n).addr, A.DMA_ACTIVE,
          F.DMA_BEATS.addr]) [] [.sram, .dma])
  ∧ (∀ (s : State) (n : Fin 16) (c : Instr) (code : Nat), c = .dmaElement n ∨ c = .busError n → s.runs = true → s.dmaReady n = true →
    shapeCheck (s.srcAddr n) (s.elemSize n) = some code → s.takes 50 →
    Ends (exec c s) fun t =>
      t.halted = true ∧ t.on (F.DMA_STAT_FAILED n) = true ∧ t.get (F.DMA_STAT_LAST_CODE n) = code ∧ t.get (hdrErrcode 0x06) = code
      ∧ t.reg A.DMA_ERR_ADDR = wordN (s.srcAddr n) ∧ t.reg A.DMA_ERR_INFO = wordN (code + 2 ^ 20 * n)
      ∧ (∀ k, k < 16 → t.dmaState k ≠ dmaRun ∧ t.dmaState k ≠ dmaWait) ∧ (∀ k, k < 16 → s.dmaState k = dmaIdle → t.dmaState k = dmaIdle)
      ∧ t.get (hdrPend 0x06 2) = 1 ∧ (∃ pl, Queued s t 50 0x02 none 0 pl) ∧ t.k0 n = s.k0 n ∧ t.k1 n = s.k1 n ∧ t.k2 n = s.k2 n
      ∧ Keeps s t (inPage 0x06) [50] [])
  ∧ (∀ (s : State) (n : Fin 16), s.runs = true → (s.dmaMove n).2.isNone = true →
    Ends (exec (.busError n) s) fun t => Keeps s t (among []) [] [])
  ∧ (∀ (s : State) (n : Fin 16), s.runs = true → s.dmaReady n = false →
    Ends (exec (.dmaElement n) s) fun t => Keeps s t (among []) [] [])
  ∧ (∀ (s : State) (n : Fin 16), s.runs = true → s.dmaState n = dmaWait → s.halted = false →
    let v := (s.busRead (.dma n) (s.descWord n 10).toNat).2
    Ends (exec (.waitPoll n) s) fun t =>
      t.dmaState n = (if v &&& s.descWord n 11 = s.descWord n 12 then dmaRun else dmaWait)
      ∧ t.chan n = (if v &&& s.descWord n 11 = s.descWord n 12 then { s.chan n with clear := true, polls := 0 }
          else { s.chan n with polls := (s.chan n).polls + 1 })
      ∧ t.get F.DMA_BEATS = (s.get F.DMA_BEATS + 1) % 2 ^ 32
      ∧ Keeps s t (among [(F.DMA_STAT_STATE n).addr, A.DMA_ACTIVE, F.DMA_BEATS.addr, F.BKP_RSRAM_IDX_IDX.addr]) [] [.dma, .readShadow, .mt, .fresh])

/-- Auxiliary conversions, pilot bursts and the start of a pilot frame: the readings, the class and what the pilot then drives. (R272, R273, R274, R276,
R278, R280, R285, R302) -/
def Obligations.ConversionsAndThePilot : Prop :=
  (∀ (s : State) (n : Fin 48) (code : Nat), s.runs = true → s.enabled 0x18 = true → 12 ≤ n.val →
    Ends (exec (.auxConversion n code) s) fun t =>
      t.get (F.AUX_DATA_CODE n) = code % 4096 ∧ t.get (F.AUX_DATA_SEQ n) = (s.get (F.AUX_DATA_SEQ n) + 1) % 65536
      ∧ t.reg A.AUX_CONV_CNT = s.reg A.AUX_CONV_CNT + 1
      ∧ (s.on (bitFld64 A.AUX_WIN_EN_LO n) = true → code % 4096 < s.get (F.AUX_WIN_LO n) ∨ s.get (F.AUX_WIN_HI n) < code % 4096 →
          t.on (bitFld64 A.AUX_WIN_STAT_LO n) = true)
      ∧ Keeps s t (onPages [0x14, 0x16, 0x17, 0x18, 0x30 + n.val % 12]) [2, 3 + n.val % 12] [.outlets, .rcm, .pq, .fresh])
  ∧ (∀ (s : State) (k : Fin 12) (high : Bool) (codes : List Nat), s.runs = true → s.enabled 0x18 = true → s.enabled 0x16 = true →
    s.enabled (0x30 + k) = true → codes.length = 4 → (∀ c ∈ codes, c < 4096) →
    let v := divEven (((midSum codes : Int) - 2 * s.get (F.BAYK_PILOT_CAL_OFS k)) * s.get (F.BAYK_PILOT_CAL_GAIN k)) 8192
    Ends (exec (.pilotBurst k high codes) s) fun t =>
      t.get (F.AUX_DATA_SEQ k) = (s.get (F.AUX_DATA_SEQ k) + 4) % 65536
      ∧ (high = true → t.get (F.AUX_DATA_CODE k) = (divEven (midSum codes : Int) 2).toNat ∧ t.get (F.BAYK_PILOT_V_HIGH k) = unsignedOf 16 v
          ∧ t.get (F.BAYK_PILOT_CANDIDATE k) = (if (s.outlet k).read then s.classFrom (s.get (F.BAYK_PILOT_CANDIDATE k)) v else s.classOf v))
      ∧ (high = false → t.get (F.BAYK_PILOT_V_LOW k) = unsignedOf 16 v ∧ t.get (F.AUX_DATA_CODE k) = s.get (F.AUX_DATA_CODE k)
          ∧ (s.get (F.BAYK_PILOT_MODE k) = 2 → (s.get F.BAY_TH_LO_HYST : Int) < 2 * (s.getInt F.BAY_TH_LO_TH_F - v) →
              t.on (F.BAYK_PILOT_DIODE_OK k) = true ∧ (t.outlet k).diodeBad = 0))
      ∧ (∀ j, j ≠ k.val → t.outlet j = s.outlet j) ∧ Keeps s t (onPages [0x18, 0x30 + k.val]) [2] [.outlets])
  ∧ (∀ (s : State), s.runs = true → s.enabled 0x16 = true →
    Ends (exec .pilotFrameStart s) fun t =>
      t.reg A.BAY_FRAME_CNT = s.reg A.BAY_FRAME_CNT + 1
      ∧ (∀ k, k < 12 → t.get (F.BAYK_PERIOD_COUNT k) =
          if s.enabled (0x30 + k) then (s.get (F.BAYK_PERIOD_COUNT k) + 1) % 2 ^ 32 else s.get (F.BAYK_PERIOD_COUNT k))
      ∧ (∀ k m d, k < 12 → s.enabled (0x30 + k) = true → (s.outlet k).pauseNext = 0 → (s.outlet k).paused = false → (s.outlet k).nextPilot = some (m, d) →
          m < 4 → d < 16384 → t.get (F.BAYK_PILOT_MODE k) = m ∧ t.get (F.BAYK_PILOT_DUTY k) = d ∧ (t.outlet k).nextPilot = none)
      ∧ (∀ k, k < 12 → s.enabled (0x30 + k) = true → (s.outlet k).pauseNext ≠ 0 →
          t.get (F.BAYK_PILOT_MODE k) = 1 ∧ t.get (F.BAYK_PILOT_DUTY k) = 10000 ∧ (t.outlet k).paused = true)
      ∧ Keeps s t (onPages (0x16 :: List.range' 0x30 12)) (List.range' 3 12) [.outlets])
  ∧ (∀ (s : State) (k : Fin 12), s.runs = true → (s.outlet k).paused = true →
    Ends (exec (.pilotPauseEnd k) s) fun t =>
      (t.outlet k).paused = false ∧ ((s.bay k = stOffering ∨ s.bay k = stClosing ∨ s.bay k = stCharging) → (t.outlet k).nextPilot = some (s.pilotPwm k))
      ∧ (∀ j, j ≠ k.val → t.outlet j = s.outlet j) ∧ Keeps s t (among []) [] [.outlets])

/-- Mirror confirmations, cause waits, the auxiliary contactor's delay, lock pulses, confirmations, timeouts and repeats, and the end of the overcurrent
grace. (R293, R294, R296, R300, R304) -/
def Obligations.ContactorAndLockSignals : Prop :=
  (∀ (s : State) (k : Fin 12) (closed : Bool) (us : Nat), s.runs = true →
    Ends (exec (.mirrorConfirm k closed us) s) fun t =>
      t.on (F.BAYK_STATE_CLOSED k) = closed ∧ t.outlet k = { s.outlet k with mirOpen := !closed, mirUs := us } ∧ (∀ j, j ≠ k.val → t.outlet j = s.outlet j)
      ∧ (t.pf.confirmed.testBit k = (s.pf.confirmed.testBit k || (s.pf.warned && !closed && bit s.pf.closed k)))
      ∧ Keeps s t (among [(F.BAYK_STATE_CLOSED k).addr]) [] [.outlets, .pf])
  ∧ (∀ (s : State) (k : Fin 12), s.runs = true → s.get (F.BAYK_CFG_AUX_MODE k) = 2 → (s.outlet k).conM = true → s.on (F.BAYK_STATE_CLOSED k) = true →
    Ends (exec (.auxContactorDelay k) s) fun t =>
      t.outlet k = { s.outlet k with conA := true } ∧ (∀ j, j ≠ k.val → t.outlet j = s.outlet j) ∧ Keeps s t (among []) [] [.outlets])
  ∧ (∀ (s : State) (k : Fin 12), s.runs = true →
    Ends (exec (.ocGraceEnd k) s) fun t =>
      t.outlet k = { s.outlet k with grace := (s.outlet k).grace.tail } ∧ (∀ j, j ≠ k.val → t.outlet j = s.outlet j)
      ∧ Keeps s t (among []) [] [.outlets])
  ∧ (∀ (s : State) (k : Fin 12), s.runs = true → s.bayOn k = true → closedState (s.bay k) = true → s.driven k = true → s.outHigh k = false →
    s.latched k = false → s.pf.warned = false → s.boot.bench = false →
    Ends (exec (.causeWaitTimeout k) s) fun t =>
      t.outlet k = { s.outlet k with causeOut := true } ∧ (∀ j, j ≠ k.val → t.outlet j = s.outlet j) ∧ Keeps s t (among []) [] [.outlets])
  ∧ (∀ (s : State) (k : Fin 12), s.runs = true →
    Ends (exec (.lockPulseEnd k) s) fun t =>
      t.outlet k = { s.outlet k with lckA := false, lckB := false } ∧ (∀ j, j ≠ k.val → t.outlet j = s.outlet j) ∧ Keeps s t (among []) [] [.outlets])
  ∧ (∀ (s : State) (k : Fin 12) (locked : Bool) (ms : Nat), s.runs = true →
    Ends (exec (.lockFeedbackConfirm k locked ms) s) fun t =>
      t.on (F.BAYK_STATE_LOCKED k) = locked
      ∧ ((s.outlet k).lockDir = (if locked then 1 else 2) → (t.outlet k).lockDir = 0 ∧ (t.outlet k).lockTry = 0 ∧ t.get (hdrPend (0x30 + k) 3) = 1
          ∧ (s.takes (3 + k) → ∃ pl, Queued s t (3 + k) 0x44 none 0 pl))
      ∧ ((s.outlet k).lockDir ≠ (if locked then 1 else 2) → t.outlet k = s.outlet k) ∧ (∀ j, j ≠ k.val → t.outlet j = s.outlet j)
      ∧ Keeps s t (fun a => a = (F.BAYK_STATE_LOCKED k).addr ∨ eventRegs (0x30 + k) 3 a) [3 + k.val] [.outlets])
  ∧ (∀ (s : State) (k : Fin 12), s.runs = true → (s.outlet k).lockDir ≠ 0 → (s.outlet k).lockWait = false → (s.outlet k).lockTry < 2 →
    Ends (exec (.lockConfirmTimeout k) s) fun t =>
      t.outlet k = { s.outlet k with lockWait := true } ∧ (∀ j, j ≠ k.val → t.outlet j = s.outlet j) ∧ Keeps s t (among []) [] [.outlets])
  ∧ (∀ (s : State) (k : Fin 12), s.runs = true → (s.outlet k).lockDir ≠ 0 → (s.outlet k).lockWait = false → 2 ≤ (s.outlet k).lockTry →
    Ends (exec (.lockConfirmTimeout k) s) fun t =>
      (t.outlet k).lockDir = 0 ∧ ((s.outlet k).lockDir = 1 → t.on (F.BAYK_STATE_AUTHORISED k) = false) ∧ t.get (hdrPend (0x30 + k) 3) = 1
      ∧ Keeps s t (fun a => a = (F.BAYK_STATE_AUTHORISED k).addr ∨ eventRegs (0x30 + k) 3 a) [3 + k.val] [.outlets, .fresh])
  ∧ (∀ (s : State) (k : Fin 12), s.runs = true → (s.outlet k).lockWait = true → s.pf.warned = false →
    Ends (exec (.lockRepeat k) s) fun t =>
      t.outlet k = { s.outlet k with lockTry := 2, lockWait := false, lckA := (s.outlet k).lockDir == 1, lckB := (s.outlet k).lockDir == 2 }
      ∧ (∀ j, j ≠ k.val → t.outlet j = s.outlet j) ∧ Keeps s t (among []) [] [.outlets])

/-- The 1 ms evaluation of an enabled outlet, class by class and state by state, in the cases named. Unstated STATE causes follow log entry 33. (R282,
R286, R287, R289, R290, R302) -/
def Obligations.OutletEvaluations : Prop :=
  (∀ (s : State) (k : Fin 12), s.runs = true → s.bayOn k = true →
    Ends (exec (.outletEvaluation k) s) fun t =>
      (∀ j, j ≠ k.val → t.outlet j = s.outlet j) ∧ Keeps s t (onPages [0x16, 0x17, 0x19, 0x30 + k.val]) [2, 3 + k.val] [.outlets, .rcm, .se, .fresh])
  ∧ (∀ (s : State) (k : Fin 12), s.runs = true → s.bayOn k = true → s.latched k = true → s.bay k ∉ [stDisabled, stService, stTripped, stWelded] →
    Ends (exec (.outletEvaluation k) s) fun t =>
      t.bay k = stTripped ∧ t.get (F.BAYK_STATE_CAUSE k) = cTrip ∧ (t.outlet k).conM = false ∧ (t.outlet k).conA = false ∧ t.outHigh k = false
      ∧ t.on (F.BAYK_STATE_AUTHORISED k) = false)
  ∧ (∀ (s : State) (k : Fin 12), s.runs = true → s.bayOn k = true → s.latched k = false → s.boot.bench = true → s.bay k ∉ [stDisabled, stService] →
    Ends (exec (.outletEvaluation k) s) fun t =>
      t.bay k = stService ∧ t.get (F.BAYK_STATE_CAUSE k) = cBench ∧ (t.outlet k).conM = false ∧ t.outHigh k = false)
  ∧ (∀ (s : State) (k : Fin 12), s.runs = true → s.bayOn k = true → s.latched k = false → s.boot.bench = false → s.pf.warned = true →
    closedState (s.bay k) = true →
    Ends (exec (.outletEvaluation k) s) fun t =>
      t.bay k = stOpening ∧ t.get (F.BAYK_STATE_TARGET k) = stFaultF ∧ t.get (F.BAYK_STATE_CAUSE k) = cPower ∧ (t.outlet k).conM = false)
  ∧ (∀ (s : State) (k : Fin 12) (c : Nat), s.runs = true → s.bayOn k = true → s.bay k = stOffering → s.mayClose k = true → s.latched k = false →
    s.boot.bench = false → (s.rc k).testLatch = false → (s.outlet k).alarmHold = false → s.on (F.BAYK_STATE_CLOSED k) = false → (s.outlet k).weldV = false →
    (s.outlet k).awaitOpen = false → (s.outlet k).known = true → (s.outlet k).fresh = true → s.get (F.BAYK_PILOT_CANDIDATE k) = c →
    s.get (F.BAYK_PILOT_CLASS k) = c → (c = 2 ∨ (c = 3 ∧ s.on (F.BAYK_CFG_VENT_OK k) = true)) → s.get (F.BAYK_PILOT_MODE k) = 2 →
    (s.outlet k).diodeBad < s.get F.BAY_TIMING_DEBOUNCE → (s.outlet k).ppNew = false → s.noCable k = false →
    Ends (exec (.outletEvaluation k) s) fun t =>
      t.bay k = stClosing ∧ (t.outlet k).conM = true ∧ (t.outlet k).conA = (s.get (F.BAYK_CFG_AUX_MODE k) == 1) ∧ t.pinM k = true)
  ∧ (∀ (s : State) (k : Fin 12), s.runs = true → s.bayOn k = true → s.bay k = stClosing → s.on (F.BAYK_STATE_CLOSED k) = true → s.latched k = false →
    s.boot.bench = false → s.pf.warned = false →
    Ends (exec (.outletEvaluation k) s) fun t =>
      t.bay k = stCharging ∧ (t.outlet k).conM = (s.outlet k).conM ∧ (t.outlet k).conA = (s.outlet k).conA)
  ∧ (∀ (s : State) (k : Fin 12), s.runs = true → s.bayOn k = true → s.bay k = stOpening → (s.outlet k).awaitOpen = true → (s.outlet k).mirOpen = true →
    s.latched k = false → s.boot.bench = false → s.get (F.BAYK_STATE_TARGET k) ∈ [stIdle, stOffering, stConnected, stFaultF] →
    Ends (exec (.outletEvaluation k) s) fun t =>
      t.bay k = s.get (F.BAYK_STATE_TARGET k) ∧ t.get (F.BAYK_STATE_CAUSE k) = (s.outlet k).openCause % 256 ∧ (t.outlet k).awaitOpen = false)
  ∧ (∀ (s : State) (k : Fin 12), s.runs = true → s.bayOn k = false →
    Ends (exec (.outletEvaluation k) s) fun t => Keeps s t (among []) [] [])

/-- Flicker, invalid state, contactor timeout, weld check, withdrawal, fault hold, overcurrent and lost meter: the state reached, the cause and the
outputs. Unstated STATE causes follow log entry 33. (R282, R287, R289, R290, R291, R295, R297, R298, R303, R304) -/
def Obligations.OutletTimersAndAlarms : Prop :=
  (∀ (s : State) (k : Fin 12), s.runs = true → s.bayOn k = true → s.get (F.BAYK_PILOT_FLICKER k) ≤ s.get F.BAY_TIMING_FLICKER_MAX →
    Ends (exec (.flickerWindowEnd k) s) fun t =>
      t.get (F.BAYK_PILOT_FLICKER k) = 0 ∧ t.outlet k = { s.outlet k with badWins := 0 }
      ∧ Keeps s t (among [A.BAYK_PILOT k]) [] [.outlets])
  ∧ (∀ (s : State) (k : Fin 12), s.runs = true → s.bayOn k = true → s.get F.BAY_TIMING_FLICKER_MAX < s.get (F.BAYK_PILOT_FLICKER k) → (s.outlet k).badWins < 2 →
    Ends (exec (.flickerWindowEnd k) s) fun t =>
      t.get (F.BAYK_PILOT_FLICKER k) = 0 ∧ (t.outlet k).badWins = (s.outlet k).badWins + 1
      ∧ t.get (F.BAYK_VIOL_TOTAL k) = satInc 65535 (s.get (F.BAYK_VIOL_TOTAL k)) ∧ t.get (hdrPend (0x30 + k) 1) = 1 ∧ t.bay k = s.bay k
      ∧ Keeps s t (fun a => a = A.BAYK_PILOT k ∨ a = A.BAYK_VIOL k ∨ eventRegs (0x30 + k) 1 a) [3 + k.val] [.outlets])
  ∧ (∀ (s : State) (k : Fin 12), s.runs = true → s.bayOn k = true → s.get F.BAY_TIMING_FLICKER_MAX < s.get (F.BAYK_PILOT_FLICKER k) → (s.outlet k).badWins = 2 →
    s.bay k = stCharging →
    Ends (exec (.flickerWindowEnd k) s) fun t =>
      t.bay k = stWithdrawing ∧ t.get (F.BAYK_STATE_CAUSE k) = cFlicker ∧ t.on (F.BAYK_STATE_AUTHORISED k) = false ∧ (t.outlet k).fault = cFlicker
      ∧ Keeps s t (onPages [0x16, 0x19, 0x30 + k.val]) [3 + k.val] [.outlets, .se])
  ∧ (∀ (s : State) (k : Fin 12) (code : Nat), s.runs = true → code < 256 → code ∉ bayCodes →
    Ends (exec (.invalidStateAlarm k code) s) fun t =>
      t.bay k = stFaultF ∧ (t.outlet k).alarmHold = true ∧ t.outHigh k = false ∧ (t.outlet k).conM = false
      ∧ t.get (F.BAYK_OEPOCH k) = (s.get (F.BAYK_OEPOCH k) + 1) % 2 ^ 32 ∧ t.on (F.BAYK_STATE_LATCHED k) = true ∧ t.get (hdrPend 0x16 0) = 1
      ∧ t.get (hdrPend (0x30 + k) 5) = 1 ∧ Keeps s t (onPages [0x16, 0x19, 0x30 + k.val]) [2, 3 + k.val] [.outlets, .se])
  ∧ (∀ (s : State) (k : Fin 12), s.runs = true → s.bayOn k = true → s.bay k = stClosing → s.on (F.BAYK_STATE_CLOSED k) = false →
    Ends (exec (.contactorTimeout k) s) fun t =>
      t.bay k = stOpening ∧ t.get (F.BAYK_STATE_TARGET k) = stFaultF ∧ t.get (F.BAYK_STATE_CAUSE k) = cMirror ∧ (t.outlet k).conM = false
      ∧ t.on (F.BAYK_STATE_LATCHED k) = true ∧ Keeps s t (onPages [0x16, 0x19, 0x30 + k.val]) [3 + k.val] [.outlets, .se])
  ∧ (∀ (s : State) (k : Fin 12), s.runs = true → s.bayOn k = true → (s.outlet k).awaitOpen = true → (s.outlet k).mirOpen = false →
    s.bay k ∉ [stService, stDisabled, stClosing] →
    Ends (exec (.contactorTimeout k) s) fun t =>
      t.bay k = stWelded ∧ t.get (F.BAYK_STATE_CAUSE k) = cMirror ∧ t.get (hdrPend (0x30 + k) 4) = 1
      ∧ Keeps s t (onPages [0x16, 0x19, 0x30 + k.val]) [3 + k.val] [.outlets, .se])
  ∧ (∀ (s : State) (k : Fin 12), s.runs = true → s.bayOn k = true → (s.outlet k).weldCheck = true → s.on (F.BAYK_STATE_VOLTAGE k) = true → s.outHigh k = false →
    s.bay k ∉ [stDisabled, stService, stWelded] →
    Ends (exec (.weldCheck k) s) fun t =>
      t.bay k = stWelded ∧ t.get (F.BAYK_STATE_CAUSE k) = cWeld ∧ t.get (hdrPend (0x30 + k) 4) = 1
      ∧ Keeps s t (onPages [0x16, 0x19, 0x30 + k.val]) [3 + k.val] [.outlets, .se])
  ∧ (∀ (s : State) (k : Fin 12), s.runs = true → s.bayOn k = true → (s.outlet k).weldCheck = true → s.on (F.BAYK_STATE_VOLTAGE k) = false →
    Ends (exec (.weldCheck k) s) fun t => t.outlet k = { s.outlet k with weldCheck := false } ∧ Keeps s t (among []) [] [.outlets])
  ∧ (∀ (s : State) (k : Fin 12), s.runs = true → s.bayOn k = true → s.bay k = stWithdrawing →
    Ends (exec (.withdrawTimeout k) s) fun t =>
      t.bay k = stOpening ∧ (t.outlet k).conM = false ∧ (t.outlet k).conA = false
      ∧ t.get (F.BAYK_STATE_CAUSE k) = (if s.get F.BAY_HOLD_TIME_OPEN_I * 10 ≤ (s.outlet k).current then cIgnored else s.get (F.BAYK_STATE_CAUSE k))
      ∧ t.get (F.BAYK_STATE_TARGET k) = s.openTarget k false (s.outlet k).stateF
      ∧ Keeps s t (onPages [0x16, 0x19, 0x30 + k.val]) [3 + k.val] [.outlets, .se])
  ∧ (∀ (s : State) (k : Fin 12), s.runs = true → s.bayOn k = true → s.bay k = stFaultF → retriable (s.outlet k).fault = true →
    s.get (F.BAYK_VIOL_RETRIES k) < s.get F.BAY_OC_CFG_RETRY_MAX →
    Ends (exec (.faultHoldExpiry k) s) fun t =>
      t.bay k = stIdle ∧ (t.outlet k).nextPilot = some pilotHigh ∧ Keeps s t (onPages [0x16, 0x19, 0x30 + k.val]) [3 + k.val] [.outlets, .se])
  ∧ (∀ (s : State) (k : Fin 12), s.runs = true → s.bayOn k = true → s.bay k = stCharging → (s.outlet k).excess = true → (s.outlet k).paused = false →
    s.get (F.BAYK_VIOL_LEVEL k) = 0 →
    Ends (exec (.overcurrentTimeout k) s) fun t =>
      t.get (F.BAYK_VIOL_LEVEL k) = 1 ∧ (t.allowance k).1 ≤ 6000 ∧ t.bay k = stCharging ∧ t.get (hdrPend (0x30 + k) 1) = 1
      ∧ Keeps s t (onPages [0x19, 0x30 + k.val]) [3 + k.val] [.outlets, .se])
  ∧ (∀ (s : State) (k : Fin 12), s.runs = true → s.bayOn k = true → s.bay k = stCharging → (s.outlet k).excess = true → (s.outlet k).paused = false →
    s.get (F.BAYK_VIOL_LEVEL k) ≠ 0 → (s.outlet k).grace = [] →
    Ends (exec (.overcurrentTimeout k) s) fun t =>
      t.get (F.BAYK_VIOL_LEVEL k) = 2 ∧ t.bay k = stWithdrawing ∧ t.get (F.BAYK_STATE_CAUSE k) = cOver ∧ t.on (F.BAYK_STATE_AUTHORISED k) = false
      ∧ Keeps s t (onPages [0x16, 0x19, 0x30 + k.val]) [3 + k.val] [.outlets, .se])
  ∧ (∀ (s : State) (k : Fin 12), s.runs = true → s.bayOn k = true → s.bay k = stCharging → s.on (F.MTRK_QSTAT_VALID k) = false →
    Ends (exec (.meterLostTimeout k) s) fun t =>
      t.bay k = stWithdrawing ∧ t.get (F.BAYK_STATE_CAUSE k) = cMeter ∧ t.on (F.BAYK_STATE_AUTHORISED k) = false ∧ (t.outlet k).fault = cMeter
      ∧ Keeps s t (onPages [0x16, 0x19, 0x30 + k.val]) [3 + k.val] [.outlets, .se])

/-- The nine outlet commands of ring 15 + k with their checks and effects, BAY[k].CTRL.ENABLE and writes of LMG_LIMIT. A command row acts at once (log
entry 35). (R279, R285, R289, R291, R292, R300, R301, R306, R307, R308) -/
def Obligations.OutletCommands : Prop :=
  (∀ (s : State) (k : Fin 12) (c : Instr) (typ : Nat) (f : Frame),
    ((c = .authorise k ∧ typ = 1) ∨ (c = .stop k ∧ typ = 2) ∨ (c = .setLimit k ∧ typ = 3) ∨ (c = .pilotPause k ∧ typ = 4) ∨ (c = .allowClose k ∧ typ = 5)
      ∨ (c = .lock k ∧ typ = 6) ∨ (c = .unlock k ∧ typ = 7) ∨ (c = .resetFault k ∧ typ = 8) ∨ (c = .digital k ∧ typ = 9)) →
    s.runs = true → s.bayHead k typ = some f → (f.payload.length ≠ 8 ∨ fieldLe f.payload 0 4 ≠ s.get (F.BAYK_OEPOCH k) ∨ s.boot.bench = true ∨ s.pf.warned = true) →
    (f.payload.length = 8 → if typ = 4 then 1 ≤ cmdArg f ∧ cmdArg f ≤ 10000 else cmdArg f = 0) →
    Ends (exec c s) fun t =>
      let code := if f.payload.length ≠ 8 then 0x1E else if fieldLe f.payload 0 4 ≠ s.get (F.BAYK_OEPOCH k) then 0x40 else 0x41
      t.get (hdrErrcode (0x30 + k)) = code ∧ (t.ring (15 + k)).frames = (s.ring (15 + k)).frames.tail ∧ outletReply s t k f code
      ∧ Keeps s t (fun a => errRegs (0x30 + k) a ∨ lostRegs a) [3 + k.val, 15 + k.val] [])
  ∧ (∀ (s : State) (k : Fin 12) (f : Frame), s.bayHead k 1 = some f → s.bayTakes k f → cmdArg f = 0 → s.on (F.BAYK_CFG_AUTH_SRC k) = true →
    (s.bay k = stConnected ∨ s.bay k = stOffering) →
    Ends (exec (.authorise k) s) fun t =>
      t.on (F.BAYK_STATE_AUTHORISED k) = true ∧ t.bay k = s.bay k ∧ (t.ring (15 + k)).frames = (s.ring (15 + k)).frames.tail ∧ outletReply s t k f 0
      ∧ (s.ses k = sesIdle → s.enabled 0x19 = true → t.ses k = sesStarting)
      ∧ Keeps s t (onPages [0x19, 0x30 + k.val]) [3 + k.val, 15 + k.val] [.outlets, .se])
  ∧ (∀ (s : State) (k : Fin 12) (f : Frame), s.bayHead k 2 = some f → s.bayTakes k f → cmdArg f = 0 →
    Ends (exec (.stop k) s) fun t =>
      (s.bay k ≠ stOffering ∨ s.ses k = sesIdle → t.on (F.BAYK_STATE_AUTHORISED k) = false)
      ∧ (t.ring (15 + k)).frames = (s.ring (15 + k)).frames.tail
      ∧ t.bay k = (if s.bay k = stOffering then stConnected else if s.bay k = stClosing then stOpening
          else if s.bay k = stCharging then stWithdrawing else s.bay k)
      ∧ (s.bay k = stClosing → (t.outlet k).conM = false ∧ (t.outlet k).conA = false)
      ∧ (s.bay k = stCharging → t.get (F.BAYK_STATE_CAUSE k) = cHost ∧ (t.outlet k).nextPilot = some pilotHigh)
      ∧ Keeps s t (onPages [0x16, 0x17, 0x19, 0x30 + k.val]) [3 + k.val, 15 + k.val] [.outlets, .rcm, .se])
  ∧ (∀ (s : State) (k : Fin 12) (f : Frame), s.bayHead k 3 = some f → s.bayTakes k f → (cmdArg f ≤ 100000 ∨ cmdArg f = 0xFFFFF) →
    Ends (exec (.setLimit k) s) fun t =>
      t.get (F.BAYK_HOST_LIMIT_MA k) = cmdArg f ∧ (t.ring (15 + k)).frames = (s.ring (15 + k)).frames.tail ∧ outletReply s t k f 0
      ∧ Keeps s t (fun a => a = (F.BAYK_HOST_LIMIT_MA k).addr ∨ lostRegs a) [3 + k.val, 15 + k.val] [.se])
  ∧ (∀ (s : State) (k : Fin 12) (f : Frame), s.bayHead k 4 = some f → s.bayTakes k f → 1 ≤ cmdArg f → cmdArg f ≤ 10000 →
    (s.bay k = stOffering ∨ s.bay k = stClosing ∨ s.bay k = stCharging) →
    Ends (exec (.pilotPause k) s) fun t =>
      t.outlet k = { s.outlet k with pauseNext := cmdArg f } ∧ (t.ring (15 + k)).frames = (s.ring (15 + k)).frames.tail ∧ outletReply s t k f 0
      ∧ Keeps s t lostRegs [3 + k.val, 15 + k.val] [.outlets, .se])
  ∧ (∀ (s : State) (k : Fin 12) (f : Frame), s.bayHead k 5 = some f → s.bayTakes k f → cmdArg f = 0 → s.bay k = stOffering →
    s.on (F.BAYK_CFG_DIG_GATE k) = true →
    Ends (exec (.allowClose k) s) fun t =>
      t.outlet k = { s.outlet k with allowClose := true } ∧ (t.ring (15 + k)).frames = (s.ring (15 + k)).frames.tail ∧ outletReply s t k f 0
      ∧ Keeps s t lostRegs [3 + k.val, 15 + k.val] [.outlets, .se])
  ∧ (∀ (s : State) (k : Fin 12) (f : Frame), s.bayHead k 6 = some f → s.bayTakes k f → cmdArg f = 0 → (s.bay k = stIdle ∨ s.bay k = stConnected) →
    s.on (F.BAYK_CFG_LOCK_EN k) = true →
    Ends (exec (.lock k) s) fun t =>
      t.outlet k = { s.outlet k with lockDir := 1, lockTry := 1, lockWait := false, lckA := true, lckB := false }
      ∧ (t.ring (15 + k)).frames = (s.ring (15 + k)).frames.tail ∧ outletReply s t k f 0 ∧ Keeps s t lostRegs [3 + k.val, 15 + k.val] [.outlets, .se])
  ∧ (∀ (s : State) (k : Fin 12) (f : Frame), s.bayHead k 7 = some f → s.bayTakes k f → cmdArg f = 0 → s.unlockOk k = true →
    Ends (exec (.unlock k) s) fun t =>
      t.outlet k = { s.outlet k with lockDir := 2, lockTry := 1, lockWait := false, lckA := false, lckB := true }
      ∧ (t.ring (15 + k)).frames = (s.ring (15 + k)).frames.tail ∧ outletReply s t k f 0 ∧ Keeps s t lostRegs [3 + k.val, 15 + k.val] [.outlets, .se])
  ∧ (∀ (s : State) (k : Fin 12) (f : Frame), s.bayHead k 8 = some f → s.bayTakes k f → cmdArg f = 0 → s.resetOk k = true →
    Ends (exec (.resetFault k) s) fun t =>
      t.bay k = stIdle ∧ t.on (F.BAYK_STATE_LATCHED k) = false ∧ t.get (F.BAYK_VIOL_RETRIES k) = 0 ∧ (t.outlet k).alarmHold = false
      ∧ (s.bay k = stTripped → t.latched k = false) ∧ (t.outlet k).nextPilot = some pilotHigh ∧ (t.ring (15 + k)).frames = (s.ring (15 + k)).frames.tail
      ∧ Keeps s t (onPages [0x16, 0x17, 0x19, 0x30 + k.val]) [2, 3 + k.val, 15 + k.val] [.outlets, .rcm, .se, .fresh])
  ∧ (∀ (s : State) (k : Fin 12) (f : Frame), s.bayHead k 9 = some f → s.bayTakes k f → cmdArg f ≤ 1 → s.bay k ≠ stService →
    Ends (exec (.digital k) s) fun t =>
      t.get (F.BAYK_CFG_DIGITAL k) = cmdArg f ∧ (t.ring (15 + k)).frames = (s.ring (15 + k)).frames.tail ∧ outletReply s t k f 0
      ∧ ((s.bay k = stOffering ∨ s.bay k = stClosing ∨ s.bay k = stCharging) → ∃ d, (t.outlet k).nextPilot = some (2, d) ∧ (cmdArg f = 1 → d = 500))
      ∧ Keeps s t (fun a => a = (F.BAYK_CFG_DIGITAL k).addr ∨ lostRegs a) [3 + k.val, 15 + k.val] [.outlets, .se])
  ∧ (∀ (s : State) (req : Req) (k : Fin 12), s.runs = true → s.enabled 0x16 = true → s.enabled 0x18 = true → s.get (F.BAYK_RATED_MA k) ≠ 0 →
    s.boot.bench = false → s.enabled (0x30 + k) = false →
    Ends (exec (.bayEnableWrite req k true) s) fun t =>
      t.enabled (0x30 + k) = true ∧ t.bay k = stIdle ∧ t.get (F.BAYK_OEPOCH k) = (s.get (F.BAYK_OEPOCH k) + 1) % 2 ^ 32
      ∧ t.on (F.BAYK_STATE_LATCHED k) = false ∧ t.get (F.BAYK_VIOL_RETRIES k) = 0 ∧ t.outHigh k = false
      ∧ Keeps s t (onPages [0x16, 0x19, 0x30 + k.val]) [3 + k.val] [.outlets, .se])
  ∧ (∀ (s : State) (req : Req) (k : Fin 12), s.runs = true →
    (s.enabled 0x16 = false ∨ s.enabled 0x18 = false ∨ s.get (F.BAYK_RATED_MA k) = 0 ∨ s.boot.bench = true) →
    Ends (exec (.bayEnableWrite req k true) s) fun t => t.get (hdrErrcode (0x30 + k)) = 0x1E ∧ Keeps s t (errRegs (0x30 + k)) [] [])
  ∧ (∀ (s : State) (req : Req) (k : Fin 12), s.runs = true → s.bay k ∈ [stClosing, stCharging, stWithdrawing, stOpening, stService] →
    Ends (exec (.bayEnableWrite req k false) s) fun t => t.get (hdrErrcode (0x30 + k)) = 0x1E ∧ Keeps s t (errRegs (0x30 + k)) [] [])
  ∧ (∀ (s : State) (req : Req) (k : Fin 12), s.runs = true → s.enabled (0x30 + k) = true →
    s.bay k ∉ [stClosing, stCharging, stWithdrawing, stOpening, stService] →
    Ends (exec (.bayEnableWrite req k false) s) fun t =>
      t.enabled (0x30 + k) = false ∧ t.bay k = stDisabled ∧ t.on (F.BAYK_STATE_AUTHORISED k) = false ∧ t.outHigh k = false
      ∧ t.get (F.BAYK_PILOT_MODE k) = 0 ∧ t.get (F.BAYK_ALLOW_MA k) = 0
      ∧ Keeps s t (onPages [0x16, 0x17, 0x19, 0x30 + k.val]) [2, 3 + k.val] [.outlets, .rcm, .se, .fresh])
  ∧ (∀ (s : State) (req : Req) (k : Fin 12) (v : W32), s.runs = true → getBits v 0 20 ≤ 100000 → getBits v 24 8 = s.get (F.BAYK_OEPOCH k) % 256 →
    Ends (exec (.lmgLimitWrite req k v) s) fun t =>
      t.get (F.BAYK_LMG_LIMIT_MA k) = getBits v 0 20 ∧ t.get (F.BAYK_LMG_LIMIT_EPOCH k) = getBits v 24 8
      ∧ Keeps s t (among [(F.BAYK_LMG_LIMIT_MA k).addr, (0x30 + k) * 4096 + 0x024]) [] [])
  ∧ (∀ (s : State) (req : Req) (k : Fin 12) (v : W32), s.runs = true →
    (100000 < getBits v 0 20 ∨ getBits v 24 8 ≠ s.get (F.BAYK_OEPOCH k) % 256) →
    Ends (exec (.lmgLimitWrite req k v) s) fun t =>
      t.get (hdrErrcode (0x30 + k)) = (if 100000 < getBits v 0 20 then 0x1E else 0x40) ∧ Keeps s t (errRegs (0x30 + k)) [] [])

/-- An evaluation with its counters and trips, the signal's loss, the trip path check and the self-tests. Roundings and self-test corners follow log
entries 22, 23 and 37. (R321, R322, R323, R325, R326, R328, R329) -/
def Obligations.ResidualCurrent : Prop :=
  (∀ (s : State) (k : Fin 12) (taps : List (Int × Bool)), s.runs = true → s.rcmOn k = true → s.rcmLive k = true →
    min 100000 ((s.rc k).count + taps.length) < s.nDc + 27 →
    Ends (exec (.rcmEvaluation k taps) s) fun t =>
      (t.rc k).count = min 100000 ((s.rc k).count + taps.length) ∧ t.on (F.RCM_STAT_SETTLED k) = false ∧ t.on (bitFld A.RCM_READY k) = false
      ∧ (∀ j, t.latched j = s.latched j) ∧ (∀ j, j ≠ k.val → t.rc j = s.rc j) ∧ Keeps s t (onPages [0x17]) [3 + k.val] [.rcm, .fresh])
  ∧ (∀ (s : State) (k : Fin 12) (taps : List (Int × Bool)), s.runs = true → s.rcmOn k = true → s.rcmLive k = true →
    s.nDc + 27 ≤ min 100000 ((s.rc k).count + taps.length) →
    let w := ((taps.map fun x => divEven (x.1 * s.get (F.RCM_FS_UA_UA k)) 6710886).reverse ++ (s.rc k).taps).take 512
    let dc := divEven ((w.take s.nDc).foldl (· + ·) 0 - s.getInt (F.RCM_OFS_UA k) * s.nDc) s.nDc
    Ends (exec (.rcmEvaluation k taps) s) fun t =>
      t.on (F.RCM_STAT_SETTLED k) = true ∧ t.on (F.RCM_STAT_INVALID k) = (taps.any fun x => x.2) ∧ t.get (F.RCM_DC_UA k) = unsignedOf 32 dc
      ∧ ((taps.any fun x => x.2) = true → (t.rc k).test = none ∧ (∀ j, t.latched j = s.latched j)) ∧ (∀ j, j ≠ k.val → t.rc j = s.rc j ∧ t.latched j = s.latched j)
      ∧ Keeps s t (onPages [0x14, 0x16, 0x17]) [2, 3 + k.val] [.rcm, .fresh, .outlets, .pq])
  ∧ (∀ (s : State) (k : Fin 12) (taps : List (Int × Bool)) (n : Fin 8), s.runs = true → s.rcmOn k = true → s.rcmLive k = true →
    s.nDc + 27 ≤ min 100000 ((s.rc k).count + taps.length) → s.on (F.RCM_STAT_SETTLED k) = true → (taps.any fun x => x.2) = false → (s.rc k).test = none →
    (s.rc k).held = 0 → s.latched k = false → s.rowEn n = true → (∀ m, m < 8 → m ≠ n.val → s.rowEn m = false) →
    (s.rc k).cnt.getD n 0 = s.get (F.RCM_ROW_B_HOLD n) →
    Ends (exec (.rcmEvaluation k taps) s) fun t =>
      (s.rowLevel n ≤ t.rowVal k n →
        t.latched k = true ∧ t.outHigh k = false ∧ t.get (F.RCM_TRIP_INFO_CAUSE k) = (if s.on (F.RCM_ROW_A_KIND n) then 2 else 1)
        ∧ t.get (F.RCM_TRIP_INFO_ROW k) = n ∧ t.get (F.RCM_TRIP_INFO_COUNT k) = satInc 65535 (s.get (F.RCM_TRIP_INFO_COUNT k))
        ∧ t.reg64 (A.RCM_TRIP_TS_LO k) = s.ts % 2 ^ 64 ∧ t.get (hdrPend 0x17 0) = 1 ∧ t.on (bitFld A.RCM_READY k) = false ∧ (t.rc k).postDue = true)
      ∧ (t.rowVal k n < s.rowLevel n → (∀ x ∈ taps, x.1.natAbs < 8388607) → t.latched k = false ∧ (t.rc k).cnt.getD n 0 = (s.rc k).cnt.getD n 0 - 1))
  ∧ (∀ (s : State) (k : Fin 12) (m a : Bool), s.runs = true → (s.latched k = true ∨ (s.rc k).testLatch = true) → (m || a) = true →
    Ends (exec (.tripPathCheck k m a) s) fun t =>
      t.get F.SYS_START_CNT_PATH = 1 ∧ t.get F.SYS_START_CNT_PATH_MASK = setBit (s.get F.SYS_START_CNT_PATH_MASK) k true ∧ t.get (hdrPend 0x17 4) = 1
      ∧ (∀ x, (s.rc k).test = some x → (t.rc k).test = some { x with result := if x.result = 1 then 4 else x.result })
      ∧ Keeps s t (onPages [0x00, 0x17]) [2, 3 + k.val] [.boot, .rcm, .fresh])
  ∧ (∀ (s : State) (k : Fin 12), s.runs = true →
    Ends (exec (.tripPathCheck k false false) s) fun t => Keeps s t (among []) [] [])
  ∧ (∀ (s : State) (k : Fin 12), s.runs = true → s.rcmOn k = true → (s.rcmLive k = false ∨ s.on (F.RCM_STAT_INVALID k) = true) →
    Ends (exec (.rcmSignalTimeout k) s) fun t =>
      (t.rc k).test = none ∧ (s.rcmLive k = false → t.on (F.RCM_STAT_SETTLED k) = false)
      ∧ (s.outHigh k = true → t.latched k = true ∧ t.outHigh k = false ∧ t.get (F.RCM_TRIP_INFO_CAUSE k) = (if s.rcmLive k then 3 else 4)
          ∧ t.get (hdrPend 0x17 0) = 1)
      ∧ Keeps s t (onPages [0x14, 0x16, 0x17]) [2, 3 + k.val] [.rcm, .fresh, .outlets, .pq])
  ∧ (∀ (s : State) (k : Fin 12), s.runs = true → s.testOk k = true →
    Ends (exec (.selftestStart k) s) fun t =>
      (t.rc k).test = some {} ∧ t.on (F.RCM_STAT_ST_BUSY k) = true ∧ t.on (bitFld A.RCM_READY k) = false
      ∧ t.get (hdrSeq 0x17) = (s.get (hdrSeq 0x17) + 1) % 2 ^ 32 ∧ (∀ j, j ≠ k.val → t.rc j = s.rc j)
      ∧ Keeps s t (onPages [0x17]) [3 + k.val] [.rcm, .fresh])
  ∧ (∀ (s : State) (k : Fin 12), s.runs = true → s.testOk k = false → (s.rc k).auto = false →
    Ends (exec (.selftestStart k) s) fun t => t.get (hdrErrcode 0x17) = 0x50 ∧ Keeps s t (errRegs 0x17) [] [])
  ∧ (∀ (s : State) (k : Fin 12), s.runs = true → (s.rc k).postDue = true → s.latched k = true → 1000 ≤ (s.rc k).calm → s.testOk k = true →
    Ends (exec (.selftestAfterTrip k) s) fun t =>
      (t.rc k).test = some {} ∧ (t.rc k).postDue = false ∧ t.on (F.RCM_STAT_ST_BUSY k) = true ∧ t.latched k = true
      ∧ Keeps s t (onPages [0x17]) [3 + k.val] [.rcm, .fresh])
  ∧ (∀ (s : State) (k : Fin 12) (x : SelfTest), s.runs = true → (s.rc k).test = some x → 900 ≤ x.ms →
    Ends (exec (.selftestComplete k) s) fun t =>
      let ua := s.get (F.RCM_TEST_UA_UA k)
      let r := if x.result ≠ 1 then x.result else if ua ≤ 10 * (s.getInt (F.RCM_DC_UA k) - x.dc0).natAbs then 2
        else if ua ≤ 10 * s.get (F.RCM_AC_UA k) then 3 else 1
      (t.rc k).test = none ∧ t.on (F.RCM_STAT_ST_BUSY k) = false ∧ t.get (F.RCM_ST_RESULT_RESULT k) = r % 8 ∧ (t.rc k).lastOk = (r == 1)
      ∧ (r = 1 → t.reg64 (A.RCM_ST_TS_LO k) = s.ts % 2 ^ 64) ∧ (2 ≤ r ∧ r ≤ 4 → t.get (hdrPend 0x17 1) = 1)
      ∧ Keeps s t (onPages [0x16, 0x17]) [2, 3 + k.val] [.rcm, .fresh])

/-- A die temperature and the band it gives, the change of modulator layer, shim writes and the end of a background window. (R225, R226, R227, R231, R240,
R241, R242) -/
def Obligations.TemperatureAndShimWords : Prop :=
  (∀ (s : State) (reading : Int), s.runs = true →
    let l := (reading :: s.cal.readings).take 16
    let m := divEven (l.foldl (· + ·) 0) l.length
    let e : List Int := [-320, 0, 320, 640, 960, 1200, 1440]
    let b := (e.filter fun x => decide (x ≤ m)).length
    let cur := if s.on F.CAL_TEMP_PENDING then s.get F.CAL_TEMP_NEXT else s.get F.CAL_TEMP_BAND
    let decided := (cur + 1 < b ∨ b + 1 < cur) ∨ (b = cur + 1 ∧ e.getD cur 0 + 16 ≤ m) ∨ (b + 1 = cur ∧ m < e.getD b 0 - 16)
    Ends (exec (.tempMeasurement reading) s) fun t =>
      t.cal.readings = l ∧ t.get F.CAL_TEMP_T = unsignedOf 16 m ∧ t.get F.CAL_TEMP_BAND = s.get F.CAL_TEMP_BAND
      ∧ (decided → t.get F.CAL_TEMP_NEXT = b ∧ t.on F.CAL_TEMP_PENDING = true ∧ t.cal.decidedAt = s.ts)
      ∧ (¬ decided → t.get F.CAL_TEMP_NEXT = s.get F.CAL_TEMP_NEXT ∧ t.on F.CAL_TEMP_PENDING = s.on F.CAL_TEMP_PENDING)
      ∧ Keeps s t (among [0x1310C]) [] [.cal])
  ∧ (∀ (s : State), s.runs = true →
    Ends (exec .modLayerSwitch s) fun t =>
      t.cal = (if s.on F.CAL_TEMP_PENDING then { s.cal with modBand := s.get F.CAL_TEMP_NEXT } else s.cal) ∧ Keeps s t (among []) [] [.cal])
  ∧ (∀ (s : State) (req : Req) (val : W32) (i : Nat), s.runs = true → s.privOpen = true → s.shimIndex = some i → s.on F.CAL_SHIM_SEL_SET = true →
    s.on F.CAL_STATUS_JIG = true → shimOk (s.get F.CAL_SHIM_SEL_TABLE) (s.get F.CAL_SHIM_SEL_WORD) val = true →
    let marks := s.get F.CAL_SHIM_SEL_TABLE = 0 ∧ s.get F.CAL_SHIM_SEL_WORD < 3
    let mark := shimChan (s.get F.CAL_SHIM_SEL_UNIT) (s.get F.CAL_SHIM_SEL_BAND) 3
    Ends (exec (.shimWrite req true val) s) fun t =>
      t.pendWord i = val ∧ (marks → t.pendWord mark = 1) ∧ (∀ j, j ≠ i → ¬ (marks ∧ j = mark) → t.pendWord j = s.pendWord j)
      ∧ t.cal.active = s.cal.active ∧ t.get (hdrSeq 0x13) = (s.get (hdrSeq 0x13) + 1) % 2 ^ 32
      ∧ Keeps s t (among [0x13024, F.CAL_STATUS_PENDING_DIRTY.addr]) [] [.cal])
  ∧ (∀ (s : State) (req : Req) (priv : Bool) (val : W32), s.runs = true → (priv && s.privOpen) = false →
    Ends (exec (.shimWrite req priv val) s) fun t => t.get (hdrErrcode 0x13) = 0x03 ∧ Keeps s t (errRegs 0x13) [] [])
  ∧ (∀ (s : State) (req : Req) (val : W32), s.runs = true → s.privOpen = true → s.shimIndex.isSome = true → s.on F.CAL_SHIM_SEL_SET = true →
    s.on F.CAL_STATUS_JIG = false →
    Ends (exec (.shimWrite req true val) s) fun t => t.get (hdrErrcode 0x13) = 0x30 ∧ Keeps s t (errRegs 0x13) [] [])
  ∧ (∀ (s : State) (req : Req) (val : W32) (w : Nat), s.runs = true → s.privOpen = true → s.on F.CAL_SHIM_SEL_SET = true →
    s.on F.CAL_STATUS_JIG = true → s.get F.CAL_SHIM_SEL_TABLE = 0 → s.get F.CAL_SHIM_SEL_UNIT < 64 →
    s.get F.CAL_SHIM_SEL_WORD = w →
    (w = 0 ∧ 335544 < val.toInt.natAbs) ∨ (w = 1 ∧ val = 0) ∨ (w = 2 ∧ 5000000 < val.toInt.natAbs) →
    Ends (exec (.shimWrite req true val) s) fun t => t.get (hdrErrcode 0x13) = 0x33 ∧ Keeps s t (errRegs 0x13) [] [])
  ∧ (∀ (s : State), s.runs = true → s.cal.windowOpen = true → s.cal.windowLeft = 0 →
    Ends (exec .bgWindowEnd s) fun t =>
      t.get F.CAL_WIN_STAT_COUNT = (s.get F.CAL_WIN_STAT_COUNT + 1) % 65536 ∧ t.get (hdrPend 0x13 0) = 1
      ∧ t.cal.windowOpen = true ∧ t.cal.windowLeft = 1024 * 2 ^ s.get F.CAL_CFG_WINDOW_CODE ∧ t.cal.windowLen = t.cal.windowLeft
      ∧ (∀ c, c < 64 → t.get (F.CAL_BG_GAIN c) = s.get (F.CAL_BG_GAIN c) ∧ t.get (F.CAL_BG_DELAY c) = s.get (F.CAL_BG_DELAY c))
      ∧ ((∀ c, c < 64 → (s.bgChan c).usable * 4 < s.cal.windowLen * 3) →
          t.cal.nextGain = s.cal.nextGain ∧ t.get F.CAL_WIN_STAT_REJECTS = s.get F.CAL_WIN_STAT_REJECTS ∧ t.legal = s.legal)
      ∧ Keeps s t (onPages [0x0A, 0x13]) [2, 38, 48] [.cal, .legal])
  ∧ (∀ (s : State), s.runs = true → (s.cal.windowOpen = false ∨ s.cal.windowLeft ≠ 0) →
    Ends (exec .bgWindowEnd s) fun t => Keeps s t (among []) [] [])

/-- OFFSET, GAIN, PHASE, REF, FILL, COMMIT and DISCARD: accepted in jig mode with their effect, refused outside it. (R230, R231, R232, R234, R235) -/
def Obligations.JigOperations : Prop :=
  let started (s t : State) (o : JigOp) : Prop :=
    t.cal = { s.cal with jigOp := some o } ∧ t.on F.CAL_JIG_STAT_BUSY = true ∧ t.on F.CAL_JIG_STAT_OK = false ∧ t.get F.CAL_JIG_STAT_USED = 0
      ∧ t.get F.CAL_JIG_STAT_BAND = s.band ∧ Keeps s t (among [A.CAL_JIG_STAT]) [] [.cal]
  let free (s : State) : Prop := s.runs = true ∧ s.on F.CAL_JIG_STAT_BUSY = false
  (∀ (s : State) (ch : Fin 64) (n : Nat), free s → s.on F.CAL_STATUS_JIG = true → n ≠ 0 →
    Ends (exec (.jigOffset ch n) s) fun t => started s t { op := 1, ch := ch, refCh := 0, cycles := n, volt := false })
  ∧ (∀ (s : State) (ch : Fin 64) (volt : Bool) (n : Nat), free s → s.on F.CAL_STATUS_JIG = true → n ≠ 0 →
    Ends (exec (.jigGain ch volt n) s) fun t => started s t { op := 2, ch := ch, refCh := 0, cycles := n, volt := volt })
  ∧ (∀ (s : State) (ch refCh : Fin 64) (n : Nat), free s → s.on F.CAL_STATUS_JIG = true → n ≠ 0 →
    Ends (exec (.jigPhase ch refCh n) s) fun t => started s t { op := 3, ch := ch, refCh := refCh, cycles := n, volt := false })
  ∧ (∀ (s : State) (ch : Fin 64) (n : Nat), free s → s.on F.CAL_STATUS_JIG = true → 4096 ≤ n → s.injected ch = true →
    Ends (exec (.jigRef ch n) s) fun t => started s t { op := 4, ch := ch, refCh := 0, cycles := n, volt := false })
  ∧ (∀ (s : State) (ch refCh : Fin 64) (volt : Bool) (n : Nat), free s → s.on F.CAL_STATUS_JIG = false → n ≠ 0 →
    ∀ c ∈ ([.jigOffset ch n, .jigGain ch volt n, .jigPhase ch refCh n, .jigFill ch, .jigDiscard] : List Instr),
    Ends (exec c s) fun t => t.get (hdrErrcode 0x13) = 0x30 ∧ Keeps s t (errRegs 0x13) [] [])
  ∧ (∀ (s : State) (ch refCh : Fin 64) (volt : Bool) (n : Nat), s.runs = true → s.on F.CAL_JIG_STAT_BUSY = true →
    ∀ c ∈ ([.jigOffset ch n, .jigGain ch volt n, .jigPhase ch refCh n, .jigRef ch n, .jigFill ch, .jigCommit, .jigDiscard] : List Instr),
    Ends (exec c s) fun t => t.get (hdrErrcode 0x13) = 0x1E ∧ Keeps s t (errRegs 0x13) [] [])
  ∧ (∀ (s : State) (ch : Fin 64), free s → s.on F.CAL_STATUS_JIG = true →
    Ends (exec (.jigFill ch) s) fun t =>
      (∀ b w, b < 8 → w < 3 → t.pendWord (shimChan ch b w) =
        if (s.pendWord (shimChan ch b 3)).toNat % 2 = 1 then s.pendWord (shimChan ch b w) else s.pendWord (shimChan ch s.band w))
      ∧ (∀ j, (∀ b w, b < 8 → w < 3 → j ≠ shimChan ch b w) → t.pendWord j = s.pendWord j)
      ∧ t.on F.CAL_JIG_STAT_OK = true ∧ t.on F.CAL_JIG_STAT_BUSY = false ∧ t.get F.CAL_JIG_STAT_BAND = s.band ∧ t.get (hdrPend 0x13 4) = 1
      ∧ Keeps s t (fun a => a = A.CAL_JIG_STAT ∨ a = F.CAL_STATUS_JIG.addr ∨ eventRegs 0x13 4 a) [48] [.cal])
  ∧ (∀ (s : State), free s → s.on F.CAL_STATUS_JIG = true →
    Ends (exec .jigDiscard s) fun t =>
      t.cal = { s.cal with pend := s.cal.active, jigOp := none } ∧ t.reg A.CAL_CFG = BitVec.ofNat 32 s.cal.actCfg
      ∧ t.reg A.CAL_LIM_GAIN = BitVec.ofNat 32 s.cal.actGain ∧ t.reg A.CAL_LIM_PHASE = BitVec.ofNat 32 s.cal.actPhase
      ∧ t.on F.CAL_JIG_STAT_OK = true ∧ t.get (hdrPend 0x13 4) = 1
      ∧ Keeps s t (fun a => a ∈ [A.CAL_JIG_STAT, F.CAL_STATUS_JIG.addr, A.CAL_CFG, A.CAL_LIM_GAIN, A.CAL_LIM_PHASE] ∨ eventRegs 0x13 4 a) [48] [.cal])
  ∧ (∀ (s : State), free s → s.on F.CAL_STATUS_JIG = true → s.dirty = true → s.cal.commit = none →
    Ends (exec .jigCommit s) fun t =>
      (∃ c, t.cal = { s.cal with commit := some c } ∧ c.step = 1 ∧ c.record.words = s.cal.pend ∧ c.record.seq = ((s.reg A.CAL_SET_SEQ).toNat + 1) % 2 ^ 32
        ∧ c.record.id = shimId c.record)
      ∧ t.on F.CAL_JIG_STAT_BUSY = true ∧ t.on F.CAL_JIG_STAT_OK = false ∧ (∃ j ∈ t.nv.jobs, j.kind = .shim)
      ∧ Keeps s t (fun a => a ∈ [A.CAL_JIG_STAT, F.NVL_HOLDUP_STEP_OK.addr] ∨ eventRegs 0x09 1 a) [2] [.cal, .nv])
  ∧ (∀ (s : State), free s → s.on F.CAL_STATUS_JIG = true → s.dirty = false →
    Ends (exec .jigCommit s) fun t => t.get (hdrErrcode 0x13) = 0x1E ∧ Keeps s t (errRegs 0x13) [] [])

/-- The completion of a jig operation writes its words or its error, and a committed record is activated at a boundary. (R232, R233, R234, R235) -/
def Obligations.JigResultsAndActivation : Prop :=
  let ended (s t : State) : Prop :=
    t.cal.jigOp = none ∧ t.on F.CAL_JIG_STAT_BUSY = false ∧ t.get (hdrPend 0x13 4) = 1
      ∧ Keeps s t (fun a => a ∈ [A.CAL_JIG_STAT, A.CAL_JIG_RESULT, F.CAL_STATUS_JIG.addr] ∨ errRegs 0x13 a ∨ eventRegs 0x13 4 a) [48] [.cal]
  (∀ (s : State) (o : JigOp), s.runs = true → s.cal.jigOp = some o → o.cycles ≤ o.gathered → s.band = s.get F.CAL_JIG_STAT_BAND → o.op = 1 →
    let m := divEven o.sx (o.n * 2 ^ 30)
    Ends (exec .jigOpComplete s) fun t =>
      ended s t ∧ t.reg A.CAL_JIG_RESULT = wordI m ∧ t.get F.CAL_JIG_STAT_USED = min o.gathered 0xFFFF
      ∧ (m.natAbs ≤ 335544 → t.on F.CAL_JIG_STAT_OK = true ∧ t.pendWord (shimChan o.ch s.band 0) = wordI m ∧ t.pendWord (shimChan o.ch s.band 3) = 1
          ∧ ∀ j, j ≠ shimChan o.ch s.band 0 → j ≠ shimChan o.ch s.band 3 → t.pendWord j = s.pendWord j)
      ∧ (335544 < m.natAbs → m.natAbs < 2 ^ 31 → t.on F.CAL_JIG_STAT_OK = false ∧ t.get (hdrErrcode 0x13) = 0x33 ∧ t.cal.pend = s.cal.pend))
  ∧ (∀ (s : State) (o : JigOp) (words : List (Nat × W32)) (res : Int), s.runs = true → s.cal.jigOp = some o → o.cycles ≤ o.gathered →
    s.band = s.get F.CAL_JIG_STAT_BAND → s.jigResult o = (words, res) →
    Ends (exec .jigOpComplete s) fun t =>
      ended s t ∧ t.reg A.CAL_JIG_RESULT = wordI res ∧ t.on F.CAL_JIG_STAT_OK = jigWordsOk o.op words
      ∧ (jigWordsOk o.op words = false → t.get (hdrErrcode 0x13) = 0x33 ∧ t.cal.pend = s.cal.pend))
  ∧ (∀ (s : State) (o : JigOp), s.runs = true → s.cal.jigOp = some o → o.gathered < o.cycles → 4 * o.cycles ≤ o.elapsed →
    Ends (exec .jigOpComplete s) fun t =>
      ended s t ∧ t.on F.CAL_JIG_STAT_OK = false ∧ t.cal.pend = s.cal.pend
      ∧ t.get (hdrErrcode 0x13) = (if s.band = s.get F.CAL_JIG_STAT_BAND then 0x32 else 0x31))
  ∧ (∀ (s : State) (o : JigOp), s.runs = true → s.cal.jigOp = some o → o.gathered < o.cycles → o.elapsed < 4 * o.cycles →
    Ends (exec .jigOpComplete s) fun t => Keeps s t (among []) [] [])
  ∧ (∀ (s : State) (c : Commit), s.runs = true → s.cal.commit = some c → c.step = 5 →
    Ends (exec .commitActivate s) fun t =>
      t.cal.active = c.record.words ∧ t.cal.live = c.record.words ∧ t.cal.pend = s.cal.pend ∧ t.cal.commit = none ∧ t.cal.windowOpen = false
      ∧ t.reg A.CAL_SET_ID = BitVec.ofNat 32 c.record.id ∧ t.reg A.CAL_SET_SEQ = BitVec.ofNat 32 c.record.seq
      ∧ t.get (hdrPend 0x13 5) = 1 ∧ t.get (hdrPend 0x13 4) = 1 ∧ t.on F.CAL_JIG_STAT_OK = true ∧ t.on F.CAL_STATUS_SHIM_OK = true
      ∧ (∀ ch, ch < 64 → (∀ w, w < 2 → spRead shimFactory s.cal.active (shimRef ch w) = spRead shimFactory c.record.words (shimRef ch w)) →
          t.get (F.CAL_BG_GAIN ch) = s.get (F.CAL_BG_GAIN ch) ∧ t.bgChan ch = s.bgChan ch)
      ∧ (∀ ch, ch < 64 → spRead shimFactory s.cal.active (shimRef ch 0) ≠ spRead shimFactory c.record.words (shimRef ch 0) →
          t.get (F.CAL_BG_GAIN ch) = 0x40000000 ∧ t.bgChan ch = {})
      ∧ Keeps s t (onPages [0x13]) [2, 48] [.cal])
  ∧ (∀ (s : State), s.runs = true → (∀ c, s.cal.commit = some c → c.step ≠ 5) →
    Ends (exec .commitActivate s) fun t => Keeps s t (among []) [] [])

/-- A half-cycle instant with the events it opens and closes, and arming, forcing, delivering and aborting a capture. Log entries 20, 21 and 42 name the
open points. (R256, R257, R258, R259, R262, R263, R266, R267, R268) -/
def Obligations.PowerQualityAndCapture : Prop :=
  (∀ (s : State), s.runs = true → s.enabled 0x14 = true → s.enabled 0x11 = true → s.ms.idx % 128 = 1 → s.pq.last ≠ s.mt.total → s.pf.warned = false →
    (∀ e ∈ s.pq.events, e.feeder < 4 ∧ e.kind ≤ 3) →
    Ends (exec .pqeInstant s) fun t =>
      let inst := (2 * s.get F.DEC_CYCLE_CNT + s.ms.idx / 128) % 2 ^ 32
      t.pq.last = s.mt.total ∧ t.pq.lastT = s.ts - 58
      ∧ (∀ f, f < 4 → t.reg (A.PQE_FEEDER_LAST f) = if (s.get F.PQE_CFG_FEEDER_EN).testBit f then BitVec.ofNat 32 inst else s.reg (A.PQE_FEEDER_LAST f))
      ∧ (∀ f p v g, f < 4 → p < 3 → (s.get F.PQE_CFG_FEEDER_EN).testBit f = true → (s.get (F.PQE_FEEDER_CFG_PH_EN f)).testBit p = true →
          s.pqValue f p = some (v, g) → t.reg (uF f p) = BitVec.ofNat 32 v)
      ∧ Keeps s t (onPages [0x14]) [39] [.pq])
  ∧ (∀ (s : State), s.runs = true → s.enabled 0x14 = true → s.enabled 0x11 = true → s.ms.idx % 128 = 1 → s.pq.last ≠ s.mt.total → s.pf.warned = true →
    (∀ e ∈ s.pq.events, e.feeder < 4 ∧ e.kind ≤ 3) →
    Ends (exec .pqeInstant s) fun t => t.pq.events = [] ∧ t.pq.last = s.mt.total ∧ Keeps s t (onPages [0x14]) [39] [.pq])
  ∧ (∀ (s : State), s.runs = true → (s.enabled 0x14 = false ∨ s.enabled 0x11 = false ∨ s.ms.idx % 128 ≠ 1 ∨ s.pq.last = s.mt.total) →
    Ends (exec .pqeInstant s) fun t => Keeps s t (among []) [] [])
  ∧ (∀ (s : State), s.runs = true → s.on F.PQE_CAP_CTRL_ARM = false →
    Ends (exec (.captureArm true) s) fun t =>
      t.on F.PQE_CAP_CTRL_ARM = true ∧ t.get F.PQE_CAP_STAT_STATE = s.get F.PQE_CAP_STAT_STATE ∧ (s.get F.PQE_CAP_STAT_STATE = 0 → t.pq.fillNext = true)
      ∧ Keeps s t (among [0x14024, F.PQE_CAP_CTRL_ARM.addr, F.PQE_CAP_STAT_STATE.addr]) [] [.pq])
  ∧ (∀ (s : State), s.runs = true → s.on F.PQE_CAP_CTRL_ARM = true →
    Ends (exec (.captureArm false) s) fun t =>
      t.on F.PQE_CAP_CTRL_ARM = false
      ∧ (s.get F.PQE_CAP_STAT_STATE ≤ 1 → t.get F.PQE_CAP_STAT_STATE = 0 ∧ t.get F.PQE_CAP_STAT_FILLED = 0 ∧ t.pq.fillNext = false)
      ∧ (2 ≤ s.get F.PQE_CAP_STAT_STATE → t.pq = s.pq ∧ t.get F.PQE_CAP_STAT_STATE = s.get F.PQE_CAP_STAT_STATE)
      ∧ Keeps s t (among [0x14024, F.PQE_CAP_CTRL_ARM.addr, F.PQE_CAP_STAT_STATE.addr]) [] [.pq])
  ∧ (∀ (s : State) (arm : Bool), s.runs = true → s.on F.PQE_CAP_CTRL_ARM = arm →
    Ends (exec (.captureArm arm) s) fun t =>
      t.on F.PQE_CAP_CTRL_ARM = arm ∧ t.get (hdrSeq 0x14) = (s.get (hdrSeq 0x14) + 1) % 2 ^ 32 ∧ Keeps s t (among [0x14024, F.PQE_CAP_CTRL_ARM.addr]) [] [])
  ∧ (∀ (s : State), s.runs = true → (s.enabled 0x14 = false ∨ s.get F.PQE_CAP_STAT_STATE = 0 ∨ s.get F.PQE_CAP_STAT_STATE = 2) →
    Ends (exec .captureForce s) fun t => t.get (hdrSeq 0x14) = (s.get (hdrSeq 0x14) + 1) % 2 ^ 32 ∧ Keeps s t (among [0x14024]) [] [])
  ∧ (∀ (s : State), s.runs = true → s.enabled 0x14 = true → s.pf.warned = false → s.get F.PQE_CAP_STAT_STATE = 1 →
    Ends (exec .captureForce s) fun t =>
      t.get F.PQE_CAP_STAT_STATE = 2 ∧ t.get F.PQE_CAP_STAT_LAST_ID = s.pq.nextId % 65536 ∧ t.pq.trig = s.get F.DEC_CYCLE_CNT
      ∧ t.pq.nextId = (s.pq.nextId + 1) % 65536 ∧ Keeps s t (among [0x14024, F.PQE_CAP_STAT_STATE.addr]) [] [.pq])
  ∧ (∀ (s : State), s.runs = true → s.enabled 0x14 = true → s.get F.PQE_CAP_STAT_STATE = 3 →
    Ends (exec .captureForce s) fun t =>
      t.get F.PQE_CAP_COUNT_MISSED = satInc 65535 (s.get F.PQE_CAP_COUNT_MISSED) ∧ t.get (hdrPend 0x14 5) = 1
      ∧ Keeps s t (fun a => a ∈ [0x14024, F.PQE_CAP_COUNT_MISSED.addr] ∨ eventRegs 0x14 5 a) [39] [])
  ∧ (∀ (s : State), s.runs = true →
    let passed := (s.get F.DEC_CYCLE_CNT + 2 ^ 32 - s.pq.trig) % 2 ^ 32
    Ends (exec .captureDeliverStart s) fun t =>
      (s.get F.PQE_CAP_STAT_STATE = 2 → s.get F.PQE_CAP_CFG_POST ≤ passed →
        t.get F.PQE_CAP_STAT_STATE = 3 ∧ t.pq = { s.pq with slot := 0, pos := 0 })
      ∧ (s.get F.PQE_CAP_STAT_STATE ≠ 2 ∨ passed < s.get F.PQE_CAP_CFG_POST → t.get F.PQE_CAP_STAT_STATE = s.get F.PQE_CAP_STAT_STATE ∧ t.pq = s.pq)
      ∧ Keeps s t (among [F.PQE_CAP_STAT_STATE.addr]) [] [.pq])
  ∧ (∀ (s : State), s.runs = true → s.enabled 0x14 = true → s.get F.PQE_CAP_STAT_STATE = 3 → s.takes (40 + s.pq.slot % 4) →
    let e := 40 + s.pq.slot % 4
    let total := s.get F.PQE_CAP_CFG_PRE + s.get F.PQE_CAP_CFG_POST
    let n := min (min 3 ((s.slotSize e - 60) / 1024)) (total - s.pq.pos)
    0 < n →
    Ends (exec .captureFrame s) fun t =>
      Queued s t e 0x10 none 0 (s.capPayload s.pq.slot s.pq.pos n)
      ∧ (s.pq.pos + n < total → t.pq = { s.pq with pos := s.pq.pos + n } ∧ Keeps s t (among []) [e] [.pq])
      ∧ (total ≤ s.pq.pos + n → s.pq.slot + 1 < s.capNch → t.pq = { s.pq with pos := 0, slot := s.pq.slot + 1 } ∧ Keeps s t (among []) [e] [.pq])
      ∧ (total ≤ s.pq.pos + n → s.capNch ≤ s.pq.slot + 1 →
          t.get F.PQE_CAP_COUNT_DONE = satInc 65535 (s.get F.PQE_CAP_COUNT_DONE) ∧ t.get F.PQE_CAP_STAT_STATE = 0 ∧ t.get (hdrPend 0x14 4) = 1
          ∧ t.pq.fillNext = s.on F.PQE_CAP_CTRL_ARM
          ∧ Keeps s t (fun a => a ∈ [F.PQE_CAP_COUNT_DONE.addr, F.PQE_CAP_STAT_STATE.addr] ∨ eventRegs 0x14 4 a) [39, e] [.pq]))
  ∧ (∀ (s : State), s.runs = true → ¬ s.takes (40 + s.pq.slot % 4) →
    Ends (exec .captureFrame s) fun t => Keeps s t (among []) [] [])
  ∧ (∀ (s : State), s.runs = true →
    Ends (exec .captureAbort s) fun t =>
      t.get (hdrSeq 0x14) = (s.get (hdrSeq 0x14) + 1) % 2 ^ 32
      ∧ (s.get F.PQE_CAP_STAT_STATE = 3 → t.get F.PQE_CAP_STAT_STATE = 0 ∧ t.get F.PQE_CAP_STAT_FILLED = 0 ∧ t.pq.fillNext = s.on F.PQE_CAP_CTRL_ARM)
      ∧ (s.get F.PQE_CAP_STAT_STATE ≠ 3 → t.get F.PQE_CAP_STAT_STATE = s.get F.PQE_CAP_STAT_STATE ∧ t.pq = s.pq)
      ∧ Keeps s t (among [0x14024, F.PQE_CAP_STAT_STATE.addr]) [] [.pq])

/-- IDENTIFY, DECIDE, STOP_SESSION and SIGN_READING: the answers, the session's state and what is refused. Log entry 38 names the refusals the spec leaves
open. (R336, R338, R341, R342, R343, R344, R345, R355) -/
def Obligations.SessionCommands : Prop :=
  let gone (s t : State) (k : Nat) : Prop := (t.ring (15 + k)).frames = (s.ring (15 + k)).frames.tail
  (∀ (s : State) (k : Fin 12) (f : Frame) (r fe gp : Nat), s.cmdOutlet k 0x20 = some f → s.canIdentify k f → s.ses k = sesIdle →
    s.lookup ((f.payload.drop 4).take 8) = (r, fe, gp) → (r = 0 ∨ (r = 3 ∧ s.get F.SES_CFG_UNKNOWN_POLICY = 2)) → s.bayReady k = true →
    Ends (exec (.identify k) s) fun t =>
      t.ses k = sesStarting ∧ t.on (F.BAYK_STATE_AUTHORISED k) = true ∧ (t.session k).key = (f.payload.drop 4).take 8
      ∧ t.get (F.SES_OUT_STAT_PLAN k) = (if r = 0 then gp % 8 else s.get F.SES_CFG_DEFAULT_PLAN)
      ∧ t.get (F.SES_OUT_SESSION_ID k) = s.se.nextId % 2 ^ 32 ∧ t.se.nextId = (s.se.nextId + 1) % 2 ^ 32 ∧ gone s t k ∧ outletReply s t k f 0
      ∧ Keeps s t (onPages [0x19, 0x30 + k.val]) [3 + k.val, 15 + k.val] [.se])
  ∧ (∀ (s : State) (k : Fin 12) (f : Frame) (r fe gp : Nat), s.cmdOutlet k 0x20 = some f → s.canIdentify k f → s.ses k = sesIdle →
    s.lookup ((f.payload.drop 4).take 8) = (r, fe, gp) → (r = 0 ∨ (r = 3 ∧ s.get F.SES_CFG_UNKNOWN_POLICY = 2)) → s.bay k = stIdle →
    Ends (exec (.identify k) s) fun t =>
      t.ses k = sesPreauth ∧ (t.session k).key = (f.payload.drop 4).take 8 ∧ t.se.nextId = s.se.nextId ∧ gone s t k ∧ outletReply s t k f 0
      ∧ Keeps s t (onPages [0x19]) [3 + k.val, 15 + k.val] [.se])
  ∧ (∀ (s : State) (k : Fin 12) (f : Frame) (fe gp : Nat), s.cmdOutlet k 0x20 = some f → s.canIdentify k f → s.ses k = sesIdle →
    s.lookup ((f.payload.drop 4).take 8) = (3, fe, gp) → s.get F.SES_CFG_UNKNOWN_POLICY = 1 →
    Ends (exec (.identify k) s) fun t =>
      t.ses k = sesPending ∧ (t.session k).referral = some f.seq ∧ t.get (hdrPend 0x19 2) = 1 ∧ gone s t k
      ∧ Keeps s t (onPages [0x19]) [2, 15 + k.val] [.se])
  ∧ (∀ (s : State) (k : Fin 12) (f : Frame) (r fe gp : Nat), s.cmdOutlet k 0x20 = some f → s.canIdentify k f → s.ses k = sesIdle →
    s.lookup ((f.payload.drop 4).take 8) = (r, fe, gp) → (r = 1 ∨ r = 2 ∨ (r = 3 ∧ s.get F.SES_CFG_UNKNOWN_POLICY ≠ 1 ∧ s.get F.SES_CFG_UNKNOWN_POLICY ≠ 2)) →
    Ends (exec (.identify k) s) fun t =>
      t.ses k = sesIdle ∧ gone s t k ∧ outletReply s t k f 0 ∧ (s.takes (3 + k) → ∃ g ∈ (t.ring (3 + k)).frames, g.ref = some f.seq ∧ fieldLe g.payload 0 1 = r)
      ∧ Keeps s t lostRegs [3 + k.val, 15 + k.val] [])
  ∧ (∀ (s : State) (k : Fin 12) (f : Frame), s.cmdOutlet k 0x20 = some f → s.canIdentify k f → s.ses k = sesActive → s.on F.SES_CFG_TAP_STOP = true →
    (s.session k).key = (f.payload.drop 4).take 8 → (s.session k).startMark ≠ 0 →
    Ends (exec (.identify k) s) fun t =>
      t.ses k = sesEnding ∧ (t.session k).reason = 0x03 ∧ t.on (F.BAYK_STATE_AUTHORISED k) = false ∧ gone s t k
      ∧ Keeps s t (onPages [0x16, 0x17, 0x19, 0x30 + k.val]) [3 + k.val, 15 + k.val] [.se, .outlets, .rcm])
  ∧ (∀ (s : State) (k : Fin 12) (f : Frame), s.cmdOutlet k 0x20 = some f → s.runs = true → f.payload.length < 28 →
    Ends (exec (.identify k) s) fun t =>
      t.get (hdrErrcode 0x19) = 0x1E ∧ t.ses k = s.ses k ∧ gone s t k ∧ outletReply s t k f 0x1E
      ∧ Keeps s t (fun a => errRegs 0x19 a ∨ lostRegs a) [3 + k.val, 15 + k.val] [.fresh])
  ∧ (∀ (s : State) (k : Fin 12) (f : Frame), s.cmdOutlet k 0x21 = some f → s.sesTakes k f → f.payload.length = 16 → fieldLe f.payload 4 1 ≤ 1 →
    fieldLe f.payload 6 1 ≤ 7 → s.ses k = sesPending →
    Ends (exec (.decide k) s) fun t =>
      t.ses k = (if fieldLe f.payload 4 1 = 0 then (if s.bayReady k then sesStarting else if s.bay k = stIdle then sesPreauth else sesIdle) else sesIdle)
      ∧ (fieldLe f.payload 4 1 = 0 → s.bayReady k = true → t.on (F.BAYK_STATE_AUTHORISED k) = true ∧ t.get (F.SES_OUT_STAT_PLAN k) = fieldLe f.payload 6 1)
      ∧ (t.session k).referral = none ∧ gone s t k
      ∧ (∀ r, (s.session k).referral = some r → s.takes (3 + k) →
          ∃ g l, (t.ring (3 + k)).frames = (s.ring (3 + k)).frames ++ g :: l ∧ g.typ = 0xA0 ∧ g.ref = some r ∧ g.status = 0 ∧ fieldLe g.payload 0 1 = 4)
      ∧ ((fieldLe f.payload 5 1).testBit 0 = false → ∀ a, t.sramByte a = s.sramByte a)
      ∧ ((fieldLe f.payload 5 1).testBit 0 = true → (s.session k).key.length = 8 →
          (t.cacheFind (s.session k).key).isSome = true ∨ t.get (hdrErrcode 0x19) = 0x60)
      ∧ Keeps s t (onPages [0x19, 0x30 + k.val]) [2, 3 + k.val, 15 + k.val] [.se, .sram])
  ∧ (∀ (s : State) (k : Fin 12) (f : Frame), s.cmdOutlet k 0x21 = some f → s.sesTakes k f → f.payload.length = 16 → fieldLe f.payload 4 1 ≤ 1 →
    fieldLe f.payload 6 1 ≤ 7 → s.ses k ≠ sesPending →
    Ends (exec (.decide k) s) fun t =>
      t.get (hdrErrcode 0x19) = 0x63 ∧ t.ses k = s.ses k ∧ gone s t k ∧ outletReply s t k f 0x63
      ∧ Keeps s t (fun a => errRegs 0x19 a ∨ lostRegs a) [3 + k.val, 15 + k.val] [.fresh])
  ∧ (∀ (s : State) (k : Fin 12) (f : Frame), s.cmdOutlet k 0x22 = some f → s.sesTakes k f → f.payload.length = 8 →
    Ends (exec (.stopSession k) s) fun t =>
      gone s t k
      ∧ (s.ses k = sesPreauth → t.ses k = sesIdle ∧ outletReply s t k f 0)
      ∧ (s.ses k = sesStarting → (s.session k).held = none → t.ses k = sesStarting ∧ (t.session k).held = some 0x01 ∧ outletReply s t k f 0)
      ∧ (s.ses k = sesActive → (s.session k).startMark ≠ 0 →
          t.ses k = sesEnding ∧ (t.session k).reason = 0x01 ∧ t.on (F.BAYK_STATE_AUTHORISED k) = false)
      ∧ (s.ses k = sesEnding → t.ses k = sesEnding ∧ (t.session k).reason = (s.session k).reason ∧ outletReply s t k f 0)
      ∧ (s.ses k = sesIdle ∨ s.ses k = sesPending → t.ses k = s.ses k ∧ t.get (hdrErrcode 0x19) = 0x63 ∧ outletReply s t k f 0x63)
      ∧ Keeps s t (onPages [0x16, 0x17, 0x19, 0x30 + k.val]) [3 + k.val, 15 + k.val] [.se, .outlets, .rcm, .fresh])
  ∧ (∀ (s : State) (k : Fin 12) (f : Frame), s.cmdOutlet k 0x23 = some f → s.sesTakes k f → f.payload.length = 12 → s.legal.watermark ≠ 0xFFFFFFFF →
    s.on F.SEA_STAT_KEY_OK = true →
    Ends (exec (.signReading k) s) fun t =>
      t.se = { s.se with meters := s.se.meters ++ [⟨k, (f.payload.drop 4).take 8, some f.seq⟩] } ∧ gone s t k ∧ Keeps s t (among []) [15 + k.val] [.se])

/-- The three session timers, the second tick, meter periods, progress, a signature that completes and an append retried. A session stays ENDING until its
STOP record is issued (log entry 38). (R344, R346, R350, R351, R353, R354, R355) -/
def Obligations.SessionTimersAndSigning : Prop :=
  (
  (∀ (s : State) (k : Fin 12) (r : Nat), s.runs = true → s.ses k = sesPending → (s.session k).referral = some r →
    Ends (exec (.decideTimeout k) s) fun t =>
      t.ses k = sesIdle ∧ (t.session k).referral = none
      ∧ (s.takes (3 + k) → ∃ g, (t.ring (3 + k)).frames = (s.ring (3 + k)).frames ++ [g] ∧ g.typ = 0xA0 ∧ g.ref = some r ∧ g.status = 0
          ∧ fieldLe g.payload 0 1 = 5)
      ∧ Keeps s t (fun a => a = A.SES_OUT_STAT k ∨ a = A.SES_ACTIVE_MASK ∨ lostRegs a) [3 + k.val] [.se])
  ∧ (∀ (s : State) (k : Fin 12), s.runs = true → s.ses k ≠ sesPending → Ends (exec (.decideTimeout k) s) fun t => Keeps s t (among []) [] [])
  ∧ (∀ (s : State) (k : Fin 12), s.runs = true →
    Ends (exec (.plugTimeout k) s) fun t =>
      t.ses k = (if s.ses k = sesPreauth then sesIdle else s.ses k) ∧ (∀ j, t.session j = s.session j)
      ∧ Keeps s t (among [A.SES_OUT_STAT k, A.SES_ACTIVE_MASK]) [] [.se])
  ∧ (∀ (s : State) (k : Fin 12), s.runs = true →
    Ends (exec (.endTimeout k) s) fun t =>
      (s.ses k = sesEnding → (s.session k).wait = false →
        t.session k = { s.session k with wait := true, notOpen := s.on (F.BAYK_STATE_CLOSED k) })
      ∧ (s.ses k ≠ sesEnding ∨ (s.session k).wait = true → t.se = s.se) ∧ (∀ j, j ≠ k.val → t.session j = s.session j) ∧ Keeps s t (among []) [] [.se])
  ∧ (∀ (s : State), s.runs = true →
    let billed (k : Nat) : Prop := (s.ses k = sesActive ∨ s.ses k = sesEnding) ∧ (s.session k).stopping = false
    let idle (k : Nat) : Prop := s.get (F.MTRK_ESTAT_RUNNING k) = 0 ∧ s.get F.SES_IDLE_CFG_IDLE_GRACE * 60 * 32768 ≤ s.ts - (s.meter k).idleFrom
    Ends (exec .secondTick s) fun t =>
      (∀ k, k < 12 → billed k →
        t.get (F.SES_OUT_DURATION k) = (s.ts - (s.session k).startTs) / 32768 % 2 ^ 32
        ∧ (idle k → t.get (F.SES_OUT_IDLE_S k) = (s.get (F.SES_OUT_IDLE_S k) + 1) % 2 ^ 32)
        ∧ (¬ idle k → t.get (F.SES_OUT_IDLE_S k) = s.get (F.SES_OUT_IDLE_S k))
        ∧ (∀ p, s.period (s.get (F.SES_OUT_STAT_PLAN k)) (s.utc - 1) = some p → s.on (F.BAYK_STATE_CLOSED k) = true → ¬ idle k →
            (t.session k).cost = ((s.session k).cost + p.time * 1000) % 2 ^ 64)
        ∧ (∀ p, s.period (s.get (F.SES_OUT_STAT_PLAN k)) (s.utc - 1) = some p → s.on (F.BAYK_STATE_CLOSED k) = false → idle k →
            (t.session k).cost = ((s.session k).cost + p.idle * 1000) % 2 ^ 64)
        ∧ (s.period (s.get (F.SES_OUT_STAT_PLAN k)) (s.utc - 1) = none → (t.session k).cost = (s.session k).cost % 2 ^ 64))
      ∧ (∀ k, k < 12 → ¬ billed k → t.session k = s.session k ∧ t.get (F.SES_OUT_DURATION k) = s.get (F.SES_OUT_DURATION k))
      ∧ (∀ k, k < 12 → t.ses k = s.ses k)
      ∧ t.se.tzNow = (if s.utc % 60 = 0 then s.getInt F.SES_TZ_MIN else s.se.tzNow) ∧ Keeps s t (inPages [0x19]) [] [.se])
  ∧ (∀ (s : State), s.runs = true → s.get F.SES_TIMING_METER_PERIOD ≠ 0 → s.pf.warned = false → s.enabled 0x19 = true → s.on F.SEA_STAT_KEY_OK = true →
    Ends (exec .meterPeriodDue s) fun t =>
      (∀ k, k < 12 → s.enabled (0x20 + k) = true → (⟨k, List.replicate 8 0, none⟩ : MeterReq) ∈ t.se.meters)
      ∧ (∃ l, t.se = { s.se with meters := s.se.meters ++ l } ∧ ∀ m ∈ l, m.outlet < 12 ∧ s.enabled (0x20 + m.outlet) = true ∧ m.ref = none)
      ∧ Keeps s t (among []) [] [.se])
  ∧ (∀ (s : State), s.runs = true → s.get F.SES_TIMING_METER_PERIOD ≠ 0 → s.pf.warned = false → s.enabled 0x19 = true → s.on F.SEA_STAT_KEY_OK = false →
    Ends (exec .meterPeriodDue s) fun t => t.get (hdrErrcode 0x19) = 0xA6 ∧ Keeps s t (errRegs 0x19) [] [])
  ∧ (∀ (s : State), s.runs = true → (s.get F.SES_TIMING_METER_PERIOD = 0 ∨ s.pf.warned = true ∨ s.enabled 0x19 = false) →
    Ends (exec .meterPeriodDue s) fun t => Keeps s t (among []) [] [])
  ∧ (∀ (s : State), s.runs = true → (s.get F.SES_IDLE_CFG_PROGRESS_S = 0 ∨ ∀ k, k < 12 → s.ses k ≠ sesActive) →
    Ends (exec .progressTick s) fun t => Keeps s t (among []) [] [])
  ∧ (∀ (s : State) (k : Nat), s.runs = true → s.get F.SES_IDLE_CFG_PROGRESS_S ≠ 0 → k < 12 → s.ses k = sesActive → (∀ j, j < k → s.ses j ≠ sesActive) →
    Ends (exec .progressTick s) fun t =>
      (s.takes 37 → ∃ g l, (t.ring 37).frames = (s.ring 37).frames ++ g :: l ∧ g.typ = 0x10 ∧ g.ref = none ∧ fieldLe g.payload 0 1 = k
        ∧ fieldLe g.payload 1 1 = sesActive ∧ fieldLe g.payload 4 4 = s.get (F.SES_OUT_SESSION_ID k) ∧ fieldLe g.payload 8 4 = s.get (F.SES_OUT_ENERGY_WH k)
        ∧ fieldLe g.payload 12 4 = s.get (F.SES_OUT_COST k) ∧ fieldLe g.payload 16 4 = s.get (F.SES_OUT_DURATION k)
        ∧ fieldLe g.payload 20 4 = s.get (F.SES_OUT_IDLE_S k))
      ∧ Keeps s t lostRegs [37] [])
  ) ∧ (
  (∀ (s : State) (r : SignReq) (rest : List SignReq), s.runs = true → s.se.queue = r :: rest → r.outlet < 12 → s.canSign = true →
    Ends (exec .signatureDone s) fun t =>
      let w := s.legal.watermark + 1
      let body := r.body.take 4 ++ le 4 w ++ r.body.drop 8
      t.legal.watermark = w ∧ t.se.queue = rest
      ∧ (∃ x, t.se.staged = some x ∧ x.mark = w ∧ x.req = r ∧ x.bytes = body ++ Config.ecdsaSign (s.sl.key.getD 0) s.fresh (Config.sha256 body))
      ∧ (w = 0xFFFFFFFF → t.get (hdrPend 0x19 6) = 1)
      ∧ Keeps s t (onPages [0x09, 0x0A, 0x16, 0x17, 0x19, 0x30 + r.outlet]) [2, 3 + r.outlet, 38, r.ring] [.fresh, .se, .legal, .lcd, .nv, .outlets, .rcm])
  ∧ (∀ (s : State), s.runs = true → (s.canSign = false ∨ s.se.queue = []) → Ends (exec .signatureDone s) fun t => Keeps s t (among []) [] [])
  ∧ (∀ (s : State) (x : Staged), s.runs = true → s.se.staged = some x → s.se.retry = true → x.delivered = false → s.pf.warned = false → x.req.outlet < 12 →
    Ends (exec .appendRetry s) fun t =>
      t.legal.watermark = s.legal.watermark ∧ t.se.queue = s.se.queue
      ∧ (∃ y, t.se.staged = some y ∧ y.mark = x.mark ∧ y.req = x.req ∧ y.bytes = x.bytes)
      ∧ ((s.streamHead 0).next = x.mark + 1 → s.reamsOf 0 ≠ [] → (∃ y, t.se.staged = some y ∧ y.delivered = true) ∧ t.se.retry = false)
      ∧ Keeps s t (onPages [0x09, 0x0A, 0x16, 0x17, 0x19, 0x30 + x.req.outlet]) [2, 3 + x.req.outlet, 38, x.req.ring]
          [.fresh, .se, .legal, .nv, .outlets, .rcm])
  ∧ (∀ (s : State), s.runs = true → (∀ x, s.se.staged = some x → s.se.retry = false ∨ x.delivered = true ∨ s.pf.warned = true) →
    Ends (exec .appendRetry s) fun t => Keeps s t (among []) [] [])
  )

/-- Inserting, deleting, looking up and clearing cache entries: the entry, the counts, the reports and the refusals. (R336, R337, R338, R339) -/
def Obligations.AuthorisationCache : Prop :=
  let kept (s t : State) (a n : Nat) : Prop := ∀ x, (x < a ∨ a + n ≤ x) → t.sramByte x = s.sramByte x
  (∀ (s : State) (a : Nat), s.runs = true → s.cacheFind s.acKey = some a →
    Ends (exec .cacheInsert s) fun t =>
      t.sramBytes a 8 = s.acKey ∧ t.cacheValid a = true ∧ t.get F.SES_AC_STAT_RESULT = 0 ∧ t.get F.SES_AC_COUNT_ENTRIES = s.get F.SES_AC_COUNT_ENTRIES
      ∧ t.get (hdrPend 0x19 3) = 1 ∧ kept s t a 16 ∧ Keeps s t (fun x => x = F.SES_AC_STAT_RESULT.addr ∨ eventRegs 0x19 3 x) [2] [.sram])
  ∧ (∀ (s : State), s.runs = true → s.cacheFind s.acKey = none →
    (∃ a ∈ bucketAt (buckets s.acKey).1 ++ bucketAt (buckets s.acKey).2, s.cacheValid a = false) →
    Ends (exec .cacheInsert s) fun t =>
      (∃ a ∈ bucketAt (buckets s.acKey).1 ++ bucketAt (buckets s.acKey).2,
        s.cacheValid a = false ∧ t.cacheValid a = true ∧ t.sramBytes a 8 = s.acKey ∧ kept s t a 16
        ∧ (((bucketAt (buckets s.acKey).2).filter fun x => !s.cacheValid x).length ≤ ((bucketAt (buckets s.acKey).1).filter fun x => !s.cacheValid x).length →
            a ∈ bucketAt (buckets s.acKey).1))
      ∧ (t.cacheFind s.acKey).isSome = true ∧ t.get F.SES_AC_STAT_RESULT = 0
      ∧ t.get F.SES_AC_COUNT_ENTRIES = (s.get F.SES_AC_COUNT_ENTRIES + 1) % 8192 ∧ t.get (hdrPend 0x19 3) = 1
      ∧ Keeps s t (fun x => x ∈ [F.SES_AC_STAT_RESULT.addr, F.SES_AC_COUNT_ENTRIES.addr] ∨ eventRegs 0x19 3 x) [2] [.sram])
  ∧ (∀ (s : State), s.runs = true → s.cacheFind s.acKey = none →
    (∀ a ∈ bucketAt (buckets s.acKey).1 ++ bucketAt (buckets s.acKey).2, s.cacheValid a = true) →
    Ends (exec .cacheInsert s) fun t =>
      t.get F.SES_AC_STAT_RESULT = 5 ∧ t.get F.SES_AC_STAT_FULL_REFUSED = satInc 65535 (s.get F.SES_AC_STAT_FULL_REFUSED)
      ∧ t.get (hdrErrcode 0x19) = 0x60 ∧ t.get (hdrPend 0x19 4) = 1 ∧ t.get (hdrPend 0x19 3) = 1
      ∧ Keeps s t (fun x => x = F.SES_AC_STAT_RESULT.addr ∨ errRegs 0x19 x ∨ eventRegs 0x19 3 x ∨ eventRegs 0x19 4 x) [2] [])
  ∧ (∀ (s : State) (a : Nat), s.runs = true → s.cacheFind s.acKey = some a →
    Ends (exec .cacheDelete s) fun t =>
      t.cacheValid a = false ∧ kept s t (a + 8) 4 ∧ t.get F.SES_AC_STAT_RESULT = 0
      ∧ t.get F.SES_AC_COUNT_ENTRIES = s.get F.SES_AC_COUNT_ENTRIES - 1 ∧ t.get (hdrPend 0x19 3) = 1
      ∧ Keeps s t (fun x => x ∈ [F.SES_AC_STAT_RESULT.addr, F.SES_AC_COUNT_ENTRIES.addr] ∨ eventRegs 0x19 3 x) [2] [.sram])
  ∧ (∀ (s : State), s.runs = true → s.cacheFind s.acKey = none →
    Ends (exec .cacheDelete s) fun t =>
      t.get F.SES_AC_STAT_RESULT = 6 ∧ t.get (hdrErrcode 0x19) = 0x61 ∧ t.get (hdrPend 0x19 3) = 1
      ∧ Keeps s t (fun x => x = F.SES_AC_STAT_RESULT.addr ∨ errRegs 0x19 x ∨ eventRegs 0x19 3 x) [2] [])
  ∧ (∀ (s : State) (r fe gp : Nat), s.runs = true → s.lookup s.acKey = (r, fe, gp) →
    Ends (exec .cacheLookup s) fun t =>
      t.get F.SES_AC_STAT_RESULT = r + 1 ∧ (r ≠ 3 → t.reg A.SES_AC_FLAGS_EXP = BitVec.ofNat 32 fe ∧ t.reg A.SES_AC_GROUP = BitVec.ofNat 32 gp)
      ∧ (r = 3 → t.reg A.SES_AC_FLAGS_EXP = s.reg A.SES_AC_FLAGS_EXP ∧ t.reg A.SES_AC_GROUP = s.reg A.SES_AC_GROUP) ∧ t.get (hdrPend 0x19 3) = 1
      ∧ Keeps s t (fun x => x ∈ [F.SES_AC_STAT_RESULT.addr, A.SES_AC_FLAGS_EXP, A.SES_AC_GROUP] ∨ eventRegs 0x19 3 x) [2] [])
  ∧ (∀ (s : State), s.runs = true →
    Ends (exec .cacheClear s) fun t =>
      (∀ a, 0x60000 ≤ a → a < 0x70000 → t.sramByte a = 0) ∧ kept s t 0x60000 0x10000 ∧ (∀ key, t.cacheFind key = none)
      ∧ t.get F.SES_AC_COUNT_ENTRIES = 0 ∧ t.get F.SES_AC_STAT_RESULT = 0 ∧ t.get (hdrPend 0x19 3) = 1
      ∧ Keeps s t (fun x => x ∈ [F.SES_AC_STAT_RESULT.addr, F.SES_AC_COUNT_ENTRIES.addr] ∨ eventRegs 0x19 3 x) [2] [.sram])

/-- Storing, activating, switching and copying tariffs. (R348, R349, R350, R358) -/
def Obligations.Tariffs : Prop :=
  let kept (s t : State) (a n : Nat) : Prop := ∀ x, (x < a ∨ a + n ≤ x) → t.sramByte x = s.sramByte x
  (∀ (s : State) (req : Req) (val : W32), s.runs = true → s.get F.SES_TARIFF_IDX_IDX < 96 →
    let a := 0x70800 + 16 * s.get F.SES_TARIFF_IDX_IDX
    Ends (exec (.tariffStore req val) s) fun t =>
      t.reg A.SES_TARIFF_W3 = val ∧ t.sramWord a = s.reg A.SES_TARIFF_W0 ∧ t.sramWord (a + 4) = s.reg A.SES_TARIFF_W1
      ∧ t.sramWord (a + 8) = s.reg A.SES_TARIFF_W2 ∧ t.sramWord (a + 12) = val ∧ kept s t a 16
      ∧ Keeps s t (among [A.SES_TARIFF_W3, 0x19024]) [] [.sram])
  ∧ (∀ (s : State) (req : Req) (val : W32), s.runs = true → 96 ≤ s.get F.SES_TARIFF_IDX_IDX →
    Ends (exec (.tariffStore req val) s) fun t => t.get (hdrErrcode 0x19) = 0x1E ∧ Keeps s t (errRegs 0x19) [] [])
  ∧ (∀ (s : State), s.runs = true → tariffOk (s.tariffs 0x70800) = true →
    Ends (exec .tariffActivate s) fun t =>
      t.on F.SES_TARIFF_STAT_PENDING = true ∧ t.se = { s.se with switchAt := some (s.utc / 60 * 60 + 60) }
      ∧ Keeps s t (among [F.SES_TARIFF_STAT_PENDING.addr]) [] [.se])
  ∧ (∀ (s : State), s.runs = true → tariffOk (s.tariffs 0x70800) = false →
    Ends (exec .tariffActivate s) fun t => t.get (hdrErrcode 0x19) = 0x62 ∧ Keeps s t (errRegs 0x19) [] [])
  ∧ (∀ (s : State) (p : Tariff), p ∈ s.tariffs 0x70800 → (p.stop ≤ p.start ∨ 1440 < p.stop) → tariffOk (s.tariffs 0x70800) = false)
  ∧ (∀ (s : State) (p q : Tariff) (d i j : Nat), (s.tariffs 0x70800)[i]? = some p → (s.tariffs 0x70800)[j]? = some q → i ≠ j → p.plan = q.plan → d < 7 →
    p.days.testBit d = true → q.days.testBit d = true → p.start < q.stop → q.start < p.stop → tariffOk (s.tariffs 0x70800) = false)
  ∧ (∀ (s : State) (at' : Nat), s.runs = true → s.se.switchAt = some at' →
    Ends (exec .tariffSwitch s) fun t =>
      (∀ i, i < 1536 → t.sramByte (0x70000 + i) = s.sramByte (0x70800 + i)) ∧ kept s t 0x70000 1536
      ∧ t.on F.SES_TARIFF_STAT_PENDING = false ∧ t.on F.SES_TARIFF_STAT_VALID = true
      ∧ t.get F.SES_TARIFF_STAT_COUNT = satInc 65535 (s.get F.SES_TARIFF_STAT_COUNT)
      ∧ t.reg A.SES_TARIFF_ID = BitVec.ofNat 32 (crc32 (s.sramBytes 0x70800 1536)) ∧ t.se = { s.se with switchAt := none, tzNow := s.getInt F.SES_TZ_MIN }
      ∧ t.get (hdrPend 0x19 5) = 1
      ∧ Keeps s t (fun x => x ∈ [F.SES_TARIFF_STAT_PENDING.addr, A.SES_TARIFF_ID] ∨ eventRegs 0x19 5 x) [2] [.se, .sram])
  ∧ (∀ (s : State), s.runs = true → s.se.switchAt = none → Ends (exec .tariffSwitch s) fun t => Keeps s t (among []) [] [])
  ∧ (∀ (s : State), s.runs = true →
    Ends (exec .tariffCopy s) fun t =>
      (∀ i, i < 1536 → t.sramByte (0x70800 + i) = s.sramByte (0x70000 + i)) ∧ kept s t 0x70800 1536 ∧ Keeps s t (among []) [] [.sram])

/-- FELT_READ, FELT_WRITE, REAM_READ and IMG_READ: data, status and what is refused. The execution time in a reply of ring 47 is free (log entry 52).
(R464, R465, R481, R482, R483) -/
def Obligations.StorageReadsAndWrites : Prop :=
  (∀ (s : State) (f : Frame) (a n : Nat), s.storageTakes 0x08 1 f → fieldLe f.payload 0 4 = a → fieldLe f.payload 4 4 = n → fieldLe f.payload 8 4 = 0 →
    0x30000 ≤ a → a % 4 = 0 → 4 ≤ n → n ≤ 1024 → n % 4 = 0 → a + n ≤ 0x80000 → 28 + n ≤ s.slotSize 47 →
    Ends (exec .feltRead s) fun t =>
      storageReply s t 1 f.seq 0 n (s.feltBytes a n)
      ∧ Keeps s t lostRegs [46, 47] [.fresh])
  ∧ (∀ (s : State) (f : Frame) (a n d : Nat), s.storageTakes 0x08 1 f → fieldLe f.payload 0 4 = a → fieldLe f.payload 4 4 = n →
    fieldLe f.payload 8 4 = 0x20000000 + d → d % 4 = 0 → d + n ≤ 0x100000 → s.sramShut (0x20000000 + d) n = false →
    0x30000 ≤ a → a % 4 = 0 → 4 ≤ n → n ≤ 1024 → n % 4 = 0 → a + n ≤ 0x80000 →
    Ends (exec .feltRead s) fun t =>
      (∀ i, i < n → t.sramByte (d + i) = s.feltByte (a + i)) ∧ (∀ x, (x < d ∨ d + n ≤ x) → t.sramByte x = s.sramByte x)
      ∧ storageReply s t 1 f.seq 0 n [] ∧ Keeps s t lostRegs [46, 47] [.fresh, .sram])
  ∧ (∀ (s : State) (f : Frame) (a n : Nat), s.storageTakes 0x08 2 f → fieldLe f.payload 0 4 = a → fieldLe f.payload 4 4 = n → fieldLe f.payload 8 4 = 0 →
    f.payload.length = 12 + n → 0x40000 ≤ a → a % 4 = 0 → 4 ≤ n → n ≤ 1024 → n % 4 = 0 → a + n ≤ 0x80000 → s.feltProtected a n = false →
    Ends (exec .feltWrite s) fun t =>
      (∀ i, i < n → t.feltByte (a + i) = f.payload.getD (12 + i) 0) ∧ (∀ x, 0x38000 ≤ x → (x < a ∨ a + n ≤ x) → t.feltByte x = s.feltByte x)
      ∧ t.get F.NVF_WRITES = (s.get F.NVF_WRITES + n / 4) % 2 ^ 32 ∧ storageReply s t 2 f.seq 0 n []
      ∧ Keeps s t (fun x => x = F.NVF_WRITES.addr ∨ lostRegs x) [46, 47] [.fresh, .nv])
  ∧ (∀ (s : State) (f : Frame) (a n : Nat), s.storageTakes 0x08 2 f → fieldLe f.payload 0 4 = a → fieldLe f.payload 4 4 = n → fieldLe f.payload 8 4 = 0 →
    f.payload.length = 12 + n → 0x40000 ≤ a → a % 4 = 0 → 4 ≤ n → n ≤ 1024 → n % 4 = 0 → a + n ≤ 0x80000 → s.feltProtected a n = true →
    Ends (exec .feltWrite s) fun t =>
      t.get (hdrErrcode 0x08) = 0x90 ∧ t.get (hdrPend 0x08 0) = 1 ∧ t.get (hdrPend 0x08 1) = 1 ∧ storageReply s t 2 f.seq 0x90 0 []
      ∧ Keeps s t (fun x => errRegs 0x08 x ∨ eventRegs 0x08 0 x ∨ eventRegs 0x08 1 x) [2, 46, 47] [.fresh])
  ∧ (∀ (s : State) (f : Frame), s.runs = true → s.cmd46 2 = some f → fieldLe f.payload 0 4 < 0x40000 →
    Ends (exec .feltWrite s) fun t =>
      t.get (hdrErrcode 0x08) = 0x03 ∧ t.get (hdrPend 0x08 1) = 1 ∧ storageReply s t 2 f.seq 0x03 0 []
      ∧ Keeps s t (fun x => errRegs 0x08 x ∨ eventRegs 0x08 1 x) [2, 46, 47] [.fresh])
  ∧ (∀ (s : State) (f : Frame) (p : List Byte), s.storageTakes 0x09 4 f → fieldLe f.payload 8 4 = 0 →
    s.readRecord (fieldLe f.payload 0 4 % 8) (fieldLe f.payload 4 4) = some p → 28 + p.length ≤ s.slotSize 47 →
    Ends (exec .reamRead s) fun t =>
      storageReply s t 4 f.seq 0 (fieldLe f.payload 4 4) p ∧ t.get (hdrPend 0x09 0) = 1 ∧ Keeps s t (eventRegs 0x09 0) [2, 46, 47] [.fresh])
  ∧ (∀ (s : State) (f : Frame), s.storageTakes 0x09 4 f → fieldLe f.payload 8 4 = 0 → 28 ≤ s.slotSize 47 →
    s.readRecord (fieldLe f.payload 0 4 % 8) (fieldLe f.payload 4 4) = none →
    Ends (exec .reamRead s) fun t =>
      storageReply s t 4 f.seq 0x96 0 [] ∧ t.get (hdrErrcode 0x09) = 0x96 ∧ t.get (hdrPend 0x09 0) = 1
      ∧ Keeps s t (fun x => errRegs 0x09 x ∨ eventRegs 0x09 0 x) [2, 46, 47] [.fresh])
  ∧ (∀ (s : State) (f : Frame) (o n : Nat), s.storageTakes 0x09 8 f → fieldLe f.payload 0 4 ≤ 1 → fieldLe f.payload 4 4 = o → fieldLe f.payload 8 4 = 0 →
    fieldLe f.payload 12 4 = n → o + n ≤ 196608 → 28 + n ≤ s.slotSize 47 →
    Ends (exec .imgRead s) fun t =>
      storageReply s t 8 f.seq 0 n (s.flashBytes ((if fieldLe f.payload 0 4 = 1 then 794624 else 598016) + o) n)
      ∧ t.get (hdrPend 0x09 0) = 1 ∧ Keeps s t (eventRegs 0x09 0) [2, 46, 47] [.fresh])

/-- The commands of ring 46 that need flash steps enter the queue of jobs, and those refused answer their code. (R467, R476, R478, R481, R482, R483) -/
def Obligations.StorageJobs : Prop :=
  let queued (s t : State) : Prop := (t.ring 46).frames = (s.ring 46).frames.tail ∧ (t.ring 47) = s.ring 47
  let checks (x : Nat) : Prop := x = F.NVL_HOLDUP_STEP_OK.addr ∨ eventRegs 0x09 1 x
  (∀ (s : State) (f : Frame) (n len r : Nat), s.storageTakes 0x09 3 f → fieldLe f.payload 0 4 % 8 = n → fieldLe f.payload 4 4 % 65536 = len →
    fieldLe f.payload 8 4 = 0 → n ≠ 0 → 1 ≤ len → len ≤ 4032 → f.payload.length = 12 + len → s.get (F.NVL_STREAM_CFG_MAX_REAMS n) ≠ 0 →
    s.openReam n = some r → s.reamProtected r = false →
    let bytes := recordBytes n (s.streamHead n).next ((f.payload.drop 12).take len)
    (s.ream r).ofs + bytes.length ≤ 32768 →
    Ends (exec .append s) fun t =>
      (∃ j ∈ t.nv.jobs, j.kind = .append n (s.streamHead n).next r (s.ream r).ofs bytes.length ∧ j.ref = some f.seq
        ∧ j.steps = progSteps (reamAddr r + (s.ream r).ofs) bytes)
      ∧ t.nv.flash = s.nv.flash ∧ queued s t ∧ Keeps s t checks [2, 46] [.nv])
  ∧ (∀ (s : State) (f : Frame) (r : Nat), s.storageTakes 0x09 5 f → fieldLe f.payload 0 4 % 8 ≠ 0 →
    (s.reamsOf (fieldLe f.payload 0 4 % 8)).head? = some r → s.reamProtected r = false →
    Ends (exec .streamTrim s) fun t =>
      (∃ j ∈ t.nv.jobs, j.kind = .trim (fieldLe f.payload 0 4 % 8) r ∧ j.ref = some f.seq ∧ j.steps = (List.range 8).map fun i => .erase (256 + 8 * r + i))
      ∧ (t.ream r).state = 3 ∧ (∀ x, x ≠ r → t.ream x = s.ream x) ∧ queued s t ∧ Keeps s t checks [2, 46] [.nv])
  ∧ (∀ (s : State) (f : Frame), s.storageTakes 0x09 5 f → fieldLe f.payload 0 4 % 8 ≠ 0 → s.reamsOf (fieldLe f.payload 0 4 % 8) = [] →
    Ends (exec .streamTrim s) fun t =>
      storageReply s t 5 f.seq 0x96 0 [] ∧ t.get (hdrErrcode 0x09) = 0x96 ∧ t.get (hdrPend 0x09 0) = 1
      ∧ Keeps s t (fun x => errRegs 0x09 x ∨ eventRegs 0x09 0 x) [2, 46, 47] [.fresh])
  ∧ (∀ (s : State) (f : Frame), s.storageTakes 0x09 6 f → fieldLe f.payload 0 4 ≤ 1 →
    Ends (exec .imgErase s) fun t =>
      (∃ j ∈ t.nv.jobs, j.kind = .imgErase (fieldLe f.payload 0 4 == 1) ∧ j.ref = some f.seq
        ∧ j.steps = (List.range 48).map fun i => .erase ((if fieldLe f.payload 0 4 = 1 then 194 else 146) + i))
      ∧ queued s t ∧ Keeps s t checks [2, 46] [.nv])
  ∧ (∀ (s : State) (f : Frame) (o d n : Nat), s.storageTakes 0x09 7 f → fieldLe f.payload 0 4 ≤ 1 → fieldLe f.payload 4 4 = o →
    fieldLe f.payload 8 4 = 0x20000000 + d → d % 4 = 0 → fieldLe f.payload 12 4 = n → d + n ≤ 0x100000 → o % 8 = 0 → n % 8 = 0 → n ≠ 0 → o + n ≤ 196608 →
    let a := (if fieldLe f.payload 0 4 = 1 then 794624 else 598016) + o
    (∀ x ∈ s.flashBytes a n, x = 0xFF) →
    Ends (exec .imgWrite s) fun t =>
      (∃ j ∈ t.nv.jobs, j.kind = .imgWrite (fieldLe f.payload 0 4 == 1) n ∧ j.ref = some f.seq ∧ j.steps = progSteps a (s.sramBytes d n))
      ∧ queued s t ∧ Keeps s t checks [2, 46] [.nv])
  ∧ (∀ (s : State) (c : Instr), s.runs = true → s.cmdRunning = true →
    c ∈ ([.feltRead, .feltWrite, .append, .reamRead, .streamTrim, .imgErase, .imgWrite, .imgRead] : List Instr) →
    Ends (exec c s) fun t => Keeps s t (among []) [] [])

/-- A program step or erase pulse that completes changes exactly its flash bytes and moves its job on. (R469, R470, R475, R476, R477) -/
def Obligations.FlashSteps : Prop :=
  let checks (x : Nat) : Prop := x = F.NVL_HOLDUP_STEP_OK.addr ∨ eventRegs 0x09 1 x
  (∀ (s : State) (j : Job) (rest : List Job) (a w : Nat) (e : FlashStep) (more : List FlashStep), s.runs = true → s.nv.jobs = j :: rest →
    s.nv.deferMs = none → j.steps = .prog a w :: e :: more →
    Ends (exec (.programStepDone true) s) fun t =>
      (∀ i, i < 8 → spRead flashBlank t.nv.flash (a + i) =
        BitVec.ofNat 8 (Nat.land (spRead flashBlank s.nv.flash (a + i)).toNat (w / 256 ^ i % 256)))
      ∧ (∀ x, (x < a ∨ a + 8 ≤ x) → spRead flashBlank t.nv.flash x = spRead flashBlank s.nv.flash x)
      ∧ t.nv.jobs = { j with steps := e :: more, again := false, pulses := 0 } :: rest ∧ Keeps s t checks [2] [.nv])
  ∧ (∀ (s : State) (j : Job) (rest : List Job) (a w n q r o z ref : Nat), s.runs = true → s.nv.jobs = j :: rest → s.nv.deferMs = none →
    j.steps = [.prog a w] → j.kind = .append n q r o z → j.ref = some ref → q < 2 ^ 32 →
    Ends (exec (.programStepDone true) s) fun t =>
      t.nv.jobs = rest ∧ (t.streamHead n).next = q + 1 ∧ (t.ream r).last = q ∧ (t.ream r).records = (s.ream r).records + 1
      ∧ (t.ream r).ofs = o + z ∧ t.get (hdrPend 0x09 0) = 1
      ∧ (s.takes 47 → ∃ g, (t.ring 47).frames = (s.ring 47).frames ++ [g] ∧ g.typ = 0x83 ∧ g.ref = some ref ∧ g.status = 0 ∧ fieldLe g.payload 0 4 = q)
      ∧ Keeps s t (fun x => checks x ∨ eventRegs 0x09 0 x) [2, 47] [.nv, .fresh])
  ∧ (∀ (s : State) (j : Job) (rest : List Job) (a w : Nat) (more : List FlashStep), s.runs = true → s.nv.jobs = j :: rest → s.nv.deferMs = none →
    j.steps = .prog a w :: more → j.again = false →
    Ends (exec (.programStepDone false) s) fun t =>
      t.nv = { s.nv with jobs := { j with again := true } :: rest } ∧ Keeps s t (among []) [] [.nv])
  ∧ (∀ (s : State) (j : Job) (rest : List Job) (a w : Nat) (more : List FlashStep), s.runs = true → s.nv.jobs = j :: rest → s.nv.deferMs = none →
    j.steps = .prog a w :: more → j.again = true → s.get F.NVL_SPARE_USED < 31 →
    Ends (exec (.programStepDone false) s) fun t =>
      t.get F.NVL_SPARE_USED = s.get F.NVL_SPARE_USED + 1 ∧ t.nv.remap = s.nv.remap ++ [(a / 4096, s.get F.NVL_SPARE_USED)]
      ∧ t.nv.jobs = { j with again := false, pulses := 0 } :: rest ∧ t.get (hdrPend 0x09 2) = 1
      ∧ Keeps s t (fun x => x = F.NVL_SPARE_USED.addr ∨ eventRegs 0x09 2 x) [2] [.nv])
  ∧ (∀ (s : State) (j : Job) (rest : List Job) (n : Nat) (e : FlashStep) (more : List FlashStep), s.runs = true → s.nv.jobs = j :: rest →
    s.nv.deferMs = none → j.steps = .erase n :: e :: more →
    Ends (exec (.erasePulseDone true) s) fun t =>
      (∀ x, spRead flashBlank t.nv.flash x = if x / 4096 = n then 0xFF else spRead flashBlank s.nv.flash x)
      ∧ t.nv.jobs = { j with steps := e :: more, again := false, pulses := 0 } :: rest ∧ Keeps s t checks [2] [.nv])
  ∧ (∀ (s : State) (j : Job) (rest : List Job) (n : Nat) (more : List FlashStep), s.runs = true → s.nv.jobs = j :: rest → s.nv.deferMs = none →
    j.steps = .erase n :: more → j.pulses + 1 < 10 →
    Ends (exec (.erasePulseDone false) s) fun t =>
      t.nv = { s.nv with jobs := { j with pulses := j.pulses + 1 } :: rest } ∧ Keeps s t (among []) [] [.nv])
  ∧ (∀ (s : State) (j : Job) (rest : List Job) (n : Nat) (e : FlashStep) (more : List FlashStep), s.runs = true → s.nv.jobs = j :: rest →
    s.nv.deferMs = none → j.steps = .erase n :: e :: more → 10 ≤ j.pulses + 1 → s.get F.NVL_SPARE_USED < 31 →
    Ends (exec (.erasePulseDone false) s) fun t =>
      t.get F.NVL_SPARE_USED = s.get F.NVL_SPARE_USED + 1 ∧ t.nv.remap = s.nv.remap ++ [(n, s.get F.NVL_SPARE_USED)]
      ∧ t.nv.jobs = { j with steps := e :: more, again := false, pulses := 0 } :: rest ∧ t.get (hdrPend 0x09 2) = 1
      ∧ Keeps s t (fun x => x = F.NVL_SPARE_USED.addr ∨ checks x ∨ eventRegs 0x09 2 x) [2] [.nv])
  ∧ (∀ (s : State) (b : Bool), s.runs = true → (s.nv.jobs = [] ∨ s.nv.deferMs.isSome = true) →
    ∀ c ∈ ([.programStepDone b, .erasePulseDone b] : List Instr), Ends (exec c s) fun t => Keeps s t (among []) [] [])

/-- A step that may not start is deferred, a wait that ends refuses, and STORE takes the configuration. (R468, R470, R485, R486) -/
def Obligations.StepConditionsAndDeferral : Prop :=
  let checks (x : Nat) : Prop := x = F.NVL_HOLDUP_STEP_OK.addr ∨ eventRegs 0x09 1 x
  (∀ (s : State) (supply : Bool) (e : FlashStep), s.runs = true → s.step1 = some e →
    let need := match e with
      | .erase _ => 4454
      | _ => 4257
    let allowed := supply = true ∧ s.pf.warned = false ∧ need ≤ s.holdup * 10
    Ends (exec (.stepDeferCheck supply) s) fun t =>
      (allowed → t.nv.deferMs = none ∧ t.on F.NVL_HOLDUP_DEFERRING = false)
      ∧ (¬ allowed → ∀ n, s.nv.deferMs = some n → t.nv.deferMs = some (n + 1))
      ∧ (¬ allowed → s.nv.deferMs = none → t.nv.deferMs = some 0 ∧ t.on F.NVL_HOLDUP_DEFERRING = true ∧ t.get (hdrPend 0x09 1) = 1)
      ∧ t.nv.supplyLow = !supply ∧ t.nv.jobs = s.nv.jobs ∧ t.nv.flash = s.nv.flash ∧ Keeps s t checks [2] [.nv])
  ∧ (∀ (s : State) (supply : Bool), s.runs = true → s.step1 = none →
    Ends (exec (.stepDeferCheck supply) s) fun t =>
      t.nv = { s.nv with supplyLow := !supply, deferMs := none }
      ∧ t.on F.NVL_HOLDUP_STEP_OK = (supply && !s.pf.warned && decide (4257 ≤ s.holdup * 10)) ∧ Keeps s t (among [F.NVL_HOLDUP_STEP_OK.addr]) [] [.nv])
  ∧ (∀ (s : State) (j : Job) (rest : List Job) (n r ref d : Nat), s.runs = true → s.nv.jobs = j :: rest → s.nv.deferMs = some d →
    s.get F.NVL_CFG_STEP_WAIT ≤ d → j.kind = .trim n r → j.ref = some ref →
    Ends (exec .stepWaitTimeout s) fun t =>
      t.nv.jobs = rest ∧ t.nv.flash = s.nv.flash ∧ t.get (hdrErrcode 0x09) = 0x91 ∧ t.get (hdrPend 0x09 0) = 1
      ∧ (s.takes 47 → ∃ g, (t.ring 47).frames = (s.ring 47).frames ++ [g] ∧ g.typ = 0x85 ∧ g.ref = some ref ∧ g.status = 0x91)
      ∧ Keeps s t (fun x => errRegs 0x09 x ∨ eventRegs 0x09 0 x ∨ checks x) [2, 47] [.nv, .fresh])
  ∧ (∀ (s : State) (j : Job) (rest : List Job) (d : Nat), s.runs = true → s.nv.jobs = j :: rest → s.nv.deferMs = some d →
    s.get F.NVL_CFG_STEP_WAIT ≤ d → j.kind = .store → j.ref = none →
    Ends (exec .stepWaitTimeout s) fun t =>
      t.nv.jobs = rest ∧ t.on F.NVL_CFG_STAT_BUSY = false ∧ t.on F.NVL_CFG_STAT_OK = false ∧ t.get (hdrErrcode 0x09) = 0x91
      ∧ Keeps s t (fun x => x = F.NVL_CFG_STAT_BUSY.addr ∨ errRegs 0x09 x ∨ checks x) [2] [.nv])
  ∧ (∀ (s : State), s.runs = true → (s.nv.jobs = [] ∨ s.nv.deferMs = none ∨ ∃ d, s.nv.deferMs = some d ∧ d < s.get F.NVL_CFG_STEP_WAIT) →
    Ends (exec .stepWaitTimeout s) fun t => Keeps s t (among []) [] [])

/-- A scrub tick, writes of PROTECT and SIG_ARCH, MEAS_CLR and the end of a hold-up measurement. A scrub finding is an operand (log entry 52). (R467,
R471, R480, R484) -/
def Obligations.StorageKeeping : Prop :=
  let checks (x : Nat) : Prop := x = A.NVL_HOLDUP ∨ eventRegs 0x09 1 x
  (∀ (s : State) (found : ScrubFound), s.runs = true → (s.on F.NVL_CFG_SCRUB_EN = false ∨ s.nv.jobs ≠ [] ∨ s.stepAllowed (.prog 0 0) = false) →
    Ends (exec (.scrubTick found) s) fun t => Keeps s t (among []) [] [])
  ∧ (∀ (s : State) (found : ScrubFound), s.runs = true → s.on F.NVL_CFG_SCRUB_EN = true → s.nv.jobs = [] → s.stepAllowed (.prog 0 0) = true →
    let n := s.nextScrub (s.get F.NVL_SCRUB_STAT_NEXT)
    let r := (n - 256) / 8
    Ends (exec (.scrubTick found) s) fun t =>
      t.get F.NVL_SCRUB_STAT_NEXT = (n + 1) % 1024
      ∧ (found = .clean → t.nv = s.nv ∧ t.get F.NVL_SCRUB_STAT_REFRESHED = s.get F.NVL_SCRUB_STAT_REFRESHED)
      ∧ (found = .weak true → t.nv = s.nv ∧ t.get F.NVL_SCRUB_STAT_REFRESHED = satInc 65535 (s.get F.NVL_SCRUB_STAT_REFRESHED))
      ∧ (found = .weak false → s.get F.NVL_SPARE_USED < 32 →
          t.get F.NVL_SPARE_USED = s.get F.NVL_SPARE_USED + 1 ∧ t.nv.remap = s.nv.remap ++ [(n, s.get F.NVL_SPARE_USED)] ∧ t.get (hdrPend 0x09 2) = 1)
      ∧ (found = .unerased → 256 ≤ n → n < 992 → (s.ream r).state = 0 →
          (t.ream r).state = 3 ∧ ∃ j ∈ t.nv.jobs, j.kind = .scrub r ∧ j.steps = (List.range 8).map fun i => .erase (256 + 8 * r + i))
      ∧ (∀ m q, found = .badRecord m q → 256 ≤ n → n < 992 → (s.ream r).stream = m → (s.ream r).records ≠ 0 → (s.ream r).first ≤ q → q ≤ (s.ream r).last →
          s.nv.lost.contains (m.val, q) = false →
          t.nv.lost = s.nv.lost ++ [(m.val, q)] ∧ t.get F.NVL_SPARE_CORRUPT = satInc 65535 (s.get F.NVL_SPARE_CORRUPT) ∧ t.readRecord m q = none)
      ∧ Keeps s t (onPages [0x09, 0x0A]) [2, 38] [.nv, .legal])
  ∧ (∀ (s : State), s.runs = true → s.privOpen = true → s.on F.NVL_CFG_STAT_BUSY = false → s.pf.warned = false →
    Ends (exec .store s) fun t =>
      t.on F.NVL_CFG_STAT_BUSY = true ∧ t.nv.cfgImage = s.cfgImage
      ∧ (∃ j ∈ t.nv.jobs, j.kind = .store ∧ j.ref = none ∧ j.steps =
          ((List.range 6).map fun i => .erase ((if s.nv.cfgLastB then 242 else 248) + i)) ++
            [.record (if s.nv.cfgLastB then 242 else 248) (s.cfgImage.length + 4)])
      ∧ t.get (hdrSeq 0x09) = (s.get (hdrSeq 0x09) + 1) % 2 ^ 32
      ∧ Keeps s t (fun x => x ∈ [0x9024, F.NVL_CFG_STAT_BUSY.addr] ∨ checks x) [2] [.nv])
  ∧ (∀ (s : State), s.runs = true → s.privOpen = true → (s.on F.NVL_CFG_STAT_BUSY = true ∨ s.pf.warned = true) →
    Ends (exec .store s) fun t =>
      t.get (hdrErrcode 0x09) = (if s.on F.NVL_CFG_STAT_BUSY then 0x97 else 0x95) ∧ Keeps s t (errRegs 0x09) [] [])
  ∧ (∀ (s : State), s.runs = true → s.privOpen = false →
    ∀ c ∈ ([.store, .measClr] : List Instr), Ends (exec c s) fun t => t.get (hdrErrcode 0x09) = 0x03 ∧ Keeps s t (errRegs 0x09) [] [])
  ∧ (∀ (s : State) (req : Req) (priv nvl : Bool) (val : W32), s.runs = true →
    let f := if nvl then F.NVL_PROTECT else F.NVF_CFG_PROTECT
    let page := if nvl then 0x09 else 0x08
    let v := val.toNat % 4
    ((v < s.get f ∧ (priv && s.privOpen) = false) →
      Ends (exec (.protectWrite req priv nvl val) s) fun t => t.get (hdrErrcode page) = 0x03 ∧ Keeps s t (errRegs page) [] [])
    ∧ ((s.get f ≤ v ∨ (priv && s.privOpen) = true) →
      Ends (exec (.protectWrite req priv nvl val) s) fun t =>
        t.get f = v ∧ t.get (hdrSeq page) = (s.get (hdrSeq page) + 1) % 2 ^ 32
        ∧ (nvl = true → ∀ r, 16 ≤ r → r < 92 → t.reamProtected r = true → (t.ream r).state ≠ 1)
        ∧ Keeps s t (among [page * 4096 + 0x024, f.addr, F.NVL_FREE_REAMS_HOST.addr]) [] [.nv]))
  ∧ (∀ (s : State) (req : Req) (val : W32), s.runs = true → s.nv.sigArch ≤ val.toNat →
    Ends (exec (.sigArchWrite req val) s) fun t =>
      t.nv = { s.nv with sigArch := val.toNat } ∧ t.get F.NVL_SIG_ARCH = val.toNat
      ∧ t.get F.NVL_SIG_STAT_UNARCHIVED = min 0xFFFF (s.legal.watermark - val.toNat) ∧ t.get (hdrSeq 0x09) = (s.get (hdrSeq 0x09) + 1) % 2 ^ 32
      ∧ Keeps s t (fun x => x ∈ [0x9024, F.NVL_SIG_ARCH.addr, F.NVL_SIG_STAT_UNARCHIVED.addr] ∨ eventRegs 0x09 4 x) [2] [.nv])
  ∧ (∀ (s : State) (req : Req) (val : W32), s.runs = true → val.toNat < s.nv.sigArch →
    Ends (exec (.sigArchWrite req val) s) fun t => t.get (hdrErrcode 0x09) = 0x1E ∧ Keeps s t (errRegs 0x09) [] [])
  ∧ (∀ (s : State), s.runs = true → s.privOpen = true →
    Ends (exec .measClr s) fun t =>
      t.nv.holdupWord = none ∧ t.on F.NVL_HOLDUP_MEAS_VALID = false ∧ t.holdup = s.get F.NVL_HOLDUP_CFG_DECL_MS * 10
      ∧ t.get (hdrSeq 0x09) = (s.get (hdrSeq 0x09) + 1) % 2 ^ 32 ∧ Keeps s t (fun x => x = 0x9024 ∨ checks x) [2] [.nv])
  ∧ (∀ (s : State) (ms : Nat),
    Ends (exec (.holdupMeasureEnd ms) s) fun t =>
      t.nv = (if s.pf.warned then { s.nv with holdupWord := some (min 0xFFFF ms) } else s.nv) ∧ Keeps s t (among []) [] [.nv])

/-- A round of LMG on its participants, the verification of a decrease, and overloads with their end. Log entries 24 and 41 name the model's choices.
(R360, R361, R362, R363, R364, R365, R366, R367) -/
def Obligations.AllocationRounds : Prop :=
  let outlets : List Nat := [0x1A, 0x30, 0x31, 0x32, 0x33, 0x34, 0x35, 0x36, 0x37, 0x38, 0x39, 0x3A, 0x3B]
  (∀ (s : State), s.runs = true → s.lmgOn = false →
    ∀ c ∈ ([.lmgRound, .leaseFallback] : List Instr), Ends (exec c s) fun t => Keeps s t (among []) [] [])
  ∧ (∀ (s : State), s.runs = true → s.lmgOn = true → (∀ k ∈ s.lm.joined, k < 12) →
    Ends (exec .lmgRound s) fun t =>
      (∀ k, k ∈ t.lm.joined ↔ k < 12 ∧ s.lmgPart k = true)
      ∧ (∀ k, k < 12 → (t.get F.LMG_STAT_PART).testBit k = s.lmgPart k ∧ t.get (F.LMG_OUT_MEAS_MA k) = s.lmgMeas k % 2 ^ 20)
      ∧ (∀ k, k < 12 → s.lmgPart k = true → s.on (F.LMG_OUT_CFG_RECLAIM k) = false →
          t.get (F.LMG_OUT_DEMAND_MA k) = s.lmgCap k ∧ t.on (F.LMG_OUT_DEMAND_PRIO k) = s.on (F.SES_OUT_STAT_PRIO k))
      ∧ (s.pf.warned = false → s.boot.bench = false → ∀ k ∈ s.lm.joined, s.lmgPart k = false →
          t.alloc k = 0 ∧ t.get (F.BAYK_LMG_LIMIT_MA k) = 0 ∧ t.on (F.LMG_OUT_ALLOC_PENDING k) = false)
      ∧ (∀ k, k < 12 → s.lmgPart k = false → k ∉ s.lm.joined → t.alloc k = s.alloc k ∧ t.get (F.BAYK_LMG_LIMIT_MA k) = s.get (F.BAYK_LMG_LIMIT_MA k))
      ∧ (s.pf.warned = true ∨ s.boot.bench = true → ∀ k, k < 12 →
          t.alloc k = s.alloc k ∧ t.get (F.BAYK_LMG_LIMIT_MA k) = s.get (F.BAYK_LMG_LIMIT_MA k))
      ∧ t.lm.met = s.lm.master.isSome ∧ Keeps s t (onPages outlets) [51] [.lm])
  ∧ (∀ (s : State) (k : Fin 12) (h at' : Nat), s.runs = true → s.lm.held.find? (fun x => x.1 == k.val) = some (k.val, (h, at')) →
    (s.lmgMeas k ≤ s.alloc k + s.get F.LMG_VERIFY_VERIFY_MA ∨ s.get F.BAY_OC_TIME_OC_GRACE * 32768 ≤ (s.ts - at') * 1000) →
    Ends (exec (.decreaseVerify k) s) fun t =>
      t.lm = { s.lm with held := s.lm.held.filter fun x => x.1 != k.val } ∧ t.on (F.LMG_OUT_ALLOC_PENDING k) = false ∧ t.alloc k = s.alloc k
      ∧ t.get F.LMG_BUDGET_SEQ_APPLIED = (if s.lm.met = true ∧ (∀ x ∈ s.lm.held, x.1 = k.val) then s.get F.LMG_BUDGET_SEQ_TAKEN
          else s.get F.LMG_BUDGET_SEQ_APPLIED)
      ∧ Keeps s t (among [(F.LMG_OUT_ALLOC_PENDING k).addr, F.LMG_BUDGET_SEQ_APPLIED.addr]) [] [.lm])
  ∧ (∀ (s : State) (k : Fin 12), s.runs = true → (∀ x ∈ s.lm.held, x.1 = k.val →
      s.alloc k + s.get F.LMG_VERIFY_VERIFY_MA < s.lmgMeas k ∧ (s.ts - x.2.2) * 1000 < s.get F.BAY_OC_TIME_OC_GRACE * 32768) →
    Ends (exec (.decreaseVerify k) s) fun t => Keeps s t (among []) [] [])
  ∧ (∀ (s : State) (con : Fin 5) (p : Fin 3) (lim : Int), s.runs = true → s.lmgOn = true → s.conLimit con p = some lim → s.lm.held = [] →
    s.lm.frozenC.contains (con.val + 5 * p.val) = false → lim + s.get F.LMG_VERIFY_VERIFY_MA < s.conTotal con p → (∀ k ∈ s.lm.joined, k < 12) →
    Ends (exec (.lmgOverload con p) s) fun t =>
      t.lm.frozenC = s.lm.frozenC ++ [con.val + 5 * p.val] ∧ (con = 0 → (t.get F.LMG_STAT_OVERLOAD).testBit p = true) ∧ t.get (hdrPend 0x1A 1) = 1
      ∧ (s.pf.warned = false → s.boot.bench = false → ∀ k ∈ s.lm.joined, s.usesCon k con p = true → t.alloc k ≤ 6000)
      ∧ (∀ k, k < 12 → s.usesCon k con p = false → t.alloc k = s.alloc k) ∧ (∀ k, k < 12 → t.alloc k ≤ s.alloc k)
      ∧ Keeps s t (onPages outlets) [51] [.lm])
  ∧ (∀ (s : State) (con : Fin 5) (p : Fin 3), s.runs = true → (s.lmgOn = false ∨ s.lm.held ≠ [] ∨ ∀ lim, s.conLimit con p = some lim → (s.conTotal con p : Int) ≤ lim + s.get F.LMG_VERIFY_VERIFY_MA) →
    Ends (exec (.lmgOverload con p) s) fun t => Keeps s t (among []) [] [])
  ∧ (∀ (s : State) (con : Fin 5) (p : Fin 3) (lim : Int), s.runs = true → s.conLimit con p = some lim → (s.conTotal con p : Int) ≤ lim →
    s.lm.frozenC.contains (con.val + 5 * p.val) = true →
    Ends (exec (.overloadClear con p) s) fun t =>
      t.lm = { s.lm with frozenC := s.lm.frozenC.filter (· != con.val + 5 * p.val) } ∧ (con = 0 → (t.get F.LMG_STAT_OVERLOAD).testBit p = false)
      ∧ Keeps s t (among [F.LMG_STAT_OVERLOAD.addr]) [] [.lm])
  ∧ (∀ (s : State) (con : Fin 5) (p : Fin 3), s.runs = true →
    (s.lm.frozenC.contains (con.val + 5 * p.val) = false ∨ ∀ lim, s.conLimit con p = some lim → lim < (s.conTotal con p : Int)) →
    Ends (exec (.overloadClear con p) s) fun t => Keeps s t (among []) [] [])

/-- Fallback at the end of a lease, the end of HOLD, and SITE_ACTIVATE and SITE_RELEASE. (R368, R369, R370, R372, R373, R375, R376, R377) -/
def Obligations.SiteBudgets : Prop :=
  let outlets : List Nat := [0x1A, 0x30, 0x31, 0x32, 0x33, 0x34, 0x35, 0x36, 0x37, 0x38, 0x39, 0x3A, 0x3B]
  (∀ (s : State), s.runs = true → s.lmgOn = true → s.get F.LMG_STAT_STATE = 1 → s.leaseLeft ≤ s.get F.LMG_TIMING_FB_LEAD_S * 1000 →
    (∀ k ∈ s.lm.joined, k < 12) →
    Ends (exec .leaseFallback s) fun t =>
      t.get F.LMG_STAT_STATE = 2 ∧ (∀ q, q < 3 → t.get (F.LMG_BUDGET_MA q) = s.get (F.LMG_SAFE_MA q)) ∧ t.get (hdrPend 0x1A 0) = 1
      ∧ Keeps s t (onPages outlets) [51] [.lm])
  ∧ (∀ (s : State), s.runs = true → (s.get F.LMG_STAT_STATE ≠ 1 ∨ s.get F.LMG_TIMING_FB_LEAD_S * 1000 < s.leaseLeft) →
    Ends (exec .leaseFallback s) fun t => Keeps s t (among []) [] [])
  ∧ (∀ (s : State), s.runs = true → s.on F.LMG_SITE_STAT_HOLD = true →
    Ends (exec .masterHoldEnd s) fun t =>
      t.on F.LMG_SITE_STAT_HOLD = false ∧ t.get (hdrPend 0x1A 4) = 1 ∧ Keeps s t (fun a => a = F.LMG_SITE_STAT_HOLD.addr ∨ eventRegs 0x1A 4 a) [51] [])
  ∧ (∀ (s : State), s.runs = true → s.on F.LMG_SITE_STAT_HOLD = false → Ends (exec .masterHoldEnd s) fun t => Keeps s t (among []) [] [])
  ∧ (∀ (s : State), s.runs = true →
    let good := s.get F.LMG_SITE_CFG_POSTS ≠ 0 ∧ ((List.range (s.get F.LMG_SITE_CFG_POSTS)).map s.postAddr).Nodup
      ∧ (∃ n, n < s.get F.LMG_SITE_CFG_POSTS ∧ s.postAddr n = s.get F.MSH_ADDR_ADDR)
      ∧ ∀ q, q < 3 → ((List.range (s.get F.LMG_SITE_CFG_POSTS)).map fun n => ofLe (s.sramBytes (0x80000 + 16 * n + 4 + 4 * q) 4)).sum ≤ s.get (F.LMG_SITE_LIM_MA q)
    Ends (exec .siteActivate s) fun t =>
      (good → t.on F.LMG_SITE_STAT_VALID = true ∧ Keeps s t (among [0x1A024, F.LMG_SITE_STAT_VALID.addr]) [] [])
      ∧ (¬ good → t.get (hdrErrcode 0x1A) = 0x70 ∧ t.on F.LMG_SITE_STAT_VALID = s.on F.LMG_SITE_STAT_VALID
          ∧ Keeps s t (fun a => a = 0x1A024 ∨ errRegs 0x1A a) [] []))
  ∧ (∀ (s : State), s.runs = true →
    Ends (exec .siteRelease s) fun t =>
      (s.get F.LMG_CFG_ROLE = 2 → s.lmgOn = true → t.get (hdrErrcode 0x1A) = 0x1E ∧ Keeps s t (errRegs 0x1A) [] [])
      ∧ (s.get F.LMG_CFG_ROLE ≠ 2 ∨ s.lmgOn = false → t.on F.LMG_SITE_STAT_VALID = false ∧ t.get (hdrSeq 0x1A) = (s.get (hdrSeq 0x1A) + 1) % 2 ^ 32
          ∧ Keeps s t (among [0x1A024, F.LMG_SITE_STAT_VALID.addr]) [] []))
  ∧ (∀ (s : State) (p : List Byte) (age : Nat), s.lmgOn = true → s.lmgRole = 1 → p.length = 24 → fieldLe p 6 2 = age → fieldLe p 20 1 * 1000 ≤ age →
    (s.takeBudget p).get F.LMG_BUDGET_SEQ_TAKEN = s.get F.LMG_BUDGET_SEQ_TAKEN ∧ (s.takeBudget p).lm = s.lm
    ∧ ∀ q, q < 3 → (s.takeBudget p).get (F.LMG_BUDGET_MA q) = s.get (F.LMG_BUDGET_MA q))

/-- UPDATE, FILL, BLIND_CLEAR, WF_ACTIVATE, the deckle layout's commit and writes of display SRAM. ACCEPT fields the spec does not give are free (log
entry 44). (R382, R383, R384, R386, R387, R390, R391, R392, R395) -/
def Obligations.DisplayCommands : Prop :=
  let gone (s t : State) : Prop := (t.ring 44).frames = (s.ring 44).frames.tail
  let answer (s t : State) (ref status : Nat) : Prop :=
    s.takes 45 → ∃ g, (t.ring 45).frames = (s.ring 45).frames ++ [g] ∧ g.typ = 0x81 ∧ g.ref = some ref ∧ g.status = status
  let ready (s : State) (f : Frame) : Prop :=
    s.runs = true ∧ s.pf.warned = false ∧ s.on F.EPD_STATE_OUTER_VALID = true ∧ s.lcd.waiting = none ∧ f.payload.length = 12
  (∀ (s : State) (f : Frame), s.cmd44 1 = some f → ready s f → fieldLe f.payload 8 4 < 16 →
    let u := { s.clip f with mode := fieldLe f.payload 8 4 }
    s.pixelsOf u ≠ [] →
    Ends (exec .update s) fun t => t.lcd = { s.lcd with waiting := some u } ∧ gone s t ∧ Keeps s t (among [F.EPD_STATE_BUSY.addr]) [44] [.lcd])
  ∧ (∀ (s : State) (f : Frame), s.cmd44 1 = some f → ready s f → fieldLe f.payload 8 4 < 16 →
    s.pixelsOf { s.clip f with mode := fieldLe f.payload 8 4 } = [] →
    Ends (exec .update s) fun t =>
      t.get (hdrErrcode 0x1E) = 0x81 ∧ gone s t ∧ answer s t f.seq 0x81 ∧ Keeps s t (fun a => errRegs 0x1E a ∨ lostRegs a) [44, 45] [.fresh])
  ∧ (∀ (s : State) (f : Frame),
    let u := s.clip f
    let x := fieldLe f.payload 0 2
    let y := fieldLe f.payload 2 2
    let w := fieldLe f.payload 4 2
    let h := fieldLe f.payload 6 2
    x + w ≤ s.panW → y + h ≤ s.panH → 0 < w → 0 < h → (u.x, u.y, u.w, u.h) = (x, y, w, h) ∧ u.clipped = false ∧ u.zone = 0 ∧ u.ref = some f.seq)
  ∧ (∀ (s : State) (f : Frame) (g : Nat), s.cmd44 2 = some f → ready s f → fieldLe f.payload 8 4 = g → g < 16 → s.overlaps (s.clip f) = false →
    s.pixelsOf (s.clip f) ≠ [] →
    Ends (exec .fill s) fun t =>
      (∀ q ∈ s.pixelsOf (s.clip f), (t.pix q.1 q.2).tgt = g ∧ (t.pix q.1 q.2).cur = (s.pix q.1 q.2).cur ∧ (t.pix q.1 q.2).res = (s.pix q.1 q.2).res)
      ∧ (∀ a, (∀ q ∈ s.pixelsOf (s.clip f), a ≠ s.pixAt q.1 q.2 ∧ a ≠ s.pixAt q.1 q.2 + 1) → spRead sramBlank t.dsram a = spRead sramBlank s.dsram a)
      ∧ gone s t ∧ answer s t f.seq 0 ∧ Keeps s t lostRegs [44, 45] [.dsram, .fresh])
  ∧ (∀ (s : State) (f : Frame), s.cmd44 3 = some f → ready s f →
    let u : Update := { ref := some f.seq, blind := true, zone := 0, w := s.panW, h := s.panH }
    s.pixelsOf u ≠ [] →
    Ends (exec .blindClear s) fun t =>
      (∃ m, t.lcd = { s.lcd with waiting := some { u with masked := m } }) ∧ gone s t ∧ Keeps s t (among [F.EPD_STATE_BUSY.addr]) [44] [.lcd])
  ∧ (∀ (s : State), s.runs = true → s.pf.warned = false → (s.on F.EPD_STATE_OUTER_VALID = false ∨ s.lcd.waiting.isSome = true) →
    ∀ c ∈ ([.update, .fill, .blindClear] : List Instr), Ends (exec c s) fun t => Keeps s t (among []) [] [])
  ∧ (∀ (s : State) (f : Frame) (c : Instr) (typ : Nat), s.runs = true → (c, typ) ∈ ([(.update, 1), (.fill, 2), (.blindClear, 3), (.wfActivate, 4)] : List (Instr × Nat)) →
    s.cmd44 typ = some f → s.pf.warned = true → f.payload.length = 12 → fieldLe f.payload 8 4 < 16 →
    Ends (exec c s) fun t =>
      t.get (hdrErrcode 0x1E) = 0x41 ∧ gone s t ∧ answer s t f.seq 0x41 ∧ Keeps s t (fun a => errRegs 0x1E a ∨ lostRegs a) [44, 45] [.fresh])
  ∧ (∀ (s : State) (f : Frame), s.cmd44 4 = some f → s.runs = true → s.pf.warned = false → f.payload.length = 12 → s.lcd.slots = [] → s.lcd.waiting = none →
    let pick := s.pickCopy Table.whole
    let good (b : Bool) : Prop := (s.tableCopy b).qualifies = true ∧ s.frameFits ((s.tableCopy b).num 28 4) = true
    Ends (exec .wfActivate s) fun t =>
      (∀ b, pick = some b → good b →
        t.on F.EPD_WF_STAT_VALID = true ∧ t.on F.EPD_WF_STAT_TAKEN_B = b ∧ t.get F.EPD_FRAME_US_US = (s.tableCopy b).num 28 4 % 2 ^ 17
        ∧ (∀ i, i < (s.tableCopy b).num 4 4 → t.sramByte (0xC0000 + i) = s.flashByte (imgAddr b + i)) ∧ t.get (hdrPend 0x1E 1) = 1 ∧ answer s t f.seq 0
        ∧ Keeps s t (onPages [0x1E]) [2, 44, 45] [.sram, .fresh])
      ∧ (pick = none ∨ (∃ b, pick = some b ∧ ¬ good b) →
        (t.get (hdrErrcode 0x1E) = 0x80 ∨ t.get (hdrErrcode 0x1E) = 0x84) ∧ answer s t f.seq (t.get (hdrErrcode 0x1E))
        ∧ Keeps s t (fun a => errRegs 0x1E a ∨ lostRegs a) [44, 45] [.fresh])
      ∧ gone s t)
  ∧ (∀ (s : State), s.runs = true → (s.lcd.slots ≠ [] ∨ s.lcd.waiting.isSome = true) → s.pf.warned = false →
    Ends (exec .wfActivate s) fun t => Keeps s t (among []) [] [])
  ∧ (∀ (s : State), s.runs = true → s.get F.SEA_STAT_SESSION = 0x8E → s.layoutOk s.layoutRegs = true →
    Ends (exec .deckleLayoutCommit s) fun t =>
      t.lcd = { s.lcd with stored := some s.layoutRegs, storedNew := true } ∧ t.on F.EPD_DECKLE_STAT_PENDING = true
      ∧ (∃ e ∈ t.legal.log, e.code = 0x20 ∧ e.seq = s.legal.next) ∧ t.get (hdrSeq 0x1E) = (s.get (hdrSeq 0x1E) + 1) % 2 ^ 32
      ∧ Keeps s t (fun a => a = 0x1E024 ∨ a = A.EPD_DECKLE_STAT ∨ onPages [0x0A] a) [2, 38] [.lcd, .legal])
  ∧ (∀ (s : State), s.runs = true → (s.get F.SEA_STAT_SESSION ≠ 0x8E ∨ s.layoutOk s.layoutRegs = false) →
    Ends (exec .deckleLayoutCommit s) fun t =>
      t.get (hdrErrcode 0x1E) = (if s.get F.SEA_STAT_SESSION = 0x8E then 0x86 else 0x30) ∧ Keeps s t (errRegs 0x1E) [] [])
  ∧ (∀ (s : State) (req : Req) (addr : Nat) (val : W32), s.runs = true → addr % 4 = 0 → addr < 0x200000 → addr / 2 + 1 < s.panW * s.panH →
    let i := addr / 2
    let x := i % s.panW
    let y := i / s.panW
    let x' := (i + 1) % s.panW
    let y' := (i + 1) / s.panW
    s.inDeckle x y = false → s.inDeckle x' y' = false → s.pixBusy x y = false → s.pixBusy x' y' = false →
    Ends (exec (.displaySramWrite req addr val) s) fun t =>
      (t.pix x y).tgt = val.toNat / 16 % 16 ∧ (t.pix x' y').tgt = val.toNat / 2 ^ 20 % 16 ∧ (t.pix x y).cur = (s.pix x y).cur
      ∧ (t.pix x y).res = (s.pix x y).res ∧ (∀ a, (a < addr ∨ addr + 4 ≤ a) → spRead sramBlank t.dsram a = spRead sramBlank s.dsram a)
      ∧ Keeps s t (among []) [] [.dsram])
  ∧ (∀ (s : State) (req : Req) (addr : Nat) (val : W32), s.runs = true → addr % 4 = 0 → addr < 0x200000 → addr / 2 + 1 < s.panW * s.panH →
    s.inDeckle (addr / 2 % s.panW) (addr / 2 / s.panW) = false → s.inDeckle ((addr / 2 + 1) % s.panW) ((addr / 2 + 1) / s.panW) = false →
    s.pixBusy (addr / 2 % s.panW) (addr / 2 / s.panW) = true →
    Ends (exec (.displaySramWrite req addr val) s) fun t => t.get (hdrErrcode 0x1E) = 0x82 ∧ Keeps s t (errRegs 0x1E) [] [])
  ∧ (∀ (s : State) (req : Req) (addr : Nat) (val : W32), s.runs = true → addr % 4 = 0 → addr < 0x200000 → addr / 2 < s.panW * s.panH →
    s.inDeckle (addr / 2 % s.panW) (addr / 2 / s.panW) = true →
    Ends (exec (.displaySramWrite req addr val) s) fun t =>
      t.get (hdrErrcode 0x1E) = 0x03 ∧ ∃ r, Keeps s t (fun a => errRegs 0x1E a ∨ errRegs r a) [] [])

/-- The start of an update slot, a frame, a deckle update, the panel's power and a stale host temperature. (R380, R381, R388, R389, R393, R397, R398,
R402, R403) -/
def Obligations.DisplayUpdatesAndPower : Prop :=
  (∀ (s : State) (u : Update) (n : Nat), s.runs = true → s.lcd.waiting = some u → s.freeSlot = some n → s.enabled 0x1E = true → s.overlaps u = false →
    s.pf.warned = false → s.on F.EPD_WF_STAT_VALID = true → (u.blind = true ∨ s.table.frames u.mode s.epdBand ≠ 0) →
    Ends (exec .updateSlotStart s) fun t =>
      t.lcd.waiting = none
      ∧ (∃ v, t.lcd.slots = (s.lcd.slots.filter fun p => p.1 != n) ++ [(n, v)] ∧ v.frame = 0 ∧ v.band = s.epdBand ∧ v.blind = u.blind ∧ v.ref = u.ref
          ∧ (v.x, v.y, v.w, v.h) = (u.x, u.y, u.w, u.h) ∧ (v.mode = u.mode ∨ v.mode = 0)
          ∧ (v.blind = true → v.frames = s.table.blindFrames s.epdBand) ∧ (v.blind = false → v.frames = v.p + s.table.frames v.mode s.epdBand))
      ∧ (t.get F.EPD_STATE_BUSY).testBit n = true
      ∧ (u.blind = false → Part.same s t .dsram)
      ∧ (∀ r, u.ref = some r → s.takes 45 →
          ∃ g, (t.ring 45).frames = (s.ring 45).frames ++ [g] ∧ g.typ = 0x81 ∧ g.ref = some r ∧ g.status = 0 ∧ fieldLe g.payload 0 1 = n)
      ∧ Keeps s t (onPages [0x1E]) [45] [.lcd, .dsram])
  ∧ (∀ (s : State) (u : Update) (n r : Nat), s.runs = true → s.lcd.waiting = some u → s.freeSlot = some n → s.enabled 0x1E = true → s.overlaps u = false →
    s.pf.warned = false → s.on F.EPD_WF_STAT_VALID = true → u.blind = false → s.table.frames u.mode s.epdBand = 0 → u.ref = some r →
    Ends (exec .updateSlotStart s) fun t =>
      t.lcd = { s.lcd with waiting := none } ∧ t.get (hdrErrcode 0x1E) = 0x83
      ∧ (s.takes 45 → ∃ g, (t.ring 45).frames = (s.ring 45).frames ++ [g] ∧ g.typ = 0x81 ∧ g.ref = some r ∧ g.status = 0x83)
      ∧ Keeps s t (fun a => a = F.EPD_STATE_BUSY.addr ∨ errRegs 0x1E a ∨ lostRegs a) [45] [.lcd, .fresh])
  ∧ (∀ (s : State), s.runs = true → (s.lcd.waiting = none ∨ s.freeSlot = none ∨ s.enabled 0x1E = false ∨ s.pf.warned = true ∨ s.on F.EPD_WF_STAT_VALID = false
      ∨ ∃ u, s.lcd.waiting = some u ∧ s.overlaps u = true) →
    Ends (exec .updateSlotStart s) fun t => Keeps s t (among []) [] [])
  ∧ (∀ (s : State), s.runs = true → s.get F.EPD_STATE_POWER = 2 → s.pf.warned = false → s.lcd.slots ≠ [] → (∀ p ∈ s.lcd.slots, p.1 < 4) →
    Ends (exec .epdFrame s) fun t =>
      t.get ⟨A.EPD_FRAME_CNT, 0, 32⟩ = (s.get ⟨A.EPD_FRAME_CNT, 0, 32⟩ + 1) % 2 ^ 32
      ∧ (∀ n u, s.lcd.slots = [(n, u)] → u.frame + 1 < u.frames →
          t.lcd.slots = [(n, { u with frame := u.frame + 1, skip := 0 })] ∧ t.get (F.EPD_SLOT_PROG_FRAME n) = (u.frame + 1) % 65536)
      ∧ (∀ n u, s.lcd.slots = [(n, u)] → n ≠ 0 → u.frames ≤ u.frame + 1 → t.lcd.slots = [] ∧ (u.blind = true → t.on F.EPD_STATE_OUTER_VALID = true)
          ∧ (∀ r, u.ref = some r → t.get (hdrPend 0x1E 0) = 1 ∧ (s.takes 45 → ∃ g, (t.ring 45).frames = (s.ring 45).frames ++ [g] ∧ g.typ = 0x82
              ∧ g.ref = some r ∧ g.status = 0)))
      ∧ (∀ a, (∀ p ∈ s.lcd.slots, ∀ q ∈ s.pixelsOf p.2, a ≠ s.pixAt q.1 q.2 ∧ a ≠ s.pixAt q.1 q.2 + 1) → spRead sramBlank t.dsram a = spRead sramBlank s.dsram a)
      ∧ ((∀ p ∈ s.lcd.slots, p.1 ≠ 0 ∧ p.2.blind = false) → t.nv = s.nv)
      ∧ Keeps s t (onPages [0x00, 0x1E]) [2, 45] [.lcd, .dsram, .nv])
  ∧ (∀ (s : State), s.runs = true → (s.get F.EPD_STATE_POWER ≠ 2 ∨ s.pf.warned = true ∨ s.lcd.slots = []) →
    Ends (exec .epdFrame s) fun t => Keeps s t (among []) [] [])
  ∧ (∀ (s : State) (l : DeckleLayout), s.runs = true → s.lcd.layout = some l → s.enabled 0x1E = true → s.pf.warned = false →
    s.on F.EPD_WF_STAT_VALID = true →
    Ends (exec .deckleUpdateStart s) fun t =>
      (s.lcd.due = true → s.slotUsed 0 = false → (∀ p ∈ s.lcd.slots, p.2.zone ≠ 2) → (∀ u, s.lcd.waiting = some u → u.zone ≠ 2) →
        ∃ v, (0, v) ∈ t.lcd.slots ∧ v.zone = 1 ∧ v.frame = 0 ∧ (v.x, v.y, v.w, v.h) = l.rect ∧ t.lcd.due = false)
      ∧ (s.slotUsed 0 = true → t.lcd.slots = s.lcd.slots ∧ t.dsram = s.dsram ∧ t.nv = s.nv) ∧ t.lcd.layout = s.lcd.layout
      ∧ Keeps s t (onPages [0x1E]) [2] [.lcd, .dsram, .nv])
  ∧ (∀ (s : State), s.runs = true → (s.lcd.layout = none ∨ s.enabled 0x1E = false ∨ s.pf.warned = true ∨ s.on F.EPD_WF_STAT_VALID = false) →
    Ends (exec .deckleUpdateStart s) fun t => Keeps s t (among []) [] [])
  ∧ (∀ (s : State), s.runs = true →
    let busy := s.lcd.slots ≠ [] ∨ s.lcd.waiting.isSome = true
    Ends (exec .panelPowerOn s) fun t =>
      (s.enabled 0x1E = true → s.get F.EPD_STATE_POWER = 0 → busy → s.on F.EPD_WF_STAT_VALID = true → s.pf.warned = false →
        t.get F.EPD_STATE_POWER = 2 ∧ t.lcd = { s.lcd with epwr := 63, edis := 0 })
      ∧ (s.enabled 0x1E = false ∨ s.get F.EPD_STATE_POWER ≠ 0 ∨ ¬ busy ∨ s.on F.EPD_WF_STAT_VALID = false ∨ s.pf.warned = true →
          t.get F.EPD_STATE_POWER = s.get F.EPD_STATE_POWER ∧ t.lcd = s.lcd)
      ∧ Keeps s t (among [F.EPD_STATE_POWER.addr]) [] [.lcd])
  ∧ (∀ (s : State), s.runs = true →
    Ends (exec .panelPowerOff s) fun t =>
      (s.get F.EPD_STATE_POWER = 2 → s.lcd.slots = [] → s.lcd.waiting = none →
        t.get F.EPD_STATE_POWER = 0 ∧ t.lcd = { s.lcd with epwr := 0, edis := 3 })
      ∧ (s.get F.EPD_STATE_POWER ≠ 2 ∨ s.lcd.slots ≠ [] ∨ s.lcd.waiting.isSome = true → t.get F.EPD_STATE_POWER = s.get F.EPD_STATE_POWER ∧ t.lcd = s.lcd)
      ∧ Keeps s t (among [F.EPD_STATE_POWER.addr]) [] [.lcd])
  ∧ (∀ (s : State), s.runs = true →
    Ends (exec .tempHostStale s) fun t =>
      (s.on F.EPD_TEMP_CFG_SRC = true → 600 * 32768 < s.ts - s.lcd.hostTs →
        t.on F.EPD_TEMP_STAT_STALE = true ∧ t.get F.EPD_TEMP_STAT_T = unsignedOf 16 (s.getInt F.CAL_TEMP_T + s.getInt F.EPD_TEMP_CFG_OFS))
      ∧ (s.on F.EPD_TEMP_CFG_SRC = false ∨ s.ts - s.lcd.hostTs ≤ 600 * 32768 → t.reg A.EPD_TEMP_STAT = s.reg A.EPD_TEMP_STAT)
      ∧ Keeps s t (among [A.EPD_TEMP_STAT]) [] [])

/-- A transmit request and its refusal, the symbols of a frame, the end of a transmission, carrier sense and a received frame. Decoding results are
operands of RX_FRAME (log entry 47). (R411, R413, R424, R426, R428, R430, R431, R432, R433) -/
def Obligations.PowerlineFrames : Prop :=
  (∀ (s : State) (q : PlcReq) (rest : List PlcReq), s.runs = true → s.plc.asked = q :: rest → s.enabled 0x1C = true → s.pf.warned = false →
    1 ≤ q.bytes.length → q.bytes.length ≤ 2047 → q.mode ≤ 4 → s.plcBusy = false → s.plc.queue = [] →
    Ends (exec .plcTxRequest s) fun t =>
      let ph := q.phase.getD (s.get F.PLC_CFG_TX_PHASE)
      t.plc = { asked := rest, queue := [q], txen := if ph = 3 then 7 else 2 ^ ph, wave := plcFrame q.bytes q.mode q.span ph }
      ∧ t.on F.PLC_STATUS_TX_BUSY = true ∧ t.on F.PLC_STATUS_RX_BUSY = false
      ∧ (s.on F.PLC_STATUS_RX_BUSY = true → t.get F.PLC_RX_DROP_ABANDON = satInc 65535 (s.get F.PLC_RX_DROP_ABANDON))
      ∧ Keeps s t (among [F.PLC_STATUS_TX_BUSY.addr, F.PLC_RX_DROP_ABANDON.addr]) [] [.plc])
  ∧ (∀ (s : State) (q : PlcReq) (rest : List PlcReq), s.runs = true → s.plc.asked = q :: rest → s.enabled 0x1C = true →
    1 ≤ q.bytes.length → q.bytes.length ≤ 2047 → q.mode ≤ 4 → s.plcBusy = true →
    Ends (exec .plcTxRequest s) fun t =>
      t.plc = { s.plc with asked := rest, queue := s.plc.queue ++ [q] } ∧ Keeps s t (among []) [] [.plc])
  ∧ (∀ (s : State) (q : PlcReq) (rest : List PlcReq), s.runs = true → s.plc.asked = q :: rest →
    (s.enabled 0x1C = false ∨ q.bytes = [] ∨ 2047 < q.bytes.length ∨ 4 < q.mode) →
    Ends (exec .plcTxRequest s) fun t =>
      t.get (hdrErrcode 0x1C) = 0x1E ∧ t.plc = { s.plc with asked := rest } ∧ (q.isAck = true → t.msh = s.msh) ∧ Keeps s t (errRegs 0x1C) [] [.plc, .msh])
  ∧ (∀ (s : State), s.runs = true → s.plc.asked = [] → Ends (exec .plcTxRequest s) fun t => Keeps s t (among []) [] [])
  ∧ (∀ (bytes : List Byte) (mode span ph : Nat),
    (plcFrame bytes mode span ph).length = 13 + plcNs mode bytes.length ∧ ∀ sym ∈ plcFrame bytes mode span ph, sym.length = 40)
  ∧ (∀ (s : State) (clipped : Bool), s.runs = true → s.plcBusy = false → Ends (exec (.txDone clipped) s) fun t => Keeps s t (among []) [] [])
  ∧ (∀ (s : State) (clipped : Bool) (q : PlcReq) (t0 : MeshTx), s.runs = true → s.plcBusy = true → s.plc.queue = [q] →
    (q.isAck = true ∨ (s.msh.cur = some t0 ∧ t0.stage = 1 ∧ t0.ack = true ∧ t0.rx ≠ 0xFFFF)) →
    Ends (exec (.txDone clipped) s) fun t =>
      t.plc = { s.plc with queue := [], txen := 0, wave := [] } ∧ t.on F.PLC_STATUS_TX_BUSY = false
      ∧ t.get F.PLC_TX_CNT_DONE = (s.get F.PLC_TX_CNT_DONE + 1) % 65536 ∧ t.get (hdrPend 0x1C 1) = 1 ∧ (clipped = true → t.get (hdrPend 0x1C 5) = 1)
      ∧ t.msh = (if q.isAck then s.msh else { s.msh with cur := some { t0 with stage := 2 } })
      ∧ Keeps s t (fun a => a ∈ [F.PLC_STATUS_TX_BUSY.addr, F.PLC_TX_CNT_DONE.addr, F.MSH_TX_CNT_FRAMES.addr] ∨ irqRegs 0x1C 1 a ∨ irqRegs 0x1C 5 a) []
          [.plc, .msh])
  ∧ (∀ (s : State) (clipped : Bool) (q : PlcReq) (t0 : MeshTx), s.runs = true → s.plcBusy = true → s.plc.queue = [q] → q.isAck = false →
    s.msh.cur = some t0 → t0.stage = 1 → (t0.ack = false ∨ t0.rx = 0xFFFF) → t0.pushes = [] →
    Ends (exec (.txDone clipped) s) fun t =>
      t.on F.PLC_STATUS_TX_BUSY = false ∧ (s.msh.outq = [] → t.msh.cur = none)
      ∧ (∀ x rest, s.msh.outq = x :: rest → t.msh.cur = some { x with be := s.get F.MSH_ACCESS_BE_MIN } ∧ t.msh.outq = rest)
      ∧ Keeps s t (fun a => a ∈ [F.PLC_STATUS_TX_BUSY.addr, F.PLC_TX_CNT_DONE.addr, F.MSH_TX_CNT_FRAMES.addr] ∨ irqRegs 0x1C 1 a ∨ irqRegs 0x1C 5 a) []
          [.plc, .msh])
  ∧ (∀ (s : State) (on preamble : Bool) (a b c : Nat), s.runs = true → s.enabled 0x1C = true → s.pf.warned = false → s.plcBusy = false →
    Ends (exec (.carrierSenseChange on preamble [a, b, c]) s) fun t =>
      t.on F.PLC_STATUS_CS = on ∧ t.on F.PLC_STATUS_RX_BUSY = (on && preamble)
      ∧ (on = true → t.get F.PLC_NOISE_A = a % 256 ∧ t.get F.PLC_NOISE_B = b % 256 ∧ t.get F.PLC_NOISE_C = c % 256)
      ∧ Keeps s t (among [F.PLC_STATUS_CS.addr, F.PLC_NOISE_A.addr]) [] [])
  ∧ (∀ (s : State) (on preamble : Bool) (noise : List Nat) (rx : PlcRx), s.runs = true →
    (s.enabled 0x1C = false ∨ s.pf.warned = true ∨ s.plcBusy = true) →
    ∀ c ∈ ([.carrierSenseChange on preamble noise, .rxFrame rx] : List Instr), Ends (exec c s) fun t => Keeps s t (among []) [] [])
  ∧ (∀ (s : State) (rx : PlcRx), s.runs = true → s.enabled 0x1C = true → s.pf.warned = false → s.plcBusy = false →
    let mode := rx.header.toNat % 8
    let len := rx.header.toNat / 8 % 2048
    let good := crc8 (numBits 24 rx.header.toNat) = rx.header.toNat / 2 ^ 24 ∧ rx.header.toNat / 2 ^ 18 % 4 = 1 ∧ mode ≤ 4 ∧ len ≠ 0
    Ends (exec (.rxFrame rx) s) fun t =>
      t.on F.PLC_STATUS_RX_BUSY = false ∧ t.on F.PLC_STATUS_CS = false
      ∧ (¬ good → t.get F.PLC_ERR_CNT_HDR = satInc 65535 (s.get F.PLC_ERR_CNT_HDR) ∧ t.get (hdrPend 0x1C 2) = 1 ∧ t.msh = s.msh)
      ∧ (good → rx.payload = none → t.get F.PLC_ERR_CNT_RS = satInc 65535 (s.get F.PLC_ERR_CNT_RS) ∧ t.get (hdrPend 0x1C 3) = 1 ∧ t.msh = s.msh)
      ∧ (∀ b, good → rx.payload = some b →
          t.get ⟨A.PLC_RX_OK, 0, 32⟩ = (s.get ⟨A.PLC_RX_OK, 0, 32⟩ + 1) % 2 ^ 32 ∧ t.get (hdrPend 0x1C 0) = 1 ∧ t.get F.PLC_LAST_RX_MODE = mode
          ∧ (s.enabled 0x1D = false → t.msh = s.msh)
          ∧ (s.enabled 0x1D = true → (t.msh = s.msh ∧ t.get F.MSH_DROP_CNT_CRC = satInc 255 (s.get F.MSH_DROP_CNT_CRC)) ∨ frameWhole (b.take len) = true)
          ∧ (s.enabled 0x1D = true → frameWhole (b.take len) = true → (linkHdr (b.take len)).site = s.get F.MSH_ADDR_SITE →
              ((linkHdr (b.take len)).rx = s.mshAddr ∨ (linkHdr (b.take len)).rx = 0xFFFF) → s.quarantined (linkHdr (b.take len)).tx = false →
              1 ≤ (linkHdr (b.take len)).ftype → (linkHdr (b.take len)).ftype ≤ 7 →
              t.msh = { s.msh with inbox := s.msh.inbox ++ [⟨b.take len, mode, max (-40) (min 80 rx.snr), min 255 rx.erased, s.ts⟩] }))
      ∧ Keeps s t (onPages [0x1C, 0x1D]) [64] [.msh, .fresh])

/-- HELLO, backoff, acknowledgements and their timeouts, tenon retries, pushed frames, end-to-end timeouts and unsolicited replies. TYPE of TX_RESULT and
NONCE are free; log entries 48 and 49 name the layouts the model chooses. (R442, R446, R448, R450, R452, R453, R454, R455, R456) -/
def Obligations.MeshSending : Prop :=
  (∀ (s : State), s.runs = true → s.mshRuns = true → s.msh.cur = none → s.msh.outq = [] →
    Ends (exec .helloTimer s) fun t =>
      t.msh = { s.msh with cur := some { ftype := 1, ack := false, rx := 0xFFFF, body := s.helloBody, be := s.get F.MSH_ACCESS_BE_MIN } }
      ∧ Keeps s t (among []) [] [.msh])
  ∧ (∀ (s : State) (x : MeshTx), s.runs = true → s.mshRuns = true → s.msh.cur = some x →
    Ends (exec .helloTimer s) fun t =>
      t.msh = { s.msh with outq := s.msh.outq ++ [{ ftype := 1, ack := false, rx := 0xFFFF, body := s.helloBody }] } ∧ Keeps s t (among []) [] [.msh])
  ∧ (∀ (s : State) (n ref : Nat), s.runs = true → s.mshRuns = false → (∀ e ∈ s.msh.e2e, e.ref ≠ ref) →
    (∀ x, s.msh.cur = some x → x.stage ≠ 2) →
    ∀ c ∈ ([.helloTimer, .backoffExpiry, .ackTimeout, .tenonRetry n, .unsolicitedReply, .e2eTimeout ref] : List Instr),
      Ends (exec c s) fun t => Keeps s t (among []) [] [])
  ∧ (∀ (s : State) (t0 : MeshTx), s.runs = true → s.mshRuns = true → s.msh.cur = some t0 → t0.stage = 0 → s.on F.PLC_STATUS_CS = false →
    s.on F.PLC_STATUS_RX_BUSY = false → s.linkOpen t0 = true →
    Ends (exec .backoffExpiry s) fun t =>
      (∃ lseq body, t.msh.cur = some { t0 with lseq := some lseq, stage := 1 }
        ∧ lseq = t0.lseq.getD (if t0.rx = 0xFFFF then s.msh.bseq else ((s.nb t0.rx).map Neigh.next).getD 0)
        ∧ (t0.rxTs = none → body = t0.body)
        ∧ t.plc = { s.plc with asked := s.plc.asked ++ [⟨s.linkBytes t0.ftype (maskOf [t0.net.isSome, t0.fails != 0, t0.unsol]) (s.pverOf t0)
            (t0.ack && t0.rx != 0xFFFF) t0.rx lseq ((t0.net.map NetHdr.bytes).getD [] ++ body), s.modeOf t0, s.get F.PLC_CFG_SPAN, none, false⟩] })
      ∧ (t0.fails ≠ 0 → t.get F.MSH_TX_CNT_RETRIES = satInc (2 ^ F.MSH_TX_CNT_RETRIES.wid - 1) (s.get F.MSH_TX_CNT_RETRIES))
      ∧ Keeps s t (among [F.MSH_TX_CNT_RETRIES.addr]) [] [.msh, .plc])
  ∧ (∀ (s : State), s.runs = true → (s.on F.PLC_STATUS_CS = true ∨ s.on F.PLC_STATUS_RX_BUSY = true ∨ ∀ x, s.msh.cur = some x → x.stage ≠ 0) →
    Ends (exec .backoffExpiry s) fun t => Keeps s t (among []) [] [])
  ∧ (∀ (s : State) (a : AckDue), s.runs = true → s.msh.ack = some a → s.mshRuns = true →
    Ends (exec .ackSend s) fun t =>
      (∃ lseq, lseq = (if a.rx = 0xFFFF then s.msh.bseq else ((s.nb a.rx).map Neigh.next).getD 0) ∧ t.plc = { s.plc with asked := s.plc.asked ++ [⟨s.linkBytes 2 0 (s.pverOf { ftype := 2, rx := a.rx }) false a.rx lseq
          (le 1 (unsignedOf 8 a.snr) ++ le 1 a.erased ++ le 2 0), if 3 ≤ a.mode then a.mode else 0,
          s.get F.PLC_CFG_SPAN, none, true⟩] }) ∧ t.msh.ack = none ∧ t.msh.cur = s.msh.cur ∧ Keeps s t (among []) [] [.msh, .plc])
  ∧ (∀ (s : State), s.runs = true → s.msh.ack = none → Ends (exec .ackSend s) fun t => Keeps s t (among []) [] [])
  ∧ (∀ (s : State) (t0 : MeshTx) (n : Neigh), s.runs = true → s.msh.cur = some t0 → t0.stage = 2 → s.nb t0.rx = some n →
    Ends (exec .ackTimeout s) fun t =>
      (∃ n', t.nb t0.rx = some n' ∧ n'.dr = n.dr - n.dr / 16 ∧ n'.failRun = n.failRun + 1 ∧ n'.cleans = 0
        ∧ n'.valid = (n.valid && decide (n.failRun < s.get F.MSH_ACCESS_RETRY_MAX)))
      ∧ (t0.alt = false → t0.fails < s.get F.MSH_ACCESS_RETRY_MAX →
          t.msh.cur = some { t0 with fails := t0.fails + 1, stage := 0, be := min (s.get F.MSH_ACCESS_BE_MAX) (t0.be + 1) })
      ∧ (t0.alt = true ∨ (t0.net = none ∧ s.get F.MSH_ACCESS_RETRY_MAX ≤ t0.fails) →
          t.get F.MSH_FAIL_CNT_HOPFAIL = satInc 65535 (s.get F.MSH_FAIL_CNT_HOPFAIL) ∧ t.get (hdrErrcode 0x1D) = 0x77
          ∧ (s.msh.outq = [] → t.msh.cur = none))
      ∧ Keeps s t (onPages [0x1D]) [64] [.msh, .fresh])
  ∧ (∀ (s : State), s.runs = true → (∀ x, s.msh.cur = some x → x.stage ≠ 2) → Ends (exec .ackTimeout s) fun t => Keeps s t (among []) [] [])
  ∧ (∀ (s : State) (a : Nat) (n : Neigh), s.runs = true → s.mshRuns = true → s.nb a = some n → s.mshAddr < a → n.chosen = 0 → n.reqs < 3 →
    s.msh.cur = none → s.msh.outq = [] →
    Ends (exec (.tenonRetry a) s) fun t =>
      (∃ nonce, nonce.length = 4 ∧ t.nb a = some { n with reqs := n.reqs + 1, nonce := nonce }
        ∧ t.msh.cur = some { ftype := 3, ack := false, rx := a, body := le 1 1 ++ le 1 (s.get F.MSH_CFG_VMAX) ++ le 2 0 ++ nonce,
                             be := s.get F.MSH_ACCESS_BE_MIN })
      ∧ Keeps s t (among []) [] [.msh, .fresh])
  ∧ (∀ (s : State) (a : Nat), s.runs = true → (∀ n, s.nb a = some n → a ≤ s.mshAddr ∨ n.chosen ≠ 0 ∨ 3 ≤ n.reqs) →
    Ends (exec (.tenonRetry a) s) fun t => Keeps s t (among []) [] [])
  ∧ (∀ (s : State) (p : Fin 4), s.runs = true → ((s.ring (27 + p)).frames = [] ∨ s.mshRuns = false) →
    Ends (exec (.linkTransmitPush p) s) fun t => Keeps s t (among []) [] [])
  ∧ (∀ (s : State) (p : Fin 4) (f : Frame) (rest : List Frame), s.runs = true → s.mshRuns = true → (s.ring (27 + p)).frames = f :: rest →
    f.payload.length < 4 → s.takes 64 →
    Ends (exec (.linkTransmitPush p) s) fun t =>
      (t.ring (27 + p)).frames = rest ∧ t.get (hdrErrcode 0x1D) = 0x72 ∧ (∃ ty, Queued s t 64 ty none 0 (le 2 f.seq ++ le 1 0 ++ le 1 0 ++ le 2 0x72))
      ∧ Keeps s t (errRegs 0x1D) [27 + p, 64] [.fresh])
  ∧ (∀ (s : State) (p : Fin 4) (f : Frame) (rest : List Frame), s.runs = true → s.mshRuns = true → (s.ring (27 + p)).frames = f :: rest →
    4 ≤ f.payload.length →
    let d := fieldLe f.payload 0 2
    let flag := (fieldLe f.payload 2 1).testBit 0
    let sec := mkSection 1 flag.toNat (f.payload.drop 4)
    let hop := s.hopTo d
    46 + sec.length ≤ 2047 → (∀ x, hop = some x → x.1.length ≤ 7) →
    Ends (exec (.linkTransmitPush p) s) fun t =>
      (t.ring (27 + p)).frames = rest
      ∧ (d ≠ 0xFFFF → s.waitsPoll d = true → t.msh = { s.msh with secs := s.msh.secs ++ [⟨d, p, sec, some (f.seq, flag)⟩] })
      ∧ (d ≠ 0xFFFF → s.waitsPoll d = false → hop = none →
          t.get (hdrErrcode 0x1D) = 0x71 ∧ t.get F.MSH_FAIL_CNT_NOROUTE = satInc 65535 (s.get F.MSH_FAIL_CNT_NOROUTE) ∧ t.msh = s.msh
          ∧ (s.takes 64 → ∃ ty, Queued s t 64 ty none 0 (le 2 f.seq ++ le 1 0 ++ le 1 0 ++ le 2 0x71)))
      ∧ (∀ path rx, (d = 0xFFFF ∧ path = [] ∧ rx = 0xFFFF) ∨ (d ≠ 0xFFFF ∧ s.waitsPoll d = false ∧ hop = some (path, rx)) →
          s.msh.cur = none → s.msh.outq = [] →
          t.msh = { s.msh with
            nseq := (s.msh.nseq + 1) % 65536
            e2e := s.msh.e2e ++ (if flag then [⟨f.seq, d, s.msh.nseq, s.ts⟩] else [])
            cur := some { ftype := 5, rx := rx, net := some { orig := s.mshAddr, dest := d, nseq := s.msh.nseq, prio := p, path := path }, body := sec,
                          pushes := [(f.seq, flag)], be := s.get F.MSH_ACCESS_BE_MIN } })
      ∧ Keeps s t (fun a => a = F.MSH_FAIL_CNT_NOROUTE.addr ∨ errRegs 0x1D a ∨ lostRegs a) [27 + p, 64] [.msh, .fresh])
  ∧ (∀ (s : State) (e : E2e), s.runs = true → s.msh.e2e.find? (fun x => x.ref == e.ref) = some e → secTs 60 ≤ s.ts - e.ts → s.takes 64 →
    Ends (exec (.e2eTimeout e.ref) s) fun t =>
      t.msh = { s.msh with e2e := s.msh.e2e.filter fun x => x.ref != e.ref } ∧ t.get (hdrErrcode 0x1D) = 0x77
      ∧ (∃ ty, Queued s t 64 ty none 0 (le 2 e.ref ++ le 1 0 ++ le 1 0 ++ le 2 0x77)) ∧ Keeps s t (errRegs 0x1D) [64] [.msh, .fresh])
  ∧ (∀ (s : State) (ref : Nat), s.runs = true → (∀ e ∈ s.msh.e2e, e.ref = ref → s.ts - e.ts < secTs 60) →
    Ends (exec (.e2eTimeout ref) s) fun t => Keeps s t (among []) [] [])
  ∧ (∀ (s : State) (c : Cand), s.runs = true → s.mshRuns = true → s.mshRole = 1 → s.route (s.get F.MSH_MASTER_ADDR) = some c →
    s.msh.cur = none → s.msh.outq = [] → (s.msh.freshRoute = true ∨ secTs (s.get F.MSH_POLL_CFG_POLL_LOSS_S) ≤ s.ts - s.msh.polled) →
    Ends (exec .unsolicitedReply s) fun t =>
      t.msh = { s.msh with
        freshRoute := false, polled := s.ts, nseq := (s.msh.nseq + 1) % 65536
        cur := some { ftype := 7, unsol := true, rx := c.via, be := s.get F.MSH_ACCESS_BE_MIN
                      net := some { orig := s.mshAddr, dest := s.get F.MSH_MASTER_ADDR, nseq := s.msh.nseq, prio := 0, path := [] } } }
      ∧ Keeps s t (among []) [] [.msh])
  ∧ (∀ (s : State), s.runs = true → (s.mshRole ≠ 1 ∨ (s.msh.freshRoute = false ∧ s.ts - s.msh.polled < secTs (s.get F.MSH_POLL_CFG_POLL_LOSS_S))) →
    Ends (exec .unsolicitedReply s) fun t => Keeps s t (among []) [] [])

/-- For every frame type: no waiting frame changes nothing; malformed, stale and duplicate frames are counted and dropped; a frame that passes is taken,
acknowledged where asked, and its transmitter noted. (R451, R452, R458) -/
def Obligations.FramesAreJudged : Prop :=
  let pages : List Nat := [0x1D, 0x1A, 0x30, 0x31, 0x32, 0x33, 0x34, 0x35, 0x36, 0x37, 0x38, 0x39, 0x3A, 0x3B]
  (∀ p ∈ meshRows, ∀ (s : State), s.runs = true → s.inHead p.1 = none → Ends (exec p.2 s) fun t => Keeps s t (among []) [] [])
  ∧ (∀ p ∈ meshRows, ∀ (s : State) (r : MeshRx), s.runs = true → s.inHead p.1 = some r → s.malformed r.bytes = true → s.msh.todo = [] →
    let n := (s.msh.malf.filter fun x => decide (s.ts - x.2 ≤ secTs 60) && (x.1 == (linkHdr r.bytes).tx)).length + 1
    Ends (exec p.2 s) fun t =>
      t.msh.inbox = s.msh.inbox.tail ∧ t.get F.MSH_DROP_CNT_MALFORMED = satInc 255 (s.get F.MSH_DROP_CNT_MALFORMED)
      ∧ (n < s.get F.MSH_MALF_MALF_MAX →
          t.msh.quar = s.msh.quar ∧ t.msh.neigh = s.msh.neigh ∧ Keeps s t (among [F.MSH_DROP_CNT_MALFORMED.addr]) [] [.msh])
      ∧ (s.get F.MSH_MALF_MALF_MAX ≤ n →
          t.msh.quar = s.msh.quar ++ [((linkHdr r.bytes).tx, s.ts + secTs (s.get F.MSH_MALF_QUAR_S))] ∧ t.get (hdrPend 0x1D 4) = 1
          ∧ (∀ x, t.nb (linkHdr r.bytes).tx = some x → t.linkCost (linkHdr r.bytes).tx x = none) ∧ Keeps s t (onPages [0x1D]) [64] [.msh, .fresh]))
  ∧ (∀ p ∈ meshRows, ∀ (s : State) (r : MeshRx) (n : Neigh), s.runs = true → s.inHead p.1 = some r → s.malformed r.bytes = false → s.msh.todo = [] →
    s.nb (linkHdr r.bytes).tx = some n → pairOrder (linkHdr r.bytes).epoch (linkHdr r.bytes).inc n.epoch n.inc = .lt →
    Ends (exec p.2 s) fun t =>
      t.msh = { s.msh with inbox := s.msh.inbox.tail } ∧ t.get F.MSH_DROP_CNT_STALE = satInc 255 (s.get F.MSH_DROP_CNT_STALE)
      ∧ Keeps s t (among [F.MSH_DROP_CNT_STALE.addr]) [] [.msh])
  ∧ (∀ p ∈ meshRows, ∀ (s : State) (r : MeshRx) (n : Neigh), s.runs = true → s.inHead p.1 = some r → s.malformed r.bytes = false → s.msh.todo = [] →
    let h := linkHdr r.bytes
    s.nb h.tx = some n → pairOrder h.epoch h.inc n.epoch n.inc = .eq →
    ((if h.rx = 0xFFFF then n.seqB else n.seqU) = some h.lseq
      ∨ (h.net = true ∧ ((netHdr r.bytes).orig = s.mshAddr ∨ s.seen (netHdr r.bytes).orig (netHdr r.bytes).nseq = true))) →
    Ends (exec p.2 s) fun t =>
      t.msh.inbox = s.msh.inbox.tail ∧ t.get F.MSH_DROP_CNT_DUP = satInc 255 (s.get F.MSH_DROP_CNT_DUP)
      ∧ t.msh.ack = (if h.ack = true ∧ h.rx = s.mshAddr ∧ s.mshRole ≠ 0 then some ⟨h.tx, r.mode, r.snr, r.erased⟩ else s.msh.ack)
      ∧ t.nb h.tx = some { n with snrIn := r.snr, ts := s.ts } ∧ t.msh.cur = s.msh.cur ∧ t.msh.outq = s.msh.outq ∧ t.msh.secs = s.msh.secs
      ∧ Keeps s t (onPages [0x1D]) [64] [.msh, .fresh])
  ∧ (∀ p ∈ meshRows, ∀ (s : State) (r : MeshRx), s.runs = true → s.inHead p.1 = some r → s.judgedGood r → s.msh.todo = [] →
    (p.1 ≤ 4 ∨ (∀ x ∈ frameSections r, x.1 ≠ 5) ∨ s.get F.MSH_CFG_VMAX = 1) →
    let h := linkHdr r.bytes
    Ends (exec p.2 s) fun t =>
      t.msh.inbox = s.msh.inbox.tail
      ∧ t.msh.ack = (if h.ack = true ∧ h.rx = s.mshAddr ∧ s.mshRole ≠ 0 then some ⟨h.tx, r.mode, r.snr, r.erased⟩ else s.msh.ack)
      ∧ (∀ n, t.nb h.tx = some n → pairOrder h.epoch h.inc n.epoch n.inc = .eq ∧ n.snrIn = r.snr ∧ n.ts = s.ts
          ∧ (if h.rx = 0xFFFF then n.seqB else n.seqU) = some h.lseq)
      ∧ ((t.nb h.tx).isSome = true ↔ (s.nb h.tx).isSome = true ∨ p.1 = 1 ∨ p.1 = 3)
      ∧ (p.1 ≤ 4 → Keeps s t (onPages [0x1D]) [64] [.msh, .fresh])
      ∧ Keeps s t (onPages pages) [64, 51, 31, 32, 33, 34] [.msh, .fresh, .lm, .sram])

/-- What an accepted HELLO, ACK, TENON_REQ and TENON_RSP does to the neighbour, the master adopted and the frame being sent. The body layouts follow log
entry 49. (R440, R445, R446, R447, R450, R452) -/
def Obligations.NeighboursAndLinks : Prop :=
  (∀ (s : State) (r : MeshRx), s.runs = true → s.inHead 1 = some r → s.judgedGood r →
    let c := content r.bytes
    Ends (exec .hello s) fun t =>
      (∃ n, t.nb (linkHdr r.bytes).tx = some n ∧ n.lists = (helloOfMe s.mshAddr c).isSome ∧ (∀ v, helloOfMe s.mshAddr c = some v → n.snrOut = v ∧ n.valid = true)
        ∧ n.master = fieldLe c 8 2 ∧ n.costM = fieldLe c 10 2 ∧ n.hopsM = fieldLe c 12 1 ∧ n.nextM = fieldLe c 16 2
        ∧ (s.nb (linkHdr r.bytes).tx = none → n.dr = 192 ∧ n.chosen = 0 ∧ n.rung = 1))
      ∧ t.get F.MSH_MASTER_ADDR = (if s.mshRole = 1 ∧ s.get F.MSH_MASTER_ADDR = 0xFFFF then fieldLe c 8 2 else s.get F.MSH_MASTER_ADDR)
      ∧ t.msh.conflict = (if s.mshRole = 2 ∧ fieldLe c 8 2 ≠ 0xFFFF ∧ fieldLe c 8 2 ≠ s.mshAddr then some (fieldLe c 8 2, s.ts) else s.msh.conflict)
      ∧ Keeps s t (onPages [0x1D]) [64] [.msh, .fresh])
  ∧ (∀ (s : State) (r : MeshRx) (n : Neigh) (t0 : MeshTx), s.runs = true → s.inHead 2 = some r → s.judgedGood r →
    let h := linkHdr r.bytes
    s.nb h.tx = some n → pairOrder h.epoch h.inc n.epoch n.inc = .eq → s.msh.cur = some t0 → t0.stage = 2 → t0.rx = h.tx → h.rx = s.mshAddr → t0.pushes = [] →
    Ends (exec .ack s) fun t =>
      (∃ n', t.nb h.tx = some n' ∧ n'.dr = n.dr + (256 - n.dr) / 16 ∧ n'.failRun = 0 ∧ n'.fails = 0 ∧ n'.snrOut = signedOf 8 (fieldLe (content r.bytes) 0 1))
      ∧ (s.msh.outq = [] → t.msh.cur = none)
      ∧ (∀ x rest, s.msh.outq = x :: rest → t.msh.cur = some { x with be := s.get F.MSH_ACCESS_BE_MIN } ∧ t.msh.outq = rest)
      ∧ Keeps s t (onPages [0x1D]) [64] [.msh, .fresh])
  ∧ (∀ (s : State) (r : MeshRx), s.runs = true → s.inHead 2 = some r → s.judgedGood r →
    (∀ t0, s.msh.cur = some t0 → t0.stage ≠ 2 ∨ t0.rx ≠ (linkHdr r.bytes).tx ∨ (linkHdr r.bytes).rx ≠ s.mshAddr) → s.msh.cur ≠ none →
    Ends (exec .ack s) fun t => t.msh.cur = s.msh.cur ∧ Keeps s t (onPages [0x1D]) [64] [.msh, .fresh])
  ∧ (∀ (s : State) (r : MeshRx) (n : Neigh), s.runs = true → s.inHead 3 = some r → s.judgedGood r →
    let h := linkHdr r.bytes
    let c := content r.bytes
    let top := min (fieldLe c 1 1) (s.get F.MSH_CFG_VMAX)
    let chosen := if max 1 (fieldLe c 0 1) ≤ top then top else 0
    s.nb h.tx = some n → pairOrder h.epoch h.inc n.epoch n.inc = .eq → s.mshRuns = true → s.msh.cur = none → s.msh.outq = [] →
    Ends (exec .tenonReq s) fun t =>
      (∃ n', t.nb h.tx = some n' ∧ n'.chosen = chosen ∧ (rungsOf chosen).contains n'.rung = true)
      ∧ t.msh.cur = some { ftype := 4, ack := false, rx := h.tx, be := s.get F.MSH_ACCESS_BE_MIN
                           body := le 1 1 ++ le 1 (s.get F.MSH_CFG_VMAX) ++ le 1 chosen ++ le 1 0 ++ (c.drop 4).take 4 }
      ∧ (chosen = 0 → t.get (hdrPend 0x1D 0) = 1) ∧ Keeps s t (onPages [0x1D]) [64] [.msh, .fresh])
  ∧ (∀ (s : State) (r : MeshRx) (n : Neigh), s.runs = true → s.inHead 4 = some r → s.judgedGood r →
    let h := linkHdr r.bytes
    let c := content r.bytes
    s.nb h.tx = some n → pairOrder h.epoch h.inc n.epoch n.inc = .eq →
    Ends (exec .tenonRsp s) fun t =>
      (∃ n', t.nb h.tx = some n' ∧ n'.chosen = (if n.reqs ≠ 0 ∧ n.nonce = (c.drop 4).take 4 then min (fieldLe c 2 1) (s.get F.MSH_CFG_VMAX) else n.chosen))
      ∧ Keeps s t (onPages [0x1D]) [64] [.msh, .fresh])

/-- A frame for this node is delivered by its sections, a frame for another is forwarded, a slave answers its poll, the master notes a reply, and a remote
request executes once or is refused with 0x0074. Section layouts follow log entry 49 and 50. (R443, R447, R454, R455, R456, R457, R458) -/
def Obligations.DeliveryAndForwarding : Prop :=
  (∀ (s : State) (r : MeshRx) (x : Nat) (data : List Byte), s.runs = true → s.inHead 5 = some r → s.judgedGood r → s.msh.todo = [] →
    let h := netHdr r.bytes
    (h.dest = s.mshAddr ∨ h.dest = 0xFFFF) → frameSections r = [(1, x, data)] → s.takes (31 + h.prio % 4) →
    Ends (exec .data s) fun t =>
      Queued s t (31 + h.prio % 4) 1 none 0
        (le 2 h.orig ++ le 1 h.hops ++ le 1 0 ++ le 2 h.nseq ++ le 1 (unsignedOf 8 r.snr) ++ le 1 0 ++ data)
      ∧ t.get F.MSH_RX_CNT_DELIVERED = (s.get F.MSH_RX_CNT_DELIVERED + 1) % 65536)
  ∧ (∀ p ∈ ([(5, .data), (6, .poll)] : List (Nat × Instr)), ∀ (s : State) (r : MeshRx) (n : Neigh), s.runs = true → s.inHead p.1 = some r → s.judgedGood r →
    s.msh.todo = [] →
    let l := linkHdr r.bytes
    let h := netHdr r.bytes
    h.dest ≠ s.mshAddr → h.dest ≠ 0xFFFF → h.idx < h.path.length → s.nb l.tx = some n → pairOrder l.epoch l.inc n.epoch n.inc = .eq →
    s.mshRuns = true → s.msh.cur = none → s.msh.outq = [] →
    Ends (exec p.2 s) fun t =>
      (∃ cost, t.msh.cur = some { ftype := p.1, unsol := (fieldLe r.bytes 1 1).testBit 2, rx := h.path.getD (h.idx + 1) h.dest
                                  net := some { h with hops := h.hops + 1, idx := h.idx + 1, pcost := cost }
                                  body := content r.bytes, rxTs := some r.ts, be := s.get F.MSH_ACCESS_BE_MIN }
        ∧ min 0xFFFF h.pcost ≤ cost ∧ cost ≤ 0xFFFF)
      ∧ t.get F.MSH_RX_CNT_FORWARDED = (s.get F.MSH_RX_CNT_FORWARDED + 1) % 65536
      ∧ Keeps s t (onPages [0x1D]) [64] [.msh, .fresh])
  ∧ (∀ (s : State) (r : MeshRx), s.runs = true → s.inHead 6 = some r → s.judgedGood r → s.msh.todo = [] → s.mshRuns = true → s.mshRole = 1 →
    let l := linkHdr r.bytes
    let h := netHdr r.bytes
    h.dest = s.mshAddr → h.orig = s.get F.MSH_MASTER_ADDR → (∀ x ∈ frameSections r, x.1 = 4 ∨ x.1 = 2) → s.msh.secs = [] →
    (∃ n, s.nb l.tx = some n ∧ pairOrder l.epoch l.inc n.epoch n.inc = .eq) → s.msh.cur = none → s.msh.outq = [] →
    Ends (exec .poll s) fun t =>
      t.msh.polled = s.ts ∧ t.get F.MSH_RX_CNT_DELIVERED = (s.get F.MSH_RX_CNT_DELIVERED + 1) % 65536
      ∧ (∀ c, t.route h.orig = some c → t.msh.cur = some
          { ftype := 7, rx := c.via, be := s.get F.MSH_ACCESS_BE_MIN, net := some { orig := s.mshAddr, dest := h.orig, nseq := s.msh.nseq }
            body := if (frameSections r).any (fun x => x.1 == 2) then mkSection 3 0 t.reportPayload else [] }))
  ∧ (∀ (s : State) (r : MeshRx) (i : Nat), s.runs = true → s.inHead 7 = some r → s.judgedGood r → s.msh.todo = [] → s.mshRole = 2 →
    let h := netHdr r.bytes
    (h.dest = s.mshAddr ∨ h.dest = 0xFFFF) → ((List.range s.entries).find? fun j => s.pollNum j 0 2 == h.orig) = some i → (∀ x ∈ frameSections r, x.1 ≠ 5) →
    Ends (exec .reply s) fun t =>
      t.pollNum i 18 1 = 0 ∧ t.pollNum i 19 1 = 1 ∧ t.pollNum i 20 4 = s.ts % 2 ^ 32
      ∧ ((s.pollNum i 2 1).testBit 2 = false → t.pollPath i = h.path.reverse)
      ∧ ((s.pollNum i 2 1).testBit 2 = true → t.pollPath i = s.pollPath i)
      ∧ (∀ x ∈ t.msh.polls, x.dest ≠ h.orig) ∧ t.get F.MSH_RX_CNT_DELIVERED = (s.get F.MSH_RX_CNT_DELIVERED + 1) % 65536)
  ∧ (∀ p ∈ ([(5, .data), (6, .poll), (7, .reply)] : List (Nat × Instr)), ∀ (s : State) (r : MeshRx) (y : Nat) (body a : List Byte), s.runs = true →
    s.inHead p.1 = some r → s.judgedGood r → s.msh.todo = [] → s.get F.MSH_CFG_VMAX ≠ 1 →
    ((netHdr r.bytes).dest = s.mshAddr ∨ (netHdr r.bytes).dest = 0xFFFF) → frameSections r = [(5, y, body)] →
    (s.msh.served.find? fun x => x.1 == (netHdr r.bytes).orig && x.2.1 == (remoteReq body).rseq) = some ((netHdr r.bytes).orig, ((remoteReq body).rseq, a)) →
    Ends (exec p.2 s) fun t => t.msh.served = s.msh.served ∧ t.msh.todo = [] ∧ Keeps s t (onPages [0x1D, 0x1A]) [64] [.msh, .fresh, .lm, .sram])
  ∧ (∀ (s : State) (r : MeshRx) (y : Nat) (body : List Byte), s.runs = true → s.inHead 5 = some r → s.judgedGood r → s.msh.todo = [] →
    let q := remoteReq body
    let orig := (netHdr r.bytes).orig
    s.get F.MSH_CFG_VMAX ≠ 1 → (netHdr r.bytes).dest = s.mshAddr → frameSections r = [(5, y, body)] →
    (s.msh.served.find? fun x => x.1 == orig && x.2.1 == q.rseq) = none →
    1 ≤ q.count → q.count ≤ 64 → (q.write = true → q.words.length = q.count) →
    (s.on F.MSH_CFG_REMOTE_EN = false ∨ q.token ≠ (s.reg A.MSH_REMOTE_TOKEN).toNat ∨ (q.write = true ∧ (s.boot.bench = true ∨ s.remoteShut q.addr = true))) →
    Ends (exec .data s) fun t =>
      (orig, (q.rseq, le 2 0x74 ++ le 2 0)) ∈ t.msh.served ∧ s.get (hdrErrcount 0x1D) ≤ t.get (hdrErrcount 0x1D) ∧ t.msh.todo = []
      ∧ Keeps s t (onPages [0x1D]) [64] [.msh, .fresh])

/-- Neighbours and routes expire, quarantine and a role conflict end, and MSH.CTRL.ENABLE is accepted, refused or cleared. (R440, R445, R447, R449, R452,
R458) -/
def Obligations.MeshTables : Prop :=
  (∀ (s : State) (a : Nat) (n : Neigh), s.runs = true → s.nb a = some n → secTs (s.get F.MSH_TIMING_NEIGH_TO) ≤ s.ts - n.ts →
    Ends (exec (.neighbourExpiry a) s) fun t =>
      t.nb a = none ∧ (∀ b, b ≠ a → t.nb b = s.nb b) ∧ (∀ d c, t.route d = some c → c.via ≠ a) ∧ t.get (hdrPend 0x1D 0) = 1
      ∧ Keeps s t (onPages [0x1D]) [64] [.msh, .fresh])
  ∧ (∀ (s : State) (a : Nat), s.runs = true → (∀ n, s.nb a = some n → s.ts - n.ts < secTs (s.get F.MSH_TIMING_NEIGH_TO)) →
    Ends (exec (.neighbourExpiry a) s) fun t => Keeps s t (among []) [] [])
  ∧ (∀ (s : State) (d i : Nat) (r : RouteRow) (c : Cand), s.runs = true → s.row d = some (i, r) → r.cands.find? (fun x => x.via == c.via) = some c →
    c.direct = false → secTs (s.get F.MSH_TIMING_ROUTE_TO) ≤ s.ts - c.ts →
    Ends (exec (.routeExpiry d c.via) s) fun t =>
      (∀ x, t.route d = some x → x.via ≠ c.via ∨ ∃ p ∈ s.msh.rows, p.1 ≠ i ∧ p.2.dest = d) ∧ t.msh.neigh = s.msh.neigh ∧ t.get (hdrPend 0x1D 0) = 1
      ∧ Keeps s t (onPages [0x1D]) [64] [.msh, .fresh])
  ∧ (∀ (s : State) (d via : Nat), s.runs = true →
    (∀ p ∈ s.msh.rows, p.2.dest = d → ∀ c ∈ p.2.cands, c.via = via → c.direct = true ∨ s.ts - c.ts < secTs (s.get F.MSH_TIMING_ROUTE_TO)) →
    Ends (exec (.routeExpiry d via) s) fun t => Keeps s t (among []) [] [])
  ∧ (∀ (s : State) (a e : Nat), s.runs = true → (a, e) ∈ s.msh.quar → e ≤ s.ts →
    Ends (exec (.quarantineEnd a) s) fun t =>
      t.quarantined a = false ∧ (∀ b, b ≠ a → t.quarantined b = s.quarantined b) ∧ t.msh.neigh = s.msh.neigh
      ∧ (∀ n c, s.msh.rows = [] → s.nb a = some n → t.linkCost a n = some c → (t.row a).isSome = true) ∧ Keeps s t (onPages [0x1D]) [64] [.msh, .fresh])
  ∧ (∀ (s : State) (a : Nat), s.runs = true → (∀ e, (a, e) ∈ s.msh.quar → s.ts < e) →
    Ends (exec (.quarantineEnd a) s) fun t => Keeps s t (among []) [] [])
  ∧ (∀ (s : State) (m at' : Nat), s.runs = true → s.msh.conflict = some (m, at') →
    Ends (exec .roleConflictClear s) fun t =>
      (secTs (s.get F.MSH_TIMING_NEIGH_TO) ≤ s.ts - at' → t.msh = { s.msh with conflict := none } ∧ t.silenced = false)
      ∧ (s.ts - at' < secTs (s.get F.MSH_TIMING_NEIGH_TO) → t.msh = s.msh) ∧ Keeps s t (among []) [] [.msh])
  ∧ (∀ (s : State), s.runs = true → s.msh.conflict = none → Ends (exec .roleConflictClear s) fun t => Keeps s t (among []) [] [])
  ∧ (∀ (s : State) (req : Req), s.runs = true → s.enabled 0x1D = false → s.mshAddr ≠ 0 → s.incFree = true →
    Ends (exec (.mshEnableWrite req true) s) fun t =>
      t.enabled 0x1D = true ∧ t.msh.inc = (s.msh.inc + 1) % 256 ∧ t.get (hdrSeq 0x1D) = (s.get (hdrSeq 0x1D) + 1) % 2 ^ 32
      ∧ t.get F.MSH_MASTER_ADDR = (if s.mshRole = 2 then s.mshAddr else s.get F.MSH_MASTER_ADDR) ∧ Keeps s t (inPages [0x1D]) [] [.msh])
  ∧ (∀ (s : State) (req : Req), s.runs = true → s.enabled 0x1D = false → (s.mshAddr = 0 ∨ s.incFree = false) →
    Ends (exec (.mshEnableWrite req true) s) fun t => t.enabled 0x1D = false ∧ t.get (hdrErrcode 0x1D) = 0x1E ∧ Keeps s t (errRegs 0x1D) [] [])
  ∧ (∀ (s : State) (req : Req), s.runs = true → s.enabled 0x1D = true →
    Ends (exec (.mshEnableWrite req false) s) fun t =>
      t.enabled 0x1D = false ∧ t.msh = { s.msh with outq := [], cur := none, ack := none, inbox := [], polls := [], cycOn := false }
      ∧ t.get (hdrSeq 0x1D) = (s.get (hdrSeq 0x1D) + 1) % 2 ^ 32 ∧ Keeps s t (inPages [0x1D]) [] [.msh])

/-- RUN checks the list, polls visit its entries in order within the window, a timeout counts a miss, and a cycle ends with its last poll. (R453, R454,
R455) -/
def Obligations.PollingCycles : Prop :=
  let bad (s : State) : Prop :=
    (∃ i j, i < j ∧ j < s.entries ∧ s.pollNum i 0 2 = s.pollNum j 0 2)
    ∨ ∃ i, i < s.entries ∧ (s.pollNum i 0 2 = 0 ∨ 1000 < s.pollNum i 0 2 ∨ s.pollNum i 0 2 = s.mshAddr ∨ 7 < s.pollNum i 3 1)
  let visits (s : State) (i : Nat) : Prop := i < s.entries ∧ s.pollEn i = true ∧ (s.pollNum i 19 1 = 2 → s.msh.cycNum % 8 = 0)
  (∀ (s : State), s.runs = true → s.mshRole ≠ 2 →
    Ends (exec .pollRun s) fun t => t.get (hdrErrcode 0x1D) = 0x1E ∧ Keeps s t (errRegs 0x1D) [] [])
  ∧ (∀ (s : State), s.runs = true → s.mshRole = 2 → bad s →
    Ends (exec .pollRun s) fun t => t.get (hdrErrcode 0x1D) = 0x75 ∧ Keeps s t (errRegs 0x1D) [] [])
  ∧ (∀ (s : State), s.runs = true → s.mshRole = 2 → ¬ bad s → s.on F.MSH_POLL_CTRL_RUN = false →
    Ends (exec .pollRun s) fun t =>
      t.on F.MSH_POLL_CTRL_RUN = true ∧ t.msh.cycOn = true ∧ t.msh.cycIdx = 0 ∧ t.msh.cycStart = s.ts
      ∧ t.get (hdrSeq 0x1D) = (s.get (hdrSeq 0x1D) + 1) % 2 ^ 32 ∧ Keeps s t (inPages [0x1D, 0x1A]) [] [.msh, .lm])
  ∧ (∀ (s : State) (i : Nat), s.runs = true → s.mshRuns = true → s.msh.cycOn = true → s.on F.MSH_POLL_CTRL_RUN = true → s.silenced = false →
    s.msh.polls.length < s.get F.MSH_POLL_CFG_WINDOW → s.msh.cycIdx ≤ i → visits s i → (∀ j, s.msh.cycIdx ≤ j → j < i → ¬ visits s j) →
    Ends (exec .pollSend s) fun t =>
      t.msh.polls = s.msh.polls ++ [⟨s.pollNum i 0 2, i, s.ts, (s.pollNum i 2 1).testBit 1⟩] ∧ t.msh.cycIdx = i + 1
      ∧ (s.msh.cur = none → s.msh.outq = [] → ∃ body, t.msh.cur = some
          { ftype := 6, rx := (s.pollPath i).headD (s.pollNum i 0 2), be := s.get F.MSH_ACCESS_BE_MIN
            net := t.msh.cur.bind MeshTx.net, body := body, pushes := (t.msh.cur.map MeshTx.pushes).getD [] }
          ∧ (∃ fr, body.take 12 = mkSection 4 0 (le 4 s.msh.cycNum ++ le 2 fr ++ le 2 0))
          ∧ ((t.msh.cur.bind MeshTx.net).map fun h => (h.orig, h.dest, h.nseq, h.path)) = some (s.mshAddr, s.pollNum i 0 2, s.msh.nseq, s.pollPath i))
      ∧ Keeps s t (among []) [] [.msh, .fresh, .lm])
  ∧ (∀ (s : State), s.runs = true → s.msh.polls ≠ [] →
    (s.mshRuns = false ∨ s.msh.cycOn = false ∨ s.on F.MSH_POLL_CTRL_RUN = false ∨ s.silenced = true ∨ s.get F.MSH_POLL_CFG_WINDOW ≤ s.msh.polls.length) →
    Ends (exec .pollSend s) fun t => Keeps s t (among []) [] [])
  ∧ (∀ (s : State), s.runs = true → s.msh.cycOn = true → s.msh.polls = [] → (s.on F.MSH_POLL_CTRL_RUN = true → ∀ j, s.msh.cycIdx ≤ j → ¬ visits s j) →
    Ends (exec .pollSend s) fun t =>
      t.get F.MSH_CYCLE_COUNT = (s.get F.MSH_CYCLE_COUNT + 1) % 256 ∧ t.get F.MSH_CYCLE_LAST_MS = (s.ts - s.msh.cycStart) * 1000 / 32768 % 2 ^ 24
      ∧ t.msh = { s.msh with cycIdx := 0, cycNum := s.msh.cycNum + 1, cycStart := s.ts, cycLm := s.ts, cycOn := s.on F.MSH_POLL_CTRL_RUN }
      ∧ ((s.get F.LMG_TIMING_LEASE_S - s.get F.LMG_TIMING_FB_LEAD_S) * 500 < (s.msh.cycLm - s.msh.cycStart) * 1000 / 32768 → t.get (hdrPend 0x1D 3) = 1)
      ∧ Keeps s t (onPages [0x1D, 0x1A]) [64] [.msh, .fresh, .lm])
  ∧ (∀ (s : State) (p : PollOut), s.runs = true → s.msh.polls.find? (fun x => x.dest == p.dest) = some p →
    s.get F.MSH_POLL_CFG_HOP_MS * (s.pollNum p.idx 3 1 + 1) * 32768 ≤ (s.ts - p.ts) * 1000 →
    let m := min 255 (s.pollNum p.idx 18 1 + 1)
    let fixed := (s.pollNum p.idx 2 1).testBit 2
    Ends (exec (.pollTimeout p.dest) s) fun t =>
      (∀ x ∈ t.msh.polls, x.dest ≠ p.dest) ∧ t.pollNum p.idx 18 1 = m
      ∧ (s.get F.MSH_POLL_CFG_MISS_MAX ≤ m → s.pollNum p.idx 19 1 ≠ 2 →
          t.pollNum p.idx 19 1 = 2 ∧ t.get (hdrPend 0x1D 2) = 1 ∧ t.pollPath p.idx = (if fixed then s.pollPath p.idx else []))
      ∧ (m < s.get F.MSH_POLL_CFG_MISS_MAX → t.pollNum p.idx 19 1 = s.pollNum p.idx 19 1 ∧ t.pollPath p.idx = s.pollPath p.idx)
      ∧ (∀ x, (x < pollBase + 32 * p.idx ∨ pollBase + 32 * p.idx + 32 ≤ x) → t.sramByte x = s.sramByte x)
      ∧ Keeps s t (onPages [0x1D, 0x1A]) [64] [.msh, .fresh, .lm, .sram])
  ∧ (∀ (s : State) (d : Nat), s.runs = true →
    (∀ p ∈ s.msh.polls, p.dest = d → (s.ts - p.ts) * 1000 < s.get F.MSH_POLL_CFG_HOP_MS * (s.pollNum p.idx 3 1 + 1) * 32768) →
    Ends (exec (.pollTimeout d) s) fun t => Keeps s t (among []) [] [])

/-- REMOTE_READ and REMOTE_WRITE go out to a version-2 destination with a route, and are refused with 0x001E, 0x0071 or 0x0076 otherwise. (R450, R453,
R457) -/
def Obligations.RemoteCommands : Prop :=
  ∀ p ∈ ([(1, .remoteRead), (2, .remoteWrite)] : List (Nat × Instr)),
  let reply (f : Frame) (c : Nat) (s t : State) : Prop := Queued s t 64 (0x80 + p.1) (some f.seq) c (le 2 c ++ le 2 0) ∧ t.get (hdrErrcode 0x1D) = c
  (∀ (s : State), s.runs = true → (s.mshRuns = false ∨ ∀ f rest, (s.ring 35).frames = f :: rest → f.typ ≠ p.1) →
    Ends (exec p.2 s) fun t => Keeps s t (among []) [] [])
  ∧ (∀ (s : State) (f : Frame) (rest : List Frame), s.runs = true → s.mshRuns = true → (s.ring 35).frames = f :: rest → f.typ = p.1 → s.takes 64 →
    let d := fieldLe f.payload 0 2
    let one := (∃ n, s.nb d = some n ∧ n.chosen = 1) ∨ s.get F.MSH_CFG_VMAX = 1
    let sec := mkSection 5 0 (le 4 p.1 ++ f.payload)
    let short := f.payload.length < 16 ∨ s.mshRole ≠ 2
    Ends (exec p.2 s) fun t =>
      (t.ring 35).frames = rest
      ∧ (short → reply f 0x1E s t ∧ t.msh = s.msh ∧ Keeps s t (errRegs 0x1D) [35, 64] [])
      ∧ (¬ short → s.hopTo d = none → reply f 0x71 s t ∧ t.get F.MSH_FAIL_CNT_NOROUTE = satInc 65535 (s.get F.MSH_FAIL_CNT_NOROUTE) ∧ t.msh = s.msh)
      ∧ (¬ short → s.hopTo d ≠ none → one → reply f 0x76 s t ∧ t.msh = s.msh)
      ∧ (∀ path rx, ¬ short → s.hopTo d = some (path, rx) → ¬ one →
          (d, fieldLe f.payload 2 2, f.seq, p.1) ∈ t.msh.remotes.map (fun r => (r.dest, r.rseq, r.ref, r.typ)) ∧ t.ring 64 = s.ring 64
          ∧ (s.waitsPoll d = true → t.msh.secs = s.msh.secs ++ [⟨d, 0, sec, none⟩])
          ∧ (s.waitsPoll d = false → d ≠ 0xFFFF → s.msh.cur = none → s.msh.outq = [] → t.msh.cur = some
              { ftype := 5, rx := rx, net := some { orig := s.mshAddr, dest := d, nseq := s.msh.nseq, path := path }, body := sec
                be := s.get F.MSH_ACCESS_BE_MIN }))
      ∧ Keeps s t (fun a => a = F.MSH_FAIL_CNT_NOROUTE.addr ∨ errRegs 0x1D a) [35, 64] [.msh])
end

