-- ==== Sys2Proof/Laws/Bits.lean ====
section
/-! SUPPORT. What writing a bit field does to the word's fields. -/
namespace Sys2Proof.Machine

theorem getBits_lt (w : W32) (lsb wid : Nat) : getBits w lsb wid < 2 ^ wid := Nat.mod_lt _ (Nat.two_pow_pos wid)

/-- A word split at a field: what lies above, the field, what lies below. -/
theorem word_split (n lsb wid : Nat) :
    n = (n / 2 ^ (lsb + wid) * 2 ^ wid + n / 2 ^ lsb % 2 ^ wid) * 2 ^ lsb + n % 2 ^ lsb := by
  have h1 := Nat.div_add_mod n (2 ^ lsb)
  have h2 := Nat.div_add_mod (n / 2 ^ lsb) (2 ^ wid)
  rw [Nat.div_div_eq_div_mul, ← Nat.pow_add] at h2
  rw [Nat.mul_comm (n / _), h2, Nat.mul_comm (n / 2 ^ lsb)]
  exact h1.symm

/-- The number `putBits` gives, split the same way. -/
theorem putBits_toNat (w : W32) (lsb wid v : Nat) (h : lsb + wid ≤ 32) :
    (putBits w lsb wid v).toNat = (w.toNat / 2 ^ (lsb + wid) * 2 ^ wid + v % 2 ^ wid) * 2 ^ lsb + w.toNat % 2 ^ lsb := by
  have hw : w.toNat < 2 ^ 32 := w.isLt
  have hs := word_split w.toNat lsb wid
  have hq : w.toNat / 2 ^ (lsb + wid) < 2 ^ (32 - (lsb + wid)) := by
    rw [Nat.div_lt_iff_lt_mul (Nat.two_pow_pos _), ← Nat.pow_add]; simpa [Nat.sub_add_cancel h] using hw
  have hv : v % 2 ^ wid < 2 ^ wid := Nat.mod_lt _ (Nat.two_pow_pos wid)
  have hlo : w.toNat % 2 ^ lsb < 2 ^ lsb := Nat.mod_lt _ (Nat.two_pow_pos lsb)
  have h32 : 2 ^ 32 = 2 ^ (32 - (lsb + wid)) * 2 ^ wid * 2 ^ lsb := by
    rw [← Nat.pow_add, ← Nat.pow_add]; congr 1; omega
  simp only [putBits, BitVec.toNat_ofNat, getBits, Nat.shiftRight_eq_div_pow]
  generalize w.toNat / 2 ^ (lsb + wid) = q at *
  generalize w.toNat / 2 ^ lsb % 2 ^ wid = m at *
  generalize w.toNat % 2 ^ lsb = r at *
  generalize v % 2 ^ wid = u at *
  have e : w.toNat - m * 2 ^ lsb + u * 2 ^ lsb = (q * 2 ^ wid + u) * 2 ^ lsb + r := by
    rw [Nat.add_mul] at hs ⊢; omega
  rw [e, Nat.mod_eq_of_lt]
  rw [h32]
  have h1 : q * 2 ^ wid + u + 1 ≤ 2 ^ (32 - (lsb + wid)) * 2 ^ wid := by
    have := Nat.mul_le_mul_right (2 ^ wid) (Nat.succ_le_of_lt hq)
    rw [Nat.succ_mul] at this; omega
  have h2 := Nat.mul_le_mul_right (2 ^ lsb) h1
  rw [Nat.add_mul, Nat.one_mul] at h2
  omega

/-- A field that lies within its word reads back what was written, modulo its width. -/
theorem getBits_putBits (w : W32) (lsb wid v : Nat) (h : lsb + wid ≤ 32) : getBits (putBits w lsb wid v) lsb wid = v % 2 ^ wid := by
  have hlo : w.toNat % 2 ^ lsb < 2 ^ lsb := Nat.mod_lt _ (Nat.two_pow_pos lsb)
  rw [getBits, putBits_toNat w lsb wid v h, Nat.shiftRight_eq_div_pow, Nat.mul_comm _ (2 ^ lsb), Nat.mul_add_div (Nat.two_pow_pos lsb),
    Nat.div_eq_of_lt hlo, Nat.add_zero, Nat.mul_comm _ (2 ^ wid), Nat.mul_add_mod, Nat.mod_mod]

/-- A field apart from the one written reads as before. -/
theorem getBits_putBits_apart (w : W32) (lsb wid v l k : Nat) (h : lsb + wid ≤ 32) (ha : lsb + wid ≤ l ∨ l + k ≤ lsb) :
    getBits (putBits w lsb wid v) l k = getBits w l k := by
  simp only [getBits, Nat.shiftRight_eq_div_pow]
  have hs := word_split w.toNat lsb wid
  rw [putBits_toNat w lsb wid v h]
  have hlo : w.toNat % 2 ^ lsb < 2 ^ lsb := Nat.mod_lt _ (Nat.two_pow_pos lsb)
  have hp : ∀ u, u < 2 ^ wid → ((w.toNat / 2 ^ (lsb + wid) * 2 ^ wid + u) * 2 ^ lsb + w.toNat % 2 ^ lsb) / 2 ^ (lsb + wid)
      = w.toNat / 2 ^ (lsb + wid) := by
    intro u hu
    rw [Nat.pow_add, ← Nat.div_div_eq_div_mul, Nat.mul_comm _ (2 ^ lsb), Nat.mul_add_div (Nat.two_pow_pos lsb), Nat.div_eq_of_lt hlo,
      Nat.add_zero, Nat.mul_comm _ (2 ^ wid), Nat.mul_add_div (Nat.two_pow_pos wid), Nat.div_eq_of_lt hu, Nat.add_zero]
  rcases ha with ha | ha
  · obtain ⟨e, rfl⟩ := Nat.exists_eq_add_of_le ha
    rw [Nat.pow_add 2 (lsb + wid) e, ← Nat.div_div_eq_div_mul, ← Nat.div_div_eq_div_mul,
      hp _ (Nat.mod_lt _ (Nat.two_pow_pos wid))]
  · obtain ⟨e, rfl⟩ := Nat.exists_eq_add_of_le ha
    have key : ∀ x y, (x * 2 ^ (l + k + e) + y) / 2 ^ l % 2 ^ k = y / 2 ^ l % 2 ^ k := by
      intro x y
      rw [show x * 2 ^ (l + k + e) + y = 2 ^ l * (2 ^ k * (2 ^ e * x)) + y by rw [Nat.pow_add, Nat.pow_add]; ring,
        Nat.mul_add_div (Nat.two_pow_pos l), Nat.mul_add_mod]
    rw [key]
    conv_rhs => rw [hs, key]

-- Little-endian bytes (R14)

@[simp] theorem le_length (n v : Nat) : (le n v).length = n := by induction n generalizing v <;> simp_all [le]

theorem ofLe_le (n v : Nat) : ofLe (le n v) = v % 256 ^ n := by
  induction n generalizing v with
  | zero => simp [le, ofLe, Nat.mod_one]
  | succ n ih =>
    have h : v % (256 * 256 ^ n) = v % 256 + 256 * (v / 256 % 256 ^ n) := Nat.mod_mul
    have hb : (BitVec.ofNat 8 v).toNat = v % 256 := BitVec.toNat_ofNat v 8
    rw [le, ofLe, ih, hb, Nat.pow_succ', h]

/-- A field of a frame or payload that stands behind `a` and before `c`. -/
theorem fieldLe_append (a c : List Byte) (n v i : Nat) (h : a.length = i) : fieldLe (a ++ (le n v ++ c)) i n = v % 256 ^ n := by
  subst h
  have : (le n v ++ c).take n = le n v := by rw [List.take_append_of_le_length (by simp)]; simp [List.take_of_length_le]
  simp only [fieldLe, List.drop_left, this, ofLe_le]

end Sys2Proof.Machine
end

