-- ==== Sys2Proof/Laws/Sparse.lean ====
section
/-! SUPPORT. The laws of the sparse memories: a read after a write, and the canonical form kept by every operation. -/
namespace Sys2Proof.Machine

section
variable {β : Type}

theorem spRead_spErase (d : Nat → β) (l : List (Nat × β)) (a b : Nat) :
    spRead d (spErase l a) b = if b = a then d a else spRead d l b := by
  induction l with
  | nil => simp only [spErase, spRead]; split <;> simp_all
  | cons p l ih =>
    obtain ⟨x, w⟩ := p
    simp only [spErase]
    by_cases hax : a = x <;> by_cases hbx : b = x <;> by_cases hba : b = a <;> simp_all [spRead]

/-- A read after a write: the written address gives the content, every other its content before. -/
theorem spRead_spWrite [DecidableEq β] (d : Nat → β) (l : List (Nat × β)) (a b : Nat) (v : β) :
    spRead d (spWrite d l a v) b = if b = a then v else spRead d l b := by
  induction l with
  | nil =>
    simp only [spWrite]
    by_cases h : v = d a <;> by_cases hb : b = a <;> simp_all [spRead]
  | cons p l ih =>
    obtain ⟨x, w⟩ := p
    grind [spWrite, spRead, spRead_spErase]

@[simp] theorem spRead_spWrite_same [DecidableEq β] (d : Nat → β) (l : List (Nat × β)) (a : Nat) (v : β) :
    spRead d (spWrite d l a v) a = v := by simp [spRead_spWrite]

theorem spRead_spWrite_other [DecidableEq β] (d : Nat → β) (l : List (Nat × β)) (a b : Nat) (v : β) (h : b ≠ a) :
    spRead d (spWrite d l a v) b = spRead d l b := by simp [spRead_spWrite, h]

@[simp] theorem spRead_nil (d : Nat → β) (a : Nat) : spRead d [] a = d a := rfl

-- The canonical form

theorem spAbove_spErase (l : List (Nat × β)) (a b : Nat) (h : spAbove b l = true) : spAbove b (spErase l a) = true := by
  induction l with
  | nil => rfl
  | cons p l ih =>
    obtain ⟨x, w⟩ := p
    simp only [spAbove, List.all_cons, Bool.and_eq_true] at h
    simp only [spErase]
    split
    · exact ih h.2
    · simp only [spAbove, List.all_cons, Bool.and_eq_true]; exact ⟨h.1, ih h.2⟩

theorem spAbove_spWrite [DecidableEq β] (d : Nat → β) (l : List (Nat × β)) (a b : Nat) (v : β) (hb : b < a) (h : spAbove b l = true) :
    spAbove b (spWrite d l a v) = true := by
  induction l with
  | nil => simp only [spWrite]; split <;> simp [spAbove, hb]
  | cons p l ih =>
    obtain ⟨x, w⟩ := p
    simp only [spAbove, List.all_cons, Bool.and_eq_true] at h
    have he : spAbove b (spErase l a) = true := spAbove_spErase l a b h.2
    have hi := ih h.2
    simp only [spAbove] at he hi
    simp only [spWrite]
    split
    · split <;> simp only [spAbove, List.all_cons, Bool.and_eq_true]
      · exact ⟨h.1, he⟩
      · exact ⟨by simpa using hb, h.1, he⟩
    · split
      · split
        · exact he
        · simp only [spAbove, List.all_cons, Bool.and_eq_true]; exact ⟨by simpa using hb, he⟩
      · simp only [spAbove, List.all_cons, Bool.and_eq_true]; exact ⟨h.1, hi⟩

theorem spAbove_weaken (l : List (Nat × β)) (a b : Nat) (hb : a ≤ b) (h : spAbove b l = true) : spAbove a l = true := by
  simp only [spAbove, List.all_eq_true, decide_eq_true_eq] at *
  intro p hp; have := h p hp; omega

theorem spWf_spErase [DecidableEq β] (d : Nat → β) (l : List (Nat × β)) (a : Nat) (h : spWf d l = true) :
    spWf d (spErase l a) = true := by
  induction l with
  | nil => rfl
  | cons p l ih =>
    obtain ⟨x, w⟩ := p
    simp only [spWf, Bool.and_eq_true] at h
    simp only [spErase]
    split
    · exact ih h.2
    · simp only [spWf, Bool.and_eq_true]
      exact ⟨⟨h.1.1, spAbove_spErase l a x h.1.2⟩, ih h.2⟩

/-- A write keeps the canonical form. -/
theorem spWf_spWrite [DecidableEq β] (d : Nat → β) (l : List (Nat × β)) (a : Nat) (v : β) (h : spWf d l = true) :
    spWf d (spWrite d l a v) = true := by
  induction l with
  | nil =>
    simp only [spWrite]
    split
    · rfl
    · simp_all [spWf, spAbove]
  | cons p l ih =>
    obtain ⟨x, w⟩ := p
    simp only [spWf, Bool.and_eq_true] at h
    have he := spWf_spErase d l a h.2
    simp only [spWrite]
    split
    · rename_i hlt
      have hx := spAbove_spErase l a x h.1.2
      split <;> simp only [spWf, Bool.and_eq_true]
      · exact ⟨⟨h.1.1, hx⟩, he⟩
      · rename_i hv
        refine ⟨⟨by simpa using hv, ?_⟩, ⟨h.1.1, hx⟩, he⟩
        have hw := spAbove_weaken _ a x (by omega) hx
        simp only [spAbove] at hw
        simp only [spAbove, List.all_cons, Bool.and_eq_true]
        exact ⟨by simpa using hlt, hw⟩
    · split
      · rename_i hlt hax
        split
        · exact he
        · rename_i hv
          simp only [spWf, Bool.and_eq_true]
          exact ⟨⟨by simpa using hv, by rw [hax]; exact spAbove_spErase l x x h.1.2⟩, he⟩
      · rename_i hlt hax
        simp only [spWf, Bool.and_eq_true]
        exact ⟨⟨h.1.1, spAbove_spWrite d l a x v (by omega) h.1.2⟩, ih h.2⟩

/-- Writing consecutive contents keeps the canonical form. -/
theorem spWf_spWrites [DecidableEq β] (d : Nat → β) (vs : List β) : ∀ (l : List (Nat × β)) (a : Nat),
    spWf d l = true → spWf d (spWrites d l a vs) = true := by
  induction vs with
  | nil => intro l a h; exact h
  | cons v vs ih => intro l a h; exact ih _ _ (spWf_spWrite d l a v h)

/-- Consecutive writes: an address inside takes its content, one outside keeps what it had. -/
theorem spRead_spWrites [DecidableEq β] (d : Nat → β) (vs : List β) : ∀ (l : List (Nat × β)) (a b : Nat),
    spRead d (spWrites d l a vs) b = if h : a ≤ b ∧ b - a < vs.length then vs[b - a]'h.2 else spRead d l b := by
  induction vs with
  | nil => intro l a b; simp [spWrites]
  | cons v vs ih =>
    intro l a b
    simp only [spWrites, ih, spRead_spWrite, List.length_cons]
    by_cases h1 : a + 1 ≤ b ∧ b - (a + 1) < vs.length
    · have h2 : a ≤ b ∧ b - a < vs.length + 1 := by omega
      rw [dif_pos h1, dif_pos h2]
      have : b - a = b - (a + 1) + 1 := by omega
      simp [this]
    · rw [dif_neg h1]
      by_cases hb : b = a
      · subst hb; simp
      · have h2 : ¬(a ≤ b ∧ b - a < vs.length + 1) := by omega
        rw [dif_neg h2, if_neg hb]

end

end Sys2Proof.Machine
end

