-- ==== Sys2Proof/Laws/State.lean ====
section
/-! SUPPORT. What each update of State leaves of it, one lemma per field and update, so that no later proof unfolds a record
update; reads after writes; and what judging IRQ_N does. -/
namespace Sys2Proof.Machine

-- setReg
@[simp] theorem State.setReg_rings (s : State) (a : Nat) (w : W32) : (s.setReg a w).rings = s.rings := rfl
@[simp] theorem State.setReg_sram (s : State) (a : Nat) (w : W32) : (s.setReg a w).sram = s.sram := rfl
@[simp] theorem State.setReg_dsram (s : State) (a : Nat) (w : W32) : (s.setReg a w).dsram = s.dsram := rfl
@[simp] theorem State.setReg_irqLow (s : State) (a : Nat) (w : W32) : (s.setReg a w).irqLow = s.irqLow := rfl
@[simp] theorem State.setReg_irqPulse (s : State) (a : Nat) (w : W32) : (s.setReg a w).irqPulse = s.irqPulse := rfl
@[simp] theorem State.setReg_irqSeen (s : State) (a : Nat) (w : W32) : (s.setReg a w).irqSeen = s.irqSeen := rfl
@[simp] theorem State.setReg_resp (s : State) (a : Nat) (w : W32) : (s.setReg a w).resp = s.resp := rfl
@[simp] theorem State.setReg_linkUp (s : State) (a : Nat) (w : W32) : (s.setReg a w).linkUp = s.linkUp := rfl
@[simp] theorem State.setReg_epoch (s : State) (a : Nat) (w : W32) : (s.setReg a w).epoch = s.epoch := rfl
@[simp] theorem State.setReg_ts (s : State) (a : Nat) (w : W32) : (s.setReg a w).ts = s.ts := rfl
@[simp] theorem State.setReg_trimPhase (s : State) (a : Nat) (w : W32) : (s.setReg a w).trimPhase = s.trimPhase := rfl
@[simp] theorem State.setReg_readShadow (s : State) (a : Nat) (w : W32) : (s.setReg a w).readShadow = s.readShadow := rfl
@[simp] theorem State.setReg_writeShadow (s : State) (a : Nat) (w : W32) : (s.setReg a w).writeShadow = s.writeShadow := rfl
@[simp] theorem State.setReg_held (s : State) (a : Nat) (w : W32) : (s.setReg a w).held = s.held := rfl
@[simp] theorem State.setReg_sealEn (s : State) (a : Nat) (w : W32) : (s.setReg a w).sealEn = s.sealEn := rfl
@[simp] theorem State.setReg_fresh (s : State) (a : Nat) (w : W32) : (s.setReg a w).fresh = s.fresh := rfl
@[simp] theorem State.setReg_ms (s : State) (a : Nat) (w : W32) : (s.setReg a w).ms = s.ms := rfl
@[simp] theorem State.setReg_cal (s : State) (a : Nat) (w : W32) : (s.setReg a w).cal = s.cal := rfl
@[simp] theorem State.setReg_legal (s : State) (a : Nat) (w : W32) : (s.setReg a w).legal = s.legal := rfl
@[simp] theorem State.setReg_mt (s : State) (a : Nat) (w : W32) : (s.setReg a w).mt = s.mt := rfl
@[simp] theorem State.setReg_pf (s : State) (a : Nat) (w : W32) : (s.setReg a w).pf = s.pf := rfl
@[simp] theorem State.setReg_nv (s : State) (a : Nat) (w : W32) : (s.setReg a w).nv = s.nv := rfl
@[simp] theorem State.setReg_outlets (s : State) (a : Nat) (w : W32) : (s.setReg a w).outlets = s.outlets := rfl
@[simp] theorem State.setReg_rcm (s : State) (a : Nat) (w : W32) : (s.setReg a w).rcm = s.rcm := rfl
@[simp] theorem State.setReg_se (s : State) (a : Nat) (w : W32) : (s.setReg a w).se = s.se := rfl
@[simp] theorem State.setReg_sl (s : State) (a : Nat) (w : W32) : (s.setReg a w).sl = s.sl := rfl
@[simp] theorem State.setReg_tam (s : State) (a : Nat) (w : W32) : (s.setReg a w).tam = s.tam := rfl
@[simp] theorem State.setReg_pq (s : State) (a : Nat) (w : W32) : (s.setReg a w).pq = s.pq := rfl
@[simp] theorem State.setReg_lm (s : State) (a : Nat) (w : W32) : (s.setReg a w).lm = s.lm := rfl
@[simp] theorem State.setReg_boot (s : State) (a : Nat) (w : W32) : (s.setReg a w).boot = s.boot := rfl
@[simp] theorem State.setReg_lcd (s : State) (a : Nat) (w : W32) : (s.setReg a w).lcd = s.lcd := rfl
@[simp] theorem State.setReg_plc (s : State) (a : Nat) (w : W32) : (s.setReg a w).plc = s.plc := rfl
@[simp] theorem State.setReg_msh (s : State) (a : Nat) (w : W32) : (s.setReg a w).msh = s.msh := rfl
@[simp] theorem State.setReg_dma (s : State) (a : Nat) (w : W32) : (s.setReg a w).dma = s.dma := rfl
@[simp] theorem State.setReg_pending (s : State) (a : Nat) (w : W32) : (s.setReg a w).pending = s.pending := rfl
@[simp] theorem State.setReg_ring (s : State) (a : Nat) (w : W32) (e : Nat) : (s.setReg a w).ring e = s.ring e := rfl
@[simp] theorem State.setReg_sramByte (s : State) (a : Nat) (w : W32) (b : Nat) : (s.setReg a w).sramByte b = s.sramByte b := rfl
@[simp] theorem State.setReg_outlet (s : State) (a : Nat) (w : W32) (j : Nat) : (s.setReg a w).outlet j = s.outlet j := rfl
@[simp] theorem State.setReg_rc (s : State) (a : Nat) (w : W32) (j : Nat) : (s.setReg a w).rc j = s.rc j := rfl
@[simp] theorem State.setReg_free (s : State) (a : Nat) (w : W32) : (s.setReg a w).free = s.free := rfl

-- put
@[simp] theorem State.put_rings (s : State) (f : Fld) (v : Nat) : (s.put f v).rings = s.rings := rfl
@[simp] theorem State.put_sram (s : State) (f : Fld) (v : Nat) : (s.put f v).sram = s.sram := rfl
@[simp] theorem State.put_dsram (s : State) (f : Fld) (v : Nat) : (s.put f v).dsram = s.dsram := rfl
@[simp] theorem State.put_irqLow (s : State) (f : Fld) (v : Nat) : (s.put f v).irqLow = s.irqLow := rfl
@[simp] theorem State.put_irqPulse (s : State) (f : Fld) (v : Nat) : (s.put f v).irqPulse = s.irqPulse := rfl
@[simp] theorem State.put_irqSeen (s : State) (f : Fld) (v : Nat) : (s.put f v).irqSeen = s.irqSeen := rfl
@[simp] theorem State.put_resp (s : State) (f : Fld) (v : Nat) : (s.put f v).resp = s.resp := rfl
@[simp] theorem State.put_linkUp (s : State) (f : Fld) (v : Nat) : (s.put f v).linkUp = s.linkUp := rfl
@[simp] theorem State.put_epoch (s : State) (f : Fld) (v : Nat) : (s.put f v).epoch = s.epoch := rfl
@[simp] theorem State.put_ts (s : State) (f : Fld) (v : Nat) : (s.put f v).ts = s.ts := rfl
@[simp] theorem State.put_trimPhase (s : State) (f : Fld) (v : Nat) : (s.put f v).trimPhase = s.trimPhase := rfl
@[simp] theorem State.put_readShadow (s : State) (f : Fld) (v : Nat) : (s.put f v).readShadow = s.readShadow := rfl
@[simp] theorem State.put_writeShadow (s : State) (f : Fld) (v : Nat) : (s.put f v).writeShadow = s.writeShadow := rfl
@[simp] theorem State.put_held (s : State) (f : Fld) (v : Nat) : (s.put f v).held = s.held := rfl
@[simp] theorem State.put_sealEn (s : State) (f : Fld) (v : Nat) : (s.put f v).sealEn = s.sealEn := rfl
@[simp] theorem State.put_fresh (s : State) (f : Fld) (v : Nat) : (s.put f v).fresh = s.fresh := rfl
@[simp] theorem State.put_ms (s : State) (f : Fld) (v : Nat) : (s.put f v).ms = s.ms := rfl
@[simp] theorem State.put_cal (s : State) (f : Fld) (v : Nat) : (s.put f v).cal = s.cal := rfl
@[simp] theorem State.put_legal (s : State) (f : Fld) (v : Nat) : (s.put f v).legal = s.legal := rfl
@[simp] theorem State.put_mt (s : State) (f : Fld) (v : Nat) : (s.put f v).mt = s.mt := rfl
@[simp] theorem State.put_pf (s : State) (f : Fld) (v : Nat) : (s.put f v).pf = s.pf := rfl
@[simp] theorem State.put_nv (s : State) (f : Fld) (v : Nat) : (s.put f v).nv = s.nv := rfl
@[simp] theorem State.put_outlets (s : State) (f : Fld) (v : Nat) : (s.put f v).outlets = s.outlets := rfl
@[simp] theorem State.put_rcm (s : State) (f : Fld) (v : Nat) : (s.put f v).rcm = s.rcm := rfl
@[simp] theorem State.put_se (s : State) (f : Fld) (v : Nat) : (s.put f v).se = s.se := rfl
@[simp] theorem State.put_sl (s : State) (f : Fld) (v : Nat) : (s.put f v).sl = s.sl := rfl
@[simp] theorem State.put_tam (s : State) (f : Fld) (v : Nat) : (s.put f v).tam = s.tam := rfl
@[simp] theorem State.put_pq (s : State) (f : Fld) (v : Nat) : (s.put f v).pq = s.pq := rfl
@[simp] theorem State.put_lm (s : State) (f : Fld) (v : Nat) : (s.put f v).lm = s.lm := rfl
@[simp] theorem State.put_boot (s : State) (f : Fld) (v : Nat) : (s.put f v).boot = s.boot := rfl
@[simp] theorem State.put_lcd (s : State) (f : Fld) (v : Nat) : (s.put f v).lcd = s.lcd := rfl
@[simp] theorem State.put_plc (s : State) (f : Fld) (v : Nat) : (s.put f v).plc = s.plc := rfl
@[simp] theorem State.put_msh (s : State) (f : Fld) (v : Nat) : (s.put f v).msh = s.msh := rfl
@[simp] theorem State.put_dma (s : State) (f : Fld) (v : Nat) : (s.put f v).dma = s.dma := rfl
@[simp] theorem State.put_pending (s : State) (f : Fld) (v : Nat) : (s.put f v).pending = s.pending := rfl
@[simp] theorem State.put_ring (s : State) (f : Fld) (v : Nat) (e : Nat) : (s.put f v).ring e = s.ring e := rfl
@[simp] theorem State.put_sramByte (s : State) (f : Fld) (v : Nat) (b : Nat) : (s.put f v).sramByte b = s.sramByte b := rfl
@[simp] theorem State.put_outlet (s : State) (f : Fld) (v : Nat) (j : Nat) : (s.put f v).outlet j = s.outlet j := rfl
@[simp] theorem State.put_rc (s : State) (f : Fld) (v : Nat) (j : Nat) : (s.put f v).rc j = s.rc j := rfl
@[simp] theorem State.put_free (s : State) (f : Fld) (v : Nat) : (s.put f v).free = s.free := rfl

-- putInt
@[simp] theorem State.putInt_rings (s : State) (f : Fld) (v : Int) : (s.putInt f v).rings = s.rings := rfl
@[simp] theorem State.putInt_sram (s : State) (f : Fld) (v : Int) : (s.putInt f v).sram = s.sram := rfl
@[simp] theorem State.putInt_dsram (s : State) (f : Fld) (v : Int) : (s.putInt f v).dsram = s.dsram := rfl
@[simp] theorem State.putInt_irqLow (s : State) (f : Fld) (v : Int) : (s.putInt f v).irqLow = s.irqLow := rfl
@[simp] theorem State.putInt_irqPulse (s : State) (f : Fld) (v : Int) : (s.putInt f v).irqPulse = s.irqPulse := rfl
@[simp] theorem State.putInt_irqSeen (s : State) (f : Fld) (v : Int) : (s.putInt f v).irqSeen = s.irqSeen := rfl
@[simp] theorem State.putInt_resp (s : State) (f : Fld) (v : Int) : (s.putInt f v).resp = s.resp := rfl
@[simp] theorem State.putInt_linkUp (s : State) (f : Fld) (v : Int) : (s.putInt f v).linkUp = s.linkUp := rfl
@[simp] theorem State.putInt_epoch (s : State) (f : Fld) (v : Int) : (s.putInt f v).epoch = s.epoch := rfl
@[simp] theorem State.putInt_ts (s : State) (f : Fld) (v : Int) : (s.putInt f v).ts = s.ts := rfl
@[simp] theorem State.putInt_trimPhase (s : State) (f : Fld) (v : Int) : (s.putInt f v).trimPhase = s.trimPhase := rfl
@[simp] theorem State.putInt_readShadow (s : State) (f : Fld) (v : Int) : (s.putInt f v).readShadow = s.readShadow := rfl
@[simp] theorem State.putInt_writeShadow (s : State) (f : Fld) (v : Int) : (s.putInt f v).writeShadow = s.writeShadow := rfl
@[simp] theorem State.putInt_held (s : State) (f : Fld) (v : Int) : (s.putInt f v).held = s.held := rfl
@[simp] theorem State.putInt_sealEn (s : State) (f : Fld) (v : Int) : (s.putInt f v).sealEn = s.sealEn := rfl
@[simp] theorem State.putInt_fresh (s : State) (f : Fld) (v : Int) : (s.putInt f v).fresh = s.fresh := rfl
@[simp] theorem State.putInt_ms (s : State) (f : Fld) (v : Int) : (s.putInt f v).ms = s.ms := rfl
@[simp] theorem State.putInt_cal (s : State) (f : Fld) (v : Int) : (s.putInt f v).cal = s.cal := rfl
@[simp] theorem State.putInt_legal (s : State) (f : Fld) (v : Int) : (s.putInt f v).legal = s.legal := rfl
@[simp] theorem State.putInt_mt (s : State) (f : Fld) (v : Int) : (s.putInt f v).mt = s.mt := rfl
@[simp] theorem State.putInt_pf (s : State) (f : Fld) (v : Int) : (s.putInt f v).pf = s.pf := rfl
@[simp] theorem State.putInt_nv (s : State) (f : Fld) (v : Int) : (s.putInt f v).nv = s.nv := rfl
@[simp] theorem State.putInt_outlets (s : State) (f : Fld) (v : Int) : (s.putInt f v).outlets = s.outlets := rfl
@[simp] theorem State.putInt_rcm (s : State) (f : Fld) (v : Int) : (s.putInt f v).rcm = s.rcm := rfl
@[simp] theorem State.putInt_se (s : State) (f : Fld) (v : Int) : (s.putInt f v).se = s.se := rfl
@[simp] theorem State.putInt_sl (s : State) (f : Fld) (v : Int) : (s.putInt f v).sl = s.sl := rfl
@[simp] theorem State.putInt_tam (s : State) (f : Fld) (v : Int) : (s.putInt f v).tam = s.tam := rfl
@[simp] theorem State.putInt_pq (s : State) (f : Fld) (v : Int) : (s.putInt f v).pq = s.pq := rfl
@[simp] theorem State.putInt_lm (s : State) (f : Fld) (v : Int) : (s.putInt f v).lm = s.lm := rfl
@[simp] theorem State.putInt_boot (s : State) (f : Fld) (v : Int) : (s.putInt f v).boot = s.boot := rfl
@[simp] theorem State.putInt_lcd (s : State) (f : Fld) (v : Int) : (s.putInt f v).lcd = s.lcd := rfl
@[simp] theorem State.putInt_plc (s : State) (f : Fld) (v : Int) : (s.putInt f v).plc = s.plc := rfl
@[simp] theorem State.putInt_msh (s : State) (f : Fld) (v : Int) : (s.putInt f v).msh = s.msh := rfl
@[simp] theorem State.putInt_dma (s : State) (f : Fld) (v : Int) : (s.putInt f v).dma = s.dma := rfl
@[simp] theorem State.putInt_pending (s : State) (f : Fld) (v : Int) : (s.putInt f v).pending = s.pending := rfl
@[simp] theorem State.putInt_ring (s : State) (f : Fld) (v : Int) (e : Nat) : (s.putInt f v).ring e = s.ring e := rfl
@[simp] theorem State.putInt_sramByte (s : State) (f : Fld) (v : Int) (b : Nat) : (s.putInt f v).sramByte b = s.sramByte b := rfl
@[simp] theorem State.putInt_outlet (s : State) (f : Fld) (v : Int) (j : Nat) : (s.putInt f v).outlet j = s.outlet j := rfl
@[simp] theorem State.putInt_rc (s : State) (f : Fld) (v : Int) (j : Nat) : (s.putInt f v).rc j = s.rc j := rfl
@[simp] theorem State.putInt_free (s : State) (f : Fld) (v : Int) : (s.putInt f v).free = s.free := rfl

-- inc
@[simp] theorem State.inc_rings (s : State) (f : Fld) : (s.inc f).rings = s.rings := rfl
@[simp] theorem State.inc_sram (s : State) (f : Fld) : (s.inc f).sram = s.sram := rfl
@[simp] theorem State.inc_dsram (s : State) (f : Fld) : (s.inc f).dsram = s.dsram := rfl
@[simp] theorem State.inc_irqLow (s : State) (f : Fld) : (s.inc f).irqLow = s.irqLow := rfl
@[simp] theorem State.inc_irqPulse (s : State) (f : Fld) : (s.inc f).irqPulse = s.irqPulse := rfl
@[simp] theorem State.inc_irqSeen (s : State) (f : Fld) : (s.inc f).irqSeen = s.irqSeen := rfl
@[simp] theorem State.inc_resp (s : State) (f : Fld) : (s.inc f).resp = s.resp := rfl
@[simp] theorem State.inc_linkUp (s : State) (f : Fld) : (s.inc f).linkUp = s.linkUp := rfl
@[simp] theorem State.inc_epoch (s : State) (f : Fld) : (s.inc f).epoch = s.epoch := rfl
@[simp] theorem State.inc_ts (s : State) (f : Fld) : (s.inc f).ts = s.ts := rfl
@[simp] theorem State.inc_trimPhase (s : State) (f : Fld) : (s.inc f).trimPhase = s.trimPhase := rfl
@[simp] theorem State.inc_readShadow (s : State) (f : Fld) : (s.inc f).readShadow = s.readShadow := rfl
@[simp] theorem State.inc_writeShadow (s : State) (f : Fld) : (s.inc f).writeShadow = s.writeShadow := rfl
@[simp] theorem State.inc_held (s : State) (f : Fld) : (s.inc f).held = s.held := rfl
@[simp] theorem State.inc_sealEn (s : State) (f : Fld) : (s.inc f).sealEn = s.sealEn := rfl
@[simp] theorem State.inc_fresh (s : State) (f : Fld) : (s.inc f).fresh = s.fresh := rfl
@[simp] theorem State.inc_ms (s : State) (f : Fld) : (s.inc f).ms = s.ms := rfl
@[simp] theorem State.inc_cal (s : State) (f : Fld) : (s.inc f).cal = s.cal := rfl
@[simp] theorem State.inc_legal (s : State) (f : Fld) : (s.inc f).legal = s.legal := rfl
@[simp] theorem State.inc_mt (s : State) (f : Fld) : (s.inc f).mt = s.mt := rfl
@[simp] theorem State.inc_pf (s : State) (f : Fld) : (s.inc f).pf = s.pf := rfl
@[simp] theorem State.inc_nv (s : State) (f : Fld) : (s.inc f).nv = s.nv := rfl
@[simp] theorem State.inc_outlets (s : State) (f : Fld) : (s.inc f).outlets = s.outlets := rfl
@[simp] theorem State.inc_rcm (s : State) (f : Fld) : (s.inc f).rcm = s.rcm := rfl
@[simp] theorem State.inc_se (s : State) (f : Fld) : (s.inc f).se = s.se := rfl
@[simp] theorem State.inc_sl (s : State) (f : Fld) : (s.inc f).sl = s.sl := rfl
@[simp] theorem State.inc_tam (s : State) (f : Fld) : (s.inc f).tam = s.tam := rfl
@[simp] theorem State.inc_pq (s : State) (f : Fld) : (s.inc f).pq = s.pq := rfl
@[simp] theorem State.inc_lm (s : State) (f : Fld) : (s.inc f).lm = s.lm := rfl
@[simp] theorem State.inc_boot (s : State) (f : Fld) : (s.inc f).boot = s.boot := rfl
@[simp] theorem State.inc_lcd (s : State) (f : Fld) : (s.inc f).lcd = s.lcd := rfl
@[simp] theorem State.inc_plc (s : State) (f : Fld) : (s.inc f).plc = s.plc := rfl
@[simp] theorem State.inc_msh (s : State) (f : Fld) : (s.inc f).msh = s.msh := rfl
@[simp] theorem State.inc_dma (s : State) (f : Fld) : (s.inc f).dma = s.dma := rfl
@[simp] theorem State.inc_pending (s : State) (f : Fld) : (s.inc f).pending = s.pending := rfl
@[simp] theorem State.inc_ring (s : State) (f : Fld) (e : Nat) : (s.inc f).ring e = s.ring e := rfl
@[simp] theorem State.inc_sramByte (s : State) (f : Fld) (b : Nat) : (s.inc f).sramByte b = s.sramByte b := rfl
@[simp] theorem State.inc_outlet (s : State) (f : Fld) (j : Nat) : (s.inc f).outlet j = s.outlet j := rfl
@[simp] theorem State.inc_rc (s : State) (f : Fld) (j : Nat) : (s.inc f).rc j = s.rc j := rfl
@[simp] theorem State.inc_free (s : State) (f : Fld) : (s.inc f).free = s.free := rfl

-- incSat
@[simp] theorem State.incSat_rings (s : State) (f : Fld) : (s.incSat f).rings = s.rings := rfl
@[simp] theorem State.incSat_sram (s : State) (f : Fld) : (s.incSat f).sram = s.sram := rfl
@[simp] theorem State.incSat_dsram (s : State) (f : Fld) : (s.incSat f).dsram = s.dsram := rfl
@[simp] theorem State.incSat_irqLow (s : State) (f : Fld) : (s.incSat f).irqLow = s.irqLow := rfl
@[simp] theorem State.incSat_irqPulse (s : State) (f : Fld) : (s.incSat f).irqPulse = s.irqPulse := rfl
@[simp] theorem State.incSat_irqSeen (s : State) (f : Fld) : (s.incSat f).irqSeen = s.irqSeen := rfl
@[simp] theorem State.incSat_resp (s : State) (f : Fld) : (s.incSat f).resp = s.resp := rfl
@[simp] theorem State.incSat_linkUp (s : State) (f : Fld) : (s.incSat f).linkUp = s.linkUp := rfl
@[simp] theorem State.incSat_epoch (s : State) (f : Fld) : (s.incSat f).epoch = s.epoch := rfl
@[simp] theorem State.incSat_ts (s : State) (f : Fld) : (s.incSat f).ts = s.ts := rfl
@[simp] theorem State.incSat_trimPhase (s : State) (f : Fld) : (s.incSat f).trimPhase = s.trimPhase := rfl
@[simp] theorem State.incSat_readShadow (s : State) (f : Fld) : (s.incSat f).readShadow = s.readShadow := rfl
@[simp] theorem State.incSat_writeShadow (s : State) (f : Fld) : (s.incSat f).writeShadow = s.writeShadow := rfl
@[simp] theorem State.incSat_held (s : State) (f : Fld) : (s.incSat f).held = s.held := rfl
@[simp] theorem State.incSat_sealEn (s : State) (f : Fld) : (s.incSat f).sealEn = s.sealEn := rfl
@[simp] theorem State.incSat_fresh (s : State) (f : Fld) : (s.incSat f).fresh = s.fresh := rfl
@[simp] theorem State.incSat_ms (s : State) (f : Fld) : (s.incSat f).ms = s.ms := rfl
@[simp] theorem State.incSat_cal (s : State) (f : Fld) : (s.incSat f).cal = s.cal := rfl
@[simp] theorem State.incSat_legal (s : State) (f : Fld) : (s.incSat f).legal = s.legal := rfl
@[simp] theorem State.incSat_mt (s : State) (f : Fld) : (s.incSat f).mt = s.mt := rfl
@[simp] theorem State.incSat_pf (s : State) (f : Fld) : (s.incSat f).pf = s.pf := rfl
@[simp] theorem State.incSat_nv (s : State) (f : Fld) : (s.incSat f).nv = s.nv := rfl
@[simp] theorem State.incSat_outlets (s : State) (f : Fld) : (s.incSat f).outlets = s.outlets := rfl
@[simp] theorem State.incSat_rcm (s : State) (f : Fld) : (s.incSat f).rcm = s.rcm := rfl
@[simp] theorem State.incSat_se (s : State) (f : Fld) : (s.incSat f).se = s.se := rfl
@[simp] theorem State.incSat_sl (s : State) (f : Fld) : (s.incSat f).sl = s.sl := rfl
@[simp] theorem State.incSat_tam (s : State) (f : Fld) : (s.incSat f).tam = s.tam := rfl
@[simp] theorem State.incSat_pq (s : State) (f : Fld) : (s.incSat f).pq = s.pq := rfl
@[simp] theorem State.incSat_lm (s : State) (f : Fld) : (s.incSat f).lm = s.lm := rfl
@[simp] theorem State.incSat_boot (s : State) (f : Fld) : (s.incSat f).boot = s.boot := rfl
@[simp] theorem State.incSat_lcd (s : State) (f : Fld) : (s.incSat f).lcd = s.lcd := rfl
@[simp] theorem State.incSat_plc (s : State) (f : Fld) : (s.incSat f).plc = s.plc := rfl
@[simp] theorem State.incSat_msh (s : State) (f : Fld) : (s.incSat f).msh = s.msh := rfl
@[simp] theorem State.incSat_dma (s : State) (f : Fld) : (s.incSat f).dma = s.dma := rfl
@[simp] theorem State.incSat_pending (s : State) (f : Fld) : (s.incSat f).pending = s.pending := rfl
@[simp] theorem State.incSat_ring (s : State) (f : Fld) (e : Nat) : (s.incSat f).ring e = s.ring e := rfl
@[simp] theorem State.incSat_sramByte (s : State) (f : Fld) (b : Nat) : (s.incSat f).sramByte b = s.sramByte b := rfl
@[simp] theorem State.incSat_outlet (s : State) (f : Fld) (j : Nat) : (s.incSat f).outlet j = s.outlet j := rfl
@[simp] theorem State.incSat_rc (s : State) (f : Fld) (j : Nat) : (s.incSat f).rc j = s.rc j := rfl
@[simp] theorem State.incSat_free (s : State) (f : Fld) : (s.incSat f).free = s.free := rfl

-- bumpSeq
@[simp] theorem State.bumpSeq_rings (s : State) (p : Nat) : (s.bumpSeq p).rings = s.rings := rfl
@[simp] theorem State.bumpSeq_sram (s : State) (p : Nat) : (s.bumpSeq p).sram = s.sram := rfl
@[simp] theorem State.bumpSeq_dsram (s : State) (p : Nat) : (s.bumpSeq p).dsram = s.dsram := rfl
@[simp] theorem State.bumpSeq_irqLow (s : State) (p : Nat) : (s.bumpSeq p).irqLow = s.irqLow := rfl
@[simp] theorem State.bumpSeq_irqPulse (s : State) (p : Nat) : (s.bumpSeq p).irqPulse = s.irqPulse := rfl
@[simp] theorem State.bumpSeq_irqSeen (s : State) (p : Nat) : (s.bumpSeq p).irqSeen = s.irqSeen := rfl
@[simp] theorem State.bumpSeq_resp (s : State) (p : Nat) : (s.bumpSeq p).resp = s.resp := rfl
@[simp] theorem State.bumpSeq_linkUp (s : State) (p : Nat) : (s.bumpSeq p).linkUp = s.linkUp := rfl
@[simp] theorem State.bumpSeq_epoch (s : State) (p : Nat) : (s.bumpSeq p).epoch = s.epoch := rfl
@[simp] theorem State.bumpSeq_ts (s : State) (p : Nat) : (s.bumpSeq p).ts = s.ts := rfl
@[simp] theorem State.bumpSeq_trimPhase (s : State) (p : Nat) : (s.bumpSeq p).trimPhase = s.trimPhase := rfl
@[simp] theorem State.bumpSeq_readShadow (s : State) (p : Nat) : (s.bumpSeq p).readShadow = s.readShadow := rfl
@[simp] theorem State.bumpSeq_writeShadow (s : State) (p : Nat) : (s.bumpSeq p).writeShadow = s.writeShadow := rfl
@[simp] theorem State.bumpSeq_held (s : State) (p : Nat) : (s.bumpSeq p).held = s.held := rfl
@[simp] theorem State.bumpSeq_sealEn (s : State) (p : Nat) : (s.bumpSeq p).sealEn = s.sealEn := rfl
@[simp] theorem State.bumpSeq_fresh (s : State) (p : Nat) : (s.bumpSeq p).fresh = s.fresh := rfl
@[simp] theorem State.bumpSeq_ms (s : State) (p : Nat) : (s.bumpSeq p).ms = s.ms := rfl
@[simp] theorem State.bumpSeq_cal (s : State) (p : Nat) : (s.bumpSeq p).cal = s.cal := rfl
@[simp] theorem State.bumpSeq_legal (s : State) (p : Nat) : (s.bumpSeq p).legal = s.legal := rfl
@[simp] theorem State.bumpSeq_mt (s : State) (p : Nat) : (s.bumpSeq p).mt = s.mt := rfl
@[simp] theorem State.bumpSeq_pf (s : State) (p : Nat) : (s.bumpSeq p).pf = s.pf := rfl
@[simp] theorem State.bumpSeq_nv (s : State) (p : Nat) : (s.bumpSeq p).nv = s.nv := rfl
@[simp] theorem State.bumpSeq_outlets (s : State) (p : Nat) : (s.bumpSeq p).outlets = s.outlets := rfl
@[simp] theorem State.bumpSeq_rcm (s : State) (p : Nat) : (s.bumpSeq p).rcm = s.rcm := rfl
@[simp] theorem State.bumpSeq_se (s : State) (p : Nat) : (s.bumpSeq p).se = s.se := rfl
@[simp] theorem State.bumpSeq_sl (s : State) (p : Nat) : (s.bumpSeq p).sl = s.sl := rfl
@[simp] theorem State.bumpSeq_tam (s : State) (p : Nat) : (s.bumpSeq p).tam = s.tam := rfl
@[simp] theorem State.bumpSeq_pq (s : State) (p : Nat) : (s.bumpSeq p).pq = s.pq := rfl
@[simp] theorem State.bumpSeq_lm (s : State) (p : Nat) : (s.bumpSeq p).lm = s.lm := rfl
@[simp] theorem State.bumpSeq_boot (s : State) (p : Nat) : (s.bumpSeq p).boot = s.boot := rfl
@[simp] theorem State.bumpSeq_lcd (s : State) (p : Nat) : (s.bumpSeq p).lcd = s.lcd := rfl
@[simp] theorem State.bumpSeq_plc (s : State) (p : Nat) : (s.bumpSeq p).plc = s.plc := rfl
@[simp] theorem State.bumpSeq_msh (s : State) (p : Nat) : (s.bumpSeq p).msh = s.msh := rfl
@[simp] theorem State.bumpSeq_dma (s : State) (p : Nat) : (s.bumpSeq p).dma = s.dma := rfl
@[simp] theorem State.bumpSeq_pending (s : State) (p : Nat) : (s.bumpSeq p).pending = s.pending := rfl
@[simp] theorem State.bumpSeq_ring (s : State) (p : Nat) (e : Nat) : (s.bumpSeq p).ring e = s.ring e := rfl
@[simp] theorem State.bumpSeq_sramByte (s : State) (p : Nat) (b : Nat) : (s.bumpSeq p).sramByte b = s.sramByte b := rfl
@[simp] theorem State.bumpSeq_outlet (s : State) (p : Nat) (j : Nat) : (s.bumpSeq p).outlet j = s.outlet j := rfl
@[simp] theorem State.bumpSeq_rc (s : State) (p : Nat) (j : Nat) : (s.bumpSeq p).rc j = s.rc j := rfl
@[simp] theorem State.bumpSeq_free (s : State) (p : Nat) : (s.bumpSeq p).free = s.free := rfl

-- err
@[simp] theorem State.err_rings (s : State) (p c : Nat) : (s.err p c).rings = s.rings := rfl
@[simp] theorem State.err_sram (s : State) (p c : Nat) : (s.err p c).sram = s.sram := rfl
@[simp] theorem State.err_dsram (s : State) (p c : Nat) : (s.err p c).dsram = s.dsram := rfl
@[simp] theorem State.err_irqLow (s : State) (p c : Nat) : (s.err p c).irqLow = s.irqLow := rfl
@[simp] theorem State.err_irqPulse (s : State) (p c : Nat) : (s.err p c).irqPulse = s.irqPulse := rfl
@[simp] theorem State.err_irqSeen (s : State) (p c : Nat) : (s.err p c).irqSeen = s.irqSeen := rfl
@[simp] theorem State.err_resp (s : State) (p c : Nat) : (s.err p c).resp = s.resp := rfl
@[simp] theorem State.err_linkUp (s : State) (p c : Nat) : (s.err p c).linkUp = s.linkUp := rfl
@[simp] theorem State.err_epoch (s : State) (p c : Nat) : (s.err p c).epoch = s.epoch := rfl
@[simp] theorem State.err_ts (s : State) (p c : Nat) : (s.err p c).ts = s.ts := rfl
@[simp] theorem State.err_trimPhase (s : State) (p c : Nat) : (s.err p c).trimPhase = s.trimPhase := rfl
@[simp] theorem State.err_readShadow (s : State) (p c : Nat) : (s.err p c).readShadow = s.readShadow := rfl
@[simp] theorem State.err_writeShadow (s : State) (p c : Nat) : (s.err p c).writeShadow = s.writeShadow := rfl
@[simp] theorem State.err_held (s : State) (p c : Nat) : (s.err p c).held = s.held := rfl
@[simp] theorem State.err_sealEn (s : State) (p c : Nat) : (s.err p c).sealEn = s.sealEn := rfl
@[simp] theorem State.err_fresh (s : State) (p c : Nat) : (s.err p c).fresh = s.fresh := rfl
@[simp] theorem State.err_ms (s : State) (p c : Nat) : (s.err p c).ms = s.ms := rfl
@[simp] theorem State.err_cal (s : State) (p c : Nat) : (s.err p c).cal = s.cal := rfl
@[simp] theorem State.err_legal (s : State) (p c : Nat) : (s.err p c).legal = s.legal := rfl
@[simp] theorem State.err_mt (s : State) (p c : Nat) : (s.err p c).mt = s.mt := rfl
@[simp] theorem State.err_pf (s : State) (p c : Nat) : (s.err p c).pf = s.pf := rfl
@[simp] theorem State.err_nv (s : State) (p c : Nat) : (s.err p c).nv = s.nv := rfl
@[simp] theorem State.err_outlets (s : State) (p c : Nat) : (s.err p c).outlets = s.outlets := rfl
@[simp] theorem State.err_rcm (s : State) (p c : Nat) : (s.err p c).rcm = s.rcm := rfl
@[simp] theorem State.err_se (s : State) (p c : Nat) : (s.err p c).se = s.se := rfl
@[simp] theorem State.err_sl (s : State) (p c : Nat) : (s.err p c).sl = s.sl := rfl
@[simp] theorem State.err_tam (s : State) (p c : Nat) : (s.err p c).tam = s.tam := rfl
@[simp] theorem State.err_pq (s : State) (p c : Nat) : (s.err p c).pq = s.pq := rfl
@[simp] theorem State.err_lm (s : State) (p c : Nat) : (s.err p c).lm = s.lm := rfl
@[simp] theorem State.err_boot (s : State) (p c : Nat) : (s.err p c).boot = s.boot := rfl
@[simp] theorem State.err_lcd (s : State) (p c : Nat) : (s.err p c).lcd = s.lcd := rfl
@[simp] theorem State.err_plc (s : State) (p c : Nat) : (s.err p c).plc = s.plc := rfl
@[simp] theorem State.err_msh (s : State) (p c : Nat) : (s.err p c).msh = s.msh := rfl
@[simp] theorem State.err_dma (s : State) (p c : Nat) : (s.err p c).dma = s.dma := rfl
@[simp] theorem State.err_pending (s : State) (p c : Nat) : (s.err p c).pending = s.pending := rfl
@[simp] theorem State.err_ring (s : State) (p c : Nat) (e : Nat) : (s.err p c).ring e = s.ring e := rfl
@[simp] theorem State.err_sramByte (s : State) (p c : Nat) (b : Nat) : (s.err p c).sramByte b = s.sramByte b := rfl
@[simp] theorem State.err_outlet (s : State) (p c : Nat) (j : Nat) : (s.err p c).outlet j = s.outlet j := rfl
@[simp] theorem State.err_rc (s : State) (p c : Nat) (j : Nat) : (s.err p c).rc j = s.rc j := rfl
@[simp] theorem State.err_free (s : State) (p c : Nat) : (s.err p c).free = s.free := rfl

-- irq
@[simp] theorem State.irq_rings (s : State) (p b : Nat) : (s.irq p b).rings = s.rings := rfl
@[simp] theorem State.irq_sram (s : State) (p b : Nat) : (s.irq p b).sram = s.sram := rfl
@[simp] theorem State.irq_dsram (s : State) (p b : Nat) : (s.irq p b).dsram = s.dsram := rfl
@[simp] theorem State.irq_irqLow (s : State) (p b : Nat) : (s.irq p b).irqLow = s.irqLow := rfl
@[simp] theorem State.irq_irqPulse (s : State) (p b : Nat) : (s.irq p b).irqPulse = s.irqPulse := rfl
@[simp] theorem State.irq_irqSeen (s : State) (p b : Nat) : (s.irq p b).irqSeen = s.irqSeen := rfl
@[simp] theorem State.irq_resp (s : State) (p b : Nat) : (s.irq p b).resp = s.resp := rfl
@[simp] theorem State.irq_linkUp (s : State) (p b : Nat) : (s.irq p b).linkUp = s.linkUp := rfl
@[simp] theorem State.irq_epoch (s : State) (p b : Nat) : (s.irq p b).epoch = s.epoch := rfl
@[simp] theorem State.irq_ts (s : State) (p b : Nat) : (s.irq p b).ts = s.ts := rfl
@[simp] theorem State.irq_trimPhase (s : State) (p b : Nat) : (s.irq p b).trimPhase = s.trimPhase := rfl
@[simp] theorem State.irq_readShadow (s : State) (p b : Nat) : (s.irq p b).readShadow = s.readShadow := rfl
@[simp] theorem State.irq_writeShadow (s : State) (p b : Nat) : (s.irq p b).writeShadow = s.writeShadow := rfl
@[simp] theorem State.irq_held (s : State) (p b : Nat) : (s.irq p b).held = s.held := rfl
@[simp] theorem State.irq_sealEn (s : State) (p b : Nat) : (s.irq p b).sealEn = s.sealEn := rfl
@[simp] theorem State.irq_fresh (s : State) (p b : Nat) : (s.irq p b).fresh = s.fresh := rfl
@[simp] theorem State.irq_ms (s : State) (p b : Nat) : (s.irq p b).ms = s.ms := rfl
@[simp] theorem State.irq_cal (s : State) (p b : Nat) : (s.irq p b).cal = s.cal := rfl
@[simp] theorem State.irq_legal (s : State) (p b : Nat) : (s.irq p b).legal = s.legal := rfl
@[simp] theorem State.irq_mt (s : State) (p b : Nat) : (s.irq p b).mt = s.mt := rfl
@[simp] theorem State.irq_pf (s : State) (p b : Nat) : (s.irq p b).pf = s.pf := rfl
@[simp] theorem State.irq_nv (s : State) (p b : Nat) : (s.irq p b).nv = s.nv := rfl
@[simp] theorem State.irq_outlets (s : State) (p b : Nat) : (s.irq p b).outlets = s.outlets := rfl
@[simp] theorem State.irq_rcm (s : State) (p b : Nat) : (s.irq p b).rcm = s.rcm := rfl
@[simp] theorem State.irq_se (s : State) (p b : Nat) : (s.irq p b).se = s.se := rfl
@[simp] theorem State.irq_sl (s : State) (p b : Nat) : (s.irq p b).sl = s.sl := rfl
@[simp] theorem State.irq_tam (s : State) (p b : Nat) : (s.irq p b).tam = s.tam := rfl
@[simp] theorem State.irq_pq (s : State) (p b : Nat) : (s.irq p b).pq = s.pq := rfl
@[simp] theorem State.irq_lm (s : State) (p b : Nat) : (s.irq p b).lm = s.lm := rfl
@[simp] theorem State.irq_boot (s : State) (p b : Nat) : (s.irq p b).boot = s.boot := rfl
@[simp] theorem State.irq_lcd (s : State) (p b : Nat) : (s.irq p b).lcd = s.lcd := rfl
@[simp] theorem State.irq_plc (s : State) (p b : Nat) : (s.irq p b).plc = s.plc := rfl
@[simp] theorem State.irq_msh (s : State) (p b : Nat) : (s.irq p b).msh = s.msh := rfl
@[simp] theorem State.irq_dma (s : State) (p b : Nat) : (s.irq p b).dma = s.dma := rfl
@[simp] theorem State.irq_pending (s : State) (p b : Nat) : (s.irq p b).pending = s.pending := rfl
@[simp] theorem State.irq_ring (s : State) (p b : Nat) (e : Nat) : (s.irq p b).ring e = s.ring e := rfl
@[simp] theorem State.irq_sramByte (s : State) (p b : Nat) (b : Nat) : (s.irq p b).sramByte b = s.sramByte b := rfl
@[simp] theorem State.irq_outlet (s : State) (p b : Nat) (j : Nat) : (s.irq p b).outlet j = s.outlet j := rfl
@[simp] theorem State.irq_rc (s : State) (p b : Nat) (j : Nat) : (s.irq p b).rc j = s.rc j := rfl
@[simp] theorem State.irq_free (s : State) (p b : Nat) : (s.irq p b).free = s.free := rfl

-- setReg64
@[simp] theorem State.setReg64_rings (s : State) (a v : Nat) : (s.setReg64 a v).rings = s.rings := rfl
@[simp] theorem State.setReg64_sram (s : State) (a v : Nat) : (s.setReg64 a v).sram = s.sram := rfl
@[simp] theorem State.setReg64_dsram (s : State) (a v : Nat) : (s.setReg64 a v).dsram = s.dsram := rfl
@[simp] theorem State.setReg64_irqLow (s : State) (a v : Nat) : (s.setReg64 a v).irqLow = s.irqLow := rfl
@[simp] theorem State.setReg64_irqPulse (s : State) (a v : Nat) : (s.setReg64 a v).irqPulse = s.irqPulse := rfl
@[simp] theorem State.setReg64_irqSeen (s : State) (a v : Nat) : (s.setReg64 a v).irqSeen = s.irqSeen := rfl
@[simp] theorem State.setReg64_resp (s : State) (a v : Nat) : (s.setReg64 a v).resp = s.resp := rfl
@[simp] theorem State.setReg64_linkUp (s : State) (a v : Nat) : (s.setReg64 a v).linkUp = s.linkUp := rfl
@[simp] theorem State.setReg64_epoch (s : State) (a v : Nat) : (s.setReg64 a v).epoch = s.epoch := rfl
@[simp] theorem State.setReg64_ts (s : State) (a v : Nat) : (s.setReg64 a v).ts = s.ts := rfl
@[simp] theorem State.setReg64_trimPhase (s : State) (a v : Nat) : (s.setReg64 a v).trimPhase = s.trimPhase := rfl
@[simp] theorem State.setReg64_readShadow (s : State) (a v : Nat) : (s.setReg64 a v).readShadow = s.readShadow := rfl
@[simp] theorem State.setReg64_writeShadow (s : State) (a v : Nat) : (s.setReg64 a v).writeShadow = s.writeShadow := rfl
@[simp] theorem State.setReg64_held (s : State) (a v : Nat) : (s.setReg64 a v).held = s.held := rfl
@[simp] theorem State.setReg64_sealEn (s : State) (a v : Nat) : (s.setReg64 a v).sealEn = s.sealEn := rfl
@[simp] theorem State.setReg64_fresh (s : State) (a v : Nat) : (s.setReg64 a v).fresh = s.fresh := rfl
@[simp] theorem State.setReg64_ms (s : State) (a v : Nat) : (s.setReg64 a v).ms = s.ms := rfl
@[simp] theorem State.setReg64_cal (s : State) (a v : Nat) : (s.setReg64 a v).cal = s.cal := rfl
@[simp] theorem State.setReg64_legal (s : State) (a v : Nat) : (s.setReg64 a v).legal = s.legal := rfl
@[simp] theorem State.setReg64_mt (s : State) (a v : Nat) : (s.setReg64 a v).mt = s.mt := rfl
@[simp] theorem State.setReg64_pf (s : State) (a v : Nat) : (s.setReg64 a v).pf = s.pf := rfl
@[simp] theorem State.setReg64_nv (s : State) (a v : Nat) : (s.setReg64 a v).nv = s.nv := rfl
@[simp] theorem State.setReg64_outlets (s : State) (a v : Nat) : (s.setReg64 a v).outlets = s.outlets := rfl
@[simp] theorem State.setReg64_rcm (s : State) (a v : Nat) : (s.setReg64 a v).rcm = s.rcm := rfl
@[simp] theorem State.setReg64_se (s : State) (a v : Nat) : (s.setReg64 a v).se = s.se := rfl
@[simp] theorem State.setReg64_sl (s : State) (a v : Nat) : (s.setReg64 a v).sl = s.sl := rfl
@[simp] theorem State.setReg64_tam (s : State) (a v : Nat) : (s.setReg64 a v).tam = s.tam := rfl
@[simp] theorem State.setReg64_pq (s : State) (a v : Nat) : (s.setReg64 a v).pq = s.pq := rfl
@[simp] theorem State.setReg64_lm (s : State) (a v : Nat) : (s.setReg64 a v).lm = s.lm := rfl
@[simp] theorem State.setReg64_boot (s : State) (a v : Nat) : (s.setReg64 a v).boot = s.boot := rfl
@[simp] theorem State.setReg64_lcd (s : State) (a v : Nat) : (s.setReg64 a v).lcd = s.lcd := rfl
@[simp] theorem State.setReg64_plc (s : State) (a v : Nat) : (s.setReg64 a v).plc = s.plc := rfl
@[simp] theorem State.setReg64_msh (s : State) (a v : Nat) : (s.setReg64 a v).msh = s.msh := rfl
@[simp] theorem State.setReg64_dma (s : State) (a v : Nat) : (s.setReg64 a v).dma = s.dma := rfl
@[simp] theorem State.setReg64_pending (s : State) (a v : Nat) : (s.setReg64 a v).pending = s.pending := rfl
@[simp] theorem State.setReg64_ring (s : State) (a v : Nat) (e : Nat) : (s.setReg64 a v).ring e = s.ring e := rfl
@[simp] theorem State.setReg64_sramByte (s : State) (a v : Nat) (b : Nat) : (s.setReg64 a v).sramByte b = s.sramByte b := rfl
@[simp] theorem State.setReg64_outlet (s : State) (a v : Nat) (j : Nat) : (s.setReg64 a v).outlet j = s.outlet j := rfl
@[simp] theorem State.setReg64_rc (s : State) (a v : Nat) (j : Nat) : (s.setReg64 a v).rc j = s.rc j := rfl
@[simp] theorem State.setReg64_free (s : State) (a v : Nat) : (s.setReg64 a v).free = s.free := rfl

-- setRing
@[simp] theorem State.setRing_regs (s : State) (e : Nat) (r : Ring) : (s.setRing e r).regs = s.regs := rfl
@[simp] theorem State.setRing_sram (s : State) (e : Nat) (r : Ring) : (s.setRing e r).sram = s.sram := rfl
@[simp] theorem State.setRing_dsram (s : State) (e : Nat) (r : Ring) : (s.setRing e r).dsram = s.dsram := rfl
@[simp] theorem State.setRing_irqLow (s : State) (e : Nat) (r : Ring) : (s.setRing e r).irqLow = s.irqLow := rfl
@[simp] theorem State.setRing_irqPulse (s : State) (e : Nat) (r : Ring) : (s.setRing e r).irqPulse = s.irqPulse := rfl
@[simp] theorem State.setRing_irqSeen (s : State) (e : Nat) (r : Ring) : (s.setRing e r).irqSeen = s.irqSeen := rfl
@[simp] theorem State.setRing_resp (s : State) (e : Nat) (r : Ring) : (s.setRing e r).resp = s.resp := rfl
@[simp] theorem State.setRing_linkUp (s : State) (e : Nat) (r : Ring) : (s.setRing e r).linkUp = s.linkUp := rfl
@[simp] theorem State.setRing_epoch (s : State) (e : Nat) (r : Ring) : (s.setRing e r).epoch = s.epoch := rfl
@[simp] theorem State.setRing_ts (s : State) (e : Nat) (r : Ring) : (s.setRing e r).ts = s.ts := rfl
@[simp] theorem State.setRing_trimPhase (s : State) (e : Nat) (r : Ring) : (s.setRing e r).trimPhase = s.trimPhase := rfl
@[simp] theorem State.setRing_readShadow (s : State) (e : Nat) (r : Ring) : (s.setRing e r).readShadow = s.readShadow := rfl
@[simp] theorem State.setRing_writeShadow (s : State) (e : Nat) (r : Ring) : (s.setRing e r).writeShadow = s.writeShadow := rfl
@[simp] theorem State.setRing_held (s : State) (e : Nat) (r : Ring) : (s.setRing e r).held = s.held := rfl
@[simp] theorem State.setRing_sealEn (s : State) (e : Nat) (r : Ring) : (s.setRing e r).sealEn = s.sealEn := rfl
@[simp] theorem State.setRing_fresh (s : State) (e : Nat) (r : Ring) : (s.setRing e r).fresh = s.fresh := rfl
@[simp] theorem State.setRing_ms (s : State) (e : Nat) (r : Ring) : (s.setRing e r).ms = s.ms := rfl
@[simp] theorem State.setRing_cal (s : State) (e : Nat) (r : Ring) : (s.setRing e r).cal = s.cal := rfl
@[simp] theorem State.setRing_legal (s : State) (e : Nat) (r : Ring) : (s.setRing e r).legal = s.legal := rfl
@[simp] theorem State.setRing_mt (s : State) (e : Nat) (r : Ring) : (s.setRing e r).mt = s.mt := rfl
@[simp] theorem State.setRing_pf (s : State) (e : Nat) (r : Ring) : (s.setRing e r).pf = s.pf := rfl
@[simp] theorem State.setRing_nv (s : State) (e : Nat) (r : Ring) : (s.setRing e r).nv = s.nv := rfl
@[simp] theorem State.setRing_outlets (s : State) (e : Nat) (r : Ring) : (s.setRing e r).outlets = s.outlets := rfl
@[simp] theorem State.setRing_rcm (s : State) (e : Nat) (r : Ring) : (s.setRing e r).rcm = s.rcm := rfl
@[simp] theorem State.setRing_se (s : State) (e : Nat) (r : Ring) : (s.setRing e r).se = s.se := rfl
@[simp] theorem State.setRing_sl (s : State) (e : Nat) (r : Ring) : (s.setRing e r).sl = s.sl := rfl
@[simp] theorem State.setRing_tam (s : State) (e : Nat) (r : Ring) : (s.setRing e r).tam = s.tam := rfl
@[simp] theorem State.setRing_pq (s : State) (e : Nat) (r : Ring) : (s.setRing e r).pq = s.pq := rfl
@[simp] theorem State.setRing_lm (s : State) (e : Nat) (r : Ring) : (s.setRing e r).lm = s.lm := rfl
@[simp] theorem State.setRing_boot (s : State) (e : Nat) (r : Ring) : (s.setRing e r).boot = s.boot := rfl
@[simp] theorem State.setRing_lcd (s : State) (e : Nat) (r : Ring) : (s.setRing e r).lcd = s.lcd := rfl
@[simp] theorem State.setRing_plc (s : State) (e : Nat) (r : Ring) : (s.setRing e r).plc = s.plc := rfl
@[simp] theorem State.setRing_msh (s : State) (e : Nat) (r : Ring) : (s.setRing e r).msh = s.msh := rfl
@[simp] theorem State.setRing_dma (s : State) (e : Nat) (r : Ring) : (s.setRing e r).dma = s.dma := rfl
@[simp] theorem State.setRing_pending (s : State) (e : Nat) (r : Ring) : (s.setRing e r).pending = s.pending := rfl
@[simp] theorem State.setRing_reg (s : State) (e : Nat) (r : Ring) (b : Nat) : (s.setRing e r).reg b = s.reg b := rfl
@[simp] theorem State.setRing_sramByte (s : State) (e : Nat) (r : Ring) (b : Nat) : (s.setRing e r).sramByte b = s.sramByte b := rfl
@[simp] theorem State.setRing_outlet (s : State) (e : Nat) (r : Ring) (j : Nat) : (s.setRing e r).outlet j = s.outlet j := rfl
@[simp] theorem State.setRing_rc (s : State) (e : Nat) (r : Ring) (j : Nat) : (s.setRing e r).rc j = s.rc j := rfl
@[simp] theorem State.setRing_free (s : State) (e : Nat) (r : Ring) : (s.setRing e r).free = s.free := rfl
@[simp] theorem State.setRing_get (s : State) (e : Nat) (r : Ring) (g : Fld) : (s.setRing e r).get g = s.get g := rfl
@[simp] theorem State.setRing_on (s : State) (e : Nat) (r : Ring) (g : Fld) : (s.setRing e r).on g = s.on g := rfl

-- take
@[simp] theorem State.take_regs (s : State) (e : Nat) : (s.take e).regs = s.regs := rfl
@[simp] theorem State.take_sram (s : State) (e : Nat) : (s.take e).sram = s.sram := rfl
@[simp] theorem State.take_dsram (s : State) (e : Nat) : (s.take e).dsram = s.dsram := rfl
@[simp] theorem State.take_irqLow (s : State) (e : Nat) : (s.take e).irqLow = s.irqLow := rfl
@[simp] theorem State.take_irqPulse (s : State) (e : Nat) : (s.take e).irqPulse = s.irqPulse := rfl
@[simp] theorem State.take_irqSeen (s : State) (e : Nat) : (s.take e).irqSeen = s.irqSeen := rfl
@[simp] theorem State.take_resp (s : State) (e : Nat) : (s.take e).resp = s.resp := rfl
@[simp] theorem State.take_linkUp (s : State) (e : Nat) : (s.take e).linkUp = s.linkUp := rfl
@[simp] theorem State.take_epoch (s : State) (e : Nat) : (s.take e).epoch = s.epoch := rfl
@[simp] theorem State.take_ts (s : State) (e : Nat) : (s.take e).ts = s.ts := rfl
@[simp] theorem State.take_trimPhase (s : State) (e : Nat) : (s.take e).trimPhase = s.trimPhase := rfl
@[simp] theorem State.take_readShadow (s : State) (e : Nat) : (s.take e).readShadow = s.readShadow := rfl
@[simp] theorem State.take_writeShadow (s : State) (e : Nat) : (s.take e).writeShadow = s.writeShadow := rfl
@[simp] theorem State.take_held (s : State) (e : Nat) : (s.take e).held = s.held := rfl
@[simp] theorem State.take_sealEn (s : State) (e : Nat) : (s.take e).sealEn = s.sealEn := rfl
@[simp] theorem State.take_fresh (s : State) (e : Nat) : (s.take e).fresh = s.fresh := rfl
@[simp] theorem State.take_ms (s : State) (e : Nat) : (s.take e).ms = s.ms := rfl
@[simp] theorem State.take_cal (s : State) (e : Nat) : (s.take e).cal = s.cal := rfl
@[simp] theorem State.take_legal (s : State) (e : Nat) : (s.take e).legal = s.legal := rfl
@[simp] theorem State.take_mt (s : State) (e : Nat) : (s.take e).mt = s.mt := rfl
@[simp] theorem State.take_pf (s : State) (e : Nat) : (s.take e).pf = s.pf := rfl
@[simp] theorem State.take_nv (s : State) (e : Nat) : (s.take e).nv = s.nv := rfl
@[simp] theorem State.take_outlets (s : State) (e : Nat) : (s.take e).outlets = s.outlets := rfl
@[simp] theorem State.take_rcm (s : State) (e : Nat) : (s.take e).rcm = s.rcm := rfl
@[simp] theorem State.take_se (s : State) (e : Nat) : (s.take e).se = s.se := rfl
@[simp] theorem State.take_sl (s : State) (e : Nat) : (s.take e).sl = s.sl := rfl
@[simp] theorem State.take_tam (s : State) (e : Nat) : (s.take e).tam = s.tam := rfl
@[simp] theorem State.take_pq (s : State) (e : Nat) : (s.take e).pq = s.pq := rfl
@[simp] theorem State.take_lm (s : State) (e : Nat) : (s.take e).lm = s.lm := rfl
@[simp] theorem State.take_boot (s : State) (e : Nat) : (s.take e).boot = s.boot := rfl
@[simp] theorem State.take_lcd (s : State) (e : Nat) : (s.take e).lcd = s.lcd := rfl
@[simp] theorem State.take_plc (s : State) (e : Nat) : (s.take e).plc = s.plc := rfl
@[simp] theorem State.take_msh (s : State) (e : Nat) : (s.take e).msh = s.msh := rfl
@[simp] theorem State.take_dma (s : State) (e : Nat) : (s.take e).dma = s.dma := rfl
@[simp] theorem State.take_pending (s : State) (e : Nat) : (s.take e).pending = s.pending := rfl
@[simp] theorem State.take_reg (s : State) (e : Nat) (b : Nat) : (s.take e).reg b = s.reg b := rfl
@[simp] theorem State.take_sramByte (s : State) (e : Nat) (b : Nat) : (s.take e).sramByte b = s.sramByte b := rfl
@[simp] theorem State.take_outlet (s : State) (e : Nat) (j : Nat) : (s.take e).outlet j = s.outlet j := rfl
@[simp] theorem State.take_rc (s : State) (e : Nat) (j : Nat) : (s.take e).rc j = s.rc j := rfl
@[simp] theorem State.take_free (s : State) (e : Nat) : (s.take e).free = s.free := rfl
@[simp] theorem State.take_get (s : State) (e : Nat) (g : Fld) : (s.take e).get g = s.get g := rfl
@[simp] theorem State.take_on (s : State) (e : Nat) (g : Fld) : (s.take e).on g = s.on g := rfl

-- took
@[simp] theorem State.took_regs (s : State) : (s.took).regs = s.regs := rfl
@[simp] theorem State.took_rings (s : State) : (s.took).rings = s.rings := rfl
@[simp] theorem State.took_sram (s : State) : (s.took).sram = s.sram := rfl
@[simp] theorem State.took_dsram (s : State) : (s.took).dsram = s.dsram := rfl
@[simp] theorem State.took_irqLow (s : State) : (s.took).irqLow = s.irqLow := rfl
@[simp] theorem State.took_irqPulse (s : State) : (s.took).irqPulse = s.irqPulse := rfl
@[simp] theorem State.took_irqSeen (s : State) : (s.took).irqSeen = s.irqSeen := rfl
@[simp] theorem State.took_resp (s : State) : (s.took).resp = s.resp := rfl
@[simp] theorem State.took_linkUp (s : State) : (s.took).linkUp = s.linkUp := rfl
@[simp] theorem State.took_epoch (s : State) : (s.took).epoch = s.epoch := rfl
@[simp] theorem State.took_ts (s : State) : (s.took).ts = s.ts := rfl
@[simp] theorem State.took_trimPhase (s : State) : (s.took).trimPhase = s.trimPhase := rfl
@[simp] theorem State.took_readShadow (s : State) : (s.took).readShadow = s.readShadow := rfl
@[simp] theorem State.took_writeShadow (s : State) : (s.took).writeShadow = s.writeShadow := rfl
@[simp] theorem State.took_held (s : State) : (s.took).held = s.held := rfl
@[simp] theorem State.took_sealEn (s : State) : (s.took).sealEn = s.sealEn := rfl
@[simp] theorem State.took_ms (s : State) : (s.took).ms = s.ms := rfl
@[simp] theorem State.took_cal (s : State) : (s.took).cal = s.cal := rfl
@[simp] theorem State.took_legal (s : State) : (s.took).legal = s.legal := rfl
@[simp] theorem State.took_mt (s : State) : (s.took).mt = s.mt := rfl
@[simp] theorem State.took_pf (s : State) : (s.took).pf = s.pf := rfl
@[simp] theorem State.took_nv (s : State) : (s.took).nv = s.nv := rfl
@[simp] theorem State.took_outlets (s : State) : (s.took).outlets = s.outlets := rfl
@[simp] theorem State.took_rcm (s : State) : (s.took).rcm = s.rcm := rfl
@[simp] theorem State.took_se (s : State) : (s.took).se = s.se := rfl
@[simp] theorem State.took_sl (s : State) : (s.took).sl = s.sl := rfl
@[simp] theorem State.took_tam (s : State) : (s.took).tam = s.tam := rfl
@[simp] theorem State.took_pq (s : State) : (s.took).pq = s.pq := rfl
@[simp] theorem State.took_lm (s : State) : (s.took).lm = s.lm := rfl
@[simp] theorem State.took_boot (s : State) : (s.took).boot = s.boot := rfl
@[simp] theorem State.took_lcd (s : State) : (s.took).lcd = s.lcd := rfl
@[simp] theorem State.took_plc (s : State) : (s.took).plc = s.plc := rfl
@[simp] theorem State.took_msh (s : State) : (s.took).msh = s.msh := rfl
@[simp] theorem State.took_dma (s : State) : (s.took).dma = s.dma := rfl
@[simp] theorem State.took_pending (s : State) : (s.took).pending = s.pending := rfl
@[simp] theorem State.took_ring (s : State) (e : Nat) : (s.took).ring e = s.ring e := rfl
@[simp] theorem State.took_reg (s : State) (b : Nat) : (s.took).reg b = s.reg b := rfl
@[simp] theorem State.took_sramByte (s : State) (b : Nat) : (s.took).sramByte b = s.sramByte b := rfl
@[simp] theorem State.took_outlet (s : State) (j : Nat) : (s.took).outlet j = s.outlet j := rfl
@[simp] theorem State.took_rc (s : State) (j : Nat) : (s.took).rc j = s.rc j := rfl
@[simp] theorem State.took_get (s : State) (g : Fld) : (s.took).get g = s.get g := rfl
@[simp] theorem State.took_on (s : State) (g : Fld) : (s.took).on g = s.on g := rfl

-- sramPut
@[simp] theorem State.sramPut_regs (s : State) (a : Nat) (l : List Byte) : (s.sramPut a l).regs = s.regs := rfl
@[simp] theorem State.sramPut_rings (s : State) (a : Nat) (l : List Byte) : (s.sramPut a l).rings = s.rings := rfl
@[simp] theorem State.sramPut_dsram (s : State) (a : Nat) (l : List Byte) : (s.sramPut a l).dsram = s.dsram := rfl
@[simp] theorem State.sramPut_irqLow (s : State) (a : Nat) (l : List Byte) : (s.sramPut a l).irqLow = s.irqLow := rfl
@[simp] theorem State.sramPut_irqPulse (s : State) (a : Nat) (l : List Byte) : (s.sramPut a l).irqPulse = s.irqPulse := rfl
@[simp] theorem State.sramPut_irqSeen (s : State) (a : Nat) (l : List Byte) : (s.sramPut a l).irqSeen = s.irqSeen := rfl
@[simp] theorem State.sramPut_resp (s : State) (a : Nat) (l : List Byte) : (s.sramPut a l).resp = s.resp := rfl
@[simp] theorem State.sramPut_linkUp (s : State) (a : Nat) (l : List Byte) : (s.sramPut a l).linkUp = s.linkUp := rfl
@[simp] theorem State.sramPut_epoch (s : State) (a : Nat) (l : List Byte) : (s.sramPut a l).epoch = s.epoch := rfl
@[simp] theorem State.sramPut_ts (s : State) (a : Nat) (l : List Byte) : (s.sramPut a l).ts = s.ts := rfl
@[simp] theorem State.sramPut_trimPhase (s : State) (a : Nat) (l : List Byte) : (s.sramPut a l).trimPhase = s.trimPhase := rfl
@[simp] theorem State.sramPut_readShadow (s : State) (a : Nat) (l : List Byte) : (s.sramPut a l).readShadow = s.readShadow := rfl
@[simp] theorem State.sramPut_writeShadow (s : State) (a : Nat) (l : List Byte) : (s.sramPut a l).writeShadow = s.writeShadow := rfl
@[simp] theorem State.sramPut_held (s : State) (a : Nat) (l : List Byte) : (s.sramPut a l).held = s.held := rfl
@[simp] theorem State.sramPut_sealEn (s : State) (a : Nat) (l : List Byte) : (s.sramPut a l).sealEn = s.sealEn := rfl
@[simp] theorem State.sramPut_fresh (s : State) (a : Nat) (l : List Byte) : (s.sramPut a l).fresh = s.fresh := rfl
@[simp] theorem State.sramPut_ms (s : State) (a : Nat) (l : List Byte) : (s.sramPut a l).ms = s.ms := rfl
@[simp] theorem State.sramPut_cal (s : State) (a : Nat) (l : List Byte) : (s.sramPut a l).cal = s.cal := rfl
@[simp] theorem State.sramPut_legal (s : State) (a : Nat) (l : List Byte) : (s.sramPut a l).legal = s.legal := rfl
@[simp] theorem State.sramPut_mt (s : State) (a : Nat) (l : List Byte) : (s.sramPut a l).mt = s.mt := rfl
@[simp] theorem State.sramPut_pf (s : State) (a : Nat) (l : List Byte) : (s.sramPut a l).pf = s.pf := rfl
@[simp] theorem State.sramPut_nv (s : State) (a : Nat) (l : List Byte) : (s.sramPut a l).nv = s.nv := rfl
@[simp] theorem State.sramPut_outlets (s : State) (a : Nat) (l : List Byte) : (s.sramPut a l).outlets = s.outlets := rfl
@[simp] theorem State.sramPut_rcm (s : State) (a : Nat) (l : List Byte) : (s.sramPut a l).rcm = s.rcm := rfl
@[simp] theorem State.sramPut_se (s : State) (a : Nat) (l : List Byte) : (s.sramPut a l).se = s.se := rfl
@[simp] theorem State.sramPut_sl (s : State) (a : Nat) (l : List Byte) : (s.sramPut a l).sl = s.sl := rfl
@[simp] theorem State.sramPut_tam (s : State) (a : Nat) (l : List Byte) : (s.sramPut a l).tam = s.tam := rfl
@[simp] theorem State.sramPut_pq (s : State) (a : Nat) (l : List Byte) : (s.sramPut a l).pq = s.pq := rfl
@[simp] theorem State.sramPut_lm (s : State) (a : Nat) (l : List Byte) : (s.sramPut a l).lm = s.lm := rfl
@[simp] theorem State.sramPut_boot (s : State) (a : Nat) (l : List Byte) : (s.sramPut a l).boot = s.boot := rfl
@[simp] theorem State.sramPut_lcd (s : State) (a : Nat) (l : List Byte) : (s.sramPut a l).lcd = s.lcd := rfl
@[simp] theorem State.sramPut_plc (s : State) (a : Nat) (l : List Byte) : (s.sramPut a l).plc = s.plc := rfl
@[simp] theorem State.sramPut_msh (s : State) (a : Nat) (l : List Byte) : (s.sramPut a l).msh = s.msh := rfl
@[simp] theorem State.sramPut_dma (s : State) (a : Nat) (l : List Byte) : (s.sramPut a l).dma = s.dma := rfl
@[simp] theorem State.sramPut_pending (s : State) (a : Nat) (l : List Byte) : (s.sramPut a l).pending = s.pending := rfl
@[simp] theorem State.sramPut_ring (s : State) (a : Nat) (l : List Byte) (e : Nat) : (s.sramPut a l).ring e = s.ring e := rfl
@[simp] theorem State.sramPut_reg (s : State) (a : Nat) (l : List Byte) (b : Nat) : (s.sramPut a l).reg b = s.reg b := rfl
@[simp] theorem State.sramPut_outlet (s : State) (a : Nat) (l : List Byte) (j : Nat) : (s.sramPut a l).outlet j = s.outlet j := rfl
@[simp] theorem State.sramPut_rc (s : State) (a : Nat) (l : List Byte) (j : Nat) : (s.sramPut a l).rc j = s.rc j := rfl
@[simp] theorem State.sramPut_free (s : State) (a : Nat) (l : List Byte) : (s.sramPut a l).free = s.free := rfl
@[simp] theorem State.sramPut_get (s : State) (a : Nat) (l : List Byte) (g : Fld) : (s.sramPut a l).get g = s.get g := rfl
@[simp] theorem State.sramPut_on (s : State) (a : Nat) (l : List Byte) (g : Fld) : (s.sramPut a l).on g = s.on g := rfl

-- dispPut
@[simp] theorem State.dispPut_regs (s : State) (a : Nat) (l : List Byte) : (s.dispPut a l).regs = s.regs := rfl
@[simp] theorem State.dispPut_rings (s : State) (a : Nat) (l : List Byte) : (s.dispPut a l).rings = s.rings := rfl
@[simp] theorem State.dispPut_sram (s : State) (a : Nat) (l : List Byte) : (s.dispPut a l).sram = s.sram := rfl
@[simp] theorem State.dispPut_irqLow (s : State) (a : Nat) (l : List Byte) : (s.dispPut a l).irqLow = s.irqLow := rfl
@[simp] theorem State.dispPut_irqPulse (s : State) (a : Nat) (l : List Byte) : (s.dispPut a l).irqPulse = s.irqPulse := rfl
@[simp] theorem State.dispPut_irqSeen (s : State) (a : Nat) (l : List Byte) : (s.dispPut a l).irqSeen = s.irqSeen := rfl
@[simp] theorem State.dispPut_resp (s : State) (a : Nat) (l : List Byte) : (s.dispPut a l).resp = s.resp := rfl
@[simp] theorem State.dispPut_linkUp (s : State) (a : Nat) (l : List Byte) : (s.dispPut a l).linkUp = s.linkUp := rfl
@[simp] theorem State.dispPut_epoch (s : State) (a : Nat) (l : List Byte) : (s.dispPut a l).epoch = s.epoch := rfl
@[simp] theorem State.dispPut_ts (s : State) (a : Nat) (l : List Byte) : (s.dispPut a l).ts = s.ts := rfl
@[simp] theorem State.dispPut_trimPhase (s : State) (a : Nat) (l : List Byte) : (s.dispPut a l).trimPhase = s.trimPhase := rfl
@[simp] theorem State.dispPut_readShadow (s : State) (a : Nat) (l : List Byte) : (s.dispPut a l).readShadow = s.readShadow := rfl
@[simp] theorem State.dispPut_writeShadow (s : State) (a : Nat) (l : List Byte) : (s.dispPut a l).writeShadow = s.writeShadow := rfl
@[simp] theorem State.dispPut_held (s : State) (a : Nat) (l : List Byte) : (s.dispPut a l).held = s.held := rfl
@[simp] theorem State.dispPut_sealEn (s : State) (a : Nat) (l : List Byte) : (s.dispPut a l).sealEn = s.sealEn := rfl
@[simp] theorem State.dispPut_fresh (s : State) (a : Nat) (l : List Byte) : (s.dispPut a l).fresh = s.fresh := rfl
@[simp] theorem State.dispPut_ms (s : State) (a : Nat) (l : List Byte) : (s.dispPut a l).ms = s.ms := rfl
@[simp] theorem State.dispPut_cal (s : State) (a : Nat) (l : List Byte) : (s.dispPut a l).cal = s.cal := rfl
@[simp] theorem State.dispPut_legal (s : State) (a : Nat) (l : List Byte) : (s.dispPut a l).legal = s.legal := rfl
@[simp] theorem State.dispPut_mt (s : State) (a : Nat) (l : List Byte) : (s.dispPut a l).mt = s.mt := rfl
@[simp] theorem State.dispPut_pf (s : State) (a : Nat) (l : List Byte) : (s.dispPut a l).pf = s.pf := rfl
@[simp] theorem State.dispPut_nv (s : State) (a : Nat) (l : List Byte) : (s.dispPut a l).nv = s.nv := rfl
@[simp] theorem State.dispPut_outlets (s : State) (a : Nat) (l : List Byte) : (s.dispPut a l).outlets = s.outlets := rfl
@[simp] theorem State.dispPut_rcm (s : State) (a : Nat) (l : List Byte) : (s.dispPut a l).rcm = s.rcm := rfl
@[simp] theorem State.dispPut_se (s : State) (a : Nat) (l : List Byte) : (s.dispPut a l).se = s.se := rfl
@[simp] theorem State.dispPut_sl (s : State) (a : Nat) (l : List Byte) : (s.dispPut a l).sl = s.sl := rfl
@[simp] theorem State.dispPut_tam (s : State) (a : Nat) (l : List Byte) : (s.dispPut a l).tam = s.tam := rfl
@[simp] theorem State.dispPut_pq (s : State) (a : Nat) (l : List Byte) : (s.dispPut a l).pq = s.pq := rfl
@[simp] theorem State.dispPut_lm (s : State) (a : Nat) (l : List Byte) : (s.dispPut a l).lm = s.lm := rfl
@[simp] theorem State.dispPut_boot (s : State) (a : Nat) (l : List Byte) : (s.dispPut a l).boot = s.boot := rfl
@[simp] theorem State.dispPut_lcd (s : State) (a : Nat) (l : List Byte) : (s.dispPut a l).lcd = s.lcd := rfl
@[simp] theorem State.dispPut_plc (s : State) (a : Nat) (l : List Byte) : (s.dispPut a l).plc = s.plc := rfl
@[simp] theorem State.dispPut_msh (s : State) (a : Nat) (l : List Byte) : (s.dispPut a l).msh = s.msh := rfl
@[simp] theorem State.dispPut_dma (s : State) (a : Nat) (l : List Byte) : (s.dispPut a l).dma = s.dma := rfl
@[simp] theorem State.dispPut_pending (s : State) (a : Nat) (l : List Byte) : (s.dispPut a l).pending = s.pending := rfl
@[simp] theorem State.dispPut_ring (s : State) (a : Nat) (l : List Byte) (e : Nat) : (s.dispPut a l).ring e = s.ring e := rfl
@[simp] theorem State.dispPut_reg (s : State) (a : Nat) (l : List Byte) (b : Nat) : (s.dispPut a l).reg b = s.reg b := rfl
@[simp] theorem State.dispPut_sramByte (s : State) (a : Nat) (l : List Byte) (b : Nat) : (s.dispPut a l).sramByte b = s.sramByte b := rfl
@[simp] theorem State.dispPut_outlet (s : State) (a : Nat) (l : List Byte) (j : Nat) : (s.dispPut a l).outlet j = s.outlet j := rfl
@[simp] theorem State.dispPut_rc (s : State) (a : Nat) (l : List Byte) (j : Nat) : (s.dispPut a l).rc j = s.rc j := rfl
@[simp] theorem State.dispPut_free (s : State) (a : Nat) (l : List Byte) : (s.dispPut a l).free = s.free := rfl
@[simp] theorem State.dispPut_get (s : State) (a : Nat) (l : List Byte) (g : Fld) : (s.dispPut a l).get g = s.get g := rfl
@[simp] theorem State.dispPut_on (s : State) (a : Nat) (l : List Byte) (g : Fld) : (s.dispPut a l).on g = s.on g := rfl

-- setOutlet
@[simp] theorem State.setOutlet_regs (s : State) (k : Nat) (x : Outlet) : (s.setOutlet k x).regs = s.regs := rfl
@[simp] theorem State.setOutlet_rings (s : State) (k : Nat) (x : Outlet) : (s.setOutlet k x).rings = s.rings := rfl
@[simp] theorem State.setOutlet_sram (s : State) (k : Nat) (x : Outlet) : (s.setOutlet k x).sram = s.sram := rfl
@[simp] theorem State.setOutlet_dsram (s : State) (k : Nat) (x : Outlet) : (s.setOutlet k x).dsram = s.dsram := rfl
@[simp] theorem State.setOutlet_irqLow (s : State) (k : Nat) (x : Outlet) : (s.setOutlet k x).irqLow = s.irqLow := rfl
@[simp] theorem State.setOutlet_irqPulse (s : State) (k : Nat) (x : Outlet) : (s.setOutlet k x).irqPulse = s.irqPulse := rfl
@[simp] theorem State.setOutlet_irqSeen (s : State) (k : Nat) (x : Outlet) : (s.setOutlet k x).irqSeen = s.irqSeen := rfl
@[simp] theorem State.setOutlet_resp (s : State) (k : Nat) (x : Outlet) : (s.setOutlet k x).resp = s.resp := rfl
@[simp] theorem State.setOutlet_linkUp (s : State) (k : Nat) (x : Outlet) : (s.setOutlet k x).linkUp = s.linkUp := rfl
@[simp] theorem State.setOutlet_epoch (s : State) (k : Nat) (x : Outlet) : (s.setOutlet k x).epoch = s.epoch := rfl
@[simp] theorem State.setOutlet_ts (s : State) (k : Nat) (x : Outlet) : (s.setOutlet k x).ts = s.ts := rfl
@[simp] theorem State.setOutlet_trimPhase (s : State) (k : Nat) (x : Outlet) : (s.setOutlet k x).trimPhase = s.trimPhase := rfl
@[simp] theorem State.setOutlet_readShadow (s : State) (k : Nat) (x : Outlet) : (s.setOutlet k x).readShadow = s.readShadow := rfl
@[simp] theorem State.setOutlet_writeShadow (s : State) (k : Nat) (x : Outlet) : (s.setOutlet k x).writeShadow = s.writeShadow := rfl
@[simp] theorem State.setOutlet_held (s : State) (k : Nat) (x : Outlet) : (s.setOutlet k x).held = s.held := rfl
@[simp] theorem State.setOutlet_sealEn (s : State) (k : Nat) (x : Outlet) : (s.setOutlet k x).sealEn = s.sealEn := rfl
@[simp] theorem State.setOutlet_fresh (s : State) (k : Nat) (x : Outlet) : (s.setOutlet k x).fresh = s.fresh := rfl
@[simp] theorem State.setOutlet_ms (s : State) (k : Nat) (x : Outlet) : (s.setOutlet k x).ms = s.ms := rfl
@[simp] theorem State.setOutlet_cal (s : State) (k : Nat) (x : Outlet) : (s.setOutlet k x).cal = s.cal := rfl
@[simp] theorem State.setOutlet_legal (s : State) (k : Nat) (x : Outlet) : (s.setOutlet k x).legal = s.legal := rfl
@[simp] theorem State.setOutlet_mt (s : State) (k : Nat) (x : Outlet) : (s.setOutlet k x).mt = s.mt := rfl
@[simp] theorem State.setOutlet_pf (s : State) (k : Nat) (x : Outlet) : (s.setOutlet k x).pf = s.pf := rfl
@[simp] theorem State.setOutlet_nv (s : State) (k : Nat) (x : Outlet) : (s.setOutlet k x).nv = s.nv := rfl
@[simp] theorem State.setOutlet_rcm (s : State) (k : Nat) (x : Outlet) : (s.setOutlet k x).rcm = s.rcm := rfl
@[simp] theorem State.setOutlet_se (s : State) (k : Nat) (x : Outlet) : (s.setOutlet k x).se = s.se := rfl
@[simp] theorem State.setOutlet_sl (s : State) (k : Nat) (x : Outlet) : (s.setOutlet k x).sl = s.sl := rfl
@[simp] theorem State.setOutlet_tam (s : State) (k : Nat) (x : Outlet) : (s.setOutlet k x).tam = s.tam := rfl
@[simp] theorem State.setOutlet_pq (s : State) (k : Nat) (x : Outlet) : (s.setOutlet k x).pq = s.pq := rfl
@[simp] theorem State.setOutlet_lm (s : State) (k : Nat) (x : Outlet) : (s.setOutlet k x).lm = s.lm := rfl
@[simp] theorem State.setOutlet_boot (s : State) (k : Nat) (x : Outlet) : (s.setOutlet k x).boot = s.boot := rfl
@[simp] theorem State.setOutlet_lcd (s : State) (k : Nat) (x : Outlet) : (s.setOutlet k x).lcd = s.lcd := rfl
@[simp] theorem State.setOutlet_plc (s : State) (k : Nat) (x : Outlet) : (s.setOutlet k x).plc = s.plc := rfl
@[simp] theorem State.setOutlet_msh (s : State) (k : Nat) (x : Outlet) : (s.setOutlet k x).msh = s.msh := rfl
@[simp] theorem State.setOutlet_dma (s : State) (k : Nat) (x : Outlet) : (s.setOutlet k x).dma = s.dma := rfl
@[simp] theorem State.setOutlet_pending (s : State) (k : Nat) (x : Outlet) : (s.setOutlet k x).pending = s.pending := rfl
@[simp] theorem State.setOutlet_ring (s : State) (k : Nat) (x : Outlet) (e : Nat) : (s.setOutlet k x).ring e = s.ring e := rfl
@[simp] theorem State.setOutlet_reg (s : State) (k : Nat) (x : Outlet) (b : Nat) : (s.setOutlet k x).reg b = s.reg b := rfl
@[simp] theorem State.setOutlet_sramByte (s : State) (k : Nat) (x : Outlet) (b : Nat) : (s.setOutlet k x).sramByte b = s.sramByte b := rfl
@[simp] theorem State.setOutlet_rc (s : State) (k : Nat) (x : Outlet) (j : Nat) : (s.setOutlet k x).rc j = s.rc j := rfl
@[simp] theorem State.setOutlet_free (s : State) (k : Nat) (x : Outlet) : (s.setOutlet k x).free = s.free := rfl
@[simp] theorem State.setOutlet_get (s : State) (k : Nat) (x : Outlet) (g : Fld) : (s.setOutlet k x).get g = s.get g := rfl
@[simp] theorem State.setOutlet_on (s : State) (k : Nat) (x : Outlet) (g : Fld) : (s.setOutlet k x).on g = s.on g := rfl

-- setRc
@[simp] theorem State.setRc_regs (s : State) (k : Nat) (x : Rcm) : (s.setRc k x).regs = s.regs := rfl
@[simp] theorem State.setRc_rings (s : State) (k : Nat) (x : Rcm) : (s.setRc k x).rings = s.rings := rfl
@[simp] theorem State.setRc_sram (s : State) (k : Nat) (x : Rcm) : (s.setRc k x).sram = s.sram := rfl
@[simp] theorem State.setRc_dsram (s : State) (k : Nat) (x : Rcm) : (s.setRc k x).dsram = s.dsram := rfl
@[simp] theorem State.setRc_irqLow (s : State) (k : Nat) (x : Rcm) : (s.setRc k x).irqLow = s.irqLow := rfl
@[simp] theorem State.setRc_irqPulse (s : State) (k : Nat) (x : Rcm) : (s.setRc k x).irqPulse = s.irqPulse := rfl
@[simp] theorem State.setRc_irqSeen (s : State) (k : Nat) (x : Rcm) : (s.setRc k x).irqSeen = s.irqSeen := rfl
@[simp] theorem State.setRc_resp (s : State) (k : Nat) (x : Rcm) : (s.setRc k x).resp = s.resp := rfl
@[simp] theorem State.setRc_linkUp (s : State) (k : Nat) (x : Rcm) : (s.setRc k x).linkUp = s.linkUp := rfl
@[simp] theorem State.setRc_epoch (s : State) (k : Nat) (x : Rcm) : (s.setRc k x).epoch = s.epoch := rfl
@[simp] theorem State.setRc_ts (s : State) (k : Nat) (x : Rcm) : (s.setRc k x).ts = s.ts := rfl
@[simp] theorem State.setRc_trimPhase (s : State) (k : Nat) (x : Rcm) : (s.setRc k x).trimPhase = s.trimPhase := rfl
@[simp] theorem State.setRc_readShadow (s : State) (k : Nat) (x : Rcm) : (s.setRc k x).readShadow = s.readShadow := rfl
@[simp] theorem State.setRc_writeShadow (s : State) (k : Nat) (x : Rcm) : (s.setRc k x).writeShadow = s.writeShadow := rfl
@[simp] theorem State.setRc_held (s : State) (k : Nat) (x : Rcm) : (s.setRc k x).held = s.held := rfl
@[simp] theorem State.setRc_sealEn (s : State) (k : Nat) (x : Rcm) : (s.setRc k x).sealEn = s.sealEn := rfl
@[simp] theorem State.setRc_fresh (s : State) (k : Nat) (x : Rcm) : (s.setRc k x).fresh = s.fresh := rfl
@[simp] theorem State.setRc_ms (s : State) (k : Nat) (x : Rcm) : (s.setRc k x).ms = s.ms := rfl
@[simp] theorem State.setRc_cal (s : State) (k : Nat) (x : Rcm) : (s.setRc k x).cal = s.cal := rfl
@[simp] theorem State.setRc_legal (s : State) (k : Nat) (x : Rcm) : (s.setRc k x).legal = s.legal := rfl
@[simp] theorem State.setRc_mt (s : State) (k : Nat) (x : Rcm) : (s.setRc k x).mt = s.mt := rfl
@[simp] theorem State.setRc_pf (s : State) (k : Nat) (x : Rcm) : (s.setRc k x).pf = s.pf := rfl
@[simp] theorem State.setRc_nv (s : State) (k : Nat) (x : Rcm) : (s.setRc k x).nv = s.nv := rfl
@[simp] theorem State.setRc_outlets (s : State) (k : Nat) (x : Rcm) : (s.setRc k x).outlets = s.outlets := rfl
@[simp] theorem State.setRc_se (s : State) (k : Nat) (x : Rcm) : (s.setRc k x).se = s.se := rfl
@[simp] theorem State.setRc_sl (s : State) (k : Nat) (x : Rcm) : (s.setRc k x).sl = s.sl := rfl
@[simp] theorem State.setRc_tam (s : State) (k : Nat) (x : Rcm) : (s.setRc k x).tam = s.tam := rfl
@[simp] theorem State.setRc_pq (s : State) (k : Nat) (x : Rcm) : (s.setRc k x).pq = s.pq := rfl
@[simp] theorem State.setRc_lm (s : State) (k : Nat) (x : Rcm) : (s.setRc k x).lm = s.lm := rfl
@[simp] theorem State.setRc_boot (s : State) (k : Nat) (x : Rcm) : (s.setRc k x).boot = s.boot := rfl
@[simp] theorem State.setRc_lcd (s : State) (k : Nat) (x : Rcm) : (s.setRc k x).lcd = s.lcd := rfl
@[simp] theorem State.setRc_plc (s : State) (k : Nat) (x : Rcm) : (s.setRc k x).plc = s.plc := rfl
@[simp] theorem State.setRc_msh (s : State) (k : Nat) (x : Rcm) : (s.setRc k x).msh = s.msh := rfl
@[simp] theorem State.setRc_dma (s : State) (k : Nat) (x : Rcm) : (s.setRc k x).dma = s.dma := rfl
@[simp] theorem State.setRc_pending (s : State) (k : Nat) (x : Rcm) : (s.setRc k x).pending = s.pending := rfl
@[simp] theorem State.setRc_ring (s : State) (k : Nat) (x : Rcm) (e : Nat) : (s.setRc k x).ring e = s.ring e := rfl
@[simp] theorem State.setRc_reg (s : State) (k : Nat) (x : Rcm) (b : Nat) : (s.setRc k x).reg b = s.reg b := rfl
@[simp] theorem State.setRc_sramByte (s : State) (k : Nat) (x : Rcm) (b : Nat) : (s.setRc k x).sramByte b = s.sramByte b := rfl
@[simp] theorem State.setRc_outlet (s : State) (k : Nat) (x : Rcm) (j : Nat) : (s.setRc k x).outlet j = s.outlet j := rfl
@[simp] theorem State.setRc_free (s : State) (k : Nat) (x : Rcm) : (s.setRc k x).free = s.free := rfl
@[simp] theorem State.setRc_get (s : State) (k : Nat) (x : Rcm) (g : Fld) : (s.setRc k x).get g = s.get g := rfl
@[simp] theorem State.setRc_on (s : State) (k : Nat) (x : Rcm) (g : Fld) : (s.setRc k x).on g = s.on g := rfl

-- settle: only the interrupt line's own fields move
@[simp] theorem State.settle_regs (s : State) : s.settle.regs = s.regs := rfl
@[simp] theorem State.settle_rings (s : State) : s.settle.rings = s.rings := rfl
@[simp] theorem State.settle_sram (s : State) : s.settle.sram = s.sram := rfl
@[simp] theorem State.settle_dsram (s : State) : s.settle.dsram = s.dsram := rfl
@[simp] theorem State.settle_resp (s : State) : s.settle.resp = s.resp := rfl
@[simp] theorem State.settle_linkUp (s : State) : s.settle.linkUp = s.linkUp := rfl
@[simp] theorem State.settle_epoch (s : State) : s.settle.epoch = s.epoch := rfl
@[simp] theorem State.settle_ts (s : State) : s.settle.ts = s.ts := rfl
@[simp] theorem State.settle_trimPhase (s : State) : s.settle.trimPhase = s.trimPhase := rfl
@[simp] theorem State.settle_readShadow (s : State) : s.settle.readShadow = s.readShadow := rfl
@[simp] theorem State.settle_writeShadow (s : State) : s.settle.writeShadow = s.writeShadow := rfl
@[simp] theorem State.settle_held (s : State) : s.settle.held = s.held := rfl
@[simp] theorem State.settle_sealEn (s : State) : s.settle.sealEn = s.sealEn := rfl
@[simp] theorem State.settle_fresh (s : State) : s.settle.fresh = s.fresh := rfl
@[simp] theorem State.settle_ms (s : State) : s.settle.ms = s.ms := rfl
@[simp] theorem State.settle_cal (s : State) : s.settle.cal = s.cal := rfl
@[simp] theorem State.settle_legal (s : State) : s.settle.legal = s.legal := rfl
@[simp] theorem State.settle_mt (s : State) : s.settle.mt = s.mt := rfl
@[simp] theorem State.settle_pf (s : State) : s.settle.pf = s.pf := rfl
@[simp] theorem State.settle_nv (s : State) : s.settle.nv = s.nv := rfl
@[simp] theorem State.settle_outlets (s : State) : s.settle.outlets = s.outlets := rfl
@[simp] theorem State.settle_rcm (s : State) : s.settle.rcm = s.rcm := rfl
@[simp] theorem State.settle_se (s : State) : s.settle.se = s.se := rfl
@[simp] theorem State.settle_sl (s : State) : s.settle.sl = s.sl := rfl
@[simp] theorem State.settle_tam (s : State) : s.settle.tam = s.tam := rfl
@[simp] theorem State.settle_pq (s : State) : s.settle.pq = s.pq := rfl
@[simp] theorem State.settle_lm (s : State) : s.settle.lm = s.lm := rfl
@[simp] theorem State.settle_boot (s : State) : s.settle.boot = s.boot := rfl
@[simp] theorem State.settle_lcd (s : State) : s.settle.lcd = s.lcd := rfl
@[simp] theorem State.settle_plc (s : State) : s.settle.plc = s.plc := rfl
@[simp] theorem State.settle_msh (s : State) : s.settle.msh = s.msh := rfl
@[simp] theorem State.settle_dma (s : State) : s.settle.dma = s.dma := rfl
@[simp] theorem State.settle_pending (s : State) : s.settle.pending = s.pending := rfl
@[simp] theorem State.settle_ring (s : State) (e : Nat) : s.settle.ring e = s.ring e := rfl
@[simp] theorem State.settle_reg (s : State) (b : Nat) : s.settle.reg b = s.reg b := rfl
@[simp] theorem State.settle_sramByte (s : State) (b : Nat) : s.settle.sramByte b = s.sramByte b := rfl
@[simp] theorem State.settle_outlet (s : State) (j : Nat) : s.settle.outlet j = s.outlet j := rfl
@[simp] theorem State.settle_rc (s : State) (j : Nat) : s.settle.rc j = s.rc j := rfl
@[simp] theorem State.settle_free (s : State) : s.settle.free = s.free := rfl
@[simp] theorem State.settle_get (s : State) (g : Fld) : s.settle.get g = s.get g := rfl
@[simp] theorem State.settle_on (s : State) (g : Fld) : s.settle.on g = s.on g := rfl

-- Reads after writes

theorem State.setReg_reg (s : State) (a b : Nat) (w : W32) : (s.setReg a w).reg b = if b = a then w else s.reg b := by
  simp only [State.reg, State.setReg, spRead_spWrite]

@[simp] theorem State.setReg_reg_same (s : State) (a : Nat) (w : W32) : (s.setReg a w).reg a = w := by simp [State.setReg_reg]

theorem State.setReg_reg_other (s : State) (a b : Nat) (w : W32) (h : b ≠ a) : (s.setReg a w).reg b = s.reg b := by
  simp [State.setReg_reg, h]

theorem State.put_reg_other (s : State) (f : Fld) (v b : Nat) (h : b ≠ f.addr) : (s.put f v).reg b = s.reg b :=
  State.setReg_reg_other s _ _ _ h

theorem State.put_get_other (s : State) (f g : Fld) (v : Nat) (h : g.addr ≠ f.addr) : (s.put f v).get g = s.get g := by
  simp only [State.get, State.put_reg_other s f v g.addr h]

theorem State.put_on_other (s : State) (f g : Fld) (v : Nat) (h : g.addr ≠ f.addr) : (s.put f v).on g = s.on g := by
  simp only [State.on, State.put_get_other s f g v h]

@[simp] theorem State.setOutlet_outlet_same (s : State) (k : Nat) (x : Outlet) : (s.setOutlet k x).outlet k = x := by
  simp [State.outlet, State.setOutlet]

theorem State.setOutlet_outlet_other (s : State) (k j : Nat) (x : Outlet) (h : j ≠ k) : (s.setOutlet k x).outlet j = s.outlet j := by
  simp [State.outlet, State.setOutlet, spRead_spWrite, h]

@[simp] theorem State.setRc_rc_same (s : State) (k : Nat) (x : Rcm) : (s.setRc k x).rc k = x := by simp [State.rc, State.setRc]

theorem State.setRc_rc_other (s : State) (k j : Nat) (x : Rcm) (h : j ≠ k) : (s.setRc k x).rc j = s.rc j := by
  simp [State.rc, State.setRc, spRead_spWrite, h]

@[simp] theorem State.setRing_ring_same (s : State) (e : Nat) (r : Ring) : (s.setRing e r).ring e = r := by
  simp [State.ring, State.setRing]

theorem State.setRing_ring_other (s : State) (e j : Nat) (r : Ring) (h : j ≠ e) : (s.setRing e r).ring j = s.ring j := by
  simp [State.ring, State.setRing, spRead_spWrite, h]

theorem State.take_ring_same (s : State) (e : Nat) : (s.take e).ring e = { s.ring e with frames := (s.ring e).frames.tail } := by
  simp [State.take]

theorem State.take_ring_other (s : State) (e j : Nat) (h : j ≠ e) : (s.take e).ring j = s.ring j := by
  simp [State.take, State.setRing_ring_other _ _ _ _ h]

-- Bit fields

theorem State.get_lt (s : State) (f : Fld) : s.get f < 2 ^ f.wid := getBits_lt _ _ _

theorem State.put_reg (s : State) (f : Fld) (v b : Nat) :
    (s.put f v).reg b = if b = f.addr then putBits (s.reg f.addr) f.lsb f.wid v else s.reg b := State.setReg_reg _ _ _ _

/-- A field reads back what was put into it, modulo its width. -/
theorem State.put_get_same (s : State) (f : Fld) (v : Nat) (h : f.lsb + f.wid ≤ 32) : (s.put f v).get f = v % 2 ^ f.wid := by
  simp only [State.get, State.put, State.setReg_reg_same, getBits_putBits _ _ _ _ h]

/-- A field of another register, or apart in the same one, reads as before. -/
theorem State.put_get_apart (s : State) (f g : Fld) (v : Nat) (h : f.lsb + f.wid ≤ 32)
    (ha : g.addr ≠ f.addr ∨ f.lsb + f.wid ≤ g.lsb ∨ g.lsb + g.wid ≤ f.lsb) : (s.put f v).get g = s.get g := by
  by_cases e : g.addr = f.addr
  · simp only [State.get, State.put_reg, e, if_true]
    exact getBits_putBits_apart _ _ _ _ _ _ h (by tauto)
  · exact State.put_get_other s f g v e

/-- A field in a register just written whole. -/
theorem State.setReg_get (s : State) (a : Nat) (w : W32) (f : Fld) :
    (s.setReg a w).get f = if f.addr = a then getBits w f.lsb f.wid else s.get f := by
  simp only [State.get, State.setReg_reg]; split <;> rfl

theorem State.inc_get_same (s : State) (f : Fld) (h : f.lsb + f.wid ≤ 32) : (s.inc f).get f = (s.get f + 1) % 2 ^ f.wid :=
  State.put_get_same s f _ h

theorem State.incSat_get_same (s : State) (f : Fld) (h : f.lsb + f.wid ≤ 32) :
    (s.incSat f).get f = satInc (2 ^ f.wid - 1) (s.get f) := by
  have hl := State.get_lt s f
  have hp : 0 < 2 ^ f.wid := Nat.two_pow_pos _
  rw [State.incSat, State.put_get_same s f _ h, Nat.mod_eq_of_lt]
  unfold satInc; split <;> omega

/-- An error record is in ERRCODE. -/
theorem State.err_code (s : State) (p c : Nat) : (s.err p c).get (hdrErrcode p) = c % 65536 := by
  rw [State.err, State.incSat, State.put_get_other _ _ _ _ (by simp [hdrErrcode, hdrErrcount]), State.put_get_same _ _ _ (by simp [hdrErrcode])]
  rfl

/-- And it counts in ERRCOUNT. -/
theorem State.err_count (s : State) (p c : Nat) : (s.err p c).get (hdrErrcount p) = satInc (2 ^ 32 - 1) (s.get (hdrErrcount p)) := by
  rw [State.err, State.incSat_get_same _ _ (by simp [hdrErrcount]), State.put_get_other _ _ _ _ (by simp [hdrErrcode, hdrErrcount])]
  rfl

/-- An occurrence sets its bit of IRQ_PEND. -/
theorem State.irq_pend (s : State) (p b : Nat) (h : b < 32) : (s.irq p b).get (hdrPend p b) = 1 := by
  rw [State.irq, State.incSat, State.put_get_other _ _ _ _ (by simp only [hdrPend, hdrEvcnt]; omega),
    State.put_get_same _ _ _ (by simp only [hdrPend]; omega)]
  rfl

/-- And it counts in its EVCNT field. -/
theorem State.irq_count (s : State) (p b : Nat) : (s.irq p b).get (hdrEvcnt p b) = satInc 255 (s.get (hdrEvcnt p b)) := by
  rw [State.irq, State.incSat_get_same _ _ (by simp only [hdrEvcnt]; omega), State.put_get_other _ _ _ _ (by simp only [hdrPend, hdrEvcnt]; omega)]
  rfl

-- The interrupt line

@[simp] theorem State.settle_conds (s : State) : s.settle.conds = s.conds := rfl

/-- Judged, IRQ_N is low or in its pulse exactly while a condition holds. -/
theorem State.settle_line (s : State) : (s.settle.irqLow || s.settle.irqPulse) = !s.conds.isEmpty := by
  show (s.line.1 || s.line.2.1) = _
  unfold State.line
  simp only
  split
  · rename_i h; simp [h]
  · rename_i h
    have : s.conds.isEmpty = false := by simpa using h
    split
    · simp [this]
    · split <;> simp [this]

theorem done_eq (s : State) : done s = .next s.settle := rfl

/-- A command of the fabric has its effect while the fabric runs. -/
theorem State.onFabric_runs (s : State) (f : State → Out) (h : s.runs = true) : s.onFabric f = f s := by simp [State.onFabric, h]

/-- And none while it does not. -/
theorem State.onFabric_idle (s : State) (f : State → Out) (h : s.runs = false) : s.onFabric f = .next s.settle := by
  simp [State.onFabric, h, done]

end Sys2Proof.Machine
end

