-- ==== Sys2Proof/Laws/Frame.lean ====
section
/-! SUPPORT. The closure of `Keeps` under each shared operation: what an operation may touch, said once. -/
namespace Sys2Proof.Machine

theorem Part.same_refl (s : State) (p : Part) : p.same s s := by cases p <;> simp [Part.same]

theorem Keeps.refl (s : State) (R : Nat → Prop) (E : List Nat) (P : List Part) : Keeps s s R E P :=
  ⟨fun _ _ => rfl, fun _ _ => rfl, fun p _ => Part.same_refl s p⟩

section
variable {s t : State} {R : Nat → Prop} {E : List Nat} {P : List Part}

theorem Keeps.mono {R' : Nat → Prop} {E' : List Nat} {P' : List Part} (h : Keeps s t R E P)
    (hR : ∀ a, R a → R' a) (hE : ∀ e, e ∈ E → e ∈ E') (hP : ∀ p, p ∈ P → p ∈ P') : Keeps s t R' E' P' :=
  ⟨fun a ha => h.regs a fun hr => ha (hR a hr), fun e he => h.rings e fun hr => he (hE e hr), fun p hp => h.parts p fun hr => hp (hP p hr)⟩

theorem Keeps.trans {u : State} (h : Keeps s t R E P) (h' : Keeps t u R E P) : Keeps s u R E P :=
  ⟨fun a ha => (h'.regs a ha).trans (h.regs a ha), fun e he => (h'.rings e he).trans (h.rings e he), fun p hp => by
    have h1 := h.parts p hp; have h2 := h'.parts p hp
    cases p <;> simp_all [Part.same]⟩

/-- A state that differs from `t` in the register bank only, within `R`. -/
theorem Keeps.step_regs {u : State} (h : Keeps s t R E P) (hr : ∀ a, ¬ R a → u.reg a = t.reg a)
    (hu : u = { t with regs := u.regs }) : Keeps s u R E P := by
  refine h.trans ⟨hr, fun e _ => ?_, fun p _ => ?_⟩
  · rw [hu]; rfl
  · rw [hu]; cases p <;> simp [Part.same, State.sramByte]

theorem Keeps.setReg (h : Keeps s t R E P) (a : Nat) (w : W32) (ha : R a) : Keeps s (t.setReg a w) R E P :=
  h.step_regs (fun b hb => State.setReg_reg_other t a b w fun e => hb (e ▸ ha)) rfl

theorem Keeps.put (h : Keeps s t R E P) (f : Fld) (v : Nat) (hf : R f.addr) : Keeps s (t.put f v) R E P := h.setReg _ _ hf

theorem Keeps.putInt (h : Keeps s t R E P) (f : Fld) (v : Int) (hf : R f.addr) : Keeps s (t.putInt f v) R E P := h.put _ _ hf

theorem Keeps.inc (h : Keeps s t R E P) (f : Fld) (hf : R f.addr) : Keeps s (t.inc f) R E P := h.put _ _ hf

theorem Keeps.incSat (h : Keeps s t R E P) (f : Fld) (hf : R f.addr) : Keeps s (t.incSat f) R E P := h.put _ _ hf

theorem Keeps.setReg64 (h : Keeps s t R E P) (a v : Nat) (ha : R a) (hb : R (a + 4)) : Keeps s (t.setReg64 a v) R E P :=
  (h.setReg _ _ ha).setReg _ _ hb

theorem Keeps.bumpSeq (h : Keeps s t R E P) (p : Nat) (hp : R (p * 4096 + 0x024)) : Keeps s (t.bumpSeq p) R E P := h.inc _ hp

theorem Keeps.err (h : Keeps s t R E P) (p c : Nat) (h1 : R (p * 4096 + 0x01C)) (h2 : R (p * 4096 + 0x020)) : Keeps s (t.err p c) R E P :=
  (h.put _ _ h1).incSat _ h2

theorem Keeps.irq (h : Keeps s t R E P) (p b : Nat) (h1 : R (p * 4096 + 0x018)) (h2 : R (p * 4096 + 0x040 + 4 * (b / 4))) :
    Keeps s (t.irq p b) R E P := (h.put _ _ h1).incSat _ h2

/-- A state that differs from `t` in the rings only, within `E`. -/
theorem Keeps.step_rings {u : State} (h : Keeps s t R E P) (hr : ∀ e, e ∉ E → u.ring e = t.ring e)
    (hu : u = { t with rings := u.rings }) : Keeps s u R E P := by
  refine h.trans ⟨fun a _ => ?_, hr, fun p _ => ?_⟩
  · rw [hu]; rfl
  · rw [hu]; cases p <;> simp [Part.same, State.sramByte]

theorem Keeps.setRing (h : Keeps s t R E P) (e : Nat) (r : Ring) (he : e ∈ E) : Keeps s (t.setRing e r) R E P :=
  h.step_rings (fun b hb => State.setRing_ring_other t e b r fun x => hb (x ▸ he)) rfl

theorem Keeps.take (h : Keeps s t R E P) (e : Nat) (he : e ∈ E) : Keeps s (t.take e) R E P := h.setRing _ _ he

theorem Keeps.settle (h : Keeps s t R E P) : Keeps s t.settle R E P :=
  h.trans ⟨fun _ _ => by simp, fun _ _ => by simp, fun p _ => by cases p <;> simp [Part.same]⟩

theorem Keeps.took (h : Keeps s t R E P) (hf : Part.fresh ∈ P) : Keeps s t.took R E P :=
  h.trans ⟨fun _ _ => rfl, fun _ _ => rfl, fun p hp => by cases p <;> simp_all [Part.same]⟩

theorem Keeps.markLost (h : Keeps s t R E P) (e : Nat) (he : e ∈ E) (hl : ∀ a, lostRegs a → R a) : Keeps s (t.markLost e) R E P := by
  unfold State.markLost
  simp only
  split
  · exact h
  · exact (h.setRing _ _ he).irq _ _ (hl _ (.inl rfl)) (hl _ (.inr rfl))

theorem Keeps.emitVer (h : Keeps s t R E P) (v e typ : Nat) (ref : Option Nat) (st : Nat) (pl : List Byte) (he : e ∈ E)
    (hl : ∀ a, lostRegs a → R a) : Keeps s (t.emitVer v e typ ref st pl) R E P := by
  unfold State.emitVer
  simp only
  split <;> exact (h.markLost e he hl).setRing _ _ he

theorem Keeps.emit (h : Keeps s t R E P) (e typ : Nat) (ref : Option Nat) (st : Nat) (pl : List Byte) (he : e ∈ E)
    (hl : ∀ a, lostRegs a → R a) : Keeps s (t.emit e typ ref st pl) R E P := h.emitVer _ _ _ _ _ _ he hl

theorem Keeps.event (h : Keeps s t R E P) (p b u : Nat) (he : 2 ∈ E) (hl : ∀ a, lostRegs a → R a)
    (h1 : R (p * 4096 + 0x018)) (h2 : R (p * 4096 + 0x040 + 4 * (b / 4))) : Keeps s (t.event p b u) R E P :=
  (h.irq p b h1 h2).emit _ _ _ _ _ he hl

theorem Keeps.outletEvent (h : Keeps s t R E P) (p b k : Nat) (he : 3 + k ∈ E) (hl : ∀ a, lostRegs a → R a)
    (h1 : R (p * 4096 + 0x018)) (h2 : R (p * 4096 + 0x040 + 4 * (b / 4))) : Keeps s (t.outletEvent p b k) R E P :=
  (h.irq p b h1 h2).emit _ _ _ _ _ he hl

theorem Keeps.faultFrame (h : Keeps s t R E P) (code : Nat) (on : Bool) (cause u l : Nat) (he : 2 ∈ E)
    (hl : ∀ a, lostRegs a → R a) : Keeps s (t.faultFrame code on cause u l) R E P := h.emit _ _ _ _ _ he hl

theorem Keeps.setOutlet (h : Keeps s t R E P) (k : Nat) (x : Outlet) (hp : Part.outlets ∈ P) : Keeps s (t.setOutlet k x) R E P :=
  h.trans ⟨fun _ _ => rfl, fun _ _ => rfl, fun p hp' => by cases p <;> simp_all [Part.same]⟩

theorem Keeps.setRc (h : Keeps s t R E P) (k : Nat) (x : Rcm) (hp : Part.rcm ∈ P) : Keeps s (t.setRc k x) R E P :=
  h.trans ⟨fun _ _ => rfl, fun _ _ => rfl, fun p hp' => by cases p <;> simp_all [Part.same]⟩

/-- A state that differs from `t` beside the registers and the rings only, within `P`. -/
theorem Keeps.fields {sram : List Host.Cell} {dsram : List Host.Cell} {irqLow : Bool} {irqPulse : Bool} {irqSeen : List Nat} {resp
    : List Byte} {linkUp : Bool} {epoch : Nat} {ts : Nat} {trimPhase : Nat} {readShadow : List Shadow} {writeShadow : List Shadow}
    {held : List HeldWrite} {sealEn : Bool} {fresh : Nat} {ms : Measure} {cal : Cal} {legal : Legal} {mt : Metro} {pf : Pf} {nv :
    Storage} {outlets : List (Nat × Outlet)} {rcm : List (Nat × Rcm)} {se : Sessions} {sl : SealCore} {tam : Tamper} {pq : Pqe}
    {lm : Load} {boot : Boot} {lcd : Panel} {plc : Plc} {msh : Mesh} {dma : List (Nat × DmaChan)} {pending : List Instr}
    (h : Keeps s t R E P) (hp : ∀ p, p ∉ P → p.same t (State.mk t.regs t.rings sram dsram irqLow irqPulse irqSeen resp linkUp
    epoch ts trimPhase readShadow writeShadow held sealEn fresh ms cal legal mt pf nv outlets rcm se sl tam pq lm boot lcd plc msh
    dma pending)) :
    Keeps s (State.mk t.regs t.rings sram dsram irqLow irqPulse irqSeen resp linkUp epoch ts trimPhase readShadow writeShadow held
    sealEn fresh ms cal legal mt pf nv outlets rcm se sl tam pq lm boot lcd plc msh dma pending) R E P :=
  h.trans ⟨fun _ _ => rfl, fun _ _ => rfl, hp⟩

/-- A loop whose every turn stays within the bounds. -/
theorem Keeps.foldl {α : Type} (f : State → α → State) (hf : ∀ u x, Keeps s u R E P → Keeps s (f u x) R E P) (l : List α) :
    ∀ t : State, Keeps s t R E P → Keeps s (l.foldl f t) R E P := by
  induction l with
  | nil => exact fun _ h => h
  | cons x l ih => exact fun t h => ih _ (hf t x h)

theorem Keeps.ite {c : Prop} [Decidable c] {u v : State} (h1 : Keeps s u R E P) (h2 : Keeps s v R E P) :
    Keeps s (if c then u else v) R E P := by split <;> assumption

end

end Sys2Proof.Machine
end

