-- ==== Sys2Proof/Laws/Rings.lean ====
section
/-! SUPPORT. What queueing a frame on a device-to-host ring does (R66, R68). -/
namespace Sys2Proof.Machine

/-- A ring with nothing lost writes no lost marker. -/
theorem State.markLost_idle (s : State) (e : Nat) (h : (s.ring e).lost = 0) : s.markLost e = s := by
  simp [State.markLost, Ring.mark, h]

/-- A ring that takes a record holds it, last. -/
theorem State.emit_takes (s : State) (e typ : Nat) (ref : Option Nat) (st : Nat) (pl : List Byte) (h : s.takes e) :
    s.emit e typ ref st pl = s.setRing e ((s.ring e).enter
      { typ := typ, seq := 0, ref := ref, epoch := s.epoch, status := st, ver := s.ver, payload := pad4 pl }) := by
  simp only [State.emit, State.emitVer, State.markLost_idle s e h.1, h.1, h.2, and_self, if_true]

theorem State.emit_queued (s : State) (e typ : Nat) (ref : Option Nat) (st : Nat) (pl : List Byte) (h : s.takes e) :
    Queued s (s.emit e typ ref st pl) e typ ref st pl := by
  rw [State.emit_takes s e typ ref st pl h]
  simp [Queued, Ring.enter]

@[simp] theorem State.emit_ring_other (s : State) (e typ j : Nat) (ref : Option Nat) (st : Nat) (pl : List Byte) (h : j ≠ e) :
    (s.emit e typ ref st pl).ring j = s.ring j :=
  (Keeps.emit (Keeps.refl s (fun _ => True) [e] []) e typ ref st pl (by simp) (fun _ _ => trivial)).rings j (by simpa using h)

/-- Queueing touches no register but HLK's record of a lost marker. -/
theorem State.emit_reg (s : State) (e typ a : Nat) (ref : Option Nat) (st : Nat) (pl : List Byte) (h : ¬ lostRegs a) :
    (s.emit e typ ref st pl).reg a = s.reg a :=
  (Keeps.emit (Keeps.refl s lostRegs [e] []) e typ ref st pl (by simp) (fun _ h => h)).regs a h

theorem State.emit_get (s : State) (e typ : Nat) (ref : Option Nat) (st : Nat) (pl : List Byte) (f : Fld) (h : ¬ lostRegs f.addr) :
    (s.emit e typ ref st pl).get f = s.get f := by simp only [State.get, State.emit_reg s e typ f.addr ref st pl h]

end Sys2Proof.Machine
end

