-- ==== Sys2Proof/Laws/Fields.lean ====
section
/-! SUPPORT. What a field reads after each shared operation on the registers and rings, and what an event queues. -/
namespace Sys2Proof.Machine

theorem State.inc_get_apart (s : State) (f g : Fld) (h : f.lsb + f.wid ≤ 32)
    (ha : g.addr ≠ f.addr ∨ f.lsb + f.wid ≤ g.lsb ∨ g.lsb + g.wid ≤ f.lsb) : (s.inc f).get g = s.get g := State.put_get_apart s f g _ h ha

theorem State.incSat_get_apart (s : State) (f g : Fld) (h : f.lsb + f.wid ≤ 32)
    (ha : g.addr ≠ f.addr ∨ f.lsb + f.wid ≤ g.lsb ∨ g.lsb + g.wid ≤ f.lsb) : (s.incSat f).get g = s.get g := State.put_get_apart s f g _ h ha

theorem State.putInt_get_apart (s : State) (f g : Fld) (v : Int) (h : f.lsb + f.wid ≤ 32)
    (ha : g.addr ≠ f.addr ∨ f.lsb + f.wid ≤ g.lsb ∨ g.lsb + g.wid ≤ f.lsb) : (s.putInt f v).get g = s.get g := State.put_get_apart s f g _ h ha

theorem State.bumpSeq_get_other (s : State) (p : Nat) (g : Fld) (h : g.addr ≠ p * 4096 + 0x024) : (s.bumpSeq p).get g = s.get g :=
  State.put_get_other s (hdrSeq p) g _ h

/-- A change of a page counts in its SEQ (R45). -/
theorem State.bumpSeq_get_seq (s : State) (p : Nat) : (s.bumpSeq p).get (hdrSeq p) = (s.get (hdrSeq p) + 1) % 2 ^ 32 :=
  State.inc_get_same s (hdrSeq p) (by simp [hdrSeq])

theorem State.err_get_other (s : State) (p c : Nat) (g : Fld) (h : g.addr ≠ p * 4096 + 0x01C) (h' : g.addr ≠ p * 4096 + 0x020) :
    (s.err p c).get g = s.get g := by
  rw [State.err, State.incSat, State.put_get_other _ _ _ _ h', State.put_get_other _ _ _ _ h]

theorem State.irq_get_other (s : State) (p b : Nat) (g : Fld) (h : g.addr ≠ p * 4096 + 0x018) (h' : g.addr ≠ p * 4096 + 0x040 + 4 * (b / 4)) :
    (s.irq p b).get g = s.get g := by
  rw [State.irq, State.incSat, State.put_get_other _ _ _ _ h', State.put_get_other _ _ _ _ h]

/-- An occurrence leaves every block register, at 0x100 or above, as it is. -/
theorem State.irq_get_block (s : State) (p b : Nat) (g : Fld) (h : 0x100 ≤ g.addr % 4096) (hb : b < 32) : (s.irq p b).get g = s.get g :=
  State.irq_get_other s p b g (by omega) (by omega)

theorem State.err_get_block (s : State) (p c : Nat) (g : Fld) (h : 0x100 ≤ g.addr % 4096) : (s.err p c).get g = s.get g :=
  State.err_get_other s p c g (by omega) (by omega)

theorem State.bumpSeq_get_block (s : State) (p : Nat) (g : Fld) (h : 0x100 ≤ g.addr % 4096) : (s.bumpSeq p).get g = s.get g :=
  State.bumpSeq_get_other s p g (by omega)

theorem State.emit_get_block (s : State) (e typ : Nat) (ref : Option Nat) (st : Nat) (pl : List Byte) (g : Fld) (h : 0x100 ≤ g.addr % 4096) :
    (s.emit e typ ref st pl).get g = s.get g := State.emit_get s e typ ref st pl g (by unfold lostRegs; omega)

theorem State.event_get_block (s : State) (p b u : Nat) (g : Fld) (h : 0x100 ≤ g.addr % 4096) (hb : b < 32) : (s.event p b u).get g = s.get g := by
  simp only [State.event, State.emit_get_block _ _ _ _ _ _ g h, State.irq_get_block s p b g h hb]

theorem State.faultFrame_get_block (s : State) (c : Nat) (o : Bool) (x u l : Nat) (g : Fld) (h : 0x100 ≤ g.addr % 4096) :
    (s.faultFrame c o x u l).get g = s.get g := State.emit_get_block _ _ _ _ _ _ g h

theorem State.event_ring_other (s : State) (p b u e : Nat) (h : e ≠ 2) : (s.event p b u).ring e = s.ring e := by
  simp only [State.event, State.emit_ring_other _ _ _ _ _ _ _ h, State.irq_ring]

/-- Ring geometry and version do not move with an occurrence. -/
theorem State.irq_takes (s : State) (p b e : Nat) (hb : b < 32) (he : e < 65) (h : s.takes e) : (s.irq p b).takes e := by
  have hs : (s.irq p b).slots e = s.slots e := by
    simp only [State.slots]; rw [State.irq_get_block]
    · simp only [F.HLKR_RING_CFG_COUNT_CODE]; omega
    · exact hb
  exact ⟨h.1, by rw [hs]; exact h.2⟩

theorem State.irq_ver (s : State) (p b : Nat) (hb : b < 32) : (s.irq p b).ver = s.ver := by
  simp only [State.ver]; rw [State.irq_get_block _ _ _ _ (by decide) hb]

/-- An event is queued on ring 2, its payload that of R582 (R66). -/
theorem State.event_queued (s : State) (p b u : Nat) (hb : b < 32) (h : s.takes 2) :
    Queued s (s.event p b u) 2 1 none 0 ((s.irq p b).eventPayload p b u) := by
  have := State.emit_queued (s.irq p b) 2 1 none 0 ((s.irq p b).eventPayload p b u) (State.irq_takes s p b 2 hb (by decide) h)
  simpa only [Queued, State.irq_ring, State.irq_epoch, State.irq_ver s p b hb, State.event] using this

/-- And raises its bit of IRQ_PEND. -/
theorem State.event_pend (s : State) (p b u : Nat) (hb : b < 32) (hp : p ≠ 4) : (s.event p b u).get (hdrPend p b) = 1 := by
  rw [State.event, State.emit_get]
  · exact State.irq_pend s p b hb
  · unfold lostRegs hdrPend; simp only; omega

end Sys2Proof.Machine
end

