-- ==== Sys2Proof/WellFormed.lean ====
section
/-! DEFINITION. Well-formed commands: what a command's operands can hold by the widths and counts the spec gives them. A command
that is not named here has operands that their types bound already. The meanings of Machine/ do not rest on this check: an
operand outside it is taken modulo its width or has no effect. -/
namespace Sys2Proof

/-- An aligned offset of the register space (R39, R40): pages 0x00 to 0x3B of 4 KiB. -/
def regAddrOk (a : Nat) : Bool := Decidable.decide (a < 60 * 4096) && Decidable.decide (a % 4 = 0)

/-- A page number (R40). -/
def pageOk (p : Nat) : Bool := Decidable.decide (p < 60)

/-- A 12-bit converter code (R272). -/
def codeOk (c : Nat) : Bool := Decidable.decide (c < 4096)

/-- A mesh address (R439). -/
def addrOk (a : Nat) : Bool := Decidable.decide (a < 65536)

/-- A signed value of 24 bits (R122, R131). -/
def signed24 (v : Int) : Bool := Decidable.decide (-8388608 ≤ v) && Decidable.decide (v ≤ 8388607)

/-- The CYCLES operand of JIG_CMD (R252). -/
def cyclesOk (n : Nat) : Bool := Decidable.decide (n < 65536)

/-- Is a command well formed? -/
def Instr.wf : Instr → Bool
  | .read _ count crc => Decidable.decide (count < 65536) && Decidable.decide (crc < 2 ^ 32)
  | .write _ count words crc => Decidable.decide (count < 65536) && Decidable.decide (words.length ≤ count) && Decidable.decide (crc < 2 ^ 32)
  | .push _ bytes => Decidable.decide (bytes.length < 65536)
  | .pull _ ackSeq _ count => Decidable.decide (ackSeq < 65536) && Decidable.decide (count < 256)
  | .registerWrite _ _ addr _ => regAddrOk addr
  | .softReset _ _ page => pageOk page
  | .softResetDone page => pageOk page
  | .irqPendClear page _ _ => pageOk page
  | .errcodeClear page same => pageOk page && Decidable.decide (same < 65536)
  | .evcntWrite page _ _ hw => pageOk page && Decidable.decide (hw < 16)
  | .read64Low _ _ addr => regAddrOk addr
  | .write64Low _ addr _ => regAddrOk addr
  | .write64High _ addr _ => regAddrOk addr
  | .afeStartTestDone results => Decidable.decide (results.length = 72)
  | .testSlot _ run => Decidable.decide (run.forward.length = 16) && Decidable.decide (run.back.length = 16)
  | .returnCompareRetry _ back _ => Decidable.decide (back.length = 16)
  | .trackerEvaluation meas _ => Decidable.decide (meas.length = 4)
  | .integratorPreload _ mean => signed24 mean
  | .resultHandover _ epoch cycle batch => Decidable.decide (epoch < 2 ^ 32) && Decidable.decide (cycle < 2 ^ 32) && Decidable.decide (batch < 16)
  | .mtrStartTestDone passed => Decidable.decide (passed.length = 18)
  | .jigOffset _ cycles => cyclesOk cycles
  | .jigGain _ _ cycles => cyclesOk cycles
  | .jigPhase _ _ cycles => cyclesOk cycles
  | .jigRef _ cycles => cyclesOk cycles
  | .pilotBurst _ _ codes => Decidable.decide (codes.length = 4) && codes.all codeOk
  | .auxConversion _ code => codeOk code
  | .invalidStateAlarm _ code => Decidable.decide (code < 256)
  | .rcmEvaluation _ taps => Decidable.decide (taps.length = 16) && taps.all fun t => signed24 t.1
  | .displaySramWrite _ addr _ => Decidable.decide (addr < 0x200000) && Decidable.decide (addr % 4 = 0)
  | .rxFrame rx => Decidable.decide (rx.phase < 4) && Decidable.decide (rx.phSnr.length = 3) && Decidable.decide (rx.noise.length = 3)
  | .carrierSenseChange _ _ noise => Decidable.decide (noise.length = 3)
  | .tenonRetry n => addrOk n
  | .neighbourExpiry n => addrOk n
  | .routeExpiry dest via => addrOk dest && addrOk via
  | .quarantineEnd n => addrOk n
  | .pollTimeout dest => addrOk dest
  | .e2eTimeout ref => Decidable.decide (ref < 65536)
  | .challenge slot role => Decidable.decide (slot < 4) && Decidable.decide (role < 4)
  | .verify slot role => Decidable.decide (slot < 4) && Decidable.decide (role < 4)
  | .sealInvalidCode _ code => Decidable.decide (code < 256)
  | .vkInstall slot roles => Decidable.decide (slot < 4) && Decidable.decide (roles < 4)
  | .vkRevoke slot => Decidable.decide (slot < 4)
  | .optSignOn address => address.all fun a => Decidable.decide (a.length ≤ 32)
  | .optAcknowledge z y => Decidable.decide (z < 10) && Decidable.decide (y < 10)
  | .shadowCheck bad => bad.all fun p => Decidable.decide (p.1 < 13)
  | .startSequence o => Decidable.decide (o.hang < 9) && Decidable.decide (o.afe.length = 72 ∨ o.afe = []) && Decidable.decide (o.lanes.length = 18 ∨ o.lanes = [])
  | .outputSample values w v => Decidable.decide (values.length = 64) && Decidable.decide (w.length = 5) && Decidable.decide (v.length = 5)
  | _ => true

end Sys2Proof
end

