-- ==== Sys2Proof/Tests/Slice0.lean ====
section
/-! SUPPORT. The author's own tests. First the well-formedness check (an ill-formed command for each check), small runs of single commands against
values worked out by hand from the rules, and then, statement by statement, witnesses: for every clause of an obligation that has hypotheses
a concrete state and operands that meet all of them together (a statement gathered from two sources has a witness theorem for each). -/
open Sys2Proof Sys2Proof.Machine
namespace Sys2Proof.Tests
set_option linter.unusedVariables false
set_option Elab.async false

/-- A start sequence in which nothing fails. -/
def ok : StartOutcome :=
  { xo := true, count := 24000, xoUs := 500, pll := true, sram := true, felt := true, hang := 0, temp := 250, afe := [], lanes := []
    warn := false, released := 720, run := 800 }
/-- The next state, where there is one. -/
def go (f : State → Out) (s : State) : State := match f s with | .next t => t | _ => s
/-- The state after a command. -/
def run (c : Instr) (s : State) : State := go (exec c) s

-- Well-formedness: one ill-formed command for each check of `Instr.wf`, and each is refused.

def badFrame (n : Nat) : List Byte := List.replicate n 0
def ill1 : List Instr := [.read 0 65536 0, .read 0 1 (2 ^ 32), .write 0 65536 [] 0, .write 0 0 [1] 0, .write 0 1 [1] (2 ^ 32), .pull 0 65536 0 1,
  .pull 0 0 0 256, .registerWrite .host true (60 * 4096) 0, .registerWrite .host true 2 0, .softReset .host true 60, .softResetDone 60,
  .irqPendClear 60 0 0, .errcodeClear 60 0, .errcodeClear 0 65536, .evcntWrite 60 0 0 0, .evcntWrite 0 0 0 16, .read64Low .host true 2,
  .write64Low .host 2 0, .write64High .host 2 0]
def ill2 : List Instr := [.afeStartTestDone [], .testSlot 0 ⟨[], ⟨0, 0, 0, 0, 0⟩, List.replicate 16 0, none⟩,
  .testSlot 0 ⟨List.replicate 16 0, ⟨0, 0, 0, 0, 0⟩, [], none⟩, .returnCompareRetry 0 [] false, .trackerEvaluation [] 0, .integratorPreload 0 8388608,
  .integratorPreload 0 (-8388609), .resultHandover 0 (2 ^ 32) 0 0, .resultHandover 0 0 (2 ^ 32) 0, .resultHandover 0 0 0 16, .mtrStartTestDone [],
  .jigOffset 0 65536, .jigGain 0 false 65536, .jigPhase 0 0 65536, .jigRef 0 65536, .pilotBurst 0 true [0], .pilotBurst 0 true [0, 0, 0, 4096],
  .auxConversion 0 4096, .invalidStateAlarm 0 256, .rcmEvaluation 0 [], .rcmEvaluation 0 (List.replicate 16 (8388608, false)),
  .displaySramWrite .host 0x200000 0, .displaySramWrite .host 1 0]
def ill3 : List Instr := [.rxFrame ⟨0, none, 4, 0, 0, 0, 0, [0, 0, 0], [0, 0, 0]⟩, .rxFrame ⟨0, none, 0, 0, 0, 0, 0, [], [0, 0, 0]⟩,
  .rxFrame ⟨0, none, 0, 0, 0, 0, 0, [0, 0, 0], []⟩, .carrierSenseChange true false [], .tenonRetry 65536, .neighbourExpiry 65536,
  .routeExpiry 65536 0, .routeExpiry 0 65536, .quarantineEnd 65536, .pollTimeout 65536, .e2eTimeout 65536, .challenge 4 0, .challenge 0 4,
  .verify 4 0, .verify 0 4, .sealInvalidCode false 256, .vkInstall 4 0, .vkInstall 0 4, .vkRevoke 4, .optSignOn (some (badFrame 33)),
  .optAcknowledge 10 0, .optAcknowledge 0 10, .shadowCheck [(13, 0)], .startSequence { ok with hang := 9 },
  .startSequence { ok with afe := [⟨0, 0, 0, 0, 0⟩] }, .startSequence { ok with lanes := [true] }, .outputSample [] (List.replicate 5 0) (List.replicate 5 0),
  .outputSample (List.replicate 64 0) [] (List.replicate 5 0), .outputSample (List.replicate 64 0) (List.replicate 5 0) []]

theorem test_ill_formed_link_and_registers : ∀ c ∈ ill1, c.wf = false := by decide +kernel
theorem test_ill_formed_long_push (n : Nat) (h : 65536 ≤ n) : (Instr.push 0 (badFrame n)).wf = false := by simp [Instr.wf, badFrame, h]
theorem test_ill_formed_measurement : ∀ c ∈ ill2, c.wf = false := by decide +kernel
theorem test_ill_formed_mesh_seal_start : ∀ c ∈ ill3, c.wf = false := by decide +kernel
theorem test_well_formed : ∀ c ∈ ([.startSequence ok, .challenge 3 3, .push 0 (badFrame 20), .jigGain 63 true 65535] : List Instr), c.wf = true := by
  decide +kernel

-- Single values of the spec's worked examples.

theorem test_reset_wf : State.reset.wf = true := by decide
/-- R421: a 100-byte frame in robust-4 has 188 payload symbols and lasts 201 in all. -/
theorem test_plc_symbols : plcNs 3 100 = 188 ∧ 13 + plcNs 3 100 = 201 := by decide +kernel
/-- 09_outlet_control.md, worked example: 32,000 mA is a duty of 5,333 and reads back as 31,998 mA; 20,000 mA is 3,333. -/
theorem test_pilot_duty : dutyOf 32000 = 5333 ∧ dutyMa 5333 = 31998 ∧ dutyOf 20000 = 3333 ∧ dutyMa 3333 = 19998 := by decide
/-- R128: an increment of 1,343,520,801 is 49.950 Hz. -/
theorem test_tracked_frequency : microHz (256 * 1343520801) = 49950000 := by decide +kernel

/-- A frame of `len` bytes to ring 15 with the session's epoch. -/
def pushed15 (len seq : Nat) : List Byte :=
  let b := le 2 len ++ le 1 15 ++ le 1 1 ++ le 2 seq ++ le 2 0 ++ le 4 0 ++ le 3 0 ++ le 1 1 ++ List.replicate (len - 20) 0
  b ++ le 2 (crc16 b) ++ le 2 0
/-- Ring 15 of a fresh host session that expects `next`. -/
def expects (next : Nat) : State := (((State.reset.put F.HLK_LINK_TENON_DONE 1).put F.HLK_LINK_VER 1).setRing 15 { next := next })

/-- 02_registers_host_link.md, worked example, steps 1, 3, 5 (with a shorter frame) and 6. -/
theorem test_push_statuses : (expects 0).pushCheck 15 (pushed15 48 0) = none ∧ (expects 2).pushCheck 15 (pushed15 48 1) = some 0x13
    ∧ (expects 2).pushCheck 15 (pushed15 64 2) = none ∧ (expects 3).pushCheck 15 (pushed15 48 4) = some 0x14 := by decide +kernel
/-- The same, step 4: 300 bytes do not fit a slot of 256, whatever follows the header. -/
theorem test_push_too_long : (expects 2).pushCheck 15 (le 2 300 ++ (pushed15 48 2).drop 2) = some 0x10 := by decide +kernel

/-- The standalone post of 12_load_management.md's worked example. -/
def post : State :=
  let s := [0, 1, 2].foldl (fun s p => s.put (F.LMG_POST_LIM_MA p) 63000) ((State.reset.put (hdrEnable 0x1A) 1).put F.LMG_RESERVE_MA 2000)
  let s := [0, 1, 2].foldl (fun s k => ((s.put (F.BAYK_CFG_LMG_IL k) 1).put (F.BAYK_STATE_AUTHORISED k) 1).put (F.BAYK_HOST_LIMIT_MA k) 32000 |>.put (F.BAYK_RATED_MA k) 32000) s
  s.put (F.SES_OUT_STAT_PRIO 0) 1
/-- Without a reclaimed outlet: outlet 0 has its cap and outlets 1 and 2 share the other 29,000 mA. -/
theorem test_allocation_round : [0, 1, 2].map ((run .lmgRound post).alloc) = [32000, 14500, 14500] := by decide +kernel

/-- A waiting command is taken from the front of the queue; on an empty queue the timestamp counts. -/
theorem test_front_command : go step { State.reset with pending := [.powerOn, .summary] } = go (exec .powerOn) { State.reset with pending := [.summary] } := rfl
theorem test_tick : (go step State.reset).ts = 1 := by decide +kernel


namespace R1
def z := State.reset
def sr := z.put (hdrSrst 0x20) 1
def hw : State := { sr with held := [⟨.host, false, 0x20100, 5⟩] }
def ws : State := { z with writeShadow := [⟨.host, 0x3108, 7⟩] }

theorem witness_ClearsLoseNoOccurrence :
    ∃ s : State, ∃ page : Nat, ∃ mask : W32, ∃ hw : W32, s.runs = true ∧ mapped (4096 * page + 0x018) = true ∧ page ≠ 0x05 :=
  ⟨z, 0, 0x00000000#32, 0x00000000#32, by decide +kernel⟩

theorem witness_CountersAndErrcodeClear :
    (∃ s : State, ∃ page : Nat, ∃ m : Fin 8, ∃ val : W32, ∃ hw : Nat, s.runs = true ∧ mapped (4096 * page + 0x040) = true)
    ∧ (∃ s : State, ∃ page : Nat, ∃ same : Nat, s.runs = true ∧ mapped (4096 * page + 0x01C) = true ∧ same < 65536) :=
  ⟨⟨z, 0, 0, 0x00000000#32, 0, by decide +kernel⟩,
   ⟨z, 0, 0, by decide +kernel⟩⟩

theorem witness_RegisterWrites :
    (∃ s : State, ∃ req : Req, ∃ p : Nat, ∃ priv : Bool, ∃ a : Nat, ∃ v : W32, s.runs = true ∧ mapped a = false ∧ reqPage req = some p)
    ∧ (∃ s : State, ∃ req : Req, ∃ priv : Bool, ∃ w : Nat, ∃ v : W32, s.runs = true ∧ s.on (hdrSrst 0x03) = false ∧ 8 ≤ w ∧ w < 32)
    ∧ (∃ s : State, ∃ req : Req, ∃ priv : Bool, ∃ a : Nat, ∃ v : W32, s.runs = true ∧ mapped a = true ∧ s.on (hdrSrst (ctrlPage (a / 4096))) = true)
    ∧ (∃ s : State, ∃ page : Nat, ∃ req : Req, ∃ priv : Bool, s.runs = true ∧ mapped (4096 * page + 0x008) = true ∧ s.on (hdrSrst (ctrlPage page)) = false ∧
      s.softRefuse (s.acts req priv) (ctrlPage page) = none)
    ∧ (∃ s : State, ∃ page : Nat, s.runs = true ∧ (page = 0x00 ∨ page = 0x02 ∨ page = 0x03) ∧ s.on (hdrSrst page) = false)
    ∧ (∃ s : State, ∃ page : Nat, s.runs = true ∧ s.on (hdrSrst (ctrlPage page)) = true ∧ ((∀ x ∈ s.held, ctrlPage (x.addr / 4096) ≠ ctrlPage page)))
    ∧ (∃ s : State, ∃ page : Nat, ∃ x : HeldWrite, s.runs = true ∧ s.on (hdrSrst (ctrlPage page)) = true ∧ s.held = [x] ∧ ctrlPage (x.addr / 4096) = ctrlPage page) :=
  ⟨⟨z, Sys2Proof.Req.host, 4, true, 1, 0x00000000#32, by decide +kernel⟩,
   ⟨z, Sys2Proof.Req.host, true, 8, 0x00000000#32, by decide +kernel⟩,
   ⟨sr, Sys2Proof.Req.host, true, 131328, 0x00000000#32, by decide +kernel⟩,
   ⟨z, 0, Sys2Proof.Req.host, true, by decide +kernel⟩,
   ⟨z, 0, by decide +kernel⟩,
   ⟨sr, 32, by decide +kernel⟩,
   ⟨hw, 32, { req := Sys2Proof.Req.host, priv := false, addr := 131328, val := 0x00000005#32 }, by decide +kernel⟩⟩

-- of RegisterWrites
theorem witness_SixtyFourBitWords :
    (∃ s : State, ∃ req : Req, ∃ priv : Bool, ∃ addr : Nat, s.runs = true ∧ low64 addr = true)
    ∧ (∃ s : State, ∃ req : Req, ∃ addr : Nat, ∃ v : W32, s.runs = true ∧ low64 addr = true ∧ mapped addr = true ∧ s.on (hdrSrst (ctrlPage (addr / 4096))) = false)
    ∧ (∃ s : State, ∃ req : Req, ∃ lo : W32, ∃ v : W32, s.runs = true ∧ s.on (hdrSrst 0x03) = false ∧ s.writeShadow = [⟨req, 0x3108, lo⟩])
    ∧ (∃ s : State, ∃ req : Req, ∃ p : Nat, ∃ v : W32, s.runs = true ∧ s.on (hdrSrst 0x03) = false ∧ reqPage req = some p ∧ ((∀ x ∈ s.writeShadow, x.req ≠ req ∨ x.addr
      ≠ 0x3108))) :=
  ⟨⟨z, Sys2Proof.Req.host, true, 12552, by decide +kernel⟩,
   ⟨z, Sys2Proof.Req.host, 12552, 0x00000000#32, by decide +kernel⟩,
   ⟨ws, .host, 7, 7, by decide +kernel⟩,
   ⟨z, Sys2Proof.Req.host, 4, 0x00000000#32, by decide +kernel⟩⟩
end R1


namespace H1
def lk : State := { State.reset with linkUp := true, boot := { State.reset.boot with silent := false } }
def ln : State := lk.put F.HLK_LINK_TENON_DONE 1

-- of LinkErrorsAndRingEvents
theorem witness_TransactionBeforeRelease :
    ∃ s : State, ∃ c : Instr, ((c = .summary ∨ (∃ a n crc, c = .read a n crc) ∨ (∃ a n ws crc, c = .write a n ws crc) ∨ (∃ r bs, c = .push r bs) ∨ (∃ r a f n, c =
      .pull r a f n))) ∧ s.boot.silent = false ∧ s.mainDown = false ∧ s.linkUp = false :=
  ⟨{ State.reset with boot := { State.reset.boot with silent := false } }, .summary, Or.inl rfl, by decide +kernel⟩

theorem witness_SummaryReadWrite :
    (∃ s : State, s.served)
    ∧ (∃ s : State, ∃ o : Nat, ∃ n : Nat, s.served ∧ 0x40000 ≤ o ∧ o % 4 = 0 ∧ 1 ≤ n ∧ n ≤ 256 ∧ o + 4 * n ≤ 0x100000)
    ∧ (∃ s : State, ∃ o : Nat, ∃ ws : List W32, s.served ∧ s.on F.HLK_LINK_TENON_DONE = true ∧ o % 4 = 0 ∧ 1 ≤ ws.length ∧ ws.length ≤ 256 ∧ o + 4 * ws.length ≤
      0x100000 ∧ ((∀ i, i < 4 * ws.length → s.sramOwned (o + i) = false))) :=
  ⟨⟨lk, by unfold State.served; decide +kernel⟩,
   ⟨lk, 262144, 1, by unfold State.served; decide +kernel, by decide +kernel⟩,
   ⟨ln, 262144, [1, 2], by unfold State.served; decide +kernel, by decide +kernel⟩⟩
end H1


namespace H3
def lk : State := { State.reset with linkUp := true, boot := { State.reset.boot with silent := false } }
def ln : State := lk.put F.HLK_LINK_TENON_DONE 1
def frame (n : Nat) : Frame := { typ := 1, seq := n, ref := none, epoch := 0, status := 0, ver := 1, payload := [1, 2, 3, 4] }
def tenon (lo hi : Nat) : Frame := { typ := 0xF0, seq := 0, ref := none, epoch := 0, status := 0, ver := 1, payload := le 1 lo ++ le 1 hi ++ le 2 0 ++ le 4 9 }

theorem witness_LinkErrorsAndRingEvents :
    (∃ s : State, ∃ b : Byte, s.served ∧ linkCommands.contains b.toNat = false)
    ∧ (∃ s : State, ∃ cmd : Byte, ∃ got : List Byte, s.served ∧ linkCommands.contains cmd.toNat = true ∧ cmd ≠ 0x6B)
    ∧ (∃ s : State, ∃ got : List Byte, s.served)
    ∧ (∃ s : State, ∃ cmd : Byte, s.served ∧ linkCommands.contains cmd.toNat = true)
    ∧ (∃ s : State, ∃ n : Fin 65, s.h2d n = false ∧ (s.ring n).lost ≠ 0 ∧ (s.ring n).room (s.slots n) = true)
    ∧ (∃ s : State, ∃ n : Fin 65, s.h2d n = false ∧ (s.ring n).frames ≠ [] ∧ s.get (F.HLKR_RING_IRQ_TIMEOUT n) ≠ 0) :=
  ⟨⟨lk, 0, by unfold State.served; decide +kernel, by decide +kernel⟩,
   ⟨lk, 90, [24, 0, 15, 1, 0, 0, 0, 0, 0, 0, 0, 0, 0, 0, 0, 1, 7, 0, 0, 0, 56, 152, 166, 163], by unfold State.served; decide +kernel, by decide +kernel⟩,
   ⟨lk, [24, 0, 15, 1, 0, 0, 0, 0, 0, 0, 0, 0, 0, 0, 0, 1, 7, 0, 0, 0, 56, 152, 166, 163], by unfold State.served; decide +kernel⟩,
   ⟨lk, 90, by unfold State.served; decide +kernel, by decide +kernel⟩,
   ⟨(ln.setRing 2 { lost := 3, lostFirst := 5, lostLast := 9 }), 2, by decide +kernel⟩,
   ⟨((ln.setRing 2 { frames := [frame 0] }).put (F.HLKR_RING_IRQ_TIMEOUT 2) 5), 2, by decide +kernel⟩⟩

-- of LinkErrorsAndRingEvents
theorem witness_TenonExchange :
    (∃ s : State, ∃ f : Frame, s.head 0 = some f ∧ f.typ = 0xF0 ∧ s.h2d 0 = true ∧ s.h2d 1 = false ∧ s.takes 1 ∧ (chosenVersion (fieldLe f.payload 0 1) (fieldLe
      f.payload 1 1) (s.get F.HLK_TENON_VMAX_VMAX)) ≠ 0)
    ∧ (∃ s : State, ∃ f : Frame, s.head 0 = some f ∧ f.typ = 0xF0 ∧ s.takes 1 ∧ chosenVersion (fieldLe f.payload 0 1) (fieldLe f.payload 1 1) (s.get
      F.HLK_TENON_VMAX_VMAX) = 0) :=
  ⟨⟨(ln.setRing 0 { frames := [tenon 1 2] }), { typ := 240, seq := 0, ref := none, epoch := 0, status := 0, ver := 1, payload := [1, 2, 0, 0, 9, 0, 0, 0] },
    by decide +kernel, by decide +kernel, by decide +kernel, by decide +kernel, by unfold State.takes; decide +kernel, by decide +kernel⟩,
   ⟨(ln.setRing 0 { frames := [tenon 9 9] }), { typ := 240, seq := 0, ref := none, epoch := 0, status := 0, ver := 1, payload := [9, 9, 0, 0, 9, 0, 0, 0] },
    by decide +kernel, by decide +kernel, by unfold State.takes; decide +kernel, by decide +kernel⟩⟩
end H3


namespace H2
def lk : State := { State.reset with linkUp := true, boot := { State.reset.boot with silent := false } }
def ln : State := lk.put F.HLK_LINK_TENON_DONE 1
def ln1 : State := ln.put F.HLK_LINK_VER 1
def frame (n : Nat) : Frame := { typ := 1, seq := n, ref := none, epoch := 0, status := 0, ver := 1, payload := [1, 2, 3, 4] }
def body : List Byte := le 2 24 ++ le 1 15 ++ le 1 1 ++ le 2 0 ++ le 2 0 ++ le 4 0 ++ le 3 0 ++ le 1 1 ++ le 4 7
def good : List Byte := body ++ le 2 (crc16 body) ++ le 2 0
def lr : State := ln1.setRing 2 { frames := [frame 0, frame 1, frame 2], next := 3 }

theorem witness_PushAndPull :
    (∃ s : State, ∃ ring : Byte, ∃ bytes : List Byte, s.served ∧ ((∀ e f, f ∈ (s.ring e).frames → knownType e f.typ = true)) ∧ knownType ring.toNat (fieldLe bytes 3
      1) = true ∧ consumed (fieldLe bytes 0 2) ≤ bytes.length ∧ s.pushCheck ring.toNat bytes = none)
    ∧ (∃ s : State, ∃ ring : Byte, ∃ bytes : List Byte, ∃ c : Nat, s.served ∧ consumed (fieldLe bytes 0 2) ≤ bytes.length ∧ s.pushCheck ring.toNat bytes = some c)
    ∧ (∃ s : State, ∃ ring : Byte, ∃ ackSeq : Byte, ∃ count : Nat, ∃ e : Nat, s.served ∧ s.on F.HLK_LINK_TENON_DONE = true ∧ s.pullEntry ring.toNat = some e ∧ 1 ≤
      count ∧ count ≤ (if s.ver = 2 then 8 else 1))
    ∧ (∃ s : State, ∃ ring : Byte, ∃ ackSeq : Nat, ∃ count : Nat, ∃ e : Nat, ∃ held : List Frame, ∃ left : List Frame, ∃ f : Frame, s.served ∧ s.on
      F.HLK_LINK_TENON_DONE = true ∧ s.pullEntry ring.toNat = some e ∧ e ≠ 38 ∧ 1 ≤ count ∧ count ≤ (if s.ver = 2 then 8 else 1) ∧ (s.ring e).lost = 0 ∧ (s.ring
      e).frames = held ++ f :: left ∧ ((∀ g ∈ held, g.seq ≠ ackSeq)) ∧ f.seq = ackSeq) :=
  ⟨⟨ln1, 15, good, by unfold State.served; decide +kernel, fun e f hf => (List.not_mem_nil (show f ∈ ([] : List Frame) from hf)).elim, by decide +kernel⟩,
   ⟨lk, 90, [24, 0, 15, 1, 0, 0, 0, 0, 0, 0, 0, 0, 0, 0, 0, 1, 7, 0, 0, 0, 56, 152, 166, 163], 23, by unfold State.served; decide +kernel, by decide +kernel⟩,
   ⟨ln, 60, 90, 1, 60, by unfold State.served; decide +kernel, by decide +kernel⟩,
   ⟨lr, 2, 1, 1, 2, [frame 0], [frame 2], frame 1, by unfold State.served; decide +kernel, by decide +kernel⟩⟩

theorem witness_PushSequence :
    ∃ s : State, ∃ n : Nat, ∃ bytes : List Byte, s.on F.HLK_LINK_TENON_DONE = true ∧ s.pushable n = true ∧ (¬ (n = 0 ∧ fieldLe bytes 3 1 = 0xF0)) ∧ 20 ≤ fieldLe
      bytes 0 2 ∧ fieldLe bytes 0 2 % 4 = 0 ∧ fieldLe bytes 0 2 ≤ s.slotSize n ∧ trailerOk (bytes.take (fieldLe bytes 0 2)) = true ∧ fieldLe bytes 2 1 = n ∧ fieldLe
      bytes 15 1 = s.get F.HLK_LINK_VER ∧ fieldLe bytes 8 4 = s.epoch ∧ (s.ring n).next < 65536 :=
  ⟨ln1, 15, good, by decide +kernel, by decide +kernel, fun h => absurd h.1 (by decide), by decide +kernel⟩
end H2


namespace M1
def z := (State.reset.put (hdrEnable 0x10) 1).put F.AFE_TEST_CFG_EN 1
def zl : State := { z with ms := { z.ms with live := 2 ^ 64 - 1 } }
def za : State := { zl with ms := { zl.ms with alarms := [3, 75] } }
def zt := zl.put F.AFE_STATUS_START_TEST_DONE 1
def zc := zl.setGroup 0 { zl.group 0 with phase := .check, unit := 3 }
def zr := zl.setGroup 0 { zl.group 0 with phase := .retry, unit := 3 }
def zb : State := { z.put (F.AFE_CH_CFG_SRC 3) 64 with ms := { z.ms with live := 2 ^ 64 - 1 } }

theorem witness_AlarmsAndGuards :
    (∃ s : State, ∃ m : Fin 72, s.runs = true)
    ∧ (∃ s : State, ∃ x : Fin 88, ∃ bias : Bool, s.runs = true ∧ 72 ≤ x.val ∧ s.watched x = true ∧ x.val ∉ s.ms.alarms)
    ∧ (∃ s : State, ∃ x : Fin 88, s.runs = true ∧ x.val < 64 ∧ s.watched x = true ∧ x.val ∉ s.ms.alarms ∧ s.spareFree (x.val / 8) = true)
    ∧ (∃ s : State, ∃ x : Fin 88, s.runs = true ∧ x.val < 64 ∧ s.watched x = true ∧ x.val ∉ s.ms.alarms ∧ s.spareFree (x.val / 8) = true)
    ∧ (∃ s : State, ∃ x : Fin 88, ∃ bias : Bool, s.runs = true ∧ x.val < 72 ∧ s.watched x = true ∧ x.val ∉ s.ms.alarms ∧ ((x.val < 64 → s.spareFree (x.val / 8) =
      false)))
    ∧ (∃ s : State, ∃ g : Fin 8, s.runs = true ∧ (s.group g).phase = .check ∧ ((∀ m ∈ s.ms.uncovered, m / 8 ≠ g.val)))
    ∧ (∃ s : State, ∃ g : Fin 8, s.runs = true ∧ (s.group g).phase = .check ∧ (s.group g).unit / 8 = g.val)
    ∧ (∃ s : State, ∃ x : Fin 88, s.runs = true ∧ x.val ∈ s.ms.alarms ∧ x.val < 72)
    ∧ (∃ s : State, ∃ x : Fin 88, s.runs = true ∧ x.val ∈ s.ms.alarms ∧ 72 ≤ x.val) :=
  ⟨⟨z, 0, by decide +kernel⟩,
   ⟨zb, 72, true, by decide +kernel⟩,
   ⟨zl, 0, by decide +kernel⟩,
   ⟨zl, 0, by decide +kernel⟩,
   ⟨zc, 0, true, by decide +kernel⟩,
   ⟨zc, 0, by decide +kernel⟩,
   ⟨zc, 0, by decide +kernel⟩,
   ⟨za, 3, by decide +kernel⟩,
   ⟨za, 75, by decide +kernel⟩⟩

-- of AlarmsAndGuards
theorem witness_ModulatorTests :
    (∃ s : State, ∃ results : List OffLine, s.runs = true ∧ s.on F.AFE_STATUS_START_TEST_DONE = false ∧ results.length = 72)
    ∧ (∃ s : State, ∃ g : Fin 8, ∃ run : SlotRun, ∃ m : Nat, s.runs = true ∧ s.enabled 0x10 = true ∧ s.on F.AFE_STATUS_START_TEST_DONE = true ∧ s.on F.AFE_TEST_CFG_EN
      = true ∧ s.spareFail g = false ∧ s.spareUsed g = false ∧ (s.group g).phase = .idle ∧ s.pf.warned = false ∧ s.turnOf g = some m ∧ run.touched = none)
    ∧ (∃ s : State, ∃ g : Fin 8, ∃ back : List Int, s.runs = true ∧ (s.group g).phase = .retry ∧ shadowPass back = true ∧ s.pf.warned = false)
    ∧ (∃ s : State, ∃ req : Req, ∃ hi : Bool, ∃ val : W32, s.runs = true ∧ s.on (hdrSrst 0x10) = false) :=
  ⟨⟨z, [{ offset := 0, rms := 0, gainPos := 0, gainNeg := 0, guards := 0 }, { offset := 0, rms := 0, gainPos := 0, gainNeg := 0, guards := 0 },
    { offset := 0, rms := 0, gainPos := 0, gainNeg := 0, guards := 0 }, { offset := 0, rms := 0, gainPos := 0, gainNeg := 0, guards := 0 },
    { offset := 0, rms := 0, gainPos := 0, gainNeg := 0, guards := 0 }, { offset := 0, rms := 0, gainPos := 0, gainNeg := 0, guards := 0 },
    { offset := 0, rms := 0, gainPos := 0, gainNeg := 0, guards := 0 }, { offset := 0, rms := 0, gainPos := 0, gainNeg := 0, guards := 0 },
    { offset := 0, rms := 0, gainPos := 0, gainNeg := 0, guards := 0 }, { offset := 0, rms := 0, gainPos := 0, gainNeg := 0, guards := 0 },
    { offset := 0, rms := 0, gainPos := 0, gainNeg := 0, guards := 0 }, { offset := 0, rms := 0, gainPos := 0, gainNeg := 0, guards := 0 },
    { offset := 0, rms := 0, gainPos := 0, gainNeg := 0, guards := 0 }, { offset := 0, rms := 0, gainPos := 0, gainNeg := 0, guards := 0 },
    { offset := 0, rms := 0, gainPos := 0, gainNeg := 0, guards := 0 }, { offset := 0, rms := 0, gainPos := 0, gainNeg := 0, guards := 0 },
    { offset := 0, rms := 0, gainPos := 0, gainNeg := 0, guards := 0 }, { offset := 0, rms := 0, gainPos := 0, gainNeg := 0, guards := 0 },
    { offset := 0, rms := 0, gainPos := 0, gainNeg := 0, guards := 0 }, { offset := 0, rms := 0, gainPos := 0, gainNeg := 0, guards := 0 },
    { offset := 0, rms := 0, gainPos := 0, gainNeg := 0, guards := 0 }, { offset := 0, rms := 0, gainPos := 0, gainNeg := 0, guards := 0 },
    { offset := 0, rms := 0, gainPos := 0, gainNeg := 0, guards := 0 }, { offset := 0, rms := 0, gainPos := 0, gainNeg := 0, guards := 0 },
    { offset := 0, rms := 0, gainPos := 0, gainNeg := 0, guards := 0 }, { offset := 0, rms := 0, gainPos := 0, gainNeg := 0, guards := 0 },
    { offset := 0, rms := 0, gainPos := 0, gainNeg := 0, guards := 0 }, { offset := 0, rms := 0, gainPos := 0, gainNeg := 0, guards := 0 },
    { offset := 0, rms := 0, gainPos := 0, gainNeg := 0, guards := 0 }, { offset := 0, rms := 0, gainPos := 0, gainNeg := 0, guards := 0 },
    { offset := 0, rms := 0, gainPos := 0, gainNeg := 0, guards := 0 }, { offset := 0, rms := 0, gainPos := 0, gainNeg := 0, guards := 0 },
    { offset := 0, rms := 0, gainPos := 0, gainNeg := 0, guards := 0 }, { offset := 0, rms := 0, gainPos := 0, gainNeg := 0, guards := 0 },
    { offset := 0, rms := 0, gainPos := 0, gainNeg := 0, guards := 0 }, { offset := 0, rms := 0, gainPos := 0, gainNeg := 0, guards := 0 },
    { offset := 0, rms := 0, gainPos := 0, gainNeg := 0, guards := 0 }, { offset := 0, rms := 0, gainPos := 0, gainNeg := 0, guards := 0 },
    { offset := 0, rms := 0, gainPos := 0, gainNeg := 0, guards := 0 }, { offset := 0, rms := 0, gainPos := 0, gainNeg := 0, guards := 0 },
    { offset := 0, rms := 0, gainPos := 0, gainNeg := 0, guards := 0 }, { offset := 0, rms := 0, gainPos := 0, gainNeg := 0, guards := 0 },
    { offset := 0, rms := 0, gainPos := 0, gainNeg := 0, guards := 0 }, { offset := 0, rms := 0, gainPos := 0, gainNeg := 0, guards := 0 },
    { offset := 0, rms := 0, gainPos := 0, gainNeg := 0, guards := 0 }, { offset := 0, rms := 0, gainPos := 0, gainNeg := 0, guards := 0 },
    { offset := 0, rms := 0, gainPos := 0, gainNeg := 0, guards := 0 }, { offset := 0, rms := 0, gainPos := 0, gainNeg := 0, guards := 0 },
    { offset := 0, rms := 0, gainPos := 0, gainNeg := 0, guards := 0 }, { offset := 0, rms := 0, gainPos := 0, gainNeg := 0, guards := 0 },
    { offset := 0, rms := 0, gainPos := 0, gainNeg := 0, guards := 0 }, { offset := 0, rms := 0, gainPos := 0, gainNeg := 0, guards := 0 },
    { offset := 0, rms := 0, gainPos := 0, gainNeg := 0, guards := 0 }, { offset := 0, rms := 0, gainPos := 0, gainNeg := 0, guards := 0 },
    { offset := 0, rms := 0, gainPos := 0, gainNeg := 0, guards := 0 }, { offset := 0, rms := 0, gainPos := 0, gainNeg := 0, guards := 0 },
    { offset := 0, rms := 0, gainPos := 0, gainNeg := 0, guards := 0 }, { offset := 0, rms := 0, gainPos := 0, gainNeg := 0, guards := 0 },
    { offset := 0, rms := 0, gainPos := 0, gainNeg := 0, guards := 0 }, { offset := 0, rms := 0, gainPos := 0, gainNeg := 0, guards := 0 },
    { offset := 0, rms := 0, gainPos := 0, gainNeg := 0, guards := 0 }, { offset := 0, rms := 0, gainPos := 0, gainNeg := 0, guards := 0 },
    { offset := 0, rms := 0, gainPos := 0, gainNeg := 0, guards := 0 }, { offset := 0, rms := 0, gainPos := 0, gainNeg := 0, guards := 0 },
    { offset := 0, rms := 0, gainPos := 0, gainNeg := 0, guards := 0 }, { offset := 0, rms := 0, gainPos := 0, gainNeg := 0, guards := 0 },
    { offset := 0, rms := 0, gainPos := 0, gainNeg := 0, guards := 0 }, { offset := 0, rms := 0, gainPos := 0, gainNeg := 0, guards := 0 },
    { offset := 0, rms := 0, gainPos := 0, gainNeg := 0, guards := 0 }, { offset := 0, rms := 0, gainPos := 0, gainNeg := 0, guards := 0 },
    { offset := 0, rms := 0, gainPos := 0, gainNeg := 0, guards := 0 }, { offset := 0, rms := 0, gainPos := 0, gainNeg := 0, guards := 0 }], by decide +kernel⟩,
   ⟨zt, 0, { forward := [], offline := { offset := 0, rms := 0, gainPos := 0, gainNeg := 0, guards := 0 }, back := [], touched := none }, 0, by decide +kernel⟩,
   ⟨zr, 0, [0, 0, 0, 0, 0, 0, 0, 0, 0, 0, 0, 0, 0, 0, 0, 0], by decide +kernel⟩,
   ⟨z, Sys2Proof.Req.host, true, 0x00000000#32, by decide +kernel⟩⟩
end M1


namespace M2
def z : State := { (State.reset.put (hdrEnable 0x11) 1) with ms := { State.reset.ms with trackRef := 0x80 } }
def rp : Replay := ⟨3, 64, 4⟩

theorem witness_TrackerStates :
    (∃ s : State, s.runs = true ∧ s.trk = trkHoldover ∧ s.get F.DEC_TRACK_STAT_HOLD_LEFT = 0)
    ∧ (∃ s : State, ∃ meas : List RefMeas, ∃ m : RefMeas, ∃ silent : Nat, s.runs = true ∧ s.trk = trkLocked ∧ meas[s.get F.DEC_TRACK_STAT_REF_IDX]? = some m ∧
      m.lowHalf = true)
    ∧ (∃ s : State, ∃ m : RefMeas, ∃ silent : Nat, s.runs = true ∧ s.trk = trkFree ∧ s.refEn 0 = true ∧ 7 ≤ (s.ref 0).good ∧ m.cycle = true ∧ m.lowCycle = false ∧
      periodOk m.period = true ∧ within m.period (s.ref 0).prev 5 = true)
    ∧ (∃ s : State, ∃ meas : List RefMeas, ∃ silent : Nat, s.trk = trkDisabled)
    ∧ (∃ s : State, ∃ c : Fin 64, ∃ mean : Int, s.runs = true ∧ s.ms.live.testBit c = true ∧ s.integ c = true) :=
  ⟨⟨(z.setTrk trkHoldover), by decide +kernel⟩,
   ⟨(z.setTrk trkLocked), [{ cycle := false, period := 0, lowCycle := false, lowHalf := true, ek := 0 }],
    { cycle := false, period := 0, lowCycle := false, lowHalf := true, ek := 0 }, 0, by decide +kernel⟩,
   ⟨((z.setTrk trkFree).setRef 0 { State.reset.ref 0 with good := 7, prev := 320 * 2 ^ 30 }), ⟨true, 320 * 2 ^ 30, false, false, 0⟩, 0, by decide +kernel⟩,
   ⟨z, [], 0, by decide +kernel⟩,
   ⟨({ z with ms := { z.ms with live := 7 } }.put (F.DEC_CH_CFG_INTEG 0) 1), 0, 0, by decide +kernel⟩⟩

-- of TrackerStates
theorem witness_ModulatorReplay :
    (∃ s : State, s.runs = true ∧ s.enabled 0x11 = true ∧ ((∀ r, s.ms.waiting = some r → s.ms.snap + 1 < r.snap + 4)))
    ∧ (∃ s : State, ∃ r : Replay, s.runs = true ∧ s.enabled 0x11 = true ∧ s.ms.waiting = some r ∧ r.snap + 4 ≤ s.ms.snap + 1)
    ∧ (∃ s : State, ∃ r : Replay, ∃ rest : List Replay, ∃ a : Nat, ∃ n : Nat, s.runs = true ∧ s.ms.due = r :: rest ∧ s.ms.snap < r.snap + 4 ∧ s.ms.replay = none)
    ∧ (∃ s : State, ∃ r : Replay, ∃ q : Replay, ∃ rest : List Replay, ∃ a : Nat, ∃ n : Nat, s.runs = true ∧ s.ms.due = r :: rest ∧ s.ms.snap < r.snap + 4 ∧ s.ms.replay
      = some q ∧ s.ms.waiting = none)
    ∧ (∃ s : State, ∃ r : Replay, ∃ a : Nat, ∃ n : Nat, ∃ pause : Nat, s.runs = true ∧ s.ms.replay = some r ∧ s.ms.caught = false)
    ∧ (∃ s : State, s.runs = true ∧ s.ms.replay.isSome = true ∧ s.ms.caught = true)
    ∧ (∃ s : State, s.runs = true ∧ s.ms.caught = true) :=
  ⟨⟨z, by decide +kernel⟩,
   ⟨{ z with ms := { z.ms with waiting := some rp, snap := 20 } }, { lane := 3, unit := 64, snap := 4 }, by decide +kernel⟩,
   ⟨{ z with ms := { z.ms with due := [rp] } }, { lane := 3, unit := 64, snap := 4 }, [], 0, 0, by decide +kernel⟩,
   ⟨{ z with ms := { z.ms with due := [rp], replay := some rp } }, { lane := 3, unit := 64, snap := 4 }, { lane := 3, unit := 64, snap := 4 }, [], 0, 0,
    by decide +kernel⟩,
   ⟨{ z with ms := { z.ms with due := [rp], replay := some rp } }, { lane := 3, unit := 64, snap := 4 }, 0, 0, 0, by decide +kernel⟩,
   ⟨{ z with ms := { z.ms with replay := some rp, caught := true } }, by decide +kernel⟩,
   ⟨{ z with ms := { z.ms with replay := some rp, caught := true } }, by decide +kernel⟩⟩
end M2


namespace G1
def b0 : BatchRes := ⟨5, 3, [⟨1000, -50, 1200⟩], [], 0, false, false⟩
def w1 : State := (({ State.reset with ts := 77 }).setSlot 2 { buf := [b0] }).put F.MTR_LEGAL_STAT_LEGAL_OK 1
def w2 : State := { State.reset with mt := { State.reset.mt with audits := [⟨0, 5, false⟩] } }
def w3 : State := { State.reset with mt := { State.reset.mt with audits := [⟨0, 5, true⟩] } }
def w4 : State := ({ State.reset with ts := 77 }).setSlot 12 { buf := [b0] }

theorem witness_ResultGate :
    (∃ s : State, ∃ j : Fin 16, ∃ r : BatchRes, ∃ rest : List BatchRes, ∃ epoch : Nat, ∃ cycle : Nat, ∃ batch : Nat, s.runs = true ∧ (s.slot j).buf = r :: rest ∧
      epoch = s.get (laneEpochF j) ∧ r.cycle = cycle ∧ r.batch = batch ∧ j.val < 12 ∧ s.cal.noLegal = false ∧ s.on F.MTR_LEGAL_STAT_LEGAL_OK = true)
    ∧ (∃ s : State, ∃ j : Fin 16, ∃ r : BatchRes, ∃ rest : List BatchRes, ∃ epoch : Nat, ∃ cycle : Nat, ∃ batch : Nat, s.runs = true ∧ (s.slot j).buf = r :: rest ∧
      epoch = s.get (laneEpochF j) ∧ r.cycle = cycle ∧ r.batch = batch ∧ ((12 ≤ j.val ∨ s.cal.noLegal = true ∨ s.on F.MTR_LEGAL_STAT_LEGAL_OK = false)))
    ∧ (∃ s : State, ∃ j : Fin 16, ∃ epoch : Nat, ∃ cycle : Nat, ∃ batch : Nat, s.runs = true ∧ ((∀ r rest, (s.slot j).buf = r :: rest → epoch ≠ s.get (laneEpochF j) ∨
      r.cycle ≠ cycle ∨ r.batch ≠ batch))) :=
  ⟨⟨w1, 2, { cycle := 5, batch := 3, incs := [{ dp := 1000, dq := -50, ds := 1200 }], words := [], tags := 0, plaus := false, closed := false }, [], 0, 5, 3,
    by decide +kernel⟩,
   ⟨w4, 12, { cycle := 5, batch := 3, incs := [{ dp := 1000, dq := -50, ds := 1200 }], words := [], tags := 0, plaus := false, closed := false }, [], 0, 5, 3,
    by decide +kernel⟩,
   ⟨State.reset, 0, 1, 0, 0, by decide +kernel, fun r rest h => nomatch (show ([] : List BatchRes) = r :: rest from h)⟩⟩

theorem witness_TotalsFollowTheSignedSums :
    (∃ a : Accs, ∃ dp : Int, ∃ dq : Int, ∃ ds : Int, a.wh.length = 4 ∧ a.varh.length = 4 ∧ a.vah.length = 4)
    ∧ (∃ a : Accs, ∃ dp : Int, ∃ dq : Int, ∃ ds : Int, a.net < 2 ^ 64 ∧ a.debt < 2 ^ 64)
    ∧ (∃ a : Accs, ∃ dp : Int, ∃ dq : Int, ∃ ds : Int, dp < 0)
    ∧ (∃ a : Accs, ∃ dp : Int, ∃ dq : Int, ∃ ds : Int, 0 ≤ dp ∧ a.debt ≠ 0 ∧ a.net < 2 ^ 64 ∧ dp.toNat ≤ a.debt) :=
  ⟨⟨{ wh := [0, 0, 0, 0], varh := [0, 0, 0, 0], vah := [0, 0, 0, 0], net := 0, debt := 5, hold := 0 }, 0, 0, 0, by decide +kernel⟩,
   ⟨{ wh := [0, 0, 0, 0], varh := [0, 0, 0, 0], vah := [0, 0, 0, 0], net := 0, debt := 5, hold := 0 }, 0, 0, 0, by decide +kernel⟩,
   ⟨{ wh := [0, 0, 0, 0], varh := [0, 0, 0, 0], vah := [0, 0, 0, 0], net := 0, debt := 5, hold := 0 }, -5, 0, 0, by decide +kernel⟩,
   ⟨{ wh := [0, 0, 0, 0], varh := [0, 0, 0, 0], vah := [0, 0, 0, 0], net := 0, debt := 5, hold := 0 }, 0, 0, 0, by decide +kernel⟩⟩

-- of LaneFailuresAndAudits
theorem witness_LaneFailures :
    (∃ s : State, ∃ lane : Fin 18, ∃ i : Nat, ∃ j : Nat, s.runs = true ∧ s.slotOf lane = some j ∧ s.freeLane = some i ∧ 16 + i ≠ lane.val)
    ∧ (∃ s : State, ∃ lane : Fin 18, ∃ j : Nat, s.runs = true ∧ s.slotOf lane = some j ∧ s.freeLane = none)
    ∧ (∃ s : State, ∃ lane : Fin 18, s.runs = true ∧ lane.val < 16 ∧ s.slotOf lane = none)
    ∧ (∃ s : State, ∃ lane : Fin 18, s.runs = true ∧ 16 ≤ lane.val ∧ s.slotOf lane = none ∧ s.on (spareLaneFailF (lane - 16)) = false)
    ∧ (∃ s : State, ∃ slot : Fin 16, ∃ lane : Fin 18, s.runs = true ∧ s.carrier slot = some lane.val ∧ (s.slot slot).buf ≠ [])
    ∧ (∃ s : State, ∃ slot : Fin 16, ∃ i : Nat, s.runs = true ∧ s.carrier slot = some slot.val ∧ (s.slot slot).buf ≠ [] ∧ s.freeLane = some i)
    ∧ (∃ s : State, ∃ slot : Fin 16, s.runs = true ∧ (s.slot slot).buf = [])
    ∧ (∃ s : State, ∃ lane : Fin 18, s.runs = true) :=
  ⟨⟨w1, 0, 0, 0, by decide +kernel⟩,
   ⟨((w1.put (spareLaneFailF 0) 1).put (spareLaneFailF 1) 1), 0, 0, by decide +kernel⟩,
   ⟨(run (.batchDeadline 2) w1), 2, by decide +kernel⟩,
   ⟨w1, 16, by decide +kernel⟩,
   ⟨w1, 2, 2, by decide +kernel⟩,
   ⟨w1, 2, 0, by decide +kernel⟩,
   ⟨w1, 0, by decide +kernel⟩,
   ⟨w1, 0, by decide +kernel⟩⟩

-- of LaneFailuresAndAudits
theorem witness_LaneAudits :
    (∃ s : State, ∃ i : Fin 2, ∃ a : Audit, s.runs = true ∧ s.mt.audits.find? (fun x => x.spare == i.val && !x.testing) = some a)
    ∧ (∃ s : State, ∃ i : Fin 2, ∃ a : Audit, s.runs = true ∧ s.mt.audits.find? (fun x => x.spare == i.val && !x.testing) = some a)
    ∧ (∃ s : State, ∃ i : Fin 2, ∃ a : Audit, s.runs = true ∧ s.mt.audits.find? (fun x => x.spare == i.val && x.testing) = some a ∧ a.lane < 16)
    ∧ (∃ s : State, ∃ i : Fin 2, ∃ a : Audit, s.runs = true ∧ s.mt.audits.find? (fun x => x.spare == i.val && x.testing) = some a)
    ∧ (∃ s : State, ∃ i : Fin 2, ∃ a : Audit, s.runs = true ∧ s.mt.audits.find? (fun x => x.spare == i.val && x.testing) = some a ∧ a.lane < 16)
    ∧ (∃ s : State, ∃ i : Fin 2, ∃ a : Audit, s.runs = true ∧ s.mt.audits.find? (fun x => x.spare == i.val && x.testing) = some a ∧ a.lane < 16)
    ∧ (∃ s : State, ∃ passed : List Bool, s.runs = true ∧ s.on F.MTR_STATUS_START_TEST_DONE = false ∧ passed.length = 18) :=
  ⟨⟨w2, 0, { spare := 0, lane := 5, testing := false }, by decide +kernel⟩,
   ⟨w2, 0, { spare := 0, lane := 5, testing := false }, by decide +kernel⟩,
   ⟨w3, 0, { spare := 0, lane := 5, testing := true }, by decide +kernel⟩,
   ⟨w3, 0, { spare := 0, lane := 5, testing := true }, by decide +kernel⟩,
   ⟨w3, 0, { spare := 0, lane := 5, testing := true }, by decide +kernel⟩,
   ⟨w3, 0, { spare := 0, lane := 5, testing := true }, by decide +kernel⟩,
   ⟨w1, [true, true, true, true, true, true, true, true, true, true, true, true, true, true, true, true, true, true], by decide +kernel⟩⟩
end G1


namespace G2
def w1 : State := (((({ State.reset with ms := { State.reset.ms with live := 7 } }).put (hdrEnable 0x11) 1).put (hdrEnable 0x12) 1).put F.DEC_INCR 1000).put (settleF 1) 1
def w2 := ((((w1.put (hdrEnable 0x15) 1).put (F.PLS_STG_CFG_EN 2) 1).put (F.PLS_STG_STAT_PENDING 2) 3).put (F.PLS_STG_CFG_WIDTH 2) 3).setStage 2 { since := us500 }
def w3 := { w2 with ms := { w2.ms with idx := 256 } }
def w4 := ({ w2 with mt := { w2.mt with total := 16 } }).put (hdrEnable 0x20) 1

-- of SamplesCyclesAndBatches
theorem witness_FrozenReadsAndPulses :
    (∃ s : State, ∃ req : Req, ∃ k : Fin 12, s.runs = true)
    ∧ (∃ s : State, ∃ req : Req, ∃ k : Fin 12, s.runs = true)
    ∧ (∃ s : State, ∃ n : Fin 16, s.runs = true ∧ s.enabled 0x15 = true ∧ s.on (F.PLS_STG_CFG_EN n) = true ∧ s.on (F.PLS_STG_STAT_ACTIVE n) = false ∧ s.get
      (F.PLS_STG_STAT_PENDING n) ≠ 0 ∧ us500 ≤ (s.stage n).since)
    ∧ (∃ s : State, ∃ n : Fin 16, s.runs = true ∧ s.get (F.PLS_STG_COUNT n) ≠ 0 ∧ (s.stage n).since < us500)
    ∧ (∃ s : State, ∃ n : Fin 16, s.runs = true ∧ s.on (F.PLS_STG_STAT_ACTIVE n) = true)
    ∧ (∃ s : State, ∃ n : Fin 16, s.runs = true ∧ s.on (F.PLS_STG_CFG_EN n) = false) :=
  ⟨⟨w1, Sys2Proof.Req.host, 0, by decide +kernel⟩,
   ⟨w1, Sys2Proof.Req.host, 0, by decide +kernel⟩,
   ⟨w2, 2, by decide +kernel⟩,
   ⟨(run (.pulseStart 2) w2), 2, by decide +kernel⟩,
   ⟨(run (.pulseStart 2) w2), 2, by decide +kernel⟩,
   ⟨w1, 0, by decide +kernel⟩⟩

theorem witness_SamplesCyclesAndBatches :
    (∃ s : State, ∃ values : List Int, ∃ w : List Int, ∃ v : List Int, s.runs = true ∧ s.enabled 0x11 = true ∧ s.ms.idx < 256)
    ∧ (∃ s : State, s.runs = true ∧ s.enabled 0x11 = true ∧ s.ms.idx = 256 ∧ ((∀ p ∈ s.cal.nextGain, p.1 < 64)))
    ∧ (∃ s : State, s.runs = true ∧ s.enabled 0x11 = true ∧ s.enabled 0x12 = true ∧ s.mt.readied = 0 ∧ 16 ≤ s.mt.total)
    ∧ (∃ s : State, s.runs = true ∧ s.enabled 0x11 = true ∧ s.enabled 0x12 = true ∧ s.mt.readied ≠ 0 ∧ 16 * (s.mt.readied + 1) ≤ s.mt.total ∧ s.mt.couching = none)
    ∧ (∃ s : State, s.runs = true ∧ s.mt.total < 16 * (s.mt.readied + 1)) :=
  ⟨⟨w1, [], [], [], by decide +kernel⟩,
   ⟨w3, by decide +kernel⟩,
   ⟨w4, by decide +kernel⟩,
   ⟨{ w4 with mt := { w4.mt with total := 9*16, readied := 8 } }, by decide +kernel⟩,
   ⟨w1, by decide +kernel⟩⟩
end G2


namespace G3
def r0 : LegalRec := { State.reset.legalRecord 4 with seq := 9 }
def w1 : State := { State.reset with ts := 100, mt := { State.reset.mt with couching := some r0 } }
def w2 := (((State.reset.put (hdrEnable 0x12) 1).put (F.MTRK_IB_IB 3) 5).put F.MTR_LEGAL_STAT_LEGAL_OK 1).put F.CAL_STATUS_SHIM_OK 1
def p0 : State := { w2 with pf := { armed := true }, ts := 3 }
def p1 : State := { p0 with pf := { armed := true, warned := true, couches := true } }
def p2 : State := run (.pfWaitEnd false) p1

theorem witness_CouchesAndMeterEnables :
    (∃ s : State, ∃ r : LegalRec, ∃ time : Nat, s.runs = true ∧ s.mt.couching = some r ∧ s.get F.SEA_TOTALS_REQ_OUT = 0 ∧ ((s.pf.warned = true ∨ (s.se.meters = [] ∧
      ∀ k, k < 12 → s.ses k = sesIdle))))
    ∧ (∃ s : State, ∃ time : Nat, s.runs = true ∧ s.mt.couching = none)
    ∧ (∃ s : State, ∃ req : Req, ∃ k : Fin 12, s.runs = true ∧ s.enabled 0x12 = true ∧ s.get (F.MTRK_IB_IB k) ≠ 0 ∧ s.on F.MTR_LEGAL_STAT_LEGAL_OK = true ∧ s.on
      F.CAL_STATUS_SHIM_OK = true ∧ s.enabled (0x20 + k) = false)
    ∧ (∃ s : State, ∃ req : Req, ∃ k : Fin 12, s.runs = true ∧ ((s.enabled 0x12 = false ∨ s.get (F.MTRK_IB_IB k) = 0 ∨ s.on F.MTR_LEGAL_STAT_LEGAL_OK = false ∨ s.on
      F.CAL_STATUS_SHIM_OK = false)))
    ∧ (∃ s : State, ∃ req : Req, ∃ k : Fin 12, s.runs = true ∧ s.on (F.BAYK_STATE_CLOSED k) = true)
    ∧ (∃ s : State, ∃ req : Req, ∃ k : Fin 12, s.runs = true ∧ s.on (F.BAYK_STATE_CLOSED k) = false ∧ s.ses k = sesIdle) :=
  ⟨⟨w1, r0, 7, by decide +kernel⟩,
   ⟨w2, 0, by decide +kernel⟩,
   ⟨w2, Sys2Proof.Req.host, 3, by decide +kernel⟩,
   ⟨w1, Sys2Proof.Req.host, 0, by decide +kernel⟩,
   ⟨(w2.put (F.BAYK_STATE_CLOSED 3) 1), Sys2Proof.Req.host, 3, by decide +kernel⟩,
   ⟨w1, Sys2Proof.Req.host, 0, by decide +kernel⟩⟩

theorem witness_PowerFailure :
    (∃ s : State, s.pf.armed = true ∧ s.pf.warned = false ∧ s.pf.halted = false)
    ∧ (∃ s : State, s.pf.armed = true ∧ s.pf.warned = false ∧ s.pf.halted = false ∧ s.nv.jobs = [])
    ∧ (∃ s : State, s.runs = true ∧ s.pf.warned = true ∧ s.pf.couches = true ∧ s.pf.waitEnded = false)
    ∧ (∃ s : State, s.runs = true ∧ s.pf.warned = true ∧ s.pf.couches = true ∧ s.pf.waitEnded = false ∧ Nat.land s.pf.closed s.pf.confirmed = s.pf.closed)
    ∧ (∃ s : State, s.runs = true ∧ s.pf.waitEnded = true ∧ s.pf.cutoff = false ∧ s.mt.couching = none)
    ∧ (∃ s : State, s.pf.warned = true ∧ s.mainDown = false ∧ ((s.pf.couches = false ∨ (s.pf.cutoff = true ∧ s.mt.couching = none))))
    ∧ (∃ s : State, s.pf.warned = true ∧ s.mainDown = false ∧ s.pf.couches = true) :=
  ⟨⟨p0, by decide +kernel⟩,
   ⟨p0, by decide +kernel⟩,
   ⟨p1, by decide +kernel⟩,
   ⟨p1, by decide +kernel⟩,
   ⟨p2, by decide +kernel⟩,
   ⟨{ State.reset with pf := { warned := true } }, by decide +kernel⟩,
   ⟨p1, by decide +kernel⟩⟩
end G3


namespace G4
def z := State.reset
def off := run .powerOnReset z
def hg := run (.startSequence {ok with hang := 5}) z
def pv := (({ z with sealEn := true }).put F.SEA_STAT_SESSION 0x4D).put F.RST_FUSE_DATA_NEW 3

theorem witness_ResetsAndWhatTheyKeep :
    (∃ s : State, s.boot.off = false)
    ∧ (∃ s : State, s.boot.off = true)
    ∧ (∃ s : State, s.boot.off = true)
    ∧ (∃ s : State, s.boot.off = false)
    ∧ (∃ s : State, s.mainDown = false)
    ∧ (∃ s : State, s.boot.off = false ∧ s.tamOn 10 = false) :=
  ⟨⟨z, by decide +kernel⟩,
   ⟨off, by decide +kernel⟩,
   ⟨off, by decide +kernel⟩,
   ⟨z, by decide +kernel⟩,
   ⟨z, by decide +kernel⟩,
   ⟨z, by decide +kernel⟩⟩

theorem witness_Starts :
    (∃ s : State, ∃ o : StartOutcome, s.boot.starting = true ∧ s.mainDown = false ∧ s.boot.hang = none ∧ o.hang = 0 ∧ o.xo = true ∧ 23880 ≤ o.count ∧ o.count ≤ 24120
      ∧ o.pll = true ∧ o.sram = true ∧ o.felt = true ∧ s.sl.imgA = true)
    ∧ (∃ s : State, ∃ o : StartOutcome, s.boot.starting = true ∧ s.mainDown = false ∧ s.boot.hang = none ∧ o.hang = 0 ∧ ((o.xo = false ∨ o.count < 23880 ∨ 24120 <
      o.count)))
    ∧ (∃ s : State, ∃ o : StartOutcome, s.boot.starting = true ∧ s.mainDown = false ∧ s.boot.hang = none ∧ s.linkUp = false ∧ o.hang = 0 ∧ o.xo = true ∧ 23880 ≤
      o.count ∧ o.count ≤ 24120 ∧ o.pll = true ∧ o.sram = false ∧ o.felt = true ∧ o.warn = false ∧ (combineCnt s.boot.bk s.boot.felt).path = false ∧ (combineCnt
      s.boot.bk s.boot.felt).fails < 2 ∧ s.boot.bench = false)
    ∧ (∃ s : State, ∃ o : StartOutcome, s.boot.starting = true ∧ s.mainDown = false ∧ s.boot.hang = none ∧ o.hang = 1)
    ∧ (∃ s : State, ∃ n : Nat, ∃ o : StartOutcome, s.boot.hang = some (n, o) ∧ 4 ≤ n ∧ n ≤ 8 ∧ s.boot.bench = false ∧ s.linkUp = false ∧ o.warn = false ∧ s.get
      F.SYS_START_CNT_FAILS < 2)
    ∧ (∃ s : State, ∃ n : Nat, ∃ o : StartOutcome, s.boot.hang = some (n, o) ∧ 4 ≤ n ∧ n ≤ 8 ∧ 2 ≤ s.get F.SYS_START_CNT_FAILS) :=
  ⟨⟨z,
    { xo := true, count := 24000, xoUs := 500, pll := true, sram := true, felt := true, hang := 0, temp := 250, afe := [], lanes := [], warn := false, released := 720, run := 800 },
    by decide +kernel⟩,
   ⟨z,
    { xo := false, count := 24000, xoUs := 500, pll := true, sram := true, felt := true, hang := 0, temp := 250, afe := [], lanes := [], warn := false, released := 720, run := 800 },
    by decide +kernel⟩,
   ⟨z,
    { xo := true, count := 24000, xoUs := 500, pll := true, sram := false, felt := true, hang := 0, temp := 250, afe := [], lanes := [], warn := false, released := 720, run := 800 },
    by decide +kernel⟩,
   ⟨z,
    { xo := true, count := 24000, xoUs := 500, pll := true, sram := true, felt := true, hang := 1, temp := 250, afe := [], lanes := [], warn := false, released := 720, run := 800 },
    by decide +kernel⟩,
   ⟨hg, 5,
    { xo := true, count := 24000, xoUs := 500, pll := true, sram := true, felt := true, hang := 5, temp := 250, afe := [], lanes := [], warn := false, released := 720, run := 800 },
    by decide +kernel⟩,
   ⟨(hg.put F.SYS_START_CNT_FAILS 2), 5,
    { xo := true, count := 24000, xoUs := 500, pll := true, sram := true, felt := true, hang := 5, temp := 250, afe := [], lanes := [], warn := false, released := 720, run := 800 },
    by decide +kernel⟩⟩

theorem witness_FusesPowerStatesAndTime :
    (∃ s : State, ∃ b : Nat, ∃ v : Nat, s.runs = true ∧ s.privOpen = true ∧ s.boot.fuseJob = none ∧ s.boot.fuseLock = false ∧ b = s.get F.RST_FUSE_IDX_BALL ∧ b ≤ 401
      ∧ v = spRead (fun _ => 0) s.boot.fuse b ||| s.get F.RST_FUSE_DATA_NEW ∧ evenOnes v = true)
    ∧ (∃ s : State, ∃ b : Nat, ∃ v : Nat, s.runs = true ∧ s.privOpen = true ∧ s.boot.fuseJob = none ∧ s.boot.fuseLock = false ∧ b = s.get F.RST_FUSE_IDX_BALL ∧ b ≤ 401
      ∧ v = spRead (fun _ => 0) s.boot.fuse b ||| s.get F.RST_FUSE_DATA_NEW ∧ evenOnes v = true)
    ∧ (∃ s : State, ∃ ok : Bool, s.runs = true ∧ s.boot.fuseJob = none ∧ s.privOpen = false)
    ∧ (∃ s : State, s.runs = true ∧ s.privOpen = true ∧ s.boot.fuseLock = false)
    ∧ (∃ s : State, s.runs = true ∧ s.privOpen = true ∧ s.boot.fuseLock = true)
    ∧ (∃ s : State, s.runs = true ∧ ((s.boot.bench = true ∨ s.get F.SYS_BOOT_STAT_STAGE = 8)))
    ∧ (∃ s : State, s.runs = true ∧ s.boot.bench = false ∧ s.get F.SYS_BOOT_STAT_STAGE ≠ 8)
    ∧ (∃ s : State, s.runs = true ∧ ((∀ p ∈ enablePages, s.enabled p = false)) ∧ s.get F.DMA_ACTIVE_CH = 0 ∧ s.flashBusy = false ∧ (s.ring 46).frames = [] ∧ s.on
      F.SEA_STAT_BUSY = false)
    ∧ (∃ s : State, ∃ p : Nat, s.runs = true ∧ p ∈ enablePages ∧ s.enabled p = true)
    ∧ (∃ s : State, ∃ src : Fin 4, s.mainDown = false ∧ s.get F.RST_PWR_STAT_STATE = 2)
    ∧ (∃ s : State, s.runs = true ∧ ((s.on F.BKP_STATUS_TIME_SET = false ∨ (s.privOpen = true ∧ s.get F.SES_ACTIVE_MASK_OUT = 0))))
    ∧ (∃ s : State, s.runs = true ∧ s.on F.BKP_STATUS_TIME_SET = true ∧ s.privOpen = true ∧ s.get F.SES_ACTIVE_MASK_OUT ≠ 0)
    ∧ (∃ s : State, ∃ req : Req, s.runs = true)
    ∧ (∃ s : State, ∃ req : Req, ∃ v : W32, s.runs = true ∧ s.on (hdrSrst 0x03) = false) :=
  ⟨⟨pv, 0, 3, by decide +kernel⟩,
   ⟨pv, 0, 3, by decide +kernel⟩,
   ⟨z, true, by decide +kernel⟩,
   ⟨pv, by decide +kernel⟩,
   ⟨(run .fuseLock pv), by decide +kernel⟩,
   ⟨({z with boot := {z.boot with bench := true}}), by decide +kernel⟩,
   ⟨z, by decide +kernel⟩,
   ⟨z, by decide +kernel⟩,
   ⟨(z.put (hdrEnable 0x10) 1), 16, by decide +kernel⟩,
   ⟨(run .standby z), 0, by decide +kernel⟩,
   ⟨z, by decide +kernel⟩,
   ⟨((pv.put F.BKP_STATUS_TIME_SET 1).put F.SES_ACTIVE_MASK_OUT 1), by decide +kernel⟩,
   ⟨z, Sys2Proof.Req.host, by decide +kernel⟩,
   ⟨z, Sys2Proof.Req.host, 0x00000000#32, by decide +kernel⟩⟩
end G4


namespace S1
def z := State.reset
def en := run (.sealEnChange true) z
def op := (en.put F.SEA_STAT_SESSION seOpen).put F.SEA_SESS_STAT_ROLE 2
def jg := run .jigEnter op
def ch2 : Challenge := ⟨List.replicate 32 0, 0, 2, 10⟩
def ch1 : Challenge := ⟨List.replicate 32 0, 0, 1, 10⟩
def cs : State := { en with sl := { en.sl with chal := some ch2 } }
def cd : State := { z with sl := { z.sl with chal := some ch1 } }

theorem witness_SealSessions :
    (∃ s : State, ∃ slot : Nat, ∃ role : Nat, s.runs = true ∧ slot < 4 ∧ ((role = 1 ∨ role = 2)) ∧ s.sea ≠ seOpen ∧ s.sea ≠ seJig ∧ s.get F.SEA_SESS_LOCK_LEFT = 0)
    ∧ (∃ s : State, ∃ slot : Nat, ∃ role : Nat, s.runs = true ∧ ((s.sea = seOpen ∨ s.sea = seJig ∨ (role ≠ 1 ∧ role ≠ 2) ∨ s.get F.SEA_SESS_LOCK_LEFT ≠ 0)))
    ∧ (∃ s : State, ∃ ch : Challenge, s.runs = true ∧ s.sl.chal = some ch ∧ ch.slot < 4 ∧ ((ch.role = 1 ∨ ch.role = 2)) ∧ s.on F.SEA_STAT_BUSY = false ∧ s.sealEn =
      true ∧ s.get F.SEA_SESS_LOCK_LEFT = 0 ∧ s.slotPermits ch.slot ch.role = true)
    ∧ (∃ s : State, ∃ ch : Challenge, s.runs = true ∧ s.sl.chal = some ch ∧ ch.slot < 4 ∧ ((ch.role = 1 ∨ ch.role = 2)) ∧ s.on F.SEA_STAT_BUSY = false ∧ s.sealEn =
      false)
    ∧ (∃ s : State, ∃ ch : Challenge, ∃ sig : List Byte, s.runs = true ∧ s.sl.verify = some (ch, sig) ∧ ch.slot < 4 ∧ ch.role < 4 ∧ s.sealEn = true ∧ s.get
      F.SEA_SESS_LOCK_LEFT = 0 ∧ s.slotPermits ch.slot ch.role = true)
    ∧ (∃ s : State, s.runs = true ∧ s.sea = seOpen)
    ∧ (∃ s : State, s.runs = true ∧ s.sea = seJig)
    ∧ (∃ s : State, s.runs = true ∧ ((s.sea = seOpen ∨ s.sea = seJig)))
    ∧ (∃ s : State, s.runs = true ∧ s.sea = seOpen ∧ s.get F.SEA_SESS_STAT_ROLE = 2 ∧ ((∀ k, k < 12 → closedState (s.bay k) = false)) ∧ s.get F.SES_ACTIVE_MASK_OUT = 0)
    ∧ (∃ s : State, s.runs = true ∧ ((s.sea ≠ seOpen ∨ s.get F.SEA_SESS_STAT_ROLE ≠ 2 ∨ s.get F.SES_ACTIVE_MASK_OUT ≠ 0)))
    ∧ (∃ s : State, s.runs = true ∧ s.sea = seJig)
    ∧ (∃ s : State, s.runs = true ∧ s.sea ≠ seJig)
    ∧ (∃ s : State, s.runs = true ∧ s.sl.chal.isSome = true) :=
  ⟨⟨z, 0, 1, by decide +kernel⟩,
   ⟨z, 0, 0, by decide +kernel⟩,
   ⟨cs, ch2, by decide +kernel⟩,
   ⟨cd, ch1, by decide +kernel⟩,
   ⟨{ en with sl := { en.sl with verify := some (ch2, []) } }, ch2, [], by decide +kernel⟩,
   ⟨op, by decide +kernel⟩,
   ⟨jg, by decide +kernel⟩,
   ⟨op, by decide +kernel⟩,
   ⟨op, by decide +kernel⟩,
   ⟨z, by decide +kernel⟩,
   ⟨jg, by decide +kernel⟩,
   ⟨z, by decide +kernel⟩,
   ⟨cd, by decide +kernel⟩⟩

theorem witness_KeysReplayAndTotals :
    (∃ s : State, s.runs = true ∧ s.privOpen = true ∧ s.on F.SEA_STAT_BUSY = false ∧ s.sea = seJig)
    ∧ (∃ s : State, ∃ slot : Nat, ∃ roles : Nat, s.runs = true ∧ s.privOpen = true ∧ s.on F.SEA_STAT_BUSY = false ∧ s.sea = seJig ∧ 1 ≤ slot ∧ slot < 4 ∧ roles < 4 ∧
      s.get F.SEA_SESS_STAT_SLOT ≤ 1)
    ∧ (∃ s : State, ∃ slot : Nat, s.runs = true ∧ s.privOpen = true ∧ s.on F.SEA_STAT_BUSY = false ∧ s.sea = seJig ∧ 1 ≤ slot ∧ slot < 4 ∧ s.get F.SEA_SESS_STAT_SLOT ≤
      1)
    ∧ (∃ s : State, s.runs = true ∧ s.privOpen = false)
    ∧ (∃ s : State, ∃ o : KeyOp, s.runs = true ∧ s.sl.op = some o ∧ o.op = 1)
    ∧ (∃ s : State, ∃ o : KeyOp, s.runs = true ∧ s.sl.op = some o ∧ (o.op = 2 ∨ o.op = 3))
    ∧ (∃ s : State, ∃ o : KeyOp, s.runs = true ∧ s.sl.op = some o)
    ∧ (∃ s : State, ∃ req : Req, ∃ v : W32, s.runs = true)
    ∧ (∃ s : State, ∃ req : Req, ∃ v : W32, s.runs = true)
    ∧ (∃ s : State, ∃ code : Nat, s.runs = true ∧ code ∉ [keyAbsent, keyReady, keyErased] ∧ ((∀ r ∈ s.se.queue, r.outlet < 12)))
    ∧ (∃ s : State, ∃ code : Nat, s.runs = true ∧ code ∉ [seClosed, seChallenged, seOpen, seJig] ∧ ((∀ r ∈ s.se.queue, r.outlet < 12))) :=
  ⟨⟨jg, by decide +kernel⟩,
   ⟨jg, 1, 0, by decide +kernel⟩,
   ⟨jg, 1, by decide +kernel⟩,
   ⟨z, by decide +kernel⟩,
   ⟨(run .keygen jg),
    { op := 1, slot := 1, roles := 0, data := [0, 0, 0, 0, 0, 0, 0, 0, 0, 0, 0, 0, 0, 0, 0, 0, 0, 0, 0, 0, 0, 0, 0, 0, 0, 0, 0, 0, 0, 0, 0, 0, 0, 0, 0, 0, 0, 0, 0, 0, 0, 0, 0, 0, 0, 0, 0, 0, 0, 0, 0, 0, 0, 0, 0, 0, 0, 0, 0, 0, 0, 0, 0, 0] },
    by decide +kernel⟩,
   ⟨(run (.vkInstall 2 3) jg),
    { op := 2, slot := 2, roles := 3, data := [0, 0, 0, 0, 0, 0, 0, 0, 0, 0, 0, 0, 0, 0, 0, 0, 0, 0, 0, 0, 0, 0, 0, 0, 0, 0, 0, 0, 0, 0, 0, 0, 0, 0, 0, 0, 0, 0, 0, 0, 0, 0, 0, 0, 0, 0, 0, 0, 0, 0, 0, 0, 0, 0, 0, 0, 0, 0, 0, 0, 0, 0, 0, 0] },
    by decide +kernel⟩,
   ⟨(run .keygen jg),
    { op := 1, slot := 1, roles := 0, data := [0, 0, 0, 0, 0, 0, 0, 0, 0, 0, 0, 0, 0, 0, 0, 0, 0, 0, 0, 0, 0, 0, 0, 0, 0, 0, 0, 0, 0, 0, 0, 0, 0, 0, 0, 0, 0, 0, 0, 0, 0, 0, 0, 0, 0, 0, 0, 0, 0, 0, 0, 0, 0, 0, 0, 0, 0, 0, 0, 0, 0, 0, 0, 0] },
    by decide +kernel⟩,
   ⟨z, Sys2Proof.Req.host, 0x00000000#32, by decide +kernel⟩,
   ⟨z, Sys2Proof.Req.host, 0x00000000#32, by decide +kernel⟩,
   ⟨z, 0, by decide +kernel⟩,
   ⟨z, 0, by decide +kernel⟩⟩
end S1


namespace S2
def z := State.reset
def tm := (z.put (F.TAM_SRC_MODE 2) 1)
def p1 := run (.optSignOn none) z
def p2 := run (.optAcknowledge 3 6) p1

theorem witness_TamperSupervision :
    (∃ s : State, ∃ src : Fin 13, s.tamOn src = true ∧ s.on (bitFld A.TAM_LIVE src) = false ∧ s.tamResp src = 0)
    ∧ (∃ s : State, ∃ src : Fin 13, s.tamOn src = true ∧ s.on (bitFld A.TAM_LIVE src) = false ∧ ((∀ r ∈ s.se.queue, r.outlet < 12)))
    ∧ (∃ s : State, ∃ src : Fin 13, ((s.tamOn src = false ∨ s.on (bitFld A.TAM_LIVE src) = true)))
    ∧ (∃ s : State, ∃ src : Fin 13, s.on (bitFld A.TAM_LIVE src) = true)
    ∧ (∃ s : State, ∃ i : Nat, ∃ rest : List Nat, s.runs = true ∧ s.tam.waiting = i :: rest ∧ s.boot.romOnly = false ∧ s.linkUp = true)
    ∧ (∃ s : State, s.boot.off = false)
    ∧ (∃ s : State, ∃ src : Nat, ∃ w : Nat, src < 12 ∧ ((∀ r ∈ s.se.queue, r.outlet < 12))) :=
  ⟨⟨z, 12, by decide +kernel⟩,
   ⟨z, 12, by decide +kernel⟩,
   ⟨z, 0, by decide +kernel⟩,
   ⟨(run (.tamperTrigger 2) tm), 2, by decide +kernel⟩,
   ⟨{ (run (.tamperTrigger 2) tm) with linkUp := true }, 0, [], by decide +kernel⟩,
   ⟨z, by decide +kernel⟩,
   ⟨z, 0, 0, by decide +kernel⟩⟩

theorem witness_StickyFlagsOfActiveSourcesStay :
    ∃ s : State, ∃ req : Req, ∃ priv : Bool, ∃ mask : W32, s.runs = true :=
  ⟨z, Sys2Proof.Req.host, true, 0x00000000#32, by decide +kernel⟩

theorem witness_ReadoutPort :
    (∃ s : State, s.runs = true ∧ s.sl.port = 0)
    ∧ (∃ s : State, ∃ a : List Byte, s.runs = true ∧ s.sl.port = 0)
    ∧ (∃ s : State, ∃ z : Nat, s.runs = true ∧ s.sl.port = 1 ∧ z ≤ 5)
    ∧ (∃ s : State, ∃ z : Nat, s.runs = true ∧ s.sl.port = 1 ∧ z ≤ 5)
    ∧ (∃ s : State, s.runs = true ∧ s.sl.port = 1)
    ∧ (∃ s : State, ∃ k : Nat, ∃ c : LegalRec, ∃ ts : Nat, s.runs = true ∧ s.sl.port = 2 ∧ s.boot.romOnly = false ∧ s.se.last = some (c, ts))
    ∧ (∃ s : State, ∃ n : Nat, s.runs = true ∧ s.sl.port = 2 ∧ s.boot.romOnly = false)
    ∧ (∃ s : State, ∃ w : Nat, s.runs = true ∧ s.sl.port = 2 ∧ s.boot.romOnly = false)
    ∧ (∃ s : State, s.runs = true ∧ s.sl.port = 2 ∧ s.boot.romOnly = false)
    ∧ (∃ s : State, ∃ c : Instr, s.runs = true ∧ s.sl.port = 2 ∧ ((c = .queryK false ∨ (∃ n, c = .queryT n false) ∨ (∃ n, c = .queryL n false) ∨ (∃ n, c = .queryR n
      false))))
    ∧ (∃ s : State, ∃ c : Instr, s.runs = true ∧ s.sl.port = 2 ∧ ((c = .queryEnd ∨ c = .queryTimeout)))
    ∧ (∃ s : State, ∃ c : Instr, s.runs = true ∧ s.sl.port ≠ 2 ∧ ((c = .queryEnd ∨ c = .queryTimeout ∨ (∃ b, c = .queryK b) ∨ (∃ n b, c = .queryT n b) ∨ (∃ n b, c =
      .queryL n b) ∨ (∃ n b, c = .queryR n b)))) :=
  ⟨⟨z, by decide +kernel⟩,
   ⟨z, [], by decide +kernel⟩,
   ⟨p1, 0, by decide +kernel⟩,
   ⟨p1, 0, by decide +kernel⟩,
   ⟨p1, by decide +kernel⟩,
   ⟨{p2 with se := { p2.se with last := some (p2.legalRecord 4, 9) }}, 0,
    { seq := 2, epoch := 0, cycle := 0, flags := 4, pfWait := 0, pfUnconf := 0, pfCurrent := 0, outlets := [({ wh := [0, 0, 0, 0], varh := [0, 0, 0, 0], vah := [0, 0, 0, 0], net := 0, debt := 0, hold := 0 }, false, 0), ({ wh := [0, 0, 0, 0], varh := [0, 0, 0, 0], vah := [0, 0, 0, 0], net := 0, debt := 0, hold := 0 }, false, 0), ({ wh := [0, 0, 0, 0], varh := [0, 0, 0, 0], vah := [0, 0, 0, 0], net := 0, debt := 0, hold := 0 }, false, 0), ({ wh := [0, 0, 0, 0], varh := [0, 0, 0, 0], vah := [0, 0, 0, 0], net := 0, debt := 0, hold := 0 }, false, 0), ({ wh := [0, 0, 0, 0], varh := [0, 0, 0, 0], vah := [0, 0, 0, 0], net := 0, debt := 0, hold := 0 }, false, 0), ({ wh := [0, 0, 0, 0], varh := [0, 0, 0, 0], vah := [0, 0, 0, 0], net := 0, debt := 0, hold := 0 }, false, 0), ({ wh := [0, 0, 0, 0], varh := [0, 0, 0, 0], vah := [0, 0, 0, 0], net := 0, debt := 0, hold := 0 }, false, 0), ({ wh := [0, 0, 0, 0], varh := [0, 0, 0, 0], vah := [0, 0, 0, 0], net := 0, debt := 0, hold := 0 }, false, 0), ({ wh := [0, 0, 0, 0], varh := [0, 0, 0, 0], vah := [0, 0, 0, 0], net := 0, debt := 0, hold := 0 }, false, 0), ({ wh := [0, 0, 0, 0], varh := [0, 0, 0, 0], vah := [0, 0, 0, 0], net := 0, debt := 0, hold := 0 }, false, 0), ({ wh := [0, 0, 0, 0], varh := [0, 0, 0, 0], vah := [0, 0, 0, 0], net := 0, debt := 0, hold := 0 }, false, 0), ({ wh := [0, 0, 0, 0], varh := [0, 0, 0, 0], vah := [0, 0, 0, 0], net := 0, debt := 0, hold := 0 }, false, 0)] },
    9, by decide +kernel⟩,
   ⟨p2, 0, by decide +kernel⟩,
   ⟨p2, 0, by decide +kernel⟩,
   ⟨p2, by decide +kernel⟩,
   ⟨p2, .queryK false, by decide +kernel, by decide +kernel, Or.inl rfl⟩,
   ⟨p2, Sys2Proof.Instr.queryEnd, by decide +kernel⟩,
   ⟨z, .queryEnd, by decide +kernel, by decide +kernel, Or.inl rfl⟩⟩
end S2


namespace D1
def z := (State.reset.put (hdrEnable 6) 1)
def dsc (s : State) (l : List Nat) : State := (l.zipIdx).foldl (fun s p => s.setReg (A.DMA_DESC0 3 + 4 * p.2) (wordN p.1)) s
def d0 := dsc z [0x20050002, 0x2005800A, 0x20002, 0x40001, 16, 0, 0, 16,0,0,0,0,0,0,0,7]
def d1 := run (.dmaStart 3) d0
def fin := (run (.dmaElement 3) (run (.dmaElement 3) (run (.dmaElement 3) (run (.dmaElement 3) d1))))
def ld := (z.sramPut 0x50000 (([0x20050002, 0x2005800A, 0x20002, 0x40001, 16, 0, 0, 16,0,0,0,0,0,0,0,7] : List Nat).flatMap (le 4))).setReg (A.DMA_LOAD_ADDR 3) 0x20050000#32
def ba := d1.setReg (A.DMA_DESC0 3) 0x40000001#32
def pz := (run (.dmaElement 3) ba)
def wt := run (.dmaStart 3) (dsc z [0x20050002, 0x2005800A, 0x20002, 0x40001, 16, 0, 0, 16,0,0,0x20070000,1,1,0x10001,0,7])
def d2 := fin.setReg (A.DMA_DESC0 3 + 4 * 14) 0x20050000#32
def d3 : State := { d2 with sram := ld.sram }

theorem witness_DmaChannelControl :
    (∃ s : State, ∃ n : Fin 16, s.runs = true ∧ s.enabled 0x06 = true ∧ s.dmaState n = dmaIdle ∧ s.halted = false ∧ descCheck (s.descRegs n) = none)
    ∧ (∃ s : State, ∃ n : Fin 16, s.runs = true ∧ ((s.enabled 0x06 = false ∨ s.dmaState n ≠ dmaIdle ∨ s.halted = true ∨ ∃ c, descCheck (s.descRegs n) = some c)))
    ∧ (∃ s : State, ∃ n : Fin 16, ∃ a : Nat, s.runs = true ∧ s.enabled 0x06 = true ∧ s.dmaState n = dmaIdle ∧ s.halted = false ∧ a = (s.reg (A.DMA_LOAD_ADDR n)).toNat
      ∧ loadAddrOk a = true ∧ descCheck (s.descAt a) = none)
    ∧ (∃ s : State, ∃ n : Fin 16, s.runs = true ∧ s.enabled 0x06 = true ∧ s.dmaState n = dmaIdle ∧ s.halted = false ∧ loadAddrOk (s.reg (A.DMA_LOAD_ADDR n)).toNat =
      false)
    ∧ (∃ s : State, ∃ n : Fin 16, s.runs = true ∧ s.dmaState n = dmaPaused ∧ s.halted = false)
    ∧ (∃ s : State, ∃ n : Fin 16, s.runs = true ∧ ((s.dmaState n ≠ dmaPaused ∨ s.halted = true)))
    ∧ (∃ s : State, ∃ n : Fin 16, s.runs = true ∧ s.dmaState n ≠ dmaIdle ∧ (s.chan n).fin = false ∧ s.takes 50)
    ∧ (∃ s : State, s.runs = true)
    ∧ (∃ s : State, ∃ req : Req, ∃ n : Fin 16, ∃ v : W32, s.runs = true ∧ s.dmaState n = dmaPaused ∧ s.halted = false ∧ v.toNat % 65536 < s.c0 n ∧ v.toNat / 65536 <
      s.c1 n)
    ∧ (∃ s : State, ∃ req : Req, ∃ n : Fin 16, ∃ v : W32, s.runs = true ∧ s.dmaState n = dmaPaused ∧ s.halted = false ∧ v.toNat % 65536 < s.c2 n)
    ∧ (∃ s : State, ∃ n : Fin 16, s.runs = true ∧ s.dmaState n = dmaRun ∧ (s.chan n).fin = true ∧ s.descWord n 14 = 0 ∧ s.takes 50)
    ∧ (∃ s : State, ∃ n : Fin 16, ∃ a : Nat, s.runs = true ∧ s.dmaState n = dmaRun ∧ (s.chan n).fin = true ∧ a = (s.descWord n 14).toNat ∧ a ≠ 0 ∧ s.on
      (F.DMA_DESC3_RING n) = false ∧ descCheck (s.descAt a) = none)
    ∧ (∃ s : State, ∃ n : Fin 16, s.runs = true ∧ s.dmaState n = dmaWait ∧ s.get (F.DMA_DESC13_WAIT_TO n) ≠ 0 ∧ s.get (F.DMA_DESC13_WAIT_TO n) ≤ (s.chan n).polls ∧
      s.takes 50) :=
  ⟨⟨d0, 3, by decide +kernel⟩,
   ⟨State.reset, 0, by decide +kernel, Or.inl (by decide +kernel)⟩,
   ⟨ld, 3, 537198592, by decide +kernel⟩,
   ⟨z, 0, by decide +kernel⟩,
   ⟨(run .haltClear pz), 3, by decide +kernel⟩,
   ⟨z, 0, by decide +kernel⟩,
   ⟨d1, 3, by decide +kernel, by decide +kernel, by decide +kernel, by unfold State.takes; decide +kernel⟩,
   ⟨z, by decide +kernel⟩,
   ⟨(run .haltClear pz), Sys2Proof.Req.host, 3, 0x00000000#32, by decide +kernel⟩,
   ⟨(run .haltClear pz), Sys2Proof.Req.host, 3, 0x00000000#32, by decide +kernel⟩,
   ⟨fin, 3, by decide +kernel, by decide +kernel, by decide +kernel, by decide +kernel, by unfold State.takes; decide +kernel⟩,
   ⟨d3, 3, 537198592, by decide +kernel⟩,
   ⟨(run (.waitPoll 3) wt), 3, by decide +kernel, by decide +kernel, by decide +kernel, by decide +kernel, by unfold State.takes; decide +kernel⟩⟩

theorem witness_DmaElementsAndPolls :
    (∃ s : State, ∃ n : Fin 16, ∃ i : Nat, ∃ j : Nat, ∃ m : Nat, s.runs = true ∧ s.dmaReady n = true ∧ s.srcAddr n = 0x20000000 + i ∧ s.dstAddr n = 0x20000000 + j ∧
      s.elemSize n = m ∧ m ≤ 16 ∧ 0x40000 ≤ i ∧ i + m ≤ 0x100000 ∧ j + m ≤ 0x100000 ∧ ((∀ x, x < m → s.sramOwned (j + x) = false)))
    ∧ (∃ s : State, ∃ n : Fin 16, ∃ c : Instr, ∃ code : Nat, (c = .dmaElement n ∨ c = .busError n) ∧ s.runs = true ∧ s.dmaReady n = true ∧ shapeCheck (s.srcAddr n)
      (s.elemSize n) = some code ∧ s.takes 50)
    ∧ (∃ s : State, ∃ n : Fin 16, s.runs = true ∧ (s.dmaMove n).2.isNone = true)
    ∧ (∃ s : State, ∃ n : Fin 16, s.runs = true ∧ s.dmaReady n = false)
    ∧ (∃ s : State, ∃ n : Fin 16, s.runs = true ∧ s.dmaState n = dmaWait ∧ s.halted = false) :=
  ⟨⟨d1, 3, 327682, 360458, 16, by decide +kernel⟩,
   ⟨ba, 3, Sys2Proof.Instr.dmaElement 3, 5, by decide +kernel, by decide +kernel, by decide +kernel, by decide +kernel, by unfold State.takes; decide +kernel⟩,
   ⟨d0, 3, by decide +kernel⟩,
   ⟨z, 0, by decide +kernel⟩,
   ⟨wt, 3, by decide +kernel⟩⟩
end D1


namespace O1
def z := ((State.reset.put (hdrEnable 0x18) 1).put (hdrEnable 0x16) 1).put (hdrEnable 0x33) 1
def zc := ((z.put (F.BAYK_STATE_CODE 3) stCharging).put (F.BAYK_STATE_CLOSED 3) 1).setOutlet 3 { conM := true }
def zd := ((z.put (F.BAYK_STATE_CODE 3) stCharging).put (F.BAYK_STATE_CLOSED 3) 1).setOutlet 3 { conM := true, alarmHold := true }

theorem witness_ConversionsAndThePilot :
    (∃ s : State, ∃ n : Fin 48, ∃ code : Nat, s.runs = true ∧ s.enabled 0x18 = true ∧ 12 ≤ n.val)
    ∧ (∃ s : State, ∃ k : Fin 12, ∃ high : Bool, ∃ codes : List Nat, s.runs = true ∧ s.enabled 0x18 = true ∧ s.enabled 0x16 = true ∧ s.enabled (0x30 + k) = true ∧
      codes.length = 4 ∧ ((∀ c ∈ codes, c < 4096)))
    ∧ (∃ s : State, s.runs = true ∧ s.enabled 0x16 = true)
    ∧ (∃ s : State, ∃ k : Fin 12, s.runs = true ∧ (s.outlet k).paused = true) :=
  ⟨⟨z, 12, 0, by decide +kernel⟩,
   ⟨z, 3, true, [0, 0, 4095, 4095], by decide +kernel⟩,
   ⟨z, by decide +kernel⟩,
   ⟨(z.setOutlet 3 {paused := true}), 3, by decide +kernel⟩⟩

theorem witness_ContactorAndLockSignals :
    (∃ s : State, ∃ k : Fin 12, ∃ closed : Bool, ∃ us : Nat, s.runs = true)
    ∧ (∃ s : State, ∃ k : Fin 12, s.runs = true ∧ s.get (F.BAYK_CFG_AUX_MODE k) = 2 ∧ (s.outlet k).conM = true ∧ s.on (F.BAYK_STATE_CLOSED k) = true)
    ∧ (∃ s : State, ∃ k : Fin 12, s.runs = true)
    ∧ (∃ s : State, ∃ k : Fin 12, s.runs = true ∧ s.bayOn k = true ∧ closedState (s.bay k) = true ∧ s.driven k = true ∧ s.outHigh k = false ∧ s.latched k = false ∧
      s.pf.warned = false ∧ s.boot.bench = false)
    ∧ (∃ s : State, ∃ k : Fin 12, s.runs = true)
    ∧ (∃ s : State, ∃ k : Fin 12, ∃ locked : Bool, ∃ ms : Nat, s.runs = true)
    ∧ (∃ s : State, ∃ k : Fin 12, s.runs = true ∧ (s.outlet k).lockDir ≠ 0 ∧ (s.outlet k).lockWait = false ∧ (s.outlet k).lockTry < 2)
    ∧ (∃ s : State, ∃ k : Fin 12, s.runs = true ∧ (s.outlet k).lockDir ≠ 0 ∧ (s.outlet k).lockWait = false ∧ 2 ≤ (s.outlet k).lockTry)
    ∧ (∃ s : State, ∃ k : Fin 12, s.runs = true ∧ (s.outlet k).lockWait = true ∧ s.pf.warned = false) :=
  ⟨⟨z, 0, true, 0, by decide +kernel⟩,
   ⟨(zc.put (F.BAYK_CFG_AUX_MODE 3) 2), 3, by decide +kernel⟩,
   ⟨z, 0, by decide +kernel⟩,
   ⟨zd, 3, by decide +kernel⟩,
   ⟨z, 0, by decide +kernel⟩,
   ⟨z, 0, true, 0, by decide +kernel⟩,
   ⟨(z.setOutlet 3 {lockDir := 1}), 3, by decide +kernel⟩,
   ⟨(z.setOutlet 3 {lockDir := 1, lockTry := 2}), 3, by decide +kernel⟩,
   ⟨(run (.lockConfirmTimeout 3) (z.setOutlet 3 {lockDir := 1})), 3, by decide +kernel⟩⟩
end O1


namespace O2
def st (s : State) (c : Nat) : State := s.put (F.BAYK_STATE_CODE 3) c
def z := ((State.reset.put (hdrEnable 0x18) 1).put (hdrEnable 0x16) 1).put (hdrEnable 0x33) 1
def cl := (((((((((st z stOffering).put (hdrEnable 0x23) 1).put (F.MTRK_QSTAT_VALID 3) 1).put (bitFld A.RCM_READY 3) 1).put (F.BAYK_RATED_MA 3) 32000).put (F.BAYK_HOST_LIMIT_MA 3) 32000).put (F.BAYK_PILOT_CANDIDATE 3) 2).put (F.BAYK_PILOT_CLASS 3) 2).put (F.BAYK_PILOT_MODE 3) 2).setOutlet 3 {known := true, fresh := true}
def ch := ((st z stCharging).put (F.BAYK_STATE_CLOSED 3) 1).put (F.BAYK_PILOT_FLICKER 3) 200
def lt := ((st z stCharging).put (bitFld A.RCM_LATCH 3) 1)
def bn : State := { st z stIdle with boot := { z.boot with bench := true } }
def wn : State := { (st z stCharging).put (F.BAYK_STATE_CLOSED 3) 1 with pf := { z.pf with warned := true } }
def wk := ((z.put (F.BAYK_STATE_VOLTAGE 3) 0).setOutlet 3 { weldCheck := true })
def op2 := (((st z stOpening).put (F.BAYK_STATE_TARGET 3) stIdle)).setOutlet 3 { awaitOpen := true, mirOpen := true }
def cg := ((st z stClosing).put (F.BAYK_STATE_CLOSED 3) 1)

theorem witness_OutletEvaluations :
    (∃ s : State, ∃ k : Fin 12, s.runs = true ∧ s.bayOn k = true)
    ∧ (∃ s : State, ∃ k : Fin 12, s.runs = true ∧ s.bayOn k = true ∧ s.latched k = true ∧ s.bay k ∉ [stDisabled, stService, stTripped, stWelded])
    ∧ (∃ s : State, ∃ k : Fin 12, s.runs = true ∧ s.bayOn k = true ∧ s.latched k = false ∧ s.boot.bench = true ∧ s.bay k ∉ [stDisabled, stService])
    ∧ (∃ s : State, ∃ k : Fin 12, s.runs = true ∧ s.bayOn k = true ∧ s.latched k = false ∧ s.boot.bench = false ∧ s.pf.warned = true ∧ closedState (s.bay k) = true)
    ∧ (∃ s : State, ∃ k : Fin 12, ∃ c : Nat, s.runs = true ∧ s.bayOn k = true ∧ s.bay k = stOffering ∧ s.mayClose k = true ∧ s.latched k = false ∧ s.boot.bench = false
      ∧ (s.rc k).testLatch = false ∧ (s.outlet k).alarmHold = false ∧ s.on (F.BAYK_STATE_CLOSED k) = false ∧ (s.outlet k).weldV = false ∧ (s.outlet k).awaitOpen =
      false ∧ (s.outlet k).known = true ∧ (s.outlet k).fresh = true ∧ s.get (F.BAYK_PILOT_CANDIDATE k) = c ∧ s.get (F.BAYK_PILOT_CLASS k) = c ∧ ((c = 2 ∨ (c = 3 ∧
      s.on (F.BAYK_CFG_VENT_OK k) = true))) ∧ s.get (F.BAYK_PILOT_MODE k) = 2 ∧ (s.outlet k).diodeBad < s.get F.BAY_TIMING_DEBOUNCE ∧ (s.outlet k).ppNew = false ∧
      s.noCable k = false)
    ∧ (∃ s : State, ∃ k : Fin 12, s.runs = true ∧ s.bayOn k = true ∧ s.bay k = stClosing ∧ s.on (F.BAYK_STATE_CLOSED k) = true ∧ s.latched k = false ∧ s.boot.bench =
      false ∧ s.pf.warned = false)
    ∧ (∃ s : State, ∃ k : Fin 12, s.runs = true ∧ s.bayOn k = true ∧ s.bay k = stOpening ∧ (s.outlet k).awaitOpen = true ∧ (s.outlet k).mirOpen = true ∧ s.latched k =
      false ∧ s.boot.bench = false ∧ s.get (F.BAYK_STATE_TARGET k) ∈ [stIdle, stOffering, stConnected, stFaultF])
    ∧ (∃ s : State, ∃ k : Fin 12, s.runs = true ∧ s.bayOn k = false) :=
  ⟨⟨z, 3, by decide +kernel⟩,
   ⟨lt, 3, by decide +kernel⟩,
   ⟨bn, 3, by decide +kernel⟩,
   ⟨wn, 3, by decide +kernel⟩,
   ⟨cl, 3, 2, by decide +kernel⟩,
   ⟨cg, 3, by decide +kernel⟩,
   ⟨op2, 3, by decide +kernel⟩,
   ⟨z, 0, by decide +kernel⟩⟩

theorem witness_OutletTimersAndAlarms :
    (∃ s : State, ∃ k : Fin 12, s.runs = true ∧ s.bayOn k = true ∧ s.get (F.BAYK_PILOT_FLICKER k) ≤ s.get F.BAY_TIMING_FLICKER_MAX)
    ∧ (∃ s : State, ∃ k : Fin 12, s.runs = true ∧ s.bayOn k = true ∧ s.get F.BAY_TIMING_FLICKER_MAX < s.get (F.BAYK_PILOT_FLICKER k) ∧ (s.outlet k).badWins < 2)
    ∧ (∃ s : State, ∃ k : Fin 12, s.runs = true ∧ s.bayOn k = true ∧ s.get F.BAY_TIMING_FLICKER_MAX < s.get (F.BAYK_PILOT_FLICKER k) ∧ (s.outlet k).badWins = 2 ∧ s.bay
      k = stCharging)
    ∧ (∃ s : State, ∃ k : Fin 12, ∃ code : Nat, s.runs = true ∧ code < 256 ∧ code ∉ bayCodes)
    ∧ (∃ s : State, ∃ k : Fin 12, s.runs = true ∧ s.bayOn k = true ∧ s.bay k = stClosing ∧ s.on (F.BAYK_STATE_CLOSED k) = false)
    ∧ (∃ s : State, ∃ k : Fin 12, s.runs = true ∧ s.bayOn k = true ∧ (s.outlet k).awaitOpen = true ∧ (s.outlet k).mirOpen = false ∧ s.bay k ∉ [stService, stDisabled,
      stClosing])
    ∧ (∃ s : State, ∃ k : Fin 12, s.runs = true ∧ s.bayOn k = true ∧ (s.outlet k).weldCheck = true ∧ s.on (F.BAYK_STATE_VOLTAGE k) = true ∧ s.outHigh k = false ∧ s.bay
      k ∉ [stDisabled, stService, stWelded])
    ∧ (∃ s : State, ∃ k : Fin 12, s.runs = true ∧ s.bayOn k = true ∧ (s.outlet k).weldCheck = true ∧ s.on (F.BAYK_STATE_VOLTAGE k) = false)
    ∧ (∃ s : State, ∃ k : Fin 12, s.runs = true ∧ s.bayOn k = true ∧ s.bay k = stWithdrawing)
    ∧ (∃ s : State, ∃ k : Fin 12, s.runs = true ∧ s.bayOn k = true ∧ s.bay k = stFaultF ∧ retriable (s.outlet k).fault = true ∧ s.get (F.BAYK_VIOL_RETRIES k) < s.get
      F.BAY_OC_CFG_RETRY_MAX)
    ∧ (∃ s : State, ∃ k : Fin 12, s.runs = true ∧ s.bayOn k = true ∧ s.bay k = stCharging ∧ (s.outlet k).excess = true ∧ (s.outlet k).paused = false ∧ s.get
      (F.BAYK_VIOL_LEVEL k) = 0)
    ∧ (∃ s : State, ∃ k : Fin 12, s.runs = true ∧ s.bayOn k = true ∧ s.bay k = stCharging ∧ (s.outlet k).excess = true ∧ (s.outlet k).paused = false ∧ s.get
      (F.BAYK_VIOL_LEVEL k) ≠ 0 ∧ (s.outlet k).grace = [])
    ∧ (∃ s : State, ∃ k : Fin 12, s.runs = true ∧ s.bayOn k = true ∧ s.bay k = stCharging ∧ s.on (F.MTRK_QSTAT_VALID k) = false) :=
  ⟨⟨z, 3, by decide +kernel⟩,
   ⟨ch, 3, by decide +kernel⟩,
   ⟨(ch.setOutlet 3 {badWins := 2}), 3, by decide +kernel⟩,
   ⟨z, 0, 0, by decide +kernel⟩,
   ⟨(st z stClosing), 3, by decide +kernel⟩,
   ⟨((st z stFaultF).setOutlet 3 {awaitOpen := true}), 3, by decide +kernel⟩,
   ⟨((st z stIdle).put (F.BAYK_STATE_VOLTAGE 3) 1 |>.setOutlet 3 {weldCheck := true}), 3, by decide +kernel⟩,
   ⟨wk, 3, by decide +kernel⟩,
   ⟨((st z stWithdrawing).setOutlet 3 {conM := true, conA := true}), 3, by decide +kernel⟩,
   ⟨((st z stFaultF).setOutlet 3 {fault := cOver}), 3, by decide +kernel⟩,
   ⟨((st z stCharging).setOutlet 3 {excess := true}), 3, by decide +kernel⟩,
   ⟨(((st z stCharging).setOutlet 3 {excess := true}).put (F.BAYK_VIOL_LEVEL 3) 1), 3, by decide +kernel⟩,
   ⟨ch, 3, by decide +kernel⟩⟩
end O2


namespace O3
def st (s : State) (c : Nat) : State := s.put (F.BAYK_STATE_CODE 3) c
def z := ((State.reset.put (hdrEnable 0x18) 1).put (hdrEnable 0x16) 1).put (hdrEnable 0x33) 1
def fr (typ arg : Nat) : Frame := { typ := typ, seq := 9, ref := none, epoch := 0, status := 0, ver := 1, payload := le 4 0 ++ le 4 arg }
def hd (s : State) (typ arg : Nat) : State := s.setRing 18 { frames := [fr typ arg] }
def za := (z.put (F.BAYK_CFG_AUTH_SRC 3) 1)
def c1 := hd (st za stConnected) 1 0
def c2 := hd (st za stCharging) 2 0
def c3 := hd (st za stCharging) 3 16000
def c4 := hd (st za stOffering) 4 5
def c5 := hd ((st za stOffering).put (F.BAYK_CFG_DIG_GATE 3) 1) 5 0
def c6 := hd ((st za stConnected).put (F.BAYK_CFG_LOCK_EN 3) 1) 6 0
def c7 := (hd ((st za stIdle).put (F.BAYK_CFG_LOCK_EN 3) 1) 7 0).setOutlet 3 { mirOpen := true }
def c8 := hd (st za stFaultF) 8 0
def c9 := hd (st za stIdle) 9 1
def cx := c1.put (F.BAYK_OEPOCH 3) 5
def en0 := (State.reset.put (hdrEnable 0x18) 1).put (hdrEnable 0x16) 1
def en1 := en0.put (F.BAYK_RATED_MA 3) 32000

theorem witness_OutletCommands :
    (∃ s : State, ∃ k : Fin 12, ∃ c : Instr, ∃ typ : Nat, ∃ f : Frame, (((c = .authorise k ∧ typ = 1) ∨ (c = .stop k ∧ typ = 2) ∨ (c = .setLimit k ∧ typ = 3) ∨ (c =
      .pilotPause k ∧ typ = 4) ∨ (c = .allowClose k ∧ typ = 5) ∨ (c = .lock k ∧ typ = 6) ∨ (c = .unlock k ∧ typ = 7) ∨ (c = .resetFault k ∧ typ = 8) ∨ (c = .digital k
      ∧ typ = 9))) ∧ s.runs = true ∧ s.bayHead k typ = some f ∧ ((f.payload.length ≠ 8 ∨ fieldLe f.payload 0 4 ≠ s.get (F.BAYK_OEPOCH k) ∨ s.boot.bench = true ∨
      s.pf.warned = true)) ∧ ((f.payload.length = 8 → if typ = 4 then 1 ≤ cmdArg f ∧ cmdArg f ≤ 10000 else cmdArg f = 0)))
    ∧ (∃ s : State, ∃ k : Fin 12, ∃ f : Frame, s.bayHead k 1 = some f ∧ s.bayTakes k f ∧ cmdArg f = 0 ∧ s.on (F.BAYK_CFG_AUTH_SRC k) = true ∧ ((s.bay k = stConnected ∨
      s.bay k = stOffering)))
    ∧ (∃ s : State, ∃ k : Fin 12, ∃ f : Frame, s.bayHead k 2 = some f ∧ s.bayTakes k f ∧ cmdArg f = 0)
    ∧ (∃ s : State, ∃ k : Fin 12, ∃ f : Frame, s.bayHead k 3 = some f ∧ s.bayTakes k f ∧ ((cmdArg f ≤ 100000 ∨ cmdArg f = 0xFFFFF)))
    ∧ (∃ s : State, ∃ k : Fin 12, ∃ f : Frame, s.bayHead k 4 = some f ∧ s.bayTakes k f ∧ 1 ≤ cmdArg f ∧ cmdArg f ≤ 10000 ∧ ((s.bay k = stOffering ∨ s.bay k = stClosing
      ∨ s.bay k = stCharging)))
    ∧ (∃ s : State, ∃ k : Fin 12, ∃ f : Frame, s.bayHead k 5 = some f ∧ s.bayTakes k f ∧ cmdArg f = 0 ∧ s.bay k = stOffering ∧ s.on (F.BAYK_CFG_DIG_GATE k) = true)
    ∧ (∃ s : State, ∃ k : Fin 12, ∃ f : Frame, s.bayHead k 6 = some f ∧ s.bayTakes k f ∧ cmdArg f = 0 ∧ ((s.bay k = stIdle ∨ s.bay k = stConnected)) ∧ s.on
      (F.BAYK_CFG_LOCK_EN k) = true)
    ∧ (∃ s : State, ∃ k : Fin 12, ∃ f : Frame, s.bayHead k 7 = some f ∧ s.bayTakes k f ∧ cmdArg f = 0 ∧ s.unlockOk k = true)
    ∧ (∃ s : State, ∃ k : Fin 12, ∃ f : Frame, s.bayHead k 8 = some f ∧ s.bayTakes k f ∧ cmdArg f = 0 ∧ s.resetOk k = true)
    ∧ (∃ s : State, ∃ k : Fin 12, ∃ f : Frame, s.bayHead k 9 = some f ∧ s.bayTakes k f ∧ cmdArg f ≤ 1 ∧ s.bay k ≠ stService)
    ∧ (∃ s : State, ∃ req : Req, ∃ k : Fin 12, s.runs = true ∧ s.enabled 0x16 = true ∧ s.enabled 0x18 = true ∧ s.get (F.BAYK_RATED_MA k) ≠ 0 ∧ s.boot.bench = false ∧
      s.enabled (0x30 + k) = false)
    ∧ (∃ s : State, ∃ req : Req, ∃ k : Fin 12, s.runs = true ∧ ((s.enabled 0x16 = false ∨ s.enabled 0x18 = false ∨ s.get (F.BAYK_RATED_MA k) = 0 ∨ s.boot.bench =
      true)))
    ∧ (∃ s : State, ∃ req : Req, ∃ k : Fin 12, s.runs = true ∧ s.bay k ∈ [stClosing, stCharging, stWithdrawing, stOpening, stService])
    ∧ (∃ s : State, ∃ req : Req, ∃ k : Fin 12, s.runs = true ∧ s.enabled (0x30 + k) = true ∧ s.bay k ∉ [stClosing, stCharging, stWithdrawing, stOpening, stService])
    ∧ (∃ s : State, ∃ req : Req, ∃ k : Fin 12, ∃ v : W32, s.runs = true ∧ getBits v 0 20 ≤ 100000 ∧ getBits v 24 8 = s.get (F.BAYK_OEPOCH k) % 256)
    ∧ (∃ s : State, ∃ req : Req, ∃ k : Fin 12, ∃ v : W32, s.runs = true ∧ ((100000 < getBits v 0 20 ∨ getBits v 24 8 ≠ s.get (F.BAYK_OEPOCH k) % 256))) :=
  ⟨⟨cx, 3, Sys2Proof.Instr.authorise 3, 1, { typ := 1, seq := 9, ref := none, epoch := 0, status := 0, ver := 1, payload := [0, 0, 0, 0, 0, 0, 0, 0] },
    by decide +kernel⟩,
   ⟨c1, 3, { typ := 1, seq := 9, ref := none, epoch := 0, status := 0, ver := 1, payload := [0, 0, 0, 0, 0, 0, 0, 0] }, by decide +kernel,
    by unfold State.bayTakes; decide +kernel, by decide +kernel⟩,
   ⟨c2, 3, { typ := 2, seq := 9, ref := none, epoch := 0, status := 0, ver := 1, payload := [0, 0, 0, 0, 0, 0, 0, 0] }, by decide +kernel,
    by unfold State.bayTakes; decide +kernel, by decide +kernel⟩,
   ⟨c3, 3, { typ := 3, seq := 9, ref := none, epoch := 0, status := 0, ver := 1, payload := [0, 0, 0, 0, 128, 62, 0, 0] }, by decide +kernel,
    by unfold State.bayTakes; decide +kernel, by decide +kernel⟩,
   ⟨c4, 3, { typ := 4, seq := 9, ref := none, epoch := 0, status := 0, ver := 1, payload := [0, 0, 0, 0, 5, 0, 0, 0] }, by decide +kernel,
    by unfold State.bayTakes; decide +kernel, by decide +kernel⟩,
   ⟨c5, 3, { typ := 5, seq := 9, ref := none, epoch := 0, status := 0, ver := 1, payload := [0, 0, 0, 0, 0, 0, 0, 0] }, by decide +kernel,
    by unfold State.bayTakes; decide +kernel, by decide +kernel⟩,
   ⟨c6, 3, { typ := 6, seq := 9, ref := none, epoch := 0, status := 0, ver := 1, payload := [0, 0, 0, 0, 0, 0, 0, 0] }, by decide +kernel,
    by unfold State.bayTakes; decide +kernel, by decide +kernel⟩,
   ⟨c7, 3, { typ := 7, seq := 9, ref := none, epoch := 0, status := 0, ver := 1, payload := [0, 0, 0, 0, 0, 0, 0, 0] }, by decide +kernel,
    by unfold State.bayTakes; decide +kernel, by decide +kernel⟩,
   ⟨c8, 3, { typ := 8, seq := 9, ref := none, epoch := 0, status := 0, ver := 1, payload := [0, 0, 0, 0, 0, 0, 0, 0] }, by decide +kernel,
    by unfold State.bayTakes; decide +kernel, by decide +kernel⟩,
   ⟨c9, 3, { typ := 9, seq := 9, ref := none, epoch := 0, status := 0, ver := 1, payload := [0, 0, 0, 0, 1, 0, 0, 0] }, by decide +kernel,
    by unfold State.bayTakes; decide +kernel, by decide +kernel⟩,
   ⟨en1, Sys2Proof.Req.host, 3, by decide +kernel⟩,
   ⟨z, Sys2Proof.Req.host, 0, by decide +kernel⟩,
   ⟨c2, Sys2Proof.Req.host, 3, by decide +kernel⟩,
   ⟨z, Sys2Proof.Req.host, 3, by decide +kernel⟩,
   ⟨z, Sys2Proof.Req.host, 0, 0x00000000#32, by decide +kernel⟩,
   ⟨z, Sys2Proof.Req.host, 0, 0xffffffff#32, by decide +kernel⟩⟩
end O3


namespace Q1
def z := ((({ State.reset with ts := 50, ms := { State.reset.ms with live := 2^15 } }).put (hdrEnable 0x17) 1).put F.RCM_OUT_EN_EN 8).put F.DEC_FREQ_RUN 50000000
def tp : List (Int × Bool) := List.replicate 16 (1000, false)
def y := z.setRc 3 {count := 400}
def x := ((y.put (F.RCM_STAT_SETTLED 3) 1).put (F.RCM_ROW_A_EN 2) 1) 
def tk := (z.put (F.RCM_STAT_SETTLED 3) 1)
def xo : State := ((List.range 8).foldl (fun s n => s.put (F.RCM_ROW_A_EN n) 0) x).put (F.RCM_ROW_A_EN 2) 1
def xh : State := xo.setRc 3 { count := 400, cnt := (List.replicate 8 0).set 2 (x.get (F.RCM_ROW_B_HOLD 2)) }

theorem witness_ResidualCurrent :
    (∃ s : State, ∃ k : Fin 12, ∃ taps : List (Int × Bool), s.runs = true ∧ s.rcmOn k = true ∧ s.rcmLive k = true ∧ min 100000 ((s.rc k).count + taps.length) < s.nDc
      + 27)
    ∧ (∃ s : State, ∃ k : Fin 12, ∃ taps : List (Int × Bool), s.runs = true ∧ s.rcmOn k = true ∧ s.rcmLive k = true ∧ s.nDc + 27 ≤ min 100000 ((s.rc k).count +
      taps.length))
    ∧ (∃ s : State, ∃ k : Fin 12, ∃ taps : List (Int × Bool), ∃ n : Fin 8, s.runs = true ∧ s.rcmOn k = true ∧ s.rcmLive k = true ∧ s.nDc + 27 ≤ min 100000 ((s.rc
      k).count + taps.length) ∧ s.on (F.RCM_STAT_SETTLED k) = true ∧ (taps.any fun x => x.2) = false ∧ (s.rc k).test = none ∧ (s.rc k).held = 0 ∧ s.latched k = false
      ∧ s.rowEn n = true ∧ ((∀ m, m < 8 → m ≠ n.val → s.rowEn m = false)) ∧ (s.rc k).cnt.getD n 0 = s.get (F.RCM_ROW_B_HOLD n))
    ∧ (∃ s : State, ∃ k : Fin 12, ∃ m : Bool, ∃ a : Bool, s.runs = true ∧ ((s.latched k = true ∨ (s.rc k).testLatch = true)) ∧ (m || a) = true)
    ∧ (∃ s : State, ∃ k : Fin 12, s.runs = true)
    ∧ (∃ s : State, ∃ k : Fin 12, s.runs = true ∧ s.rcmOn k = true ∧ ((s.rcmLive k = false ∨ s.on (F.RCM_STAT_INVALID k) = true)))
    ∧ (∃ s : State, ∃ k : Fin 12, s.runs = true ∧ s.testOk k = true)
    ∧ (∃ s : State, ∃ k : Fin 12, s.runs = true ∧ s.testOk k = false ∧ (s.rc k).auto = false)
    ∧ (∃ s : State, ∃ k : Fin 12, s.runs = true ∧ (s.rc k).postDue = true ∧ s.latched k = true ∧ 1000 ≤ (s.rc k).calm ∧ s.testOk k = true)
    ∧ (∃ s : State, ∃ k : Fin 12, ∃ x : SelfTest, s.runs = true ∧ (s.rc k).test = some x ∧ 900 ≤ x.ms) :=
  ⟨⟨z, 3, [], by decide +kernel⟩,
   ⟨y, 3, [], by decide +kernel⟩,
   ⟨xh, 3, tp, 2, by decide +kernel⟩,
   ⟨(z.put (bitFld A.RCM_LATCH 3) 1), 3, true, true, by decide +kernel⟩,
   ⟨z, 0, by decide +kernel⟩,
   ⟨((z.setOutlet 3 {conM := true}).put (F.RCM_STAT_INVALID 3) 1), 3, by decide +kernel⟩,
   ⟨x, 3, by decide +kernel⟩,
   ⟨z, 0, by decide +kernel⟩,
   ⟨((tk.put (bitFld A.RCM_LATCH 3) 1).setRc 3 {postDue := true, calm := 1000}), 3, by decide +kernel⟩,
   ⟨(tk.setRc 3 {test := some {ms := 900}}), 3, { ms := 900, dc := 0, ac := 0, n := 0, dc0 := 0, ac0 := 0, result := 1 }, by decide +kernel⟩⟩
end Q1


namespace C1
def z := State.reset
def j1 := ((((z.put F.CAL_STATUS_JIG 1).put F.CAL_SHIM_SEL_SET 1).put F.SEA_STAT_SESSION 0x4D))
def j2 := {j1 with sealEn := true}

theorem witness_TemperatureAndShimWords :
    (∃ s : State, ∃ reading : Int, s.runs = true)
    ∧ (∃ s : State, s.runs = true)
    ∧ (∃ s : State, ∃ req : Req, ∃ val : W32, ∃ i : Nat, s.runs = true ∧ s.privOpen = true ∧ s.shimIndex = some i ∧ s.on F.CAL_SHIM_SEL_SET = true ∧ s.on
      F.CAL_STATUS_JIG = true ∧ shimOk (s.get F.CAL_SHIM_SEL_TABLE) (s.get F.CAL_SHIM_SEL_WORD) val = true)
    ∧ (∃ s : State, ∃ req : Req, ∃ priv : Bool, ∃ val : W32, s.runs = true ∧ (priv && s.privOpen) = false)
    ∧ (∃ s : State, ∃ req : Req, ∃ val : W32, s.runs = true ∧ s.privOpen = true ∧ s.shimIndex.isSome = true ∧ s.on F.CAL_SHIM_SEL_SET = true ∧ s.on F.CAL_STATUS_JIG =
      false)
    ∧ (∃ s : State, ∃ req : Req, ∃ val : W32, ∃ w : Nat, s.runs = true ∧ s.privOpen = true ∧ s.on F.CAL_SHIM_SEL_SET = true ∧ s.on F.CAL_STATUS_JIG = true ∧ s.get
      F.CAL_SHIM_SEL_TABLE = 0 ∧ s.get F.CAL_SHIM_SEL_UNIT < 64 ∧ s.get F.CAL_SHIM_SEL_WORD = w ∧ ((w = 0 ∧ 335544 < val.toInt.natAbs) ∨ (w = 1 ∧ val = 0) ∨ (w = 2 ∧
      5000000 < val.toInt.natAbs)))
    ∧ (∃ s : State, s.runs = true ∧ s.cal.windowOpen = true ∧ s.cal.windowLeft = 0)
    ∧ (∃ s : State, s.runs = true ∧ ((s.cal.windowOpen = false ∨ s.cal.windowLeft ≠ 0))) :=
  ⟨⟨z, 0, by decide +kernel⟩,
   ⟨z, by decide +kernel⟩,
   ⟨j2, Sys2Proof.Req.host, 0x00000000#32, 8, by decide +kernel⟩,
   ⟨z, Sys2Proof.Req.host, true, 0x00000000#32, by decide +kernel⟩,
   ⟨(j2.put F.CAL_STATUS_JIG 0), Sys2Proof.Req.host, 0x00000000#32, by decide +kernel⟩,
   ⟨j2, Sys2Proof.Req.host, 0x0007a120#32, 0, by decide +kernel⟩,
   ⟨{z with cal := {z.cal with windowOpen := true, windowLen := 1024}}, by decide +kernel⟩,
   ⟨z, by decide +kernel⟩⟩
end C1


namespace C2
def z := State.reset
def j := z.put F.CAL_STATUS_JIG 1
def ji : State := ((((j.put (hdrEnable 0x13) 1).put F.CAL_CFG_BG_EN 1).put F.AFE_INJ_CFG_EN 1).put (F.AFE_CH_CFG_INJ_EN 3) 1)

theorem witness_JigOperations :
    (∃ s : State, ∃ ch : Fin 64, ∃ n : Nat, s.runs = true ∧ s.on F.CAL_JIG_STAT_BUSY = false ∧ s.on F.CAL_STATUS_JIG = true ∧ n ≠ 0)
    ∧ (∃ s : State, ∃ ch : Fin 64, ∃ volt : Bool, ∃ n : Nat, s.runs = true ∧ s.on F.CAL_JIG_STAT_BUSY = false ∧ s.on F.CAL_STATUS_JIG = true ∧ n ≠ 0)
    ∧ (∃ s : State, ∃ ch : Fin 64, ∃ refCh : Fin 64, ∃ n : Nat, s.runs = true ∧ s.on F.CAL_JIG_STAT_BUSY = false ∧ s.on F.CAL_STATUS_JIG = true ∧ n ≠ 0)
    ∧ (∃ s : State, ∃ ch : Fin 64, ∃ n : Nat, s.runs = true ∧ s.on F.CAL_JIG_STAT_BUSY = false ∧ s.on F.CAL_STATUS_JIG = true ∧ 4096 ≤ n ∧ s.injected ch = true)
    ∧ (∃ s : State, ∃ ch : Fin 64, ∃ refCh : Fin 64, ∃ volt : Bool, ∃ n : Nat, s.runs = true ∧ s.on F.CAL_JIG_STAT_BUSY = false ∧ s.on F.CAL_STATUS_JIG = false ∧ n ≠ 0)
    ∧ (∃ s : State, ∃ ch : Fin 64, ∃ refCh : Fin 64, ∃ volt : Bool, ∃ n : Nat, s.runs = true ∧ s.on F.CAL_JIG_STAT_BUSY = true)
    ∧ (∃ s : State, ∃ ch : Fin 64, s.runs = true ∧ s.on F.CAL_JIG_STAT_BUSY = false ∧ s.on F.CAL_STATUS_JIG = true)
    ∧ (∃ s : State, s.runs = true ∧ s.on F.CAL_JIG_STAT_BUSY = false ∧ s.on F.CAL_STATUS_JIG = true)
    ∧ (∃ s : State, s.runs = true ∧ s.on F.CAL_JIG_STAT_BUSY = false ∧ s.on F.CAL_STATUS_JIG = true ∧ s.dirty = true ∧ s.cal.commit = none)
    ∧ (∃ s : State, s.runs = true ∧ s.on F.CAL_JIG_STAT_BUSY = false ∧ s.on F.CAL_STATUS_JIG = true ∧ s.dirty = false) :=
  ⟨⟨j, 0, 1, by decide +kernel⟩,
   ⟨j, 0, true, 1, by decide +kernel⟩,
   ⟨j, 0, 0, 1, by decide +kernel⟩,
   ⟨ji, 3, 4096, by decide +kernel⟩,
   ⟨z, 0, 0, true, 1, by decide +kernel⟩,
   ⟨(run (.jigOffset 3 10) j), 0, 0, true, 0, by decide +kernel⟩,
   ⟨j, 0, by decide +kernel⟩,
   ⟨j, by decide +kernel⟩,
   ⟨{j with cal := {j.cal with pend := [(8, 5)]}}, by decide +kernel⟩,
   ⟨j, by decide +kernel⟩⟩

theorem witness_JigResultsAndActivation :
    (∃ s : State, ∃ o : JigOp, s.runs = true ∧ s.cal.jigOp = some o ∧ o.cycles ≤ o.gathered ∧ s.band = s.get F.CAL_JIG_STAT_BAND ∧ o.op = 1)
    ∧ (∃ s : State, ∃ o : JigOp, ∃ words : List (Nat × W32), ∃ res : Int, s.runs = true ∧ s.cal.jigOp = some o ∧ o.cycles ≤ o.gathered ∧ s.band = s.get
      F.CAL_JIG_STAT_BAND ∧ s.jigResult o = (words, res))
    ∧ (∃ s : State, ∃ o : JigOp, s.runs = true ∧ s.cal.jigOp = some o ∧ o.gathered < o.cycles ∧ 4 * o.cycles ≤ o.elapsed)
    ∧ (∃ s : State, ∃ o : JigOp, s.runs = true ∧ s.cal.jigOp = some o ∧ o.gathered < o.cycles ∧ o.elapsed < 4 * o.cycles)
    ∧ (∃ s : State, ∃ c : Commit, s.runs = true ∧ s.cal.commit = some c ∧ c.step = 5)
    ∧ (∃ s : State, s.runs = true ∧ ((∀ c, s.cal.commit = some c → c.step ≠ 5))) :=
  ⟨⟨{j with cal := {j.cal with jigOp := some {op := 1, ch := 3, refCh := 0, cycles := 1, volt := false, gathered := 1, n := 256, sx := 256*2^30*77}}},
    { op := 1, ch := 3, refCh := 0, cycles := 1, volt := false, gathered := 1, elapsed := 0, begun := false, n := 256, sx := 21165598834688, sxx := 0, re := 0, im := 0, sums := { hist := [], stepRun := [], absRun := 0, skipStep := false, usable := 0, n := 0, sde := 0, sdf := 0, see := 0, sff := 0, sef := 0, sdd := 0 } },
    by decide +kernel⟩,
   ⟨{j with cal := {j.cal with jigOp := some {op := 1, ch := 3, refCh := 0, cycles := 1, volt := false, gathered := 1, n := 256, sx := 256*2^30*77}}},
    { op := 1, ch := 3, refCh := 0, cycles := 1, volt := false, gathered := 1, elapsed := 0, begun := false, n := 256, sx := 21165598834688, sxx := 0, re := 0, im := 0, sums := { hist := [], stepRun := [], absRun := 0, skipStep := false, usable := 0, n := 0, sde := 0, sdf := 0, see := 0, sff := 0, sef := 0, sdd := 0 } },
    [(104, 0x0000004d#32)], 77, by decide +kernel⟩,
   ⟨{j with cal := {j.cal with jigOp := some {op := 1, ch := 3, refCh := 0, cycles := 1, volt := false, gathered := 0, elapsed := 4}}},
    { op := 1, ch := 3, refCh := 0, cycles := 1, volt := false, gathered := 0, elapsed := 4, begun := false, n := 0, sx := 0, sxx := 0, re := 0, im := 0, sums := { hist := [], stepRun := [], absRun := 0, skipStep := false, usable := 0, n := 0, sde := 0, sdf := 0, see := 0, sff := 0, sef := 0, sdd := 0 } },
    by decide +kernel⟩,
   ⟨(run (.jigOffset 3 10) j),
    { op := 1, ch := 3, refCh := 0, cycles := 10, volt := false, gathered := 0, elapsed := 0, begun := false, n := 0, sx := 0, sxx := 0, re := 0, im := 0, sums := { hist := [], stepRun := [], absRun := 0, skipStep := false, usable := 0, n := 0, sde := 0, sdf := 0, see := 0, sff := 0, sef := 0, sdd := 0 } },
    by decide +kernel⟩,
   ⟨{j with cal := {j.cal with commit := some ⟨5, 1, 2, ⟨7, 8, 9, 10, 11, [(shimRef 3 0, 55)]⟩⟩}},
    { step := 5, old := 1, oldSeq := 2, record := { seq := 7, id := 8, cfg := 9, limGain := 10, limPhase := 11, words := [(8974, 0x00000037#32)] } },
    by decide +kernel⟩,
   ⟨z, by decide +kernel⟩⟩
end C2


namespace P1
def z := ((({ State.reset with ts := 500, mt := { State.reset.mt with total := 5 } }).put (hdrEnable 0x14) 1).put (hdrEnable 0x11) 1)
def i0 := {z with ms := {z.ms with idx := 1}}
def lo : State := z.setRing 40 { lost := 1 }

theorem witness_PowerQualityAndCapture :
    (∃ s : State, s.runs = true ∧ s.enabled 0x14 = true ∧ s.enabled 0x11 = true ∧ s.ms.idx % 128 = 1 ∧ s.pq.last ≠ s.mt.total ∧ s.pf.warned = false ∧ ((∀ e ∈
      s.pq.events, e.feeder < 4 ∧ e.kind ≤ 3)))
    ∧ (∃ s : State, s.runs = true ∧ s.enabled 0x14 = true ∧ s.enabled 0x11 = true ∧ s.ms.idx % 128 = 1 ∧ s.pq.last ≠ s.mt.total ∧ s.pf.warned = true ∧ ((∀ e ∈
      s.pq.events, e.feeder < 4 ∧ e.kind ≤ 3)))
    ∧ (∃ s : State, s.runs = true ∧ ((s.enabled 0x14 = false ∨ s.enabled 0x11 = false ∨ s.ms.idx % 128 ≠ 1 ∨ s.pq.last = s.mt.total)))
    ∧ (∃ s : State, s.runs = true ∧ s.on F.PQE_CAP_CTRL_ARM = false)
    ∧ (∃ s : State, s.runs = true ∧ s.on F.PQE_CAP_CTRL_ARM = true)
    ∧ (∃ s : State, ∃ arm : Bool, s.runs = true ∧ s.on F.PQE_CAP_CTRL_ARM = arm)
    ∧ (∃ s : State, s.runs = true ∧ ((s.enabled 0x14 = false ∨ s.get F.PQE_CAP_STAT_STATE = 0 ∨ s.get F.PQE_CAP_STAT_STATE = 2)))
    ∧ (∃ s : State, s.runs = true ∧ s.enabled 0x14 = true ∧ s.pf.warned = false ∧ s.get F.PQE_CAP_STAT_STATE = 1)
    ∧ (∃ s : State, s.runs = true ∧ s.enabled 0x14 = true ∧ s.get F.PQE_CAP_STAT_STATE = 3)
    ∧ (∃ s : State, s.runs = true)
    ∧ (∃ s : State, s.runs = true ∧ s.enabled 0x14 = true ∧ s.get F.PQE_CAP_STAT_STATE = 3 ∧ s.takes (40 + s.pq.slot % 4) ∧ 0 < (min (min 3 ((s.slotSize (40 +
      s.pq.slot % 4) - 60) / 1024)) ((s.get F.PQE_CAP_CFG_PRE + s.get F.PQE_CAP_CFG_POST) - s.pq.pos)))
    ∧ (∃ s : State, s.runs = true ∧ ¬ s.takes (40 + s.pq.slot % 4))
    ∧ (∃ s : State, s.runs = true) :=
  ⟨⟨i0, by decide +kernel⟩,
   ⟨{i0 with pf := {i0.pf with warned := true}, pq := {i0.pq with events := [⟨1,2,3,4,5,6,7,8,9,10,11,12⟩]}}, by decide +kernel⟩,
   ⟨z, by decide +kernel⟩,
   ⟨z, by decide +kernel⟩,
   ⟨((z.put F.PQE_CAP_CTRL_ARM 1).put F.PQE_CAP_STAT_STATE 1), by decide +kernel⟩,
   ⟨z, false, by decide +kernel⟩,
   ⟨z, by decide +kernel⟩,
   ⟨((z.put F.PQE_CAP_CTRL_ARM 1).put F.PQE_CAP_STAT_STATE 1), by decide +kernel⟩,
   ⟨(z.put F.PQE_CAP_STAT_STATE 3), by decide +kernel⟩,
   ⟨z, by decide +kernel⟩,
   ⟨(z.put F.PQE_CAP_STAT_STATE 3), by decide +kernel, by decide +kernel, by decide +kernel, by unfold State.takes; decide +kernel, by decide +kernel⟩,
   ⟨lo, by decide +kernel, fun h => absurd h.1 (by decide +kernel)⟩,
   ⟨z, by decide +kernel⟩⟩
end P1


namespace Se1
def pay (l : List Nat) : List Byte := l.map (BitVec.ofNat 8)
def fr (k typ : Nat) (p : List Byte) (s : State) : State := s.setRing (15+k) { frames := [{typ := typ, seq := 5, ref := none, epoch := 0, status := 0, ver := 2, payload := p}] }
def z0 := (((((State.reset.put (hdrEnable 0x19) 1).put (hdrEnable 0x23) 1).put F.MTR_LEGAL_STAT_LEGAL_OK 1).put F.BKP_STATUS_TIME_SET 1).put F.SEA_STAT_KEY_OK 1)
def z := ({(z0.put (F.BAYK_CFG_AUTH_SRC 3) 0) with boot := {z0.boot with bench := false}})
def idp := pay ([0,0,0,0] ++ [1,2,3,4,5,6,7,8] ++ List.replicate 12 0 ++ [1,0,0,0])
def zi := fr 3 0x20 idp z
def dp (v : Nat) := pay ([0,0,0,0] ++ [v,0,2,0] ++ List.replicate 8 0)
def ss := fr 3 0x22 (pay (List.replicate 8 0)) z

theorem witness_SessionCommands :
    (∃ s : State, ∃ k : Fin 12, ∃ f : Frame, ∃ r : Nat, ∃ fe : Nat, ∃ gp : Nat, s.cmdOutlet k 0x20 = some f ∧ s.canIdentify k f ∧ s.ses k = sesIdle ∧ s.lookup
      ((f.payload.drop 4).take 8) = (r, fe, gp) ∧ ((r = 0 ∨ (r = 3 ∧ s.get F.SES_CFG_UNKNOWN_POLICY = 2))) ∧ s.bayReady k = true)
    ∧ (∃ s : State, ∃ k : Fin 12, ∃ f : Frame, ∃ r : Nat, ∃ fe : Nat, ∃ gp : Nat, s.cmdOutlet k 0x20 = some f ∧ s.canIdentify k f ∧ s.ses k = sesIdle ∧ s.lookup
      ((f.payload.drop 4).take 8) = (r, fe, gp) ∧ ((r = 0 ∨ (r = 3 ∧ s.get F.SES_CFG_UNKNOWN_POLICY = 2))) ∧ s.bay k = stIdle)
    ∧ (∃ s : State, ∃ k : Fin 12, ∃ f : Frame, ∃ fe : Nat, ∃ gp : Nat, s.cmdOutlet k 0x20 = some f ∧ s.canIdentify k f ∧ s.ses k = sesIdle ∧ s.lookup ((f.payload.drop
      4).take 8) = (3, fe, gp) ∧ s.get F.SES_CFG_UNKNOWN_POLICY = 1)
    ∧ (∃ s : State, ∃ k : Fin 12, ∃ f : Frame, ∃ r : Nat, ∃ fe : Nat, ∃ gp : Nat, s.cmdOutlet k 0x20 = some f ∧ s.canIdentify k f ∧ s.ses k = sesIdle ∧ s.lookup
      ((f.payload.drop 4).take 8) = (r, fe, gp) ∧ ((r = 1 ∨ r = 2 ∨ (r = 3 ∧ s.get F.SES_CFG_UNKNOWN_POLICY ≠ 1 ∧ s.get F.SES_CFG_UNKNOWN_POLICY ≠ 2))))
    ∧ (∃ s : State, ∃ k : Fin 12, ∃ f : Frame, s.cmdOutlet k 0x20 = some f ∧ s.canIdentify k f ∧ s.ses k = sesActive ∧ s.on F.SES_CFG_TAP_STOP = true ∧ (s.session
      k).key = (f.payload.drop 4).take 8 ∧ (s.session k).startMark ≠ 0)
    ∧ (∃ s : State, ∃ k : Fin 12, ∃ f : Frame, s.cmdOutlet k 0x20 = some f ∧ s.runs = true ∧ f.payload.length < 28)
    ∧ (∃ s : State, ∃ k : Fin 12, ∃ f : Frame, s.cmdOutlet k 0x21 = some f ∧ s.sesTakes k f ∧ f.payload.length = 16 ∧ fieldLe f.payload 4 1 ≤ 1 ∧ fieldLe f.payload 6 1
      ≤ 7 ∧ s.ses k = sesPending)
    ∧ (∃ s : State, ∃ k : Fin 12, ∃ f : Frame, s.cmdOutlet k 0x21 = some f ∧ s.sesTakes k f ∧ f.payload.length = 16 ∧ fieldLe f.payload 4 1 ≤ 1 ∧ fieldLe f.payload 6 1
      ≤ 7 ∧ s.ses k ≠ sesPending)
    ∧ (∃ s : State, ∃ k : Fin 12, ∃ f : Frame, s.cmdOutlet k 0x22 = some f ∧ s.sesTakes k f ∧ f.payload.length = 8)
    ∧ (∃ s : State, ∃ k : Fin 12, ∃ f : Frame, s.cmdOutlet k 0x23 = some f ∧ s.sesTakes k f ∧ f.payload.length = 12 ∧ s.legal.watermark ≠ 0xFFFFFFFF ∧ s.on
      F.SEA_STAT_KEY_OK = true) :=
  ⟨⟨((zi.put F.SES_CFG_UNKNOWN_POLICY 2).put (F.BAYK_STATE_CODE 3) stConnected), 3,
    { typ := 32, seq := 5, ref := none, epoch := 0, status := 0, ver := 2, payload := [0, 0, 0, 0, 1, 2, 3, 4, 5, 6, 7, 8, 0, 0, 0, 0, 0, 0, 0, 0, 0, 0, 0, 0, 1, 0, 0, 0] },
    3, 0, 0, by decide +kernel, by unfold State.canIdentify State.sesTakes; decide +kernel, by decide +kernel⟩,
   ⟨((zi.put F.SES_CFG_UNKNOWN_POLICY 2).put (F.BAYK_STATE_CODE 3) stIdle), 3,
    { typ := 32, seq := 5, ref := none, epoch := 0, status := 0, ver := 2, payload := [0, 0, 0, 0, 1, 2, 3, 4, 5, 6, 7, 8, 0, 0, 0, 0, 0, 0, 0, 0, 0, 0, 0, 0, 1, 0, 0, 0] },
    3, 0, 0, by decide +kernel, by unfold State.canIdentify State.sesTakes; decide +kernel, by decide +kernel⟩,
   ⟨(zi.put F.SES_CFG_UNKNOWN_POLICY 1), 3,
    { typ := 32, seq := 5, ref := none, epoch := 0, status := 0, ver := 2, payload := [0, 0, 0, 0, 1, 2, 3, 4, 5, 6, 7, 8, 0, 0, 0, 0, 0, 0, 0, 0, 0, 0, 0, 0, 1, 0, 0, 0] },
    0, 0, by decide +kernel, by unfold State.canIdentify State.sesTakes; decide +kernel, by decide +kernel⟩,
   ⟨zi, 3,
    { typ := 32, seq := 5, ref := none, epoch := 0, status := 0, ver := 2, payload := [0, 0, 0, 0, 1, 2, 3, 4, 5, 6, 7, 8, 0, 0, 0, 0, 0, 0, 0, 0, 0, 0, 0, 0, 1, 0, 0, 0] },
    3, 0, 0, by decide +kernel, by unfold State.canIdentify State.sesTakes; decide +kernel, by decide +kernel⟩,
   ⟨(((zi.put F.SES_CFG_TAP_STOP 1).put (F.SES_OUT_STAT_STATE 3) sesActive).setSession 3 {key := pay [1,2,3,4,5,6,7,8], startMark := 4}), 3,
    { typ := 32, seq := 5, ref := none, epoch := 0, status := 0, ver := 2, payload := [0, 0, 0, 0, 1, 2, 3, 4, 5, 6, 7, 8, 0, 0, 0, 0, 0, 0, 0, 0, 0, 0, 0, 0, 1, 0, 0, 0] },
    by decide +kernel, by unfold State.canIdentify State.sesTakes; decide +kernel, by decide +kernel⟩,
   ⟨(fr 3 0x20 [] z), 3, { typ := 32, seq := 5, ref := none, epoch := 0, status := 0, ver := 2, payload := [] }, by decide +kernel⟩,
   ⟨((((fr 3 0x21 (dp 0) z).put (F.SES_OUT_STAT_STATE 3) sesPending).put (F.BAYK_STATE_CODE 3) stConnected).setSession 3 {referral := some 7}), 3,
    { typ := 33, seq := 5, ref := none, epoch := 0, status := 0, ver := 2, payload := [0, 0, 0, 0, 0, 0, 2, 0, 0, 0, 0, 0, 0, 0, 0, 0] }, by decide +kernel,
    by unfold State.sesTakes; decide +kernel, by decide +kernel⟩,
   ⟨(fr 3 0x21 (dp 0) z), 3, { typ := 33, seq := 5, ref := none, epoch := 0, status := 0, ver := 2, payload := [0, 0, 0, 0, 0, 0, 2, 0, 0, 0, 0, 0, 0, 0, 0, 0] },
    by decide +kernel, by unfold State.sesTakes; decide +kernel, by decide +kernel⟩,
   ⟨ss, 3, { typ := 34, seq := 5, ref := none, epoch := 0, status := 0, ver := 2, payload := [0, 0, 0, 0, 0, 0, 0, 0] }, by decide +kernel,
    by unfold State.sesTakes; decide +kernel, by decide +kernel⟩,
   ⟨(fr 3 0x23 (pay (List.replicate 12 0)) z), 3,
    { typ := 35, seq := 5, ref := none, epoch := 0, status := 0, ver := 2, payload := [0, 0, 0, 0, 0, 0, 0, 0, 0, 0, 0, 0] }, by decide +kernel,
    by unfold State.sesTakes; decide +kernel, by decide +kernel⟩⟩
end Se1


namespace Se2
def z0 := (((((State.reset.put (hdrEnable 0x19) 1).put (hdrEnable 0x23) 1).put F.MTR_LEGAL_STAT_LEGAL_OK 1).put F.BKP_STATUS_TIME_SET 1).put F.SEA_STAT_KEY_OK 1)
def z := {z0 with ts := 61*32768}
def q (b : Nat) (s : State) := {s with se := {s.se with queue := [⟨(BitVec.ofNat 8 b) :: List.replicate 127 0, 37, 3, none⟩]}}
def zr (s : State) : State := { s with nv := {s.nv with reams := [(0, {state := 1, stream := 0, records := 1})], heads := [(0, {next := 6})]}}

-- of SessionTimersAndSigning
theorem witness_SessionTimersAndCosts :
    (∃ s : State, ∃ k : Fin 12, ∃ r : Nat, s.runs = true ∧ s.ses k = sesPending ∧ (s.session k).referral = some r)
    ∧ (∃ s : State, ∃ k : Fin 12, s.runs = true ∧ s.ses k ≠ sesPending)
    ∧ (∃ s : State, ∃ k : Fin 12, s.runs = true)
    ∧ (∃ s : State, ∃ k : Fin 12, s.runs = true)
    ∧ (∃ s : State, s.runs = true)
    ∧ (∃ s : State, s.runs = true ∧ s.get F.SES_TIMING_METER_PERIOD ≠ 0 ∧ s.pf.warned = false ∧ s.enabled 0x19 = true ∧ s.on F.SEA_STAT_KEY_OK = true)
    ∧ (∃ s : State, s.runs = true ∧ s.get F.SES_TIMING_METER_PERIOD ≠ 0 ∧ s.pf.warned = false ∧ s.enabled 0x19 = true ∧ s.on F.SEA_STAT_KEY_OK = false)
    ∧ (∃ s : State, s.runs = true ∧ ((s.get F.SES_TIMING_METER_PERIOD = 0 ∨ s.pf.warned = true ∨ s.enabled 0x19 = false)))
    ∧ (∃ s : State, s.runs = true ∧ ((s.get F.SES_IDLE_CFG_PROGRESS_S = 0 ∨ ∀ k, k < 12 → s.ses k ≠ sesActive)))
    ∧ (∃ s : State, ∃ k : Nat, s.runs = true ∧ s.get F.SES_IDLE_CFG_PROGRESS_S ≠ 0 ∧ k < 12 ∧ s.ses k = sesActive ∧ ((∀ j, j < k → s.ses j ≠ sesActive))) :=
  ⟨⟨((z.put (F.SES_OUT_STAT_STATE 3) sesPending).setSession 3 {referral := some 7}), 3, 7, by decide +kernel⟩,
   ⟨z0, 0, by decide +kernel⟩,
   ⟨z0, 0, by decide +kernel⟩,
   ⟨z0, 0, by decide +kernel⟩,
   ⟨z0, by decide +kernel⟩,
   ⟨(z.put F.SES_TIMING_METER_PERIOD 5), by decide +kernel⟩,
   ⟨((z.put F.SES_TIMING_METER_PERIOD 5).put F.SEA_STAT_KEY_OK 0), by decide +kernel⟩,
   ⟨z0, by decide +kernel⟩,
   ⟨State.reset, by decide +kernel, Or.inr (by decide +kernel)⟩,
   ⟨((z.put (F.SES_OUT_STAT_STATE 3) sesActive)), 3, by decide +kernel⟩⟩

-- of SessionTimersAndSigning
theorem witness_SigningAndAppending :
    (∃ s : State, ∃ r : SignReq, ∃ rest : List SignReq, s.runs = true ∧ s.se.queue = r :: rest ∧ r.outlet < 12 ∧ s.canSign = true)
    ∧ (∃ s : State, s.runs = true ∧ ((s.canSign = false ∨ s.se.queue = [])))
    ∧ (∃ s : State, ∃ x : Staged, s.runs = true ∧ s.se.staged = some x ∧ s.se.retry = true ∧ x.delivered = false ∧ s.pf.warned = false ∧ x.req.outlet < 12)
    ∧ (∃ s : State, s.runs = true ∧ ((∀ x, s.se.staged = some x → s.se.retry = false ∨ x.delivered = true ∨ s.pf.warned = true))) :=
  ⟨⟨(q 2 z),
    { body := [2, 0, 0, 0, 0, 0, 0, 0, 0, 0, 0, 0, 0, 0, 0, 0, 0, 0, 0, 0, 0, 0, 0, 0, 0, 0, 0, 0, 0, 0, 0, 0, 0, 0, 0, 0, 0, 0, 0, 0, 0, 0, 0, 0, 0, 0, 0, 0, 0, 0, 0, 0, 0, 0, 0, 0, 0, 0, 0, 0, 0, 0, 0, 0, 0, 0, 0, 0, 0, 0, 0, 0, 0, 0, 0, 0, 0, 0, 0, 0, 0, 0, 0, 0, 0, 0, 0, 0, 0, 0, 0, 0, 0, 0, 0, 0, 0, 0, 0, 0, 0, 0, 0, 0, 0, 0, 0, 0, 0, 0, 0, 0, 0, 0, 0, 0, 0, 0, 0, 0, 0, 0, 0, 0, 0, 0, 0, 0], ring := 37, outlet := 3, ref := none },
    [], by decide +kernel⟩,
   ⟨z0, by decide +kernel⟩,
   ⟨(zr {z with se := {z.se with staged := some ⟨[], 5, ⟨[2],37,3,none⟩, false, false⟩, retry := true}}),
    { bytes := [], mark := 5, req := { body := [2], ring := 37, outlet := 3, ref := none }, queued := false, delivered := false }, by decide +kernel⟩,
   ⟨z0, by decide +kernel⟩⟩
end Se2


namespace Se3
def z := State.reset
def key (n : Nat) (s : State) := (s.setReg A.SES_AC_KEY_LO (BitVec.ofNat 32 n)).setReg A.SES_AC_FLAGS_EXP 0x3ffffff
def one := run .cacheInsert (key 5 z)
def full := {z with sram := (bucketAt 5 ++ bucketAt 0).foldl (fun m a => spWrite sramBlank m (a+11) (1 : Byte)) []}
def bad := run (.tariffStore .host 0x1122) ((z.put F.SES_TARIFF_IDX_IDX 3).setReg A.SES_TARIFF_W0 0x1fc00005)
def tt : State := z.sramPut 0x70800 (le 4 (1439 * 2048 + 127 * 2 ^ 22) ++ le 12 0 ++ le 4 (1439 * 2048 + 127 * 2 ^ 22) ++ le 12 0)

theorem witness_AuthorisationCache :
    (∃ s : State, ∃ a : Nat, s.runs = true ∧ s.cacheFind s.acKey = some a)
    ∧ (∃ s : State, s.runs = true ∧ s.cacheFind s.acKey = none ∧ ((∃ a ∈ bucketAt (buckets s.acKey).1 ++ bucketAt (buckets s.acKey).2, s.cacheValid a = false)))
    ∧ (∃ s : State, s.runs = true ∧ s.cacheFind s.acKey = none ∧ ((∀ a ∈ bucketAt (buckets s.acKey).1 ++ bucketAt (buckets s.acKey).2, s.cacheValid a = true)))
    ∧ (∃ s : State, ∃ a : Nat, s.runs = true ∧ s.cacheFind s.acKey = some a)
    ∧ (∃ s : State, s.runs = true ∧ s.cacheFind s.acKey = none)
    ∧ (∃ s : State, ∃ r : Nat, ∃ fe : Nat, ∃ gp : Nat, s.runs = true ∧ s.lookup s.acKey = (r, fe, gp))
    ∧ (∃ s : State, s.runs = true) :=
  ⟨⟨one, 393856, by decide +kernel⟩,
   ⟨z, by decide +kernel⟩,
   ⟨(key 5 full), by decide +kernel⟩,
   ⟨one, 393856, by decide +kernel⟩,
   ⟨z, by decide +kernel⟩,
   ⟨z, 3, 0, 0, by decide +kernel⟩,
   ⟨z, by decide +kernel⟩⟩

theorem witness_Tariffs :
    (∃ s : State, ∃ req : Req, ∃ val : W32, s.runs = true ∧ s.get F.SES_TARIFF_IDX_IDX < 96)
    ∧ (∃ s : State, ∃ req : Req, ∃ val : W32, s.runs = true ∧ 96 ≤ s.get F.SES_TARIFF_IDX_IDX)
    ∧ (∃ s : State, s.runs = true ∧ tariffOk (s.tariffs 0x70800) = true)
    ∧ (∃ s : State, s.runs = true ∧ tariffOk (s.tariffs 0x70800) = false)
    ∧ (∃ s : State, ∃ p : Tariff, p ∈ s.tariffs 0x70800 ∧ ((p.stop ≤ p.start ∨ 1440 < p.stop)))
    ∧ (∃ s : State, ∃ p : Tariff, ∃ q : Tariff, ∃ d : Nat, ∃ i : Nat, ∃ j : Nat, (s.tariffs 0x70800)[i]? = some p ∧ (s.tariffs 0x70800)[j]? = some q ∧ i ≠ j ∧ p.plan =
      q.plan ∧ d < 7 ∧ p.days.testBit d = true ∧ q.days.testBit d = true ∧ p.start < q.stop ∧ q.start < p.stop)
    ∧ (∃ s : State, ∃ at' : Nat, s.runs = true ∧ s.se.switchAt = some at')
    ∧ (∃ s : State, s.runs = true ∧ s.se.switchAt = none)
    ∧ (∃ s : State, s.runs = true) :=
  ⟨⟨z, Sys2Proof.Req.host, 0x00000000#32, by decide +kernel⟩,
   ⟨(z.put F.SES_TARIFF_IDX_IDX 100), Sys2Proof.Req.host, 0x00000000#32, by decide +kernel⟩,
   ⟨z, by decide +kernel⟩,
   ⟨bad, by decide +kernel⟩,
   ⟨bad, { start := 5, stop := 0, days := 127, plan := 0, energy := 0, time := 0, idle := 4386 }, by decide +kernel⟩,
   ⟨tt, ⟨0, 1439, 127, 0, 0, 0, 0⟩, ⟨0, 1439, 127, 0, 0, 0, 0⟩, 0, 0, 1, by decide +kernel⟩,
   ⟨(run .tariffActivate z), 60, by decide +kernel⟩,
   ⟨z, by decide +kernel⟩,
   ⟨z, by decide +kernel⟩⟩
end Se3


namespace N1
def w4 (n : Nat) : List Byte := le 4 n
def cmd (typ : Nat) (p : List Byte) (s : State) : State := s.setRing 46 { frames := [{typ := typ, seq := 5, ref := none, epoch := 0, status := 0, ver := 2, payload := p}] }
def z := (State.reset.put (hdrEnable 8) 1).put (hdrEnable 9) 1
def zr : State := { z with nv := {z.nv with reams := [(20, {state := 1, stream := 1, records := 1})]}}
def ap : State := { z with nv := { z.nv with reams := [(20, { state := 1, stream := 1, records := 1, ofs := 32 })] } }
def fr (t : Nat) (p : List Byte) : Frame := { typ := t, seq := 5, ref := none, epoch := 0, status := 0, ver := 2, payload := p }
def ff : Frame := fr 1 (le 4 0x30000 ++ le 4 4 ++ le 4 0x200B0000)
def fw : State := z.setRing 46 { frames := [ff] }
def fa : Frame := fr 4 (le 4 1 ++ le 4 0 ++ le 4 0)
def ra : State := ({ z with nv := { z.nv with reams := [(20, { state := 1, stream := 1, records := 1, ofs := 64 })] } }.flashPut (reamAddr 20 + 32) (recordBytes 1 0 [1, 2, 3, 4])).setRing 46 { frames := [fa] }
def fo : Frame := fr 3 (le 4 1 ++ le 4 4 ++ le 4 0 ++ le 4 9)
def ao : State := (ap.put (F.NVL_STREAM_CFG_MAX_REAMS 1) 4).setRing 46 { frames := [fo] }

theorem witness_StorageReadsAndWrites :
    (∃ s : State, ∃ f : Frame, ∃ a : Nat, ∃ n : Nat, s.storageTakes 0x08 1 f ∧ fieldLe f.payload 0 4 = a ∧ fieldLe f.payload 4 4 = n ∧ fieldLe f.payload 8 4 = 0 ∧
      0x30000 ≤ a ∧ a % 4 = 0 ∧ 4 ≤ n ∧ n ≤ 1024 ∧ n % 4 = 0 ∧ a + n ≤ 0x80000 ∧ 28 + n ≤ s.slotSize 47)
    ∧ (∃ s : State, ∃ f : Frame, ∃ a : Nat, ∃ n : Nat, ∃ d : Nat, s.storageTakes 0x08 1 f ∧ fieldLe f.payload 0 4 = a ∧ fieldLe f.payload 4 4 = n ∧ fieldLe f.payload 8
      4 = 0x20000000 + d ∧ d % 4 = 0 ∧ d + n ≤ 0x100000 ∧ s.sramShut (0x20000000 + d) n = false ∧ 0x30000 ≤ a ∧ a % 4 = 0 ∧ 4 ≤ n ∧ n ≤ 1024 ∧ n % 4 = 0 ∧ a + n ≤
      0x80000)
    ∧ (∃ s : State, ∃ f : Frame, ∃ a : Nat, ∃ n : Nat, s.storageTakes 0x08 2 f ∧ fieldLe f.payload 0 4 = a ∧ fieldLe f.payload 4 4 = n ∧ fieldLe f.payload 8 4 = 0 ∧
      f.payload.length = 12 + n ∧ 0x40000 ≤ a ∧ a % 4 = 0 ∧ 4 ≤ n ∧ n ≤ 1024 ∧ n % 4 = 0 ∧ a + n ≤ 0x80000 ∧ s.feltProtected a n = false)
    ∧ (∃ s : State, ∃ f : Frame, ∃ a : Nat, ∃ n : Nat, s.storageTakes 0x08 2 f ∧ fieldLe f.payload 0 4 = a ∧ fieldLe f.payload 4 4 = n ∧ fieldLe f.payload 8 4 = 0 ∧
      f.payload.length = 12 + n ∧ 0x40000 ≤ a ∧ a % 4 = 0 ∧ 4 ≤ n ∧ n ≤ 1024 ∧ n % 4 = 0 ∧ a + n ≤ 0x80000 ∧ s.feltProtected a n = true)
    ∧ (∃ s : State, ∃ f : Frame, s.runs = true ∧ s.cmd46 2 = some f ∧ fieldLe f.payload 0 4 < 0x40000)
    ∧ (∃ s : State, ∃ f : Frame, ∃ p : List Byte, s.storageTakes 0x09 4 f ∧ fieldLe f.payload 8 4 = 0 ∧ s.readRecord (fieldLe f.payload 0 4 % 8) (fieldLe f.payload 4
      4) = some p ∧ 28 + p.length ≤ s.slotSize 47)
    ∧ (∃ s : State, ∃ f : Frame, s.storageTakes 0x09 4 f ∧ fieldLe f.payload 8 4 = 0 ∧ 28 ≤ s.slotSize 47 ∧ s.readRecord (fieldLe f.payload 0 4 % 8) (fieldLe f.payload
      4 4) = none)
    ∧ (∃ s : State, ∃ f : Frame, ∃ o : Nat, ∃ n : Nat, s.storageTakes 0x09 8 f ∧ fieldLe f.payload 0 4 ≤ 1 ∧ fieldLe f.payload 4 4 = o ∧ fieldLe f.payload 8 4 = 0 ∧
      fieldLe f.payload 12 4 = n ∧ o + n ≤ 196608 ∧ 28 + n ≤ s.slotSize 47) :=
  ⟨⟨(cmd 1 (w4 0x40000 ++ w4 8 ++ w4 0) z),
    { typ := 1, seq := 5, ref := none, epoch := 0, status := 0, ver := 2, payload := [0, 0, 4, 0, 8, 0, 0, 0, 0, 0, 0, 0] }, 262144, 8,
    by unfold State.storageTakes; decide +kernel, by decide +kernel⟩,
   ⟨fw, ff, 0x30000, 4, 0xB0000, by unfold State.storageTakes; decide +kernel, by decide +kernel⟩,
   ⟨(cmd 2 (w4 0x40000 ++ w4 8 ++ w4 0 ++ w4 7 ++ w4 8) z),
    { typ := 2, seq := 5, ref := none, epoch := 0, status := 0, ver := 2, payload := [0, 0, 4, 0, 8, 0, 0, 0, 0, 0, 0, 0, 7, 0, 0, 0, 8, 0, 0, 0] }, 262144, 8,
    by unfold State.storageTakes; decide +kernel, by decide +kernel⟩,
   ⟨(cmd 2 (w4 0x40000 ++ w4 8 ++ w4 0 ++ w4 7 ++ w4 8) (z.put F.NVF_CFG_PROTECT 3)),
    { typ := 2, seq := 5, ref := none, epoch := 0, status := 0, ver := 2, payload := [0, 0, 4, 0, 8, 0, 0, 0, 0, 0, 0, 0, 7, 0, 0, 0, 8, 0, 0, 0] }, 262144, 8,
    by unfold State.storageTakes; decide +kernel, by decide +kernel⟩,
   ⟨(cmd 2 (w4 0x30000 ++ w4 8 ++ w4 0 ++ w4 7 ++ w4 8) (z.put F.NVF_CFG_PROTECT 3)),
    { typ := 2, seq := 5, ref := none, epoch := 0, status := 0, ver := 2, payload := [0, 0, 3, 0, 8, 0, 0, 0, 0, 0, 0, 0, 7, 0, 0, 0, 8, 0, 0, 0] },
    by decide +kernel⟩,
   ⟨ra, fa, [1, 2, 3, 4], by unfold State.storageTakes; decide +kernel, by decide +kernel⟩,
   ⟨(cmd 4 (w4 1 ++ w4 8 ++ w4 0) z), { typ := 4, seq := 5, ref := none, epoch := 0, status := 0, ver := 2, payload := [1, 0, 0, 0, 8, 0, 0, 0, 0, 0, 0, 0] },
    by unfold State.storageTakes; decide +kernel, by decide +kernel⟩,
   ⟨(cmd 8 (w4 1 ++ w4 8 ++ w4 0 ++ w4 16) z),
    { typ := 8, seq := 5, ref := none, epoch := 0, status := 0, ver := 2, payload := [1, 0, 0, 0, 8, 0, 0, 0, 0, 0, 0, 0, 16, 0, 0, 0] }, 8, 16,
    by unfold State.storageTakes; decide +kernel, by decide +kernel⟩⟩

theorem witness_StorageJobs :
    (∃ s : State, ∃ f : Frame, ∃ n : Nat, ∃ len : Nat, ∃ r : Nat, s.storageTakes 0x09 3 f ∧ fieldLe f.payload 0 4 % 8 = n ∧ fieldLe f.payload 4 4 % 65536 = len ∧
      fieldLe f.payload 8 4 = 0 ∧ n ≠ 0 ∧ 1 ≤ len ∧ len ≤ 4032 ∧ f.payload.length = 12 + len ∧ s.get (F.NVL_STREAM_CFG_MAX_REAMS n) ≠ 0 ∧ s.openReam n = some r ∧
      s.reamProtected r = false ∧ (s.ream r).ofs + (recordBytes n (s.streamHead n).next ((f.payload.drop 12).take len)).length ≤ 32768)
    ∧ (∃ s : State, ∃ f : Frame, ∃ r : Nat, s.storageTakes 0x09 5 f ∧ fieldLe f.payload 0 4 % 8 ≠ 0 ∧ (s.reamsOf (fieldLe f.payload 0 4 % 8)).head? = some r ∧
      s.reamProtected r = false)
    ∧ (∃ s : State, ∃ f : Frame, s.storageTakes 0x09 5 f ∧ fieldLe f.payload 0 4 % 8 ≠ 0 ∧ s.reamsOf (fieldLe f.payload 0 4 % 8) = [])
    ∧ (∃ s : State, ∃ f : Frame, s.storageTakes 0x09 6 f ∧ fieldLe f.payload 0 4 ≤ 1)
    ∧ (∃ s : State, ∃ f : Frame, ∃ o : Nat, ∃ d : Nat, ∃ n : Nat, s.storageTakes 0x09 7 f ∧ fieldLe f.payload 0 4 ≤ 1 ∧ fieldLe f.payload 4 4 = o ∧ fieldLe f.payload 8
      4 = 0x20000000 + d ∧ d % 4 = 0 ∧ fieldLe f.payload 12 4 = n ∧ d + n ≤ 0x100000 ∧ o % 8 = 0 ∧ n % 8 = 0 ∧ n ≠ 0 ∧ o + n ≤ 196608 ∧ ((∀ x ∈ s.flashBytes ((if
      fieldLe f.payload 0 4 = 1 then 794624 else 598016) + o) n, x = 0xFF)))
    ∧ (∃ s : State, ∃ c : Instr, s.runs = true ∧ s.cmdRunning = true ∧ c ∈ ([.feltRead, .feltWrite, .append, .reamRead, .streamTrim, .imgErase, .imgWrite, .imgRead] :
      List Instr)) :=
  ⟨⟨ao, fo, 1, 4, 20, by unfold State.storageTakes; decide +kernel, by decide +kernel⟩,
   ⟨(cmd 5 (w4 1) zr), { typ := 5, seq := 5, ref := none, epoch := 0, status := 0, ver := 2, payload := [1, 0, 0, 0] }, 20,
    by unfold State.storageTakes; decide +kernel, by decide +kernel⟩,
   ⟨(cmd 5 (w4 2) zr), { typ := 5, seq := 5, ref := none, epoch := 0, status := 0, ver := 2, payload := [2, 0, 0, 0] },
    by unfold State.storageTakes; decide +kernel, by decide +kernel⟩,
   ⟨(cmd 6 (w4 1) zr), { typ := 6, seq := 5, ref := none, epoch := 0, status := 0, ver := 2, payload := [1, 0, 0, 0] },
    by unfold State.storageTakes; decide +kernel, by decide +kernel⟩,
   ⟨(cmd 7 (w4 1 ++ w4 16 ++ w4 0x20000000 ++ w4 8) zr),
    { typ := 7, seq := 5, ref := none, epoch := 0, status := 0, ver := 2, payload := [1, 0, 0, 0, 16, 0, 0, 0, 0, 0, 0, 32, 8, 0, 0, 0] }, 16, 0, 8,
    by unfold State.storageTakes; decide +kernel, by decide +kernel⟩,
   ⟨(run .streamTrim (cmd 5 (w4 1) zr)), Sys2Proof.Instr.feltRead, by decide +kernel⟩⟩
end N1


namespace N2
def z := (State.reset.put (hdrEnable 8) 1).put (hdrEnable 9) 1
def jb (st : List FlashStep) (k : JobKind) (s : State) : State := {s with nv := {s.nv with jobs := [{kind := k, ref := some 3, steps := st}]}}
def df (n : Nat) (s : State) : State := {s with nv := {s.nv with deferMs := some n}}
def jx (st : List FlashStep) (n : Nat) : Job := ⟨.store, some 3, st, false, n⟩
def jw (st : List FlashStep) (n : Nat) : State := { z with nv := { z.nv with jobs := [jx st n] } }
def ja : State := { z with nv := { z.nv with jobs := [⟨.store, some 3, [.prog 0 0], true, 0⟩] } }

theorem witness_FlashSteps :
    (∃ s : State, ∃ j : Job, ∃ rest : List Job, ∃ a : Nat, ∃ w : Nat, ∃ e : FlashStep, ∃ more : List FlashStep, s.runs = true ∧ s.nv.jobs = j :: rest ∧ s.nv.deferMs
      = none ∧ j.steps = .prog a w :: e :: more)
    ∧ (∃ s : State, ∃ j : Job, ∃ rest : List Job, ∃ a : Nat, ∃ w : Nat, ∃ n : Nat, ∃ q : Nat, ∃ r : Nat, ∃ o : Nat, ∃ z : Nat, ∃ ref : Nat, s.runs = true ∧ s.nv.jobs =
      j :: rest ∧ s.nv.deferMs = none ∧ j.steps = [.prog a w] ∧ j.kind = .append n q r o z ∧ j.ref = some ref ∧ q < 2 ^ 32)
    ∧ (∃ s : State, ∃ j : Job, ∃ rest : List Job, ∃ a : Nat, ∃ w : Nat, ∃ more : List FlashStep, s.runs = true ∧ s.nv.jobs = j :: rest ∧ s.nv.deferMs = none ∧ j.steps
      = .prog a w :: more ∧ j.again = false)
    ∧ (∃ s : State, ∃ j : Job, ∃ rest : List Job, ∃ a : Nat, ∃ w : Nat, ∃ more : List FlashStep, s.runs = true ∧ s.nv.jobs = j :: rest ∧ s.nv.deferMs = none ∧ j.steps
      = .prog a w :: more ∧ j.again = true ∧ s.get F.NVL_SPARE_USED < 31)
    ∧ (∃ s : State, ∃ j : Job, ∃ rest : List Job, ∃ n : Nat, ∃ e : FlashStep, ∃ more : List FlashStep, s.runs = true ∧ s.nv.jobs = j :: rest ∧ s.nv.deferMs = none ∧
      j.steps = .erase n :: e :: more)
    ∧ (∃ s : State, ∃ j : Job, ∃ rest : List Job, ∃ n : Nat, ∃ more : List FlashStep, s.runs = true ∧ s.nv.jobs = j :: rest ∧ s.nv.deferMs = none ∧ j.steps = .erase n
      :: more ∧ j.pulses + 1 < 10)
    ∧ (∃ s : State, ∃ j : Job, ∃ rest : List Job, ∃ n : Nat, ∃ e : FlashStep, ∃ more : List FlashStep, s.runs = true ∧ s.nv.jobs = j :: rest ∧ s.nv.deferMs = none ∧
      j.steps = .erase n :: e :: more ∧ 10 ≤ j.pulses + 1 ∧ s.get F.NVL_SPARE_USED < 31)
    ∧ (∃ s : State, ∃ b : Bool, s.runs = true ∧ ((s.nv.jobs = [] ∨ s.nv.deferMs.isSome = true))) :=
  ⟨⟨jw [.prog 0 0, .erase 3] 0, jx [.prog 0 0, .erase 3] 0, [], 0, 0, .erase 3, [], by decide +kernel⟩,
   ⟨(jb [.prog 16 5] (.append 1 2 3 4 5) z),
    { kind := Sys2Proof.Machine.JobKind.append 1 2 3 4 5, ref := some 3, steps := [Sys2Proof.Machine.FlashStep.prog 16 5], again := false, pulses := 0 }, [], 16, 5,
    1, 2, 3, 4, 5, 3, by decide +kernel⟩,
   ⟨jw [.prog 0 0] 0, jx [.prog 0 0] 0, [], 0, 0, [], by decide +kernel⟩,
   ⟨ja, ⟨.store, some 3, [.prog 0 0], true, 0⟩, [], 0, 0, [], by decide +kernel⟩,
   ⟨jw [.erase 3, .prog 0 0] 0, jx [.erase 3, .prog 0 0] 0, [], 3, .prog 0 0, [], by decide +kernel⟩,
   ⟨jw [.erase 3] 0, jx [.erase 3] 0, [], 3, [], by decide +kernel⟩,
   ⟨jw [.erase 3, .prog 0 0] 9, jx [.erase 3, .prog 0 0] 9, [], 3, .prog 0 0, [], by decide +kernel⟩,
   ⟨z, true, by decide +kernel⟩⟩

theorem witness_StepConditionsAndDeferral :
    (∃ s : State, ∃ supply : Bool, ∃ e : FlashStep, s.runs = true ∧ s.step1 = some e)
    ∧ (∃ s : State, ∃ supply : Bool, s.runs = true ∧ s.step1 = none)
    ∧ (∃ s : State, ∃ j : Job, ∃ rest : List Job, ∃ n : Nat, ∃ r : Nat, ∃ ref : Nat, ∃ d : Nat, s.runs = true ∧ s.nv.jobs = j :: rest ∧ s.nv.deferMs = some d ∧ s.get
      F.NVL_CFG_STEP_WAIT ≤ d ∧ j.kind = .trim n r ∧ j.ref = some ref)
    ∧ (∃ s : State, ∃ j : Job, ∃ rest : List Job, ∃ d : Nat, s.runs = true ∧ s.nv.jobs = j :: rest ∧ s.nv.deferMs = some d ∧ s.get F.NVL_CFG_STEP_WAIT ≤ d ∧ j.kind =
      .store ∧ j.ref = none)
    ∧ (∃ s : State, s.runs = true ∧ ((s.nv.jobs = [] ∨ s.nv.deferMs = none ∨ ∃ d, s.nv.deferMs = some d ∧ d < s.get F.NVL_CFG_STEP_WAIT))) :=
  ⟨⟨(jb [.prog 16 5, .prog 24 6] (.append 1 2 3 4 5) z), true, Sys2Proof.Machine.FlashStep.prog 16 5, by decide +kernel⟩,
   ⟨z, true, by decide +kernel⟩,
   ⟨(df 100000 (jb [.erase 16, .erase 5] (.trim 1 2) z)),
    { kind := Sys2Proof.Machine.JobKind.trim 1 2, ref := some 3, steps := [Sys2Proof.Machine.FlashStep.erase 16, Sys2Proof.Machine.FlashStep.erase 5], again := false, pulses := 0 },
    [], 1, 2, 3, 100000, by decide +kernel⟩,
   ⟨(df 100000
    {(jb [.erase 16, .erase 5] (.store) z) with nv := {z.nv with deferMs := some 100000, jobs := [{kind := .store, ref := none, steps := [.erase 16, .erase 5] }]}}),
    { kind := Sys2Proof.Machine.JobKind.store, ref := none, steps := [Sys2Proof.Machine.FlashStep.erase 16, Sys2Proof.Machine.FlashStep.erase 5], again := false, pulses := 0 },
    [], 100000, by decide +kernel⟩,
   ⟨z, by decide +kernel⟩⟩
end N2


namespace N3
def z := (State.reset.put (hdrEnable 8) 1).put (hdrEnable 9) 1
def pv (z : State) := {z.put F.SEA_STAT_SESSION 0x4D with sealEn := true}
def zs := ((z.put F.NVL_CFG_SCRUB_EN 1).put F.NVL_HOLDUP_CFG_DECL_MS 100)

theorem witness_StorageKeeping :
    (∃ s : State, ∃ found : ScrubFound, s.runs = true ∧ ((s.on F.NVL_CFG_SCRUB_EN = false ∨ s.nv.jobs ≠ [] ∨ s.stepAllowed (.prog 0 0) = false)))
    ∧ (∃ s : State, ∃ found : ScrubFound, s.runs = true ∧ s.on F.NVL_CFG_SCRUB_EN = true ∧ s.nv.jobs = [] ∧ s.stepAllowed (.prog 0 0) = true)
    ∧ (∃ s : State, s.runs = true ∧ s.privOpen = true ∧ s.on F.NVL_CFG_STAT_BUSY = false ∧ s.pf.warned = false)
    ∧ (∃ s : State, s.runs = true ∧ s.privOpen = true ∧ ((s.on F.NVL_CFG_STAT_BUSY = true ∨ s.pf.warned = true)))
    ∧ (∃ s : State, s.runs = true ∧ s.privOpen = false)
    ∧ (∃ s : State, ∃ req : Req, ∃ priv : Bool, ∃ nvl : Bool, ∃ val : W32, s.runs = true)
    ∧ (∃ s : State, ∃ req : Req, ∃ val : W32, s.runs = true ∧ s.nv.sigArch ≤ val.toNat)
    ∧ (∃ s : State, ∃ req : Req, ∃ val : W32, s.runs = true ∧ val.toNat < s.nv.sigArch)
    ∧ (∃ s : State, s.runs = true ∧ s.privOpen = true) :=
  ⟨⟨z, Sys2Proof.ScrubFound.clean, by decide +kernel⟩,
   ⟨zs, Sys2Proof.ScrubFound.clean, by decide +kernel⟩,
   ⟨(pv z), by decide +kernel⟩,
   ⟨((pv z).put F.NVL_CFG_STAT_BUSY 1), by decide +kernel⟩,
   ⟨z, by decide +kernel⟩,
   ⟨z, Sys2Proof.Req.host, true, true, 0x00000000#32, by decide +kernel⟩,
   ⟨z, Sys2Proof.Req.host, 0x00000000#32, by decide +kernel⟩,
   ⟨(run (.sigArchWrite .host 3) z), Sys2Proof.Req.host, 0x00000000#32, by decide +kernel⟩,
   ⟨(pv z), by decide +kernel⟩⟩
end N3


namespace L1
def z := ((State.reset.put (hdrEnable 0x1A) 1).put (F.BAYK_CFG_LMG_IL 3) 1).put (F.BAYK_STATE_AUTHORISED 3) 1
def zz := [0,1,2].foldl (fun s p => s.put (F.LMG_POST_LIM_MA p) 30000) (z.put (F.BAYK_HOST_LIMIT_MA 3) 16000)
def r1 := run .lmgRound zz
def ov := {((r1.setReg (A.MTRK_PH_I_RMS 3 0) 400000).put (hdrEnable 0x23) 1) with ts := 32768*3}
def o2 := run (.lmgOverload 0 0) ov
def hl : State := { r1 with lm := { r1.lm with held := [(3, (5, 0))] }, ts := 32768 * 100 }
def mb := ((zz.put F.LMG_CFG_ROLE 1).put F.MSH_CFG_ROLE 1)

theorem witness_AllocationRounds :
    (∃ s : State, s.runs = true ∧ s.lmgOn = false)
    ∧ (∃ s : State, s.runs = true ∧ s.lmgOn = true ∧ ((∀ k ∈ s.lm.joined, k < 12)))
    ∧ (∃ s : State, ∃ k : Fin 12, ∃ h : Nat, ∃ at' : Nat, s.runs = true ∧ s.lm.held.find? (fun x => x.1 == k.val) = some (k.val, (h, at')) ∧ ((s.lmgMeas k ≤ s.alloc k
      + s.get F.LMG_VERIFY_VERIFY_MA ∨ s.get F.BAY_OC_TIME_OC_GRACE * 32768 ≤ (s.ts - at') * 1000)))
    ∧ (∃ s : State, ∃ k : Fin 12, s.runs = true ∧ ((∀ x ∈ s.lm.held, x.1 = k.val → s.alloc k + s.get F.LMG_VERIFY_VERIFY_MA < s.lmgMeas k ∧ (s.ts - x.2.2) * 1000 <
      s.get F.BAY_OC_TIME_OC_GRACE * 32768)))
    ∧ (∃ s : State, ∃ con : Fin 5, ∃ p : Fin 3, ∃ lim : Int, s.runs = true ∧ s.lmgOn = true ∧ s.conLimit con p = some lim ∧ s.lm.held = [] ∧ s.lm.frozenC.contains
      (con.val + 5 * p.val) = false ∧ lim + s.get F.LMG_VERIFY_VERIFY_MA < s.conTotal con p ∧ ((∀ k ∈ s.lm.joined, k < 12)))
    ∧ (∃ s : State, ∃ con : Fin 5, ∃ p : Fin 3, s.runs = true ∧ ((s.lmgOn = false ∨ s.lm.held ≠ [] ∨ ∀ lim, s.conLimit con p = some lim → (s.conTotal con p : Int) ≤
      lim + s.get F.LMG_VERIFY_VERIFY_MA)))
    ∧ (∃ s : State, ∃ con : Fin 5, ∃ p : Fin 3, ∃ lim : Int, s.runs = true ∧ s.conLimit con p = some lim ∧ (s.conTotal con p : Int) ≤ lim ∧ s.lm.frozenC.contains
      (con.val + 5 * p.val) = true)
    ∧ (∃ s : State, ∃ con : Fin 5, ∃ p : Fin 3, s.runs = true ∧ ((s.lm.frozenC.contains (con.val + 5 * p.val) = false ∨ ∀ lim, s.conLimit con p = some lim → lim <
      (s.conTotal con p : Int)))) :=
  ⟨⟨State.reset, by decide +kernel⟩,
   ⟨z, by decide +kernel⟩,
   ⟨hl, 3, 5, 0, by decide +kernel⟩,
   ⟨z, 0, by decide +kernel⟩,
   ⟨ov, 0, 0, 30000, by decide +kernel⟩,
   ⟨z, 0, 0, by decide +kernel⟩,
   ⟨(o2.setReg (A.MTRK_PH_I_RMS 3 0) 4000), 0, 0, 30000, by decide +kernel⟩,
   ⟨z, 0, 0, by decide +kernel⟩⟩

theorem witness_SiteBudgets :
    (∃ s : State, s.runs = true ∧ s.lmgOn = true ∧ s.get F.LMG_STAT_STATE = 1 ∧ s.leaseLeft ≤ s.get F.LMG_TIMING_FB_LEAD_S * 1000 ∧ ((∀ k ∈ s.lm.joined, k < 12)))
    ∧ (∃ s : State, s.runs = true ∧ ((s.get F.LMG_STAT_STATE ≠ 1 ∨ s.get F.LMG_TIMING_FB_LEAD_S * 1000 < s.leaseLeft)))
    ∧ (∃ s : State, s.runs = true ∧ s.on F.LMG_SITE_STAT_HOLD = true)
    ∧ (∃ s : State, s.runs = true ∧ s.on F.LMG_SITE_STAT_HOLD = false)
    ∧ (∃ s : State, s.runs = true)
    ∧ (∃ s : State, s.runs = true)
    ∧ (∃ s : State, ∃ p : List Byte, ∃ age : Nat, s.lmgOn = true ∧ s.lmgRole = 1 ∧ p.length = 24 ∧ fieldLe p 6 2 = age ∧ fieldLe p 20 1 * 1000 ≤ age) :=
  ⟨⟨(z.put F.LMG_STAT_STATE 1), by decide +kernel⟩,
   ⟨z, by decide +kernel⟩,
   ⟨(z.put F.LMG_SITE_STAT_HOLD 1), by decide +kernel⟩,
   ⟨z, by decide +kernel⟩,
   ⟨z, by decide +kernel⟩,
   ⟨z, by decide +kernel⟩,
   ⟨mb, le 4 1 ++ le 2 5 ++ le 2 3000 ++ le 12 0 ++ le 4 1, 3000, by decide +kernel⟩⟩
end L1


namespace E1
def cmd (typ : Nat) (p : List Byte) (s : State) : State := s.setRing 44 { frames := [{typ := typ, seq := 5, ref := none, epoch := 0, status := 0, ver := 2, payload := p}] }
def z0 := State.reset
def z := (((z0.put F.EPD_STATE_OUTER_VALID 1).put F.EPD_PANEL_W 8).put F.EPD_PANEL_H 4)
def rp (g : Nat) : List Byte := le 2 1 ++ le 2 1 ++ le 2 2 ++ le 2 2 ++ le 4 g
def tbl : List (Nat × Byte) := (List.range 8).map fun b => (0xC0000 + 32 + 64*1 + 8*b + 4, (1 : Byte))
def zc := {((z.put F.SEA_STAT_SESSION 0x8E).put F.EPD_WF_STAT_VALID 1) with sram := tbl}

theorem witness_DisplayCommands :
    (∃ s : State, ∃ f : Frame, s.cmd44 1 = some f ∧ s.runs = true ∧ s.pf.warned = false ∧ s.on F.EPD_STATE_OUTER_VALID = true ∧ s.lcd.waiting = none ∧
      f.payload.length = 12 ∧ fieldLe f.payload 8 4 < 16 ∧ s.pixelsOf ({ s.clip f with mode := fieldLe f.payload 8 4 }) ≠ [])
    ∧ (∃ s : State, ∃ f : Frame, s.cmd44 1 = some f ∧ s.runs = true ∧ s.pf.warned = false ∧ s.on F.EPD_STATE_OUTER_VALID = true ∧ s.lcd.waiting = none ∧
      f.payload.length = 12 ∧ fieldLe f.payload 8 4 < 16 ∧ s.pixelsOf { s.clip f with mode := fieldLe f.payload 8 4 } = [])
    ∧ (∃ s : State, ∃ f : Frame, (fieldLe f.payload 0 2) + (fieldLe f.payload 4 2) ≤ s.panW ∧ (fieldLe f.payload 2 2) + (fieldLe f.payload 6 2) ≤ s.panH ∧ 0 < (fieldLe
      f.payload 4 2) ∧ 0 < (fieldLe f.payload 6 2))
    ∧ (∃ s : State, ∃ f : Frame, ∃ g : Nat, s.cmd44 2 = some f ∧ s.runs = true ∧ s.pf.warned = false ∧ s.on F.EPD_STATE_OUTER_VALID = true ∧ s.lcd.waiting = none ∧
      f.payload.length = 12 ∧ fieldLe f.payload 8 4 = g ∧ g < 16 ∧ s.overlaps (s.clip f) = false ∧ s.pixelsOf (s.clip f) ≠ [])
    ∧ (∃ s : State, ∃ f : Frame, s.cmd44 3 = some f ∧ s.runs = true ∧ s.pf.warned = false ∧ s.on F.EPD_STATE_OUTER_VALID = true ∧ s.lcd.waiting = none ∧
      f.payload.length = 12 ∧ s.pixelsOf (({ ref := some f.seq, blind := true, zone := 0, w := s.panW, h := s.panH } : Update)) ≠ [])
    ∧ (∃ s : State, s.runs = true ∧ s.pf.warned = false ∧ ((s.on F.EPD_STATE_OUTER_VALID = false ∨ s.lcd.waiting.isSome = true)))
    ∧ (∃ s : State, ∃ f : Frame, ∃ c : Instr, ∃ typ : Nat, s.runs = true ∧ (c, typ) ∈ ([(.update, 1), (.fill, 2), (.blindClear, 3), (.wfActivate, 4)] : List (Instr ×
      Nat)) ∧ s.cmd44 typ = some f ∧ s.pf.warned = true ∧ f.payload.length = 12 ∧ fieldLe f.payload 8 4 < 16)
    ∧ (∃ s : State, ∃ f : Frame, s.cmd44 4 = some f ∧ s.runs = true ∧ s.pf.warned = false ∧ f.payload.length = 12 ∧ s.lcd.slots = [] ∧ s.lcd.waiting = none)
    ∧ (∃ s : State, s.runs = true ∧ ((s.lcd.slots ≠ [] ∨ s.lcd.waiting.isSome = true)) ∧ s.pf.warned = false)
    ∧ (∃ s : State, s.runs = true ∧ s.get F.SEA_STAT_SESSION = 0x8E ∧ s.layoutOk s.layoutRegs = true)
    ∧ (∃ s : State, s.runs = true ∧ ((s.get F.SEA_STAT_SESSION ≠ 0x8E ∨ s.layoutOk s.layoutRegs = false)))
    ∧ (∃ s : State, ∃ req : Req, ∃ addr : Nat, ∃ val : W32, s.runs = true ∧ addr % 4 = 0 ∧ addr < 0x200000 ∧ addr / 2 + 1 < s.panW * s.panH ∧ s.inDeckle ((addr / 2) %
      s.panW) ((addr / 2) / s.panW) = false ∧ s.inDeckle (((addr / 2) + 1) % s.panW) (((addr / 2) + 1) / s.panW) = false ∧ s.pixBusy ((addr / 2) % s.panW) ((addr / 2)
      / s.panW) = false ∧ s.pixBusy (((addr / 2) + 1) % s.panW) (((addr / 2) + 1) / s.panW) = false)
    ∧ (∃ s : State, ∃ req : Req, ∃ addr : Nat, ∃ val : W32, s.runs = true ∧ addr % 4 = 0 ∧ addr < 0x200000 ∧ addr / 2 + 1 < s.panW * s.panH ∧ s.inDeckle (addr / 2 %
      s.panW) (addr / 2 / s.panW) = false ∧ s.inDeckle ((addr / 2 + 1) % s.panW) ((addr / 2 + 1) / s.panW) = false ∧ s.pixBusy (addr / 2 % s.panW) (addr / 2 / s.panW)
      = true)
    ∧ (∃ s : State, ∃ req : Req, ∃ addr : Nat, ∃ val : W32, s.runs = true ∧ addr % 4 = 0 ∧ addr < 0x200000 ∧ addr / 2 < s.panW * s.panH ∧ s.inDeckle (addr / 2 %
      s.panW) (addr / 2 / s.panW) = true) :=
  ⟨⟨(zc.setRing 44 { frames := [{ typ := 1, seq := 5, ref := none, epoch := 0, status := 0, ver := 2, payload := rp 0 }] }),
    { typ := 1, seq := 5, ref := none, epoch := 0, status := 0, ver := 2, payload := [1, 0, 1, 0, 2, 0, 2, 0, 0, 0, 0, 0] }, by decide +kernel⟩,
   ⟨(cmd 1 (le 2 100 ++ le 2 1 ++ le 2 2 ++ le 2 2 ++ le 4 3) z),
    { typ := 1, seq := 5, ref := none, epoch := 0, status := 0, ver := 2, payload := [100, 0, 1, 0, 2, 0, 2, 0, 3, 0, 0, 0] }, by decide +kernel⟩,
   ⟨(zc.setRing 44 { frames := [{ typ := 1, seq := 5, ref := none, epoch := 0, status := 0, ver := 2, payload := rp 0 }] }),
    { typ := 1, seq := 5, ref := none, epoch := 0, status := 0, ver := 2, payload := [1, 0, 1, 0, 2, 0, 2, 0, 0, 0, 0, 0] }, by decide +kernel⟩,
   ⟨(cmd 2 (rp 3) z), { typ := 2, seq := 5, ref := none, epoch := 0, status := 0, ver := 2, payload := [1, 0, 1, 0, 2, 0, 2, 0, 3, 0, 0, 0] }, 3,
    by decide +kernel⟩,
   ⟨(cmd 3 (rp 3) z), { typ := 3, seq := 5, ref := none, epoch := 0, status := 0, ver := 2, payload := [1, 0, 1, 0, 2, 0, 2, 0, 3, 0, 0, 0] }, by decide +kernel⟩,
   ⟨z0, by decide +kernel⟩,
   ⟨(cmd 1 (rp 3) {z with pf := {z.pf with warned := true}}),
    { typ := 1, seq := 5, ref := none, epoch := 0, status := 0, ver := 2, payload := [1, 0, 1, 0, 2, 0, 2, 0, 3, 0, 0, 0] }, Sys2Proof.Instr.update, 1,
    by decide +kernel⟩,
   ⟨(cmd 4 (rp 3) z), { typ := 4, seq := 5, ref := none, epoch := 0, status := 0, ver := 2, payload := [1, 0, 1, 0, 2, 0, 2, 0, 3, 0, 0, 0] }, by decide +kernel⟩,
   ⟨{z with lcd := {z.lcd with waiting := some {w := 8, h := 4}}}, by decide +kernel⟩,
   ⟨zc, by decide +kernel⟩,
   ⟨z0, by decide +kernel⟩,
   ⟨z, Sys2Proof.Req.host, 0, 0x00000000#32, by decide +kernel⟩,
   ⟨{z with lcd := {z.lcd with waiting := some {w := 8, h := 4}}}, Sys2Proof.Req.host, 0, 0x00000000#32, by decide +kernel⟩,
   ⟨{z with lcd := {z.lcd with layout := some ⟨0, 0x00040008, 0, []⟩}}, Sys2Proof.Req.host, 0, 0x00000000#32, by decide +kernel⟩⟩
end E1


namespace E2
def tb (m : Nat) : List (Nat × Byte) := (List.range 8).flatMap fun b => [(0xC0000 + 32 + 64*m + 8*b + 4, (2 : Byte))]
def z := {((((State.reset.put F.EPD_STATE_OUTER_VALID 1).put F.EPD_PANEL_W 8).put F.EPD_PANEL_H 4).put (hdrEnable 0x1E) 1).put F.EPD_WF_STAT_VALID 1 with sram := tb 0}
def u0 : Update := {ref := some 5, x := 1, y := 1, w := 2, h := 2, mode := 0}
def zw (u : Update) := {z with lcd := {z.lcd with waiting := some u}}
def r := (run .updateSlotStart (zw u0)).put F.EPD_STATE_POWER 2

theorem witness_DisplayUpdatesAndPower :
    (∃ s : State, ∃ u : Update, ∃ n : Nat, s.runs = true ∧ s.lcd.waiting = some u ∧ s.freeSlot = some n ∧ s.enabled 0x1E = true ∧ s.overlaps u = false ∧ s.pf.warned
      = false ∧ s.on F.EPD_WF_STAT_VALID = true ∧ ((u.blind = true ∨ s.table.frames u.mode s.epdBand ≠ 0)))
    ∧ (∃ s : State, ∃ u : Update, ∃ n : Nat, ∃ r : Nat, s.runs = true ∧ s.lcd.waiting = some u ∧ s.freeSlot = some n ∧ s.enabled 0x1E = true ∧ s.overlaps u = false ∧
      s.pf.warned = false ∧ s.on F.EPD_WF_STAT_VALID = true ∧ u.blind = false ∧ s.table.frames u.mode s.epdBand = 0 ∧ u.ref = some r)
    ∧ (∃ s : State, s.runs = true ∧ ((s.lcd.waiting = none ∨ s.freeSlot = none ∨ s.enabled 0x1E = false ∨ s.pf.warned = true ∨ s.on F.EPD_WF_STAT_VALID = false ∨ ∃ u,
      s.lcd.waiting = some u ∧ s.overlaps u = true)))
    ∧ (∃ s : State, s.runs = true ∧ s.get F.EPD_STATE_POWER = 2 ∧ s.pf.warned = false ∧ s.lcd.slots ≠ [] ∧ ((∀ p ∈ s.lcd.slots, p.1 < 4)))
    ∧ (∃ s : State, s.runs = true ∧ ((s.get F.EPD_STATE_POWER ≠ 2 ∨ s.pf.warned = true ∨ s.lcd.slots = [])))
    ∧ (∃ s : State, ∃ l : DeckleLayout, s.runs = true ∧ s.lcd.layout = some l ∧ s.enabled 0x1E = true ∧ s.pf.warned = false ∧ s.on F.EPD_WF_STAT_VALID = true)
    ∧ (∃ s : State, s.runs = true ∧ ((s.lcd.layout = none ∨ s.enabled 0x1E = false ∨ s.pf.warned = true ∨ s.on F.EPD_WF_STAT_VALID = false)))
    ∧ (∃ s : State, s.runs = true)
    ∧ (∃ s : State, s.runs = true)
    ∧ (∃ s : State, s.runs = true) :=
  ⟨⟨(zw u0),
    { ref := some 5, blind := false, mode := 0, band := 0, upgraded := false, clipped := false, masked := false, stale := false, zone := 0, x := 1, y := 1, w := 2, h := 2, frames := 0, p := 0, frame := 0, skip := 0 },
    1, by decide +kernel⟩,
   ⟨(zw {u0 with mode := 3}),
    { ref := some 5, blind := false, mode := 3, band := 0, upgraded := false, clipped := false, masked := false, stale := false, zone := 0, x := 1, y := 1, w := 2, h := 2, frames := 0, p := 0, frame := 0, skip := 0 },
    1, 5, by decide +kernel⟩,
   ⟨z, by decide +kernel⟩,
   ⟨r, by decide +kernel⟩,
   ⟨z, by decide +kernel⟩,
   ⟨{z with lcd := {z.lcd with layout := some ⟨0, 0x00020002, 0, []⟩, due := true}},
    { xy := 0x00000000#32, wh := 0x00020002#32, cfg := 0x00000000#32, fields := [] }, by decide +kernel⟩,
   ⟨z, by decide +kernel⟩,
   ⟨z, by decide +kernel⟩,
   ⟨z, by decide +kernel⟩,
   ⟨z, by decide +kernel⟩⟩
end E2


namespace K1
def z := State.reset.put (hdrEnable 0x1C) 1
def q : PlcReq := ⟨[1,2,3], 0, 0, none, false⟩
def za := {z with plc := {asked := [q]}}
def zb := run .plcTxRequest za
def hd (len : Nat) : Nat := maskOf (plcHeader 3 len 0 0)
def rx (p : List Byte) : PlcRx := ⟨BitVec.ofNat 32 (hd p.length), some p, 0, 30, 0, 0, 0, [30, 0, 0], [1, 2, 3]⟩

theorem witness_PowerlineFrames :
    (∃ s : State, ∃ q : PlcReq, ∃ rest : List PlcReq, s.runs = true ∧ s.plc.asked = q :: rest ∧ s.enabled 0x1C = true ∧ s.pf.warned = false ∧ 1 ≤ q.bytes.length ∧
      q.bytes.length ≤ 2047 ∧ q.mode ≤ 4 ∧ s.plcBusy = false ∧ s.plc.queue = [])
    ∧ (∃ s : State, ∃ q : PlcReq, ∃ rest : List PlcReq, s.runs = true ∧ s.plc.asked = q :: rest ∧ s.enabled 0x1C = true ∧ 1 ≤ q.bytes.length ∧ q.bytes.length ≤ 2047 ∧
      q.mode ≤ 4 ∧ s.plcBusy = true)
    ∧ (∃ s : State, ∃ q : PlcReq, ∃ rest : List PlcReq, s.runs = true ∧ s.plc.asked = q :: rest ∧ ((s.enabled 0x1C = false ∨ q.bytes = [] ∨ 2047 < q.bytes.length ∨ 4 <
      q.mode)))
    ∧ (∃ s : State, s.runs = true ∧ s.plc.asked = [])
    ∧ (∃ s : State, ∃ clipped : Bool, s.runs = true ∧ s.plcBusy = false)
    ∧ (∃ s : State, ∃ clipped : Bool, ∃ q : PlcReq, ∃ t0 : MeshTx, s.runs = true ∧ s.plcBusy = true ∧ s.plc.queue = [q] ∧ ((q.isAck = true ∨ (s.msh.cur = some t0 ∧
      t0.stage = 1 ∧ t0.ack = true ∧ t0.rx ≠ 0xFFFF))))
    ∧ (∃ s : State, ∃ clipped : Bool, ∃ q : PlcReq, ∃ t0 : MeshTx, s.runs = true ∧ s.plcBusy = true ∧ s.plc.queue = [q] ∧ q.isAck = false ∧ s.msh.cur = some t0 ∧
      t0.stage = 1 ∧ ((t0.ack = false ∨ t0.rx = 0xFFFF)) ∧ t0.pushes = [])
    ∧ (∃ s : State, ∃ on : Bool, ∃ preamble : Bool, ∃ a : Nat, ∃ b : Nat, ∃ c : Nat, s.runs = true ∧ s.enabled 0x1C = true ∧ s.pf.warned = false ∧ s.plcBusy = false)
    ∧ (∃ s : State, ∃ on : Bool, ∃ preamble : Bool, ∃ noise : List Nat, ∃ rx : PlcRx, s.runs = true ∧ ((s.enabled 0x1C = false ∨ s.pf.warned = true ∨ s.plcBusy =
      true)))
    ∧ (∃ s : State, ∃ rx : PlcRx, s.runs = true ∧ s.enabled 0x1C = true ∧ s.pf.warned = false ∧ s.plcBusy = false) :=
  ⟨⟨za, { bytes := [1, 2, 3], mode := 0, span := 0, phase := none, isAck := false }, [], by decide +kernel⟩,
   ⟨{zb with plc := { zb.plc with asked := [q] }}, { bytes := [1, 2, 3], mode := 0, span := 0, phase := none, isAck := false }, [], by decide +kernel⟩,
   ⟨{State.reset with plc := { asked := [q] }}, { bytes := [1, 2, 3], mode := 0, span := 0, phase := none, isAck := false }, [], by decide +kernel⟩,
   ⟨z, by decide +kernel⟩,
   ⟨z, true, by decide +kernel⟩,
   ⟨{zb with plc := { zb.plc with queue := [{ q with isAck := true }] }}, true, { bytes := [1, 2, 3], mode := 0, span := 0, phase := none, isAck := true },
    { ftype := 5, unsol := false, ack := true, rx := 3, net := none, body := [], rxTs := none, lseq := none, fails := 0, alt := false, be := 0, stage := 1, pushes := [] },
    by decide +kernel⟩,
   ⟨{zb with msh := { zb.msh with cur := some { ftype := 1, ack := false, rx := 0xFFFF, stage := 1 } }}, true,
    { bytes := [1, 2, 3], mode := 0, span := 0, phase := none, isAck := false },
    { ftype := 1, unsol := false, ack := false, rx := 65535, net := none, body := [], rxTs := none, lseq := none, fails := 0, alt := false, be := 0, stage := 1, pushes := [] },
    by decide +kernel⟩,
   ⟨z, true, true, 0, 0, 0, by decide +kernel⟩,
   ⟨zb, true, true, [],
    { header := 0x9e04001b#32, payload := some [1, 2, 3], phase := 0, snr := 30, erased := 0, corrected := 0, gain := 0, phSnr := [30, 0, 0], noise := [1, 2, 3] },
    by decide +kernel⟩,
   ⟨z,
    { header := 0x9e04001b#32, payload := some [1, 2, 3], phase := 0, snr := 30, erased := 0, corrected := 0, gain := 0, phSnr := [30, 0, 0], noise := [1, 2, 3] },
    by decide +kernel⟩⟩
end K1


namespace K2
def z := ((State.reset.put (hdrEnable 0x1D) 1).put F.MSH_CFG_ROLE 1).put F.MSH_ADDR_ADDR 5
def z2 := {z with msh := {z.msh with neigh := [(9, {reqs := 1})], cur := some {ftype := 5, rx := 9, stage := 2}}}
def z3 := {z with msh := {z.msh with neigh := [(9, {reqs := 1})]}}
def fr (p : List Byte) (typ : Nat) : Frame := { typ := typ, seq := 7, ref := none, epoch := 0, status := 0, ver := 1, payload := p }
def withF (s : State) (e : Nat) (p : List Byte) (typ : Nat := 1) : State := s.setRing e { frames := [fr p typ] }
def row9 : Nat × RouteRow := (0, { dest := 0xFFFF, cands := [⟨9, 100, 1, true, 0⟩], sel := some 9 })
def z4 := {z with msh := {z.msh with rows := [row9], freshRoute := true}}
def zx : State := { z with msh := { z.msh with cur := some { ftype := 1, rx := 0xFFFF, stage := 0 } } }

theorem witness_MeshSending :
    (∃ s : State, s.runs = true ∧ s.mshRuns = true ∧ s.msh.cur = none ∧ s.msh.outq = [])
    ∧ (∃ s : State, ∃ x : MeshTx, s.runs = true ∧ s.mshRuns = true ∧ s.msh.cur = some x)
    ∧ (∃ s : State, ∃ n : Nat, ∃ ref : Nat, s.runs = true ∧ s.mshRuns = false ∧ ((∀ e ∈ s.msh.e2e, e.ref ≠ ref)) ∧ ((∀ x, s.msh.cur = some x → x.stage ≠ 2)))
    ∧ (∃ s : State, ∃ t0 : MeshTx, s.runs = true ∧ s.mshRuns = true ∧ s.msh.cur = some t0 ∧ t0.stage = 0 ∧ s.on F.PLC_STATUS_CS = false ∧ s.on F.PLC_STATUS_RX_BUSY =
      false ∧ s.linkOpen t0 = true)
    ∧ (∃ s : State, s.runs = true ∧ ((s.on F.PLC_STATUS_CS = true ∨ s.on F.PLC_STATUS_RX_BUSY = true ∨ ∀ x, s.msh.cur = some x → x.stage ≠ 0)))
    ∧ (∃ s : State, ∃ a : AckDue, s.runs = true ∧ s.msh.ack = some a ∧ s.mshRuns = true)
    ∧ (∃ s : State, s.runs = true ∧ s.msh.ack = none)
    ∧ (∃ s : State, ∃ t0 : MeshTx, ∃ n : Neigh, s.runs = true ∧ s.msh.cur = some t0 ∧ t0.stage = 2 ∧ s.nb t0.rx = some n)
    ∧ (∃ s : State, s.runs = true ∧ ((∀ x, s.msh.cur = some x → x.stage ≠ 2)))
    ∧ (∃ s : State, ∃ a : Nat, ∃ n : Neigh, s.runs = true ∧ s.mshRuns = true ∧ s.nb a = some n ∧ s.mshAddr < a ∧ n.chosen = 0 ∧ n.reqs < 3 ∧ s.msh.cur = none ∧
      s.msh.outq = [])
    ∧ (∃ s : State, ∃ a : Nat, s.runs = true ∧ ((∀ n, s.nb a = some n → a ≤ s.mshAddr ∨ n.chosen ≠ 0 ∨ 3 ≤ n.reqs)))
    ∧ (∃ s : State, ∃ p : Fin 4, s.runs = true ∧ (((s.ring (27 + p)).frames = [] ∨ s.mshRuns = false)))
    ∧ (∃ s : State, ∃ p : Fin 4, ∃ f : Frame, ∃ rest : List Frame, s.runs = true ∧ s.mshRuns = true ∧ (s.ring (27 + p)).frames = f :: rest ∧ f.payload.length < 4 ∧
      s.takes 64)
    ∧ (∃ s : State, ∃ p : Fin 4, ∃ f : Frame, ∃ rest : List Frame, s.runs = true ∧ s.mshRuns = true ∧ (s.ring (27 + p)).frames = f :: rest ∧ 4 ≤ f.payload.length ∧ 46
      + (mkSection 1 ((fieldLe f.payload 2 1).testBit 0).toNat (f.payload.drop 4)).length ≤ 2047 ∧ ((∀ x, (s.hopTo (fieldLe f.payload 0 2)) = some x → x.1.length ≤
      7)))
    ∧ (∃ s : State, ∃ e : E2e, s.runs = true ∧ s.msh.e2e.find? (fun x => x.ref == e.ref) = some e ∧ secTs 60 ≤ s.ts - e.ts ∧ s.takes 64)
    ∧ (∃ s : State, ∃ ref : Nat, s.runs = true ∧ ((∀ e ∈ s.msh.e2e, e.ref = ref → s.ts - e.ts < secTs 60)))
    ∧ (∃ s : State, ∃ c : Cand, s.runs = true ∧ s.mshRuns = true ∧ s.mshRole = 1 ∧ s.route (s.get F.MSH_MASTER_ADDR) = some c ∧ s.msh.cur = none ∧ s.msh.outq = [] ∧
      ((s.msh.freshRoute = true ∨ secTs (s.get F.MSH_POLL_CFG_POLL_LOSS_S) ≤ s.ts - s.msh.polled)))
    ∧ (∃ s : State, s.runs = true ∧ ((s.mshRole ≠ 1 ∨ (s.msh.freshRoute = false ∧ s.ts - s.msh.polled < secTs (s.get F.MSH_POLL_CFG_POLL_LOSS_S))))) :=
  ⟨⟨z, by decide +kernel⟩,
   ⟨zx, { ftype := 1, rx := 0xFFFF, stage := 0 }, by decide +kernel⟩,
   ⟨State.reset, 0, 0, by decide +kernel⟩,
   ⟨zx, { ftype := 1, rx := 0xFFFF, stage := 0 }, by decide +kernel⟩,
   ⟨z, by decide +kernel⟩,
   ⟨{z with msh := {z.msh with ack := some ⟨9, 3, 10, 0⟩}}, { rx := 9, mode := 3, snr := 10, erased := 0 }, by decide +kernel⟩,
   ⟨z, by decide +kernel⟩,
   ⟨z2,
    { ftype := 5, unsol := false, ack := true, rx := 9, net := none, body := [], rxTs := none, lseq := none, fails := 0, alt := false, be := 0, stage := 2, pushes := [] },
    { epoch := 0, inc := 0, snrIn := -40, snrOut := -40, dr := 192, rung := 1, fails := 0, cleans := 0, failRun := 0, valid := true, lists := false, chosen := 0, reqs := 1, nonce := [], master := 65535, costM := 65535, hopsM := 8, nextM := 65535, seqU := none, seqB := none, next := 0, ts := 0 },
    by decide +kernel⟩,
   ⟨z, by decide +kernel⟩,
   ⟨z3, 9,
    { epoch := 0, inc := 0, snrIn := -40, snrOut := -40, dr := 192, rung := 1, fails := 0, cleans := 0, failRun := 0, valid := true, lists := false, chosen := 0, reqs := 1, nonce := [], master := 65535, costM := 65535, hopsM := 8, nextM := 65535, seqU := none, seqB := none, next := 0, ts := 0 },
    by decide +kernel⟩,
   ⟨z, 0, by decide +kernel⟩,
   ⟨z, 0, by decide +kernel⟩,
   ⟨(withF z 29 [1]), 2, { typ := 1, seq := 7, ref := none, epoch := 0, status := 0, ver := 1, payload := [1] }, [], by decide +kernel, by decide +kernel,
    by decide +kernel, by decide +kernel, by unfold State.takes; decide +kernel⟩,
   ⟨(withF z 29 [0xff,0xff,1,0, 8, 9]), 2, { typ := 1, seq := 7, ref := none, epoch := 0, status := 0, ver := 1, payload := [255, 255, 1, 0, 8, 9] }, [],
    by decide +kernel⟩,
   ⟨{z with ts := secTs 61, msh := {z.msh with e2e := [⟨7, 3, 0, 0⟩]}}, { ref := 7, dest := 3, nseq := 0, ts := 0 }, by decide +kernel, by decide +kernel,
    by decide +kernel, by unfold State.takes; decide +kernel⟩,
   ⟨z, 0, by decide +kernel⟩,
   ⟨z4, { via := 9, cost := 100, hops := 1, direct := true, ts := 0 }, by decide +kernel⟩,
   ⟨z, by decide +kernel⟩⟩
end K2


namespace K3
def z := (((State.reset.put (hdrEnable 0x1D) 1).put F.MSH_CFG_ROLE 1).put F.MSH_ADDR_ADDR 5)
def fr (ftype tx rx inc lseq : Nat) (rest : List Byte) (net : Bool := false) (pver : Nat := 1) : List Byte :=
  let b := le 1 (ftype + 16 * pver) ++ le 1 net.toNat ++ le 2 0 ++ le 2 tx ++ le 2 rx ++ le 4 1 ++ le 1 inc ++ le 1 0 ++ le 2 lseq ++ rest
  b ++ le 4 0
def inb (b : List Byte) (s : State) : State := { s with msh := { s.msh with inbox := [⟨b, 3, 20, 0, 0⟩] } }
def hb : List Byte := le 8 0 ++ le 2 1 ++ le 2 100 ++ le 1 1 ++ le 1 2 ++ le 1 1 ++ le 1 2 ++ le 2 0xFFFF ++ le 1 1 ++ le 1 0 ++ le 2 5 ++ le 1 30 ++ le 1 200
def s1 := inb (fr 1 9 0xFFFF 0 0 hb) z
def n9 : Neigh := { epoch := 1, inc := 0, chosen := 2, lists := true, snrOut := 30 }
def z9 := { z with msh := { z.msh with neigh := [(9, n9)] } }
def nh (orig dest : Nat) (path : List Nat) (idx : Nat := 0) : List Byte :=
  le 2 orig ++ le 2 dest ++ le 2 3 ++ le 1 0 ++ le 1 (path.length + 16 * idx) ++ le 2 0 ++ le 1 0 ++ le 1 0 ++ path.flatMap fun a => le 2 a
def s5 := inb (fr 5 9 5 0 7 (nh 7 5 [] ++ mkSection 1 0 [1,2]) true) z9
def s6 := inb (fr 5 9 5 0 7 (nh 7 8 [5] ++ mkSection 1 0 [1,2]) true) z9
def z8 := z9.put F.MSH_MASTER_ADDR 7
def s7 := inb (fr 6 9 5 0 7 (nh 7 5 [] ++ mkSection 4 0 (le 4 0 ++ le 2 0 ++ le 2 0)) true) z8
def zm := ((z9.put F.MSH_CFG_ROLE 2).put F.MSH_POLL_CTRL_ENTRIES 1).setPoll 0 0 4 (7 + 65536)
def s8 := inb (fr 7 9 5 0 7 (nh 7 5 [8] ++ []) true) zm
def rb : List Byte := le 4 1 ++ le 2 0 ++ le 2 77 ++ le 4 0x20000000 ++ le 2 1 ++ le 2 0 ++ le 4 0
def s9 := inb (fr 5 9 5 0 7 (nh 7 5 [] ++ mkSection 5 0 rb) true) (z9.put F.MSH_CFG_VMAX 2)
def s4 := inb (fr 4 9 5 0 7 [1, 2, 2, 0, 1, 2, 3, 4]) { z9 with msh := { z9.msh with neigh := [(9, { n9 with reqs := 1, nonce := [1, 2, 3, 4] })] } }
def s10 : State := { s9 with msh := { s9.msh with served := [(7, (77, [1, 0, 0, 0]))] } }
def s11 := inb (fr 2 9 5 0 7 [30, 0, 0, 0]) { z9 with msh := { z9.msh with cur := some { ftype := 5, rx := 8, stage := 2 } } }
def s12 := inb (fr 2 9 5 0 7 [30, 0, 0, 0]) { z9 with msh := { z9.msh with neigh := [(9, { n9 with epoch := 2 })] } }
def s13 := inb (fr 2 9 5 0 7 [30, 0, 0, 0]) { z9 with msh := { z9.msh with neigh := [(9, { n9 with seqU := some 7 })] } }

theorem witness_FramesAreJudged :
    (∃ p, p ∈ meshRows ∧ ∃ s : State, s.runs = true ∧ s.inHead p.1 = none)
    ∧ (∃ p, p ∈ meshRows ∧ ∃ s : State, ∃ r : MeshRx, s.runs = true ∧ s.inHead p.1 = some r ∧ s.malformed r.bytes = true ∧ s.msh.todo = [])
    ∧ (∃ p, p ∈ meshRows ∧ ∃ s : State, ∃ r : MeshRx, ∃ n : Neigh, s.runs = true ∧ s.inHead p.1 = some r ∧ s.malformed r.bytes = false ∧ s.msh.todo = [] ∧ s.nb
      (linkHdr r.bytes).tx = some n ∧ pairOrder (linkHdr r.bytes).epoch (linkHdr r.bytes).inc n.epoch n.inc = .lt)
    ∧ (∃ p, p ∈ meshRows ∧ ∃ s : State, ∃ r : MeshRx, ∃ n : Neigh, s.runs = true ∧ s.inHead p.1 = some r ∧ s.malformed r.bytes = false ∧ s.msh.todo = [] ∧ s.nb
      (linkHdr r.bytes).tx = some n ∧ pairOrder (linkHdr r.bytes).epoch (linkHdr r.bytes).inc n.epoch n.inc = .eq ∧ (((if (linkHdr r.bytes).rx = 0xFFFF then n.seqB
      else n.seqU) = some (linkHdr r.bytes).lseq ∨ ((linkHdr r.bytes).net = true ∧ ((netHdr r.bytes).orig = s.mshAddr ∨ s.seen (netHdr r.bytes).orig (netHdr
      r.bytes).nseq = true)))))
    ∧ (∃ p, p ∈ meshRows ∧ ∃ s : State, ∃ r : MeshRx, s.runs = true ∧ s.inHead p.1 = some r ∧ s.judgedGood r ∧ s.msh.todo = [] ∧ ((p.1 ≤ 4 ∨ (∀ x ∈ frameSections r,
      x.1 ≠ 5) ∨ s.get F.MSH_CFG_VMAX = 1))) :=
  ⟨⟨(1, Sys2Proof.Instr.hello), by decide +kernel, z, by decide +kernel⟩,
   ⟨(1, Sys2Proof.Instr.hello), by decide +kernel, (inb (fr 1 9 0xFFFF 0 0 [1]) z),
    { bytes := [17, 0, 0, 0, 9, 0, 255, 255, 1, 0, 0, 0, 0, 0, 0, 0, 1, 0, 0, 0, 0], mode := 3, snr := 20, erased := 0, ts := 0 }, by decide +kernel⟩,
   ⟨(2, Sys2Proof.Instr.ack), by decide +kernel, s12,
    { bytes := [18, 0, 0, 0, 9, 0, 5, 0, 1, 0, 0, 0, 0, 0, 7, 0, 30, 0, 0, 0, 0, 0, 0, 0], mode := 3, snr := 20, erased := 0, ts := 0 },
    { epoch := 2, inc := 0, snrIn := -40, snrOut := 30, dr := 192, rung := 1, fails := 0, cleans := 0, failRun := 0, valid := true, lists := true, chosen := 2, reqs := 0, nonce := [], master := 65535, costM := 65535, hopsM := 8, nextM := 65535, seqU := none, seqB := none, next := 0, ts := 0 },
    by decide +kernel⟩,
   ⟨(2, Sys2Proof.Instr.ack), by decide +kernel, s13,
    { bytes := [18, 0, 0, 0, 9, 0, 5, 0, 1, 0, 0, 0, 0, 0, 7, 0, 30, 0, 0, 0, 0, 0, 0, 0], mode := 3, snr := 20, erased := 0, ts := 0 },
    { epoch := 1, inc := 0, snrIn := -40, snrOut := 30, dr := 192, rung := 1, fails := 0, cleans := 0, failRun := 0, valid := true, lists := true, chosen := 2, reqs := 0, nonce := [], master := 65535, costM := 65535, hopsM := 8, nextM := 65535, seqU := some 7, seqB := none, next := 0, ts := 0 },
    by decide +kernel⟩,
   ⟨(1, Sys2Proof.Instr.hello), by decide +kernel, s1,
    { bytes := [17, 0, 0, 0, 9, 0, 255, 255, 1, 0, 0, 0, 0, 0, 0, 0, 0, 0, 0, 0, 0, 0, 0, 0, 1, 0, 100, 0, 1, 2, 1, 2, 255, 255, 1, 0, 5, 0, 30, 200, 0, 0, 0, 0], mode := 3, snr := 20, erased := 0, ts := 0 },
    by decide +kernel, by decide +kernel, by unfold State.judgedGood; decide +kernel, by decide +kernel⟩⟩

theorem witness_NeighboursAndLinks :
    (∃ s : State, ∃ r : MeshRx, s.runs = true ∧ s.inHead 1 = some r ∧ s.judgedGood r)
    ∧ (∃ s : State, ∃ r : MeshRx, ∃ n : Neigh, ∃ t0 : MeshTx, s.runs = true ∧ s.inHead 2 = some r ∧ s.judgedGood r ∧ s.nb (linkHdr r.bytes).tx = some n ∧ pairOrder
      (linkHdr r.bytes).epoch (linkHdr r.bytes).inc n.epoch n.inc = .eq ∧ s.msh.cur = some t0 ∧ t0.stage = 2 ∧ t0.rx = (linkHdr r.bytes).tx ∧ (linkHdr r.bytes).rx =
      s.mshAddr ∧ t0.pushes = [])
    ∧ (∃ s : State, ∃ r : MeshRx, s.runs = true ∧ s.inHead 2 = some r ∧ s.judgedGood r ∧ ((∀ t0, s.msh.cur = some t0 → t0.stage ≠ 2 ∨ t0.rx ≠ (linkHdr r.bytes).tx ∨
      (linkHdr r.bytes).rx ≠ s.mshAddr)) ∧ s.msh.cur ≠ none)
    ∧ (∃ s : State, ∃ r : MeshRx, ∃ n : Neigh, s.runs = true ∧ s.inHead 3 = some r ∧ s.judgedGood r ∧ s.nb (linkHdr r.bytes).tx = some n ∧ pairOrder (linkHdr
      r.bytes).epoch (linkHdr r.bytes).inc n.epoch n.inc = .eq ∧ s.mshRuns = true ∧ s.msh.cur = none ∧ s.msh.outq = [])
    ∧ (∃ s : State, ∃ r : MeshRx, ∃ n : Neigh, s.runs = true ∧ s.inHead 4 = some r ∧ s.judgedGood r ∧ s.nb (linkHdr r.bytes).tx = some n ∧ pairOrder (linkHdr
      r.bytes).epoch (linkHdr r.bytes).inc n.epoch n.inc = .eq) :=
  ⟨⟨s1,
    { bytes := [17, 0, 0, 0, 9, 0, 255, 255, 1, 0, 0, 0, 0, 0, 0, 0, 0, 0, 0, 0, 0, 0, 0, 0, 1, 0, 100, 0, 1, 2, 1, 2, 255, 255, 1, 0, 5, 0, 30, 200, 0, 0, 0, 0], mode := 3, snr := 20, erased := 0, ts := 0 },
    by decide +kernel, by decide +kernel, by unfold State.judgedGood; decide +kernel⟩,
   ⟨(inb (fr 2 9 5 0 7 [30, 0, 0, 0]) { z9 with msh := { z9.msh with cur := some { ftype := 5, rx := 9, stage := 2 } } }),
    { bytes := [18, 0, 0, 0, 9, 0, 5, 0, 1, 0, 0, 0, 0, 0, 7, 0, 30, 0, 0, 0, 0, 0, 0, 0], mode := 3, snr := 20, erased := 0, ts := 0 },
    { epoch := 1, inc := 0, snrIn := -40, snrOut := 30, dr := 192, rung := 1, fails := 0, cleans := 0, failRun := 0, valid := true, lists := true, chosen := 2, reqs := 0, nonce := [], master := 65535, costM := 65535, hopsM := 8, nextM := 65535, seqU := none, seqB := none, next := 0, ts := 0 },
    { ftype := 5, unsol := false, ack := true, rx := 9, net := none, body := [], rxTs := none, lseq := none, fails := 0, alt := false, be := 0, stage := 2, pushes := [] },
    by decide +kernel, by decide +kernel, by unfold State.judgedGood; decide +kernel, by decide +kernel⟩,
   ⟨s11, { bytes := [18, 0, 0, 0, 9, 0, 5, 0, 1, 0, 0, 0, 0, 0, 7, 0, 30, 0, 0, 0, 0, 0, 0, 0], mode := 3, snr := 20, erased := 0, ts := 0 }, by decide +kernel,
    by decide +kernel, by unfold State.judgedGood; decide +kernel, by decide +kernel⟩,
   ⟨(inb (fr 3 9 5 0 7 [1, 2, 0, 0, 1, 2, 3, 4]) z9),
    { bytes := [19, 0, 0, 0, 9, 0, 5, 0, 1, 0, 0, 0, 0, 0, 7, 0, 1, 2, 0, 0, 1, 2, 3, 4, 0, 0, 0, 0], mode := 3, snr := 20, erased := 0, ts := 0 },
    { epoch := 1, inc := 0, snrIn := -40, snrOut := 30, dr := 192, rung := 1, fails := 0, cleans := 0, failRun := 0, valid := true, lists := true, chosen := 2, reqs := 0, nonce := [], master := 65535, costM := 65535, hopsM := 8, nextM := 65535, seqU := none, seqB := none, next := 0, ts := 0 },
    by decide +kernel, by decide +kernel, by unfold State.judgedGood; decide +kernel, by decide +kernel⟩,
   ⟨s4, { bytes := [20, 0, 0, 0, 9, 0, 5, 0, 1, 0, 0, 0, 0, 0, 7, 0, 1, 2, 2, 0, 1, 2, 3, 4, 0, 0, 0, 0], mode := 3, snr := 20, erased := 0, ts := 0 },
    { epoch := 1, inc := 0, snrIn := -40, snrOut := 30, dr := 192, rung := 1, fails := 0, cleans := 0, failRun := 0, valid := true, lists := true, chosen := 2, reqs := 1, nonce := [1, 2, 3, 4], master := 65535, costM := 65535, hopsM := 8, nextM := 65535, seqU := none, seqB := none, next := 0, ts := 0 },
    by decide +kernel, by decide +kernel, by unfold State.judgedGood; decide +kernel, by decide +kernel⟩⟩

theorem witness_DeliveryAndForwarding :
    (∃ s : State, ∃ r : MeshRx, ∃ x : Nat, ∃ data : List Byte, s.runs = true ∧ s.inHead 5 = some r ∧ s.judgedGood r ∧ s.msh.todo = [] ∧ (((netHdr r.bytes).dest =
      s.mshAddr ∨ (netHdr r.bytes).dest = 0xFFFF)) ∧ frameSections r = [(1, x, data)] ∧ s.takes (31 + (netHdr r.bytes).prio % 4))
    ∧ (∃ p, p ∈ ([(5, .data), (6, .poll)] : List (Nat × Instr)) ∧ ∃ s : State, ∃ r : MeshRx, ∃ n : Neigh, s.runs = true ∧ s.inHead p.1 = some r ∧ s.judgedGood r ∧
      s.msh.todo = [] ∧ (netHdr r.bytes).dest ≠ s.mshAddr ∧ (netHdr r.bytes).dest ≠ 0xFFFF ∧ (netHdr r.bytes).idx < (netHdr r.bytes).path.length ∧ s.nb (linkHdr
      r.bytes).tx = some n ∧ pairOrder (linkHdr r.bytes).epoch (linkHdr r.bytes).inc n.epoch n.inc = .eq ∧ s.mshRuns = true ∧ s.msh.cur = none ∧ s.msh.outq = [])
    ∧ (∃ s : State, ∃ r : MeshRx, s.runs = true ∧ s.inHead 6 = some r ∧ s.judgedGood r ∧ s.msh.todo = [] ∧ s.mshRuns = true ∧ s.mshRole = 1 ∧ (netHdr r.bytes).dest =
      s.mshAddr ∧ (netHdr r.bytes).orig = s.get F.MSH_MASTER_ADDR ∧ ((∀ x ∈ frameSections r, x.1 = 4 ∨ x.1 = 2)) ∧ s.msh.secs = [] ∧ ((∃ n, s.nb (linkHdr r.bytes).tx
      = some n ∧ pairOrder (linkHdr r.bytes).epoch (linkHdr r.bytes).inc n.epoch n.inc = .eq)) ∧ s.msh.cur = none ∧ s.msh.outq = [])
    ∧ (∃ s : State, ∃ r : MeshRx, ∃ i : Nat, s.runs = true ∧ s.inHead 7 = some r ∧ s.judgedGood r ∧ s.msh.todo = [] ∧ s.mshRole = 2 ∧ (((netHdr r.bytes).dest =
      s.mshAddr ∨ (netHdr r.bytes).dest = 0xFFFF)) ∧ ((List.range s.entries).find? fun j => s.pollNum j 0 2 == (netHdr r.bytes).orig) = some i ∧ ((∀ x ∈ frameSections
      r, x.1 ≠ 5)))
    ∧ (∃ p, p ∈ ([(5, .data), (6, .poll), (7, .reply)] : List (Nat × Instr)) ∧ ∃ s : State, ∃ r : MeshRx, ∃ y : Nat, ∃ body : List Byte, ∃ a : List Byte, s.runs = true
      ∧ s.inHead p.1 = some r ∧ s.judgedGood r ∧ s.msh.todo = [] ∧ s.get F.MSH_CFG_VMAX ≠ 1 ∧ (((netHdr r.bytes).dest = s.mshAddr ∨ (netHdr r.bytes).dest = 0xFFFF)) ∧
      frameSections r = [(5, y, body)] ∧ (s.msh.served.find? fun x => x.1 == (netHdr r.bytes).orig && x.2.1 == (remoteReq body).rseq) = some ((netHdr r.bytes).orig,
      ((remoteReq body).rseq, a)))
    ∧ (∃ s : State, ∃ r : MeshRx, ∃ y : Nat, ∃ body : List Byte, s.runs = true ∧ s.inHead 5 = some r ∧ s.judgedGood r ∧ s.msh.todo = [] ∧ s.get F.MSH_CFG_VMAX ≠ 1 ∧
      (netHdr r.bytes).dest = s.mshAddr ∧ frameSections r = [(5, y, body)] ∧ (s.msh.served.find? fun x => x.1 == ((netHdr r.bytes).orig) && x.2.1 == (remoteReq
      body).rseq) = none ∧ 1 ≤ (remoteReq body).count ∧ (remoteReq body).count ≤ 64 ∧ (((remoteReq body).write = true → (remoteReq body).words.length = (remoteReq
      body).count)) ∧ ((s.on F.MSH_CFG_REMOTE_EN = false ∨ (remoteReq body).token ≠ (s.reg A.MSH_REMOTE_TOKEN).toNat ∨ ((remoteReq body).write = true ∧ (s.boot.bench
      = true ∨ s.remoteShut (remoteReq body).addr = true))))) :=
  ⟨⟨s5,
    { bytes := [21, 1, 0, 0, 9, 0, 5, 0, 1, 0, 0, 0, 0, 0, 7, 0, 7, 0, 5, 0, 3, 0, 0, 0, 0, 0, 0, 0, 1, 0, 2, 0, 1, 2, 0, 0, 0, 0], mode := 3, snr := 20, erased := 0, ts := 0 },
    0, [1, 2], by decide +kernel, by decide +kernel, by unfold State.judgedGood; decide +kernel, by decide +kernel, by decide +kernel, by decide +kernel,
    by unfold State.takes; decide +kernel⟩,
   ⟨(5, Sys2Proof.Instr.data), by decide +kernel, s6,
    { bytes := [21, 1, 0, 0, 9, 0, 5, 0, 1, 0, 0, 0, 0, 0, 7, 0, 7, 0, 8, 0, 3, 0, 0, 1, 0, 0, 0, 0, 5, 0, 1, 0, 2, 0, 1, 2, 0, 0, 0, 0], mode := 3, snr := 20, erased := 0, ts := 0 },
    { epoch := 1, inc := 0, snrIn := -40, snrOut := 30, dr := 192, rung := 1, fails := 0, cleans := 0, failRun := 0, valid := true, lists := true, chosen := 2, reqs := 0, nonce := [], master := 65535, costM := 65535, hopsM := 8, nextM := 65535, seqU := none, seqB := none, next := 0, ts := 0 },
    by decide +kernel, by decide +kernel, by unfold State.judgedGood; decide +kernel, by decide +kernel⟩,
   ⟨s7,
    { bytes := [22, 1, 0, 0, 9, 0, 5, 0, 1, 0, 0, 0, 0, 0, 7, 0, 7, 0, 5, 0, 3, 0, 0, 0, 0, 0, 0, 0, 4, 0, 8, 0, 0, 0, 0, 0, 0, 0, 0, 0, 0, 0, 0, 0], mode := 3, snr := 20, erased := 0, ts := 0 },
    by decide +kernel, by decide +kernel, by unfold State.judgedGood; decide +kernel, by decide +kernel⟩,
   ⟨s8,
    { bytes := [23, 1, 0, 0, 9, 0, 5, 0, 1, 0, 0, 0, 0, 0, 7, 0, 7, 0, 5, 0, 3, 0, 0, 1, 0, 0, 0, 0, 8, 0, 0, 0, 0, 0], mode := 3, snr := 20, erased := 0, ts := 0 },
    0, by decide +kernel, by decide +kernel, by unfold State.judgedGood; decide +kernel, by decide +kernel⟩,
   ⟨(5, .data), by decide +kernel, s10, ⟨fr 5 9 5 0 7 (nh 7 5 [] ++ mkSection 5 0 rb) true, 3, 20, 0, 0⟩, 0, rb, [1, 0, 0, 0], by decide +kernel,
    by decide +kernel, by unfold State.judgedGood; decide +kernel, by decide +kernel⟩,
   ⟨s9,
    { bytes := [21, 1, 0, 0, 9, 0, 5, 0, 1, 0, 0, 0, 0, 0, 7, 0, 7, 0, 5, 0, 3, 0, 0, 0, 0, 0, 0, 0, 5, 0, 20, 0, 1, 0, 0, 0, 0, 0, 77, 0, 0, 0, 0, 32, 1, 0, 0, 0, 0, 0, 0, 0, 0, 0, 0, 0], mode := 3, snr := 20, erased := 0, ts := 0 },
    0, [1, 0, 0, 0, 0, 0, 77, 0, 0, 0, 0, 32, 1, 0, 0, 0, 0, 0, 0, 0], by decide +kernel, by decide +kernel, by unfold State.judgedGood; decide +kernel,
    by decide +kernel⟩⟩
end K3


namespace K4
def z := (((State.reset.put (hdrEnable 0x1D) 1).put F.MSH_CFG_ROLE 2).put F.MSH_ADDR_ADDR 5)
def n9 : Neigh := { epoch := 1, inc := 0, chosen := 2, lists := true, snrOut := 30, snrIn := 30 }
def row9 : Nat × RouteRow := (0, { dest := 9, cands := [⟨9, 100, 1, true, 0⟩], sel := some 9 })
def row8 : Nat × RouteRow := (1, { dest := 8, cands := [⟨9, 200, 2, false, 0⟩], sel := some 9 })
def zr := { z with ts := secTs 100000, msh := { z.msh with neigh := [(9, n9)], rows := [row9, row8] } }
def zp := (zr.put F.MSH_POLL_CTRL_ENTRIES 1).sramPut pollBase (le 2 9 ++ le 1 1 ++ le 1 0)
def zq := run .pollRun zp
def zs := (run .pollSend zq)
def zw := (zs.put F.MSH_POLL_CFG_WINDOW 1)
def bad (s : State) : Prop := (∃ i j, i < j ∧ j < s.entries ∧ s.pollNum i 0 2 = s.pollNum j 0 2) ∨ ∃ i, i < s.entries ∧ (s.pollNum i 0 2 = 0 ∨ 1000 < s.pollNum i 0 2 ∨ s.pollNum i 0 2 = s.mshAddr ∨ 7 < s.pollNum i 3 1)
def visits (s : State) (i : Nat) : Prop := i < s.entries ∧ s.pollEn i = true ∧ (s.pollNum i 19 1 = 2 → s.msh.cycNum % 8 = 0)

theorem witness_MeshTables :
    (∃ s : State, ∃ a : Nat, ∃ n : Neigh, s.runs = true ∧ s.nb a = some n ∧ secTs (s.get F.MSH_TIMING_NEIGH_TO) ≤ s.ts - n.ts)
    ∧ (∃ s : State, ∃ a : Nat, s.runs = true ∧ ((∀ n, s.nb a = some n → s.ts - n.ts < secTs (s.get F.MSH_TIMING_NEIGH_TO))))
    ∧ (∃ s : State, ∃ d : Nat, ∃ i : Nat, ∃ r : RouteRow, ∃ c : Cand, s.runs = true ∧ s.row d = some (i, r) ∧ r.cands.find? (fun x => x.via == c.via) = some c ∧
      c.direct = false ∧ secTs (s.get F.MSH_TIMING_ROUTE_TO) ≤ s.ts - c.ts)
    ∧ (∃ s : State, ∃ d : Nat, ∃ via : Nat, s.runs = true ∧ ((∀ p ∈ s.msh.rows, p.2.dest = d → ∀ c ∈ p.2.cands, c.via = via → c.direct = true ∨ s.ts - c.ts < secTs
      (s.get F.MSH_TIMING_ROUTE_TO))))
    ∧ (∃ s : State, ∃ a : Nat, ∃ e : Nat, s.runs = true ∧ (a, e) ∈ s.msh.quar ∧ e ≤ s.ts)
    ∧ (∃ s : State, ∃ a : Nat, s.runs = true ∧ ((∀ e, (a, e) ∈ s.msh.quar → s.ts < e)))
    ∧ (∃ s : State, ∃ m : Nat, ∃ at' : Nat, s.runs = true ∧ s.msh.conflict = some (m, at'))
    ∧ (∃ s : State, s.runs = true ∧ s.msh.conflict = none)
    ∧ (∃ s : State, ∃ req : Req, s.runs = true ∧ s.enabled 0x1D = false ∧ s.mshAddr ≠ 0 ∧ s.incFree = true)
    ∧ (∃ s : State, ∃ req : Req, s.runs = true ∧ s.enabled 0x1D = false ∧ ((s.mshAddr = 0 ∨ s.incFree = false)))
    ∧ (∃ s : State, ∃ req : Req, s.runs = true ∧ s.enabled 0x1D = true) :=
  ⟨⟨zr, 9,
    { epoch := 1, inc := 0, snrIn := 30, snrOut := 30, dr := 192, rung := 1, fails := 0, cleans := 0, failRun := 0, valid := true, lists := true, chosen := 2, reqs := 0, nonce := [], master := 65535, costM := 65535, hopsM := 8, nextM := 65535, seqU := none, seqB := none, next := 0, ts := 0 },
    by decide +kernel⟩,
   ⟨z, 0, by decide +kernel⟩,
   ⟨zr, 8, 1, { dest := 8, cands := [{ via := 9, cost := 200, hops := 2, direct := false, ts := 0 }], sel := some 9 },
    { via := 9, cost := 200, hops := 2, direct := false, ts := 0 }, by decide +kernel⟩,
   ⟨z, 0, 0, by decide +kernel⟩,
   ⟨{ zr with msh := { zr.msh with quar := [(9, 5)] } }, 9, 5, by decide +kernel⟩,
   ⟨State.reset, 5, by decide +kernel, fun e h => nomatch (show (5, e) ∈ ([] : List (Nat × Nat)) from h)⟩,
   ⟨{ zr with msh := { zr.msh with conflict := some (3, 5) } }, 3, 5, by decide +kernel⟩,
   ⟨z, by decide +kernel⟩,
   ⟨(State.reset.put F.MSH_ADDR_ADDR 5), Sys2Proof.Req.host, by decide +kernel⟩,
   ⟨State.reset, Sys2Proof.Req.host, by decide +kernel⟩,
   ⟨z, Sys2Proof.Req.host, by decide +kernel⟩⟩

theorem witness_PollingCycles :
    (∃ s : State, s.runs = true ∧ s.mshRole ≠ 2)
    ∧ (∃ s : State, s.runs = true ∧ s.mshRole = 2 ∧ bad s)
    ∧ (∃ s : State, s.runs = true ∧ s.mshRole = 2 ∧ ¬ bad s ∧ s.on F.MSH_POLL_CTRL_RUN = false)
    ∧ (∃ s : State, ∃ i : Nat, s.runs = true ∧ s.mshRuns = true ∧ s.msh.cycOn = true ∧ s.on F.MSH_POLL_CTRL_RUN = true ∧ s.silenced = false ∧ s.msh.polls.length <
      s.get F.MSH_POLL_CFG_WINDOW ∧ s.msh.cycIdx ≤ i ∧ i < s.entries ∧ s.pollEn i = true ∧ ((s.pollNum i 19 1 = 2 → s.msh.cycNum % 8 = 0)) ∧ ((∀ j, s.msh.cycIdx ≤ j →
      j < i → ¬ visits s j)))
    ∧ (∃ s : State, s.runs = true ∧ s.msh.polls ≠ [] ∧ ((s.mshRuns = false ∨ s.msh.cycOn = false ∨ s.on F.MSH_POLL_CTRL_RUN = false ∨ s.silenced = true ∨ s.get
      F.MSH_POLL_CFG_WINDOW ≤ s.msh.polls.length)))
    ∧ (∃ s : State, s.runs = true ∧ s.msh.cycOn = true ∧ s.msh.polls = [] ∧ ((s.on F.MSH_POLL_CTRL_RUN = true → ∀ j, s.msh.cycIdx ≤ j → ¬ visits s j)))
    ∧ (∃ s : State, ∃ p : PollOut, s.runs = true ∧ s.msh.polls.find? (fun x => x.dest == p.dest) = some p ∧ s.get F.MSH_POLL_CFG_HOP_MS * (s.pollNum p.idx 3 1 + 1) *
      32768 ≤ (s.ts - p.ts) * 1000)
    ∧ (∃ s : State, ∃ d : Nat, s.runs = true ∧ ((∀ p ∈ s.msh.polls, p.dest = d → (s.ts - p.ts) * 1000 < s.get F.MSH_POLL_CFG_HOP_MS * (s.pollNum p.idx 3 1 + 1) *
      32768))) :=
  ⟨⟨State.reset, by decide +kernel⟩,
   ⟨z.put F.MSH_POLL_CTRL_ENTRIES 1, by decide +kernel, by decide +kernel, Or.inr ⟨0, by decide +kernel⟩⟩,
   ⟨zp, by decide +kernel, by decide +kernel, fun h => h.elim (fun ⟨i, j, h1, h2, _⟩ => absurd (Nat.lt_of_lt_of_eq h2 (show zp.entries = 1 by decide +kernel)) (by omega)) fun ⟨i, h1, h2⟩ => by
    have e : i = 0 := by have := Nat.lt_of_lt_of_eq h1 (show zp.entries = 1 by decide +kernel); omega
    subst e; revert h2; decide +kernel, by decide +kernel⟩,
   ⟨zq, 0, by decide +kernel, by decide +kernel, by decide +kernel, by decide +kernel, by decide +kernel, by decide +kernel, by decide +kernel, by decide +kernel, by decide +kernel, by decide +kernel, fun j _ h => absurd h (Nat.not_lt_zero j)⟩,
   ⟨zw, by decide +kernel⟩,
   ⟨{ zq.put F.MSH_POLL_CTRL_RUN 0 with msh := { zq.msh with polls := [] } }, by decide +kernel, by decide +kernel, by decide +kernel, fun h => absurd h (by decide +kernel)⟩,
   ⟨{ zs with ts := zs.ts + secTs 60 }, { dest := 9, idx := 0, ts := 3276800000, lm := false }, by decide +kernel⟩,
   ⟨z, 0, by decide +kernel⟩⟩
end K4


namespace ByHand
def fr (t : Nat) (p : List Byte) : Frame := { typ := t, seq := 5, ref := none, epoch := 0, status := 0, ver := 1, payload := p }
def z : State := (State.reset.put (hdrEnable 0x1D) 1).put F.MSH_CFG_ROLE 2
def held (t : Nat) : State := z.setRing 35 { frames := [fr t (le 2 9 ++ List.replicate 14 0)] }
def near (t : Nat) : State := ((held t).put F.MSH_POLL_CTRL_ENTRIES 1).sramPut pollBase (le 2 9 ++ le 1 1 ++ le 1 0)
def open' : State := { State.reset with linkUp := true }

theorem witness_StepTakesTheFrontCommand :
    (∃ (s : State) (c : Instr) (cs : List Instr), s.pending = c :: cs)
    ∧ ∃ s : State, s.pending = [] ∧ s.runs = false ∧ s.getInt F.BKP_TRIM_PPM = 0 ∧ s.ts % 32768 ≠ 32767 ∧ s.ts + 1 < 2 ^ 64 :=
  ⟨⟨{ State.reset with pending := [.summary] }, .summary, [], rfl⟩,
   ⟨State.reset.put F.RST_PWR_STAT_STATE 2, by decide +kernel⟩⟩

theorem witness_InterruptConditions : (∃ s : State, s.linkUp = false) ∧ ∃ s : State, s.wf = true ∧ s.linkUp = true :=
  ⟨⟨State.reset, rfl⟩, ⟨open', by decide +kernel⟩⟩

theorem witness_TotalsFollowTheSignedSums :
    (∃ a : Accs, a.wh.length = 4 ∧ a.varh.length = 4 ∧ a.vah.length = 4)
    ∧ (∃ (i : Nat) (dp dq : Int), i ≠ quadrant dp dq)
    ∧ (∃ a : Accs, a.net < 2 ^ 64 ∧ a.debt < 2 ^ 64) ∧ (∃ dp : Int, dp < 0)
    ∧ ∃ (a : Accs) (dp : Int), 0 ≤ dp ∧ a.debt ≠ 0 ∧ a.net < 2 ^ 64 ∧ dp.toNat ≤ a.debt :=
  let a : Accs := { debt := 5, wh := [0, 0, 0, 0], varh := [0, 0, 0, 0], vah := [0, 0, 0, 0] }
  ⟨⟨a, by decide +kernel⟩, ⟨3, 1, 1, by decide +kernel⟩, ⟨a, by decide +kernel⟩, ⟨-1, by decide⟩, ⟨a, 2, by decide +kernel⟩⟩

/-- Both rows: without the role of a node, and each way a request goes. -/
theorem witness_RemoteCommands : ∀ p ∈ ([(1, .remoteRead), (2, .remoteWrite)] : List (Nat × Instr)),
    (∃ s : State, s.runs = true ∧ s.mshRuns = false)
    ∧ (∃ (s : State) (f : Frame) (rest : List Frame), s.runs = true ∧ s.mshRuns = true ∧ (s.ring 35).frames = f :: rest ∧ f.typ = p.1 ∧ s.takes 64
        ∧ f.payload.length < 16)
    ∧ (∃ (s : State) (f : Frame) (rest : List Frame), s.runs = true ∧ s.mshRuns = true ∧ (s.ring 35).frames = f :: rest ∧ f.typ = p.1 ∧ s.takes 64
        ∧ ¬ (f.payload.length < 16 ∨ s.mshRole ≠ 2) ∧ s.hopTo (fieldLe f.payload 0 2) = none)
    ∧ ∃ (s : State) (f : Frame) (rest : List Frame), s.runs = true ∧ s.mshRuns = true ∧ (s.ring 35).frames = f :: rest ∧ f.typ = p.1 ∧ s.takes 64
        ∧ ¬ (f.payload.length < 16 ∨ s.mshRole ≠ 2) ∧ s.hopTo (fieldLe f.payload 0 2) ≠ none := by
  intro p hp
  refine ⟨⟨State.reset, by decide +kernel⟩, ⟨z.setRing 35 { frames := [fr p.1 []] }, fr p.1 [], [], ?_⟩,
    ⟨held p.1, fr p.1 (le 2 9 ++ List.replicate 14 0), [], ?_⟩, ⟨near p.1, fr p.1 (le 2 9 ++ List.replicate 14 0), [], ?_⟩⟩ <;>
    (revert p hp; unfold State.takes; decide +kernel)
end ByHand

end Sys2Proof.Tests
end

/-! What the power-on reset leaves (O2): the reads of the reset state, and the reset words of the enables. -/
namespace Sys2Proof.Machine

-- Reads of the reset state: every sparse memory is empty, so an address reads as what nothing has written.

@[simp] theorem State.reset_reg (a : Nat) : State.reset.reg a = resetWord a := spRead_nil resetWord a

@[simp] theorem State.reset_ring (e : Nat) : State.reset.ring e = {} := spRead_nil _ e

@[simp] theorem State.reset_sramByte (a : Nat) : State.reset.sramByte a = 0 := spRead_nil sramBlank a

@[simp] theorem State.reset_outlet (k : Nat) : State.reset.outlet k = {} := spRead_nil _ k

/-- A field of a register that holds 0 is not set. -/
theorem State.on_eq_false_of_reg_eq_zero (s : State) (f : Fld) (h : s.reg f.addr = 0) : s.on f = false := by
  simp [State.on, State.get, getBits, h]

/-- A header word of a page resets to what R45 gives that page. -/
theorem resetWord_header {p o : Nat} {sp : PageSpec} (hp : findPage p = some sp) (ho : o < 0x100) :
    resetWord (p * 4096 + o) = BitVec.ofNat 32 (resetOfHeader sp (p - sp.page) o) := by
  have hdiv : (p * 4096 + o) / 4096 = p := by omega
  have hmod : (p * 4096 + o) % 4096 = o := by omega
  simp only [resetWord, hdiv, hmod, hp, if_pos ho]

/-- A block whose CTRL.ENABLE software writes is disabled after reset (R45). -/
theorem State.reset_enabled_of_rw {p : Nat} (h : (findPage p).map PageSpec.enable = some .rw) : State.reset.enabled p = false := by
  obtain ⟨sp, hp, he⟩ := Option.map_eq_some_iff.mp h
  have hctrl : resetWord (p * 4096 + 0x008) = 0 := by
    rw [resetWord_header hp (by decide)]
    simp [resetOfHeader, he]
  exact State.on_eq_false_of_reg_eq_zero _ (hdrEnable p) ((State.reset_reg _).trans hctrl)

/-- The ENABLE of each outlet page (0x30 on) and of each metrology lane (0x20 on) is software's to write (R40). -/
theorem findPage_perOutlet_enable : ∀ k < 12,
    (findPage (0x30 + k)).map PageSpec.enable = some .rw ∧ (findPage (0x20 + k)).map PageSpec.enable = some .rw := by decide

/-- No contactor output of an outlet is high after reset: BAY commands neither of them (R4). -/
theorem State.reset_outHigh (k : Nat) : State.reset.outHigh k = false := by
  simp [State.outHigh, State.pinM, State.pinA]

/-- Both words of AFE's CH_EN reset to 0. -/
theorem resetWord_chEn : resetWord A.AFE_CH_EN_LO = 0 ∧ resetWord (A.AFE_CH_EN_LO + 4) = 0 := by decide

/-- No channel of AFE is enabled after reset. -/
theorem State.reset_chEn (c : Nat) : State.reset.chEn c = false := by
  obtain ⟨hlo, hhi⟩ := resetWord_chEn
  apply State.on_eq_false_of_reg_eq_zero
  unfold bitFld64
  split
  · exact (State.reset_reg _).trans hlo
  · exact (State.reset_reg _).trans hhi

/-- Settles O2: each memory of `State.reset` is empty, so a read gives the reset value, and the reset words of the enables are 0. -/
theorem resetLeaves : Obligations.ResetLeaves := by
  unfold Obligations.ResetLeaves
  have henabled (k : Nat) (hk : k < 12) :
      State.reset.enabled (0x30 + k) = false ∧ State.reset.enabled (0x20 + k) = false ∧ State.reset.outHigh k = false := by
    obtain ⟨hbay, hmtr⟩ := findPage_perOutlet_enable k hk
    exact ⟨State.reset_enabled_of_rw hbay, State.reset_enabled_of_rw hmtr, State.reset_outHigh k⟩
  have hrings (e : Nat) : (State.reset.ring e).frames = [] ∧ (State.reset.ring e).next = 0 := by simp
  exact ⟨rfl, State.reset_reg, hrings, State.reset_sramByte, rfl, rfl, rfl, rfl, rfl, rfl, henabled, fun c _ => State.reset_chEn c⟩

end Sys2Proof.Machine

/-! Every command completes (O3): the outcomes a meaning is built from, and each command's outcome by its shape. -/
namespace Sys2Proof.Machine

/-- The command completes: it ends in a state with IRQ_N judged, not in a fault or a refusal. -/
def Completes (o : Out) : Prop := ∃ u, o = done u

theorem completes_done (s : State) : Completes (done s) := ⟨s, rfl⟩

theorem completes_ite {c : Prop} [Decidable c] {a b : Out} (ha : Completes a) (hb : Completes b) : Completes (if c then a else b) := by
  split <;> assumption

theorem completes_onFabric {s : State} {f : State → Out} (h : ∀ u, Completes (f u)) : Completes (s.onFabric f) :=
  completes_ite (h s) (completes_done s)

theorem completes_onLink (s : State) (f : State → State) : Completes (s.onLink f) :=
  completes_ite (completes_done _) (completes_ite (completes_done _) (completes_ite (completes_done _) (completes_done _)))

theorem completes_dmaDone (x : State × Option Nat) : Completes (dmaDone x) := by
  unfold dmaDone
  split <;> exact completes_done _

theorem completes_bayCommand (s : State) (k typ : Nat) (argOk : Nat → Bool) (accepted : Bool) (act : State → Frame → State) :
    Completes (s.bayCommand k typ argOk accepted act) := by
  unfold State.bayCommand
  split
  · exact completes_done _
  · extract_lets
    split <;> exact completes_done _

/-- Every command completes: whatever conditions, bindings and cases its meaning is made of, each branch ends in `done`. -/
theorem exec_completes (c : Instr) (s : State) : Completes (exec c s) := by
  cases c <;> dsimp only [exec]
  -- Transactions of the host link.
  case summary | read | write | push | pull =>
    exact completes_onLink _ _
  -- Commands in a frame of an outlet's ring.
  case authorise | stop | setLimit | pilotPause | allowClose | lock | unlock | resetFault | digital =>
    exact completes_onFabric fun _ => completes_bayCommand _ _ _ _ _ _
  -- Direct commands of a DMA channel.
  case dmaStart | dmaLoad | dmaResume | posWrite =>
    exact completes_onFabric fun _ => completes_dmaDone _
  -- Commands that end in one state, whatever runs.
  case irqPulseEnd | sealEnChange | lockoutEnd | xo32Fail =>
    exact completes_done _
  -- Commands under one condition, whatever runs.
  case lostMarker | ringAgeTimeout | powerFailWarning | halt | holdupMeasureEnd | tamperTrigger | tamperClear | loopReseed |
      shadowCheck | powerOn | powerOnReset | backupPowerOn | pinReset | startSequence | standbyWake | referenceLost |
      loopBitChange =>
    exact completes_ite (completes_done _) (completes_done _)
  -- Commands of the fabric that end in one state.
  case registerWrite | softReset | chEnWrite | runGuard | laneFault | qstatRead | snapSeqRead | mtrEnableWrite |
      couchComplete | tempMeasurement | shimWrite | jigOffset | jigGain | jigPhase | jigRef | jigFill | jigCommit |
      jigDiscard | captureArm | captureForce | captureAbort | lockPulseEnd | ocGraceEnd | bayEnableWrite | lmgLimitWrite |
      cacheInsert | cacheDelete | cacheLookup | cacheClear | secondTick | tariffActivate | tariffCopy | siteActivate |
      siteRelease | helloTimer | tenonRetry | remoteRead | remoteWrite | protectWrite | sigArchWrite | challenge | verify |
      close | jigEnter | jigLeave | sessionExpiry | keygen | vkInstall | vkRevoke | logReplay | totalsReq | queryT | queryL |
      queryR | queryK | dmaAbort | haltClear | fuseLock | benchRelease | standby | timeSet | eccSingleError =>
    exact completes_onFabric fun _ => completes_done _
  -- Commands of the fabric under one condition.
  case softResetDone | irqPendClear | errcodeClear | evcntWrite | read64Low | write64Low | write64High | afeStartTestDone |
      returnCompareRetry | cycleBoundary | modLayerSwitch | batchReady | trackerEvaluation | holdoverExpiry |
      integratorPreload | replayHandover | lanePauseEnd | mtrStartTestDone | pfWaitEnd | pfCutoff | pulseStart | pulseEnd |
      plsStageEnable | bgWindowEnd | captureDeliverStart | pilotFrameStart | outletEvaluation | invalidStateAlarm |
      mirrorConfirm | causeWaitTimeout | auxContactorDelay | lockFeedbackConfirm | withdrawTimeout | faultHoldExpiry |
      meterLostTimeout | pilotPauseEnd | rcmEvaluation | selftestAfterTrip | decideTimeout | plugTimeout | endTimeout |
      tariffStore | progressTick | lmgRound | leaseFallback | masterHoldEnd | epdFrame | panelPowerOn | panelPowerOff |
      displaySramWrite | tempHostStale | carrierSenseChange | quarantineEnd | unsolicitedReply | scrubTick | measClr |
      challengeExpiry | optSignOn | optSilenceTimeout | queryEnd | queryTimeout | stickyClear | waitTimeout | outputSample |
      lockRepeat =>
    exact completes_onFabric fun _ => completes_ite (completes_done _) (completes_done _)
  -- The other events of the host link, and what the power supply and the start bring about.
  case unknownCommandByte => exact completes_ite (completes_done _) (completes_onLink _ _)
  case transactionEndedEarly => exact completes_ite (completes_done _) (completes_ite (completes_onLink _ _) (completes_onLink _ _))
  case fabricWaitTimeout => exact completes_ite (completes_onLink _ _) (completes_done _)
  case lastChanceCouch =>
    exact completes_ite (completes_ite (completes_done _) (completes_done _)) (completes_done _)
  case tenonRequest =>
    unfold execTenonRequest
    split
    · exact completes_done _
    · exact completes_ite (completes_done _) (completes_ite (completes_done _) (completes_done _))
  case startTimeout =>
    unfold execStartTimeout
    split
    · exact completes_done _
    · extract_lets
      split <;> exact completes_done _
  -- Commands of the fabric whose meaning looks at the state case by case.
  all_goals
    refine completes_onFabric fun u => ?_
    repeat' first
      | with_reducible exact completes_done _
      | with_reducible apply completes_ite
      | extract_lets
      | split

/-- Settles O3: a command completes (`exec_completes`) and so does a tick of the clock; both judge IRQ_N last. -/
theorem everyStepJudgesTheInterruptLine : Obligations.EveryStepJudgesTheInterruptLine := by
  unfold Obligations.EveryStepJudgesTheInterruptLine
  intro s
  unfold step
  split
  · exact ⟨s.tick, rfl, State.settle_line _⟩
  · next c cs _ =>
    obtain ⟨u, hu⟩ := exec_completes c { s with pending := cs }
    exact ⟨u.settle, hu, State.settle_line u⟩

end Sys2Proof.Machine

/-! The conditions that hold IRQ_N low (O4): what a canonical sparse list lists, and each source of conditions. -/
namespace Sys2Proof.Machine

section
variable {β : Type} {d : Nat → β}

/-- An address that does not read as unlisted is listed with what it reads as. -/
theorem mem_of_spRead_ne {l : List (Nat × β)} {a : Nat} (h : spRead d l a ≠ d a) : (a, spRead d l a) ∈ l := by
  induction l with
  | nil => exact absurd rfl h
  | cons p l ih =>
    obtain ⟨x, w⟩ := p
    by_cases hax : a = x
    · simp [spRead, hax]
    · simp only [spRead, if_neg hax] at h ⊢
      exact List.mem_cons_of_mem _ (ih h)

/-- What a canonical list lists is what its address reads as. -/
theorem spRead_of_mem [DecidableEq β] {l : List (Nat × β)} (hl : spWf d l = true) {p : Nat × β} (h : p ∈ l) : spRead d l p.1 = p.2 := by
  induction l with
  | nil => exact absurd h List.not_mem_nil
  | cons q l ih =>
    obtain ⟨x, w⟩ := q
    simp only [spWf, Bool.and_eq_true] at hl
    obtain ⟨⟨-, habove⟩, hl⟩ := hl
    rcases List.mem_cons.mp h with rfl | hmem
    · simp [spRead]
    · have hx : x < p.1 := by simpa using List.all_eq_true.mp habove p hmem
      simp only [spRead, if_neg (Nat.ne_of_gt hx), ih hl hmem]

end

/-- IRQ_PEND resets to 0 on every page (R45). -/
theorem resetWord_pend (p : Nat) : resetWord (p * 4096 + 0x018) = 0 := by
  cases hp : findPage p with
  | none =>
    have hdiv : (p * 4096 + 0x018) / 4096 = p := by omega
    simp only [resetWord, hdiv, hp]
  | some sp => rw [resetWord_header hp (by decide)]; rfl

theorem getBits_one_bit (w : W32) (b : Nat) : getBits w b 1 = (w.toNat.testBit b).toNat := by
  rw [getBits, pow_one, Nat.toNat_testBit, Nat.shiftRight_eq_div_pow]

/-- A one-bit field is set where its bit of the word is. -/
theorem State.on_one_bit (s : State) (a b : Nat) : s.on ⟨a, b, 1⟩ = (s.reg a).toNat.testBit b := by
  rw [State.on, State.get, getBits_one_bit]
  cases (s.reg a).toNat.testBit b <;> rfl

/-- A listed register gives a condition where it is an IRQ_PEND with a bit set together with its bit of IRQ_EN (R75). -/
theorem State.pendConds_ne_nil (s : State) (p : Nat × W32) :
    s.pendConds p ≠ [] ↔
      p.1 % 4096 = 0x18 ∧ ∃ b < 32, p.2.toNat.testBit b = true ∧ s.on (bitFld (p.1 - 4) b) = true := by
  unfold State.pendConds bitFld
  split
  · next hoff =>
    simp only [ne_eq, List.filterMap_eq_nil_iff, List.mem_range, State.on_one_bit, BitVec.toNat_and, Nat.testBit_and, hoff, true_and]
    simp
  · simp_all

/-- Some page has an IRQ_PEND bit set together with its IRQ_EN bit. -/
def State.pageCond (s : State) : Prop :=
  ∃ p b, b < 32 ∧ s.get (hdrPend p b) = 1 ∧ s.on (bitFld (p * 4096 + 0x014) b) = true

theorem State.get_pend_eq_one (s : State) (p b : Nat) :
    s.get (hdrPend p b) = 1 ↔ (s.reg (p * 4096 + 0x018)).toNat.testBit b = true := by
  rw [State.get, hdrPend, getBits_one_bit]
  exact Bool.toNat_eq_one

/-- In a canonical register bank, some listed register gives a condition exactly where a page has one. -/
theorem State.pageCond_iff (s : State) (hw : spWf resetWord s.regs = true) : (∃ q ∈ s.regs, s.pendConds q ≠ []) ↔ s.pageCond := by
  simp only [State.pendConds_ne_nil, State.pageCond, State.get_pend_eq_one]
  constructor
  · rintro ⟨q, hq, hoff, b, hb, hpend, hen⟩
    have hea : q.1 / 4096 * 4096 + 0x014 = q.1 - 4 := by omega
    have hpa : q.1 / 4096 * 4096 + 0x018 = q.1 := by
      clear hea
      omega
    refine ⟨q.1 / 4096, b, hb, ?_, by rw [hea]; exact hen⟩
    rw [hpa, State.reg, spRead_of_mem hw hq]
    exact hpend
  · rintro ⟨p, b, hb, hpend, hen⟩
    have hne : s.reg (p * 4096 + 0x018) ≠ resetWord (p * 4096 + 0x018) := by
      rw [resetWord_pend]
      intro h0
      simp [h0] at hpend
    have hoff : (p * 4096 + 0x018) % 4096 = 0x018 := by omega
    have hea : p * 4096 + 0x018 - 4 = p * 4096 + 0x014 := by omega
    exact ⟨(_, s.reg (p * 4096 + 0x018)), mem_of_spRead_ne hne, hoff, b, hb, hpend, by rw [hea]; exact hen⟩

/-- Does device-to-host ring entry `e`, holding `r`, ask for the host (R75, R77)? -/
def State.ringAsks (s : State) (e : Nat) (r : Ring) : Prop :=
  s.h2d e = false ∧ s.on (bitFld64 A.HLK_RING_IRQ_EN_LO (if e = 64 then 35 else e)) = true ∧ r.frames ≠ []
  ∧ (max 1 (s.get (F.HLKR_RING_IRQ_THRESH e)) ≤ r.frames.length ∨ r.aged = true)

theorem State.ringConds_ne_nil (s : State) (p : Nat × Ring) : s.ringConds p ≠ [] ↔ s.ringAsks p.1 p.2 := by
  have hth (n : Nat) : (if n = 0 then 1 else n) = max 1 n := by split <;> omega
  unfold State.ringConds State.ringAsks
  simp only [hth]
  generalize s.on (bitFld64 A.HLK_RING_IRQ_EN_LO (if p.1 = 64 then 35 else p.1)) = en
  cases s.h2d p.1 <;> cases en <;> cases p.2.aged <;> simp

/-- In a canonical list of rings, some listed ring gives a condition exactly where a ring asks. -/
theorem State.ringAsks_iff (s : State) (hw : spWf (fun _ => ({} : Ring)) s.rings = true) :
    (∃ q ∈ s.rings, s.ringConds q ≠ []) ↔ ∃ e, s.ringAsks e (s.ring e) := by
  simp only [State.ringConds_ne_nil]
  constructor
  · rintro ⟨q, hq, hasks⟩
    exact ⟨q.1, by rw [State.ring, spRead_of_mem hw hq]; exact hasks⟩
  · rintro ⟨e, hasks⟩
    have hne : s.ring e ≠ {} := fun h0 => hasks.2.2.1 (by rw [h0])
    exact ⟨_, mem_of_spRead_ne hne, hasks⟩

/-- Settles O4: a condition comes from a listed register or a listed ring, and a canonical list lists what is not as after reset. -/
theorem interruptConditions : Obligations.InterruptConditions := by
  unfold Obligations.InterruptConditions
  refine ⟨fun s hdown => by simp [State.conds, hdown], fun s hwf hup => ?_⟩
  simp only [State.wf, Bool.and_eq_true] at hwf
  obtain ⟨⟨⟨hregs, hrings⟩, -⟩, -⟩ := hwf
  have hconds : s.conds ≠ [] ↔ (∃ q ∈ s.regs, s.pendConds q ≠ []) ∨ ∃ q ∈ s.rings, s.ringConds q ≠ [] := by
    simp only [State.conds, hup, if_true, ne_eq, List.append_eq_nil_iff, List.flatMap_eq_nil_iff, not_and_or, not_forall,
      exists_prop]
  rw [hconds, State.pageCond_iff s hregs, State.ringAsks_iff s hrings]
  rfl

end Sys2Proof.Machine

/-! The SEQ of a pushed frame (O11). -/
namespace Sys2Proof.Machine

/-- A check that does not fail passes on to the next. -/
@[simp] theorem firstErr_false (c : Nat) (l : List (Bool × Nat)) : firstErr ((false, c) :: l) = firstErr l := rfl

/-- The first check that fails gives its code. -/
@[simp] theorem firstErr_true (c : Nat) (l : List (Bool × Nat)) : firstErr ((true, c) :: l) = some c := rfl

/-- Settles O11: every check ahead of SEQ passes, and 1 to 32,767 and 32,768 to 65,535 exclude each other. -/
theorem pushSequence : Obligations.PushSequence := by
  unfold Obligations.PushSequence
  intro s n bytes htenon hpush hnot hmin hfour hslot hcrc hring hver hepoch hnext d
  have htr : (n == 0 && fieldLe bytes 3 1 == 0xF0) = false := by simpa using hnot
  have hlen : ¬ fieldLe bytes 0 2 < 20 ∧ ¬ s.slotSize n < fieldLe bytes 0 2 := by omega
  simp only [State.pushCheck, htenon, hpush, htr, hfour, hlen, hcrc, hring, hver, hepoch, Bool.not_true, ne_eq, not_true,
    decide_false, Bool.or_false, bne_self_eq_false, Bool.and_false, Bool.not_false, Bool.true_and, Bool.false_eq_true, if_false,
    Bool.false_and, firstErr_false]
  show firstErr [(decide (1 ≤ d) && decide (d < 32768), 0x14), (decide (32768 ≤ d), 0x13), _] = _
  by_cases hzero : d = 0
  · by_cases hfull : s.slots n ≤ (s.ring n).frames.length <;> simp [hzero, hfull, firstErr]
  · have hpos : 1 ≤ d := Nat.one_le_iff_ne_zero.mpr hzero
    by_cases hahead : d < 32768
    · simp [hzero, hpos, hahead]
    · simp [hzero, hahead, Nat.not_lt.mp hahead]

end Sys2Proof.Machine

/-! SUMMARY, READ and WRITE (O9): the served link, words of system SRAM in little-endian bytes, and transfers word by word. -/
namespace Sys2Proof.Machine

-- The served link and its answers (R55, R57)

/-- A served transaction has its effect. -/
theorem State.onLink_served (s : State) (f : State → State) (h : s.served) : s.onLink f = done (f s) := by
  obtain ⟨hsilent, hdown, hup, hawake⟩ := h
  simp [State.onLink, hsilent, hdown, hup, hawake]

@[simp] theorem State.answer_resp (s : State) (bs : List Byte) : (s.answer bs).resp = 0xA5 :: bs ++ s.linkCrc bs := rfl
@[simp] theorem State.answer_ring (s : State) (bs : List Byte) (e : Nat) : (s.answer bs).ring e = s.ring e := rfl
@[simp] theorem State.answer_get (s : State) (bs : List Byte) (f : Fld) : (s.answer bs).get f = s.get f := rfl
@[simp] theorem State.answer_sramByte (s : State) (bs : List Byte) (a : Nat) : (s.answer bs).sramByte a = s.sramByte a := rfl

section
variable {s t : State} {R : Nat → Prop} {E : List Nat} {P : List Part}

/-- A state that differs from `t` in what the link drives only. -/
theorem Keeps.withResp (h : Keeps s t R E P) (bs : List Byte) (hp : Part.resp ∈ P) : Keeps s { t with resp := bs } R E P :=
  h.fields fun p hp' => by cases p <;> simp_all [Part.same, State.sramByte]

theorem Keeps.answer (h : Keeps s t R E P) (bs : List Byte) (hp : Part.resp ∈ P) : Keeps s (t.answer bs) R E P := h.withResp _ hp

theorem Keeps.sramPut (h : Keeps s t R E P) (a : Nat) (bs : List Byte) (hp : Part.sram ∈ P) : Keeps s (t.sramPut a bs) R E P :=
  h.fields fun p hp' => by cases p <;> simp_all [Part.same]

end

/-- The CRC that the host sends over `bs`, read as a number, passes. -/
theorem State.crcOk_self (s : State) (bs : List Byte) : s.crcOk bs (ofLe (s.linkCrc bs)) = true := by simp [State.crcOk]

/-- A transaction whose CRC holds, after the tenon exchange where it needs one, is judged by its own checks alone. -/
@[simp] theorem transCheck_true (own : Option Nat) : transCheck true true own = own := by cases own <;> rfl

-- Little-endian words (R14)

theorem ofLe_lt (bs : List Byte) : ofLe bs < 256 ^ bs.length := by
  induction bs with
  | nil => simp [ofLe]
  | cons b bs ih =>
    have hb : b.toNat < 256 := b.isLt
    rw [ofLe, List.length_cons, pow_succ]
    omega

/-- The bytes of the number that bytes spell are those bytes. -/
theorem le_ofLe (bs : List Byte) : le bs.length (ofLe bs) = bs := by
  induction bs with
  | nil => rfl
  | cons b bs ih =>
    have hb : b.toNat < 256 := b.isLt
    have hdiv : (b.toNat + 256 * ofLe bs) / 256 = ofLe bs := by omega
    have hmod : BitVec.ofNat 8 (b.toNat + 256 * ofLe bs) = b := by
      apply BitVec.eq_of_toNat_eq
      rw [BitVec.toNat_ofNat]
      omega
    rw [List.length_cons, le, ofLe, hdiv, hmod, ih]

theorem le_toNat_wordN_ofLe {bs : List Byte} (h : bs.length = 4) : le 4 (wordN (ofLe bs)).toNat = bs := by
  have hlt : ofLe bs < 2 ^ 32 := by simpa [h] using ofLe_lt bs
  rw [wordN, BitVec.toNat_ofNat, Nat.mod_eq_of_lt hlt, ← h, le_ofLe]

-- Words of system SRAM (R39)

theorem toNat_sramAddr {o : Nat} (h : o < 0x100000) : (BitVec.ofNat 32 (0x20000000 + o)).toNat = 0x20000000 + o := by
  rw [BitVec.toNat_ofNat]
  omega

theorem placeOf_sram {o : Nat} (h : o < 0x100000) : placeOf (0x20000000 + o) = .sram o := by
  have hlt : 0x20000000 + o < 0x20100000 := by omega
  simp [placeOf, hlt]

/-- A transfer of up to 256 aligned words inside system SRAM passes its checks (R58). -/
theorem transferCheck_sram {o n : Nat} (h4 : o % 4 = 0) (h1 : 1 ≤ n) (h256 : n ≤ 256) (hend : o + 4 * n ≤ 0x100000) :
    transferCheck (0x20000000 + o) n = none := by
  have halign : (0x20000000 + o) % 4 = 0 := by omega
  have hcount : ¬ (n = 0 ∨ 256 < n) := by omega
  have hcross : ¬ 0x100000 < o + 4 * n := by omega
  simp [transferCheck, crosses, placeOf_sram (o := o) (by omega), halign, hcount, hcross]

@[simp] theorem State.memBytes_length (s : State) (o n : Nat) : (s.memBytes o n).length = n := by simp [State.memBytes]

theorem State.memBytes_add (s : State) (o m n : Nat) : s.memBytes o (m + n) = s.memBytes o m ++ s.memBytes (o + m) n := by
  simp [State.memBytes, List.range_add, Nat.add_assoc]

/-- Words read in system SRAM above the rings change nothing and answer its bytes. -/
theorem State.readWords_sram (s : State) (n : Nat) : ∀ o, 0x40000 ≤ o → o + 4 * n ≤ 0x100000 →
    ∃ ws, s.readWords .host (0x20000000 + o) n = (s, ws) ∧ (ws.flatMap fun w => le 4 w.toNat) = s.memBytes o (4 * n) := by
  induction n with
  | zero => exact fun o _ _ => ⟨[], rfl, rfl⟩
  | succ n ih =>
    intro o hlo hhi
    obtain ⟨ws, hread, hbytes⟩ := ih (o + 4) (by omega) (by omega)
    have hword : s.busRead .host (0x20000000 + o) = (s, wordN (ofLe (s.memBytes o 4))) := by
      have hnot : ¬ o < 0x40000 := by omega
      simp only [State.busRead, placeOf_sram (o := o) (by omega), if_neg hnot]
    refine ⟨wordN (ofLe (s.memBytes o 4)) :: ws, ?_, ?_⟩
    · simp only [State.readWords, hword]
      rw [show 0x20000000 + o + 4 = 0x20000000 + (o + 4) by omega, hread]
    · rw [List.flatMap_cons, le_toNat_wordN_ofLe (s.memBytes_length o 4), hbytes, show 4 * (n + 1) = 4 + 4 * n by omega,
        State.memBytes_add]

/-- Consecutive contents written in two parts. -/
theorem spWrites_append {β : Type} [DecidableEq β] (d : Nat → β) (vs us : List β) : ∀ (l : List (Nat × β)) (a : Nat),
    spWrites d l a (vs ++ us) = spWrites d (spWrites d l a vs) (a + vs.length) us := by
  induction vs with
  | nil => exact fun _ _ => rfl
  | cons v vs ih =>
    intro l a
    simp only [List.cons_append, spWrites, ih, List.length_cons]
    rw [show a + 1 + vs.length = a + (vs.length + 1) by omega]

theorem State.sramPut_sramPut (s : State) (a : Nat) (bs cs : List Byte) :
    (s.sramPut a bs).sramPut (a + bs.length) cs = s.sramPut a (bs ++ cs) := by
  simp only [State.sramPut, spWrites_append]

/-- The bytes of system SRAM after a write: those written, and elsewhere those before. -/
theorem State.sramPut_sramByte (s : State) (o : Nat) (bs : List Byte) (a : Nat) :
    (s.sramPut o bs).sramByte a = if o ≤ a ∧ a < o + bs.length then bs.getD (a - o) 0 else s.sramByte a := by
  simp only [State.sramByte, State.sramPut, spRead_spWrites]
  by_cases hin : o ≤ a ∧ a < o + bs.length
  · have hlt : a - o < bs.length := by omega
    rw [dif_pos ⟨hin.1, hlt⟩, if_pos hin, List.getD_eq_getElem _ _ hlt]
  · rw [dif_neg (by omega), if_neg hin]

/-- Words written to system SRAM that the host may write are stored whole. -/
theorem State.writeWords_sram (ws : List W32) : ∀ (s : State) (o : Nat), o + 4 * ws.length ≤ 0x100000 →
    (∀ i, i < 4 * ws.length → s.sramOwned (o + i) = false) →
    s.writeWords .host (0x20000000 + o) ws = (s.sramPut o (ws.flatMap fun w => le 4 w.toNat), none, ws.length) := by
  induction ws with
  | nil => exact fun s o _ _ => rfl
  | cons w ws ih =>
    intro s o hend hfree
    rw [List.length_cons] at hend hfree
    have hword : s.busWrite .host (0x20000000 + o) w = (s.sramPut o (le 4 w.toNat), none, true) := by
      have hnone : ((List.range (le 4 w.toNat).length).any fun i => s.sramOwned (o + i)) = false := by
        rw [List.any_eq_false, le_length]
        intro i hi
        simp [hfree i (by have := List.mem_range.mp hi; omega)]
      simp only [State.busWrite, placeOf_sram (o := o) (by omega), State.sramWrite, hnone, Bool.false_eq_true, if_false]
    have hrest := ih (s.sramPut o (le 4 w.toNat)) (o + 4) (by omega) fun i hi => by
      have hkeep := hfree (4 + i) (by omega)
      rwa [← Nat.add_assoc] at hkeep
    have hput := s.sramPut_sramPut o (le 4 w.toNat) (ws.flatMap fun w => le 4 w.toNat)
    rw [le_length] at hput
    simp only [State.writeWords, hword, List.flatMap_cons]
    rw [show 0x20000000 + o + 4 = 0x20000000 + (o + 4) by omega, hrest, hput]
    rfl

-- The three transactions (R58, R60)

/-- The flag byte of SUMMARY: a condition, the tenon exchange and bench mode, one bit each. -/
theorem testBit_summaryFlags (c d b : Bool) :
    (c.toNat + 2 * d.toNat + 4 * b.toNat).testBit 0 = c ∧ (c.toNat + 2 * d.toNat + 4 * b.toNat).testBit 1 = d
      ∧ (c.toNat + 2 * d.toNat + 4 * b.toNat).testBit 2 = b := by
  revert c d b
  decide

theorem exec_summary (s : State) (h : s.served) :
    Ends (exec .summary s) fun t =>
      (∃ flags : Nat, (flags.testBit 0 = true ↔ s.conds ≠ []) ∧ flags.testBit 1 = s.on F.HLK_LINK_TENON_DONE ∧ flags.testBit 2 = s.boot.bench ∧
        ∃ body, body = le 8 s.readyMask ++ le 8 s.fullMask ++ le 4 s.epoch ++ le 1 (s.get F.HLK_LINK_VER) ++ le 1 flags ∧
          t.resp = 0xA5 :: body ++ le 2 (crc16 body))
      ∧ Keeps s t (among []) [] [.resp] := by
  obtain ⟨h0, h1, h2⟩ := testBit_summaryFlags (s.conds != []) (s.on F.HLK_LINK_TENON_DONE) s.boot.bench
  have hexec : exec .summary s = done { s with resp := 0xA5 :: s.summaryBody ++ le 2 (crc16 s.summaryBody) } := by
    show execSummary s = _
    exact s.onLink_served _ h
  exact ⟨_, hexec, ⟨_, by simp [h0], h1, h2, s.summaryBody, rfl, rfl⟩,
    ((Keeps.refl s _ _ _).withResp _ (by decide)).settle⟩

theorem exec_read_sram (s : State) (o n : Nat) (h : s.served) (hlo : 0x40000 ≤ o) (h4 : o % 4 = 0) (h1 : 1 ≤ n) (h256 : n ≤ 256)
    (hend : o + 4 * n ≤ 0x100000) :
    let addr : W32 := BitVec.ofNat 32 (0x20000000 + o)
    Ends (exec (.read addr n (ofLe (s.linkCrc (0x3C :: le 4 addr.toNat ++ le 2 n)))) s) fun t =>
      t.resp = 0xA5 :: (le 2 0 ++ s.memBytes o (4 * n)) ++ s.linkCrc (le 2 0 ++ s.memBytes o (4 * n)) ∧ Keeps s t (among []) [] [.resp] := by
  intro addr
  have haddr : addr.toNat = 0x20000000 + o := toNat_sramAddr (by omega)
  obtain ⟨ws, hread, hbytes⟩ := s.readWords_sram n o hlo hend
  have hexec : exec (.read addr n (ofLe (s.linkCrc (0x3C :: le 4 addr.toNat ++ le 2 n)))) s
      = done (s.answer (le 2 0 ++ s.memBytes o (4 * n))) := by
    show execRead _ _ _ s = _
    rw [execRead, State.onLink_served s _ h]
    simp only [State.crcOk_self, transCheck_true, haddr, transferCheck_sram h4 h1 h256 hend, hread, hbytes]
  exact ⟨_, hexec, rfl, ((Keeps.refl s _ _ _).answer _ (by decide)).settle⟩

theorem exec_write_sram (s : State) (o : Nat) (ws : List W32) (h : s.served) (htenon : s.on F.HLK_LINK_TENON_DONE = true)
    (h4 : o % 4 = 0) (h1 : 1 ≤ ws.length) (h256 : ws.length ≤ 256) (hend : o + 4 * ws.length ≤ 0x100000)
    (hfree : ∀ i, i < 4 * ws.length → s.sramOwned (o + i) = false) :
    let addr : W32 := BitVec.ofNat 32 (0x20000000 + o)
    let data := ws.flatMap fun w => le 4 w.toNat
    Ends (exec (.write addr ws.length ws (ofLe (s.linkCrc (0x3D :: le 4 addr.toNat ++ le 2 ws.length ++ data)))) s) fun t =>
      t.resp = 0xA5 :: (le 2 0 ++ le 2 ws.length) ++ s.linkCrc (le 2 0 ++ le 2 ws.length)
      ∧ (∀ a, t.sramByte a = if o ≤ a ∧ a < o + 4 * ws.length then data.getD (a - o) 0 else s.sramByte a)
      ∧ Keeps s t (among []) [] [.resp, .sram] := by
  intro addr data
  have haddr : addr.toNat = 0x20000000 + o := toNat_sramAddr (by omega)
  have hlen : data.length = 4 * ws.length := by simp [data, List.length_flatMap, Nat.mul_comm]
  have hexec : exec (.write addr ws.length ws (ofLe (s.linkCrc (0x3D :: le 4 addr.toNat ++ le 2 ws.length ++ data)))) s
      = done ((s.sramPut o data).answer (le 2 0 ++ le 2 ws.length)) := by
    show execWrite _ _ _ _ s = _
    rw [execWrite, State.onLink_served s _ h]
    simp only [data, State.crcOk_self, htenon, transCheck_true, haddr, transferCheck_sram h4 h1 h256 hend, List.take_length,
      State.writeWords_sram ws s o hend hfree, Option.getD_none]
  refine ⟨_, hexec, rfl, fun a => ?_, (((Keeps.refl s _ _ _).sramPut _ _ (by decide)).answer _ (by decide)).settle⟩
  rw [State.settle_sramByte, State.answer_sramByte, State.sramPut_sramByte, hlen]

/-- Settles O9, clause by clause. -/
theorem summaryReadWrite : Obligations.SummaryReadWrite :=
  ⟨exec_summary, exec_read_sram, exec_write_sram⟩

end Sys2Proof.Machine

/-! PUSH and PULL (O10): frames of known TYPE, a refused push, and the frames an acknowledgement frees. -/
namespace Sys2Proof.Machine

-- An accepted PUSH (R64 to R66)

/-- While every frame held is a command of its ring, none is refused for its TYPE. -/
theorem State.refuseUnknown_of_known (s : State) (h : ∀ e f, f ∈ (s.ring e).frames → knownType e f.typ = true) : s.refuseUnknown = s := by
  have hhead (n : Nat) : s.refuseHead n = s := by
    unfold State.refuseHead
    split
    · rfl
    · next f hf => rw [if_pos (h n f (List.mem_of_mem_head? hf))]
  exact List.foldl_fixed' (fun n => List.foldl_fixed' (fun _ => hhead n) _) _

theorem Keeps.pushAccept {s t : State} {R : Nat → Prop} {E : List Nat} {P : List Part} (h : Keeps s t R E P) (n : Nat) (b : List Byte)
    (he : n ∈ E) : Keeps s (t.pushAccept n b) R E P := h.setRing _ _ he

/-- The frame that a push adds, last on its ring. -/
theorem State.pushAccept_ring (s : State) (n : Nat) (b : List Byte) :
    ∃ f : Frame, f.typ = fieldLe b 3 1 ∧ f.seq = fieldLe b 4 2 ∧ f.payload = (b.take (fieldLe b 0 2 - 4)).drop 16
      ∧ ((s.pushAccept n b).ring n).frames = (s.ring n).frames ++ [f]
      ∧ ((s.pushAccept n b).ring n).next = (if n = 0 ∧ fieldLe b 3 1 = 0xF0 then (s.ring n).next else ((s.ring n).next + 1) % 65536) := by
  refine ⟨_, rfl, rfl, rfl, by rw [State.pushAccept, State.setRing_ring_same], ?_⟩
  simp only [State.pushAccept, State.setRing_ring_same, Bool.and_eq_true, decide_eq_true_eq, beq_iff_eq]

theorem State.pushAccept_known (s : State) (n : Nat) (b : List Byte) (h : ∀ e f, f ∈ (s.ring e).frames → knownType e f.typ = true)
    (hnew : knownType n (fieldLe b 3 1) = true) : ∀ e f, f ∈ ((s.pushAccept n b).ring e).frames → knownType e f.typ = true := by
  intro e f hf
  by_cases hen : e = n
  · subst hen
    obtain ⟨g, htyp, -, -, hframes, -⟩ := s.pushAccept_ring e b
    rw [hframes, List.mem_append, List.mem_singleton] at hf
    rcases hf with hold | rfl
    · exact h e f hold
    · rwa [htyp]
  · rw [State.pushAccept, State.setRing_ring_other _ _ _ _ hen] at hf
    exact h e f hf

theorem exec_push_accepted (s : State) (ring : Byte) (bytes : List Byte) (h : s.served)
    (hknown : ∀ e f, f ∈ (s.ring e).frames → knownType e f.typ = true) (hnew : knownType ring.toNat (fieldLe bytes 3 1) = true)
    (hlen : consumed (fieldLe bytes 0 2) ≤ bytes.length) (hpass : s.pushCheck ring.toNat bytes = none) :
    Ends (exec (.push ring bytes) s) fun t =>
      t.resp = 0xA5 :: (le 2 0 ++ le 2 (fieldLe bytes 4 2)) ++ s.linkCrc (le 2 0 ++ le 2 (fieldLe bytes 4 2))
      ∧ (∃ f : Frame, (t.ring ring.toNat).frames = (s.ring ring.toNat).frames ++ [f] ∧ f.typ = fieldLe bytes 3 1 ∧ f.seq = fieldLe bytes 4 2
          ∧ f.payload = (bytes.take (fieldLe bytes 0 2 - 4)).drop 16)
      ∧ (t.ring ring.toNat).next =
          (if ring = 0 ∧ fieldLe bytes 3 1 = 0xF0 then (s.ring ring.toNat).next else ((s.ring ring.toNat).next + 1) % 65536)
      ∧ Keeps s t (among []) [ring.toNat] [.resp] := by
  have hzero : ring = 0 ↔ ring.toNat = 0 := BitVec.toNat_eq
  let u := s.answer (le 2 0 ++ le 2 (fieldLe bytes 4 2))
  have hexec : exec (.push ring bytes) s = done (u.pushAccept ring.toNat bytes) := by
    show execPush ring bytes s = _
    rw [execPush, State.onLink_served s _ h]
    simp only [Nat.not_lt.mpr hlen, if_false, hpass]
    rw [State.refuseUnknown_of_known _ (State.pushAccept_known u _ _ hknown hnew)]
  obtain ⟨f, htyp, hseq, hpay, hframes, hnext⟩ := u.pushAccept_ring ring.toNat bytes
  refine ⟨_, hexec, rfl, ⟨f, hframes, htyp, hseq, hpay⟩, ?_,
    (((Keeps.refl s _ _ _).answer _ (by decide)).pushAccept _ _ (by simp)).settle⟩
  simp only [hzero]
  exact hnext

-- A refused PUSH (R63)

/-- The protocol version is that of a state whose HLK.LINK reads the same. -/
theorem State.linkCrc_congr {s t : State} (h : t.get F.HLK_LINK_VER = s.get F.HLK_LINK_VER) (bs : List Byte) : t.linkCrc bs = s.linkCrc bs := by
  have hver : t.ver = s.ver := by rw [State.ver, h, State.ver]
  rw [State.linkCrc, hver, State.linkCrc]

/-- The registers a refused push touches: LAST_REJ, LAST_REJ_INFO, the count of CRC failures, the error record, and REJECT and STALE. -/
abbrev rejectRegs (a : Nat) : Prop :=
  among [F.HLK_LAST_REJ_CODE.addr, F.HLK_LAST_REJ_INFO_RING.addr, F.HLK_CRC_ERRS.addr] a ∨ errRegs 4 a ∨ irqRegs 4 2 a ∨ irqRegs 4 4 a

/-- LAST_REJ and LAST_REJ_INFO of a refused push. -/
def State.noteReject (s : State) (n c : Nat) (b : List Byte) : State :=
  ((((s.put F.HLK_LAST_REJ_CODE c).put F.HLK_LAST_REJ_SEQ (if decide (16 ≤ b.length) then fieldLe b 4 2 else 0xFFFF)).put
    F.HLK_LAST_REJ_INFO_RING n).put F.HLK_LAST_REJ_INFO_SEQ_VALID (decide (16 ≤ b.length)).toNat).incSat F.HLK_LAST_REJ_INFO_COUNT

/-- A refused push is noted, recorded as an error, and raises REJECT, and STALE where its EPOCH is another. -/
theorem State.pushReject_eq (s : State) (n c : Nat) (b : List Byte) :
    s.pushReject n c b = if c = 0x15 then (((s.noteReject n c b).linkErr c).irq 4 2).irq 4 4 else ((s.noteReject n c b).linkErr c).irq 4 2 := rfl

theorem State.noteReject_code (s : State) (n c : Nat) (b : List Byte) : (s.noteReject n c b).get F.HLK_LAST_REJ_CODE = c % 65536 := by
  rw [State.noteReject, State.incSat_get_apart _ _ _ (by decide) (by decide), State.put_get_other _ _ _ _ (by decide),
    State.put_get_other _ _ _ _ (by decide), State.put_get_apart _ _ _ _ (by decide) (by decide), State.put_get_same _ _ _ (by decide)]
  rfl

theorem State.linkErr_code (s : State) (c : Nat) : (s.linkErr c).get (hdrErrcode 4) = c % 65536 := State.err_code _ _ _

section
variable {s t : State} {R : Nat → Prop} {E : List Nat} {P : List Part}

theorem Keeps.linkErr (h : Keeps s t R E P) (c : Nat) (h0 : R F.HLK_CRC_ERRS.addr) (h1 : R 0x401C) (h2 : R 0x4020) :
    Keeps s (t.linkErr c) R E P :=
  Keeps.err (Keeps.ite (h.incSat _ h0) h) 4 c h1 h2

theorem Keeps.noteReject (h : Keeps s t R E P) (n c : Nat) (b : List Byte) (h1 : R F.HLK_LAST_REJ_CODE.addr)
    (h2 : R F.HLK_LAST_REJ_INFO_RING.addr) : Keeps s (t.noteReject n c b) R E P := by
  unfold State.noteReject
  have hrej := (h.put F.HLK_LAST_REJ_CODE c h1).put F.HLK_LAST_REJ_SEQ (if decide (16 ≤ b.length) then fieldLe b 4 2 else 0xFFFF) h1
  exact ((hrej.put F.HLK_LAST_REJ_INFO_RING n h2).put F.HLK_LAST_REJ_INFO_SEQ_VALID _ h2).incSat F.HLK_LAST_REJ_INFO_COUNT h2

theorem Keeps.pushReject (h : Keeps s t R E P) (n c : Nat) (b : List Byte) (hR : ∀ a, rejectRegs a → R a) :
    Keeps s (t.pushReject n c b) R E P := by
  have hnote : Keeps s (((t.noteReject n c b).linkErr c).irq 4 2) R E P :=
    ((h.noteReject n c b (hR _ (by decide)) (hR _ (by decide))).linkErr c (hR _ (by decide)) (hR _ (by decide)) (hR _ (by decide))).irq
      4 2 (hR _ (by decide)) (hR _ (by decide))
  rw [State.pushReject_eq]
  exact Keeps.ite (hnote.irq 4 4 (hR _ (by decide)) (hR _ (by decide))) hnote

end

/-- A field of HLK away from the interrupts reads after a refused push as when it was noted and recorded. -/
theorem State.pushReject_get (s : State) (n c : Nat) (b : List Byte) (f : Fld) (h0 : f.addr ≠ 0x4018) (h1 : f.addr ≠ 0x4040) (h2 : f.addr ≠ 0x4044) :
    (s.pushReject n c b).get f = ((s.noteReject n c b).linkErr c).get f := by
  have hirq (u : State) : (u.irq 4 2).get f = u.get f := State.irq_get_other u 4 2 f h0 h1
  rw [State.pushReject_eq]
  split
  · rw [State.irq_get_other _ 4 4 f h0 h2, hirq]
  · exact hirq _

theorem exec_push_refused (s : State) (ring : Byte) (bytes : List Byte) (c : Nat) (h : s.served)
    (hlen : consumed (fieldLe bytes 0 2) ≤ bytes.length) (hfail : s.pushCheck ring.toNat bytes = some c) :
    Ends (exec (.push ring bytes) s) fun t =>
      t.resp = 0xA5 :: (le 2 c ++ le 2 (fieldLe bytes 4 2)) ++ s.linkCrc (le 2 c ++ le 2 (fieldLe bytes 4 2))
      ∧ t.get F.HLK_LAST_REJ_CODE = c % 65536 ∧ t.get (hdrErrcode 0x04) = c % 65536 ∧ Keeps s t rejectRegs [] [.resp] := by
  let u := s.pushReject ring.toNat c bytes
  have hkeep : Keeps s u rejectRegs [] [.resp] := (Keeps.refl s _ _ _).pushReject _ _ _ fun _ h => h
  have hexec : exec (.push ring bytes) s = done (u.answer (le 2 c ++ le 2 (fieldLe bytes 4 2))) := by
    show execPush ring bytes s = _
    rw [execPush, State.onLink_served s _ h]
    simp only [Nat.not_lt.mpr hlen, if_false, hfail, u]
  refine ⟨_, hexec, ?_, ?_, ?_, (hkeep.answer _ (by decide)).settle⟩
  · have hver : u.get F.HLK_LINK_VER = s.get F.HLK_LINK_VER := by
      simp only [State.get, hkeep.regs F.HLK_LINK_VER.addr (by decide)]
    rw [State.settle_resp, State.answer_resp, State.linkCrc_congr hver]
  · rw [State.settle_get, State.answer_get, State.pushReject_get _ _ _ _ _ (by decide) (by decide) (by decide), State.linkErr,
      State.err_get_block _ _ _ _ (by decide)]
    split
    · rw [State.crcFailed, State.incSat_get_apart _ _ _ (by decide) (by decide), State.noteReject_code]
    · exact State.noteReject_code _ _ _ _
  · rw [State.settle_get, State.answer_get, State.pushReject_get _ _ _ _ _ (by decide) (by decide) (by decide), State.linkErr_code]

-- PULL (R67)

/-- The answer to a PULL of ring `n` from frames `l`. -/
def pullBody (n count : Nat) (l : List Frame) : List Byte := le 2 0 ++ (l.take count).flatMap (fun f => f.bytes n) ++ le 2 0

/-- A PULL of a device-to-host ring with a COUNT in range passes its checks, where what it acknowledges is held. -/
theorem State.pullCheck_none (s : State) (n ackSeq count e : Nat) (ack : Bool) (he : s.pullEntry n = some e) (h1 : 1 ≤ count)
    (h2 : count ≤ (if s.ver = 2 then 8 else 1)) (hack : (ack && (ackFrames (s.ring e).frames ackSeq).isNone) = false) :
    s.pullCheck n ackSeq count ack = none := by
  have hcount : (decide (count = 0) || decide ((if s.ver = 2 then 8 else 1) < count)) = false := by
    simp only [Bool.or_eq_false_iff, decide_eq_false_iff_not]
    omega
  simp only [State.pullCheck, he, hcount, hack, firstErr]
  rfl

theorem exec_pull_keep (s : State) (ring ackSeq : Byte) (count e : Nat) (h : s.served) (htenon : s.on F.HLK_LINK_TENON_DONE = true)
    (he : s.pullEntry ring.toNat = some e) (h1 : 1 ≤ count) (h2 : count ≤ (if s.ver = 2 then 8 else 1)) :
    Ends (exec (.pull ring ackSeq.toNat 0 count) s) fun t =>
      t.resp = 0xA5 :: pullBody ring.toNat count (s.ring e).frames ++ s.linkCrc (pullBody ring.toNat count (s.ring e).frames)
      ∧ Keeps s t (among []) [] [.resp] := by
  have hexec : exec (.pull ring ackSeq.toNat 0 count) s = done (s.answer (pullBody ring.toNat count (s.ring e).frames)) := by
    have hnoack : (0 : Byte).toNat.testBit 0 = false := rfl
    show execPull _ _ _ _ s = _
    rw [execPull, State.onLink_served s _ h]
    simp only [htenon, transCheck_true, hnoack, s.pullCheck_none _ _ count e false he h1 h2 rfl, he, Option.getD_some, pullBody,
      Bool.false_eq_true, if_false, if_true]
  exact ⟨_, hexec, rfl, ((Keeps.refl s _ _ _).answer _ (by decide)).settle⟩

/-- An acknowledged frame takes every frame ahead of it with it. -/
theorem ackFrames_append (held left : List Frame) (f : Frame) (ackSeq : Nat) (hheld : ∀ g ∈ held, g.seq ≠ ackSeq) (hf : f.seq = ackSeq) :
    ackFrames (held ++ f :: left) ackSeq = some left := by
  have hidx : (held ++ f :: left).findIdx? (fun g => g.seq == ackSeq) = some held.length := by
    have hnone : held.findIdx? (fun g => g.seq == ackSeq) = none := by
      rw [List.findIdx?_eq_none_iff]
      exact fun g hg => by simpa using hheld g hg
    simp [List.findIdx?_append, hnone, List.findIdx?_cons, hf]
  simp only [ackFrames, hidx]
  rw [List.append_cons, show held.length + 1 = (held ++ [f]).length by simp, List.drop_left]

theorem exec_pull_ack (s : State) (ring : Byte) (ackSeq count e : Nat) (held left : List Frame) (f : Frame) (h : s.served)
    (htenon : s.on F.HLK_LINK_TENON_DONE = true) (he : s.pullEntry ring.toNat = some e) (hlog : e ≠ 38) (h1 : 1 ≤ count)
    (h2 : count ≤ (if s.ver = 2 then 8 else 1)) (hlost : (s.ring e).lost = 0) (hframes : (s.ring e).frames = held ++ f :: left)
    (hheld : ∀ g ∈ held, g.seq ≠ ackSeq) (hf : f.seq = ackSeq) :
    Ends (exec (.pull ring ackSeq 1 count) s) fun t =>
      (t.ring e).frames = left
      ∧ t.resp = 0xA5 :: pullBody ring.toNat count left ++ s.linkCrc (pullBody ring.toNat count left)
      ∧ Keeps s t (among []) [e] [.resp] := by
  let u := s.setRing e { s.ring e with frames := left, aged := false }
  have hring : u.ring e = { s.ring e with frames := left, aged := false } := State.setRing_ring_same _ _ _
  have hack := ackFrames_append held left f ackSeq hheld hf
  have hchange : left ≠ held ++ f :: left := fun heq => by
    have hlen := congrArg List.length heq
    simp at hlen
    omega
  have hfreed : u.freedSlots e = u := by
    simp only [State.freedSlots, State.markLost_idle u e (by rw [hring]; exact hlost), if_neg hlog]
  have hexec : exec (.pull ring ackSeq 1 count) s = done (u.answer (pullBody ring.toNat count left)) := by
    have hbit : (1 : Byte).toNat.testBit 0 = true := rfl
    show execPull _ _ _ _ s = _
    rw [execPull, State.onLink_served s _ h]
    simp only [htenon, transCheck_true, hbit, s.pullCheck_none _ _ count e true he h1 h2 (by rw [hframes, hack]; rfl), he, Option.getD_some,
      if_true, hframes, hack, if_neg hchange]
    rw [hfreed, hring, pullBody]
  refine ⟨_, hexec, ?_, rfl, (((Keeps.refl s _ _ _).setRing _ _ (by simp)).answer _ (by decide)).settle⟩
  rw [State.settle_ring, State.answer_ring, hring]

/-- Settles O10, clause by clause. -/
theorem pushAndPull : Obligations.PushAndPull :=
  ⟨exec_push_accepted, exec_push_refused, exec_pull_keep, exec_pull_ack⟩

end Sys2Proof.Machine

/-! Register writes, soft resets and 64-bit halves (O7). -/
namespace Sys2Proof.Machine

section
variable {s t : State} {R : Nat → Prop} {E : List Nat} {P : List Part}

theorem Keeps.withHeld (h : Keeps s t R E P) (l : List HeldWrite) (hp : Part.held ∈ P) : Keeps s { t with held := l } R E P :=
  h.fields fun p hp' => by cases p <;> simp_all [Part.same, State.sramByte]

theorem Keeps.withReadShadow (h : Keeps s t R E P) (l : List Shadow) (hp : Part.readShadow ∈ P) :
    Keeps s { t with readShadow := l } R E P :=
  h.fields fun p hp' => by cases p <;> simp_all [Part.same, State.sramByte]

theorem Keeps.withWriteShadow (h : Keeps s t R E P) (l : List Shadow) (hp : Part.writeShadow ∈ P) :
    Keeps s { t with writeShadow := l } R E P :=
  h.fields fun p hp' => by cases p <;> simp_all [Part.same, State.sramByte]

end

-- A register write, whoever makes it

theorem exec_registerWrite (s : State) (req : Req) (priv : Bool) (a : Nat) (v : W32) (h : s.runs = true) :
    exec (.registerWrite req priv a v) s = done (s.regWrite req priv a v).1 := by
  show execRegisterWrite req priv a v s = _
  exact s.onFabric_runs _ h

/-- A write to an unmapped offset is refused with 0x0004 (R41). -/
theorem State.regWrite_unmapped (s : State) (req : Req) (priv : Bool) (a : Nat) (v : W32) (h : mapped a = false) :
    (s.regWrite req priv a v).1 = s.reqErr req 0x04 := by
  simp [State.regWrite, h]

/-- A write to a page in soft reset is held (R46). -/
theorem State.regWrite_held (s : State) (req : Req) (priv : Bool) (a : Nat) (v : W32) (h : mapped a = true)
    (hs : s.on (hdrSrst (ctrlPage (a / 4096))) = true) :
    (s.regWrite req priv a v).1 = { s with held := s.held ++ [⟨req, priv, a, v⟩] } := by
  simp [State.regWrite, h, hs]

theorem State.reqErr_of_page (s : State) {req : Req} {p : Nat} (c : Nat) (h : reqPage req = some p) : s.reqErr req c = s.err p c := by
  simp [State.reqErr, h]

/-- An error record of a page holds its code and touches nothing else (R45). -/
theorem State.err_recorded (s : State) (p c : Nat) (hc : c < 65536) :
    (s.err p c).get (hdrErrcode p) = c ∧ Keeps s (s.err p c) (errRegs p) [] [] :=
  ⟨by rw [State.err_code, Nat.mod_eq_of_lt hc], (Keeps.refl s _ _ _).err p c (.inl rfl) (.inr rfl)⟩

/-- What a requester with a page records as refused is on that page alone (R41). -/
theorem State.reqErr_recorded (s : State) {req : Req} {p : Nat} (c : Nat) (h : reqPage req = some p) (hc : c < 65536) :
    (s.reqErr req c).get (hdrErrcode p) = c ∧ Keeps s (s.reqErr req c) (errRegs p) [] [] := by
  rw [s.reqErr_of_page c h]
  exact s.err_recorded p c hc

-- A backup word of RW bits (R573)

/-- The one field of backup words 8 to 31. -/
def backupFields : List FieldSpec := [⟨31, 0, .rw, 0, .any⟩]

/-- Backup words 8 to 31: mapped, no half of a 64-bit register, one field of all 32 bits. -/
theorem findReg_backup : ∀ w < 32, 8 ≤ w →
    mapped (0x3180 + 4 * w) = true ∧ low64 (0x3180 + 4 * w) = false ∧ low64 (0x3180 + 4 * w - 4) = false ∧
      (findReg (0x3180 + 4 * w)).map (fun h => (h.reg.off, h.reg.fields)) = some (0x1A0, backupFields) := by decide

/-- A write to a register of RW bits alone stores the word as it is. -/
theorem mergeWord_backup (old v : W32) : mergeWord backupFields old v = v := by
  have hrw : (wordN (fieldBits backupFields fun f => f.acc == .rw || f.acc == .rws || f.acc == .wo)) = BitVec.allOnes 32 := by decide
  have hcl : (wordN (fieldBits backupFields fun f => f.acc == .w1c)) = 0#32 := by decide
  rw [mergeWord, hrw, hcl, BitVec.and_allOnes, BitVec.not_allOnes, BitVec.and_zero, BitVec.and_zero, BitVec.zero_or, BitVec.not_zero,
    BitVec.and_allOnes]

theorem State.regWrite_backup (s : State) (req : Req) (priv : Bool) (w : Nat) (v : W32) (hs : s.on (hdrSrst 0x03) = false)
    (h8 : 8 ≤ w) (h32 : w < 32) :
    (s.regWrite req priv (0x3180 + 4 * w) v).1 = (s.setReg (0x3180 + 4 * w) v).bumpSeq 0x03 := by
  obtain ⟨hmap, hlow, hhigh, hfind⟩ := findReg_backup w h32 h8
  obtain ⟨hit, hhit, hreg⟩ := Option.map_eq_some_iff.mp hfind
  obtain ⟨hoff, hfields⟩ := Prod.mk.inj hreg
  have hpage : (0x3180 + 4 * w) / 4096 = 0x03 := by omega
  have hofs : ¬ (0x3180 + 4 * w) % 4096 < 0x100 := by omega
  have hplain (o : Nat) (ho : ¬ o = 0x110 ∧ ¬ o = 0x120) : s.writeSpecial req (s.acts req priv) 0x03 o hit.idx v = none := by
    simp [State.writeSpecial, ho]
  have hblock : (s.writeBlock req (s.acts req priv) hit (0x3180 + 4 * w) v).1 = (s.setReg (0x3180 + 4 * w) v).bumpSeq 0x03 := by
    simp only [State.writeBlock, hpage, hoff, hfields, mergeWord_backup, hplain ((0x3180 + 4 * w) % 4096) (by omega)]
    simp [backupFields, inRange, Range.holds, State.lockedNow, State.settingBad, jigOnly, firstErr, State.afterWrite]
  have hctrl : ctrlPage 0x03 = 0x03 := rfl
  simp only [State.regWrite, hmap, hpage, hctrl, hs, hofs, hlow, hhigh, hhit, hblock, Bool.not_true, Bool.false_eq_true, if_false]

-- Soft resets (R45, R46)

@[simp] theorem ctrlPage_ctrlPage (p : Nat) : ctrlPage (ctrlPage p) = ctrlPage p := by
  unfold ctrlPage
  split <;> simp_all

/-- The header words that a soft reset clears to zero. -/
def clearedOffsets : List Nat := [0x014, 0x018, 0x01C, 0x020, 0x040, 0x044, 0x048, 0x04C, 0x050, 0x054, 0x058, 0x05C]

/-- Does software leave CTRL.ENABLE of page `p` alone? -/
def enableReadOnly (p : Nat) : Bool :=
  match findPage p with
  | some x => x.enable == .ro
  | none => true

theorem State.clearHeader_eq (s : State) (p : Nat) :
    s.clearHeader p = (clearedOffsets.foldl (fun s o => s.setReg (4096 * p + o) 0)
      (s.setReg (4096 * p + 0x008) (if enableReadOnly p = true then 1 else 0))).bumpSeq p := rfl

/-- Words cleared one after another read zero, and every other word as before. -/
theorem foldl_setReg_reg (p : Nat) (l : List Nat) : ∀ (s : State) (a : Nat),
    (l.foldl (fun s o => s.setReg (4096 * p + o) 0) s).reg a = if ∃ o ∈ l, a = 4096 * p + o then 0 else s.reg a := by
  induction l with
  | nil => intro s a; simp
  | cons x l ih =>
    intro s a
    rw [List.foldl_cons, ih, State.setReg_reg]
    by_cases hl : ∃ o ∈ l, a = 4096 * p + o <;> by_cases hx : a = 4096 * p + x <;> simp [hl, hx]

theorem State.clearHeader_reg_cleared (s : State) (p o : Nat) (h : o ∈ clearedOffsets) : (s.clearHeader p).reg (4096 * p + o) = 0 := by
  have hseq : 4096 * p + o ≠ (hdrSeq p).addr := by
    have hne : ∀ o ∈ clearedOffsets, o ≠ 0x024 := by decide
    have := hne o h
    simp only [hdrSeq]
    omega
  rw [State.clearHeader_eq, State.bumpSeq, State.inc, State.put_reg_other _ _ _ _ hseq, foldl_setReg_reg, if_pos ⟨o, h, rfl⟩]

theorem State.clearHeader_ctrl (s : State) (p : Nat) :
    (s.clearHeader p).reg (4096 * p + 0x008) = if enableReadOnly p = true then 1 else 0 := by
  have hseq : 4096 * p + 0x008 ≠ (hdrSeq p).addr := by
    simp only [hdrSeq]
    omega
  have hnot : ¬ ∃ o ∈ clearedOffsets, 4096 * p + 0x008 = 4096 * p + o := by simp [clearedOffsets]
  rw [State.clearHeader_eq, State.bumpSeq, State.inc, State.put_reg_other _ _ _ _ hseq, foldl_setReg_reg, if_neg hnot,
    State.setReg_reg_same]

/-- A soft reset counts in SEQ. -/
theorem State.clearHeader_seq (s : State) (p : Nat) : (s.clearHeader p).get (hdrSeq p) = (s.get (hdrSeq p) + 1) % 2 ^ 32 := by
  have hnot : ¬ ∃ o ∈ clearedOffsets, (hdrSeq p).addr = 4096 * p + o := by
    simp only [clearedOffsets, hdrSeq, List.mem_cons, List.not_mem_nil, or_false, exists_eq_or_imp, exists_eq_left]
    omega
  have hctrl : (hdrSeq p).addr ≠ 4096 * p + 0x008 := by
    simp only [hdrSeq]
    omega
  rw [State.clearHeader_eq, State.bumpSeq_get_seq]
  simp only [State.get, foldl_setReg_reg, if_neg hnot, State.setReg_reg_other _ _ _ _ hctrl]

theorem Keeps.clearHeader {s t : State} {R : Nat → Prop} {E : List Nat} {P : List Part} (h : Keeps s t R E P) (p : Nat)
    (hR : ∀ o < 0x100, R (4096 * p + o)) : Keeps s (t.clearHeader p) R E P := by
  have hoff : ∀ o ∈ clearedOffsets, o < 0x100 := by decide
  have hfold : ∀ (l : List Nat), (∀ o ∈ l, o < 0x100) → ∀ u, Keeps s u R E P →
      Keeps s (l.foldl (fun s o => s.setReg (4096 * p + o) 0) u) R E P := by
    intro l
    induction l with
    | nil => exact fun _ _ h => h
    | cons x l ih =>
      intro hl u hu
      exact ih (fun o ho => hl o (List.mem_cons_of_mem _ ho)) _ (hu.setReg _ _ (hR x (hl x List.mem_cons_self)))
  rw [State.clearHeader_eq]
  exact (hfold _ hoff _ (h.setReg _ _ (hR _ (by decide)))).bumpSeq p (by rw [Nat.mul_comm]; exact hR _ (by decide))

/-- A soft reset that nothing refuses (R46): the block's own reset, the header cleared, SRST set. -/
theorem exec_softReset (s : State) (page : Nat) (req : Req) (priv : Bool) (h : s.runs = true) (hmap : mapped (4096 * page + 0x008) = true)
    (hs : s.on (hdrSrst (ctrlPage page)) = false) (hgo : s.softRefuse (s.acts req priv) (ctrlPage page) = none) :
    exec (.softReset req priv page) s = done (((s.softReset (ctrlPage page)).clearHeader (ctrlPage page)).put (hdrSrst (ctrlPage page)) 1) := by
  have hpage : (4096 * page + 0x008) / 4096 = page := by omega
  have hoff : (4096 * page + 0x008) % 4096 = 0x008 := by omega
  have hbit : (2 : W32).toNat.testBit 1 = true := rfl
  show execSoftReset req priv page s = _
  rw [execSoftReset, s.onFabric_runs _ h]
  simp only [State.regWrite, hmap, hpage, hoff, hs, State.writeHead, State.writeCtrl, hbit, State.startReset, hgo, ctrlPage_ctrlPage,
    Bool.not_true, Bool.false_eq_true, Nat.reduceLT, if_false, if_true]

/-- After a soft reset SRST reads 1 and the cleared words of the header 0. -/
theorem softReset_header (u : State) (q : Nat) :
    let t := ((u.clearHeader q).put (hdrSrst q) 1).settle
    t.get (hdrSrst q) = 1 ∧ t.get (hdrErrcode q) = 0 ∧ t.get (hdrErrcount q) = 0
      ∧ t.reg (4096 * q + 0x014) = 0 ∧ t.reg (4096 * q + 0x018) = 0 ∧ ∀ m, m < 8 → t.reg (4096 * q + 0x040 + 4 * m) = 0 := by
  intro t
  have hreg (o : Nat) (ho : o ∈ clearedOffsets) : t.reg (4096 * q + o) = 0 := by
    have hne : ∀ o ∈ clearedOffsets, o ≠ 0x008 := by decide
    have hctrl : 4096 * q + o ≠ (hdrSrst q).addr := by
      have := hne o ho
      simp only [hdrSrst]
      omega
    rw [State.settle_reg, State.put_reg_other _ _ _ _ hctrl, State.clearHeader_reg_cleared _ _ _ ho]
  have hget (o lsb wid : Nat) (ho : o ∈ clearedOffsets) : t.get ⟨q * 4096 + o, lsb, wid⟩ = 0 := by
    rw [State.get, Nat.mul_comm q, hreg o ho]
    simp [getBits]
  have hevcnt : ∀ m < 8, 0x040 + 4 * m ∈ clearedOffsets := by decide
  refine ⟨?_, hget _ _ _ (by decide), hget _ _ _ (by decide), hreg _ (by decide), hreg _ (by decide), fun m hm => ?_⟩
  · exact State.put_get_same _ _ _ (by simp [hdrSrst])
  · rw [Nat.add_assoc]
    exact hreg _ (hevcnt m hm)

/-- SYS, CLK and BKP: nothing refuses a soft reset of theirs, and it acts on the header alone. -/
theorem softReset_headerOnly (s : State) (page : Nat) (hp : page = 0x00 ∨ page = 0x02 ∨ page = 0x03) :
    mapped (4096 * page + 0x008) = true ∧ ctrlPage page = page ∧ enableReadOnly page = true ∧ s.softRefuse (s.acts .host false) page = none
      ∧ s.softReset page = s := by
  rcases hp with rfl | rfl | rfl <;> exact ⟨by decide, rfl, by decide, rfl, rfl⟩

theorem exec_softReset_headerOnly (s : State) (page : Nat) (h : s.runs = true) (hp : page = 0x00 ∨ page = 0x02 ∨ page = 0x03)
    (hs : s.on (hdrSrst page) = false) :
    Ends (exec (.softReset .host false page) s) fun t =>
      t.get (hdrSeq page) = (s.get (hdrSeq page) + 1) % 2 ^ 32 ∧ t.reg (4096 * page + 0x008) = 3
      ∧ Keeps s t (fun a => a / 4096 = page ∧ a % 4096 < 0x100) [] [] := by
  obtain ⟨hmap, hctrl, hro, hgo, hself⟩ := softReset_headerOnly s page hp
  have hexec := exec_softReset s page .host false h hmap (by rw [hctrl]; exact hs) (by rw [hctrl]; exact hgo)
  rw [hctrl, hself] at hexec
  have haddr : 4096 * page + 0x008 = (hdrSrst page).addr := by
    simp only [hdrSrst]
    omega
  refine ⟨_, hexec, ?_, ?_, ?_⟩
  · rw [State.settle_get, State.put_get_other _ _ _ _ (by simp [hdrSeq, hdrSrst]), State.clearHeader_seq]
  · rw [State.settle_reg, State.put_reg, if_pos haddr, ← haddr, State.clearHeader_ctrl, if_pos hro]
    rfl
  · exact (((Keeps.refl s _ _ _).clearHeader page fun o ho => by constructor <;> omega).put (hdrSrst page) 1
      (by simp only [hdrSrst]; omega)).settle

-- The end of a soft reset (R46)

theorem exec_softResetDone (s : State) (page : Nat) (h : s.runs = true) (hs : s.on (hdrSrst (ctrlPage page)) = true) :
    exec (.softResetDone page) s = done ((s.put (hdrSrst (ctrlPage page)) 0).applyHeld (ctrlPage page)) := by
  show execSoftResetDone page s = _
  rw [execSoftResetDone, s.onFabric_runs _ h]
  simp only [hs, if_true]

/-- With no write held for a page, none is carried out and every other stays held. -/
theorem State.applyHeld_none (s : State) (p : Nat) (h : ∀ x ∈ s.held, ctrlPage (x.addr / 4096) ≠ p) : s.applyHeld p = s := by
  have hmine : (s.held.filter fun x => ctrlPage (x.addr / 4096) == p) = [] := by
    rw [List.filter_eq_nil_iff]
    exact fun x hx => by simpa using h x hx
  have hrest : (s.held.filter fun x => ctrlPage (x.addr / 4096) != p) = s.held := by
    rw [List.filter_eq_self]
    exact fun x hx => by simpa using h x hx
  simp only [State.applyHeld, hmine, hrest, List.foldl_nil]

theorem State.applyHeld_one (s : State) (p : Nat) (x : HeldWrite) (hx : s.held = [x]) (hp : ctrlPage (x.addr / 4096) = p) :
    s.applyHeld p = (({ s with held := [] } : State).regWrite x.req x.priv x.addr x.val).1 := by
  simp [State.applyHeld, hx, hp]

/-- No CTRL register holds the power state. -/
theorem State.runs_put_srst (s : State) (p v : Nat) : (s.put (hdrSrst p) v).runs = s.runs := by
  have hne : F.RST_PWR_STAT_STATE.addr ≠ (hdrSrst p).addr := by
    simp only [F.RST_PWR_STAT_STATE, hdrSrst]
    omega
  simp only [State.runs, State.mainDown, State.put_pf, State.put_boot, State.put_get_other _ _ _ _ hne]

theorem exec_softResetDone_idle (s : State) (page : Nat) (h : s.runs = true) (hs : s.on (hdrSrst (ctrlPage page)) = true)
    (hheld : ∀ x ∈ s.held, ctrlPage (x.addr / 4096) ≠ ctrlPage page) :
    Ends (exec (.softResetDone page) s) fun t =>
      t.get (hdrSrst (ctrlPage page)) = 0 ∧ Keeps s t (among [ctrlPage page * 4096 + 0x008]) [] [] := by
  have hexec := exec_softResetDone s page h hs
  rw [State.applyHeld_none (s.put (hdrSrst (ctrlPage page)) 0) _ hheld] at hexec
  exact ⟨_, hexec, State.put_get_same _ _ _ (by simp [hdrSrst]), ((Keeps.refl s _ _ _).put (hdrSrst (ctrlPage page)) 0 (by simp [hdrSrst])).settle⟩

theorem exec_softResetDone_replay (s : State) (page : Nat) (x : HeldWrite) (h : s.runs = true) (hs : s.on (hdrSrst (ctrlPage page)) = true)
    (hheld : s.held = [x]) (hp : ctrlPage (x.addr / 4096) = ctrlPage page) :
    exec (.softResetDone page) s = exec (.registerWrite x.req x.priv x.addr x.val) ({ s with held := [] }.put (hdrSrst (ctrlPage page)) 0) := by
  have hruns : ({ s with held := [] }.put (hdrSrst (ctrlPage page)) 0).runs = true := by
    rw [State.runs_put_srst]
    exact h
  rw [exec_softResetDone s page h hs, exec_registerWrite _ _ _ _ _ hruns, State.applyHeld_one (s.put (hdrSrst (ctrlPage page)) 0) _ x hheld hp]
  rfl

-- The shadows of 64-bit halves (R43)

/-- A requester's shadow replaces its former one. -/
theorem putShadow_spec (l : List Shadow) (x : Shadow) :
    x ∈ putShadow l x ∧ (∀ y, y.req ≠ x.req → (y ∈ putShadow l x ↔ y ∈ l))
      ∧ (putShadow l x).find? (fun y => y.req == x.req && y.addr == x.addr) = some x := by
  refine ⟨by simp [putShadow], fun y hy => ?_, ?_⟩
  · have hne : y ≠ x := fun he => hy (by rw [he])
    simp [putShadow, hy, hne]
  · have hnone : (l.filter fun y => y.req != x.req).find? (fun y => y.req == x.req && y.addr == x.addr) = none := by
      rw [List.find?_eq_none]
      intro y hy
      have hy' : y.req ≠ x.req := by simpa using (List.mem_filter.mp hy).2
      simp [hy']
    rw [putShadow, List.find?_append, hnone]
    simp

/-- The low half of a 64-bit register lies past the header, in MTR[k] among the accumulators, and its high half is none. -/
theorem low64_spec {a : Nat} (h : low64 a = true) :
    ¬ a % 4096 < 0x100 ∧ a % 4096 < 4092 ∧ (0x20 ≤ a / 4096 ∧ a / 4096 < 0x2C → 0x310 ≤ a % 4096 ∧ a % 4096 < 0x398)
      ∧ low64 (a + 4) = false := by
  have hbounds : ¬ a % 4096 < 0x100 ∧ a % 4096 < 4092 ∧ (0x20 ≤ a / 4096 ∧ a / 4096 < 0x2C → 0x310 ≤ a % 4096 ∧ a % 4096 < 0x398) := by
    simp only [low64] at h
    split_ifs at h <;> simp at h <;> omega
  obtain ⟨hlo, hhi, hmtr⟩ := hbounds
  have hdiv : (a + 4) / 4096 = a / 4096 := by omega
  have hmod : (a + 4) % 4096 = a % 4096 + 4 := by omega
  refine ⟨hlo, hhi, hmtr, ?_⟩
  simp only [low64, hdiv, hmod] at h ⊢
  split_ifs at h ⊢ <;> simp at h ⊢ <;> omega

/-- A read of an offset that is no QSTAT or SNAP_SEQ freezes nothing (R161, R194). -/
theorem State.regRead_unfrozen (s : State) (req : Req) (priv : Bool) (a : Nat) (ha : a ≠ A.BKP_RSRAM_DATA)
    (hmtr : 0x20 ≤ a / 4096 ∧ a / 4096 < 0x2C → a % 4096 ≠ 0x108 ∧ a % 4096 ≠ 0x400) :
    s.regRead req priv a = s.read64 req priv a := by
  have h1 : ¬ (0x20 ≤ a / 4096 ∧ a / 4096 < 0x2C ∧ a % 4096 = 0x108) := by omega
  have h2 : ¬ (0x20 ≤ a / 4096 ∧ a / 4096 < 0x2C ∧ a % 4096 = 0x400) := by omega
  simp only [State.regRead, if_neg h1, if_neg h2, if_neg ha]

theorem State.regRead_low64 (s : State) (req : Req) (priv : Bool) (a : Nat) (h : low64 a = true) :
    s.regRead req priv a =
      ({ s with readShadow := putShadow s.readShadow ⟨req, a, s.regView req priv (a + 4)⟩ }, s.regView req priv a) := by
  obtain ⟨-, -, hmtr, -⟩ := low64_spec h
  have ha : a ≠ A.BKP_RSRAM_DATA := fun he => by
    rw [he] at h
    exact absurd h (by decide)
  rw [s.regRead_unfrozen req priv a ha (by omega), State.read64, if_pos h]

/-- The high half is answered from the capture while it is of that register. -/
theorem State.regRead_high64 (s : State) (req : Req) (priv : Bool) (a : Nat) (x : Shadow) (h : low64 a = true)
    (hx : s.readShadow.find? (fun y => y.req == req && y.addr == a) = some x) : (s.regRead req priv (a + 4)).2 = x.word := by
  obtain ⟨hlo, hhi, hmtr, hnot⟩ := low64_spec h
  have ha : a + 4 ≠ A.BKP_RSRAM_DATA := fun he => by
    have he' : a = A.BKP_RSRAM_DATA - 4 := by omega
    rw [he'] at h
    exact absurd h (by decide)
  have hhigh : 4 ≤ a + 4 ∧ low64 (a + 4 - 4) = true := ⟨by omega, by rwa [Nat.add_sub_cancel]⟩
  rw [s.regRead_unfrozen req priv (a + 4) ha (by omega), State.read64, if_neg (by simp [hnot]), if_pos hhigh, Nat.add_sub_cancel, hx]

theorem exec_read64Low (s : State) (req : Req) (priv : Bool) (addr : Nat) (h : s.runs = true) (hlow : low64 addr = true) :
    Ends (exec (.read64Low req priv addr) s) fun t =>
      (∃ x ∈ t.readShadow, x = ⟨req, addr, s.regView req (s.acts req priv) (addr + 4)⟩)
      ∧ (∀ (u : State) (pr : Bool), u.readShadow = t.readShadow → (u.regRead req pr (addr + 4)).2 = s.regView req (s.acts req priv) (addr + 4))
      ∧ (∀ x, x.req ≠ req → (x ∈ t.readShadow ↔ x ∈ s.readShadow))
      ∧ Keeps s t (among []) [] [.readShadow] := by
  let x : Shadow := ⟨req, addr, s.regView req (s.acts req priv) (addr + 4)⟩
  obtain ⟨hmem, hothers, hfind⟩ := putShadow_spec s.readShadow x
  have hexec : exec (.read64Low req priv addr) s = done { s with readShadow := putShadow s.readShadow x } := by
    show execRead64Low req priv addr s = _
    rw [execRead64Low, s.onFabric_runs _ h, if_pos hlow, s.regRead_low64 _ _ _ hlow]
  refine ⟨_, hexec, ⟨x, hmem, rfl⟩, fun u pr hu => ?_, hothers, ((Keeps.refl s _ _ _).withReadShadow _ (by decide)).settle⟩
  exact u.regRead_high64 req pr addr x hlow (by rw [hu]; exact hfind)

theorem exec_write64Low (s : State) (req : Req) (addr : Nat) (v : W32) (h : s.runs = true) (hlow : low64 addr = true)
    (hmap : mapped addr = true) (hs : s.on (hdrSrst (ctrlPage (addr / 4096))) = false) :
    Ends (exec (.write64Low req addr v) s) fun t =>
      (∃ x ∈ t.writeShadow, x = ⟨req, addr, v⟩) ∧ (∀ x, x.req ≠ req → (x ∈ t.writeShadow ↔ x ∈ s.writeShadow))
      ∧ Keeps s t (among []) [] [.writeShadow] := by
  let x : Shadow := ⟨req, addr, v⟩
  obtain ⟨hmem, hothers, -⟩ := putShadow_spec s.writeShadow x
  obtain ⟨hlo, -⟩ := low64_spec hlow
  have hexec : exec (.write64Low req addr v) s = done { s with writeShadow := putShadow s.writeShadow x } := by
    show execWrite64Low req addr v s = _
    rw [execWrite64Low, s.onFabric_runs _ h, if_pos hlow]
    simp only [State.regWrite, hmap, hs, hlow, if_neg hlo, Bool.not_true, Bool.false_eq_true, if_false, if_true, x]
  exact ⟨_, hexec, ⟨x, hmem, rfl⟩, hothers, ((Keeps.refl s _ _ _).withWriteShadow _ (by decide)).settle⟩

-- TIME_NEW, the 64-bit register of BKP (R43, R573)

/-- A write of TIME_NEW's high word takes the requester's low word with it, or is refused with 0x0005 where none waits. -/
theorem exec_write64High_timeNew (s : State) (req : Req) (v : W32) (h : s.runs = true) (hs : s.on (hdrSrst 0x03) = false) :
    exec (.write64High req 0x310C v) s = done (match s.writeShadow.find? fun x => x.req == req && x.addr == 0x3108 with
      | none => s.reqErr req 0x05
      | some x => ((({ s with writeShadow := s.writeShadow.filter fun y => y.req != req } : State).setReg 0x3108 x.word).setReg 0x310C v).bumpSeq
          0x03) := by
  have hmap : mapped 0x310C = true := by decide
  have hhigh : low64 0x310C = false := by decide
  have hlow : low64 (0x310C - 4) = true := by decide
  have hctrl : s.on (hdrSrst (ctrlPage (0x310C / 4096))) = false := hs
  show execWrite64High req 0x310C v s = _
  rw [execWrite64High, s.onFabric_runs _ h, if_pos ⟨by decide, hlow⟩]
  simp only [State.regWrite, hmap, hctrl, hhigh, hlow, Bool.not_true, Bool.false_eq_true, if_false, if_true]
  cases hfind : s.writeShadow.find? fun x => x.req == req && x.addr == 0x3108 <;> simp [A.BKP_TIME_NEW_LO, A.BKP_TIME_NEW_HI]

theorem exec_write64High_paired (s : State) (req : Req) (lo v : W32) (h : s.runs = true) (hs : s.on (hdrSrst 0x03) = false)
    (hshadow : s.writeShadow = [⟨req, 0x3108, lo⟩]) :
    Ends (exec (.write64High req 0x310C v) s) fun t =>
      t.reg 0x3108 = lo ∧ t.reg 0x310C = v ∧ t.writeShadow = [] ∧ t.get (hdrSeq 0x03) = (s.get (hdrSeq 0x03) + 1) % 2 ^ 32
      ∧ Keeps s t (among [0x3108, 0x310C, 0x3024]) [] [.writeShadow] := by
  have hexec : exec (.write64High req 0x310C v) s
      = done (((({ s with writeShadow := [] } : State).setReg 0x3108 lo).setReg 0x310C v).bumpSeq 0x03) := by
    rw [exec_write64High_timeNew s req v h hs]
    simp [hshadow]
  refine ⟨_, hexec, ?_, ?_, rfl, ?_, ?_⟩
  · rw [State.settle_reg, State.bumpSeq, State.inc, State.put_reg_other _ _ _ _ (by decide), State.setReg_reg_other _ _ _ _ (by decide),
      State.setReg_reg_same]
  · rw [State.settle_reg, State.bumpSeq, State.inc, State.put_reg_other _ _ _ _ (by decide), State.setReg_reg_same]
  · rw [State.settle_get, State.bumpSeq_get_seq, State.setReg_get, if_neg (by decide), State.setReg_get, if_neg (by decide)]
    rfl
  · exact (((((Keeps.refl s _ _ _).withWriteShadow [] (by decide)).setReg 0x3108 lo (by decide)).setReg 0x310C v (by decide)).bumpSeq 0x03
      (by decide)).settle

theorem exec_write64High_unpaired (s : State) (req : Req) (p : Nat) (v : W32) (h : s.runs = true) (hs : s.on (hdrSrst 0x03) = false)
    (hp : reqPage req = some p) (hshadow : ∀ x ∈ s.writeShadow, x.req ≠ req ∨ x.addr ≠ 0x3108) :
    Ends (exec (.write64High req 0x310C v) s) fun t => t.get (hdrErrcode p) = 0x05 ∧ Keeps s t (errRegs p) [] [] := by
  have hnone : s.writeShadow.find? (fun x => x.req == req && x.addr == 0x3108) = none := by
    rw [List.find?_eq_none]
    intro x hx
    have hne := hshadow x hx
    simp only [Bool.and_eq_true, beq_iff_eq]
    tauto
  obtain ⟨hcode, hkeep⟩ := s.reqErr_recorded 0x05 hp (by decide)
  have hexec : exec (.write64High req 0x310C v) s = done (s.reqErr req 0x05) := by
    rw [exec_write64High_timeNew s req v h hs, hnone]
  exact ⟨_, hexec, hcode, hkeep.settle⟩

theorem exec_registerWrite_unmapped (s : State) (req : Req) (p : Nat) (priv : Bool) (a : Nat) (v : W32) (h : s.runs = true)
    (hmap : mapped a = false) (hp : reqPage req = some p) :
    Ends (exec (.registerWrite req priv a v) s) fun t => t.get (hdrErrcode p) = 0x04 ∧ Keeps s t (errRegs p) [] [] := by
  obtain ⟨hcode, hkeep⟩ := s.reqErr_recorded 0x04 hp (by decide)
  exact ⟨_, exec_registerWrite s req priv a v h, by rw [s.regWrite_unmapped _ _ _ _ hmap]; exact ⟨hcode, hkeep.settle⟩⟩

theorem exec_registerWrite_backup (s : State) (req : Req) (priv : Bool) (w : Nat) (v : W32) (h : s.runs = true)
    (hs : s.on (hdrSrst 0x03) = false) (h8 : 8 ≤ w) (h32 : w < 32) :
    Ends (exec (.registerWrite req priv (0x3180 + 4 * w) v) s) fun t =>
      t.reg (0x3180 + 4 * w) = v ∧ t.get (hdrSeq 0x03) = (s.get (hdrSeq 0x03) + 1) % 2 ^ 32
      ∧ Keeps s t (among [0x3180 + 4 * w, 0x3024]) [] [] := by
  have hexec := exec_registerWrite s req priv (0x3180 + 4 * w) v h
  rw [s.regWrite_backup req priv w v hs h8 h32] at hexec
  have hseq : 0x3180 + 4 * w ≠ (hdrSeq 0x03).addr := by
    simp only [hdrSeq]
    omega
  refine ⟨_, hexec, ?_, ?_, (((Keeps.refl s _ _ _).setReg _ _ (by simp)).bumpSeq 0x03 (by simp)).settle⟩
  · rw [State.settle_reg, State.bumpSeq, State.inc, State.put_reg_other _ _ _ _ hseq, State.setReg_reg_same]
  · rw [State.settle_get, State.bumpSeq_get_seq, State.setReg_get, if_neg hseq.symm]

theorem exec_registerWrite_held (s : State) (req : Req) (priv : Bool) (a : Nat) (v : W32) (h : s.runs = true) (hmap : mapped a = true)
    (hs : s.on (hdrSrst (ctrlPage (a / 4096))) = true) :
    Ends (exec (.registerWrite req priv a v) s) fun t => t.held = s.held ++ [⟨req, priv, a, v⟩] ∧ Keeps s t (among []) [] [.held] := by
  have hexec := exec_registerWrite s req priv a v h
  rw [s.regWrite_held req priv a v hmap hs] at hexec
  exact ⟨_, hexec, rfl, ((Keeps.refl s _ _ _).withHeld _ (by decide)).settle⟩

/-- Settles O7, clause by clause. -/
theorem registerWrites : Obligations.RegisterWrites :=
  ⟨⟨exec_registerWrite_unmapped, exec_registerWrite_backup, exec_registerWrite_held,
      fun s page req priv h hmap hs hgo => ⟨_, exec_softReset s page req priv h hmap hs hgo, softReset_header _ _⟩,
      exec_softReset_headerOnly, exec_softResetDone_idle, exec_softResetDone_replay⟩,
    exec_read64Low, exec_write64Low, exec_write64High_paired, exec_write64High_unpaired⟩

end Sys2Proof.Machine

/-! Seal sessions and jig mode (O23). -/
namespace Sys2Proof.Machine

section
variable {s t : State} {R : Nat → Prop} {E : List Nat} {P : List Part}

/-- A field of a register that is kept reads as before. -/
theorem Keeps.get (h : Keeps s t R E P) (f : Fld) (hf : ¬ R f.addr) : t.get f = s.get f := by simp only [State.get, h.regs f.addr hf]

theorem Keeps.on (h : Keeps s t R E P) (f : Fld) (hf : ¬ R f.addr) : t.on f = s.on f := by simp only [State.on, h.get f hf]

theorem Keeps.withSl (h : Keeps s t R E P) (x : SealCore) (hp : Part.sl ∈ P) : Keeps s { t with sl := x } R E P :=
  h.fields fun p hp' => by cases p <;> simp_all [Part.same, State.sramByte]

theorem Keeps.withLegal (h : Keeps s t R E P) (x : Legal) (hp : Part.legal ∈ P) : Keeps s { t with legal := x } R E P :=
  h.fields fun p hp' => by cases p <;> simp_all [Part.same, State.sramByte]

theorem Keeps.withCal (h : Keeps s t R E P) (x : Cal) (hp : Part.cal ∈ P) : Keeps s { t with cal := x } R E P :=
  h.fields fun p hp' => by cases p <;> simp_all [Part.same, State.sramByte]

theorem Keeps.withSealEn (h : Keeps s t R E P) (x : Bool) (hp : Part.sealEn ∈ P) : Keeps s { t with sealEn := x } R E P :=
  h.fields fun p hp' => by cases p <;> simp_all [Part.same, State.sramByte]

end

/-- Queueing a frame touches no part of the state. -/
theorem State.emit_part (s : State) (e typ : Nat) (ref : Option Nat) (st : Nat) (pl : List Byte) (p : Part) :
    p.same s (s.emit e typ ref st pl) :=
  (Keeps.emit (Keeps.refl s lostRegs [e] []) e typ ref st pl (by simp) fun _ h => h).parts p (by simp)

/-- An event touches no part of the state. -/
theorem State.event_part (s : State) (p b u : Nat) (q : Part) : q.same s (s.event p b u) :=
  (Keeps.event (Keeps.refl s (fun _ => True) [2] []) p b u (by simp) (fun _ _ => trivial) trivial trivial).parts q (by simp)

/-- A field outside an event's record reads as before it. -/
theorem State.event_get (s : State) (p b u : Nat) (f : Fld) (hf : ¬ eventRegs p b f.addr) : (s.event p b u).get f = s.get f :=
  (Keeps.event (Keeps.refl s (eventRegs p b) [2] []) p b u (by simp) (fun _ h => .inr h) (.inl (.inl rfl)) (.inl (.inr rfl))).get f hf

-- The legal log (R507, R508)

/-- A log entry is the newest, and LOG_SEQ counts it. -/
theorem State.log_legal (s : State) (code outlet : Nat) (data : List Byte) :
    (s.log code outlet data).legal.log.getLast?.map LogEntry.code = some code ∧ (s.log code outlet data).legal.next = s.legal.next + 1 := by
  let e : LogEntry := ⟨s.legal.next, code, outlet, false, s.ts, s.epoch, s.legal.watermark, s.get F.MTR_COUCH_SEQ, data, s.legal.chain⟩
  let l := s.legal.log ++ [e]
  have hlegal : (s.log code outlet data).legal = { s.legal with log := l.drop (l.length - 512), next := s.legal.next + 1 } := by
    rw [State.log, State.logAt]
    refine (State.event_part _ _ _ _ .legal).trans ?_
    dsimp only
    split
    · rfl
    · exact State.emit_part _ _ _ _ _ _ .legal
  have hlen : l.length - 512 ≤ s.legal.log.length := by
    simp only [l, List.length_append, List.length_singleton]
    omega
  have hlast : (l.drop (l.length - 512)).getLast? = some e := by rw [List.drop_append_of_le_length hlen, List.getLast?_concat]
  rw [hlegal]
  exact ⟨by rw [hlast]; rfl, rfl⟩

/-- The registers that a log entry touches: event 4 of SEA, and the record of a lost marker. -/
theorem Keeps.log {s t : State} {R : Nat → Prop} {E : List Nat} {P : List Part} (h : Keeps s t R E P) (code outlet : Nat) (data : List Byte)
    (h2 : 2 ∈ E) (h38 : 38 ∈ E) (hp : Part.legal ∈ P) (hR : ∀ a, eventRegs 0x0A 4 a → R a) : Keeps s (t.log code outlet data) R E P := by
  have hlost : ∀ a, lostRegs a → R a := fun a ha => hR a (.inr ha)
  rw [State.log, State.logAt]
  refine Keeps.event ?_ _ _ _ h2 hlost (hR _ (.inl (.inl rfl))) (hR _ (.inl (.inr rfl)))
  split
  · exact h.withLegal _ hp
  · exact (h.withLegal _ hp).emit 38 _ _ _ _ h38 hlost

-- Jig mode (R230, R233, R235)

/-- The registers that the end of jig mode touches: those of CAL, and the record of a lost marker. -/
abbrev calRegs (a : Nat) : Prop := a / 4096 = 0x13 ∨ lostRegs a

section
variable {s t : State} {R : Nat → Prop} {E : List Nat} {P : List Part}

theorem Keeps.jigEnd (h : Keeps s t R E P) (op ch code used : Nat) (he : 48 ∈ E) (hp : Part.cal ∈ P)
    (hR : ∀ a, (a / 4096 = 0x13 ∧ a ≠ F.CAL_STATUS_JIG.addr) ∨ lostRegs a → R a) : Keeps s (t.jigEnd op ch code used) R E P := by
  have hpage (a : Nat) (ha : a / 4096 = 0x13 ∧ a ≠ F.CAL_STATUS_JIG.addr) : R a := hR a (.inl ha)
  have hstat := (((h.withCal { t.cal with jigOp := none } hp).put F.CAL_JIG_STAT_BUSY 0 (hpage _ (by decide))).put F.CAL_JIG_STAT_OK
    (decide (code = 0)).toNat (hpage _ (by decide))).put F.CAL_JIG_STAT_USED (min used 0xFFFF) (hpage _ (by decide))
  have herr := hstat.err 0x13 code (hpage _ (by decide)) (hpage _ (by decide))
  unfold State.jigEnd State.report
  exact ((Keeps.ite hstat herr).irq 0x13 4 (hpage _ (by decide)) (hpage _ (by decide))).emit 48 _ _ _ _ he fun a ha => hR a (.inr ha)

theorem Keeps.restorePend (h : Keeps s t R E P) (hp : Part.cal ∈ P) (hR : ∀ a, a / 4096 = 0x13 → R a) : Keeps s t.restorePend R E P := by
  unfold State.restorePend State.showDirty
  exact ((((h.withCal { t.cal with pend := t.cal.active } hp).setReg A.CAL_CFG _ (hR _ (by decide))).setReg A.CAL_LIM_GAIN _
    (hR _ (by decide))).setReg A.CAL_LIM_PHASE _ (hR _ (by decide))).put F.CAL_STATUS_PENDING_DIRTY _ (hR _ (by decide))

end

/-- A running jig operation fails as jig mode ends. -/
def State.abandonJig (s : State) : State :=
  match s.cal.jigOp with
  | some o => s.jigEnd o.op o.ch 0x30 o.gathered
  | none => s

/-- Jig mode ends by its flag, the running operation, and the pending set, restored but where a commit waits only for a boundary. -/
theorem State.leaveJig_cases (s : State) :
    s.leaveJig = (s.put F.CAL_STATUS_JIG 0).abandonJig ∨ s.leaveJig = (s.put F.CAL_STATUS_JIG 0).abandonJig.restorePend := by
  let u := (s.put F.CAL_STATUS_JIG 0).abandonJig
  have hleave : s.leaveJig = match u.cal.commit with
      | some c => if c.step = 5 then u else u.restorePend
      | none => u.restorePend := rfl
  rw [hleave]
  split
  · split
    · exact .inl rfl
    · exact .inr rfl
  · exact .inr rfl

theorem Keeps.abandonJig {s t : State} {R : Nat → Prop} {E : List Nat} {P : List Part} (h : Keeps s t R E P) (he : 48 ∈ E)
    (hp : Part.cal ∈ P) (hR : ∀ a, (a / 4096 = 0x13 ∧ a ≠ F.CAL_STATUS_JIG.addr) ∨ lostRegs a → R a) : Keeps s t.abandonJig R E P := by
  unfold State.abandonJig
  split
  · exact h.jigEnd _ _ _ _ he hp hR
  · exact h

theorem Keeps.leaveJig {s t : State} {R : Nat → Prop} {E : List Nat} {P : List Part} (h : Keeps s t R E P) (he : 48 ∈ E)
    (hp : Part.cal ∈ P) (hR : ∀ a, calRegs a → R a) : Keeps s t.leaveJig R E P := by
  have hu := (h.put F.CAL_STATUS_JIG 0 (hR _ (.inl rfl))).abandonJig he hp fun a ha => hR a (ha.imp_left And.left)
  rcases t.leaveJig_cases with heq | heq <;> rw [heq]
  · exact hu
  · exact hu.restorePend hp fun a ha => hR a (.inl ha)

/-- Jig mode has ended. -/
theorem State.leaveJig_off (s : State) : s.leaveJig.on F.CAL_STATUS_JIG = false := by
  let u := (s.put F.CAL_STATUS_JIG 0).abandonJig
  have hkeep : Keeps (s.put F.CAL_STATUS_JIG 0) u (fun a => (a / 4096 = 0x13 ∧ a ≠ F.CAL_STATUS_JIG.addr) ∨ lostRegs a) [48] [.cal] :=
    (Keeps.refl _ _ _ _).abandonJig (by simp) (by simp) fun _ h => h
  have hoff : u.get F.CAL_STATUS_JIG = 0 := by
    rw [hkeep.get F.CAL_STATUS_JIG (by decide), State.put_get_same _ _ _ (by decide)]
    rfl
  have hpend : u.restorePend.get F.CAL_STATUS_JIG = 0 := by
    rw [State.restorePend, State.showDirty, State.put_get_apart _ _ _ _ (by decide) (by decide), State.setReg_get, if_neg (by decide),
      State.setReg_get, if_neg (by decide), State.setReg_get, if_neg (by decide)]
    exact hoff
  rcases s.leaveJig_cases with heq | heq <;> rw [heq, State.on]
  · rw [hoff]; rfl
  · rw [hpend]; rfl

-- The session (R495 to R500)

theorem State.setSea_sea (s : State) (c : Nat) : (s.setSea c).sea = c % 256 := State.put_get_same _ _ _ (by decide)

theorem State.sea_put (s : State) (f : Fld) (v : Nat) (h : F.SEA_STAT_SESSION.addr ≠ f.addr) : (s.put f v).sea = s.sea :=
  State.put_get_other _ _ _ _ h

/-- With the session closed the privileged view is shut (R50). -/
theorem State.privOpen_of_closed (s : State) (h : s.sea = seClosed) : s.privOpen = false := by
  have hget : s.get F.SEA_STAT_SESSION = seClosed := h
  simp [State.privOpen, hget, seClosed]

theorem getBits_eq_extract (w : W32) (lsb wid : Nat) : getBits w lsb wid = (w.extractLsb' lsb wid).toNat := by
  simp [getBits, BitVec.extractLsb'_toNat]

/-- The session's end in SESS_STAT: LEFT, SLOT and ROLE clear, FAILS stays. -/
def State.endSession (s : State) : State := (s.setSea seClosed).setReg A.SEA_SESS_STAT (s.reg A.SEA_SESS_STAT &&& 0x00FF0000)

theorem State.endSession_spec (s : State) :
    s.endSession.sea = seClosed ∧ s.endSession.get F.SEA_SESS_STAT_LEFT = 0
      ∧ s.endSession.get F.SEA_SESS_STAT_FAILS = s.get F.SEA_SESS_STAT_FAILS := by
  refine ⟨?_, ?_, ?_⟩
  · rw [State.endSession, State.sea, State.setReg_get, if_neg (by decide)]
    exact s.setSea_sea _
  · rw [State.endSession, State.setReg_get, if_pos (by decide), getBits_eq_extract, BitVec.extractLsb'_and,
      show BitVec.extractLsb' F.SEA_SESS_STAT_LEFT.lsb F.SEA_SESS_STAT_LEFT.wid (0x00FF0000 : W32) = 0#_ by decide, BitVec.and_zero]
    rfl
  · rw [State.endSession, State.setReg_get, if_pos (by decide), getBits_eq_extract, BitVec.extractLsb'_and,
      show BitVec.extractLsb' F.SEA_SESS_STAT_FAILS.lsb F.SEA_SESS_STAT_FAILS.wid (0x00FF0000 : W32) = BitVec.allOnes _ by decide,
      BitVec.and_allOnes, ← getBits_eq_extract]
    rfl

theorem Keeps.endSession {s t : State} {R : Nat → Prop} {E : List Nat} {P : List Part} (h : Keeps s t R E P) (h0 : R A.SEA_STAT)
    (h1 : R A.SEA_SESS_STAT) : Keeps s t.endSession R E P :=
  (h.put F.SEA_STAT_SESSION _ h0).setReg _ _ h1

theorem State.closeSession_of_open (s : State) (h : s.sea = seOpen) : s.closeSession = s.endSession.event 0x0A 0 noUnit := by
  have hnot : decide (seOpen = seJig) = false := rfl
  simp only [State.closeSession, h, true_or, if_true, hnot, Bool.false_eq_true, if_false]
  rfl

theorem State.closeSession_of_jig (s : State) (h : s.sea = seJig) :
    s.closeSession = (s.endSession.leaveJig.log 0x0042 noOutlet [0]).event 0x0A 0 noUnit := by
  simp only [State.closeSession, h, or_true, if_true, decide_true]
  rfl

theorem State.closeSession_of_none (s : State) (h : ¬ (s.sea = seOpen ∨ s.sea = seJig)) : s.closeSession = s := if_neg h

/-- Leaving jig mode and its log entry touch CAL, the legal log and no register of the session. -/
theorem State.jigLeft_keeps (s : State) :
    Keeps s (s.leaveJig.log 0x0042 noOutlet [0]) (fun a => calRegs a ∨ eventRegs 0x0A 4 a) [2, 38, 48] [.cal, .legal] :=
  (((Keeps.refl s _ _ _).leaveJig (by simp) (by simp) fun _ h => .inl h).log 0x0042 noOutlet [0] (by simp) (by simp) (by simp)
    fun _ h => .inr h)

/-- Registers of the session page, of CAL, and of a lost marker's record take in those of an event of SEA. -/
theorem eventRegs_onPages (p b : Nat) (l : List Nat) (hb : b < 32) (hp : p ∈ l) (a : Nat) (h : eventRegs p b a) : onPages l a := by
  rcases h with (rfl | rfl) | h
  · left
    rwa [show (p * 4096 + 0x018) / 4096 = p by omega]
  · left
    rwa [show (p * 4096 + 0x040 + 4 * (b / 4)) / 4096 = p by omega]
  · exact .inr h

theorem calRegs_onPages (l : List Nat) (hp : 0x13 ∈ l) (a : Nat) (h : calRegs a) : onPages l a :=
  h.imp_left fun ha => by rwa [ha]

/-- Whatever the session, its closing touches the pages of SEA and CAL, the rings of events, the log and jig results. -/
theorem State.closeSession_keeps (s : State) : Keeps s s.closeSession (onPages [0x0A, 0x13]) [2, 38, 48] [.cal, .legal] := by
  have hend : Keeps s s.endSession (onPages [0x0A, 0x13]) [2, 38, 48] [.cal, .legal] :=
    (Keeps.refl s _ _ _).endSession (.inl (by decide)) (.inl (by decide))
  have hlast {u : State} (h : Keeps s u (onPages [0x0A, 0x13]) [2, 38, 48] [.cal, .legal]) :
      Keeps s (u.event 0x0A 0 noUnit) (onPages [0x0A, 0x13]) [2, 38, 48] [.cal, .legal] :=
    h.event _ _ _ (by simp) (fun _ ha => .inr ha) (.inl (by decide)) (.inl (by decide))
  by_cases hopen : s.sea = seOpen
  · rw [s.closeSession_of_open hopen]
    exact hlast hend
  · by_cases hjig : s.sea = seJig
    · rw [s.closeSession_of_jig hjig]
      exact hlast ((hend.leaveJig (by simp) (by simp) (calRegs_onPages _ (by simp))).log _ _ _ (by simp) (by simp) (by simp)
        (eventRegs_onPages _ _ _ (by decide) (by simp)))
    · rw [s.closeSession_of_none (by tauto)]
      exact Keeps.refl _ _ _ _

/-- An open session and jig mode end alike: closed, with no time left, FAILS as it was, and SESSION raised. -/
theorem State.closeSession_spec (s : State) (h : s.sea = seOpen ∨ s.sea = seJig) :
    s.closeSession.sea = seClosed ∧ s.closeSession.get F.SEA_SESS_STAT_LEFT = 0
      ∧ s.closeSession.get F.SEA_SESS_STAT_FAILS = s.get F.SEA_SESS_STAT_FAILS ∧ s.closeSession.get (hdrPend 0x0A 0) = 1 := by
  obtain ⟨hsea, hleft, hfails⟩ := s.endSession_spec
  have hevent (u : State) (f : Fld) (hf : 0x100 ≤ f.addr % 4096) : (u.event 0x0A 0 noUnit).get f = u.get f :=
    u.event_get_block _ _ _ f hf (by decide)
  rcases h with hopen | hjig
  · rw [s.closeSession_of_open hopen, State.sea, hevent _ _ (by decide), hevent _ _ (by decide), hevent _ _ (by decide)]
    exact ⟨hsea, hleft, hfails, State.event_pend _ _ _ _ (by decide) (by decide)⟩
  · have hkeep := s.endSession.jigLeft_keeps
    rw [s.closeSession_of_jig hjig, State.sea, hevent _ _ (by decide), hevent _ _ (by decide), hevent _ _ (by decide),
      hkeep.get F.SEA_STAT_SESSION (by decide), hkeep.get F.SEA_SESS_STAT_LEFT (by decide), hkeep.get F.SEA_SESS_STAT_FAILS (by decide)]
    exact ⟨hsea, hleft, hfails, State.event_pend _ _ _ _ (by decide) (by decide)⟩

/-- The legal log of jig mode's end: its entry is the newest, and jig mode is off. -/
theorem State.jigLeft_spec (s : State) :
    (s.leaveJig.log 0x0042 noOutlet [0]).on F.CAL_STATUS_JIG = false
      ∧ (s.leaveJig.log 0x0042 noOutlet [0]).legal.log.getLast?.map LogEntry.code = some 0x0042 := by
  have hkeep : Keeps s.leaveJig (s.leaveJig.log 0x0042 noOutlet [0]) (eventRegs 0x0A 4) [2, 38] [.legal] :=
    (Keeps.refl _ _ _ _).log _ _ _ (by simp) (by simp) (by simp) fun _ h => h
  exact ⟨by rw [hkeep.on F.CAL_STATUS_JIG (by decide), s.leaveJig_off], (State.log_legal _ _ _ _).1⟩

-- CLOSE and the session's expiry (R497, R498)

theorem exec_close (s : State) (h : s.runs = true) : exec .close s = done (s.closeSession.bumpSeq 0x0A) := by
  show execClose s = _
  exact s.onFabric_runs _ h

theorem exec_close_open (s : State) (h : s.runs = true) (hsea : s.sea = seOpen) :
    Ends (exec .close s) fun t =>
      t.sea = seClosed ∧ t.privOpen = false ∧ t.get F.SEA_SESS_STAT_LEFT = 0 ∧ t.get F.SEA_SESS_STAT_FAILS = s.get F.SEA_SESS_STAT_FAILS
      ∧ t.get (hdrPend 0x0A 0) = 1 ∧ Keeps s t (fun a => a = A.SEA_STAT ∨ a = A.SEA_SESS_STAT ∨ a = 0xA024 ∨ eventRegs 0x0A 0 a) [2] [] := by
  obtain ⟨hclosed, hleft, hfails, hpend⟩ := s.closeSession_spec (.inl hsea)
  have hbump (f : Fld) (hf : f.addr ≠ 0xA024) : (s.closeSession.bumpSeq 0x0A).settle.get f = s.closeSession.get f :=
    State.bumpSeq_get_other _ _ f hf
  have hclosed' : (s.closeSession.bumpSeq 0x0A).settle.sea = seClosed := (hbump F.SEA_STAT_SESSION (by decide)).trans hclosed
  refine ⟨_, exec_close s h, hclosed', State.privOpen_of_closed _ hclosed', (hbump _ (by decide)).trans hleft,
    (hbump _ (by decide)).trans hfails, (hbump _ (by decide)).trans hpend, ?_⟩
  rw [s.closeSession_of_open hsea]
  exact ((((Keeps.refl s _ _ _).endSession (by simp) (by simp)).event 0x0A 0 noUnit (by simp) (fun _ ha => .inr (.inr (.inr (.inr ha))))
    (by decide) (by decide)).bumpSeq 0x0A (by simp)).settle

theorem exec_close_jig (s : State) (h : s.runs = true) (hsea : s.sea = seJig) :
    Ends (exec .close s) fun t =>
      t.sea = seClosed ∧ t.privOpen = false ∧ t.on F.CAL_STATUS_JIG = false ∧ t.legal.log.getLast?.map LogEntry.code = some 0x0042
      ∧ Keeps s t (onPages [0x0A, 0x13]) [2, 38, 48] [.cal, .legal] := by
  obtain ⟨hclosed, -⟩ := s.closeSession_spec (.inr hsea)
  obtain ⟨hoff, hlog⟩ := s.endSession.jigLeft_spec
  have hclosed' : (s.closeSession.bumpSeq 0x0A).settle.sea = seClosed :=
    (State.bumpSeq_get_other _ 0x0A F.SEA_STAT_SESSION (by decide)).trans hclosed
  refine ⟨_, exec_close s h, hclosed', State.privOpen_of_closed _ hclosed', ?_, ?_, (s.closeSession_keeps.bumpSeq 0x0A (.inl (by decide))).settle⟩
  · rw [State.settle_on, State.on, State.bumpSeq_get_other _ _ _ (by decide), s.closeSession_of_jig hsea,
      State.event_get _ _ _ _ _ (by decide)]
    exact hoff
  · have hlegal : s.closeSession.legal = (s.endSession.leaveJig.log 0x0042 noOutlet [0]).legal := by
      rw [s.closeSession_of_jig hsea]
      exact State.event_part _ _ _ _ .legal
    rw [State.settle_legal, State.bumpSeq_legal, hlegal]
    exact hlog

theorem exec_sessionExpiry (s : State) (h : s.runs = true) (hsea : s.sea = seOpen ∨ s.sea = seJig) :
    Ends (exec .sessionExpiry s) fun t =>
      t.sea = seClosed ∧ t.privOpen = false ∧ t.get F.SEA_SESS_STAT_LEFT = 0 ∧ t.get (hdrPend 0x0A 0) = 1
      ∧ Keeps s t (onPages [0x0A, 0x13]) [2, 38, 48] [.cal, .legal] := by
  obtain ⟨hclosed, hleft, -, hpend⟩ := s.closeSession_spec hsea
  have hexec : exec .sessionExpiry s = done s.closeSession := by
    show execSessionExpiry s = _
    exact s.onFabric_runs _ h
  exact ⟨_, hexec, hclosed, State.privOpen_of_closed _ hclosed, hleft, hpend, s.closeSession_keeps.settle⟩

-- CHALLENGE and its expiry (R495)

/-- The 32 bytes of a challenge drawn now. -/
def State.challengeBytes (s : State) : List Byte :=
  (Config.randomBytes s.fresh).take 32 ++ List.replicate (32 - ((Config.randomBytes s.fresh).take 32).length) 0

theorem State.challengeBytes_length (s : State) : s.challengeBytes.length = 32 := by
  simp only [State.challengeBytes, List.length_append, List.length_take, List.length_replicate]
  omega

/-- The words of CHAL from a challenge's bytes. -/
def State.showChallenge (s : State) (b : List Byte) : State :=
  (List.range 8).foldl (fun s i => s.setReg (A.SEA_CHAL i) (wordN (fieldLe b (4 * i) 4))) s

/-- Registers written at distinct addresses each hold what was written there, and the rest of the state is as it was. -/
theorem foldl_range_setReg (f : Nat → Nat) (g : Nat → W32) (hf : Function.Injective f) (s : State) (n : Nat) :
    (∀ i < n, ((List.range n).foldl (fun s i => s.setReg (f i) (g i)) s).reg (f i) = g i)
      ∧ Keeps s ((List.range n).foldl (fun s i => s.setReg (f i) (g i)) s) (fun a => ∃ i < n, a = f i) [] [] := by
  induction n with
  | zero => exact ⟨fun i hi => absurd hi (Nat.not_lt_zero i), Keeps.refl s _ _ _⟩
  | succ n ih =>
    obtain ⟨hreg, hkeep⟩ := ih
    rw [List.range_succ, List.foldl_append, List.foldl_cons, List.foldl_nil]
    refine ⟨fun i hi => ?_, ?_⟩
    · rw [State.setReg_reg]
      split
      · next heq => rw [hf heq]
      · next hne => exact hreg i (by have : i ≠ n := fun he => hne (by rw [he]); omega)
    · have hmono := hkeep.mono (R' := fun a => ∃ i < n + 1, a = f i) (fun a ⟨i, hi, ha⟩ => ⟨i, by omega, ha⟩) (fun _ h => h) fun _ h => h
      exact hmono.setReg _ _ ⟨n, by omega, rfl⟩

theorem State.showChallenge_spec (s : State) (b : List Byte) :
    (∀ i < 8, (s.showChallenge b).reg (A.SEA_CHAL i) = wordN (fieldLe b (4 * i) 4))
      ∧ Keeps s (s.showChallenge b) (fun a => A.SEA_CHAL 0 ≤ a ∧ a ≤ A.SEA_CHAL 7) [] [] := by
  have hinj : Function.Injective A.SEA_CHAL := fun i j hij => by
    simp only [A.SEA_CHAL] at hij
    omega
  obtain ⟨hreg, hkeep⟩ := foldl_range_setReg A.SEA_CHAL (fun i => wordN (fieldLe b (4 * i) 4)) hinj s 8
  refine ⟨hreg, hkeep.mono (fun a ⟨i, hi, ha⟩ => ?_) (fun _ h => h) fun _ h => h⟩
  simp only [A.SEA_CHAL] at ha ⊢
  omega

/-- A command of SEA that nothing refuses counts in SEQ. -/
def countedSea (r : State × Option Nat) : State := if r.2 = none then r.1.bumpSeq 0x0A else r.1

theorem exec_challenge (s : State) (slot role : Nat) (h : s.runs = true) :
    exec (.challenge slot role) s = done (countedSea (s.seaChallenge (slot % 4) role)) := by
  show execChallenge slot role s = _
  rw [execChallenge, s.onFabric_runs _ h]
  rfl

theorem exec_challenge_drawn (s : State) (slot role : Nat) (h : s.runs = true) (hslot : slot < 4) (hrole : role = 1 ∨ role = 2)
    (hopen : s.sea ≠ seOpen) (hjig : s.sea ≠ seJig) (hlock : s.get F.SEA_SESS_LOCK_LEFT = 0) :
    Ends (exec (.challenge slot role) s) fun t =>
      t.sea = seChallenged ∧ (∃ ch, t.sl = { s.sl with chal := some ch } ∧ ch.slot = slot ∧ ch.role = role ∧ ch.dur = s.get F.SEA_SESS_PARAM_DURATION_S
        ∧ ch.bytes.length = 32 ∧ ∀ i, i < 8 → t.reg (A.SEA_CHAL i) = wordN (fieldLe ch.bytes (4 * i) 4))
      ∧ t.get (hdrSeq 0x0A) = (s.get (hdrSeq 0x0A) + 1) % 2 ^ 32
      ∧ Keeps s t (fun a => a = A.SEA_STAT ∨ (A.SEA_CHAL 0 ≤ a ∧ a ≤ A.SEA_CHAL 7) ∨ a = 0xA024) [] [.sl, .fresh] := by
  let ch : Challenge := ⟨s.challengeBytes, slot, role, s.get F.SEA_SESS_PARAM_DURATION_S⟩
  let u : State := ({ s.took with sl := { s.sl with chal := some ch } } : State).setSea seChallenged
  obtain ⟨hreg, hkeep⟩ := u.showChallenge_spec s.challengeBytes
  have hpass : (s.sea == seOpen || s.sea == seJig || (role != 1 && role != 2)) = false := by
    rcases hrole with rfl | rfl <;> simp [hopen, hjig]
  have hdraw : s.seaChallenge slot role = (u.showChallenge s.challengeBytes, none) := by
    simp only [State.seaChallenge, hpass, hlock, bne_self_eq_false, firstErr]
    rfl
  have hexec : exec (.challenge slot role) s = done ((u.showChallenge s.challengeBytes).bumpSeq 0x0A) := by
    rw [exec_challenge s slot role h, Nat.mod_eq_of_lt hslot, hdraw]
    rfl
  refine ⟨_, hexec, ?_, ⟨ch, ?_, rfl, rfl, rfl, s.challengeBytes_length, fun i hi => ?_⟩, ?_, ?_⟩
  · rw [State.sea, State.settle_get, State.bumpSeq_get_other _ _ _ (by decide), hkeep.get F.SEA_STAT_SESSION (by decide)]
    exact State.setSea_sea _ _
  · exact hkeep.parts .sl (by simp)
  · rw [State.settle_reg, State.bumpSeq, State.inc, State.put_reg_other _ _ _ _ (by simp only [A.SEA_CHAL, hdrSeq]; omega)]
    exact hreg i hi
  · have hseq : u.get (hdrSeq 0x0A) = s.get (hdrSeq 0x0A) := State.put_get_other _ _ _ _ (by decide)
    rw [State.settle_get, State.bumpSeq_get_seq, hkeep.get (hdrSeq 0x0A) (by decide), hseq]
  · have hu : Keeps s u (fun a => a = A.SEA_STAT ∨ (A.SEA_CHAL 0 ≤ a ∧ a ≤ A.SEA_CHAL 7) ∨ a = 0xA024) [] [.sl, .fresh] :=
      (((Keeps.refl s _ _ _).took (by simp)).withSl _ (by simp)).put F.SEA_STAT_SESSION _ (.inl rfl)
    exact ((hu.trans (hkeep.mono (fun _ ha => .inr (.inl ha)) (by simp) (by simp))).bumpSeq 0x0A (.inr (.inr rfl))).settle

theorem exec_challenge_refused (s : State) (slot role : Nat) (h : s.runs = true)
    (hwhy : s.sea = seOpen ∨ s.sea = seJig ∨ (role ≠ 1 ∧ role ≠ 2) ∨ s.get F.SEA_SESS_LOCK_LEFT ≠ 0) :
    Ends (exec (.challenge slot role) s) fun t =>
      t.get (hdrErrcode 0x0A) = (if s.sea = seOpen ∨ s.sea = seJig ∨ (role ≠ 1 ∧ role ≠ 2) then 0x1E else 0xA3) ∧ Keeps s t (errRegs 0x0A) [] [] := by
  let c := if s.sea = seOpen ∨ s.sea = seJig ∨ (role ≠ 1 ∧ role ≠ 2) then 0x1E else 0xA3
  have hc : c < 65536 := by
    simp only [c]
    split <;> decide
  have hfirst : firstErr [(s.sea == seOpen || s.sea == seJig || (role != 1 && role != 2), 0x1E), (s.get F.SEA_SESS_LOCK_LEFT != 0, 0xA3)]
      = some c := by
    have hbool : (s.sea == seOpen || s.sea == seJig || (role != 1 && role != 2)) = true ↔ s.sea = seOpen ∨ s.sea = seJig ∨ (role ≠ 1 ∧ role ≠ 2) := by
      simp [or_assoc]
    by_cases hstate : s.sea = seOpen ∨ s.sea = seJig ∨ (role ≠ 1 ∧ role ≠ 2)
    · rw [hbool.mpr hstate]
      simp only [firstErr_true, c, if_pos hstate]
    · have hlock : (s.get F.SEA_SESS_LOCK_LEFT != 0) = true := by
        rw [bne_iff_ne]
        tauto
      rw [Bool.eq_false_iff.mpr (mt hbool.mp hstate), hlock]
      simp only [firstErr_false, firstErr_true, c, if_neg hstate]
  obtain ⟨hcode, hkeep⟩ := s.err_recorded 0x0A c hc
  have hexec : exec (.challenge slot role) s = done (s.err 0x0A c) := by
    rw [exec_challenge s slot role h, State.seaChallenge, hfirst]
    rfl
  exact ⟨_, hexec, hcode, hkeep.settle⟩

theorem exec_challengeExpiry (s : State) (h : s.runs = true) (hchal : s.sl.chal.isSome = true) :
    Ends (exec .challengeExpiry s) fun t => t.sea = seClosed ∧ t.sl = { s.sl with chal := none } ∧ Keeps s t (among [A.SEA_STAT]) [] [.sl] := by
  have hexec : exec .challengeExpiry s = done (({ s with sl := { s.sl with chal := none } } : State).setSea seClosed) := by
    show execChallengeExpiry s = _
    rw [execChallengeExpiry, s.onFabric_runs _ h, if_pos hchal]
  exact ⟨_, hexec, State.setSea_sea _ _, rfl, (((Keeps.refl s _ _ _).withSl _ (by simp)).put F.SEA_STAT_SESSION _ (by decide)).settle⟩

-- VERIFY as written (R496)

theorem exec_verify (s : State) (slot role : Nat) (h : s.runs = true) :
    exec (.verify slot role) s = done (countedSea (s.seaVerify (slot % 4) role)) := by
  show execVerify slot role s = _
  rw [execVerify, s.onFabric_runs _ h]
  rfl

/-- What refuses a VERIFY of the waiting challenge's own slot and role (R496, R580). -/
def State.verifyCode (s : State) (ch : Challenge) : Option Nat :=
  firstErr [(s.on F.SEA_STAT_BUSY || (ch.role != 1 && ch.role != 2), 0x1E), (!s.sealEn, 0xA0),
    (!(ch.slot == ch.slot && ch.role == ch.role), 0xA1), (s.get F.SEA_SESS_LOCK_LEFT != 0, 0xA3), (!s.slotPermits ch.slot ch.role, 0xA5)]

theorem State.seaVerify_refused (s : State) (ch : Challenge) (c : Nat) (hchal : s.sl.chal = some ch) (hcode : s.verifyCode ch = some c)
    (hc : c ≠ 0x1E) :
    s.seaVerify ch.slot ch.role
      = ((({ s.err 0x0A c with sl := { s.sl with chal := none } } : State).setSea seClosed).event 0x0A 1 noUnit, some c) := by
  rw [State.verifyCode] at hcode
  simp only [State.seaVerify, hchal, hcode, State.err_sl, hc, Option.isNone_some, Bool.false_eq_true, or_self, if_false]

/-- The signature in RESP. -/
def State.respBytes (s : State) : List Byte := (List.range 16).flatMap fun i => le 4 (s.reg (A.SEA_RESP i)).toNat

theorem State.seaVerify_started (s : State) (ch : Challenge) (hchal : s.sl.chal = some ch) (hcode : s.verifyCode ch = none) :
    s.seaVerify ch.slot ch.role
      = (({ s with sl := { s.sl with chal := none, verify := some (ch, s.respBytes) } } : State).showBusy, none) := by
  rw [State.verifyCode] at hcode
  simp only [State.seaVerify, hchal, hcode]
  rfl

/-- Past the first check, a VERIFY of the waiting challenge is judged by SEAL_EN, the lockout and the slot's roles. -/
theorem State.verifyCode_eq (s : State) (ch : Challenge) (hrole : ch.role = 1 ∨ ch.role = 2) (hbusy : s.on F.SEA_STAT_BUSY = false) :
    s.verifyCode ch = firstErr [(!s.sealEn, 0xA0), (s.get F.SEA_SESS_LOCK_LEFT != 0, 0xA3), (!s.slotPermits ch.slot ch.role, 0xA5)] := by
  rcases hrole with hr | hr <;> simp [State.verifyCode, hbusy, hr, firstErr]

theorem exec_verify_started (s : State) (ch : Challenge) (h : s.runs = true) (hchal : s.sl.chal = some ch) (hslot : ch.slot < 4)
    (hrole : ch.role = 1 ∨ ch.role = 2) (hbusy : s.on F.SEA_STAT_BUSY = false) (hseal : s.sealEn = true)
    (hlock : s.get F.SEA_SESS_LOCK_LEFT = 0) (hpermits : s.slotPermits ch.slot ch.role = true) :
    Ends (exec (.verify ch.slot ch.role) s) fun t =>
      (∃ sig, t.sl = { s.sl with chal := none, verify := some (ch, sig) } ∧ sig = (List.range 16).flatMap fun i => le 4 (s.reg (A.SEA_RESP i)).toNat)
      ∧ t.on F.SEA_STAT_BUSY = true ∧ Keeps s t (among [A.SEA_STAT, 0xA024]) [] [.sl] := by
  let u : State := { s with sl := { s.sl with chal := none, verify := some (ch, s.respBytes) } }
  have hverify : s.seaVerify ch.slot ch.role = (u.showBusy, none) :=
    s.seaVerify_started ch hchal (by simp [s.verifyCode_eq ch hrole hbusy, hseal, hlock, hpermits, firstErr])
  have hexec : exec (.verify ch.slot ch.role) s = done (u.showBusy.bumpSeq 0x0A) := by
    rw [exec_verify s _ _ h, Nat.mod_eq_of_lt hslot, hverify]
    rfl
  refine ⟨_, hexec, ⟨s.respBytes, rfl, rfl⟩, ?_,
    ((((Keeps.refl s _ _ _).withSl _ (by simp)).put F.SEA_STAT_BUSY _ (by decide)).bumpSeq 0x0A (by decide)).settle⟩
  rw [State.settle_on, State.on, State.bumpSeq_get_other _ _ _ (by decide), State.showBusy, State.put_get_same _ _ _ (by decide)]
  rfl

theorem exec_verify_sealed (s : State) (ch : Challenge) (h : s.runs = true) (hchal : s.sl.chal = some ch) (hslot : ch.slot < 4)
    (hrole : ch.role = 1 ∨ ch.role = 2) (hbusy : s.on F.SEA_STAT_BUSY = false) (hseal : s.sealEn = false) :
    Ends (exec (.verify ch.slot ch.role) s) fun t =>
      t.sea = seClosed ∧ t.sl = { s.sl with chal := none } ∧ t.get (hdrErrcode 0x0A) = 0xA0 ∧ t.get (hdrPend 0x0A 1) = 1
      ∧ Keeps s t (fun a => a = A.SEA_STAT ∨ errRegs 0x0A a ∨ eventRegs 0x0A 1 a) [2] [.sl] := by
  let u : State := { s.err 0x0A 0xA0 with sl := { s.sl with chal := none } }
  have hverify : s.seaVerify ch.slot ch.role = ((u.setSea seClosed).event 0x0A 1 noUnit, some 0xA0) :=
    s.seaVerify_refused ch 0xA0 hchal (by simp [s.verifyCode_eq ch hrole hbusy, hseal]) (by decide)
  have hexec : exec (.verify ch.slot ch.role) s = done ((u.setSea seClosed).event 0x0A 1 noUnit) := by
    rw [exec_verify s _ _ h, Nat.mod_eq_of_lt hslot, hverify]
    rfl
  obtain ⟨hcode, -⟩ := s.err_recorded 0x0A 0xA0 (by decide)
  have hu : Keeps s u (fun a => a = A.SEA_STAT ∨ errRegs 0x0A a ∨ eventRegs 0x0A 1 a) [2] [.sl] :=
    ((Keeps.refl s _ _ _).err 0x0A 0xA0 (by decide) (by decide)).withSl _ (by simp)
  refine ⟨_, hexec, ?_, State.event_part _ _ _ _ .sl, ?_, State.event_pend _ _ _ _ (by decide) (by decide),
    ((hu.put F.SEA_STAT_SESSION _ (by decide)).event 0x0A 1 noUnit (by simp) (fun _ ha => .inr (.inr (.inr ha))) (by decide) (by decide)).settle⟩
  · rw [State.sea, State.settle_get, State.event_get _ _ _ _ _ (by decide)]
    exact State.setSea_sea _ _
  · rw [State.settle_get, State.event_get _ _ _ _ _ (by decide), State.setSea, State.put_get_other _ _ _ _ (by decide)]
    exact hcode

-- The completion of a VERIFY (R497, R498)

/-- The session of a challenge whose signature is good. -/
def State.openSession (s : State) (ch : Challenge) : State :=
  ((((s.setSea seOpen).put F.SEA_SESS_STAT_LEFT ch.dur).put F.SEA_SESS_STAT_SLOT ch.slot).put F.SEA_SESS_STAT_ROLE ch.role).put
    F.SEA_SESS_STAT_FAILS 0

theorem State.openSession_stat (s : State) (ch : Challenge) :
    (s.openSession ch).get F.SEA_SESS_STAT_SLOT = ch.slot % 4 ∧ (s.openSession ch).get F.SEA_SESS_STAT_ROLE = ch.role % 4
      ∧ (s.openSession ch).get F.SEA_SESS_STAT_LEFT = ch.dur % 65536 ∧ (s.openSession ch).get F.SEA_SESS_STAT_FAILS = 0 := by
  refine ⟨?_, ?_, ?_, State.put_get_same _ _ _ (by decide)⟩
  · rw [State.openSession, State.put_get_apart _ _ _ _ (by decide) (by decide), State.put_get_apart _ _ _ _ (by decide) (by decide),
      State.put_get_same _ _ _ (by decide)]
    rfl
  · rw [State.openSession, State.put_get_apart _ _ _ _ (by decide) (by decide), State.put_get_same _ _ _ (by decide)]
    rfl
  · rw [State.openSession, State.put_get_apart _ _ _ _ (by decide) (by decide), State.put_get_apart _ _ _ _ (by decide) (by decide),
      State.put_get_apart _ _ _ _ (by decide) (by decide), State.put_get_same _ _ _ (by decide)]
    rfl

theorem State.openSession_sea (s : State) (ch : Challenge) : (s.openSession ch).sea = seOpen := by
  rw [State.openSession, State.sea_put _ _ _ (by decide), State.sea_put _ _ _ (by decide), State.sea_put _ _ _ (by decide),
    State.sea_put _ _ _ (by decide)]
  exact State.setSea_sea _ _

theorem Keeps.openSession {s t : State} {R : Nat → Prop} {E : List Nat} {P : List Part} (h : Keeps s t R E P) (ch : Challenge)
    (h0 : R A.SEA_STAT) (h1 : R A.SEA_SESS_STAT) : Keeps s (t.openSession ch) R E P :=
  ((((h.put F.SEA_STAT_SESSION _ h0).put F.SEA_SESS_STAT_LEFT _ h1).put F.SEA_SESS_STAT_SLOT _ h1).put F.SEA_SESS_STAT_ROLE _ h1).put
    F.SEA_SESS_STAT_FAILS _ h1

/-- A bad signature closes the session, is recorded, and counts in FAILS. -/
def State.countFail (s : State) : State := (((s.setSea seClosed).err 0x0A 0xA2).event 0x0A 1 noUnit).incSat F.SEA_SESS_STAT_FAILS

theorem State.countFail_spec (s : State) :
    s.countFail.sea = seClosed ∧ s.countFail.get F.SEA_SESS_STAT_FAILS = satInc 255 (s.get F.SEA_SESS_STAT_FAILS)
      ∧ s.countFail.get (hdrErrcode 0x0A) = 0xA2 ∧ s.countFail.get F.SEA_SESS_LOCK_LEFT = s.get F.SEA_SESS_LOCK_LEFT := by
  let u := s.setSea seClosed
  have herr : Keeps u (u.err 0x0A 0xA2) (errRegs 0x0A) [] [] := (u.err_recorded 0x0A 0xA2 (by decide)).2
  have hkeep (f : Fld) (hf : f.addr ≠ F.SEA_SESS_STAT_FAILS.addr) (he : ¬ eventRegs 0x0A 1 f.addr) :
      s.countFail.get f = (u.err 0x0A 0xA2).get f := by
    rw [State.countFail, State.incSat, State.put_get_other _ _ _ _ hf, State.event_get _ _ _ _ _ he]
  refine ⟨?_, ?_, ?_, ?_⟩
  · rw [State.sea, hkeep _ (by decide) (by decide), herr.get F.SEA_STAT_SESSION (by decide)]
    exact s.setSea_sea _
  · have hfails : u.get F.SEA_SESS_STAT_FAILS = s.get F.SEA_SESS_STAT_FAILS := State.put_get_other _ _ _ _ (by decide)
    rw [State.countFail, State.incSat_get_same _ _ (by decide), State.event_get _ _ _ _ _ (by decide), herr.get F.SEA_SESS_STAT_FAILS (by decide),
      hfails]
    rfl
  · rw [hkeep _ (by decide) (by decide)]
    exact (u.err_recorded 0x0A 0xA2 (by decide)).1
  · rw [hkeep _ (by decide) (by decide), herr.get F.SEA_SESS_LOCK_LEFT (by decide)]
    exact State.put_get_other _ _ _ _ (by decide)

/-- The lockout after `n` failures: none before the fifth. -/
def State.setLockout (s : State) (n : Nat) : State := if n < 5 then s else s.put F.SEA_SESS_LOCK_LEFT (lockout n)

theorem State.setLockout_left (s : State) (n : Nat) (h : s.get F.SEA_SESS_LOCK_LEFT = 0) :
    (s.setLockout n).get F.SEA_SESS_LOCK_LEFT = lockout n := by
  have hle : lockout n ≤ 3600 := by
    unfold lockout
    split <;> omega
  unfold State.setLockout
  split
  · next hn => rw [h, lockout, if_pos hn]
  · rw [State.put_get_same _ _ _ (by decide)]
    exact Nat.mod_eq_of_lt (show lockout n < 4096 by omega)

theorem State.setLockout_get (s : State) (n : Nat) (f : Fld) (hf : f.addr ≠ F.SEA_SESS_LOCK_LEFT.addr) : (s.setLockout n).get f = s.get f := by
  unfold State.setLockout
  split
  · rfl
  · exact State.put_get_other _ _ _ _ hf

theorem State.setLockout_legal (s : State) (n : Nat) : (s.setLockout n).legal = s.legal := by
  unfold State.setLockout
  split <;> rfl

/-- The log records the start of a lockout. -/
def State.logLockout (s : State) (slot n : Nat) : State :=
  if n = 5 then s.log 0x0041 noOutlet (le 1 slot ++ le 1 n ++ le 2 0 ++ le 4 (lockout n)) else s

theorem State.logLockout_keeps (s : State) (slot n : Nat) : Keeps s (s.logLockout slot n) (eventRegs 0x0A 4) [2, 38] [.legal] :=
  Keeps.ite ((Keeps.refl s _ _ _).log _ _ _ (by simp) (by simp) (by simp) fun _ h => h) (Keeps.refl s _ _ _)

theorem State.logLockout_next (s : State) (slot n : Nat) :
    (s.logLockout slot n).legal.next = s.legal.next + (if n = 5 then 1 else 0) := by
  unfold State.logLockout
  split
  · exact (State.log_legal _ _ _ _).2
  · rfl

/-- A good signature opens the session and is logged. -/
def State.acceptVerify (s : State) (ch : Challenge) : State :=
  ((s.openSession ch).event 0x0A 0 noUnit).log 0x0040 noOutlet (le 1 ch.slot ++ le 1 ch.role ++ le 2 ch.dur)

/-- A bad signature, counted and logged, locks the session from the fifth in a row on. -/
def State.rejectVerify (s : State) (slot : Nat) : State :=
  (s.countFail.setLockout (s.countFail.get F.SEA_SESS_STAT_FAILS)).logLockout slot (s.countFail.get F.SEA_SESS_STAT_FAILS)

theorem State.acceptVerify_get (s : State) (ch : Challenge) (f : Fld) (h0 : ¬ eventRegs 0x0A 0 f.addr) (h4 : ¬ eventRegs 0x0A 4 f.addr) :
    (s.acceptVerify ch).get f = (s.openSession ch).get f := by
  have hlog := (Keeps.refl ((s.openSession ch).event 0x0A 0 noUnit) (eventRegs 0x0A 4) [2, 38] [.legal]).log 0x0040 noOutlet
    (le 1 ch.slot ++ le 1 ch.role ++ le 2 ch.dur) (by simp) (by simp) (by simp) fun _ h => h
  rw [State.acceptVerify, hlog.get f h4, State.event_get _ _ _ _ _ h0]

theorem State.rejectVerify_get (s : State) (slot : Nat) (f : Fld) (hf : f.addr ≠ F.SEA_SESS_LOCK_LEFT.addr) (h4 : ¬ eventRegs 0x0A 4 f.addr) :
    (s.rejectVerify slot).get f = s.countFail.get f := by
  rw [State.rejectVerify, (State.logLockout_keeps _ _ _).get f h4, State.setLockout_get _ _ _ hf]

/-- An event of SEA touches its own page and the record of a lost marker. -/
theorem Keeps.seaEvent {s t : State} {E : List Nat} {P : List Part} (h : Keeps s t (onPages [0x0A]) E P) (b : Nat) (hb : b < 32) (he : 2 ∈ E) :
    Keeps s (t.event 0x0A b noUnit) (onPages [0x0A]) E P :=
  have hR := eventRegs_onPages 0x0A b [0x0A] hb (by simp)
  h.event 0x0A b noUnit he (fun _ => .inr) (hR _ (.inl (.inl rfl))) (hR _ (.inl (.inr rfl)))

theorem State.acceptVerify_keeps (s : State) (ch : Challenge) : Keeps s (s.acceptVerify ch) (onPages [0x0A]) [2, 38] [.legal] :=
  (((Keeps.refl s _ _ _).openSession ch (.inl (by decide)) (.inl (by decide))).seaEvent 0 (by decide) (by simp)).log _ _ _ (by simp) (by simp)
    (by simp) (eventRegs_onPages _ _ _ (by decide) (by simp))

theorem State.acceptVerify_spec (s : State) (ch : Challenge) (hslot : ch.slot < 4) (hrole : ch.role < 4) :
    (s.acceptVerify ch).sea = seOpen ∧ (s.acceptVerify ch).get F.SEA_SESS_STAT_SLOT = ch.slot
      ∧ (s.acceptVerify ch).get F.SEA_SESS_STAT_ROLE = ch.role ∧ (s.acceptVerify ch).get F.SEA_SESS_STAT_LEFT = ch.dur % 65536
      ∧ (s.acceptVerify ch).get F.SEA_SESS_STAT_FAILS = 0
      ∧ (s.acceptVerify ch).legal.log.getLast?.map LogEntry.code = some 0x0040 := by
  obtain ⟨hs, hr, hl, hf⟩ := s.openSession_stat ch
  have hget := s.acceptVerify_get ch
  refine ⟨?_, ?_, ?_, ?_, ?_, ?_⟩
  · exact (hget F.SEA_STAT_SESSION (by decide) (by decide)).trans (s.openSession_sea ch)
  · exact (hget _ (by decide) (by decide)).trans (hs.trans (Nat.mod_eq_of_lt hslot))
  · exact (hget _ (by decide) (by decide)).trans (hr.trans (Nat.mod_eq_of_lt hrole))
  · exact (hget _ (by decide) (by decide)).trans hl
  · exact (hget _ (by decide) (by decide)).trans hf
  · rw [State.acceptVerify]
    exact (State.log_legal _ _ _ _).1

theorem State.countFail_keeps (s : State) : Keeps s s.countFail (onPages [0x0A]) [2, 38] [] :=
  (((((Keeps.refl s _ _ _).put F.SEA_STAT_SESSION _ (.inl (by decide))).err 0x0A 0xA2 (.inl (by decide)) (.inl (by decide))).seaEvent 1
    (by decide) (by simp)).incSat F.SEA_SESS_STAT_FAILS (.inl (by decide)))

theorem State.rejectVerify_keeps (s : State) (slot : Nat) : Keeps s (s.rejectVerify slot) (onPages [0x0A]) [2, 38] [.legal] := by
  have hfail : Keeps s s.countFail (onPages [0x0A]) [2, 38] [.legal] := s.countFail_keeps.mono (fun _ h => h) (fun _ h => h) (by simp)
  have hlocked := Keeps.ite (c := s.countFail.get F.SEA_SESS_STAT_FAILS < 5) hfail
    (hfail.put F.SEA_SESS_LOCK_LEFT (lockout (s.countFail.get F.SEA_SESS_STAT_FAILS)) (.inl (by decide)))
  exact hlocked.trans ((State.logLockout_keeps _ _ _).mono (eventRegs_onPages _ _ _ (by decide) (by simp)) (fun _ h => h) fun _ h => h)

theorem State.rejectVerify_spec (s : State) (slot : Nat) (hlock : s.get F.SEA_SESS_LOCK_LEFT = 0) :
    let n := satInc 255 (s.get F.SEA_SESS_STAT_FAILS)
    (s.rejectVerify slot).sea = seClosed ∧ (s.rejectVerify slot).get F.SEA_SESS_STAT_FAILS = n
      ∧ (s.rejectVerify slot).get (hdrErrcode 0x0A) = 0xA2 ∧ (s.rejectVerify slot).get F.SEA_SESS_LOCK_LEFT = lockout n
      ∧ (s.rejectVerify slot).legal.next = s.legal.next + (if n = 5 then 1 else 0) := by
  obtain ⟨hsea, hfails, hcode, hfree⟩ := s.countFail_spec
  refine ⟨?_, ?_, ?_, ?_, ?_⟩
  · exact (s.rejectVerify_get slot F.SEA_STAT_SESSION (by decide) (by decide)).trans hsea
  · exact (s.rejectVerify_get slot _ (by decide) (by decide)).trans hfails
  · exact (s.rejectVerify_get slot _ (by decide) (by decide)).trans hcode
  · rw [State.rejectVerify, (State.logLockout_keeps _ _ _).get F.SEA_SESS_LOCK_LEFT (by decide), hfails]
    exact State.setLockout_left _ _ (hfree.trans hlock)
  · have hlegal : (s.countFail.setLockout (s.countFail.get F.SEA_SESS_STAT_FAILS)).legal = s.legal :=
      (State.setLockout_legal _ _).trans (s.countFail_keeps.parts .legal (by simp))
    rw [State.rejectVerify, State.logLockout_next, hlegal, hfails]

/-- The state as its VERIFY completes: no challenge waits and none is being verified. -/
def State.verifyEnded (s : State) : State := ({ s with sl := { s.sl with chal := none, verify := none } } : State).showBusy

/-- The message that a challenge's signature is of. -/
def State.sealMessage (s : State) (ch : Challenge) : List Byte :=
  ch.bytes ++ le 8 Config.serial.toNat ++ le 4 s.epoch ++ le 1 ch.slot ++ le 1 ch.role ++ le 2 ch.dur

def State.signedBy (s : State) (ch : Challenge) (sig : List Byte) : Bool :=
  Config.ecdsaVerify (s.slotKey ch.slot) (Config.sha256 (s.sealMessage ch)) sig

/-- With SEAL_EN, no lockout and the slot's role, the signature alone judges a completed VERIFY. -/
theorem State.verifyEnded_code (s : State) (ch : Challenge) (good : Bool) (hseal : s.sealEn = true) (hlock : s.get F.SEA_SESS_LOCK_LEFT = 0)
    (hpermits : s.slotPermits ch.slot ch.role = true) :
    firstErr [(!s.verifyEnded.sealEn, 0xA0), (!good, 0xA2), (s.verifyEnded.get F.SEA_SESS_LOCK_LEFT != 0, 0xA3),
      (!s.verifyEnded.slotPermits ch.slot ch.role, 0xA5)] = if good then none else some 0xA2 := by
  have hfree : s.verifyEnded.get F.SEA_SESS_LOCK_LEFT = 0 := (State.put_get_other _ _ _ _ (by decide)).trans hlock
  have hrole : s.verifyEnded.slotPermits ch.slot ch.role = true := hpermits
  have hen : s.verifyEnded.sealEn = true := hseal
  rw [hfree, hrole, hen]
  cases good <;> rfl

theorem exec_verifyDone_eq (s : State) (ch : Challenge) (sig : List Byte) (h : s.runs = true) (hver : s.sl.verify = some (ch, sig))
    (hseal : s.sealEn = true) (hlock : s.get F.SEA_SESS_LOCK_LEFT = 0) (hpermits : s.slotPermits ch.slot ch.role = true) :
    exec .verifyDone s = done (if s.signedBy ch sig then s.verifyEnded.acceptVerify ch else s.verifyEnded.rejectVerify ch.slot) := by
  have hcode := s.verifyEnded_code ch (s.signedBy ch sig) hseal hlock hpermits
  show execVerifyDone s = _
  rw [execVerifyDone, s.onFabric_runs _ h, hver]
  change (match firstErr [(!s.verifyEnded.sealEn, 0xA0), (!s.signedBy ch sig, 0xA2), (s.verifyEnded.get F.SEA_SESS_LOCK_LEFT != 0, 0xA3),
      (!s.verifyEnded.slotPermits ch.slot ch.role, 0xA5)] with | some c => _ | none => _) = _
  rw [hcode]
  by_cases hgood : s.signedBy ch sig = true
  · rw [if_pos hgood, if_pos hgood]
    rfl
  · rw [if_neg hgood, if_neg hgood]
    exact if_neg hgood

theorem exec_verifyDone (s : State) (ch : Challenge) (sig : List Byte) (h : s.runs = true) (hver : s.sl.verify = some (ch, sig))
    (hslot : ch.slot < 4) (hrole : ch.role < 4) (hseal : s.sealEn = true) (hlock : s.get F.SEA_SESS_LOCK_LEFT = 0)
    (hpermits : s.slotPermits ch.slot ch.role = true) :
    Ends (exec .verifyDone s) fun t =>
      let msg := ch.bytes ++ le 8 Config.serial.toNat ++ le 4 s.epoch ++ le 1 ch.slot ++ le 1 ch.role ++ le 2 ch.dur
      let n := satInc 255 (s.get F.SEA_SESS_STAT_FAILS)
      t.sl.chal = none ∧ t.sl.verify = none
      ∧ (if Config.ecdsaVerify (s.slotKey ch.slot) (Config.sha256 msg) sig = true then
          t.sea = seOpen ∧ t.get F.SEA_SESS_STAT_SLOT = ch.slot ∧ t.get F.SEA_SESS_STAT_ROLE = ch.role ∧ t.get F.SEA_SESS_STAT_LEFT = ch.dur % 65536
            ∧ t.get F.SEA_SESS_STAT_FAILS = 0 ∧ t.legal.log.getLast?.map LogEntry.code = some 0x0040
        else
          t.sea = seClosed ∧ t.get F.SEA_SESS_STAT_FAILS = n ∧ t.get (hdrErrcode 0x0A) = 0xA2 ∧ t.get F.SEA_SESS_LOCK_LEFT = lockout n
            ∧ t.legal.next = s.legal.next + (if n = 5 then 1 else 0))
      ∧ Keeps s t (onPages [0x0A]) [2, 38] [.sl, .legal] := by
  have hexec := exec_verifyDone_eq s ch sig h hver hseal hlock hpermits
  have hended : Keeps s s.verifyEnded (onPages [0x0A]) [2, 38] [.sl, .legal] :=
    ((Keeps.refl s _ _ _).withSl _ (by simp)).put F.SEA_STAT_BUSY _ (.inl (by decide))
  by_cases hgood : s.signedBy ch sig = true
  · rw [if_pos hgood] at hexec
    have hspec := s.verifyEnded.acceptVerify_spec ch hslot hrole
    have hkeep := s.verifyEnded.acceptVerify_keeps ch
    have hsl : (s.verifyEnded.acceptVerify ch).settle.sl = s.verifyEnded.sl := (State.settle_sl _).trans (hkeep.parts .sl (by simp))
    refine ⟨_, hexec, by rw [hsl]; rfl, by rw [hsl]; rfl, ?_,
      (hended.trans (hkeep.mono (fun _ h => h) (fun _ h => h) (by simp))).settle⟩
    refine (if_pos hgood).mpr ?_
    simpa only [State.sea, State.settle_get, State.settle_legal] using hspec
  · rw [if_neg hgood] at hexec
    have hfails : s.verifyEnded.get F.SEA_SESS_STAT_FAILS = s.get F.SEA_SESS_STAT_FAILS := State.put_get_other _ _ _ _ (by decide)
    have hfree : s.verifyEnded.get F.SEA_SESS_LOCK_LEFT = 0 := (State.put_get_other _ _ _ _ (by decide)).trans hlock
    have hlegal : s.verifyEnded.legal = s.legal := rfl
    have hspec := s.verifyEnded.rejectVerify_spec ch.slot hfree
    rw [hfails, hlegal] at hspec
    have hkeep := s.verifyEnded.rejectVerify_keeps ch.slot
    have hsl : (s.verifyEnded.rejectVerify ch.slot).settle.sl = s.verifyEnded.sl := (State.settle_sl _).trans (hkeep.parts .sl (by simp))
    refine ⟨_, hexec, by rw [hsl]; rfl, by rw [hsl]; rfl, ?_,
      (hended.trans (hkeep.mono (fun _ h => h) (fun _ h => h) (by simp))).settle⟩
    refine (if_neg hgood).mpr ?_
    simpa only [State.sea, State.settle_get, State.settle_legal] using hspec

-- Jig mode entered and left (R499)

theorem exec_jigEnter (s : State) (h : s.runs = true) : exec .jigEnter s = done (countedSea s.seaJigEnter) := by
  show execJigEnter s = _
  rw [execJigEnter, s.onFabric_runs _ h]
  rfl

theorem exec_jigEnter_entered (s : State) (h : s.runs = true) (hsea : s.sea = seOpen) (hrole : s.get F.SEA_SESS_STAT_ROLE = 2)
    (hbays : ∀ k, k < 12 → closedState (s.bay k) = false) (hidle : s.get F.SES_ACTIVE_MASK_OUT = 0) :
    Ends (exec .jigEnter s) fun t =>
      t.sea = seJig ∧ t.on F.CAL_STATUS_JIG = true ∧ t.legal.log.getLast?.map LogEntry.code = some 0x0042
      ∧ Keeps s t (fun a => a = F.CAL_STATUS_JIG.addr ∨ onPages [0x0A] a) [2, 38] [.legal] := by
  let u := (s.setSea seJig).put F.CAL_STATUS_JIG 1
  have hquiet : ((List.range 12).any fun k => closedState (s.bay k)) = false := by
    rw [List.any_eq_false]
    intro k hk
    simp [hbays k (List.mem_range.mp hk)]
  have henter : s.seaJigEnter = (u.log 0x0042 noOutlet [1], none) := by
    simp [State.seaJigEnter, hsea, hrole, hquiet, hidle, u]
  have hexec : exec .jigEnter s = done ((u.log 0x0042 noOutlet [1]).bumpSeq 0x0A) := by
    rw [exec_jigEnter s h, henter]
    rfl
  have hlog : Keeps u (u.log 0x0042 noOutlet [1]) (eventRegs 0x0A 4) [2, 38] [.legal] :=
    (Keeps.refl _ _ _ _).log _ _ _ (by simp) (by simp) (by simp) fun _ h => h
  have hu : Keeps s u (fun a => a = F.CAL_STATUS_JIG.addr ∨ onPages [0x0A] a) [2, 38] [.legal] :=
    ((Keeps.refl s _ _ _).put F.SEA_STAT_SESSION _ (by decide)).put F.CAL_STATUS_JIG _ (by decide)
  refine ⟨_, hexec, ?_, ?_, (State.log_legal _ _ _ _).1,
    ((hu.log _ _ _ (by simp) (by simp) (by simp) fun a ha => .inr (eventRegs_onPages _ _ _ (by decide) (by simp) a ha)).bumpSeq 0x0A
      (by decide)).settle⟩
  · rw [State.sea, State.settle_get, State.bumpSeq_get_other _ _ _ (by decide), hlog.get F.SEA_STAT_SESSION (by decide),
      State.put_get_other _ _ _ _ (by decide)]
    exact State.setSea_sea _ _
  · rw [State.settle_on, State.on, State.bumpSeq_get_other _ _ _ (by decide), hlog.get F.CAL_STATUS_JIG (by decide),
      State.put_get_same _ _ _ (by decide)]
    rfl

theorem exec_jigEnter_refused (s : State) (h : s.runs = true)
    (hwhy : s.sea ≠ seOpen ∨ s.get F.SEA_SESS_STAT_ROLE ≠ 2 ∨ s.get F.SES_ACTIVE_MASK_OUT ≠ 0) :
    Ends (exec .jigEnter s) fun t => t.get (hdrErrcode 0x0A) = 0xA4 ∧ Keeps s t (errRegs 0x0A) [] [] := by
  obtain ⟨hcode, hkeep⟩ := s.err_recorded 0x0A 0xA4 (by decide)
  have hexec : exec .jigEnter s = done (s.err 0x0A 0xA4) := by
    rw [exec_jigEnter s h, State.seaJigEnter, if_neg]
    · rfl
    · simp only [Bool.not_eq_eq_eq_not, Bool.not_true, Bool.or_eq_false_iff, bne_eq_false_iff_eq]
      tauto
  exact ⟨_, hexec, hcode, hkeep.settle⟩

theorem exec_jigLeave (s : State) (h : s.runs = true) : exec .jigLeave s = done (countedSea s.seaJigLeave) := by
  show execJigLeave s = _
  rw [execJigLeave, s.onFabric_runs _ h]
  rfl

theorem exec_jigLeave_left (s : State) (h : s.runs = true) (hsea : s.sea = seJig) :
    Ends (exec .jigLeave s) fun t =>
      t.sea = seOpen ∧ t.on F.CAL_STATUS_JIG = false ∧ t.legal.log.getLast?.map LogEntry.code = some 0x0042
      ∧ Keeps s t (onPages [0x0A, 0x13]) [2, 38, 48] [.cal, .legal] := by
  let u := s.leaveJig.setSea seOpen
  have hexec : exec .jigLeave s = done ((u.log 0x0042 noOutlet [0]).bumpSeq 0x0A) := by
    rw [exec_jigLeave s h, State.seaJigLeave, if_pos hsea]
    rfl
  have hlog : Keeps u (u.log 0x0042 noOutlet [0]) (eventRegs 0x0A 4) [2, 38] [.legal] :=
    (Keeps.refl _ _ _ _).log _ _ _ (by simp) (by simp) (by simp) fun _ h => h
  have hu : Keeps s u (onPages [0x0A, 0x13]) [2, 38, 48] [.cal, .legal] :=
    ((Keeps.refl s _ _ _).leaveJig (by simp) (by simp) (calRegs_onPages _ (by simp))).put F.SEA_STAT_SESSION _ (.inl (by decide))
  refine ⟨_, hexec, ?_, ?_, (State.log_legal _ _ _ _).1,
    ((hu.log _ _ _ (by simp) (by simp) (by simp) (eventRegs_onPages _ _ _ (by decide) (by simp))).bumpSeq 0x0A (.inl (by decide))).settle⟩
  · rw [State.sea, State.settle_get, State.bumpSeq_get_other _ _ _ (by decide), hlog.get F.SEA_STAT_SESSION (by decide)]
    exact State.setSea_sea _ _
  · have hsame : u.on F.CAL_STATUS_JIG = s.leaveJig.on F.CAL_STATUS_JIG := State.put_on_other _ _ _ _ (by decide)
    rw [State.settle_on, State.on, State.bumpSeq_get_other _ _ _ (by decide), ← State.on, hlog.on F.CAL_STATUS_JIG (by decide), hsame,
      s.leaveJig_off]

theorem exec_jigLeave_refused (s : State) (h : s.runs = true) (hsea : s.sea ≠ seJig) :
    Ends (exec .jigLeave s) fun t => t.get (hdrErrcode 0x0A) = 0x1E ∧ Keeps s t (errRegs 0x0A) [] [] := by
  obtain ⟨hcode, hkeep⟩ := s.err_recorded 0x0A 0x1E (by decide)
  have hexec : exec .jigLeave s = done (s.err 0x0A 0x1E) := by
    rw [exec_jigLeave s h, State.seaJigLeave, if_neg hsea]
    rfl
  exact ⟨_, hexec, hcode, hkeep.settle⟩

-- Lockout and SEAL_EN (R51, R497, R498)

theorem exec_lockoutEnd (s : State) :
    Ends (exec .lockoutEnd s) fun t => t.get F.SEA_SESS_LOCK_LEFT = 0 ∧ Keeps s t (among [A.SEA_SESS_LOCK]) [] [] :=
  ⟨_, rfl, State.put_get_same _ _ _ (by decide), ((Keeps.refl s _ _ _).put F.SEA_SESS_LOCK_LEFT 0 (by decide)).settle⟩

theorem exec_sealEn_low (s : State) :
    Ends (exec (.sealEnChange false) s) fun t =>
      t.sealEn = false ∧ t.privOpen = false ∧ (s.sea = seOpen ∨ s.sea = seJig → t.sea = seClosed)
      ∧ Keeps s t (onPages [0x0A, 0x13]) [2, 38, 48] [.sealEn, .cal, .legal] := by
  let u : State := { s with sealEn := false }
  have hkeep := u.closeSession_keeps
  have hlow : u.closeSession.sealEn = false := hkeep.parts .sealEn (by simp)
  refine ⟨u.closeSession.settle, rfl, hlow, by rw [State.privOpen, State.settle_sealEn, hlow]; rfl,
    fun hsea => (u.closeSession_spec hsea).1, ?_⟩
  exact (((Keeps.refl s _ _ _).withSealEn false (by simp)).trans
    (hkeep.mono (fun _ h => h) (fun _ h => h) fun _ h => List.mem_cons_of_mem _ h)).settle

theorem exec_sealEn_high (s : State) :
    Ends (exec (.sealEnChange true) s) fun t => t.sealEn = true ∧ Keeps s t (among []) [] [.sealEn] :=
  ⟨_, rfl, rfl, ((Keeps.refl s _ _ _).withSealEn true (by simp)).settle⟩

/-- Settles O23, clause by clause. -/
theorem sealSessions : Obligations.SealSessions :=
  ⟨exec_challenge_drawn, exec_challenge_refused, exec_verify_started, exec_verify_sealed, exec_verifyDone, exec_close_open, exec_close_jig,
    exec_sessionExpiry, exec_jigEnter_entered, exec_jigEnter_refused, exec_jigLeave_left, exec_jigLeave_refused, exec_challengeExpiry,
    exec_lockoutEnd, exec_sealEn_low, exec_sealEn_high⟩

end Sys2Proof.Machine

/-! Modulator guards, alarms, enables and tests (O12). -/
namespace Sys2Proof.Machine

section
variable {s t : State} {R : Nat → Prop} {E : List Nat} {P : List Part}

theorem Keeps.withMs (h : Keeps s t R E P) (x : Measure) (hp : Part.ms ∈ P) : Keeps s { t with ms := x } R E P :=
  h.fields fun p hp' => by cases p <;> simp_all [Part.same, State.sramByte]

theorem Keeps.withRcm (h : Keeps s t R E P) (x : List (Nat × Rcm)) (hp : Part.rcm ∈ P) : Keeps s { t with rcm := x } R E P :=
  h.fields fun p hp' => by cases p <;> simp_all [Part.same, State.sramByte]

theorem Keeps.setGroup (h : Keeps s t R E P) (g : Nat) (x : SpareGroup) (hp : Part.ms ∈ P) : Keeps s (t.setGroup g x) R E P := h.withMs _ hp

/-- An event whose registers are all within the bounds. -/
theorem Keeps.eventWithin (h : Keeps s t R E P) (p b u : Nat) (he : 2 ∈ E) (hR : ∀ a, eventRegs p b a → R a) :
    Keeps s (t.event p b u) R E P :=
  h.event p b u he (fun a ha => hR a (.inr ha)) (hR _ (.inl (.inl rfl))) (hR _ (.inl (.inr rfl)))

end

/-- A one-bit field reads back the truth value put into it. -/
theorem State.put_on_bool (s : State) (f : Fld) (b : Bool) (hw : f.wid = 1) (h : f.lsb + f.wid ≤ 32) : (s.put f b.toNat).on f = b := by
  rw [State.on, State.put_get_same _ _ _ h, hw]
  cases b <;> rfl

/-- A FAULT frame touches no part of the state. -/
theorem State.faultFrame_part (s : State) (code : Nat) (on : Bool) (cause u l : Nat) (p : Part) : p.same s (s.faultFrame code on cause u l) :=
  s.emit_part _ _ _ _ _ p

theorem State.faultFrame_ms (s : State) (code : Nat) (on : Bool) (cause u l : Nat) : (s.faultFrame code on cause u l).ms = s.ms :=
  s.faultFrame_part code on cause u l .ms

theorem State.event_ms (s : State) (p b u : Nat) : (s.event p b u).ms = s.ms := s.event_part p b u .ms

theorem State.faultFrame_get (s : State) (code : Nat) (on : Bool) (cause u l : Nat) (f : Fld) (hf : ¬ lostRegs f.addr) :
    (s.faultFrame code on cause u l).get f = s.get f := s.emit_get _ _ _ _ _ f hf

@[simp] theorem State.settle_group (s : State) (g : Nat) : s.settle.group g = s.group g := rfl
@[simp] theorem State.settle_modFail (s : State) (m : Nat) : s.settle.modFail m = s.modFail m := rfl
@[simp] theorem State.settle_carried (s : State) (m : Nat) : s.settle.carried m = s.carried m := rfl
@[simp] theorem State.settle_spareFail (s : State) (g : Nat) : s.settle.spareFail g = s.spareFail g := rfl
@[simp] theorem State.settle_chEn (s : State) (c : Nat) : s.settle.chEn c = s.chEn c := rfl

-- The modulator groups and what their spares do

theorem State.group_congr {s t : State} (h : t.ms.groups = s.ms.groups) (g : Nat) : t.group g = s.group g := by simp only [State.group, h]

@[simp] theorem State.setGroup_group_same (s : State) (g : Nat) (x : SpareGroup) : (s.setGroup g x).group g = x := spRead_spWrite_same _ _ _ _

theorem State.setGroup_group_other (s : State) (g i : Nat) (x : SpareGroup) (h : i ≠ g) : (s.setGroup g x).group i = s.group i :=
  spRead_spWrite_other _ _ _ _ _ h

@[simp] theorem State.release_group_same (s : State) (g : Nat) : (s.release g).group g = { s.group g with phase := .idle, unit := 0 } :=
  s.setGroup_group_same g _

theorem State.release_group_other (s : State) (g i : Nat) (h : i ≠ g) : (s.release g).group i = s.group i := s.setGroup_group_other g i _ h

section
variable {s t : State} {R : Nat → Prop} {E : List Nat} {P : List Part}

theorem Keeps.busy (h : Keeps s t R E P) (g m : Nat) (b : Bool) (hR : R A.AFE_TEST_STAT) : Keeps s (t.busy g m b) R E P :=
  (h.put _ _ hR).put (bitFld A.AFE_TEST_STAT (4 * g + 3)) _ hR

theorem Keeps.release (h : Keeps s t R E P) (g : Nat) (hp : Part.ms ∈ P) (hR : R A.AFE_TEST_STAT) : Keeps s (t.release g) R E P :=
  (h.setGroup _ _ hp).busy _ _ _ hR

theorem Keeps.startCheck (h : Keeps s t R E P) (m : Nat) (hp : Part.ms ∈ P) (hR : R A.AFE_TEST_STAT) : Keeps s (t.startCheck m) R E P :=
  (h.setGroup _ _ hp).busy _ _ _ hR

theorem Keeps.replayDue (h : Keeps s t R E P) (m : Nat) (hp : Part.ms ∈ P) : Keeps s (t.replayDue m) R E P := by
  unfold State.replayDue
  split
  · exact h.withMs _ hp
  · exact h

end

/-- A release touches no register but TEST_STAT. -/
theorem State.release_keeps (s : State) (g : Nat) : Keeps s (s.release g) (fun a => a = A.AFE_TEST_STAT) [] [.ms] :=
  (Keeps.refl s _ _ _).release g (by simp) rfl

-- The bits of a 64-bit mask, and MOD_FAIL among them (R112)

theorem bitFld64_addr (a i : Nat) : (bitFld64 a i).addr = a ∨ (bitFld64 a i).addr = a + 4 := by
  unfold bitFld64
  split
  · exact .inl rfl
  · exact .inr rfl

/-- What holds of both words of a mask holds of the word that has its bit i. -/
theorem bitFld64_within (R : Nat → Prop) {a : Nat} (h0 : R a) (h1 : R (a + 4)) (i : Nat) : R (bitFld64 a i).addr := by
  rcases bitFld64_addr a i with h | h <;> rwa [h]

theorem bitFld64_wid (a i : Nat) : (bitFld64 a i).wid = 1 := by unfold bitFld64; split <;> rfl

theorem bitFld64_fits (a : Nat) {i : Nat} (h : i < 64) : (bitFld64 a i).lsb + (bitFld64 a i).wid ≤ 32 := by
  unfold bitFld64
  split <;> dsimp only <;> omega

theorem bitFld64_apart (a : Nat) {i j : Nat} (h : i ≠ j) :
    (bitFld64 a j).addr ≠ (bitFld64 a i).addr ∨ (bitFld64 a i).lsb + (bitFld64 a i).wid ≤ (bitFld64 a j).lsb
      ∨ (bitFld64 a j).lsb + (bitFld64 a j).wid ≤ (bitFld64 a i).lsb := by
  unfold bitFld64
  split <;> split <;> dsimp only <;> omega

/-- A modulator's flag is in MOD_FAIL alone. -/
theorem State.modFail_congr {s t : State} (h0 : t.reg A.AFE_MOD_FAIL_LO = s.reg A.AFE_MOD_FAIL_LO)
    (h1 : t.reg (A.AFE_MOD_FAIL_LO + 4) = s.reg (A.AFE_MOD_FAIL_LO + 4)) (m : Nat) : t.modFail m = s.modFail m := by
  rcases bitFld64_addr A.AFE_MOD_FAIL_LO m with h | h <;> simp only [State.modFail, modFailF, State.on, State.get, h, h0, h1]

theorem Keeps.modFail {s t : State} {R : Nat → Prop} {E : List Nat} {P : List Part} (h : Keeps s t R E P) (h0 : ¬ R A.AFE_MOD_FAIL_LO)
    (h1 : ¬ R (A.AFE_MOD_FAIL_LO + 4)) (m : Nat) : t.modFail m = s.modFail m := State.modFail_congr (h.regs _ h0) (h.regs _ h1) m

-- A modulator fails and its group's spare takes its channel (R104, R109)

theorem Keeps.bgForget {s t : State} {R : Nat → Prop} {E : List Nat} {P : List Part} (h : Keeps s t R E P) (m : Nat) (hp : Part.cal ∈ P)
    (hR : ∀ a, a / 4096 = 0x13 → R a) : Keeps s (t.bgForget m) R E P := by
  unfold State.bgForget
  refine List.foldlRecOn (motive := fun u => Keeps s u R E P) _ _ (h.withCal _ hp) fun u hu c hc => ?_
  have hlt : c < 64 := List.mem_range.mp hc
  have hconv : (bitFld64 A.CAL_CONV_LO c).addr / 4096 = 0x13 := bitFld64_within (fun a => a / 4096 = 0x13) rfl rfl c
  have hgain : A.CAL_BG_QUAL_GAIN c / 4096 = 0x13 := by unfold A.CAL_BG_QUAL_GAIN; omega
  have hphase : A.CAL_BG_QUAL_PHASE c / 4096 = 0x13 := by unfold A.CAL_BG_QUAL_PHASE; omega
  exact Keeps.ite (((hu.put _ _ (hR _ hconv)).setReg _ _ (hR _ hgain)).setReg _ _ (hR _ hphase)) hu

/-- What background calibration forgets is in CAL, its registers and its history. -/
theorem State.bgForget_keeps (s : State) (m : Nat) : Keeps s (s.bgForget m) (fun a => a / 4096 = 0x13) [] [.cal] :=
  (Keeps.refl s _ _ _).bgForget m (by simp) fun _ h => h

/-- The flags of a modulator that fails: its own, and the spare's permanent assignment to it. -/
def State.markFailed (s : State) (m : Nat) : State :=
  ((s.put (modFailF m) 1).put (spareModF (m / 8)) (m % 8)).put (spareUsedF (m / 8)) 1

theorem State.failMod_eq (s : State) (m : Nat) :
    s.failMod m = (((s.markFailed m).setGroup (m / 8) { s.group (m / 8) with phase := .idle, unit := 0 }).bgForget m).event 0x10 0 m := rfl

theorem State.markFailed_modFail (s : State) {m : Nat} (h : m < 64) : (s.markFailed m).modFail m = true := by
  have haddr : (modFailF m).addr ≠ A.AFE_SPARE_MAP := bitFld64_within (· ≠ A.AFE_SPARE_MAP) (by decide) (by decide) m
  rw [State.markFailed, State.modFail, State.put_on_other _ _ _ _ haddr, State.put_on_other _ _ _ _ haddr]
  exact s.put_on_bool (modFailF m) true (bitFld64_wid _ _) (bitFld64_fits _ h)

theorem State.markFailed_carried (s : State) {m : Nat} (h : m < 64) : (s.markFailed m).carried m = true := by
  have hused : (s.markFailed m).spareUsed (m / 8) = true :=
    State.put_on_bool _ (spareUsedF (m / 8)) true rfl (by simp only [spareUsedF, bitFld]; omega)
  have hmod : (s.markFailed m).get (spareModF (m / 8)) = m % 8 := by
    rw [State.markFailed, State.put_get_apart _ _ _ _ (by simp only [spareUsedF, bitFld]; omega)
      (by simp only [spareUsedF, spareModF, bitFld]; omega), State.put_get_same _ _ _ (by simp only [spareModF]; omega)]
    exact Nat.mod_eq_of_lt (Nat.mod_lt _ (by decide))
  rw [State.carried, hused, State.spareMod, hmod]
  simp only [Bool.true_and, beq_iff_eq]
  omega

section
variable {s t : State} {R : Nat → Prop} {E : List Nat} {P : List Part}

theorem Keeps.markFailed (h : Keeps s t R E P) (m : Nat) (h0 : R A.AFE_MOD_FAIL_LO) (h1 : R (A.AFE_MOD_FAIL_LO + 4)) (h2 : R A.AFE_SPARE_MAP) :
    Keeps s (t.markFailed m) R E P :=
  ((h.put (modFailF m) _ (bitFld64_within R h0 h1 m)).put (spareModF (m / 8)) _ h2).put (spareUsedF (m / 8)) _ h2

theorem Keeps.failMod (h : Keeps s t R E P) (m : Nat) (he : 2 ∈ E) (hms : Part.ms ∈ P) (hcal : Part.cal ∈ P)
    (hR : ∀ a, onPages [0x10, 0x13] a → R a) : Keeps s (t.failMod m) R E P := by
  rw [State.failMod_eq]
  have hafe := (h.markFailed m (hR _ (.inl (by decide))) (hR _ (.inl (by decide))) (hR _ (.inl (by decide)))).setGroup (m / 8)
    { t.group (m / 8) with phase := .idle, unit := 0 } hms
  exact (hafe.bgForget m hcal fun a ha => hR a (.inl (by simp [ha]))).eventWithin 0x10 0 m he fun a ha =>
    hR a (eventRegs_onPages 0x10 0 _ (by decide) (by simp) a ha)

theorem Keeps.failSpare (h : Keeps s t R E P) (g : Nat) (he : 2 ∈ E) (hR : ∀ a, onPages [0x10] a → R a) : Keeps s (t.failSpare g) R E P :=
  (h.put (spareFailF g) 1 (hR A.AFE_SPARE_FAIL (.inl (by decide)))).eventWithin 0x10 1 _ he fun a ha =>
    hR a (eventRegs_onPages 0x10 1 _ (by decide) (by simp) a ha)

end

/-- A field outside CAL and the event's record reads after a failure as when the failure was marked. -/
theorem State.failMod_get (s : State) (m : Nat) (f : Fld) (hpage : f.addr / 4096 ≠ 0x13) (hevent : ¬ eventRegs 0x10 0 f.addr) :
    (s.failMod m).get f = (s.markFailed m).get f := by
  rw [State.failMod_eq, State.event_get _ _ _ _ _ hevent, (State.bgForget_keeps _ m).get f hpage]
  rfl

/-- A failed modulator: its flag, the spare carrying it for good, MOD_FAIL raised (R104, R109). -/
theorem State.failMod_spec (s : State) {m : Nat} (h : m < 64) :
    (s.failMod m).modFail m = true ∧ (s.failMod m).carried m = true ∧ (s.failMod m).get (hdrPend 0x10 0) = 1 := by
  have hget (f : Fld) (haddr : f.addr = A.AFE_MOD_FAIL_LO ∨ f.addr = A.AFE_MOD_FAIL_LO + 4 ∨ f.addr = A.AFE_SPARE_MAP) :
      (s.failMod m).get f = (s.markFailed m).get f := by
    apply s.failMod_get m f <;> rcases haddr with he | he | he <;> rw [he] <;> decide
  have hflag : (modFailF m).addr = A.AFE_MOD_FAIL_LO ∨ (modFailF m).addr = A.AFE_MOD_FAIL_LO + 4 := bitFld64_addr _ m
  refine ⟨?_, ?_, State.event_pend _ _ _ _ (by decide) (by decide)⟩
  · rw [State.modFail, State.on, hget _ (by tauto)]
    exact s.markFailed_modFail h
  · rw [State.carried, State.spareUsed, State.spareMod, State.on, hget _ (.inr (.inr rfl)), hget _ (.inr (.inr rfl))]
    exact s.markFailed_carried h

/-- A failure leaves of AFE's hidden state all but its group's phase. -/
theorem State.failMod_ms (s : State) (m : Nat) :
    (s.failMod m).ms = (s.setGroup (m / 8) { s.group (m / 8) with phase := .idle, unit := 0 }).ms := by
  rw [State.failMod_eq]
  exact (State.event_ms _ _ _ _).trans ((State.bgForget_keeps _ m).parts .ms (by simp))

theorem State.failMod_group (s : State) (m : Nat) : (s.failMod m).group (m / 8) = { s.group (m / 8) with phase := .idle, unit := 0 } := by
  rw [State.group_congr (congrArg Measure.groups (s.failMod_ms m)), State.setGroup_group_same]

/-- A failed spare: its flag, SPARE_FAIL raised (R104). -/
theorem State.failSpare_spec (s : State) {g : Nat} (h : g < 8) :
    (s.failSpare g).spareFail g = true ∧ (s.failSpare g).get (hdrPend 0x10 1) = 1 ∧ (s.failSpare g).ms = s.ms := by
  refine ⟨?_, State.event_pend _ _ _ _ (by decide) (by decide), State.event_ms _ _ _ _⟩
  rw [State.failSpare, State.spareFail, State.on, State.event_get _ _ _ _ _ (by show ¬ eventRegs 0x10 1 A.AFE_SPARE_FAIL; decide)]
  exact s.put_on_bool (spareFailF g) true rfl (by simp only [spareFailF, bitFld]; omega)

-- Run guards (R87)

theorem exec_runGuard (s : State) (m : Fin 72) (h : s.runs = true) :
    Ends (exec (.runGuard m) s) fun t =>
      t.ms = { s.ms with guards := spWrite (fun _ => 0) s.ms.guards m.val (spRead (fun _ => 0) s.ms.guards m.val + 1) }
      ∧ t.get (hdrPend 0x10 4) = 1 ∧ Keeps s t (eventRegs 0x10 4) [2] [.ms] := by
  have hexec : exec (.runGuard m) s = done (({ s with ms := { s.ms with
      guards := spWrite (fun _ => 0) s.ms.guards m.val (spRead (fun _ => 0) s.ms.guards m.val + 1) } } : State).event 0x10 4 m) := by
    show execRunGuard m s = _
    rw [execRunGuard, s.onFabric_runs _ h]
  exact ⟨_, hexec, State.event_ms _ _ _ _, State.event_pend _ _ _ _ (by decide) (by decide),
    (((Keeps.refl s _ _ _).withMs _ (by simp)).eventWithin 0x10 4 m (by simp) fun _ h => h).settle⟩

-- Monitor alarms (R107 to R111)

theorem Keeps.rcmHold {s t : State} {R : Nat → Prop} {E : List Nat} {P : List Part} (h : Keeps s t R E P) (m : Nat) (hp : Part.rcm ∈ P) :
    Keeps s (t.rcmHold m) R E P :=
  Keeps.foldl _ (fun _ _ hu => Keeps.ite (hu.withRcm _ hp) hu) _ t h

/-- A new alarm on modulator m is noted, and RCM holds the counters it feeds (R321). -/
def State.noteAlarm (s : State) (m : Nat) : State := ({ s with ms := { s.ms with alarms := s.ms.alarms ++ [m] } } : State).rcmHold m

theorem State.noteAlarm_ms (s : State) (m : Nat) : (s.noteAlarm m).ms = { s.ms with alarms := s.ms.alarms ++ [m] } :=
  ((Keeps.refl _ (among []) [] [.rcm]).rcmHold m (by simp)).parts .ms (by simp)

theorem State.noteAlarm_keeps (s : State) (m : Nat) : Keeps s (s.noteAlarm m) (among []) [] [.ms, .rcm] :=
  ((Keeps.refl s _ _ _).withMs _ (by simp)).rcmHold m (by simp)

theorem State.noteAlarm_group (s : State) (m g : Nat) : (s.noteAlarm m).group g = s.group g :=
  State.group_congr (by rw [s.noteAlarm_ms m]) g

/-- An alarm leaves a spare as free as it was. -/
theorem State.noteAlarm_spareFree (s : State) (m g : Nat) : (s.noteAlarm m).spareFree g = s.spareFree g := by
  have hon (f : Fld) : (s.noteAlarm m).on f = s.on f := (s.noteAlarm_keeps m).on f (by simp)
  simp only [State.spareFree, State.spareFail, State.spareUsed, hon, s.noteAlarm_group m g]

/-- A new alarm (R109 to R111): with a free spare a check starts, or under a bias alarm the modulator fails at once; else it is uncovered. -/
theorem State.modAlarm_eq (s : State) (m : Nat) (bias : Bool) :
    s.modAlarm m bias =
      if m < 64 ∧ s.spareFree (m / 8) = true then
        if bias then ((((s.noteAlarm m).startCheck m).replayDue m).busy (m / 8) 0 false).failMod m else (s.noteAlarm m).startCheck m
      else (s.noteAlarm m).uncover m := by
  show (if (decide (m < 64) && (s.noteAlarm m).spareFree (m / 8)) = true then _ else _) = _
  simp only [s.noteAlarm_spareFree, Bool.and_eq_true, decide_eq_true_eq]
  rfl

/-- An alarm on a watched stream that is in none (R107). -/
theorem exec_monitorAlarm (s : State) (x : Fin 88) (bias : Bool) (h : s.runs = true) (hwatch : s.watched x = true) (hnew : x.val ∉ s.ms.alarms) :
    exec (.monitorAlarm x bias) s = done (if x.val < 72 then s.modAlarm x bias else
      ((({ s with ms := { s.ms with alarms := s.ms.alarms ++ [x.val] } } : State).put (bitFld A.AFE_BSI_STAT (x - 72)) 1).event 0x10 3
        (x - 72)).faultFrame 0x03 true 0 (x - 72) noLog) := by
  have hcont : s.ms.alarms.contains x.val = false := by simpa using hnew
  show execMonitorAlarm x bias s = _
  rw [execMonitorAlarm, s.onFabric_runs _ h]
  simp only [hwatch, hcont, Bool.not_true, Bool.or_self, Bool.false_eq_true, if_false]
  exact (apply_ite done _ _ _).symm

theorem exec_monitorAlarm_bitstream (s : State) (x : Fin 88) (bias : Bool) (h : s.runs = true) (hx : 72 ≤ x.val) (hwatch : s.watched x = true)
    (hnew : x.val ∉ s.ms.alarms) :
    Ends (exec (.monitorAlarm x bias) s) fun t =>
      t.ms = { s.ms with alarms := s.ms.alarms ++ [x.val] } ∧ t.on (bitFld A.AFE_BSI_STAT (x.val - 72)) = true
      ∧ t.get (hdrPend 0x10 3) = 1 ∧ Keeps s t (fun a => a = A.AFE_BSI_STAT ∨ eventRegs 0x10 3 a) [2] [.ms] := by
  let v : State := { s with ms := { s.ms with alarms := s.ms.alarms ++ [x.val] } }
  let u := (v.put (bitFld A.AFE_BSI_STAT (x - 72)) 1).event 0x10 3 (x - 72)
  have hexec : exec (.monitorAlarm x bias) s = done (u.faultFrame 0x03 true 0 (x - 72) noLog) := by
    rw [exec_monitorAlarm s x bias h hwatch hnew, if_neg (by omega)]
  refine ⟨_, hexec, ?_, ?_, ?_, ?_⟩
  · rw [State.settle_ms, State.faultFrame_ms, State.event_ms, State.put_ms]
  · rw [State.settle_on, State.on, State.faultFrame_get _ _ _ _ _ _ _ (by show ¬ lostRegs A.AFE_BSI_STAT; decide),
      State.event_get _ _ _ _ _ (by show ¬ eventRegs 0x10 3 A.AFE_BSI_STAT; decide)]
    exact v.put_on_bool (bitFld A.AFE_BSI_STAT (x - 72)) true rfl (by simp only [bitFld]; omega)
  · rw [State.settle_get, State.faultFrame_get _ _ _ _ _ _ _ (by decide)]
    exact State.event_pend _ _ _ _ (by decide) (by decide)
  · exact (((((Keeps.refl s _ _ _).withMs _ (by simp)).put (bitFld A.AFE_BSI_STAT (x - 72)) 1 (.inl rfl)).eventWithin 0x10 3 (x - 72) (by simp)
      fun _ h => .inr h).faultFrame _ _ _ _ _ (by simp) fun _ h => .inr (.inr h)).settle

theorem exec_monitorAlarm_check (s : State) (x : Fin 88) (h : s.runs = true) (hx : x.val < 64) (hwatch : s.watched x = true)
    (hnew : x.val ∉ s.ms.alarms) (hfree : s.spareFree (x.val / 8) = true) :
    Ends (exec (.monitorAlarm x false) s) fun t =>
      t.ms.alarms = s.ms.alarms ++ [x.val] ∧ (t.group (x.val / 8)).phase = .check ∧ (t.group (x.val / 8)).unit = x.val
      ∧ (∀ g, g ≠ x.val / 8 → t.group g = s.group g) ∧ Keeps s t (fun a => a = A.AFE_TEST_STAT) [] [.ms, .rcm] := by
  have hexec : exec (.monitorAlarm x false) s = done ((s.noteAlarm x).startCheck x) := by
    rw [exec_monitorAlarm s x false h hwatch hnew, if_pos (by omega), s.modAlarm_eq, if_pos ⟨hx, hfree⟩, if_neg (by decide)]
  have hsame : (((s.noteAlarm x).startCheck x).settle.group (x.val / 8)) = _ := (s.noteAlarm x).setGroup_group_same (x.val / 8) _
  refine ⟨_, hexec, ?_, by rw [hsame], by rw [hsame], fun g hg => ?_, ?_⟩
  · exact congrArg Measure.alarms (s.noteAlarm_ms x)
  · exact ((s.noteAlarm x).setGroup_group_other _ _ _ hg).trans (s.noteAlarm_group x g)
  · have hnote : Keeps s (s.noteAlarm x) (fun a => a = A.AFE_TEST_STAT) [] [.ms, .rcm] :=
      (s.noteAlarm_keeps x).mono (fun _ h => (by simp at h)) (fun _ h => h) fun _ h => h
    exact (hnote.startCheck x (by simp) rfl).settle

theorem exec_monitorAlarm_bias (s : State) (x : Fin 88) (h : s.runs = true) (hx : x.val < 64) (hwatch : s.watched x = true)
    (hnew : x.val ∉ s.ms.alarms) (hfree : s.spareFree (x.val / 8) = true) :
    Ends (exec (.monitorAlarm x true) s) fun t =>
      t.modFail x = true ∧ t.carried x = true ∧ t.get (hdrPend 0x10 0) = 1 ∧ Keeps s t (onPages [0x10, 0x13]) [2] [.ms, .cal, .rcm] := by
  let u := (((s.noteAlarm x).startCheck x).replayDue x).busy (x / 8) 0 false
  have hexec : exec (.monitorAlarm x true) s = done (u.failMod x) := by
    rw [exec_monitorAlarm s x true h hwatch hnew, if_pos (by omega), s.modAlarm_eq, if_pos ⟨hx, hfree⟩, if_pos rfl]
  obtain ⟨hfail, hcarried, hpend⟩ := u.failMod_spec hx
  have hstat : onPages [0x10, 0x13] A.AFE_TEST_STAT := .inl (by decide)
  have hnote : Keeps s (s.noteAlarm x) (onPages [0x10, 0x13]) [2] [.ms, .cal, .rcm] :=
    (s.noteAlarm_keeps x).mono (fun _ h => (by simp at h)) (by simp) (by simp)
  exact ⟨_, hexec, by rw [State.settle_modFail, hfail], by rw [State.settle_carried, hcarried],
    by rw [State.settle_get, hpend],
    ((((hnote.startCheck x (by simp) hstat).replayDue x (by simp)).busy _ _ _ hstat).failMod x (by simp) (by simp) (by simp) fun _ h => h).settle⟩

theorem exec_monitorAlarm_uncovered (s : State) (x : Fin 88) (bias : Bool) (h : s.runs = true) (hx : x.val < 72) (hwatch : s.watched x = true)
    (hnew : x.val ∉ s.ms.alarms) (hbusy : x.val < 64 → s.spareFree (x.val / 8) = false) :
    Ends (exec (.monitorAlarm x bias) s) fun t =>
      t.ms.uncovered = s.ms.uncovered ++ [x.val] ∧ t.get (hdrPend 0x10 6) = 1 ∧ Keeps s t (eventRegs 0x10 6) [2] [.ms, .rcm] := by
  have hnone : ¬ (x.val < 64 ∧ s.spareFree (x.val / 8) = true) := fun ⟨hlt, hfree⟩ => by simp [hbusy hlt] at hfree
  have hexec : exec (.monitorAlarm x bias) s = done ((s.noteAlarm x).uncover x) := by
    rw [exec_monitorAlarm s x bias h hwatch hnew, if_pos hx, s.modAlarm_eq, if_neg hnone]
  have hms : ((s.noteAlarm x).uncover x).ms = { (s.noteAlarm x).ms with uncovered := (s.noteAlarm x).ms.uncovered ++ [x.val] } :=
    (State.faultFrame_ms _ _ _ _ _ _).trans (State.event_ms _ _ _ _)
  refine ⟨_, hexec, ?_, ?_, ?_⟩
  · rw [State.settle_ms, hms, s.noteAlarm_ms]
  · rw [State.settle_get, State.uncover, State.faultFrame_get _ _ _ _ _ _ _ (by decide)]
    exact State.event_pend _ _ _ _ (by decide) (by decide)
  · have hnote : Keeps s (s.noteAlarm x) (eventRegs 0x10 6) [2] [.ms, .rcm] :=
      (s.noteAlarm_keeps x).mono (fun _ h => (by simp at h)) (by simp) fun _ h => h
    exact (((hnote.withMs _ (by simp)).eventWithin 0x10 6 x (by simp) fun _ h => h).faultFrame _ _ _ _ _ (by simp) fun _ h => .inr h).settle

-- The verdict of a spare check (R109, R111)

/-- With no modulator of the group uncovered, a released spare starts no check. -/
theorem State.nextCheck_idle (s : State) (g : Nat) (h : ∀ m ∈ s.ms.uncovered, m / 8 ≠ g) : s.nextCheck g = s := by
  have hnone : (((List.range 8).map (8 * g + ·)).find? fun m => s.ms.uncovered.contains m) = none := by
    rw [List.find?_eq_none]
    intro m hm hcont
    obtain ⟨i, hi, rfl⟩ := List.mem_map.mp hm
    have hlt : i < 8 := List.mem_range.mp hi
    exact h (8 * g + i) (by simpa using hcont) (by omega)
  simp only [State.nextCheck, hnone]

theorem exec_spareCheckVerdict (s : State) (g : Fin 8) (spareAlarms : Bool) (h : s.runs = true) (hcheck : (s.group g).phase = .check) :
    exec (.spareCheckVerdict g spareAlarms) s = done (if spareAlarms = true then ((s.release g).event 0x10 2 (s.group g).unit).nextCheck g
      else ((s.replayDue (s.group g).unit).busy g 0 false).failMod (s.group g).unit) := by
  show execSpareCheckVerdict g spareAlarms s = _
  rw [execSpareCheckVerdict, s.onFabric_runs _ h]
  simp only [hcheck, ne_eq, not_true_eq_false, if_false]
  exact (apply_ite done _ _ _).symm

theorem exec_spareCheckVerdict_overload (s : State) (g : Fin 8) (h : s.runs = true) (hcheck : (s.group g).phase = .check)
    (hcovered : ∀ m ∈ s.ms.uncovered, m / 8 ≠ g.val) :
    Ends (exec (.spareCheckVerdict g true) s) fun t =>
      (t.group g).phase = .idle ∧ t.get (hdrPend 0x10 2) = 1 ∧ (∀ m, t.modFail m = s.modFail m)
      ∧ Keeps s t (fun a => a = A.AFE_TEST_STAT ∨ eventRegs 0x10 2 a) [2] [.ms] := by
  let u := (s.release g).event 0x10 2 (s.group g).unit
  have hms : u.ms = (s.release g).ms := State.event_ms _ _ _ _
  have hexec : exec (.spareCheckVerdict g true) s = done u := by
    rw [exec_spareCheckVerdict s g true h hcheck, if_pos rfl, State.nextCheck_idle _ _ (by rw [hms]; exact hcovered)]
  have hkeep : Keeps s u (fun a => a = A.AFE_TEST_STAT ∨ eventRegs 0x10 2 a) [2] [.ms] :=
    ((Keeps.refl s _ _ _).release g (by simp) (.inl rfl)).eventWithin 0x10 2 _ (by simp) fun _ h => .inr h
  refine ⟨_, hexec, ?_, State.event_pend _ _ _ _ (by decide) (by decide), fun m => ?_, hkeep.settle⟩
  · rw [State.settle_group, State.group_congr (congrArg Measure.groups hms), State.release_group_same]
  · rw [State.settle_modFail, hkeep.modFail (by decide) (by decide)]

theorem exec_spareCheckVerdict_failed (s : State) (g : Fin 8) (h : s.runs = true) (hcheck : (s.group g).phase = .check)
    (hunit : (s.group g).unit / 8 = g.val) :
    Ends (exec (.spareCheckVerdict g false) s) fun t =>
      (t.group g).phase = .idle ∧ t.modFail (s.group g).unit = true ∧ t.carried (s.group g).unit = true ∧ t.get (hdrPend 0x10 0) = 1
      ∧ Keeps s t (onPages [0x10, 0x13]) [2] [.ms, .cal] := by
  let m := (s.group g).unit
  let u := (s.replayDue m).busy g 0 false
  have hexec : exec (.spareCheckVerdict g false) s = done (u.failMod m) := by
    rw [exec_spareCheckVerdict s g false h hcheck, if_neg (by decide)]
  obtain ⟨hfail, hcarried, hpend⟩ := u.failMod_spec (show m < 64 by omega)
  have hgroup : ((u.failMod m).group g).phase = .idle := by rw [← hunit, u.failMod_group m]
  exact ⟨_, hexec, by rw [State.settle_group, hgroup], by rw [State.settle_modFail, hfail], by rw [State.settle_carried, hcarried],
    by rw [State.settle_get, hpend],
    ((((Keeps.refl s _ _ _).replayDue m (by simp)).busy _ _ _ (.inl (by decide))).failMod m (by simp) (by simp) (by simp) fun _ h => h).settle⟩

-- A stream's alarm clears (R108, R111)

/-- The stream leaves the alarms and, were it uncovered, its samples are valid again. -/
def State.clearAlarm (s : State) (x : Nat) : State :=
  { s with ms := { s.ms with alarms := s.ms.alarms.filter (· != x), uncovered := s.ms.uncovered.filter (· != x) } }

theorem exec_streamAlarmClear (s : State) (x : Fin 88) (h : s.runs = true) (halarm : x.val ∈ s.ms.alarms) :
    exec (.streamAlarmClear x) s = done (
      if 72 ≤ x.val then ((s.clearAlarm x).put (bitFld A.AFE_BSI_STAT (x - 72)) 0).faultFrame 0x03 false 0 (x - 72) noLog
      else if s.ms.uncovered.contains x.val then (s.clearAlarm x).faultFrame 0x01 false 0 x noLog else s.clearAlarm x) := by
  have hcont : s.ms.alarms.contains x.val = true := by simpa using halarm
  show execStreamAlarmClear x s = _
  rw [execStreamAlarmClear, s.onFabric_runs _ h]
  simp only [hcont, Bool.not_true, Bool.false_eq_true, if_false, apply_ite done]
  rfl

theorem exec_streamAlarmClear_modulator (s : State) (x : Fin 88) (h : s.runs = true) (halarm : x.val ∈ s.ms.alarms) (hx : x.val < 72) :
    Ends (exec (.streamAlarmClear x) s) fun t =>
      t.ms = { s.ms with alarms := s.ms.alarms.filter (· != x.val), uncovered := s.ms.uncovered.filter (· != x.val) }
      ∧ Keeps s t lostRegs [2] [.ms] := by
  let u := if s.ms.uncovered.contains x.val then (s.clearAlarm x).faultFrame 0x01 false 0 x noLog else s.clearAlarm x
  have hexec : exec (.streamAlarmClear x) s = done u := by
    rw [exec_streamAlarmClear s x h halarm, if_neg (by omega)]
  have hclear : Keeps s (s.clearAlarm x) lostRegs [2] [.ms] := (Keeps.refl s _ _ _).withMs _ (by simp)
  have hms : u.ms = (s.clearAlarm x).ms := by
    simp only [u]
    split
    · exact State.faultFrame_ms _ _ _ _ _ _
    · rfl
  exact ⟨_, hexec, by rw [State.settle_ms, hms]; rfl, (Keeps.ite (hclear.faultFrame _ _ _ _ _ (by simp) fun _ h => h) hclear).settle⟩

theorem exec_streamAlarmClear_bitstream (s : State) (x : Fin 88) (h : s.runs = true) (halarm : x.val ∈ s.ms.alarms) (hx : 72 ≤ x.val) :
    Ends (exec (.streamAlarmClear x) s) fun t =>
      x.val ∉ t.ms.alarms ∧ t.on (bitFld A.AFE_BSI_STAT (x.val - 72)) = false
      ∧ Keeps s t (fun a => a = A.AFE_BSI_STAT ∨ lostRegs a) [2] [.ms] := by
  let f := bitFld A.AFE_BSI_STAT (x - 72)
  have hexec : exec (.streamAlarmClear x) s = done (((s.clearAlarm x).put f 0).faultFrame 0x03 false 0 (x - 72) noLog) := by
    rw [exec_streamAlarmClear s x h halarm, if_pos hx]
  refine ⟨_, hexec, ?_, ?_, ?_⟩
  · rw [State.settle_ms, State.faultFrame_ms, State.put_ms]
    simp [State.clearAlarm]
  · rw [State.settle_on, State.on, State.faultFrame_get _ _ _ _ _ _ f (by show ¬ lostRegs A.AFE_BSI_STAT; decide)]
    exact State.put_on_bool _ f false rfl (by simp only [f, bitFld]; omega)
  · exact ((((Keeps.refl s _ _ _).withMs _ (by simp)).put f 0 (.inl rfl)).faultFrame _ _ _ _ _ (by simp) fun _ h => .inr h).settle

-- Channels follow their enables (R96, R97)

/-- The registers that a channel's start or stop touches: DEC's SETTLE and AFE's TEST_STAT. -/
abbrev syncRegs (a : Nat) : Prop := among [A.DEC_SETTLE_LO, A.DEC_SETTLE_LO + 4, A.AFE_TEST_STAT] a

theorem syncRegs_page {a : Nat} (h : syncRegs a) : a / 4096 = 0x10 ∨ a / 4096 = 0x11 := by
  simp only [List.mem_cons, List.not_mem_nil, or_false] at h
  rcases h with rfl | rfl | rfl <;> decide

section
variable {s t : State} {R : Nat → Prop} {E : List Nat} {P : List Part}

theorem Keeps.putSettle (h : Keeps s t R E P) (c v : Nat) (hR : ∀ a, syncRegs a → R a) : Keeps s (t.put (settleF c) v) R E P :=
  h.put (settleF c) _ (bitFld64_within R (hR _ (by simp)) (hR _ (by simp)) c)

theorem Keeps.chStart (h : Keeps s t R E P) (c : Nat) (hms : Part.ms ∈ P) (hrcm : Part.rcm ∈ P) (hR : ∀ a, syncRegs a → R a) :
    Keeps s (t.chStart c) R E P := by
  unfold State.chStart
  exact ((h.putSettle c 1 hR).withMs _ hms).withRcm _ hrcm

theorem Keeps.chStop (h : Keeps s t R E P) (c : Nat) (hms : Part.ms ∈ P) (hR : ∀ a, syncRegs a → R a) : Keeps s (t.chStop c) R E P := by
  have hstop := h.putSettle c 0 hR
  unfold State.chStop
  exact Keeps.ite ((hstop.withMs _ hms).release _ hms (hR _ (by simp))) (hstop.withMs _ hms)

theorem Keeps.syncChannels (h : Keeps s t R E P) (hms : Part.ms ∈ P) (hrcm : Part.rcm ∈ P) (hR : ∀ a, syncRegs a → R a) :
    Keeps s t.syncChannels R E P :=
  Keeps.foldl _ (fun _ c hu => Keeps.ite hu (Keeps.ite (hu.chStart c hms hrcm hR) (hu.chStop c hms hR))) _ t h

end

theorem State.syncChannels_keeps (s : State) : Keeps s s.syncChannels syncRegs [] [.ms, .rcm] :=
  (Keeps.refl s _ _ _).syncChannels (by simp) (by simp) fun _ h => h

-- The start-up test (R99, R100)

/-- Did unit m of the start-up test fail? One without a result did not. -/
def testBad (results : List OffLine) (m : Nat) : Bool :=
  match results[m]? with
  | some o => !offLinePass o
  | none => false

theorem testBad_of_result {results : List OffLine} {m : Nat} {o : OffLine} (h : results[m]? = some o) : testBad results m = !offLinePass o := by
  simp only [testBad, h]

/-- The flags of the first n modulators, from the verdicts. -/
def State.flagMods (s : State) (bad : Nat → Bool) (n : Nat) : State :=
  (List.range n).foldl (fun s m => s.put (modFailF m) (bad m).toNat) s

/-- The flag of a group's spare and what it is assigned to for good: the lowest failed modulator, unless it failed itself. -/
def State.judgeSpare (s : State) (bad : Nat → Bool) (g : Nat) : State :=
  let s := s.put (spareFailF g) (bad (64 + g)).toNat
  match (if bad (64 + g) then none else (List.range 8).find? fun i => bad (8 * g + i)) with
  | some i => ((s.put (spareModF g) i).put (spareUsedF g) 1).bgForget (8 * g + i)
  | none => (s.put (spareModF g) 0).put (spareUsedF g) 0

/-- The groups as the start-up test leaves them: nothing under way, flags and assignments from the verdicts. -/
def State.judgeGroups (s : State) (bad : Nat → Bool) : State :=
  (List.range 8).foldl (fun s g => s.judgeSpare bad g)
    (State.flagMods { s with ms := { s.ms with groups := [], alarms := [], uncovered := [] } } bad 64)

theorem State.startTest_eq (s : State) (results : List OffLine) :
    s.startTest results = (((s.judgeGroups (testBad results)).put F.AFE_STATUS_START_TEST_DONE 1).event 0x10 5 noUnit).syncChannels := rfl

theorem State.flagMods_modFail (s : State) (bad : Nat → Bool) {n m : Nat} (hn : n ≤ 64) (hm : m < n) :
    (s.flagMods bad n).modFail m = bad m := by
  induction n with
  | zero => omega
  | succ n ih =>
    have hlast : s.flagMods bad (n + 1) = (s.flagMods bad n).put (modFailF n) (bad n).toNat := by
      rw [State.flagMods, List.range_succ, List.foldl_concat, State.flagMods]
    rw [hlast]
    by_cases hmn : m = n
    · rw [hmn]
      exact State.put_on_bool _ (modFailF n) (bad n) (bitFld64_wid _ _) (bitFld64_fits _ (by omega))
    · have hget := State.put_get_apart (s.flagMods bad n) (modFailF n) (modFailF m) (bad n).toNat (bitFld64_fits _ (by omega))
        (bitFld64_apart _ (Ne.symm hmn))
      rw [← ih (by omega) (by omega), State.modFail, State.modFail, State.on, State.on, hget]

section
variable {s t : State} {R : Nat → Prop} {E : List Nat} {P : List Part}

theorem Keeps.flagMods (h : Keeps s t R E P) (bad : Nat → Bool) (n : Nat) (h0 : R A.AFE_MOD_FAIL_LO) (h1 : R (A.AFE_MOD_FAIL_LO + 4)) :
    Keeps s (t.flagMods bad n) R E P :=
  Keeps.foldl _ (fun _ m hu => hu.put (modFailF m) _ (bitFld64_within R h0 h1 m)) _ t h

theorem Keeps.judgeSpare (h : Keeps s t R E P) (bad : Nat → Bool) (g : Nat) (hcal : Part.cal ∈ P) (h0 : R A.AFE_SPARE_FAIL)
    (h1 : R A.AFE_SPARE_MAP) (hR : ∀ a, a / 4096 = 0x13 → R a) : Keeps s (t.judgeSpare bad g) R E P := by
  have hflag := h.put (spareFailF g) (bad (64 + g)).toNat h0
  unfold State.judgeSpare
  dsimp only
  split
  · exact ((hflag.put (spareModF g) _ h1).put (spareUsedF g) _ h1).bgForget _ hcal hR
  · exact (hflag.put (spareModF g) _ h1).put (spareUsedF g) _ h1

end

theorem State.judgeGroups_keeps (s : State) (bad : Nat → Bool) : Keeps s (s.judgeGroups bad) (onPages [0x10, 0x11, 0x13]) [2] [.ms, .cal, .rcm] :=
  Keeps.foldl _ (fun _ g hu => hu.judgeSpare bad g (by simp) (.inl (by decide)) (.inl (by decide)) fun _ ha => .inl (by simp [ha])) _ _
    (((Keeps.refl s _ _ _).withMs _ (by simp)).flagMods bad 64 (.inl (by decide)) (.inl (by decide)))

/-- The spares' assignments leave the modulators' flags as the verdicts set them. -/
theorem State.judgeGroups_modFail (s : State) (bad : Nat → Bool) {m : Nat} (hm : m < 64) : (s.judgeGroups bad).modFail m = bad m := by
  let u := State.flagMods { s with ms := { s.ms with groups := [], alarms := [], uncovered := [] } } bad 64
  have hkeep : Keeps u (s.judgeGroups bad) (fun a => among [A.AFE_SPARE_FAIL, A.AFE_SPARE_MAP] a ∨ a / 4096 = 0x13) [] [.cal] :=
    Keeps.foldl _ (fun _ g hu => hu.judgeSpare bad g (by simp) (.inl (by simp)) (.inl (by simp)) fun _ ha => .inr ha) _ u (Keeps.refl u _ _ _)
  rw [hkeep.modFail (by decide) (by decide)]
  exact State.flagMods_modFail _ bad (Nat.le_refl 64) hm

theorem exec_afeStartTestDone (s : State) (results : List OffLine) (h : s.runs = true) (hfirst : s.on F.AFE_STATUS_START_TEST_DONE = false)
    (_hlen : results.length = 72) :
    Ends (exec (.afeStartTestDone results) s) fun t =>
      t.on F.AFE_STATUS_START_TEST_DONE = true ∧ t.get (hdrPend 0x10 5) = 1
      ∧ (∀ m (_ : m < 64) (o : OffLine), results[m]? = some o → t.modFail m = !offLinePass o)
      ∧ Keeps s t (onPages [0x10, 0x11, 0x13]) [2] [.ms, .cal, .rcm] := by
  let v := (s.judgeGroups (testBad results)).put F.AFE_STATUS_START_TEST_DONE 1
  let u := v.event 0x10 5 noUnit
  have hexec : exec (.afeStartTestDone results) s = done u.syncChannels := by
    show execAfeStartTestDone results s = _
    rw [execAfeStartTestDone, s.onFabric_runs _ h]
    simp only [hfirst, Bool.false_eq_true, if_false, State.startTest_eq, u, v]
  refine ⟨_, hexec, ?_, ?_, fun m hm o ho => ?_, ?_⟩
  · rw [State.settle_on, u.syncChannels_keeps.on _ (by decide), State.on, State.event_get _ _ _ _ _ (by decide)]
    exact State.put_on_bool _ F.AFE_STATUS_START_TEST_DONE true rfl (by decide)
  · rw [State.settle_get, u.syncChannels_keeps.get _ (by decide)]
    exact State.event_pend _ _ _ _ (by decide) (by decide)
  · have hevent : Keeps v u (eventRegs 0x10 5) [2] [] := (Keeps.refl v _ _ _).eventWithin 0x10 5 _ (by simp) fun _ h => h
    have hdone : v.modFail m = (s.judgeGroups (testBad results)).modFail m :=
      State.modFail_congr (State.put_reg_other _ _ _ _ (by decide)) (State.put_reg_other _ _ _ _ (by decide)) m
    rw [State.settle_modFail, u.syncChannels_keeps.modFail (by decide) (by decide), hevent.modFail (by decide) (by decide), hdone,
      State.judgeGroups_modFail _ _ hm, testBad_of_result ho]
  · have hsync (a : Nat) (ha : syncRegs a) : onPages [0x10, 0x11, 0x13] a :=
      .inl (by rcases syncRegs_page ha with hp | hp <;> simp [hp])
    exact ((((s.judgeGroups_keeps _).put F.AFE_STATUS_START_TEST_DONE 1 (.inl (by decide))).eventWithin 0x10 5 noUnit (by simp) fun a ha =>
      eventRegs_onPages 0x10 5 _ (by decide) (by simp) a ha).syncChannels (by simp) (by simp) hsync).settle

-- Test slots (R101 to R106)

/-- The modulator in turn is one of its group. -/
theorem State.turnOf_group {s : State} {g m : Nat} (h : s.turnOf g = some m) : m / 8 = g := by
  obtain ⟨i, -, rfl⟩ := List.mem_map.mp (List.mem_of_find?_eq_some h)
  omega

/-- The turn of group g passes on from modulator m, which is stood in for. -/
def State.takeTurn (s : State) (g m : Nat) : State :=
  let s := s.setGroup g { s.group g with turn := (m + 1) % 8 }
  { s with ms := { s.ms with stand := m :: s.ms.stand } }

theorem State.takeTurn_turn (s : State) (g m : Nat) : ((s.takeTurn g m).group g).turn = (m + 1) % 8 := by
  show ((s.setGroup g _).group g).turn = _
  rw [State.setGroup_group_same]

/-- What a slot that nothing touched ends in: the spare released, and then the modulator or the spare failed where a test did not pass. -/
theorem State.slotVerdict_untouched (s : State) (g m : Nat) (r : SlotRun) (h : r.touched = none) :
    s.slotVerdict g m r = if offLinePass r.offline then
      if shadowPass r.forward then (if shadowPass r.back then s.release g else (s.release g).failMod m) else (s.release g).failSpare g
    else (s.release g).failMod m := by
  simp only [State.slotVerdict, h]

theorem State.slotVerdict_cases (s : State) (g m : Nat) (r : SlotRun) (h : r.touched = none) :
    s.slotVerdict g m r = s.release g ∨ s.slotVerdict g m r = (s.release g).failMod m ∨ s.slotVerdict g m r = (s.release g).failSpare g := by
  rw [s.slotVerdict_untouched g m r h]
  split_ifs <;> simp

/-- Whatever its outcome, a slot's verdict keeps the group's turn and the list of those stood in for. -/
theorem State.slotVerdict_ms (s : State) {g m : Nat} (r : SlotRun) (h : r.touched = none) (hm : m / 8 = g) :
    (s.slotVerdict g m r).ms.stand = s.ms.stand ∧ ((s.slotVerdict g m r).group g).turn = (s.group g).turn := by
  rcases s.slotVerdict_cases g m r h with heq | heq | heq <;> rw [heq]
  · exact ⟨rfl, by rw [State.release_group_same]⟩
  · subst hm
    exact ⟨by rw [State.failMod_ms]; rfl, by rw [State.failMod_group, State.release_group_same]⟩
  · have hms : ((s.release g).failSpare g).ms = (s.release g).ms := State.event_ms _ _ _ _
    exact ⟨by rw [hms]; rfl, by rw [State.group_congr (congrArg Measure.groups hms), State.release_group_same]⟩

theorem Keeps.slotVerdict {s t : State} (h : Keeps s t (onPages [0x10, 0x13]) [2] [.ms, .cal]) (g m : Nat) (r : SlotRun) (hr : r.touched = none) :
    Keeps s (t.slotVerdict g m r) (onPages [0x10, 0x13]) [2] [.ms, .cal] := by
  have hfree := h.release g (by simp) (.inl (by decide))
  rcases t.slotVerdict_cases g m r hr with heq | heq | heq <;> rw [heq]
  · exact hfree
  · exact hfree.failMod m (by simp) (by simp) (by simp) fun _ h => h
  · exact hfree.failSpare g (by simp) fun a ha => ha.imp_left fun h => by simp [List.mem_singleton.mp h]

/-- May group g run a test slot (R101)? -/
def State.slotOpen (s : State) (g : Nat) : Bool :=
  s.enabled 0x10 && s.on F.AFE_STATUS_START_TEST_DONE && s.on F.AFE_TEST_CFG_EN && !s.spareFail g && !s.spareUsed g
    && (s.group g).phase == .idle && !s.pf.warned

theorem exec_testSlot (s : State) (g : Fin 8) (run : SlotRun) (m : Nat) (h : s.runs = true) (hopen : s.slotOpen g = true)
    (hturn : s.turnOf g = some m) : exec (.testSlot g run) s = done ((s.takeTurn g m).slotVerdict g m run) := by
  unfold State.slotOpen at hopen
  show execTestSlot g run s = _
  rw [execTestSlot, s.onFabric_runs _ h]
  simp only [hopen, if_true, hturn]
  rfl

theorem exec_testSlot_untouched (s : State) (g : Fin 8) (run : SlotRun) (m : Nat) (h : s.runs = true) (hen : s.enabled 0x10 = true)
    (hdone : s.on F.AFE_STATUS_START_TEST_DONE = true) (htest : s.on F.AFE_TEST_CFG_EN = true) (hfail : s.spareFail g = false)
    (hused : s.spareUsed g = false) (hidle : (s.group g).phase = .idle) (hwarn : s.pf.warned = false) (hturn : s.turnOf g = some m)
    (hrun : run.touched = none) :
    Ends (exec (.testSlot g run) s) fun t =>
      t.ms.stand = m :: s.ms.stand ∧ (t.group g).turn = (m + 1) % 8
      ∧ (offLinePass run.offline = true → shadowPass run.forward = true → shadowPass run.back = true →
          (t.group g).phase = .idle ∧ ∀ x, t.modFail x = s.modFail x)
      ∧ (offLinePass run.offline = false → t.modFail m = true ∧ t.get (hdrPend 0x10 0) = 1)
      ∧ (offLinePass run.offline = true → shadowPass run.forward = false → t.spareFail g = true ∧ t.get (hdrPend 0x10 1) = 1)
      ∧ Keeps s t (onPages [0x10, 0x13]) [2] [.ms, .cal] := by
  let u := s.takeTurn g m
  have hopen : s.slotOpen g = true := by simp [State.slotOpen, hen, hdone, htest, hfail, hused, hidle, hwarn]
  have hgroup : m / 8 = g.val := State.turnOf_group hturn
  obtain ⟨hstand, hnext⟩ := u.slotVerdict_ms run hrun hgroup
  have hverdict := u.slotVerdict_untouched g m run hrun
  have htake : Keeps s u (onPages [0x10, 0x13]) [2] [.ms, .cal] := ((Keeps.refl s _ _ _).setGroup g _ (by simp)).withMs _ (by simp)
  refine ⟨_, exec_testSlot s g run m h hopen hturn, hstand, ?_, fun hoff hfwd hback => ?_, fun hoff => ?_,
    fun hoff hfwd => ?_, (htake.slotVerdict g m run hrun).settle⟩
  · rw [State.settle_group, hnext, s.takeTurn_turn]
  · rw [hverdict, if_pos hoff, if_pos hfwd, if_pos hback]
    refine ⟨by rw [State.settle_group, State.release_group_same], fun x => ?_⟩
    rw [State.settle_modFail, (u.release_keeps g).modFail (by decide) (by decide)]
    rfl
  · rw [hverdict, if_neg (by simp [hoff])]
    obtain ⟨hflag, -, hpend⟩ := (u.release g).failMod_spec (show m < 64 by omega)
    exact ⟨by rw [State.settle_modFail, hflag], by rw [State.settle_get, hpend]⟩
  · rw [hverdict, if_pos hoff, if_neg (by simp [hfwd])]
    obtain ⟨hflag, hpend, -⟩ := (u.release g).failSpare_spec g.isLt
    exact ⟨by rw [State.settle_spareFail, hflag], by rw [State.settle_get, hpend]⟩

-- A retried return comparison (R105)

theorem exec_returnCompareRetry_passed (s : State) (g : Fin 8) (back : List Int) (h : s.runs = true) (hretry : (s.group g).phase = .retry)
    (hback : shadowPass back = true) (hwarn : s.pf.warned = false) :
    Ends (exec (.returnCompareRetry g back false) s) fun t =>
      (t.group g).phase = .idle ∧ (∀ i, i ≠ g.val → t.group i = s.group i) ∧ Keeps s t (fun a => a = A.AFE_TEST_STAT) [] [.ms] := by
  have hexec : exec (.returnCompareRetry g back false) s = done (s.release g) := by
    show execReturnCompareRetry g back false s = _
    rw [execReturnCompareRetry, s.onFabric_runs _ h, if_pos ⟨hretry, hback, rfl, hwarn⟩]
  exact ⟨_, hexec, by rw [State.settle_group, State.release_group_same], fun i hi => s.release_group_other g i hi, (s.release_keeps g).settle⟩

-- A write of CH_EN (R96)

/-- The word of CH_EN for the lower or the upper 32 channels. -/
def chEnAddr (hi : Bool) : Nat := A.AFE_CH_EN_LO + if hi then 4 else 0

/-- A channel of that word has its enable there. -/
theorem State.chEn_word (s : State) (hi : Bool) {i : Nat} (h : i < 32) :
    s.chEn ((if hi then 32 else 0) + i) = (s.reg (chEnAddr hi)).toNat.testBit i := by
  have hfld : bitFld64 A.AFE_CH_EN_LO ((if hi then 32 else 0) + i) = ⟨chEnAddr hi, i, 1⟩ := by
    cases hi
    · simp [bitFld64, chEnAddr, h]
    · simp [bitFld64, chEnAddr]
  rw [State.chEn, hfld, State.on_one_bit]

/-- Is bit i of a CH_EN write set, though it was not and its source is unavailable? -/
def chEnRefused (old val base : Nat) (avail : Nat → Bool) (i : Nat) : Prop :=
  val.testBit i = true ∧ old.testBit i = false ∧ avail (base + i) = false

/-- The word that the first n bits of a CH_EN write give, and whether one of them is refused. -/
def chEnBits (old val base : Nat) (avail : Nat → Bool) (n : Nat) : Nat × Bool :=
  (List.range n).foldl (chEnBit old val base avail) (0, false)

theorem chEnBits_succ (old val base : Nat) (avail : Nat → Bool) (n : Nat) :
    chEnBits old val base avail (n + 1) = chEnBit old val base avail (chEnBits old val base avail n) n := by
  simp only [chEnBits, List.range_succ, List.foldl_concat]

/-- One bit of a write adds its power of two where it is set and takes effect, and notes a refusal. -/
theorem chEnBit_eq (old val base : Nat) (avail : Nat → Bool) (r : Nat × Bool) (i : Nat) :
    chEnBit old val base avail r i =
      ((if (val.testBit i && (old.testBit i || avail (base + i))) = true then 2 ^ i + r.1 else r.1),
        r.2 || (val.testBit i && !(old.testBit i || avail (base + i)))) := by
  unfold chEnBit
  cases val.testBit i <;> cases (old.testBit i || avail (base + i)) <;> simp [Nat.add_comm]

theorem chEnBits_spec (old val base : Nat) (avail : Nat → Bool) (n : Nat) :
    (chEnBits old val base avail n).1 < 2 ^ n
      ∧ (∀ i, i < n → (chEnBits old val base avail n).1.testBit i = (val.testBit i && (old.testBit i || avail (base + i))))
      ∧ ((∃ i, i < n ∧ chEnRefused old val base avail i) → (chEnBits old val base avail n).2 = true) := by
  induction n with
  | zero => exact ⟨Nat.one_pos, fun i hi => absurd hi (Nat.not_lt_zero i), fun ⟨i, hi, _⟩ => absurd hi (Nat.not_lt_zero i)⟩
  | succ n ih =>
    obtain ⟨hlt, hbits, hnoted⟩ := ih
    rw [chEnBits_succ, chEnBit_eq]
    refine ⟨?_, fun i hi => ?_, fun ⟨i, hi, hset, hold, hsrc⟩ => ?_⟩
    · rw [Nat.pow_succ]
      split <;> omega
    · rcases Nat.lt_succ_iff_lt_or_eq.mp hi with hin | rfl
      · rw [← hbits i hin]
        split
        · exact Nat.testBit_two_pow_add_gt hin _
        · rfl
      · split
        · next htake => rw [Nat.testBit_two_pow_add_eq, Nat.testBit_lt_two_pow hlt, htake]; rfl
        · next hdrop => rw [Nat.testBit_lt_two_pow hlt]; simpa using hdrop
    · rcases Nat.lt_succ_iff_lt_or_eq.mp hi with hin | rfl
      · simp only [hnoted ⟨i, hin, hset, hold, hsrc⟩, Bool.true_or]
      · simp [hset, hold, hsrc]

/-- The word and the refusal of a CH_EN write in a state. -/
def State.chEnTaken (s : State) (hi : Bool) (val : W32) : Nat × Bool :=
  chEnBits (s.reg (chEnAddr hi)).toNat val.toNat (if hi then 32 else 0) s.available 32

theorem State.writeChEn_eq (s : State) (hi : Bool) (val : W32) :
    s.writeChEn hi val = if (s.chEnTaken hi val).2 = true
      then ((s.setReg (chEnAddr hi) (BitVec.ofNat 32 (s.chEnTaken hi val).1)).syncChannels).err 0x10 0x20
      else (s.setReg (chEnAddr hi) (BitVec.ofNat 32 (s.chEnTaken hi val).1)).syncChannels := rfl

theorem State.writeChEn_reg (s : State) (hi : Bool) (val : W32) :
    (s.writeChEn hi val).reg (chEnAddr hi) = BitVec.ofNat 32 (s.chEnTaken hi val).1 := by
  let u := s.setReg (chEnAddr hi) (BitVec.ofNat 32 (s.chEnTaken hi val).1)
  have hsync : u.syncChannels.reg (chEnAddr hi) = u.reg (chEnAddr hi) :=
    u.syncChannels_keeps.regs _ (by cases hi <;> decide)
  have herr : Keeps u.syncChannels (u.syncChannels.err 0x10 0x20) (errRegs 0x10) [] [] := (u.syncChannels.err_recorded 0x10 0x20 (by decide)).2
  rw [State.writeChEn_eq]
  split
  · rw [herr.regs _ (by cases hi <;> decide), hsync, State.setReg_reg_same]
  · rw [hsync, State.setReg_reg_same]

theorem State.writeChEn_code (s : State) (hi : Bool) (val : W32) (h : (s.chEnTaken hi val).2 = true) :
    (s.writeChEn hi val).get (hdrErrcode 0x10) = 0x20 := by
  rw [State.writeChEn_eq, if_pos h, State.err_code]

theorem Keeps.writeChEn {s t : State} (h : Keeps s t (inPages [0x10, 0x11]) [] [.ms, .rcm]) (hi : Bool) (val : W32) :
    Keeps s (t.writeChEn hi val) (inPages [0x10, 0x11]) [] [.ms, .rcm] := by
  have hsync (a : Nat) (ha : syncRegs a) : inPages [0x10, 0x11] a := by
    rcases syncRegs_page ha with hp | hp <;> simp [hp]
  have hset := (h.setReg (chEnAddr hi) (BitVec.ofNat 32 (t.chEnTaken hi val).1)
    (by cases hi <;> decide)).syncChannels (by simp) (by simp) hsync
  rw [State.writeChEn_eq]
  exact Keeps.ite (hset.err 0x10 0x20 (by decide) (by decide)) hset

/-- The sources of the channels do not depend on a page's error count. -/
theorem State.chEnTaken_put_errcount (s : State) (v : Nat) (hi : Bool) (val : W32) :
    (s.put (hdrErrcount 0x10) v).chEnTaken hi val = s.chEnTaken hi val := by
  have hon (f : Fld) (h : f.addr ≠ (hdrErrcount 0x10).addr) : (s.put (hdrErrcount 0x10) v).on f = s.on f := State.put_on_other _ _ _ _ h
  have hget (f : Fld) (h : f.addr ≠ (hdrErrcount 0x10).addr) : (s.put (hdrErrcount 0x10) v).get f = s.get f := State.put_get_other _ _ _ _ h
  have hsrc (c : Nat) : (s.put (hdrErrcount 0x10) v).src c = s.src c :=
    hget _ (by simp only [F.AFE_CH_CFG_SRC, hdrErrcount]; omega)
  have hfail (m : Nat) : (s.put (hdrErrcount 0x10) v).modFail m = s.modFail m :=
    State.modFail_congr (State.put_reg_other _ _ _ _ (by decide)) (State.put_reg_other _ _ _ _ (by decide)) m
  have hcarried (m : Nat) : (s.put (hdrErrcount 0x10) v).carried m = s.carried m := by
    simp only [State.carried, State.spareUsed, State.spareMod]
    rw [hon _ (show A.AFE_SPARE_MAP ≠ _ by decide), hget _ (show A.AFE_SPARE_MAP ≠ _ by decide)]
  have havail : (s.put (hdrErrcount 0x10) v).available = s.available := by
    funext c
    simp only [State.available, hsrc, hfail, hcarried]
    rw [hon _ (show A.AFE_MCLK_CFG ≠ _ by decide)]
  have hword : (s.put (hdrErrcount 0x10) v).reg (chEnAddr hi) = s.reg (chEnAddr hi) :=
    State.put_reg_other _ _ _ _ (by cases hi <;> decide)
  rw [State.chEnTaken, State.chEnTaken, havail, hword]

/-- The words of CH_EN: mapped, no half of a 64-bit register, one field of all 32 bits. -/
theorem findReg_chEn (hi : Bool) :
    mapped (chEnAddr hi) = true ∧ low64 (chEnAddr hi) = false ∧ low64 (chEnAddr hi - 4) = false ∧
      (findReg (chEnAddr hi)).map (fun h => (h.reg.off, h.reg.fields)) = some (chEnAddr hi % 4096, backupFields) := by
  cases hi <;> decide

/-- No check of the page refuses a write of CH_EN; what it does is judged, and SEQ may count it. -/
theorem State.writeBlock_chEn (s : State) (req : Req) (pr hi : Bool) (hit : RegHit) (v : W32) (hoff : hit.reg.off = chEnAddr hi % 4096)
    (hfields : hit.reg.fields = backupFields) :
    let r := s.judged 0x10 fun u => u.writeChEn hi v
    (s.writeBlock req pr hit (chEnAddr hi) v).1 = r.1 ∨ (s.writeBlock req pr hit (chEnAddr hi) v).1 = r.1.bumpSeq 0x10 := by
  intro r
  have hpage : chEnAddr hi / 4096 = 0x10 := by cases hi <;> rfl
  have hspecial : s.writeSpecial req pr 0x10 (chEnAddr hi % 4096) hit.idx v = some r := by
    cases hi <;> rfl
  have hopen (m : W32) : (!inRange backupFields v || s.lockedNow 0x10 (chEnAddr hi % 4096) hit.idx
      || s.settingBad 0x10 (chEnAddr hi % 4096) hit.idx m) = false := by
    cases hi <;> rfl
  have hjig : jigOnly 0x10 (chEnAddr hi % 4096) = false := by cases hi <;> rfl
  have hplain : backupFields.any (·.acc == .rws) = false := rfl
  simp only [State.writeBlock, hpage, hoff, hfields, hplain, hopen, hjig, hspecial, firstErr, Bool.and_false, Bool.false_and,
    Bool.false_eq_true, if_false]
  rcases hr : r with ⟨t, _ | c⟩
  · dsimp only
    split
    · exact .inr rfl
    · exact .inl rfl
  · exact .inl rfl

theorem State.regWrite_chEn (s : State) (req : Req) (hi : Bool) (v : W32) (hs : s.on (hdrSrst 0x10) = false) :
    let r := s.judged 0x10 fun u => u.writeChEn hi v
    (s.regWrite req false (chEnAddr hi) v).1 = r.1 ∨ (s.regWrite req false (chEnAddr hi) v).1 = r.1.bumpSeq 0x10 := by
  obtain ⟨hmap, hlow, hhigh, hfind⟩ := findReg_chEn hi
  obtain ⟨hit, hhit, hreg⟩ := Option.map_eq_some_iff.mp hfind
  obtain ⟨hoff, hfields⟩ := Prod.mk.inj hreg
  have hctrl : ctrlPage (chEnAddr hi / 4096) = 0x10 := by cases hi <;> rfl
  have hofs : ¬ chEnAddr hi % 4096 < 0x100 := by cases hi <;> decide
  have hblock : (s.regWrite req false (chEnAddr hi) v).1 = (s.writeBlock req (s.acts req false) hit (chEnAddr hi) v).1 := by
    simp only [State.regWrite, hmap, hctrl, hs, hofs, hlow, hhigh, hhit, Bool.not_true, Bool.false_eq_true, if_false]
  rw [hblock]
  exact s.writeBlock_chEn req _ hi hit v hoff hfields

theorem exec_chEnWrite (s : State) (req : Req) (hi : Bool) (val : W32) (h : s.runs = true) :
    exec (.chEnWrite req hi val) s = done (s.regWrite req false (chEnAddr hi) val).1 := by
  show execChEnWrite req hi val s = _
  rw [execChEnWrite, s.onFabric_runs _ h]
  cases hi <;> rfl

theorem exec_chEnWrite_open (s : State) (req : Req) (hi : Bool) (val : W32) (h : s.runs = true) (hs : s.on (hdrSrst 0x10) = false) :
    Ends (exec (.chEnWrite req hi val) s) fun t =>
      let base := if hi then 32 else 0
      (∀ i, i < 32 → t.chEn (base + i) = (val.toNat.testBit i && (s.chEn (base + i) || s.available (base + i))))
      ∧ ((∃ i, i < 32 ∧ val.toNat.testBit i = true ∧ s.chEn (base + i) = false ∧ s.available (base + i) = false) →
          t.get (hdrErrcode 0x10) = 0x20)
      ∧ Keeps s t (inPages [0x10, 0x11]) [] [.ms, .rcm] := by
  let v := s.put (hdrErrcount 0x10) 0
  let u := (s.judged 0x10 fun u => u.writeChEn hi val).1
  let t := (s.regWrite req false (chEnAddr hi) val).1
  have hcases : t = u ∨ t = u.bumpSeq 0x10 := s.regWrite_chEn req hi val hs
  have hjudged : Keeps (v.writeChEn hi val) u (among [0x10020]) [] [] := (Keeps.refl _ _ _ _).put (hdrErrcount 0x10) _ (by decide)
  have hwritten : Keeps (v.writeChEn hi val) t (among [0x10020, 0x10024]) [] [] := by
    have hcount : ∀ a ∈ [0x10020], a ∈ [0x10020, 0x10024] := by decide
    have hu : Keeps (v.writeChEn hi val) u (among [0x10020, 0x10024]) [] [] := hjudged.mono hcount (fun _ h => h) fun _ h => h
    rcases hcases with heq | heq <;> rw [heq]
    · exact hu
    · exact hu.bumpSeq 0x10 (by decide)
  obtain ⟨hlt, hbits, hnoted⟩ := chEnBits_spec (s.reg (chEnAddr hi)).toNat val.toNat (if hi then 32 else 0) s.available 32
  have htaken : v.chEnTaken hi val = chEnBits (s.reg (chEnAddr hi)).toNat val.toNat (if hi then 32 else 0) s.available 32 :=
    s.chEnTaken_put_errcount 0 hi val
  have hword : t.reg (chEnAddr hi) = BitVec.ofNat 32 (v.chEnTaken hi val).1 := by
    rw [hwritten.regs _ (by cases hi <;> decide), State.writeChEn_reg]
  refine ⟨t.settle, exec_chEnWrite s req hi val h, fun i hi32 => ?_, fun ⟨i, hi32, hset, hold, hsrc⟩ => ?_, ?_⟩
  · rw [State.settle_chEn, t.chEn_word hi hi32, s.chEn_word hi hi32, hword, htaken, BitVec.toNat_ofNat, Nat.mod_eq_of_lt hlt, hbits i hi32]
  · rw [s.chEn_word hi hi32] at hold
    rw [State.settle_get, hwritten.get _ (by decide), State.writeChEn_code]
    rw [htaken]
    exact hnoted ⟨i, hi32, hset, hold, hsrc⟩
  · have hkeep := ((Keeps.refl s (inPages [0x10, 0x11]) [] [.ms, .rcm]).put (hdrErrcount 0x10) 0 (by decide)).writeChEn hi val
    have hheader : ∀ a ∈ [0x10020, 0x10024], inPages [0x10, 0x11] a := by decide
    exact (hkeep.trans (hwritten.mono hheader (by simp) (by simp))).settle

/-- Settles O12, clause by clause. -/
theorem alarmsAndGuards : Obligations.AlarmsAndGuards :=
  ⟨⟨exec_runGuard, exec_monitorAlarm_bitstream, exec_monitorAlarm_check, exec_monitorAlarm_bias, exec_monitorAlarm_uncovered,
      exec_spareCheckVerdict_overload, exec_spareCheckVerdict_failed, exec_streamAlarmClear_modulator, exec_streamAlarmClear_bitstream⟩,
    exec_afeStartTestDone, exec_testSlot_untouched, exec_returnCompareRetry_passed, exec_chEnWrite_open⟩

end Sys2Proof.Machine

/-! The line-frequency tracker, snapshots and replays (O13). -/
namespace Sys2Proof.Machine

section
variable {s t : State} {R : Nat → Prop} {E : List Nat} {P : List Part}

theorem Keeps.withMt (h : Keeps s t R E P) (x : Metro) (hp : Part.mt ∈ P) : Keeps s { t with mt := x } R E P :=
  h.fields fun p hp' => by cases p <;> simp_all [Part.same, State.sramByte]

theorem Keeps.setRef (h : Keeps s t R E P) (i : Nat) (r : RefTrack) (hp : Part.ms ∈ P) : Keeps s (t.setRef i r) R E P := h.withMs _ hp

theorem Keeps.setTrk (h : Keeps s t R E P) (v : Nat) (h0 : R F.DEC_TRACK_STAT_STATE.addr) (h1 : R F.DEC_STATUS_LOCKED.addr) :
    Keeps s (t.setTrk v) R E P :=
  (h.put F.DEC_TRACK_STAT_STATE _ h0).put F.DEC_STATUS_LOCKED _ h1

theorem Keeps.replayBusy (h : Keeps s t R E P) (h0 : R F.DEC_STATUS_REPLAY_BUSY.addr) : Keeps s t.replayBusy R E P := h.put _ _ h0

theorem Keeps.setHist (h : Keeps s t R E P) (c : Nat) (l : List Hist) (hp : Part.ms ∈ P) : Keeps s (t.setHist c l) R E P := h.withMs _ hp

end

/-- An event leaves the other bits of its page's IRQ_PEND as they were. -/
theorem State.event_pend_apart (s : State) (p b c u : Nat) (hb : b < 32) (hc : c ≠ b) (hp : p ≠ 4) :
    (s.event p b u).get (hdrPend p c) = s.get (hdrPend p c) := by
  have hlost : ¬ lostRegs (hdrPend p c).addr := by
    unfold lostRegs hdrPend
    dsimp only
    omega
  rw [State.event, State.emit_get _ _ _ _ _ _ _ hlost, State.irq, State.incSat,
    State.put_get_other _ _ _ _ (by simp only [hdrPend, hdrEvcnt]; omega),
    State.put_get_apart _ _ _ _ (by simp only [hdrPend]; omega) (by simp only [hdrPend]; omega)]

@[simp] theorem State.settle_trk (s : State) : s.settle.trk = s.trk := rfl

theorem State.setTrk_trk (s : State) (v : Nat) : (s.setTrk v).trk = v % 4 := by
  rw [State.trk, State.setTrk, State.put_get_other _ _ _ _ (by decide), State.put_get_same _ _ _ (by decide)]
  rfl

theorem State.setTrk_locked (s : State) (v : Nat) : (s.setTrk v).on F.DEC_STATUS_LOCKED = (v == trkLocked) :=
  State.put_on_bool _ F.DEC_STATUS_LOCKED (v == trkLocked) rfl (by decide)

-- The end of holdover (R125)

theorem exec_holdoverExpiry (s : State) (h : s.runs = true) (htrk : s.trk = trkHoldover) (hleft : s.get F.DEC_TRACK_STAT_HOLD_LEFT = 0) :
    Ends (exec .holdoverExpiry s) fun t =>
      t.trk = trkFree ∧ t.ms = s.ms ∧ t.get (hdrPend 0x11 3) = 1
      ∧ Keeps s t (fun a => among [F.DEC_TRACK_STAT_STATE.addr, F.DEC_STATUS_LOCKED.addr] a ∨ eventRegs 0x11 3 a) [2] [.ms] := by
  have hexec : exec .holdoverExpiry s = done ((s.setTrk trkFree).event 0x11 3 noUnit) := by
    show execHoldoverExpiry s = _
    rw [execHoldoverExpiry, s.onFabric_runs _ h, if_pos ⟨htrk, hleft⟩]
  refine ⟨_, hexec, ?_, State.event_ms _ _ _ _, State.event_pend _ _ _ _ (by decide) (by decide), ?_⟩
  · rw [State.settle_trk, State.trk, State.event_get _ _ _ _ _ (by decide)]
    exact s.setTrk_trk trkFree
  · exact (((Keeps.refl s _ _ _).setTrk _ (.inl (by simp)) (.inl (by simp))).eventWithin 0x11 3 _ (by simp) fun _ h => .inr h).settle

-- An evaluation of the tracker (R124, R125)

/-- What an evaluation takes for a reference without a measurement. -/
def idleMeas : RefMeas := ⟨false, 0, false, false, 0⟩

/-- Reference i is judged, if it is enabled. -/
def State.judgeRef (s : State) (meas : List RefMeas) (i : Nat) : State :=
  if s.refEn i then s.setRef i ((s.ref i).judge (meas.getD i idleMeas)) else s

/-- Every enabled reference is judged. -/
def State.judgeRefs (s : State) (meas : List RefMeas) : State := [0, 1, 2, 3].foldl (fun s i => s.judgeRef meas i) s

theorem State.judgeRef_ref_other (s : State) (meas : List RefMeas) (i j : Nat) (h : j ≠ i) : (s.judgeRef meas i).ref j = s.ref j := by
  unfold State.judgeRef
  split
  · exact spRead_spWrite_other _ _ _ _ _ h
  · rfl

theorem State.judgeRef_ref_same (s : State) (meas : List RefMeas) (i : Nat) (h : s.refEn i = true) :
    (s.judgeRef meas i).ref i = (s.ref i).judge (meas.getD i idleMeas) := by
  rw [State.judgeRef, if_pos h]
  exact spRead_spWrite_same _ _ _ _

/-- The state with other records of the references. -/
def State.withRefs (s : State) (l : List (Nat × RefTrack)) : State := { s with ms := { s.ms with refs := l } }

/-- Judging changes the references' records alone. -/
theorem State.judgeRef_cases (s : State) (meas : List RefMeas) (i : Nat) : ∃ l, s.judgeRef meas i = s.withRefs l := by
  unfold State.judgeRef
  split
  · exact ⟨_, rfl⟩
  · exact ⟨s.ms.refs, rfl⟩

theorem State.judgeRefs_cases (s : State) (meas : List RefMeas) : ∃ l, s.judgeRefs meas = s.withRefs l := by
  refine List.foldlRecOn (motive := fun u => ∃ l, u = s.withRefs l) _ _ ⟨s.ms.refs, rfl⟩ fun u hu i _ => ?_
  obtain ⟨l, rfl⟩ := hu
  exact State.judgeRef_cases _ meas i

/-- The first reference's record after an evaluation. -/
theorem State.judgeRefs_ref_zero (s : State) (meas : List RefMeas) (h : s.refEn 0 = true) :
    (s.judgeRefs meas).ref 0 = (s.ref 0).judge (meas.getD 0 idleMeas) := by
  simp only [State.judgeRefs, List.foldl_cons, List.foldl_nil]
  rw [State.judgeRef_ref_other _ _ 3 0 (by decide), State.judgeRef_ref_other _ _ 2 0 (by decide), State.judgeRef_ref_other _ _ 1 0 (by decide),
    State.judgeRef_ref_same _ _ _ h]

theorem State.judgeRefs_keeps (s : State) (meas : List RefMeas) : Keeps s (s.judgeRefs meas) (among []) [] [.ms] := by
  obtain ⟨l, hl⟩ := s.judgeRefs_cases meas
  rw [hl]
  exact (Keeps.refl s _ _ _).withMs _ (by simp)

theorem exec_trackerEvaluation (s : State) (meas : List RefMeas) (silent : Nat) (h : s.runs = true) (htrk : s.trk ≠ trkDisabled) :
    exec (.trackerEvaluation meas silent) s
      = done (((s.judgeRefs meas).trackStep (meas.getD (s.get F.DEC_TRACK_STAT_REF_IDX) idleMeas) silent).showRef) := by
  have hidx : (s.judgeRefs meas).get F.DEC_TRACK_STAT_REF_IDX = s.get F.DEC_TRACK_STAT_REF_IDX := (s.judgeRefs_keeps meas).get _ (by simp)
  show execTrackerEvaluation meas silent s = _
  rw [execTrackerEvaluation, s.onFabric_runs _ h, if_neg htrk, ← hidx]
  rfl

theorem exec_trackerEvaluation_disabled (s : State) (meas : List RefMeas) (silent : Nat) (htrk : s.trk = trkDisabled) :
    Ends (exec (.trackerEvaluation meas silent) s) fun t => Keeps s t (among []) [] [] := by
  have hexec : exec (.trackerEvaluation meas silent) s = done s := by
    show execTrackerEvaluation meas silent s = _
    simp only [execTrackerEvaluation, State.onFabric, if_pos htrk, ite_self]
  exact ⟨_, hexec, (Keeps.refl s _ _ _).settle⟩

/-- The registers that show the active reference leave every field apart from them as it was. -/
theorem State.showRef_get (s : State) (f : Fld) (h0 : f.addr ≠ F.DEC_FREQ_MEAS.addr)
    (h1 : f.addr ≠ F.DEC_TRACK_STAT_AMP_OK.addr ∨ f.lsb + f.wid ≤ 4 ∨ 16 ≤ f.lsb) : s.showRef.get f = s.get f := by
  have hgood : f.addr ≠ F.DEC_TRACK_STAT_GOOD_CNT.addr ∨ 16 ≤ f.lsb ∨ f.lsb + f.wid ≤ 8 := by
    rcases h1 with h | h | h
    · exact .inl h
    · exact .inr (.inr (by omega))
    · exact .inr (.inl h)
  have hamp : f.addr ≠ F.DEC_TRACK_STAT_AMP_OK.addr ∨ 5 ≤ f.lsb ∨ f.lsb + f.wid ≤ 4 := by
    rcases h1 with h | h | h
    · exact .inl h
    · exact .inr (.inr h)
    · exact .inr (.inl (by omega))
  rw [State.showRef, State.put_get_other _ _ _ _ h0, State.put_get_apart _ _ _ _ (by decide) hgood,
    State.put_get_apart _ _ _ _ (by decide) hamp]

theorem Keeps.showRef {s t : State} {R : Nat → Prop} {E : List Nat} {P : List Part} (h : Keeps s t R E P)
    (h0 : R F.DEC_TRACK_STAT_AMP_OK.addr) (h1 : R F.DEC_FREQ_MEAS.addr) : Keeps s t.showRef R E P :=
  ((h.put F.DEC_TRACK_STAT_AMP_OK _ h0).put F.DEC_TRACK_STAT_GOOD_CNT _ h0).put F.DEC_FREQ_MEAS _ h1

-- Locked ends (R125)

/-- A measurement beside the filtered period is counted and raised while Locked (R125). -/
def State.noteOutlier (s : State) (m : RefMeas) : State :=
  if m.cycle && periodOk m.period && !within m.period s.ms.periodFilt.toNat 10 then
    ({ s with ms := { s.ms with outlierRun := s.ms.outlierRun + 1 } }).incSat F.DEC_OUTLIERS |>.event 0x11 5
      (s.refCh (s.get F.DEC_TRACK_STAT_REF_IDX))
  else if m.cycle then { s with ms := { s.ms with outlierRun := 0 } } else s

/-- A low half cycle ends Locked, whatever else was measured. -/
theorem State.trackStep_locked_low (s : State) (m : RefMeas) (silent : Nat) (htrk : s.trk = trkLocked) (hlow : m.lowHalf = true) :
    s.trackStep m silent = (s.noteOutlier m).enterHoldover.holdSwitch true := by
  have hfree : ¬ s.trk = trkFree := by rw [htrk]; decide
  unfold State.trackStep
  simp only [if_neg hfree, if_pos htrk, hlow, Bool.true_or, if_true]
  rfl

/-- Outliers are counted in DEC alone, and the settings in force stay. -/
theorem State.noteOutlier_keeps (s : State) (m : RefMeas) :
    Keeps s (s.noteOutlier m) (fun a => a = F.DEC_OUTLIERS.addr ∨ eventRegs 0x11 5 a) [2] [.ms]
      ∧ (s.noteOutlier m).ms.trackCfg = s.ms.trackCfg := by
  have hrefl := Keeps.refl s (fun a => a = F.DEC_OUTLIERS.addr ∨ eventRegs 0x11 5 a) [2] [.ms]
  unfold State.noteOutlier
  split
  · exact ⟨((hrefl.withMs _ (by simp)).incSat F.DEC_OUTLIERS (.inl rfl)).eventWithin 0x11 5 _ (by simp) fun _ h => .inr h,
      by rw [State.event_ms]; rfl⟩
  · split
    · exact ⟨hrefl.withMs _ (by simp), rfl⟩
    · exact ⟨hrefl, rfl⟩

theorem State.enterHoldover_keeps (s : State) :
    Keeps s s.enterHoldover (fun a => among [F.DEC_TRACK_STAT_STATE.addr, F.DEC_STATUS_LOCKED.addr] a ∨ eventRegs 0x11 1 a) [2] [] :=
  (((Keeps.refl s _ _ _).setTrk _ (.inl (by simp)) (.inl (by simp))).put F.DEC_TRACK_STAT_HOLD_LEFT _ (.inl (by decide))).eventWithin 0x11 1 _
    (by simp) fun _ h => .inr h

/-- Holdover begins with HOLD_LEFT at its setting and UNLOCK raised. -/
theorem State.enterHoldover_spec (s : State) :
    s.enterHoldover.trk = trkHoldover ∧ s.enterHoldover.get F.DEC_TRACK_STAT_HOLD_LEFT = s.tHold
      ∧ s.enterHoldover.get (hdrPend 0x11 1) = 1 := by
  have hfit : s.tHold < 2 ^ 16 := getBits_lt _ _ _
  refine ⟨?_, ?_, State.event_pend _ _ _ _ (by decide) (by decide)⟩
  · rw [State.trk, State.enterHoldover, State.event_get _ _ _ _ _ (by decide), State.put_get_apart _ _ _ _ (by decide) (by decide)]
    exact s.setTrk_trk trkHoldover
  · rw [State.enterHoldover, State.event_get _ _ _ _ _ (by decide), State.put_get_same _ _ _ (by decide)]
    exact Nat.mod_eq_of_lt hfit

/-- Holdover stays on its reference, or goes to another, which begins anew. -/
theorem State.holdSwitch_cases (s : State) (b : Bool) :
    s.holdSwitch b = s ∨ ∃ i, s.holdSwitch b =
      (((s.put F.DEC_TRACK_STAT_REF_IDX i).setRef i { s.ref i with good := 0, periods := [] }).event 0x11 2 (s.refCh i)) := by
  unfold State.holdSwitch
  dsimp only
  split
  · exact .inr ⟨_, rfl⟩
  · exact .inl rfl

theorem Keeps.holdSwitch {s t : State} {R : Nat → Prop} {E : List Nat} {P : List Part} (h : Keeps s t R E P) (b : Bool) (he : 2 ∈ E)
    (hp : Part.ms ∈ P) (h0 : R F.DEC_TRACK_STAT_REF_IDX.addr) (hR : ∀ a, eventRegs 0x11 2 a → R a) : Keeps s (t.holdSwitch b) R E P := by
  rcases t.holdSwitch_cases b with heq | ⟨i, heq⟩ <;> rw [heq]
  · exact h
  · exact ((h.put F.DEC_TRACK_STAT_REF_IDX _ h0).setRef _ _ hp).eventWithin 0x11 2 _ he hR

/-- A switch keeps the tracker's state, HOLD_LEFT and an UNLOCK raised. -/
theorem State.holdSwitch_spec (s : State) (b : Bool) :
    (s.holdSwitch b).trk = s.trk ∧ (s.holdSwitch b).get F.DEC_TRACK_STAT_HOLD_LEFT = s.get F.DEC_TRACK_STAT_HOLD_LEFT
      ∧ (s.holdSwitch b).get (hdrPend 0x11 1) = s.get (hdrPend 0x11 1) := by
  rcases s.holdSwitch_cases b with heq | ⟨i, heq⟩ <;> rw [heq]
  · exact ⟨rfl, rfl, rfl⟩
  · refine ⟨?_, ?_, ?_⟩
    · exact (State.event_get _ _ _ _ _ (by decide)).trans (State.put_get_apart s _ _ _ (by decide) (by decide))
    · exact (State.event_get _ _ _ _ _ (by decide)).trans (State.put_get_apart s _ _ _ (by decide) (by decide))
    · exact (State.event_pend_apart _ _ _ _ _ (by decide) (by decide) (by decide)).trans (State.put_get_other s _ _ _ (by decide))

theorem exec_trackerEvaluation_unlock (s : State) (meas : List RefMeas) (m : RefMeas) (silent : Nat) (h : s.runs = true) (htrk : s.trk = trkLocked)
    (hm : meas[s.get F.DEC_TRACK_STAT_REF_IDX]? = some m) (hlow : m.lowHalf = true) :
    Ends (exec (.trackerEvaluation meas silent) s) fun t =>
      t.trk = trkHoldover ∧ t.get F.DEC_TRACK_STAT_HOLD_LEFT = s.tHold ∧ t.get (hdrPend 0x11 1) = 1
      ∧ t.get F.DEC_INCR = s.get F.DEC_INCR ∧ Keeps s t (onPages [0x11]) [2] [.ms] := by
  let u := (s.judgeRefs meas).noteOutlier m
  let v := u.enterHoldover.holdSwitch true
  have hjudged := s.judgeRefs_keeps meas
  have htrk' : (s.judgeRefs meas).trk = trkLocked := (hjudged.get _ (by simp)).trans htrk
  have hexec : exec (.trackerEvaluation meas silent) s = done v.showRef := by
    rw [exec_trackerEvaluation s meas silent h (by rw [htrk]; decide), List.getD_eq_getElem?_getD, hm]
    exact congrArg (fun w : State => done w.showRef) (State.trackStep_locked_low _ m silent htrk' hlow)
  obtain ⟨houtlier, hcfg⟩ := (s.judgeRefs meas).noteOutlier_keeps m
  have hhold : u.tHold = s.tHold := by
    obtain ⟨l, hl⟩ := s.judgeRefs_cases meas
    rw [State.tHold, hcfg, hl, State.withRefs, State.tHold]
  obtain ⟨hstate, hleft, hpend⟩ := u.enterHoldover_spec
  obtain ⟨hstate', hleft', hpend'⟩ := u.enterHoldover.holdSwitch_spec true
  have hincr : v.get F.DEC_INCR = s.get F.DEC_INCR :=
    calc v.get F.DEC_INCR = u.enterHoldover.get F.DEC_INCR :=
          ((Keeps.refl _ (fun a => a = F.DEC_TRACK_STAT_REF_IDX.addr ∨ eventRegs 0x11 2 a) [2] [.ms]).holdSwitch true (by simp) (by simp)
            (.inl rfl) fun _ h => .inr h).get _ (by decide)
      _ = u.get F.DEC_INCR := u.enterHoldover_keeps.get _ (by decide)
      _ = (s.judgeRefs meas).get F.DEC_INCR := houtlier.get _ (by decide)
      _ = s.get F.DEC_INCR := hjudged.get _ (by simp)
  have hdec (b : Nat) (hb : b < 32) (a : Nat) (ha : eventRegs 0x11 b a) : onPages [0x11] a := eventRegs_onPages 0x11 b _ hb (by simp) a ha
  have hu : Keeps s u (onPages [0x11]) [2] [.ms] :=
    (hjudged.mono (fun _ h => (by simp at h)) (by simp) fun _ h => h).trans
      (houtlier.mono (fun a ha => ha.elim (fun ha => .inl (by rw [ha]; decide)) (hdec 5 (by decide) a)) (fun _ h => h) fun _ h => h)
  have hv : Keeps s v (onPages [0x11]) [2] [.ms] := by
    refine (hu.trans (u.enterHoldover_keeps.mono (fun a ha => ?_) (fun _ h => h) (by simp))).holdSwitch true (by simp) (by simp)
      (.inl (by decide)) (hdec 2 (by decide))
    rcases ha with ha | ha
    · simp only [List.mem_cons, List.not_mem_nil, or_false] at ha
      rcases ha with rfl | rfl <;> exact .inl (by decide)
    · exact hdec 1 (by decide) a ha
  refine ⟨_, hexec, ?_, ?_, ?_, ?_, (hv.showRef (.inl (by decide)) (.inl (by decide))).settle⟩
  · rw [State.settle_trk, State.trk, v.showRef_get _ (by decide) (by decide)]
    exact hstate'.trans hstate
  · rw [State.settle_get, v.showRef_get _ (by decide) (by decide), hleft', hleft, hhold]
  · rw [State.settle_get, v.showRef_get _ (by decide) (by decide), hpend', hpend]
  · rw [State.settle_get, v.showRef_get _ (by decide) (by decide), hincr]

-- Free becomes Locked (R124, R125)

/-- A good cycle counts in its reference's record, up to 255. -/
theorem RefTrack.judge_good (r : RefTrack) (m : RefMeas) (hcycle : m.cycle = true) (hlow : m.lowCycle = false) (hperiod : periodOk m.period = true)
    (hnear : within m.period r.prev 5 = true) : (r.judge m).good = satInc 255 r.good := by
  simp [RefTrack.judge, hcycle, hlow, hperiod, hnear]

/-- From Free, an enabled first reference with 8 good cycles is locked on. -/
theorem State.trackStep_free_lock (s : State) (m : RefMeas) (silent : Nat) (htrk : s.trk = trkFree) (hen : s.refEn 0 = true)
    (hgood : 8 ≤ (s.ref 0).good) : s.trackStep m silent = (s.put F.DEC_TRACK_STAT_REF_IDX 0).lockOn 0 := by
  have hfirst : ([0, 1, 2, 3].find? fun i => s.refEn i && decide (0 < (s.ref i).good)) = some 0 := by
    rw [List.find?_cons_of_pos (by simp only [hen, Bool.true_and, decide_eq_true_eq]; omega)]
  have hgood' : 8 ≤ ((s.put F.DEC_TRACK_STAT_REF_IDX 0).ref 0).good := hgood
  simp only [State.trackStep, if_pos htrk, hfirst, if_pos hgood']

/-- A lock on reference i: Locked, LOCKED set, the reference named and LOCK raised. -/
theorem State.lockOn_spec (s : State) (i : Nat) :
    (s.lockOn i).trk = trkLocked ∧ (s.lockOn i).get F.DEC_TRACK_STAT_REF_IDX = i % 4 ∧ (s.lockOn i).on F.DEC_STATUS_LOCKED = true
      ∧ (s.lockOn i).get (hdrPend 0x11 0) = 1 := by
  refine ⟨?_, ?_, ?_, State.event_pend _ _ _ _ (by decide) (by decide)⟩
  · refine (State.event_get _ _ _ _ _ (by decide)).trans ?_
    exact (State.put_get_apart _ _ _ _ (by decide) (by decide)).trans (s.setTrk_trk trkLocked)
  · exact (State.event_get _ _ _ _ _ (by decide)).trans (State.put_get_same _ F.DEC_TRACK_STAT_REF_IDX i (by decide))
  · rw [State.on]
    refine bne_iff_ne.mpr (ne_of_eq_of_ne (State.event_get _ _ _ _ _ (by decide)) ?_)
    exact bne_iff_ne.mp ((State.put_on_other _ _ _ _ (by decide)).trans (s.setTrk_locked trkLocked))

theorem State.lockOn_keeps (s : State) (i : Nat) : Keeps s (s.lockOn i) (onPages [0x11]) [2] [.ms] :=
  ((((Keeps.refl s _ _ _).setTrk _ (.inl (by decide)) (.inl (by decide))).put F.DEC_TRACK_STAT_REF_IDX _ (.inl (by decide))).withMs _
    (by simp)).eventWithin 0x11 0 _ (by simp) fun a ha => eventRegs_onPages 0x11 0 _ (by decide) (by simp) a ha

theorem exec_trackerEvaluation_lock (s : State) (m : RefMeas) (silent : Nat) (h : s.runs = true) (htrk : s.trk = trkFree) (hen : s.refEn 0 = true)
    (hgood : 7 ≤ (s.ref 0).good) (hcycle : m.cycle = true) (hlow : m.lowCycle = false) (hperiod : periodOk m.period = true)
    (hnear : within m.period (s.ref 0).prev 5 = true) :
    Ends (exec (.trackerEvaluation [m] silent) s) fun t =>
      t.trk = trkLocked ∧ t.get F.DEC_TRACK_STAT_REF_IDX = 0 ∧ t.on F.DEC_STATUS_LOCKED = true ∧ t.get (hdrPend 0x11 0) = 1
      ∧ Keeps s t (onPages [0x11]) [2] [.ms] := by
  let u := s.judgeRefs [m]
  let v := u.put F.DEC_TRACK_STAT_REF_IDX 0
  have hjudged := s.judgeRefs_keeps [m]
  have hen' : u.refEn 0 = true := by
    obtain ⟨l, hl⟩ := s.judgeRefs_cases [m]
    simp only [u, hl]
    exact hen
  have hgood' : 8 ≤ (u.ref 0).good := by
    rw [s.judgeRefs_ref_zero [m] hen, List.getD_cons_zero, RefTrack.judge_good _ _ hcycle hlow hperiod hnear, satInc]
    split <;> omega
  have htrk' : u.trk = trkFree := (hjudged.get _ (by simp)).trans htrk
  have hexec : exec (.trackerEvaluation [m] silent) s = done (v.lockOn 0).showRef := by
    rw [exec_trackerEvaluation s [m] silent h (by rw [htrk]; decide)]
    exact congrArg (fun w : State => done w.showRef) (State.trackStep_free_lock u _ silent htrk' hen' hgood')
  obtain ⟨hstate, hidx, hlocked, hpend⟩ := v.lockOn_spec 0
  have hv : Keeps s v (onPages [0x11]) [2] [.ms] :=
    (hjudged.mono (fun _ h => (by simp at h)) (by simp) fun _ h => h).put F.DEC_TRACK_STAT_REF_IDX 0 (.inl (by decide))
  have hkeep : Keeps s (v.lockOn 0).showRef (onPages [0x11]) [2] [.ms] :=
    (hv.trans (v.lockOn_keeps 0)).showRef (.inl (by decide)) (.inl (by decide))
  refine ⟨_, hexec, ?_, ?_, ?_, ?_, hkeep.settle⟩
  · rw [State.settle_trk, State.trk, State.showRef_get _ _ (by decide) (by decide)]
    exact hstate
  · rw [State.settle_get, State.showRef_get _ _ (by decide) (by decide), hidx]
  · rw [State.settle_on, State.on, State.showRef_get _ _ (by decide) (by decide)]
    exact hlocked
  · rw [State.settle_get, State.showRef_get _ _ (by decide) (by decide), hpend]

-- The preload of an integrator (R123)

theorem exec_integratorPreload (s : State) (c : Fin 64) (mean : Int) (h : s.runs = true) (hlive : s.ms.live.testBit c = true)
    (hinteg : s.integ c = true) :
    Ends (exec (.integratorPreload c mean) s) fun t =>
      spRead (fun _ => 0) t.ms.preload c.val = mean ∧ spRead (fun _ => 0) t.ms.fill c.val ≤ fillTime
      ∧ (∀ d, d ≠ c.val → spRead (fun _ => 0) t.ms.preload d = spRead (fun _ => 0) s.ms.preload d
          ∧ spRead (fun _ => 0) t.ms.fill d = spRead (fun _ => 0) s.ms.fill d)
      ∧ Keeps s t (among []) [] [.ms] := by
  have hexec : exec (.integratorPreload c mean) s = done { s with ms := { s.ms with
      preload := spWrite (fun _ => 0) s.ms.preload c.val mean
      fill := spWrite (fun _ => 0) s.ms.fill c.val (min (spRead (fun _ => 0) s.ms.fill c.val) fillTime) } } := by
    show execIntegratorPreload c mean s = _
    rw [execIntegratorPreload, s.onFabric_runs _ h, if_pos ⟨hlive, hinteg⟩]
  refine ⟨_, hexec, spRead_spWrite_same _ _ _ _, ?_, fun d hd => ⟨spRead_spWrite_other _ _ _ _ _ hd, spRead_spWrite_other _ _ _ _ _ hd⟩,
    ((Keeps.refl s _ _ _).withMs _ (by simp)).settle⟩
  exact (spRead_spWrite_same _ _ _ _).trans_le (Nat.min_le_right _ _)

-- A modulator dovetail and its bridge (R171, R179)

/-- Bridging leaves the replay engine as it was. -/
theorem State.bridge_engine (s : State) (m already toCome : Nat) :
    (s.bridge m already toCome).ms.waiting = s.ms.waiting ∧ (s.bridge m already toCome).ms.caught = s.ms.caught := by
  refine List.foldlRecOn (motive := fun u : State => u.ms.waiting = s.ms.waiting ∧ u.ms.caught = s.ms.caught) _ _ ⟨rfl, rfl⟩
    fun u hu c _ => ?_
  dsimp only
  split <;> exact hu

section
variable {s t : State} {R : Nat → Prop} {E : List Nat} {P : List Part}

theorem Keeps.bridge (h : Keeps s t R E P) (m already toCome : Nat) (hp : Part.ms ∈ P) (hR : R F.MTR_BRIDGE_CNT.addr) :
    Keeps s (t.bridge m already toCome) R E P :=
  Keeps.foldl _ (fun _ c hu => Keeps.ite ((hu.setHist c _ hp).withMs _ hp) hu) _ _ (h.put F.MTR_BRIDGE_CNT _ hR)

end

/-- LAST_DOVETAIL as a modulator dovetail records it, before its events. -/
def State.recordDovetail (s : State) (kind unit pause bridged : Nat) : State :=
  let s := s.incSat F.MTR_DOVETAIL_CNT_MOD
  let s := (((s.put F.MTR_LAST_DOVETAIL_KIND kind).put F.MTR_LAST_DOVETAIL_UNIT unit).put F.MTR_LAST_DOVETAIL_PAUSE pause).put
    F.MTR_LAST_DOVETAIL_BRIDGED bridged
  s.put F.MTR_LAST_DOVETAIL_CYC (s.get F.DEC_CYCLE_CNT)

theorem State.modDovetail_eq (s : State) (kind unit pause bridged : Nat) :
    s.modDovetail kind unit pause bridged = if bridged = 0 then (s.recordDovetail kind unit pause bridged).event 0x12 2 unit
      else ((s.recordDovetail kind unit pause bridged).event 0x12 2 unit).event 0x12 6 unit := rfl

section
variable {s t : State} {R : Nat → Prop} {E : List Nat} {P : List Part}

theorem Keeps.recordDovetail (h : Keeps s t R E P) (kind unit pause bridged : Nat) (h0 : R F.MTR_DOVETAIL_CNT_MOD.addr)
    (h1 : R F.MTR_LAST_DOVETAIL_KIND.addr) (h2 : R F.MTR_LAST_DOVETAIL_CYC.addr) :
    Keeps s (t.recordDovetail kind unit pause bridged) R E P :=
  (((((h.incSat F.MTR_DOVETAIL_CNT_MOD h0).put F.MTR_LAST_DOVETAIL_KIND kind h1).put F.MTR_LAST_DOVETAIL_UNIT unit h1).put
    F.MTR_LAST_DOVETAIL_PAUSE pause h1).put F.MTR_LAST_DOVETAIL_BRIDGED bridged h1).put F.MTR_LAST_DOVETAIL_CYC _ h2

theorem Keeps.modDovetail (h : Keeps s t R E P) (kind unit pause bridged : Nat) (he : 2 ∈ E) (hR : ∀ a, onPages [0x12] a → R a) :
    Keeps s (t.modDovetail kind unit pause bridged) R E P := by
  have hevent (b : Nat) (hb : b < 32) (a : Nat) (ha : eventRegs 0x12 b a) : R a := hR a (eventRegs_onPages 0x12 b _ hb (by simp) a ha)
  have hraised := (h.recordDovetail kind unit pause bridged (hR _ (.inl (by decide))) (hR _ (.inl (by decide)))
    (hR _ (.inl (by decide)))).eventWithin 0x12 2 unit he (hevent 2 (by decide))
  rw [State.modDovetail_eq]
  exact Keeps.ite hraised (hraised.eventWithin 0x12 6 unit he (hevent 6 (by decide)))

theorem Keeps.replayRefused (h : Keeps s t R E P) (r : Replay) (already toCome : Nat) (he : 2 ∈ E) (hp : Part.ms ∈ P)
    (hR : ∀ a, onPages [0x11, 0x12] a → R a) : Keeps s (t.replayRefused r already toCome) R E P :=
  (((h.incSat F.DEC_REPLAY_STAT_REFUSED (hR _ (.inl (by decide)))).eventWithin 0x11 6 r.unit he fun a ha =>
    hR a (eventRegs_onPages 0x11 6 _ (by decide) (by simp) a ha)).bridge _ _ _ hp (hR _ (.inl (by decide)))).modDovetail _ _ _ _ he
    fun a ha => hR a (ha.imp_left fun hpage => by simp [List.mem_singleton.mp hpage])

end

/-- A modulator dovetail shows its kind and what it bridged, raises DOVETAIL, and leaves DEC's hidden state. -/
theorem State.modDovetail_spec (s : State) (kind unit pause bridged : Nat) :
    (s.modDovetail kind unit pause bridged).get F.MTR_LAST_DOVETAIL_KIND = kind % 4
      ∧ (s.modDovetail kind unit pause bridged).get F.MTR_LAST_DOVETAIL_BRIDGED = bridged % 2 ^ F.MTR_LAST_DOVETAIL_BRIDGED.wid
      ∧ (s.modDovetail kind unit pause bridged).get (hdrPend 0x12 2) = 1 ∧ (s.modDovetail kind unit pause bridged).ms = s.ms := by
  let r := s.recordDovetail kind unit pause bridged
  have hkind : r.get F.MTR_LAST_DOVETAIL_KIND = kind % 4 := by
    simp only [r, State.recordDovetail]
    rw [State.put_get_other _ _ _ _ (by decide), State.put_get_apart _ _ _ _ (by decide) (by decide),
      State.put_get_apart _ _ _ _ (by decide) (by decide), State.put_get_apart _ _ _ _ (by decide) (by decide),
      State.put_get_same _ _ _ (by decide)]
    rfl
  have hbridged : r.get F.MTR_LAST_DOVETAIL_BRIDGED = bridged % 2 ^ F.MTR_LAST_DOVETAIL_BRIDGED.wid := by
    simp only [r, State.recordDovetail]
    rw [State.put_get_other _ _ _ _ (by decide), State.put_get_same _ _ _ (by decide)]
  have hget (f : Fld) (h2 : ¬ eventRegs 0x12 2 f.addr) : (r.event 0x12 2 unit).get f = r.get f := State.event_get _ _ _ _ _ h2
  have hpend : (r.event 0x12 2 unit).get (hdrPend 0x12 2) = 1 := State.event_pend _ _ _ _ (by decide) (by decide)
  rw [State.modDovetail_eq]
  split
  · exact ⟨(hget _ (by decide)).trans hkind, (hget _ (by decide)).trans hbridged, hpend, State.event_ms _ _ _ _⟩
  · refine ⟨?_, ?_, ?_, ?_⟩
    · exact ((State.event_get _ _ _ _ _ (by decide)).trans (hget _ (by decide))).trans hkind
    · exact ((State.event_get _ _ _ _ _ (by decide)).trans (hget _ (by decide))).trans hbridged
    · exact (State.event_pend_apart _ _ _ _ _ (by decide) (by decide) (by decide)).trans hpend
    · exact (State.event_ms _ _ _ _).trans (State.event_ms _ _ _ _)

-- Snapshots (R135, R137)

theorem State.replayBusy_on (s : State) :
    s.replayBusy.on F.DEC_STATUS_REPLAY_BUSY = (s.ms.replay.isSome || s.ms.waiting.isSome) :=
  s.put_on_bool F.DEC_STATUS_REPLAY_BUSY _ rfl (by decide)

/-- The state with one snapshot more. -/
def State.nextSnap (s : State) : State := { s with ms := { s.ms with snap := s.ms.snap + 1 } }

/-- The state without its waiting request. -/
def State.dropWaiting (s : State) : State := { s with ms := { s.ms with waiting := none } }

theorem exec_decSnapshot_kept (s : State) (h : s.runs = true) (hen : s.enabled 0x11 = true)
    (hkept : ∀ r, s.ms.waiting = some r → s.ms.snap + 1 < r.snap + 4) :
    Ends (exec .decSnapshot s) fun t => t.ms = { s.ms with snap := s.ms.snap + 1 } ∧ Keeps s t (among []) [] [.ms] := by
  have hexec : exec .decSnapshot s = done s.nextSnap := by
    show execDecSnapshot s = _
    rw [execDecSnapshot, s.onFabric_runs _ h]
    simp only [hen, Bool.not_true, Bool.false_eq_true, if_false]
    split
    · next r hr => exact if_pos (decide_eq_true (hkept r hr))
    · rfl
  exact ⟨_, hexec, rfl, ((Keeps.refl s _ _ _).withMs _ (by simp)).settle⟩

/-- A refused replay is counted and raised, and the waiting request stays what it was. -/
theorem State.replayRefused_spec (s : State) (r : Replay) (already toCome : Nat) :
    (s.replayRefused r already toCome).get F.DEC_REPLAY_STAT_REFUSED
        = satInc (2 ^ F.DEC_REPLAY_STAT_REFUSED.wid - 1) (s.get F.DEC_REPLAY_STAT_REFUSED)
      ∧ (s.replayRefused r already toCome).get (hdrPend 0x11 6) = 1
      ∧ (s.replayRefused r already toCome).ms.waiting = s.ms.waiting := by
  let u := (s.incSat F.DEC_REPLAY_STAT_REFUSED).event 0x11 6 r.unit
  have hkeep : Keeps u (s.replayRefused r already toCome) (onPages [0x12]) [2] [.ms] :=
    ((Keeps.refl u _ _ _).bridge _ _ _ (by simp) (.inl (by decide))).modDovetail _ _ _ _ (by simp) fun _ h => h
  have hwaiting := (u.bridge_engine r.unit already toCome).1
  refine ⟨?_, ?_, ?_⟩
  · rw [hkeep.get _ (by decide), State.event_get _ _ _ _ _ (by decide), State.incSat_get_same _ _ (by decide)]
  · rw [hkeep.get _ (by decide)]
    exact State.event_pend _ _ _ _ (by decide) (by decide)
  · have hms : (s.replayRefused r already toCome).ms = (u.bridge r.unit already toCome).ms := (State.modDovetail_spec _ _ _ _ _).2.2.2
    rw [hms, hwaiting]
    exact congrArg Measure.waiting (State.event_ms (s.incSat F.DEC_REPLAY_STAT_REFUSED) 0x11 6 r.unit)

theorem exec_decSnapshot_aged (s : State) (r : Replay) (h : s.runs = true) (hen : s.enabled 0x11 = true) (hwait : s.ms.waiting = some r)
    (hold : r.snap + 4 ≤ s.ms.snap + 1) :
    Ends (exec .decSnapshot s) fun t =>
      t.ms.waiting = none ∧ t.get F.DEC_REPLAY_STAT_REFUSED = satInc (2 ^ F.DEC_REPLAY_STAT_REFUSED.wid - 1) (s.get F.DEC_REPLAY_STAT_REFUSED)
      ∧ t.get (hdrPend 0x11 6) = 1 ∧ Keeps s t (onPages [0x11, 0x12]) [2] [.ms, .fresh] := by
  let u := s.nextSnap.dropWaiting
  let v := u.took.replayRefused r 0 (s.free % 71)
  have hnot : ¬ s.nextSnap.snapKept r.snap = true := fun hkept => absurd (of_decide_eq_true hkept) (Nat.not_lt.mpr hold)
  have hexec : exec .decSnapshot s = done v.replayBusy := by
    show execDecSnapshot s = _
    rw [execDecSnapshot, s.onFabric_runs _ h]
    simp only [hen, Bool.not_true, Bool.false_eq_true, if_false, hwait]
    exact if_neg hnot
  obtain ⟨hrefused, hpend, hwaiting⟩ := u.took.replayRefused_spec r 0 (s.free % 71)
  refine ⟨_, hexec, hwaiting, ?_, ?_, ?_⟩
  · rw [State.settle_get, State.replayBusy, State.put_get_other _ _ _ _ (by decide), hrefused]
    rfl
  · rw [State.settle_get, State.replayBusy, State.put_get_other _ _ _ _ (by decide), hpend]
  · exact ((((((Keeps.refl s _ _ _).withMs _ (by simp)).withMs _ (by simp)).took (by simp)).replayRefused r _ _ (by simp) (by simp)
      fun _ h => h).replayBusy (.inl (by decide))).settle

-- Replay requests (R136, R137, R172)

/-- The state whose first due request has been taken. -/
def State.takeDue (s : State) (rest : List Replay) : State := { s with ms := { s.ms with due := rest } }

/-- The engine serves a request, and the lane pauses. -/
def State.serveReplay (s : State) (r : Replay) : State :=
  ({ s with ms := { s.ms with replay := some r, caught := false }, mt := { s.mt with paused := some r.lane } } : State).replayBusy

/-- A request waits for the engine. -/
def State.waitReplay (s : State) (r : Replay) : State := ({ s with ms := { s.ms with waiting := some r } } : State).replayBusy

section
variable {s t : State} {R : Nat → Prop} {E : List Nat} {P : List Part}

theorem Keeps.takeDue (h : Keeps s t R E P) (rest : List Replay) (hp : Part.ms ∈ P) : Keeps s (t.takeDue rest) R E P := h.withMs _ hp

theorem Keeps.serveReplay (h : Keeps s t R E P) (r : Replay) (hms : Part.ms ∈ P) (hmt : Part.mt ∈ P) (hR : R F.DEC_STATUS_REPLAY_BUSY.addr) :
    Keeps s (t.serveReplay r) R E P :=
  ((h.withMs { t.ms with replay := some r, caught := false } hms).withMt { t.mt with paused := some r.lane } hmt).replayBusy hR

theorem Keeps.waitReplay (h : Keeps s t R E P) (r : Replay) (hp : Part.ms ∈ P) (hR : R F.DEC_STATUS_REPLAY_BUSY.addr) :
    Keeps s (t.waitReplay r) R E P :=
  (h.withMs { t.ms with waiting := some r } hp).replayBusy hR

end

/-- A request whose snapshot is kept is served where the engine is free, else it waits where none waits, else it is refused. -/
theorem exec_replayRequest (s : State) (r : Replay) (rest : List Replay) (a n : Nat) (h : s.runs = true) (hdue : s.ms.due = r :: rest)
    (hkept : s.ms.snap < r.snap + 4) :
    exec (.replayRequest a n) s = if s.ms.replay.isNone then done ((s.takeDue rest).serveReplay r)
      else if s.ms.waiting.isNone then done ((s.takeDue rest).waitReplay r) else done ((s.takeDue rest).replayRefused r a n) := by
  have hkept' : (s.takeDue rest).snapKept r.snap = true := decide_eq_true hkept
  show execReplayRequest a n s = _
  rw [execReplayRequest, s.onFabric_runs _ h]
  simp only [hdue]
  exact if_neg (show ¬ (!(s.takeDue rest).snapKept r.snap) = true by rw [hkept']; decide)

theorem exec_replayRequest_served (s : State) (r : Replay) (rest : List Replay) (a n : Nat) (h : s.runs = true) (hdue : s.ms.due = r :: rest)
    (hkept : s.ms.snap < r.snap + 4) (hfree : s.ms.replay = none) :
    Ends (exec (.replayRequest a n) s) fun t =>
      t.ms = { s.ms with due := rest, replay := some r, caught := false } ∧ t.mt = { s.mt with paused := some r.lane }
      ∧ t.on F.DEC_STATUS_REPLAY_BUSY = true ∧ Keeps s t (among [F.DEC_STATUS_REPLAY_BUSY.addr]) [] [.ms, .mt] := by
  have hexec : exec (.replayRequest a n) s = done ((s.takeDue rest).serveReplay r) := by
    rw [exec_replayRequest s r rest a n h hdue hkept, if_pos (by rw [hfree]; rfl)]
  refine ⟨_, hexec, rfl, rfl, ?_, ?_⟩
  · exact State.replayBusy_on _
  · exact (((Keeps.refl s _ _ _).takeDue rest (by simp)).serveReplay r (by simp) (by simp) (by simp)).settle

theorem exec_replayRequest_waits (s : State) (r q : Replay) (rest : List Replay) (a n : Nat) (h : s.runs = true) (hdue : s.ms.due = r :: rest)
    (hkept : s.ms.snap < r.snap + 4) (hbusy : s.ms.replay = some q) (hfree : s.ms.waiting = none) :
    Ends (exec (.replayRequest a n) s) fun t =>
      t.ms = { s.ms with due := rest, waiting := some r } ∧ t.on F.DEC_STATUS_REPLAY_BUSY = true
      ∧ Keeps s t (among [F.DEC_STATUS_REPLAY_BUSY.addr]) [] [.ms] := by
  have hexec : exec (.replayRequest a n) s = done ((s.takeDue rest).waitReplay r) := by
    rw [exec_replayRequest s r rest a n h hdue hkept, if_neg (by rw [hbusy]; exact Bool.false_ne_true), if_pos (by rw [hfree]; rfl)]
  refine ⟨_, hexec, rfl, ?_, ?_⟩
  · exact (State.replayBusy_on _).trans (Bool.or_true _)
  · exact (((Keeps.refl s _ _ _).takeDue rest (by simp)).waitReplay r (by simp) (by simp)).settle

-- Catch-up, handover and the end of the lane's pause (R170 to R172)

/-- The replay has caught up. -/
def State.catchUp (s : State) : State := { s with ms := { s.ms with caught := true } }

/-- The engine goes to the waiting request, if there is one, and the lane that it pauses with it. -/
def State.handOver (s : State) : State :=
  { s with
    ms := { s.ms with replay := s.ms.waiting, waiting := none, caught := false }
    mt := { s.mt with paused := s.ms.waiting.map Replay.lane } }

section
variable {s t : State} {R : Nat → Prop} {E : List Nat} {P : List Part}

theorem Keeps.catchUp (h : Keeps s t R E P) (hp : Part.ms ∈ P) : Keeps s t.catchUp R E P := h.withMs _ hp

theorem Keeps.handOver (h : Keeps s t R E P) (hms : Part.ms ∈ P) (hmt : Part.mt ∈ P) : Keeps s t.handOver R E P :=
  (h.withMs { t.ms with replay := t.ms.waiting, waiting := none, caught := false } hms).withMt _ hmt

end

theorem exec_replayCatchUp (s : State) (r : Replay) (a n pause : Nat) (h : s.runs = true) (hreplay : s.ms.replay = some r)
    (hnew : s.ms.caught = false) :
    Ends (exec (.replayCatchUp a n pause) s) fun t =>
      t.ms.caught = true ∧ t.get F.MTR_LAST_DOVETAIL_KIND = 2 ∧ t.get F.MTR_LAST_DOVETAIL_BRIDGED = (a + n) % 2 ^ F.MTR_LAST_DOVETAIL_BRIDGED.wid
      ∧ t.get (hdrPend 0x12 2) = 1 ∧ Keeps s t (onPages [0x12]) [2] [.ms] := by
  let v := s.catchUp.bridge r.unit a n
  have hexec : exec (.replayCatchUp a n pause) s = done (v.modDovetail 2 r.unit pause (a + n)) := by
    show execReplayCatchUp a n pause s = _
    rw [execReplayCatchUp, s.onFabric_runs _ h]
    split
    · next q hq =>
      obtain rfl := Option.some.inj (hreplay.symm.trans hq)
      exact if_neg (by rw [hnew]; exact Bool.false_ne_true)
    · next hq => rw [hreplay] at hq; cases hq
  have hcaught := (s.catchUp.bridge_engine r.unit a n).2
  obtain ⟨hkind, hcount, hpend, hms⟩ := v.modDovetail_spec 2 r.unit pause (a + n)
  have hv : Keeps s v (onPages [0x12]) [2] [.ms] := ((Keeps.refl s _ _ _).catchUp (by simp)).bridge r.unit a n (by simp) (.inl (by decide))
  have hkeep : Keeps s (v.modDovetail 2 r.unit pause (a + n)) (onPages [0x12]) [2] [.ms] := hv.modDovetail 2 _ _ _ (by simp) fun _ h => h
  refine ⟨_, hexec, ?_, hkind, hcount, hpend, hkeep.settle⟩
  rw [State.settle_ms, hms, hcaught]
  rfl

theorem exec_replayHandover (s : State) (h : s.runs = true) (hreplay : s.ms.replay.isSome = true) (hcaught : s.ms.caught = true) :
    Ends (exec .replayHandover s) fun t =>
      t.ms = { s.ms with replay := s.ms.waiting, waiting := none, caught := false }
      ∧ t.mt = { s.mt with paused := s.ms.waiting.map Replay.lane } ∧ t.on F.DEC_STATUS_REPLAY_BUSY = s.ms.waiting.isSome
      ∧ Keeps s t (among [F.DEC_STATUS_REPLAY_BUSY.addr, F.DEC_REPLAY_STAT_DONE.addr]) [] [.ms, .mt] := by
  have hexec : exec .replayHandover s = done (s.incSat F.DEC_REPLAY_STAT_DONE).handOver.replayBusy := by
    show execReplayHandover s = _
    rw [execReplayHandover, s.onFabric_runs _ h]
    exact if_pos ⟨hreplay, hcaught⟩
  refine ⟨_, hexec, rfl, rfl, ?_, ?_⟩
  · exact (State.replayBusy_on _).trans (Bool.or_false _)
  · exact ((((Keeps.refl s _ _ _).incSat F.DEC_REPLAY_STAT_DONE (by simp)).handOver (by simp) (by simp)).replayBusy (by simp)).settle

theorem exec_lanePauseEnd (s : State) (h : s.runs = true) (hcaught : s.ms.caught = true) :
    Ends (exec .lanePauseEnd s) fun t => t.mt = { s.mt with paused := none } ∧ Keeps s t (among []) [] [.mt] := by
  have hexec : exec .lanePauseEnd s = done { s with mt := { s.mt with paused := none } } := by
    show execLanePauseEnd s = _
    rw [execLanePauseEnd, s.onFabric_runs _ h, if_pos hcaught]
  exact ⟨_, hexec, rfl, ((Keeps.refl s _ _ _).withMt _ (by simp)).settle⟩

/-- Settles O13, clause by clause. -/
theorem trackerStates : Obligations.TrackerStates :=
  ⟨⟨exec_holdoverExpiry, exec_trackerEvaluation_unlock, exec_trackerEvaluation_lock, exec_trackerEvaluation_disabled, exec_integratorPreload⟩,
    exec_decSnapshot_kept, exec_decSnapshot_aged, exec_replayRequest_served, exec_replayRequest_waits, exec_replayCatchUp, exec_replayHandover,
    exec_lanePauseEnd⟩

end Sys2Proof.Machine

/-! Frozen reads and pulse stages (O17). -/
namespace Sys2Proof.Machine

-- Freezing (R161, R194)

/-- A read of a sparse memory cut down to the addresses that `p` chooses, at one of them. -/
theorem spRead_filter {β : Type} (d : Nat → β) (p : Nat → Bool) (l : List (Nat × β)) {a : Nat} (h : p a = true) :
    spRead d (l.filter fun q => p q.1) a = spRead d l a := by
  induction l with
  | nil => rfl
  | cons q l ih =>
    obtain ⟨x, w⟩ := q
    by_cases hx : p x = true
    · simp only [List.filter_cons, hx, if_true, spRead, ih]
    · have hne : a ≠ x := fun heq => hx (heq ▸ h)
      simp only [List.filter_cons, hx, Bool.false_eq_true, if_false, spRead, if_neg hne, ih]

theorem Keeps.freeze {s t : State} {R : Nat → Prop} {E : List Nat} {P : List Part} (h : Keeps s t R E P) (req : Req) (snap : Bool)
    (k lo hi : Nat) (hp : Part.mt ∈ P) : Keeps s (t.freeze req snap k lo hi) R E P := h.withMt _ hp

/-- A freeze holds the words of its range for its requester, and every other copy as it was. -/
theorem State.freeze_frozen (s : State) (req : Req) (snap : Bool) (k lo hi : Nat) :
    (∃ f ∈ (s.freeze req snap k lo hi).mt.frozen, f.req = req ∧ f.snap = snap ∧ f.outlet = k ∧
        ∀ o, lo ≤ o → o ≤ hi → spRead resetWord f.words (0x20000 + 4096 * k + o) = s.reg (0x20000 + 4096 * k + o))
      ∧ ∀ f, (f.req ≠ req ∨ f.snap ≠ snap ∨ f.outlet ≠ k) → (f ∈ (s.freeze req snap k lo hi).mt.frozen ↔ f ∈ s.mt.frozen) := by
  let base := 0x20000 + 4096 * k
  let inside (a : Nat) : Bool := decide (base + lo ≤ a) && decide (a ≤ base + hi)
  have hfrozen : (s.freeze req snap k lo hi).mt.frozen = (s.mt.frozen.filter fun f => !(f.req == req && f.snap == snap && f.outlet == k))
      ++ [⟨req, snap, k, s.regs.filter fun p => inside p.1⟩] := rfl
  rw [hfrozen]
  refine ⟨⟨_, List.mem_append_right _ (List.mem_singleton.mpr rfl), rfl, rfl, rfl, fun o hlo hhi => ?_⟩, fun f hf => ?_⟩
  · exact spRead_filter resetWord inside s.regs (by simp only [inside, base, Bool.and_eq_true, decide_eq_true_eq]; omega)
  · have hother : f ≠ ⟨req, snap, k, s.regs.filter fun p => inside p.1⟩ := by
      rintro rfl
      simp at hf
    have hstays : (!(f.req == req && f.snap == snap && f.outlet == k)) = true := by
      simp only [Bool.not_eq_true', Bool.and_eq_false_iff, beq_eq_false_iff_ne]
      tauto
    simp only [List.mem_append, List.mem_filter, List.mem_singleton, hother, hstays, and_true, or_false]

theorem exec_qstatRead (s : State) (req : Req) (k : Fin 12) (h : s.runs = true) :
    Ends (exec (.qstatRead req k) s) fun t =>
      (∃ f ∈ t.mt.frozen, f.req = req ∧ f.snap = false ∧ f.outlet = k.val ∧
        ∀ o, 0x110 ≤ o → o ≤ 0x2FC → spRead resetWord f.words (0x20000 + 4096 * k.val + o) = s.reg (0x20000 + 4096 * k.val + o))
      ∧ (∀ f, (f.req ≠ req ∨ f.snap = true ∨ f.outlet ≠ k.val) → (f ∈ t.mt.frozen ↔ f ∈ s.mt.frozen)) ∧ Keeps s t (among []) [] [.mt] := by
  have hexec : exec (.qstatRead req k) s = done (s.freeze req false k 0x110 0x2FC) := by
    show execQstatRead req k s = _
    exact s.onFabric_runs _ h
  obtain ⟨htaken, hothers⟩ := s.freeze_frozen req false k 0x110 0x2FC
  refine ⟨_, hexec, htaken, fun f hf => hothers f ?_, ((Keeps.refl s _ _ _).freeze req false k 0x110 0x2FC (by simp)).settle⟩
  exact hf.imp_right (Or.imp_left ne_false_of_eq_true)

theorem exec_snapSeqRead (s : State) (req : Req) (k : Fin 12) (h : s.runs = true) :
    Ends (exec (.snapSeqRead req k) s) fun t =>
      (∃ f ∈ t.mt.frozen, f.req = req ∧ f.snap = true ∧ f.outlet = k.val ∧
        ∀ o, 0x404 ≤ o → o ≤ 0x41C → spRead resetWord f.words (0x20000 + 4096 * k.val + o) = s.reg (0x20000 + 4096 * k.val + o))
      ∧ (∀ f, (f.req ≠ req ∨ f.snap = false ∨ f.outlet ≠ k.val) → (f ∈ t.mt.frozen ↔ f ∈ s.mt.frozen)) ∧ Keeps s t (among []) [] [.mt] := by
  have hexec : exec (.snapSeqRead req k) s = done (s.freeze req true k 0x404 0x41C) := by
    show execSnapSeqRead req k s = _
    exact s.onFabric_runs _ h
  obtain ⟨htaken, hothers⟩ := s.freeze_frozen req true k 0x404 0x41C
  refine ⟨_, hexec, htaken, fun f hf => hothers f ?_, ((Keeps.refl s _ _ _).freeze req true k 0x404 0x41C (by simp)).settle⟩
  exact hf.imp_right (Or.imp_left ne_true_of_eq_false)

-- Pulse stages (R212, R213, R216)

@[simp] theorem State.setStage_stage_same (s : State) (n : Nat) (x : Stage) : (s.setStage n x).stage n = x := spRead_spWrite_same _ _ _ _

theorem State.setStage_stage_other (s : State) (n m : Nat) (x : Stage) (h : m ≠ n) : (s.setStage n x).stage m = s.stage m :=
  spRead_spWrite_other _ _ _ _ _ h

@[simp] theorem State.setStage_get (s : State) (n : Nat) (x : Stage) (f : Fld) : (s.setStage n x).get f = s.get f := rfl
@[simp] theorem State.settle_stage (s : State) (n : Nat) : s.settle.stage n = s.stage n := rfl
@[simp] theorem State.inc_stage (s : State) (f : Fld) (n : Nat) : (s.inc f).stage n = s.stage n := rfl
@[simp] theorem State.setReg_stage (s : State) (a : Nat) (w : W32) (n : Nat) : (s.setReg a w).stage n = s.stage n := rfl

@[simp] theorem State.stagePin_get (s : State) (n : Nat) (b : Bool) (f : Fld) : (s.stagePin n b).get f = s.get f := rfl
@[simp] theorem State.stagePin_on (s : State) (n : Nat) (b : Bool) (f : Fld) : (s.stagePin n b).on f = s.on f := rfl

theorem State.stagePin_stage_same (s : State) (n : Nat) (active : Bool) :
    (s.stagePin n active).stage n =
      { s.stage n with pin := s.enabled 0x15 && s.on (F.PLS_STG_CFG_EN n) && (active != s.on (F.PLS_STG_CFG_POL n)) } :=
  s.setStage_stage_same n _

theorem State.stagePin_stage_other (s : State) (n m : Nat) (active : Bool) (h : m ≠ n) : (s.stagePin n active).stage m = s.stage m :=
  s.setStage_stage_other n m _ h

section
variable {s t : State} {R : Nat → Prop} {E : List Nat} {P : List Part}

theorem Keeps.setStage (h : Keeps s t R E P) (n : Nat) (x : Stage) (hp : Part.mt ∈ P) : Keeps s (t.setStage n x) R E P := h.withMt _ hp

theorem Keeps.stagePin (h : Keeps s t R E P) (n : Nat) (b : Bool) (hp : Part.mt ∈ P) : Keeps s (t.stagePin n b) R E P := h.setStage _ _ hp

end

/-- A stage's registers are apart: CFG, COUNT and STAT. -/
theorem plsStg_apart (n : Nat) :
    (F.PLS_STG_CFG_EN n).addr ∉ [(F.PLS_STG_STAT_PENDING n).addr, (F.PLS_STG_COUNT n).addr]
      ∧ (F.PLS_STG_CFG_POL n).addr ∉ [(F.PLS_STG_STAT_PENDING n).addr, (F.PLS_STG_COUNT n).addr]
      ∧ (hdrEnable 0x15).addr ∉ [(F.PLS_STG_STAT_PENDING n).addr, (F.PLS_STG_COUNT n).addr]
      ∧ (F.PLS_STG_COUNT n).addr ≠ (F.PLS_STG_STAT_PENDING n).addr := by
  simp only [F.PLS_STG_CFG_EN, F.PLS_STG_CFG_POL, F.PLS_STG_STAT_PENDING, F.PLS_STG_COUNT, hdrEnable, List.mem_cons, List.not_mem_nil, or_false]
  omega

/-- Stage n takes a pending pulse: PENDING counts down, ACTIVE is set, and the time since the start is counted anew. -/
def State.takePulse (s : State) (n : Nat) : State :=
  let x := s.stage n
  let w := s.get (F.PLS_STG_CFG_WIDTH n) * ms1
  let s := (s.put (F.PLS_STG_STAT_PENDING n) (s.get (F.PLS_STG_STAT_PENDING n) - 1)).put (F.PLS_STG_STAT_ACTIVE n) 1
  s.setStage n { x with since := 0, width := if x.since < 2 * w ∧ s.get (F.PLS_STG_COUNT n) ≠ 0 then x.since / 2 else w }

theorem State.takePulse_spec (s : State) (n : Nat) :
    (s.takePulse n).get (F.PLS_STG_STAT_PENDING n) = s.get (F.PLS_STG_STAT_PENDING n) - 1
      ∧ (s.takePulse n).on (F.PLS_STG_STAT_ACTIVE n) = true ∧ (s.takePulse n).get (F.PLS_STG_COUNT n) = s.get (F.PLS_STG_COUNT n) := by
  obtain ⟨-, -, -, hcount⟩ := plsStg_apart n
  have hfit : s.get (F.PLS_STG_STAT_PENDING n) < 2 ^ 9 := s.get_lt _
  refine ⟨?_, ?_, ?_⟩
  · rw [State.takePulse, State.setStage_get, State.put_get_apart _ _ _ _ (show 15 + 1 ≤ 32 by decide) (.inr (.inr (show 0 + 9 ≤ 15 by decide))),
      State.put_get_same _ _ _ (show 0 + 9 ≤ 32 by decide)]
    exact Nat.mod_eq_of_lt (lt_of_le_of_lt (Nat.sub_le _ _) hfit)
  · exact State.put_on_bool _ (F.PLS_STG_STAT_ACTIVE n) true rfl (show 15 + 1 ≤ 32 by decide)
  · exact (State.put_get_other _ (F.PLS_STG_STAT_ACTIVE n) _ _ hcount).trans (State.put_get_other _ _ _ _ hcount)

theorem State.takePulse_keeps (s : State) (n : Nat) : Keeps s (s.takePulse n) (among [(F.PLS_STG_STAT_PENDING n).addr]) [] [.mt] :=
  (((Keeps.refl s _ _ _).put (F.PLS_STG_STAT_PENDING n) _ List.mem_cons_self).put (F.PLS_STG_STAT_ACTIVE n) _ List.mem_cons_self).setStage n _ (by simp)

theorem exec_pulseStart_taken (s : State) (n : Fin 16) (h : s.runs = true) (hen : s.enabled 0x15 = true) (hcfg : s.on (F.PLS_STG_CFG_EN n) = true)
    (hidle : s.on (F.PLS_STG_STAT_ACTIVE n) = false) (hpend : s.get (F.PLS_STG_STAT_PENDING n) ≠ 0) (hsince : us500 ≤ (s.stage n).since) :
    Ends (exec (.pulseStart n) s) fun t =>
      t.get (F.PLS_STG_STAT_PENDING n) = s.get (F.PLS_STG_STAT_PENDING n) - 1 ∧ t.on (F.PLS_STG_STAT_ACTIVE n) = true
      ∧ t.get (F.PLS_STG_COUNT n) = (s.get (F.PLS_STG_COUNT n) + 1) % 2 ^ 32 ∧ (t.stage n).pin = (!s.on (F.PLS_STG_CFG_POL n))
      ∧ (t.stage n).since = 0 ∧ (t.stage n).e = (s.stage n).e ∧ (∀ m, m ≠ n.val → t.stage m = s.stage m)
      ∧ Keeps s t (among [(F.PLS_STG_STAT_PENDING n).addr, (F.PLS_STG_COUNT n).addr]) [] [.mt] := by
  let u := (s.takePulse n).inc (F.PLS_STG_COUNT n)
  have hready : (s.enabled 0x15 && s.on (F.PLS_STG_CFG_EN n) && !s.on (F.PLS_STG_STAT_ACTIVE n) && s.get (F.PLS_STG_STAT_PENDING n) != 0
      && (decide (us500 ≤ (s.stage n).since) || s.get (F.PLS_STG_COUNT n) == 0)) = true := by
    simp [hen, hcfg, hidle, hpend, hsince]
  have hexec : exec (.pulseStart n) s = done (u.stagePin n true) := by
    show execPulseStart n s = _
    rw [execPulseStart, s.onFabric_runs _ h]
    exact if_pos hready
  obtain ⟨hcfgApart, hpolApart, henApart, hcount⟩ := plsStg_apart n
  obtain ⟨htaken, hactive, hcounted⟩ := s.takePulse_spec n
  have hu : Keeps s u (among [(F.PLS_STG_STAT_PENDING n).addr, (F.PLS_STG_COUNT n).addr]) [] [.mt] :=
    ((s.takePulse_keeps n).mono (fun a ha => by simp_all) (fun _ h => h) fun _ h => h).inc (F.PLS_STG_COUNT n) (by simp)
  have hstage : (u.stagePin n true).stage n = { (s.takePulse n).stage n with pin := !s.on (F.PLS_STG_CFG_POL n) } := by
    rw [State.stagePin_stage_same, State.enabled, hu.on _ henApart, hu.on _ hcfgApart, hu.on _ hpolApart, hcfg,
      show s.on (hdrEnable 0x15) = true from hen]
    simp [u]
  refine ⟨_, hexec, ?_, ?_, ?_, ?_, ?_, ?_, fun m hm => ?_, (hu.stagePin n true (by simp)).settle⟩
  · rw [State.settle_get, State.stagePin_get]
    exact (State.put_get_other _ _ _ _ hcount.symm).trans htaken
  · rw [State.settle_on, State.stagePin_on]
    exact (State.put_on_other _ (F.PLS_STG_COUNT n) (F.PLS_STG_STAT_ACTIVE n) _ hcount.symm).trans hactive
  · rw [State.settle_get, State.stagePin_get, State.inc_get_same _ _ (show 0 + 32 ≤ 32 by decide), hcounted]
    rfl
  · rw [State.settle_stage, hstage]
  · rw [State.settle_stage, hstage, State.takePulse, State.setStage_stage_same]
  · rw [State.settle_stage, hstage, State.takePulse, State.setStage_stage_same]
  · rw [State.settle_stage, State.stagePin_stage_other _ _ _ _ hm, State.inc_stage]
    exact State.setStage_stage_other _ _ _ _ hm

theorem exec_pulseStart_early (s : State) (n : Fin 16) (h : s.runs = true) (hcount : s.get (F.PLS_STG_COUNT n) ≠ 0)
    (hsince : (s.stage n).since < us500) : Ends (exec (.pulseStart n) s) fun t => Keeps s t (among []) [] [] := by
  have hearly : ¬ (s.enabled 0x15 && s.on (F.PLS_STG_CFG_EN n) && !s.on (F.PLS_STG_STAT_ACTIVE n) && s.get (F.PLS_STG_STAT_PENDING n) != 0
      && (decide (us500 ≤ (s.stage n).since) || s.get (F.PLS_STG_COUNT n) == 0)) = true := by
    have hwait : ¬ us500 ≤ (s.stage n).since := Nat.not_le.mpr hsince
    simp [hcount, hwait]
  have hexec : exec (.pulseStart n) s = done s := by
    show execPulseStart n s = _
    rw [execPulseStart, s.onFabric_runs _ h]
    exact if_neg hearly
  exact ⟨_, hexec, (Keeps.refl s _ _ _).settle⟩

theorem exec_pulseEnd (s : State) (n : Fin 16) (h : s.runs = true) (hactive : s.on (F.PLS_STG_STAT_ACTIVE n) = true) :
    Ends (exec (.pulseEnd n) s) fun t =>
      t.on (F.PLS_STG_STAT_ACTIVE n) = false
      ∧ (t.stage n).pin = (s.enabled 0x15 && s.on (F.PLS_STG_CFG_EN n) && s.on (F.PLS_STG_CFG_POL n))
      ∧ (∀ m, m ≠ n.val → t.stage m = s.stage m) ∧ Keeps s t (among [(F.PLS_STG_STAT_ACTIVE n).addr]) [] [.mt] := by
  let u := s.put (F.PLS_STG_STAT_ACTIVE n) 0
  have hexec : exec (.pulseEnd n) s = done (u.stagePin n false) := by
    show execPulseEnd n s = _
    rw [execPulseEnd, s.onFabric_runs _ h, if_pos hactive]
  obtain ⟨hcfgApart, hpolApart, henApart, -⟩ := plsStg_apart n
  have hu : Keeps s u (among [(F.PLS_STG_STAT_ACTIVE n).addr]) [] [.mt] := (Keeps.refl s _ _ _).put _ _ (by simp)
  have hon (f : Fld) (hf : f.addr ∉ [(F.PLS_STG_STAT_PENDING n).addr, (F.PLS_STG_COUNT n).addr]) : u.on f = s.on f :=
    State.put_on_other _ _ _ _ fun heq => hf (heq ▸ List.mem_cons_self)
  refine ⟨_, hexec, ?_, ?_, fun m hm => ?_, (hu.stagePin n false (by simp)).settle⟩
  · exact State.put_on_bool _ (F.PLS_STG_STAT_ACTIVE n) false rfl (show 15 + 1 ≤ 32 by decide)
  · rw [State.settle_stage, State.stagePin_stage_same, State.enabled, State.enabled, hon _ henApart, hon _ hcfgApart, hon _ hpolApart]
    simp
  · rw [State.settle_stage, State.stagePin_stage_other _ _ _ _ hm]
    rfl

/-- A stage that is set begins with an empty record and its COUNT and STAT clear. -/
theorem State.stageStart_spec (s : State) (n : Nat) :
    (s.stageStart n).on (F.PLS_STG_CFG_EN n) = true ∧ (s.stageStart n).reg (A.PLS_STG_COUNT n) = 0
      ∧ (s.stageStart n).reg (A.PLS_STG_STAT n) = 0 ∧ ((s.stageStart n).stage n).e = 0 ∧ ((s.stageStart n).stage n).r = 0
      ∧ ∀ m, m ≠ n → (s.stageStart n).stage m = s.stage m := by
  let u := (s.put (F.PLS_STG_CFG_EN n) 1).setStage n {}
  let v := (u.setReg (A.PLS_STG_COUNT n) 0).setReg (A.PLS_STG_STAT n) 0
  have heq : s.stageStart n = v.stagePin n false := rfl
  have hreg (a : Nat) : (s.stageStart n).reg a = v.reg a := rfl
  have hstage : (s.stageStart n).stage n = { ({} : Stage) with pin := ((s.stageStart n).stage n).pin } := by
    rw [heq, State.stagePin_stage_same]
    simp only [v, u, State.setReg_stage, State.setStage_stage_same]
  refine ⟨?_, ?_, ?_, by rw [hstage], by rw [hstage], fun m hm => ?_⟩
  · have hcount : (F.PLS_STG_CFG_EN n).addr ≠ A.PLS_STG_COUNT n := by
      simp only [F.PLS_STG_CFG_EN, A.PLS_STG_COUNT]
      omega
    have hstat : (F.PLS_STG_CFG_EN n).addr ≠ A.PLS_STG_STAT n := by
      simp only [F.PLS_STG_CFG_EN, A.PLS_STG_STAT]
      omega
    have hon : v.on (F.PLS_STG_CFG_EN n) = u.on (F.PLS_STG_CFG_EN n) :=
      congrArg (fun w => getBits w 0 1 != 0) ((State.setReg_reg_other _ _ _ _ hstat).trans (State.setReg_reg_other _ _ _ _ hcount))
    rw [heq, State.stagePin_on, hon]
    exact State.put_on_bool _ (F.PLS_STG_CFG_EN n) true rfl (show 0 + 1 ≤ 32 by decide)
  · rw [hreg, State.setReg_reg_other _ _ _ _ (by simp only [A.PLS_STG_COUNT, A.PLS_STG_STAT]; omega), State.setReg_reg_same]
  · rw [hreg, State.setReg_reg_same]
  · rw [heq, State.stagePin_stage_other _ _ _ _ hm]
    exact State.setStage_stage_other _ _ _ _ hm

theorem State.stageStart_keeps (s : State) (n : Nat) :
    Keeps s (s.stageStart n) (among [(F.PLS_STG_CFG_EN n).addr, (F.PLS_STG_STAT_PENDING n).addr, (F.PLS_STG_COUNT n).addr]) [] [.mt] := by
  have hset : Keeps s ((s.put (F.PLS_STG_CFG_EN n) 1).setStage n {})
      (among [(F.PLS_STG_CFG_EN n).addr, (F.PLS_STG_STAT_PENDING n).addr, (F.PLS_STG_COUNT n).addr]) [] [.mt] :=
    ((Keeps.refl s _ _ _).put (F.PLS_STG_CFG_EN n) 1 (by simp)).setStage n {} (by simp)
  exact ((hset.setReg (A.PLS_STG_COUNT n) 0 (.tail _ (.tail _ (.head _)))).setReg (A.PLS_STG_STAT n) 0 (.tail _ (.head _))).stagePin n false
    (by simp)

/-- A field of a register that holds 0 reads 0. -/
theorem State.get_eq_zero_of_reg (s : State) (f : Fld) (h : s.reg f.addr = 0) : s.get f = 0 := by
  simp [State.get, getBits, h]

theorem exec_plsStageEnable (s : State) (n : Fin 16) (h : s.runs = true) (hoff : s.on (F.PLS_STG_CFG_EN n) = false) :
    Ends (exec (.plsStageEnable n) s) fun t =>
      t.on (F.PLS_STG_CFG_EN n) = true ∧ t.get (F.PLS_STG_COUNT n) = 0 ∧ t.get (F.PLS_STG_STAT_PENDING n) = 0 ∧ t.get (F.PLS_STG_STAT_DROPPED n) = 0
      ∧ (t.stage n).e = 0 ∧ (t.stage n).r = 0 ∧ t.get (hdrSeq 0x15) = (s.get (hdrSeq 0x15) + 1) % 2 ^ 32 ∧ (∀ m, m ≠ n.val → t.stage m = s.stage m)
      ∧ Keeps s t (among [(F.PLS_STG_CFG_EN n).addr, (F.PLS_STG_STAT_PENDING n).addr, (F.PLS_STG_COUNT n).addr, 0x15024]) [] [.mt] := by
  have hexec : exec (.plsStageEnable n) s = done ((s.stageStart n).bumpSeq 0x15) := by
    show execPlsStageEnable n s = _
    rw [execPlsStageEnable, s.onFabric_runs _ h]
    exact if_neg (by rw [hoff]; exact Bool.false_ne_true)
  obtain ⟨hon, hcount, hstat, he, hr, hothers⟩ := s.stageStart_spec n
  have hblock (f : Fld) (hf : 0x15100 ≤ f.addr ∧ f.addr < 0x15200) : ((s.stageStart n).bumpSeq 0x15).settle.get f = (s.stageStart n).get f := by
    rw [State.settle_get, State.bumpSeq_get_block _ _ _ (by omega)]
  have hrange (x : Nat) (hx : 0x15100 + 16 * n.val ≤ x ∧ x ≤ 0x1510C + 16 * n.val) : 0x15100 ≤ x ∧ x < 0x15200 := by omega
  have hkeep := s.stageStart_keeps n
  have hseq : (hdrSeq 0x15).addr ∉ [(F.PLS_STG_CFG_EN n).addr, (F.PLS_STG_STAT_PENDING n).addr, (F.PLS_STG_COUNT n).addr] := by
    simp only [F.PLS_STG_CFG_EN, F.PLS_STG_STAT_PENDING, F.PLS_STG_COUNT, hdrSeq, List.mem_cons, List.not_mem_nil, or_false]
    omega
  refine ⟨_, hexec, ?_, ?_, ?_, ?_, he, hr, ?_, hothers,
    ((hkeep.mono (fun a ha => by simp_all; tauto) (fun _ h => h) fun _ h => h).bumpSeq 0x15 (by simp)).settle⟩
  · rw [State.on, hblock _ (hrange _ (by simp only [F.PLS_STG_CFG_EN]; omega))]
    exact hon
  · rw [hblock _ (hrange _ (by simp only [F.PLS_STG_COUNT]; omega)), State.get_eq_zero_of_reg _ (F.PLS_STG_COUNT n) hcount]
  · rw [hblock _ (hrange _ (by simp only [F.PLS_STG_STAT_PENDING]; omega)), State.get_eq_zero_of_reg _ (F.PLS_STG_STAT_PENDING n) hstat]
  · rw [hblock _ (hrange _ (by simp only [F.PLS_STG_STAT_DROPPED]; omega)), State.get_eq_zero_of_reg _ (F.PLS_STG_STAT_DROPPED n) hstat]
  · rw [State.settle_get, State.bumpSeq_get_seq, hkeep.get (hdrSeq 0x15) hseq]

end Sys2Proof.Machine

/-! An output sample enters the histories, the stages and the capture (O17). -/
namespace Sys2Proof.Machine

section
variable {s t : State} {R : Nat → Prop} {E : List Nat} {P : List Part}

theorem Keeps.withPq (h : Keeps s t R E P) (x : Pqe) (hp : Part.pq ∈ P) : Keeps s { t with pq := x } R E P :=
  h.fields fun p hp' => by cases p <;> simp_all [Part.same, State.sramByte]

/-- A loop whose every turn over an element of its list stays within the bounds. -/
theorem Keeps.foldlMem {α : Type} (f : State → α → State) (l : List α) (hf : ∀ u, ∀ x ∈ l, Keeps s u R E P → Keeps s (f u x) R E P)
    (h : Keeps s t R E P) : Keeps s (l.foldl f t) R E P :=
  List.foldlRecOn l f (motive := fun u => Keeps s u R E P) h fun u hu x hx => hf u x hx hu

end

@[simp] theorem State.event_mt (s : State) (p b u : Nat) : (s.event p b u).mt = s.mt := s.event_part p b u .mt

-- One channel's sample (R129, R132)

/-- What a sample's tags say: the channel settles, the tracker is not locked, the sample is clipped. -/
theorem sampleTags_bits {settling clipped : Bool} {locked invalid bridged : Prop} [Decidable locked] [Decidable invalid] [Decidable bridged]
    {tags : Nat} (h : tags = (if settling then tagSettling else 0) + (if locked then 0 else tagUnlocked) + (if invalid then tagInvalid else 0)
      + (if clipped then tagClipped else 0) + (if bridged then tagBridged else 0)) :
    tags.testBit 1 = settling ∧ tags.testBit 2 = decide (¬ locked) ∧ tags.testBit 4 = clipped := by
  have hbits : ∀ a b c d e : Bool,
      let tags := (if a then 2 else 0) + (if b then 0 else 4) + (if c then 8 else 0) + (if d then 16 else 0) + (if e then 32 else 0)
      tags.testBit 1 = a ∧ tags.testBit 2 = !b ∧ tags.testBit 4 = d := by decide
  simpa [h, tagSettling, tagUnlocked, tagInvalid, tagClipped, tagBridged] using
    hbits settling (decide locked) (decide invalid) clipped (decide bridged)

/-- What a sample leaves beside the history: a bridged one is counted, and the first clipped one of a channel is latched and reported. -/
def State.noteSample (s : State) (c bridged : Nat) (clip : Bool) : State :=
  let s := if bridged ≠ 0 then s.incSat F.MTR_BRIDGE_CNT else s
  if clip && !s.on (bitFld64 A.DEC_CLIP_LO c) then (s.put (bitFld64 A.DEC_CLIP_LO c) 1).event 0x11 4 c else s

/-- The registers the samples of an instant may touch: BRIDGE_CNT, CLIP and the clip event. -/
abbrev sampleRegs (a : Nat) : Prop := among [F.MTR_BRIDGE_CNT.addr, A.DEC_CLIP_LO, A.DEC_CLIP_LO + 4] a ∨ eventRegs 0x11 4 a

section
variable {s t : State} {R : Nat → Prop} {E : List Nat} {P : List Part}

theorem Keeps.noteSample (h : Keeps s t R E P) (c bridged : Nat) (clip : Bool) (he : 2 ∈ E) (hR : ∀ a, sampleRegs a → R a) :
    Keeps s (t.noteSample c bridged clip) R E P := by
  have hclip : R (bitFld64 A.DEC_CLIP_LO c).addr := bitFld64_within R (hR _ (.inl (by simp))) (hR _ (.inl (by simp))) c
  have hcount : Keeps s (if bridged ≠ 0 then t.incSat F.MTR_BRIDGE_CNT else t) R E P :=
    Keeps.ite (h.incSat F.MTR_BRIDGE_CNT (hR _ (.inl (by simp)))) h
  exact Keeps.ite ((hcount.put _ 1 hclip).eventWithin 0x11 4 c he fun a ha => hR a (.inr ha)) hcount

end

theorem State.noteSample_part (s : State) (c bridged : Nat) (clip : Bool) (p : Part) : p.same s (s.noteSample c bridged clip) :=
  (Keeps.noteSample (Keeps.refl s sampleRegs [2] []) c bridged clip (by simp) fun _ h => h).parts p (by simp)

theorem State.noteSample_ms (s : State) (c bridged : Nat) (clip : Bool) : (s.noteSample c bridged clip).ms = s.ms :=
  s.noteSample_part c bridged clip .ms

theorem State.chanSample_idle (s : State) (x : Int) (w v : List Int) (step c : Nat) (h : s.ms.live.testBit c = false) :
    s.chanSample x w v step c = s := by
  rw [State.chanSample, if_pos (by rw [h]; rfl)]

/-- A running channel's sample goes to the head of its history with its tags, and its filters, spans and bridge move on. -/
theorem State.chanSample_live (s : State) (x : Int) (w v : List Int) (step c : Nat) (h : s.ms.live.testBit c = true) :
    ∃ (m : Measure) (bridged : Nat) (y : Hist), s.chanSample x w v step c = State.noteSample { s with ms := m } c bridged (decide (sat24 x ≠ x))
      ∧ m.hist = spWrite (fun _ => []) s.ms.hist c ((y :: s.histOf c).take 512) ∧ m.live = s.ms.live ∧ m.idx = s.ms.idx ∧ m.acc = s.ms.acc
      ∧ y.tags.testBit 1 = s.on (settleF c) ∧ y.tags.testBit 2 = decide (s.trk ≠ trkLocked) ∧ y.tags.testBit 4 = decide (sat24 x ≠ x) := by
  rw [State.chanSample, if_neg (by rw [h]; exact Bool.false_ne_true)]
  generalize (if s.injected c then s.injection c w v else (0, 0)) = e
  obtain ⟨e, e'⟩ := e
  exact ⟨_, _, _, rfl, rfl, rfl, rfl, rfl, sampleTags_bits rfl⟩

theorem Keeps.chanSample {s t : State} {R : Nat → Prop} {E : List Nat} {P : List Part} (h : Keeps s t R E P) (x : Int) (w v : List Int)
    (step c : Nat) (he : 2 ∈ E) (hp : Part.ms ∈ P) (hR : ∀ a, sampleRegs a → R a) : Keeps s (t.chanSample x w v step c) R E P := by
  cases hlive : t.ms.live.testBit c with
  | false => rwa [t.chanSample_idle x w v step c hlive]
  | true =>
    obtain ⟨m, bridged, y, heq, -⟩ := t.chanSample_live x w v step c hlive
    rw [heq]
    exact (h.withMs m hp).noteSample c bridged _ he hR

-- All channels at an instant

/-- The channels below `n` have delivered the samples `values` of an instant that began in `s`. -/
structure Sampled (s t : State) (values : List Int) (n : Nat) : Prop where
  live : t.ms.live = s.ms.live
  idx : t.ms.idx = s.ms.idx
  acc : t.ms.acc = s.ms.acc
  idle : ∀ c, (n ≤ c ∨ s.ms.live.testBit c = false) → t.histOf c = s.histOf c
  taken : ∀ c, c < n → s.ms.live.testBit c = true → ∃ h, t.histOf c = (h :: s.histOf c).take 512 ∧ h.tags.testBit 1 = s.on (settleF c)
    ∧ h.tags.testBit 2 = decide (s.trk ≠ trkLocked) ∧ h.tags.testBit 4 = decide (sat24 (values.getD c 0) ≠ values.getD c 0)

theorem State.samples_keeps (s : State) (values w v : List Int) (step n : Nat) :
    Keeps s ((List.range n).foldl (fun s c => s.chanSample (values.getD c 0) w v step c) s) sampleRegs [2] [.ms] :=
  Keeps.foldl _ (fun _ c hu => hu.chanSample _ w v step c (by simp) (by simp) fun _ h => h) _ s (Keeps.refl s _ _ _)

theorem settleF_apart (c : Nat) : ¬ sampleRegs (settleF c).addr := by
  rcases bitFld64_addr A.DEC_SETTLE_LO c with h | h <;> rw [settleF, h] <;> decide

/-- One more channel: it takes its sample, every other channel keeps its history. -/
theorem Sampled.chanSample {s t : State} {values : List Int} {n : Nat} (h : Sampled s t values n) (hk : Keeps s t sampleRegs [2] [.ms])
    (w v : List Int) (step : Nat) : Sampled s (t.chanSample (values.getD n 0) w v step n) values (n + 1) := by
  cases hlive : s.ms.live.testBit n with
  | false =>
    rw [t.chanSample_idle _ w v step n (by rw [h.live, hlive])]
    refine ⟨h.live, h.idx, h.acc, fun c hc => h.idle c (hc.imp_left Nat.le_of_succ_le), fun c hc hon => h.taken c ?_ hon⟩
    exact lt_of_le_of_ne (Nat.le_of_lt_succ hc) fun heq => by simp [heq, hlive] at hon
  | true =>
    obtain ⟨m, bridged, y, heq, hhist, hmlive, hidx, hacc, hsettle, hlocked, hclip⟩ :=
      t.chanSample_live (values.getD n 0) w v step n (by rw [h.live, hlive])
    have hms : (t.chanSample (values.getD n 0) w v step n).ms = m := by rw [heq, State.noteSample_ms]
    have hother (c : Nat) (hc : c ≠ n) : (t.chanSample (values.getD n 0) w v step n).histOf c = t.histOf c := by
      rw [State.histOf, hms, hhist]
      exact spRead_spWrite_other _ _ _ _ _ hc
    refine ⟨by rw [hms, hmlive, h.live], by rw [hms, hidx, h.idx], by rw [hms, hacc, h.acc], fun c hc => ?_, fun c hc hon => ?_⟩
    · have hne : c ≠ n := by
        rintro rfl
        rcases hc with hc | hc
        · omega
        · simp [hlive] at hc
      rw [hother c hne]
      exact h.idle c (hc.imp_left Nat.le_of_succ_le)
    · rcases Nat.lt_succ_iff_lt_or_eq.mp hc with hlt | rfl
      · rw [hother c (Nat.ne_of_lt hlt)]
        exact h.taken c hlt hon
      · refine ⟨y, ?_, hsettle.trans (hk.on _ (settleF_apart c)), ?_, hclip⟩
        · rw [State.histOf, hms, hhist, spRead_spWrite_same, h.idle c (.inl (Nat.le_refl c))]
        · rw [hlocked, State.trk, State.trk, hk.get _ (by decide)]

theorem State.samples_spec (s : State) (values w v : List Int) (step n : Nat) :
    Sampled s ((List.range n).foldl (fun s c => s.chanSample (values.getD c 0) w v step c) s) values n := by
  induction n with
  | zero => exact ⟨rfl, rfl, rfl, fun _ _ => rfl, fun c hc => absurd hc (Nat.not_lt_zero c)⟩
  | succ n ih =>
    rw [List.range_succ, List.foldl_concat]
    exact ih.chanSample (s.samples_keeps values w v step n) w v step

/-- Chips are counted on in their two fields only. -/
theorem State.chipAdvance_eq (s : State) (step : Nat) :
    ∃ p l, s.chipAdvance step = { s with ms := { s.ms with chipPos := p, chips := l } } := by
  unfold State.chipAdvance
  dsimp only
  split <;> exact ⟨_, _, rfl⟩

/-- The instant is counted: the position in the line cycle, the phase and the samples delivered. -/
def State.countSample (s : State) (step : Nat) : State :=
  { s with ms := { s.ms with idx := s.ms.idx + 1, acc := (s.ms.acc + step) % 2 ^ 36 }, mt := { s.mt with total := s.mt.total + 1 } }

section
variable {s t : State} {R : Nat → Prop} {E : List Nat} {P : List Part}

theorem Keeps.countSample (h : Keeps s t R E P) (step : Nat) (hms : Part.ms ∈ P) (hmt : Part.mt ∈ P) : Keeps s (t.countSample step) R E P :=
  h.fields fun p hp' => by cases p <;> simp_all [Part.same, State.sramByte]

theorem Keeps.chipAdvance (h : Keeps s t R E P) (step : Nat) (hp : Part.ms ∈ P) : Keeps s (t.chipAdvance step) R E P := by
  obtain ⟨p, l, heq⟩ := t.chipAdvance_eq step
  rw [heq]
  exact h.withMs _ hp

end

theorem State.sampleAll_spec (s : State) (values w v : List Int) :
    (s.sampleAll values w v).ms.idx = s.ms.idx + 1 ∧ (s.sampleAll values w v).ms.acc = (s.ms.acc + s.get F.DEC_INCR) % 2 ^ 36
      ∧ (s.sampleAll values w v).mt = { s.mt with total := s.mt.total + 1 }
      ∧ (∀ c, s.ms.live.testBit c = false → (s.sampleAll values w v).histOf c = s.histOf c)
      ∧ (∀ c, c < 64 → s.ms.live.testBit c = true → ∃ h, (s.sampleAll values w v).histOf c = (h :: s.histOf c).take 512
          ∧ h.tags.testBit 1 = s.on (settleF c) ∧ h.tags.testBit 2 = decide (s.trk ≠ trkLocked)
          ∧ h.tags.testBit 4 = decide (sat24 (values.getD c 0) ≠ values.getD c 0))
      ∧ Keeps s (s.sampleAll values w v) sampleRegs [2] [.ms, .mt] := by
  let step := s.get F.DEC_INCR
  let u := (List.range 64).foldl (fun s c => s.chanSample (values.getD c 0) w v step c) s
  obtain ⟨p, l, hchips⟩ := u.chipAdvance_eq step
  have hkeep : Keeps s u sampleRegs [2] [.ms] := s.samples_keeps values w v step 64
  have heq : s.sampleAll values w v = (u.chipAdvance step).countSample step := rfl
  obtain ⟨-, hidx, hacc, hidle, htaken⟩ := s.samples_spec values w v step 64
  have hmt : u.mt = s.mt := hkeep.parts .mt (by decide)
  have hhist (c : Nat) : (s.sampleAll values w v).histOf c = u.histOf c := by rw [heq, hchips]; rfl
  refine ⟨?_, ?_, ?_, fun c hc => ?_, fun c hc hon => ?_, ?_⟩
  · rw [heq, hchips, ← hidx]
    rfl
  · rw [heq, hchips, ← hacc]
    rfl
  · rw [heq, hchips, ← hmt]
    rfl
  · rw [hhist, hidle c (.inr hc)]
  · rw [hhist]
    exact htaken c hc hon
  · have hu : Keeps s u sampleRegs [2] [.ms, .mt] := hkeep.mono (fun _ h => h) (fun _ h => h) (by simp)
    exact (hu.chipAdvance step (by simp)).countSample step (by simp) (by simp)

-- The stages' shares and the capture at an instant (R211, R265)

/-- The meters differ in their pulse stages only. -/
def OnlyStages (s t : State) : Prop := t.mt = { s.mt with stages := t.mt.stages }

theorem OnlyStages.refl (s : State) : OnlyStages s s := rfl

theorem OnlyStages.of_mt {s t : State} (h : t.mt = s.mt) : OnlyStages s t := by rw [OnlyStages, h]

theorem OnlyStages.trans {s t u : State} (h : OnlyStages s t) (h' : OnlyStages t u) : OnlyStages s u := by
  rw [OnlyStages] at h h' ⊢
  rw [h', h]

theorem OnlyStages.foldl {α : Type} (f : State → α → State) (hf : ∀ u x, OnlyStages u (f u x)) (l : List α) (s : State) :
    OnlyStages s (l.foldl f s) :=
  List.foldlRecOn l f (motive := OnlyStages s) (.refl s) fun u hu x _ => hu.trans (hf u x)

theorem OnlyStages.total {s t : State} (h : OnlyStages s t) : t.mt.total = s.mt.total := by rw [h]

theorem OnlyStages.meter {s t : State} (h : OnlyStages s t) (k : Nat) : t.meter k = s.meter k := by rw [State.meter, h]; rfl

/-- Pulses enter a stage: PENDING takes up to 256, the rest are counted in DROPPED and reported. -/
def State.addPulses (s : State) (n pend : Nat) : State :=
  if pend ≤ 256 then s.put (F.PLS_STG_STAT_PENDING n) pend
  else
    let s := s.put (F.PLS_STG_STAT_PENDING n) 256
    let s := s.put (F.PLS_STG_STAT_DROPPED n) (min 0xFFFF (s.get (F.PLS_STG_STAT_DROPPED n) + (pend - 256)))
    s.event 0x15 0 n

theorem State.addPulses_mt (s : State) (n pend : Nat) : (s.addPulses n pend).mt = s.mt := by
  unfold State.addPulses
  split
  · rfl
  · rw [State.event_mt]; rfl

/-- A share of a stage: its record moves, and then its pulses enter. -/
theorem State.stageShare_cases (s : State) (step n : Nat) :
    s.stageShare step n = s ∨ (∃ x, s.stageShare step n = s.setStage n x) ∨ ∃ x pend, s.stageShare step n = (s.setStage n x).addPulses n pend := by
  unfold State.stageShare
  dsimp only
  split
  · split
    · exact .inr (.inl ⟨_, rfl⟩)
    · exact .inr (.inr ⟨_, _, rfl⟩)
  · exact .inl rfl

theorem State.stageShare_onlyStages (s : State) (step n : Nat) : OnlyStages s (s.stageShare step n) := by
  have hset (x : Stage) : OnlyStages s (s.setStage n x) := rfl
  rcases s.stageShare_cases step n with h | ⟨x, h⟩ | ⟨x, pend, h⟩ <;> rw [h]
  · exact .refl s
  · exact hset x
  · exact (hset x).trans (.of_mt (State.addPulses_mt _ n pend))

section
variable {s t : State} {R : Nat → Prop} {E : List Nat} {P : List Part}

theorem Keeps.addPulses (h : Keeps s t R E P) (n pend : Nat) (hn : n < 16) (he : 2 ∈ E) (hR : ∀ a, onPages [0x15] a → R a) :
    Keeps s (t.addPulses n pend) R E P := by
  have hstat : R (F.PLS_STG_STAT_PENDING n).addr := hR _ (.inl (List.mem_singleton.mpr (by simp only [F.PLS_STG_STAT_PENDING]; omega)))
  exact Keeps.ite (h.put _ _ hstat) (((h.put _ _ hstat).put (F.PLS_STG_STAT_DROPPED n) _ hstat).eventWithin 0x15 0 n he
    fun a ha => hR a (eventRegs_onPages 0x15 0 _ (by decide) (by simp) a ha))

theorem Keeps.stageShare (h : Keeps s t R E P) (step n : Nat) (hn : n < 16) (he : 2 ∈ E) (hp : Part.mt ∈ P)
    (hR : ∀ a, onPages [0x15] a → R a) : Keeps s (t.stageShare step n) R E P := by
  rcases t.stageShare_cases step n with heq | ⟨x, heq⟩ | ⟨x, pend, heq⟩ <;> rw [heq]
  · exact h
  · exact h.setStage n x hp
  · exact (h.setStage n x hp).addPulses n pend hn he hR

theorem Keeps.capSample (h : Keeps s t R E P) (hq : Part.pq ∈ P) (hm : Part.sram ∈ P) : Keeps s t.capSample R E P := by
  unfold State.capSample
  refine Keeps.ite (Keeps.foldl _ (fun u i hu => Keeps.ite (hu.sramPut _ _ hm) hu) _ _ ?_) h
  exact Keeps.ite (h.withPq _ hq) h

end

/-- Every stage's share, then the capture. -/
def State.afterSamples (s : State) : State :=
  ((List.range 16).foldl (fun s n => s.stageShare (s.get F.DEC_INCR) n) s).capSample

theorem State.capSample_keeps (s : State) : Keeps s s.capSample (among []) [] [.pq, .sram] :=
  (Keeps.refl s _ _ _).capSample (by simp) (by simp)

theorem State.afterSamples_onlyStages (s : State) : OnlyStages s s.afterSamples :=
  (OnlyStages.foldl _ (fun u n => u.stageShare_onlyStages _ n) _ s).trans (.of_mt ((State.capSample_keeps _).parts .mt (by decide)))

theorem Keeps.afterSamples {s t : State} {R : Nat → Prop} {E : List Nat} {P : List Part} (h : Keeps s t R E P) (he : 2 ∈ E) (hp : Part.mt ∈ P)
    (hq : Part.pq ∈ P) (hm : Part.sram ∈ P) (hR : ∀ a, onPages [0x15] a → R a) : Keeps s t.afterSamples R E P :=
  (Keeps.foldlMem _ _ (fun _ n hn hu => hu.stageShare _ n (List.mem_range.mp hn) he hp hR) h).capSample hq hm

theorem exec_outputSample (s : State) (values w v : List Int) (h : s.runs = true) (hen : s.enabled 0x11 = true) (hidx : s.ms.idx < 256) :
    Ends (exec (.outputSample values w v) s) fun t =>
      t.ms.idx = s.ms.idx + 1 ∧ t.mt.total = s.mt.total + 1 ∧ t.ms.acc = (s.ms.acc + s.get F.DEC_INCR) % 2 ^ 36
      ∧ (∀ c, s.ms.live.testBit c = false → t.histOf c = s.histOf c)
      ∧ (∀ c, c < 64 → s.ms.live.testBit c = true → ∃ h, t.histOf c = (h :: s.histOf c).take 512 ∧ h.tags.testBit 1 = s.on (settleF c)
          ∧ h.tags.testBit 2 = decide (s.trk ≠ trkLocked) ∧ h.tags.testBit 4 = decide (sat24 (values.getD c 0) ≠ values.getD c 0))
      ∧ (∀ k, (t.meter k).acc = (s.meter k).acc) ∧ Keeps s t (onPages [0x11, 0x12, 0x15]) [2] [.ms, .mt, .pq, .sram] := by
  let u := s.sampleAll values w v
  have hexec : exec (.outputSample values w v) s = done u.afterSamples := by
    show execOutputSample values w v s = _
    rw [execOutputSample, s.onFabric_runs _ h]
    exact if_pos ⟨hen, hidx⟩
  obtain ⟨hnext, hacc, hmt, hidle, htaken, hkeep⟩ := s.sampleAll_spec values w v
  have hstages : OnlyStages u u.afterSamples := u.afterSamples_onlyStages
  have hstill : Keeps u u.afterSamples (onPages [0x15]) [2] [.mt, .pq, .sram] :=
    (Keeps.refl u _ _ _).afterSamples (by simp) (by simp) (by simp) (by simp) fun _ h => h
  have hms : u.afterSamples.ms = u.ms := hstill.parts .ms (by decide)
  have hhist (c : Nat) : u.afterSamples.settle.histOf c = u.histOf c := by
    rw [State.histOf, State.settle_ms, hms, State.histOf]
  have hregs (a : Nat) (ha : sampleRegs a) : onPages [0x11, 0x12, 0x15] a := by
    rcases ha with ha | ha
    · exact .inl ((by decide : ∀ a ∈ [F.MTR_BRIDGE_CNT.addr, A.DEC_CLIP_LO, A.DEC_CLIP_LO + 4], a / 4096 ∈ [0x11, 0x12, 0x15]) a ha)
    · exact eventRegs_onPages 0x11 4 _ (by decide) (by simp) a ha
  have hu : Keeps s u (onPages [0x11, 0x12, 0x15]) [2] [.ms, .mt, .pq, .sram] := hkeep.mono hregs (fun _ h => h) (by simp)
  refine ⟨_, hexec, ?_, ?_, ?_, fun c hc => ?_, fun c hc hon => ?_, fun k => ?_, (hu.afterSamples (by simp) (by simp) (by simp) (by simp) ?_).settle⟩
  · rw [State.settle_ms, hms, hnext]
  · rw [State.settle_mt, hstages.total, hmt]
  · rw [State.settle_ms, hms, hacc]
  · rw [hhist, hidle c hc]
  · rw [hhist]
    exact htaken c hc hon
  · rw [State.meter, State.settle_mt, ← State.meter, hstages.meter, State.meter, hmt, State.meter]
  · exact fun a ha => ha.imp_left fun hp => by simp_all

end Sys2Proof.Machine

/-! The cycle boundary (O17). -/
namespace Sys2Proof.Machine

-- The tracker and the settling marks at a boundary (R122, R124, R133)

/-- What a locked tracker does first at a boundary: it returns to a better reference that has been good for eight cycles; a holdover counts down. -/
def State.boundaryRef (s : State) : State :=
  if s.trk = trkLocked then
    let a := s.get F.DEC_TRACK_STAT_REF_IDX
    match [0, 1, 2].find? fun i => decide (i < a) && s.refEn i && decide (8 ≤ (s.ref i).good) with
    | some i => (s.put F.DEC_TRACK_STAT_REF_IDX i).event 0x11 2 (s.refCh i)
    | none => s
  else if s.trk = trkHoldover then s.put F.DEC_TRACK_STAT_HOLD_LEFT (s.get F.DEC_TRACK_STAT_HOLD_LEFT - 1) else s

/-- The tracker's settings are taken at a boundary. -/
def State.takeTrackCfg (s : State) : State := { s with ms := { s.ms with trackCfg := s.reg A.DEC_TRACK_CFG, trackRef := s.reg A.DEC_TRACK_REF } }

theorem State.trackBoundary_eq (s : State) :
    let u := s.boundaryRef.takeTrackCfg
    s.trackBoundary = if u.trk = trkLocked then u.trackLaw else if u.trk = trkFree then u.setIncr u.nominalIncr else u := rfl

/-- The registers the tracker may touch at a boundary: TRACK_STAT, FREQ_RUN, INCR and the event of a new reference. -/
abbrev trackRegs (a : Nat) : Prop := among [F.DEC_TRACK_STAT_STATE.addr, F.DEC_FREQ_RUN.addr, F.DEC_INCR.addr] a ∨ eventRegs 0x11 2 a

section
variable {s t : State} {R : Nat → Prop} {E : List Nat} {P : List Part}

theorem Keeps.boundaryRef (h : Keeps s t R E P) (he : 2 ∈ E) (hR : ∀ a, trackRegs a → R a) : Keeps s t.boundaryRef R E P := by
  have hstat : R F.DEC_TRACK_STAT_STATE.addr := hR _ (.inl (by decide))
  refine Keeps.ite ?_ (Keeps.ite (h.put F.DEC_TRACK_STAT_HOLD_LEFT _ hstat) h)
  dsimp only
  split
  · exact (h.put F.DEC_TRACK_STAT_REF_IDX _ hstat).eventWithin 0x11 2 _ he fun a ha => hR a (.inr ha)
  · exact h

theorem Keeps.setIncr (h : Keeps s t R E P) (v : Nat) (hR : ∀ a, trackRegs a → R a) : Keeps s (t.setIncr v) R E P :=
  (h.put F.DEC_INCR _ (hR _ (.inl (by decide)))).put F.DEC_FREQ_RUN _ (hR _ (.inl (by decide)))

theorem Keeps.trackLaw (h : Keeps s t R E P) (hp : Part.ms ∈ P) (hR : ∀ a, trackRegs a → R a) : Keeps s t.trackLaw R E P :=
  (h.withMs _ hp).setIncr _ hR

theorem Keeps.trackBoundary (h : Keeps s t R E P) (he : 2 ∈ E) (hp : Part.ms ∈ P) (hR : ∀ a, trackRegs a → R a) :
    Keeps s t.trackBoundary R E P := by
  have htaken : Keeps s t.boundaryRef.takeTrackCfg R E P := (h.boundaryRef he hR).withMs _ hp
  rw [State.trackBoundary_eq]
  exact Keeps.ite (htaken.trackLaw hp hR) (Keeps.ite (htaken.setIncr _ hR) htaken)

theorem Keeps.settleBoundary (h : Keeps s t R E P) (h0 : R A.DEC_SETTLE_LO) (h1 : R (A.DEC_SETTLE_LO + 4)) :
    Keeps s t.settleBoundary R E P :=
  Keeps.foldl _ (fun _ c hu => Keeps.ite (hu.put (settleF c) 0 (bitFld64_within R h0 h1 c)) hu) _ _ h

end

theorem State.boundaryRef_ms (s : State) : s.boundaryRef.ms = s.ms :=
  ((Keeps.refl s trackRegs [2] []).boundaryRef (by simp) fun _ h => h).parts .ms (by simp)

/-- The tracker's work at a boundary leaves the line position and the standing marks as they were. -/
theorem State.trackBoundary_ms (s : State) : s.trackBoundary.ms.idx = s.ms.idx ∧ s.trackBoundary.ms.stand = s.ms.stand := by
  let u := s.boundaryRef.takeTrackCfg
  have hu : u.ms.idx = s.ms.idx ∧ u.ms.stand = s.ms.stand := by
    rw [← s.boundaryRef_ms]
    exact ⟨rfl, rfl⟩
  rw [State.trackBoundary_eq]
  split
  · exact hu
  · split <;> exact hu

-- The running flags at a boundary (R190)

/-- Writing a meter whose totals are what they were changes no totals. -/
theorem State.setMeter_acc (s : State) (k : Nat) (x : Meter) (h : x.acc = (s.meter k).acc) (j : Nat) :
    ((s.setMeter k x).meter j).acc = (s.meter j).acc := by
  have hread : (s.setMeter k x).meter j = if j = k then x else s.meter j := spRead_spWrite _ _ _ _ _
  rw [hread]
  split
  next heq => rw [h, heq]
  · rfl

/-- A boundary leaves every outlet's totals as they were, and touches an ESTAT word only. -/
theorem State.runBoundary_spec (s : State) (k : Nat) (hk : k < 12) :
    (∀ j, ((s.runBoundary k).meter j).acc = (s.meter j).acc) ∧ Keeps s (s.runBoundary k) (inPages (List.range' 0x20 12)) [] [.mt] := by
  have hpage : inPages (List.range' 0x20 12) (F.MTRK_ESTAT_RUNNING k).addr := by
    simp only [inPages, F.MTRK_ESTAT_RUNNING, List.mem_range'_1]
    omega
  unfold State.runBoundary
  dsimp only
  split
  · exact ⟨fun _ => rfl, Keeps.refl s _ _ _⟩
  · exact ⟨State.setMeter_acc _ k _ (by rfl), ((Keeps.refl s _ _ _).put (F.MTRK_ESTAT_RUNNING k) _ hpage).withMt _ (by simp)⟩

-- Background calibration at a boundary (R240, R241, R242, R243, R244, R245)

section
variable {s t : State} {R : Nat → Prop} {E : List Nat} {P : List Part}

theorem Keeps.setBg (h : Keeps s t R E P) (c : Nat) (x : BgChan) (hp : Part.cal ∈ P) : Keeps s (t.setBg c x) R E P := h.withCal _ hp

theorem Keeps.openWindow (h : Keeps s t R E P) (hp : Part.cal ∈ P) : Keeps s t.openWindow R E P := h.withCal _ hp

theorem Keeps.jigCycle (h : Keeps s t R E P) (hp : Part.cal ∈ P) (hR : R F.CAL_JIG_STAT_USED.addr) : Keeps s t.jigCycle R E P := by
  unfold State.jigCycle
  split
  · exact h
  · exact Keeps.ite (h.withCal _ hp) (Keeps.ite h ((h.withCal _ hp).put _ _ hR))

theorem Keeps.bgCycle (h : Keeps s t R E P) (hp : Part.cal ∈ P) : Keeps s t.bgCycle R E P := by
  unfold State.bgCycle
  refine Keeps.ite (h.withCal _ hp) (Keeps.ite (h.openWindow hp) (Keeps.ite h ?_))
  exact (Keeps.foldl _ (fun _ c hu => Keeps.ite (hu.setBg c _ hp) hu) _ _ h).withCal _ hp

theorem Keeps.clearPath (h : Keeps s t R E P) (c : Nat) (he : 2 ∈ E) (hR : ∀ a, onPages [0x0A, 0x13] a → R a) :
    Keeps s (t.clearPath c) R E P := by
  have hfault : R (bitFld64 A.CAL_FAULT_LO c).addr := bitFld64_within R (hR _ (by decide)) (hR _ (by decide)) c
  exact Keeps.ite ((h.put _ 0 hfault).faultFrame _ _ _ _ _ he fun a ha => hR a (.inr ha)) h

theorem Keeps.bgAccept (h : Keeps s t R E P) (c : Nat) (l : List BgCand) (he : 2 ∈ E) (hp : Part.cal ∈ P)
    (hR : ∀ a, onPages [0x0A, 0x13] a → R a) : Keeps s (t.bgAccept c l) R E P :=
  ((h.setBg c _ hp).withCal _ hp).clearPath c he hR

theorem Keeps.calIrq (h : Keeps s t R E P) (b : Nat) (hb : b < 32) (hR : ∀ a, onPages [0x0A, 0x13] a → R a) : Keeps s (t.irq 0x13 b) R E P :=
  h.irq 0x13 b (hR _ (.inl (by decide))) (hR _ (.inl (by simp only [List.mem_cons]; omega)))

theorem Keeps.report (h : Keeps s t R E P) (typ : Nat) (bytes : List Byte) (he : 48 ∈ E) (hR : ∀ a, onPages [0x0A, 0x13] a → R a) :
    Keeps s (t.report typ bytes) R E P := h.emit _ _ _ _ _ he fun a ha => hR a (.inr ha)

end

/-- What a verdict on channel `c` does to its record: accept, accept after three agreeing steps, note a step, an absolute or another rejection. -/
def State.takeVerdict (s : State) (c code : Nat) (dg dp : Int) (cand : BgCand) (run : List BgCand) (stuck : Bool) : State :=
  let b := s.bgChan c
  if code = 0 then s.bgAccept c ((cand :: b.hist).take 4)
  else if stuck then ((s.bgAccept c run).irq 0x13 6).report 0x06 (le 1 c ++ le 3 0 ++ s.dev dg ++ s.dev dp ++ le 4 (s.get F.DEC_CYCLE_CNT))
  else if code = 2 then s.setBg c { b with stepRun := run, absRun := 0 }
  else if code = 3 then
    let s := s.setBg c { b with stepRun := [], absRun := b.absRun + 1 }
    if 2 ≤ b.absRun + 1 then s.pathFault c dg dp else s
  else if code = 1 then s.setBg c { b with stepRun := [], absRun := 0 }
  else s.setBg c { b with stepRun := [] }

section
variable {s t : State} {R : Nat → Prop} {E : List Nat} {P : List Part} (h2 : 2 ∈ E) (h38 : 38 ∈ E) (h48 : 48 ∈ E) (hcal : Part.cal ∈ P)
  (hlegal : Part.legal ∈ P) (hR : ∀ a, onPages [0x0A, 0x13] a → R a)
include h2 h38 h48 hlegal hR

theorem Keeps.pathFault (h : Keeps s t R E P) (c : Nat) (dg dp : Int) : Keeps s (t.pathFault c dg dp) R E P := by
  have hfault : R (bitFld64 A.CAL_FAULT_LO c).addr := bitFld64_within R (hR _ (by decide)) (hR _ (by decide)) c
  refine Keeps.ite h (Keeps.faultFrame ?_ _ _ _ _ _ h2 fun a ha => hR a (.inr ha))
  exact (((h.put _ 1 hfault).calIrq 2 (by decide) hR).report _ _ h48 hR).log _ _ _ h2 h38 hlegal fun a ha =>
    hR a (eventRegs_onPages 0x0A 4 _ (by decide) (by simp) a ha)

omit h2 h38 h48 hlegal in
theorem Keeps.showQual (h : Keeps s t R E P) (c : Nat) (hc : c < 64) : Keeps s (t.showQual c) R E P := by
  have hgain : R (F.CAL_BG_QUAL_GAIN_FIG c).addr := hR _ (.inl (by simp only [F.CAL_BG_QUAL_GAIN_FIG, List.mem_cons]; omega))
  have hphase : R (F.CAL_BG_QUAL_PHASE_FIG c).addr := hR _ (.inl (by simp only [F.CAL_BG_QUAL_PHASE_FIG, List.mem_cons]; omega))
  have hconv : R (bitFld64 A.CAL_CONV_LO c).addr := bitFld64_within R (hR _ (by decide)) (hR _ (by decide)) c
  exact ((((h.put _ _ hgain).put (F.CAL_BG_QUAL_GAIN_N c) _ hgain).put (F.CAL_BG_QUAL_GAIN_PASS c) _ hgain).put _ _ hphase).put _ _ hconv

include hcal

theorem Keeps.takeVerdict (h : Keeps s t R E P) (c code : Nat) (dg dp : Int) (cand : BgCand) (run : List BgCand) (stuck : Bool) :
    Keeps s (t.takeVerdict c code dg dp cand run stuck) R E P := by
  have hset (x : BgChan) : Keeps s (t.setBg c x) R E P := h.setBg c x hcal
  refine Keeps.ite (h.bgAccept c _ h2 hcal hR) (Keeps.ite ?_ (Keeps.ite (hset _) (Keeps.ite ?_ (Keeps.ite (hset _) (hset _)))))
  · exact ((h.bgAccept c run h2 hcal hR).calIrq 6 (by decide) hR).report _ _ h48 hR
  · exact Keeps.ite ((hset _).pathFault h2 h38 h48 hlegal hR c dg dp) (hset _)

theorem Keeps.bgJudge (h : Keeps s t R E P) (void : Bool) (c : Nat) (hc : c < 64) : Keeps s (t.bgJudge void c) R E P := by
  unfold State.bgJudge
  generalize t.bgVerdict c void = verdict
  obtain ⟨code, dg, dp, cand⟩ := verdict
  have htaken (run : List BgCand) (stuck : Bool) := h.takeVerdict h2 h38 h48 hcal hlegal hR c code dg dp cand run stuck
  refine Keeps.report (Keeps.showQual hR (Keeps.ite (htaken _ _) ?_) c hc) _ _ h48 hR
  exact ((htaken _ _).incSat F.CAL_WIN_STAT_REJECTS (hR _ (.inl (by decide)))).calIrq 1 (by decide) hR

omit h2 h38 h48 hlegal hR in
theorem Keeps.couchBg (h : Keeps s t R E P) : Keeps s t.couchBg R E P := Keeps.ite (h.withCal _ hcal) (h.withCal _ hcal)

theorem Keeps.endWindow (h : Keeps s t R E P) (void : Bool) : Keeps s (t.endWindow void) R E P := by
  have hcounted := (h.inc F.CAL_WIN_STAT_COUNT (hR _ (.inl (by decide)))).calIrq 0 (by decide) hR
  have hjudged := (Keeps.foldlMem _ (List.range 64) (fun u c hc hu => hu.bgJudge h2 h38 h48 hcal hlegal hR void c (List.mem_range.mp hc))
    hcounted).couchBg hcal
  exact Keeps.ite (hjudged.withCal _ hcal) (hjudged.openWindow hcal)

theorem Keeps.bandBoundary (h : Keeps s t R E P) : Keeps s t.bandBoundary R E P := by
  have htemp : R F.CAL_TEMP_BAND.addr := hR _ (.inl (by decide))
  let u := (t.put F.CAL_TEMP_BAND (t.get F.CAL_TEMP_NEXT)).put F.CAL_TEMP_PENDING 0
  have hswitched : Keeps s { u with cal := { u.cal with modBand := t.get F.CAL_TEMP_NEXT } } R E P :=
    ((h.put F.CAL_TEMP_BAND _ htemp).put F.CAL_TEMP_PENDING 0 htemp).withCal _ hcal
  have htold := (hswitched.calIrq 3 (by decide) hR).report 0x02
  exact Keeps.ite (Keeps.ite hswitched (Keeps.ite ((htold _ h48 hR).endWindow h2 h38 h48 hcal hlegal hR true) (htold _ h48 hR))) h

end

-- The whole boundary (R131)

/-- The standing marks of the cycle that ended become the previous ones. -/
def State.turnStand (s : State) : State := { s with ms := { s.ms with standPrev := s.ms.stand, stand := [] } }

/-- The gains accepted in the window that ended are shown. -/
def State.showGains (s : State) : State :=
  s.cal.nextGain.foldl (fun s p => (s.put (F.CAL_BG_GAIN p.1) p.2.1).putInt (F.CAL_BG_DELAY p.1) p.2.2) s

/-- The constants in force follow jig mode: the pending set in it, the active one outside it. -/
def State.chooseLive (s : State) : State :=
  { s with cal := { s.cal with live := if s.on F.CAL_STATUS_JIG then s.cal.pend else s.cal.active, noLegal := s.on F.CAL_STATUS_JIG } }

/-- No gain waits to be shown. -/
def State.dropGains (s : State) : State := { s with cal := { s.cal with nextGain := [] } }

theorem State.calBoundary_eq (s : State) : s.calBoundary = s.jigCycle.bgCycle.turnStand.showGains.dropGains.bandBoundary.chooseLive := rfl

theorem State.chooseLive_spec (s : State) :
    s.chooseLive.cal.noLegal = s.chooseLive.on F.CAL_STATUS_JIG
      ∧ s.chooseLive.cal.live = if s.chooseLive.on F.CAL_STATUS_JIG then s.chooseLive.cal.pend else s.chooseLive.cal.active := ⟨rfl, rfl⟩

theorem State.jigCycle_nextGain (s : State) : s.jigCycle.cal.nextGain = s.cal.nextGain := by
  unfold State.jigCycle
  split
  · rfl
  · split
    · rfl
    · split <;> rfl

theorem State.bgCycle_nextGain (s : State) : s.bgCycle.cal.nextGain = s.cal.nextGain := by
  unfold State.bgCycle
  split
  · rfl
  · split
    · rfl
    · split
      · rfl
      · refine List.foldlRecOn (List.range 64) _ (motive := fun u : State => u.cal.nextGain = s.cal.nextGain) rfl fun u hu c _ => ?_
        split <;> exact hu

/-- Showing the gains touches CAL's page only. -/
theorem State.showGains_keeps (s : State) (h : ∀ p ∈ s.cal.nextGain, p.1 < 64) : Keeps s s.showGains (onPages [0x0A, 0x13]) [] [] := by
  refine Keeps.foldlMem _ _ (fun u p hp hu => ?_) (Keeps.refl s _ _ _)
  have hc := h p hp
  have hpage (a : Nat) (ha : a / 4096 = 0x13) : onPages [0x0A, 0x13] a := .inl (by simp [ha])
  exact (hu.put (F.CAL_BG_GAIN p.1) _ (hpage _ (by simp only [F.CAL_BG_GAIN]; omega))).putInt (F.CAL_BG_DELAY p.1) _
    (hpage _ (by simp only [F.CAL_BG_DELAY]; omega))

theorem State.calBoundary_spec (s : State) (h : ∀ p ∈ s.cal.nextGain, p.1 < 64) :
    s.calBoundary.cal.noLegal = s.calBoundary.on F.CAL_STATUS_JIG
      ∧ s.calBoundary.cal.live = (if s.calBoundary.on F.CAL_STATUS_JIG then s.calBoundary.cal.pend else s.calBoundary.cal.active)
      ∧ s.calBoundary.ms = { s.ms with standPrev := s.ms.stand, stand := [] }
      ∧ Keeps s s.calBoundary (onPages [0x0A, 0x13]) [2, 38, 48] [.ms, .cal, .legal] := by
  let v := s.jigCycle.bgCycle
  let w := v.turnStand
  have hv : Keeps s v (onPages [0x0A, 0x13]) [2, 38, 48] [.cal] :=
    ((Keeps.refl s _ _ _).jigCycle (by simp) (.inl (by decide))).bgCycle (by simp)
  have hgain : w.cal.nextGain = s.cal.nextGain := (State.bgCycle_nextGain _).trans s.jigCycle_nextGain
  have hshown : Keeps w w.showGains (onPages [0x0A, 0x13]) [2, 38, 48] [.cal, .legal] :=
    (w.showGains_keeps (hgain ▸ h)).mono (fun _ h => h) (by simp) (by simp)
  have hdropped : Keeps w w.showGains.dropGains (onPages [0x0A, 0x13]) [2, 38, 48] [.cal, .legal] := hshown.withCal _ (by simp)
  have hwt : Keeps w s.calBoundary (onPages [0x0A, 0x13]) [2, 38, 48] [.cal, .legal] :=
    (hdropped.bandBoundary (by simp) (by simp) (by simp) (by simp) (by simp) fun _ h => h).withCal _ (by simp)
  have hsw : Keeps s w (onPages [0x0A, 0x13]) [2, 38, 48] [.ms, .cal, .legal] :=
    (hv.mono (fun _ h => h) (fun _ h => h) (by simp)).withMs _ (by simp)
  obtain ⟨hlegal, hlive⟩ := w.showGains.dropGains.bandBoundary.chooseLive_spec
  rw [State.calBoundary_eq] at hwt ⊢
  refine ⟨hlegal, hlive, ?_, hsw.trans (hwt.mono (fun _ h => h) (fun _ h => h) (by simp))⟩
  have hms : v.ms = s.ms := hv.parts .ms (by decide)
  rw [← hms]
  exact hwt.parts .ms (by decide)

/-- The capture's boundary work: the cycle is entered while it fills, and a filling asked for begins. -/
def State.capEnter (s : State) : State :=
  if (s.capState = 1 ∨ s.capState = 2) ∧ s.pf.warned = false then
    let cyc := s.get F.DEC_CYCLE_CNT
    let tags := (List.range s.capNch).map fun i =>
      let c := s.capCh i
      if s.ms.live.testBit c ∧ 256 ≤ (s.histOf c).length then s.segTags c 0 256 / 2 % 32 else 32
    let cs := s.pq.cycles ++ [⟨cyc, s.get F.DEC_INCR, s.pq.t0, tags⟩]
    let cs := cs.drop (cs.length - 128 / s.capNch)
    ({ s with pq := { s.pq with cycles := cs } }).put F.PQE_CAP_STAT_FILLED cs.length
  else s

theorem Keeps.capBoundary {s t : State} {R : Nat → Prop} {E : List Nat} {P : List Part} (h : Keeps s t R E P) (hp : Part.pq ∈ P)
    (hR : R F.PQE_CAP_STAT_FILLED.addr) : Keeps s t.capBoundary R E P := by
  have hentered : Keeps s t.capEnter R E P := Keeps.ite ((h.withPq _ hp).put F.PQE_CAP_STAT_FILLED _ hR) h
  exact Keeps.ite h (Keeps.ite (((hentered.withPq _ hp).put F.PQE_CAP_STAT_STATE 1 hR).put F.PQE_CAP_STAT_FILLED 0 hR) hentered)

/-- The harmonic to publish and its next selection. -/
def State.turnHarm (s : State) : State :=
  let words := if s.enabled 0x12 then s.harmWords (s.get F.DEC_CYCLE_CNT) else []
  { s with mt := { s.mt with harmNext := words, harmSel := (s.get F.MTR_HARM_SEL_CH, s.get F.MTR_HARM_SEL_H) } }

/-- The line cycle begins anew and is counted. -/
def State.turnCycle (s : State) : State := ({ s with ms := { s.ms with idx := 0, endMark := [] } }).inc F.DEC_CYCLE_CNT

/-- The boundary up to the outlets' running flags. -/
def State.turnLine (s : State) : State := s.capBoundary.turnHarm.turnCycle.trackBoundary.settleBoundary

theorem State.settleBoundary_ms (s : State) : s.settleBoundary.ms = s.ms :=
  ((Keeps.refl s (fun _ => True) [] []).settleBoundary trivial trivial).parts .ms (by simp)

theorem State.turnLine_spec (s : State) :
    s.turnLine.ms.idx = 0 ∧ s.turnLine.ms.stand = s.ms.stand ∧ s.turnLine.cal = s.cal
      ∧ s.turnLine.get F.DEC_CYCLE_CNT = (s.get F.DEC_CYCLE_CNT + 1) % 2 ^ 32 ∧ (∀ k, s.turnLine.meter k = s.meter k)
      ∧ Keeps s s.turnLine (onPages [0x11, 0x14]) [2] [.ms, .mt, .pq] := by
  let a := s.capBoundary
  let c := a.turnHarm.turnCycle
  have ha : Keeps s a (among [F.PQE_CAP_STAT_FILLED.addr]) [] [.pq] := (Keeps.refl s _ _ _).capBoundary (by simp) (by simp)
  have hd : Keeps c c.trackBoundary trackRegs [2] [.ms] := (Keeps.refl c _ _ _).trackBoundary (by simp) (by simp) fun _ h => h
  have he : Keeps c.trackBoundary s.turnLine (among [A.DEC_SETTLE_LO, A.DEC_SETTLE_LO + 4]) [] [] :=
    (Keeps.refl c.trackBoundary _ _ _).settleBoundary (by simp) (by simp)
  have hms : a.ms = s.ms := ha.parts .ms (by decide)
  have hmt : s.turnLine.mt = a.turnHarm.mt := (he.parts .mt (by decide)).trans (hd.parts .mt (by decide))
  obtain ⟨hidx, hstand⟩ := c.trackBoundary_ms
  refine ⟨?_, ?_, ?_, ?_, fun k => ?_, ?_⟩
  · rw [State.turnLine, State.settleBoundary_ms, hidx]
    rfl
  · rw [State.turnLine, State.settleBoundary_ms, hstand, ← hms]
    rfl
  · exact ((he.parts .cal (by decide)).trans (hd.parts .cal (by decide))).trans (ha.parts .cal (by decide))
  · rw [he.get F.DEC_CYCLE_CNT (by decide), hd.get F.DEC_CYCLE_CNT (by decide), ← ha.get F.DEC_CYCLE_CNT (by decide)]
    exact State.inc_get_same _ F.DEC_CYCLE_CNT (by decide)
  · rw [State.meter, hmt, State.meter, ← (ha.parts .mt (by decide) : a.mt = s.mt)]
    rfl
  · have hcap (x : Nat) (hx : among [F.PQE_CAP_STAT_FILLED.addr] x) : onPages [0x11, 0x14] x := by
      rw [List.mem_singleton.mp hx]
      decide
    have hcycle : Keeps s c (onPages [0x11, 0x14]) [2] [.ms, .mt, .pq] :=
      (((ha.mono hcap (by simp) (by simp)).withMt _ (by simp)).withMs _ (by simp)).inc F.DEC_CYCLE_CNT (by decide)
    refine (hcycle.trackBoundary (by simp) (by simp) fun x hx => ?_).settleBoundary (by decide) (by decide)
    rcases hx with hx | hx
    · exact .inl ((by decide : ∀ x ∈ [F.DEC_TRACK_STAT_STATE.addr, F.DEC_FREQ_RUN.addr, F.DEC_INCR.addr], x / 4096 ∈ [0x11, 0x14]) x hx)
    · exact eventRegs_onPages 0x11 2 _ (by decide) (by simp) x hx

/-- The running flags of every outlet. -/
def State.runFlags (s : State) : State := (List.range 12).foldl (fun s k => s.runBoundary k) s

theorem State.runFlags_spec (s : State) :
    (∀ k, (s.runFlags.meter k).acc = (s.meter k).acc) ∧ Keeps s s.runFlags (inPages (List.range' 0x20 12)) [] [.mt] :=
  List.foldlRecOn (List.range 12) _
    (motive := fun u : State => (∀ k, (u.meter k).acc = (s.meter k).acc) ∧ Keeps s u (inPages (List.range' 0x20 12)) [] [.mt])
    ⟨fun _ => rfl, Keeps.refl s _ _ _⟩ fun u ⟨hacc, hu⟩ k hk =>
      have ⟨hacc', hu'⟩ := u.runBoundary_spec k (List.mem_range.mp hk)
      ⟨fun j => (hacc' j).trans (hacc j), hu.trans hu'⟩

theorem exec_cycleBoundary (s : State) (h : s.runs = true) (hen : s.enabled 0x11 = true) (hidx : s.ms.idx = 256)
    (hgain : ∀ p ∈ s.cal.nextGain, p.1 < 64) :
    Ends (exec .cycleBoundary s) fun t =>
      t.ms.idx = 0 ∧ t.get F.DEC_CYCLE_CNT = (s.get F.DEC_CYCLE_CNT + 1) % 2 ^ 32 ∧ t.cal.noLegal = t.on F.CAL_STATUS_JIG
      ∧ t.cal.live = (if t.on F.CAL_STATUS_JIG then t.cal.pend else t.cal.active) ∧ t.ms.stand = [] ∧ t.ms.standPrev = s.ms.stand
      ∧ (∀ k, (t.meter k).acc = (s.meter k).acc)
      ∧ Keeps s t (onPages ([0x0A, 0x11, 0x13, 0x14] ++ List.range' 0x20 12)) [2, 38, 48] [.ms, .mt, .cal, .pq, .legal] := by
  let u := s.turnLine
  let v := u.runFlags
  let t := v.calBoundary
  have hexec : exec .cycleBoundary s = done t := by
    show execCycleBoundary s = _
    rw [execCycleBoundary, s.onFabric_runs _ h]
    exact if_pos ⟨hen, hidx⟩
  obtain ⟨hzero, hstand, hcal, hcount, hmeter, hu⟩ := s.turnLine_spec
  obtain ⟨hacc, hv⟩ := u.runFlags_spec
  obtain ⟨hlegal, hlive, hms, ht⟩ := v.calBoundary_spec (by rwa [(hv.parts .cal (by decide) : v.cal = u.cal), hcal])
  have hvms : v.ms = u.ms := hv.parts .ms (by decide)
  have hmt : t.mt = v.mt := ht.parts .mt (by decide)
  refine ⟨t.settle, hexec, ?_, ?_, hlegal, hlive, ?_, ?_, fun k => ?_, Keeps.settle ?_⟩
  · rw [State.settle_ms, hms, hvms, ← hzero]
  · rw [State.settle_get, ht.get F.DEC_CYCLE_CNT (by decide), hv.get F.DEC_CYCLE_CNT (by decide), hcount]
  · rw [State.settle_ms, hms]
  · rw [State.settle_ms, hms, hvms, ← hstand]
  · rw [State.meter, State.settle_mt, hmt, ← State.meter, hacc, hmeter]
  · have hpages {l : List Nat} (hl : ∀ p ∈ l, p ∈ [0x0A, 0x11, 0x13, 0x14] ++ List.range' 0x20 12) (a : Nat) (ha : onPages l a) :
        onPages ([0x0A, 0x11, 0x13, 0x14] ++ List.range' 0x20 12) a := ha.imp_left (hl _)
    exact ((hu.mono (hpages (by decide)) (by decide) (by decide)).trans
      (hv.mono (fun a ha => hpages (by decide) a (.inl ha)) (by decide) (by decide))).trans
      (ht.mono (hpages (by decide)) (by decide) (by decide))

end Sys2Proof.Machine

/-! A batch made ready starts the slots, the fast fundamentals and the audits (O17). -/
namespace Sys2Proof.Machine

@[simp] theorem State.setSlot_slot_same (s : State) (j : Nat) (x : Slot) : (s.setSlot j x).slot j = x := spRead_spWrite_same _ _ _ _

theorem State.setSlot_slot_other (s : State) (i j : Nat) (x : Slot) (h : i ≠ j) : (s.setSlot j x).slot i = s.slot i :=
  spRead_spWrite_other _ _ _ _ _ h

section
variable {s t : State} {R : Nat → Prop} {E : List Nat} {P : List Part}

theorem Keeps.setSlot (h : Keeps s t R E P) (j : Nat) (x : Slot) (hp : Part.mt ∈ P) : Keeps s (t.setSlot j x) R E P := h.withMt _ hp

theorem Keeps.setMeter (h : Keeps s t R E P) (k : Nat) (m : Meter) (hp : Part.mt ∈ P) : Keeps s (t.setMeter k m) R E P := h.withMt _ hp

theorem Keeps.wake (h : Keeps s t R E P) (j : Nat) (he : 2 ∈ E) (hp : Part.mt ∈ P) (hR : ∀ a, eventRegs 0x12 5 a → R a) :
    Keeps s (t.wake j) R E P :=
  Keeps.ite h ((h.setSlot j _ hp).eventWithin 0x12 5 j he hR)

end

-- What no batch work changes

/-- What the work of a batch leaves of the meters: the totals, the couch in progress and the harmonic to publish, and no slot gains a handed result. -/
structure Metered (s t : State) : Prop where
  acc : ∀ k, (t.meter k).acc = (s.meter k).acc
  handed : ∀ j, ∀ r ∈ (t.slot j).handed, r ∈ (s.slot j).handed
  couching : t.mt.couching = s.mt.couching
  harmNext : t.mt.harmNext = s.mt.harmNext

namespace Metered
variable {s t u : State}

theorem refl (s : State) : Metered s s := ⟨fun _ => rfl, fun _ _ h => h, rfl, rfl⟩

theorem trans (h : Metered s t) (h' : Metered t u) : Metered s u :=
  ⟨fun k => (h'.acc k).trans (h.acc k), fun j r hr => h.handed j r (h'.handed j r hr), h'.couching.trans h.couching,
    h'.harmNext.trans h.harmNext⟩

theorem of_mt (h : t.mt = s.mt) : Metered s t := by
  refine ⟨fun k => ?_, fun j r hr => ?_, by rw [h], by rw [h]⟩
  · rw [State.meter, h, State.meter]
  · rwa [State.slot, h] at hr

theorem setMeter (h : Metered s t) (k : Nat) (m : Meter) (hm : m.acc = (t.meter k).acc) : Metered s (t.setMeter k m) :=
  h.trans ⟨t.setMeter_acc k m hm, fun _ _ hr => hr, rfl, rfl⟩

theorem setSlot (h : Metered s t) (j : Nat) (x : Slot) (hx : ∀ r ∈ x.handed, r ∈ (t.slot j).handed) : Metered s (t.setSlot j x) := by
  refine h.trans ⟨fun _ => rfl, fun i r hr => ?_, rfl, rfl⟩
  by_cases heq : i = j
  · subst heq
    rw [State.setSlot_slot_same] at hr
    exact hx r hr
  · rwa [State.setSlot_slot_other _ _ _ _ heq] at hr

theorem setStage (h : Metered s t) (n : Nat) (x : Stage) : Metered s (t.setStage n x) := h.trans ⟨fun _ => rfl, fun _ _ hr => hr, rfl, rfl⟩

theorem foldl {α : Type} (f : State → α → State) (l : List α) (hf : ∀ v x, Metered s v → Metered s (f v x)) (h : Metered s t) :
    Metered s (l.foldl f t) :=
  List.foldlRecOn l f (motive := Metered s) h fun v hv x _ => hf v x hv

theorem ite {c : Prop} [Decidable c] {v : State} (h : Metered s u) (h' : Metered s v) : Metered s (if c then u else v) := by split <;> assumption

end Metered

-- A slot starts a batch (R143, R177)

theorem State.wake_mt (s : State) (j : Nat) :
    (s.wake j).mt = s.mt ∨ ∃ e, (s.wake j).mt = (s.setSlot j { s.slot j with ctxEpoch := e }).mt := by
  unfold State.wake
  dsimp only
  split
  · exact .inl rfl
  · exact .inr ⟨_, State.event_mt _ _ _ _⟩

/-- A wake reloads the slot's context: its buffers stay, and every other slot. -/
theorem State.wake_slot (s : State) (j : Nat) :
    ((s.wake j).slot j).buf = (s.slot j).buf ∧ ((s.wake j).slot j).handed = (s.slot j).handed ∧ ∀ i, i ≠ j → (s.wake j).slot i = s.slot i := by
  rcases s.wake_mt j with h | ⟨e, h⟩
  · simp only [State.slot, h, and_self, implies_true]
  · have hslot (i : Nat) : (s.wake j).slot i = (s.setSlot j { s.slot j with ctxEpoch := e }).slot i :=
      congrArg (fun m : Metro => spRead (fun _ => ({} : Slot)) m.slots i) h
    rw [hslot, State.setSlot_slot_same]
    exact ⟨rfl, rfl, fun i hi => (hslot i).trans (State.setSlot_slot_other _ _ _ _ hi)⟩

theorem State.wake_metered (s : State) (j : Nat) : Metered s (s.wake j) := by
  rcases s.wake_mt j with h | ⟨e, h⟩
  · exact .of_mt h
  · have hset : Metered s (s.setSlot j { s.slot j with ctxEpoch := e }) := (Metered.refl s).setSlot j _ fun _ hr => hr
    exact hset.trans (.of_mt h)

/-- A batch result of outlet k for a key, with the slot's buffers and the outlet's totals as they were. -/
def BatchOf (s : State) (k cycle batch : Nat) (p : BatchRes × Slot × Meter) : Prop :=
  (p.1.cycle = cycle ∧ p.1.batch = batch) ∧ (p.2.1.buf = (s.slot k).buf ∧ p.2.1.handed = (s.slot k).handed) ∧ p.2.2.acc = (s.meter k).acc

theorem BatchOf.ite {s : State} {k cycle batch : Nat} {c : Prop} [Decidable c] {p q : BatchRes × Slot × Meter} (h : BatchOf s k cycle batch p)
    (h' : BatchOf s k cycle batch q) : BatchOf s k cycle batch (if c then p else q) := by split <;> assumption

theorem State.outletBatch_spec (s : State) (k cycle batch off : Nat) : BatchOf s k cycle batch (s.outletBatch k cycle batch off) := by
  have hslot : (if batch = 0 then { s.slot k with cyc := [], valid := true } else s.slot k).buf = (s.slot k).buf
      ∧ (if batch = 0 then { s.slot k with cyc := [], valid := true } else s.slot k).handed = (s.slot k).handed := by split <;> exact ⟨rfl, rfl⟩
  have hacc (b : Bool) (m : Meter) (hm : m.acc = (s.meter k).acc) : (if b then m else s.meter k).acc = (s.meter k).acc := by
    cases b
    · rfl
    · exact hm
  exact .ite ⟨⟨rfl, rfl⟩, hslot, hacc _ _ rfl⟩ (.ite ⟨⟨rfl, rfl⟩, hslot, hacc _ _ rfl⟩ ⟨⟨rfl, rfl⟩, hslot, hacc _ _ rfl⟩)

/-- Slot j starts the batch of a key: it gains one result of that key and nothing else moves but its context. -/
structure Started (s t : State) (cycle batch j : Nat) : Prop where
  metered : Metered s t
  keeps : Keeps s t (eventRegs 0x12 5) [2] [.mt]
  other : ∀ i, i ≠ j → t.slot i = s.slot i
  pushed : ∃ r, (t.slot j).buf = (s.slot j).buf ++ [r] ∧ r.cycle = cycle ∧ r.batch = batch

/-- A woken slot takes a result. -/
theorem Started.push (s : State) {cycle batch j : Nat} (x : Slot) (r : BatchRes) (hbuf : x.buf = ((s.wake j).slot j).buf)
    (hhanded : x.handed = ((s.wake j).slot j).handed) (hr : r.cycle = cycle ∧ r.batch = batch) :
    Started s ((s.wake j).setSlot j { x with buf := x.buf ++ [r] }) cycle batch j := by
  obtain ⟨hwake, -, hother⟩ := s.wake_slot j
  refine ⟨(s.wake_metered j).setSlot j _ fun r' hr' => hhanded ▸ hr', ?_, fun i hi => ?_, r, ?_, hr⟩
  · exact ((Keeps.refl s _ _ _).wake j (by simp) (by simp) fun _ h => h).setSlot j _ (by simp)
  · rw [State.setSlot_slot_other _ _ _ _ hi, hother i hi]
  · rw [State.setSlot_slot_same, hbuf, hwake]

theorem Started.setMeter {s t : State} {cycle batch j : Nat} (h : Started s t cycle batch j) (m : Meter) (hm : m.acc = (s.meter j).acc) :
    Started s (t.setMeter j m) cycle batch j :=
  ⟨h.metered.setMeter j m (hm.trans (h.metered.acc j).symm), h.keeps.setMeter j m (by simp), h.other, h.pushed⟩

/-- May slot j start a batch: it owns a running channel, is not stopped and has a lane? -/
def State.slotStarts (s : State) (j : Nat) : Prop := s.slotOwns j = true ∧ (s.slot j).stopped = false ∧ (s.carrier j).isSome = true

theorem State.slotStarts_iff (s : State) (j : Nat) :
    (s.slotOwns j && !(s.slot j).stopped && (s.carrier j).isSome) = true ↔ s.slotStarts j := by
  simp [State.slotStarts, and_assoc]

theorem State.slotBatch_idle (s : State) (cycle batch off j : Nat) (h : ¬ s.slotStarts j) : s.slotBatch cycle batch off j = s :=
  if_neg ((s.slotStarts_iff j).not.mpr h)

theorem State.slotBatch_started (s : State) (cycle batch off j : Nat) (h : s.slotStarts j) :
    Started s (s.slotBatch cycle batch off j) cycle batch j := by
  have hstart : s.slotBatch cycle batch off j = _ := if_pos ((s.slotStarts_iff j).mpr h)
  rw [hstart]
  dsimp only
  split
  · split
    · obtain ⟨hkey, ⟨hbuf, hhanded⟩, hacc⟩ := (s.wake j).outletBatch_spec j cycle batch off
      exact (Started.push s _ _ hbuf hhanded hkey).setMeter _ (hacc.trans ((s.wake_metered j).acc j))
    · exact Started.push s _ _ rfl rfl ⟨rfl, rfl⟩
  · exact Started.push s _ _ rfl rfl ⟨rfl, rfl⟩

/-- What decides whether a slot starts reads the same in a state that keeps the channels and the lanes. -/
theorem State.slotStarts_congr {s t : State} {R : Nat → Prop} {E : List Nat} {P : List Part} (h : Keeps s t R E P) (hms : Part.ms ∉ P)
    (hstat : ¬ R A.MTR_LANE_STAT) (hmap : ¬ R F.MTR_LANE_MAP_S16_VALID.addr) (j : Nat) (hj : t.slot j = s.slot j) :
    t.slotStarts j ↔ s.slotStarts j := by
  have hcarrier : t.carrier j = s.carrier j := by
    simp only [State.carrier, h.on F.MTR_LANE_MAP_S16_VALID hmap, h.get F.MTR_LANE_MAP_S16_SLOT hmap, h.on F.MTR_LANE_MAP_S17_VALID hmap,
      h.get F.MTR_LANE_MAP_S17_SLOT hmap, h.on (bitFld A.MTR_LANE_STAT j) hstat]
  rw [State.slotStarts, State.slotStarts, State.slotOwns, State.slotOwns, hj, hcarrier, (h.parts .ms hms : t.ms = s.ms)]

/-- The slots below `n` have started the batch of a key. -/
structure StartedBelow (s t : State) (cycle batch n : Nat) : Prop where
  metered : Metered s t
  keeps : Keeps s t (eventRegs 0x12 5) [2] [.mt]
  rest : ∀ j, n ≤ j → t.slot j = s.slot j
  pushed : ∀ j, j < n → s.slotStarts j → ∃ r, (t.slot j).buf = (s.slot j).buf ++ [r] ∧ r.cycle = cycle ∧ r.batch = batch

theorem StartedBelow.slotBatch {s t : State} {cycle batch n : Nat} (h : StartedBelow s t cycle batch n) (off : Nat) :
    StartedBelow s (t.slotBatch cycle batch off n) cycle batch (n + 1) := by
  have hsame : t.slotStarts n ↔ s.slotStarts n :=
    State.slotStarts_congr h.keeps (by decide) (by decide) (by decide) n (h.rest n (Nat.le_refl n))
  by_cases hstart : t.slotStarts n
  · obtain ⟨hmetered, hkeeps, hother, hpushed⟩ := t.slotBatch_started cycle batch off n hstart
    refine ⟨h.metered.trans hmetered, h.keeps.trans hkeeps, fun j hj => ?_, fun j hj hs => ?_⟩
    · rw [hother j (by omega), h.rest j (by omega)]
    · rcases Nat.lt_succ_iff_lt_or_eq.mp hj with hlt | rfl
      · rw [hother j (by omega)]
        exact h.pushed j hlt hs
      · rwa [← h.rest j (Nat.le_refl j)]
  · rw [t.slotBatch_idle cycle batch off n hstart]
    refine ⟨h.metered, h.keeps, fun j hj => h.rest j (by omega), fun j hj hs => h.pushed j ?_ hs⟩
    exact lt_of_le_of_ne (Nat.le_of_lt_succ hj) fun heq => hstart (hsame.mpr (heq ▸ hs))

theorem State.slotsBatch_spec (s : State) (cycle batch off n : Nat) :
    StartedBelow s ((List.range n).foldl (fun s j => s.slotBatch cycle batch off j) s) cycle batch n := by
  induction n with
  | zero => exact ⟨.refl s, Keeps.refl s _ _ _, fun _ _ => rfl, fun j hj => absurd hj (Nat.not_lt_zero j)⟩
  | succ n ih =>
    rw [List.range_succ, List.foldl_concat]
    exact ih.slotBatch off

-- The fast fundamentals and the audits (R155, R165)

theorem mtrkPage_mem {k : Nat} (hk : k < 12) : 0x20 + k ∈ List.range' 0x20 12 := by
  rw [List.mem_range'_1]
  omega

section
variable {s t : State} {R : Nat → Prop} {E : List Nat} {P : List Part}

theorem Keeps.fastWords (h : Keeps s t R E P) (off : Nat) (hR : ∀ a, inPages (List.range' 0x20 12) a → R a) : Keeps s (t.fastWords off) R E P := by
  refine Keeps.foldlMem _ _ (fun u k hk hu => Keeps.ite (Keeps.foldlMem _ _ (fun v p hp hv => Keeps.ite hv ?_) hu) hu) h
  have hphase : p ≤ 2 := by
    have hmem : p ∈ [0, 1, 2] := List.mem_of_mem_filter hp
    simp only [List.mem_cons, List.not_mem_nil, or_false] at hmem
    omega
  refine hv.setReg _ _ (hR _ ?_)
  have hk12 := List.mem_range.mp hk
  simp only [A.MTRK_PH_I1_FAST, List.mem_range'_1]
  omega

theorem Keeps.startAudits (h : Keeps s t R E P) (hp : Part.mt ∈ P) (hR : R A.MTR_LANE_STAT) : Keeps s t.startAudits R E P := by
  refine Keeps.ite (Keeps.withMt (Keeps.foldl _ (fun u i hu => ?_) _ _ h) _ hp) h
  exact Keeps.ite hu ((hu.withMt _ hp).put (auditingF i) 1 hR)

end

/-- The meters differ in the audits and their turn only. -/
def OnlyAudits (s t : State) : Prop := ∃ l n, t.mt = { s.mt with audits := l, auditTurn := n }

theorem OnlyAudits.step {s t u : State} (h : OnlyAudits s t) (l : List Audit) (n : Nat) (hu : u.mt = { t.mt with audits := l, auditTurn := n }) :
    OnlyAudits s u := by
  obtain ⟨l', n', ht⟩ := h
  exact ⟨l, n, by rw [hu, ht]⟩

theorem OnlyAudits.ite {s t u : State} {c : Prop} [Decidable c] (h : OnlyAudits s t) (h' : OnlyAudits s u) :
    OnlyAudits s (if c then t else u) := by split <;> assumption

/-- One spare's turn: it audits the slot whose turn it is if that slot runs on its own lane. -/
def State.startAudit (s : State) (free turn i : Nat) : State :=
  let j := if free = 2 then 8 * i + turn % 8 else turn % 16
  if (s.mt.audits.any fun a => a.spare == i) || s.carrier j != some j then s
  else ({ s with mt := { s.mt with audits := s.mt.audits ++ [(⟨i, j, false⟩ : Audit)] } }).put (auditingF i) 1

theorem State.startAudits_onlyAudits (s : State) : OnlyAudits s s.startAudits := by
  have hrefl : OnlyAudits s s := ⟨_, _, rfl⟩
  let free := [0, 1].filter fun i => !s.on (spareLaneFailF i) && !s.on (spareLaneUsedF i)
  have hturns : OnlyAudits s (free.foldl (fun u i => u.startAudit free.length s.mt.auditTurn i) s) :=
    List.foldlRecOn free _ (motive := OnlyAudits s) hrefl fun u hu i _ => .ite hu (hu.step _ _ rfl)
  exact .ite (hturns.step _ _ rfl) hrefl

/-- Every slot starts the batch, the fast fundamentals are shown, audits start, and the batch counts as ready. -/
def State.startBatch (s : State) (r : Nat) : State :=
  let off := s.mt.total - 16 * (r + 1)
  let s := (List.range 16).foldl (fun s j => s.slotBatch (r / 16 % 2 ^ 32) (r % 16) off j) s
  let s := (s.fastWords off).startAudits
  { s with mt := { s.mt with readied := r + 1 } }

theorem State.startBatch_spec (s : State) (r : Nat) :
    (s.startBatch r).mt.readied = r + 1 ∧ Metered s (s.startBatch r)
      ∧ (∀ j, j < 16 → s.slotStarts j →
          ∃ x, ((s.startBatch r).slot j).buf = (s.slot j).buf ++ [x] ∧ x.cycle = r / 16 % 2 ^ 32 ∧ x.batch = r % 16)
      ∧ Keeps s (s.startBatch r) (onPages (0x12 :: List.range' 0x20 12)) [2] [.mt] := by
  let off := s.mt.total - 16 * (r + 1)
  let u := (List.range 16).foldl (fun s j => s.slotBatch (r / 16 % 2 ^ 32) (r % 16) off j) s
  let v := u.fastWords off
  obtain ⟨hmetered, hkeeps, -, hpushed⟩ := s.slotsBatch_spec (r / 16 % 2 ^ 32) (r % 16) off 16
  obtain ⟨l, n, haudits⟩ := v.startAudits_onlyAudits
  have hfast : v.mt = u.mt := ((Keeps.refl u _ [] []).fastWords off fun _ h => h).parts .mt (by simp)
  have hmt : (s.startBatch r).mt = { u.mt with audits := l, auditTurn := n, readied := r + 1 } := by
    show ({ v.startAudits.mt with readied := r + 1 } : Metro) = _
    rw [haudits, hfast]
  have hslot (j : Nat) : (s.startBatch r).slot j = u.slot j := by rw [State.slot, hmt, State.slot]
  have hlast : Metered u (s.startBatch r) := by
    refine ⟨fun k => ?_, fun j x hx => hslot j ▸ hx, by rw [hmt], by rw [hmt]⟩
    rw [State.meter, hmt, State.meter]
  refine ⟨by rw [hmt], hmetered.trans hlast, fun j hj hs => ?_, ?_⟩
  · rw [hslot]
    exact hpushed j hj hs
  · have hu : Keeps s u (onPages (0x12 :: List.range' 0x20 12)) [2] [.mt] :=
      hkeeps.mono (eventRegs_onPages 0x12 5 _ (by decide) (by decide)) (fun _ h => h) fun _ h => h
    exact ((hu.fastWords off fun a ha => .inl (List.mem_cons_of_mem _ ha)).startAudits (by simp) (.inl (by decide))).withMt _ (by simp)

theorem exec_batchReady_first (s : State) (h : s.runs = true) (hdec : s.enabled 0x11 = true) (hmtr : s.enabled 0x12 = true)
    (hfirst : s.mt.readied = 0) (htotal : 16 ≤ s.mt.total) :
    Ends (exec .batchReady s) fun t =>
      t.mt.readied = 1 ∧ (∀ j, j < 16 → (s.slotOwns j = true ∧ (s.slot j).stopped = false ∧ (s.carrier j).isSome = true) →
        ∃ r, (t.slot j).buf = (s.slot j).buf ++ [r] ∧ r.cycle = 0 ∧ r.batch = 0)
      ∧ (∀ k, (t.meter k).acc = (s.meter k).acc) ∧ Keeps s t (onPages (0x12 :: List.range' 0x20 12)) [2] [.mt] := by
  have hexec : exec .batchReady s = done (s.startBatch 0) := by
    show execBatchReady s = _
    rw [execBatchReady, s.onFabric_runs _ h, hfirst]
    exact if_pos ⟨hmtr, hdec, htotal⟩
  obtain ⟨hready, hmetered, hpushed, hkeeps⟩ := s.startBatch_spec 0
  exact ⟨_, hexec, hready, hpushed, hmetered.acc, hkeeps.settle⟩

theorem exec_batchReady_early (s : State) (h : s.runs = true) (hshort : s.mt.total < 16 * (s.mt.readied + 1)) :
    Ends (exec .batchReady s) fun t => Keeps s t (among []) [] [] := by
  have hexec : exec .batchReady s = done s := by
    show execBatchReady s = _
    rw [execBatchReady, s.onFabric_runs _ h]
    exact if_neg fun ⟨_, _, hfull⟩ => absurd hfull (Nat.not_le.mpr hshort)
  exact ⟨_, hexec, (Keeps.refl s _ _ _).settle⟩

end Sys2Proof.Machine

/-! The batch before is published, and a couch falls due (O17). -/
namespace Sys2Proof.Machine

-- Publication (R143, R154, R594, R621)

/-- The registers of a publication beside the results' own words: those of SEA, MTR, PLS, LMG and the outlets' meters, and the record of a lost marker. -/
abbrev batchRegs (a : Nat) : Prop := onPages ([0x0A, 0x12, 0x15, 0x1A] ++ List.range' 0x20 12) a

theorem batchRegs_outlet {k : Nat} (hk : k < 12) {a : Nat} (ha : a / 4096 = 0x20 + k) : batchRegs a :=
  .inl (List.mem_append_right _ (ha ▸ mtrkPage_mem hk))

theorem eventRegs_outlet {k b : Nat} (hk : k < 12) (hb : b < 32) {a : Nat} (ha : eventRegs (0x20 + k) b a) : batchRegs a :=
  eventRegs_onPages (0x20 + k) b _ hb (List.mem_append_right _ (mtrkPage_mem hk)) a ha

theorem Metered.of_keeps {s t : State} {R : Nat → Prop} {E : List Nat} {P : List Part} (h : Keeps s t R E P) (hp : Part.mt ∉ P) : Metered s t :=
  .of_mt (h.parts .mt hp)

theorem Metered.put {s t : State} (h : Metered s t) (f : Fld) (v : Nat) : Metered s (t.put f v) := h.trans (.of_mt rfl)

section
variable {s t : State} {R : Nat → Prop} {E : List Nat} {P : List Part}

theorem Keeps.withSe (h : Keeps s t R E P) (x : Sessions) (hp : Part.se ∈ P) : Keeps s { t with se := x } R E P :=
  h.fields fun p hp' => by cases p <;> simp_all [Part.same, State.sramByte]

theorem Keeps.withLm (h : Keeps s t R E P) (x : Load) (hp : Part.lm ∈ P) : Keeps s { t with lm := x } R E P :=
  h.fields fun p hp' => by cases p <;> simp_all [Part.same, State.sramByte]

theorem Keeps.setWords (h : Keeps s t R E P) (l : List (Nat × W32)) (hw : ∀ w ∈ l, R w.1) :
    Keeps s (l.foldl (fun s w => s.setReg w.1 w.2) t) R E P :=
  Keeps.foldlMem _ _ (fun _ w hm hu => hu.setReg _ _ (hw w hm)) h

theorem Keeps.sessionTags (h : Keeps s t R E P) (k tags : Nat) (hp : Part.se ∈ P) : Keeps s (t.sessionTags k tags) R E P :=
  Keeps.ite (h.withSe _ hp) h

theorem Keeps.tagEvent (h : Keeps s t R E P) {k b : Nat} (hk : k < 12) (hb : b < 32) (now before : Bool) (he : 3 + k ∈ E)
    (hR : ∀ a, batchRegs a → R a) : Keeps s (t.tagEvent k b now before) R E P := by
  have hevent (a : Nat) (ha : eventRegs (0x20 + k) b a) : R a := hR a (eventRegs_outlet hk hb ha)
  exact Keeps.ite (h.outletEvent _ _ _ he (fun a ha => hevent a (.inr ha)) (hevent _ (.inl (.inl rfl))) (hevent _ (.inl (.inr rfl)))) h

theorem Keeps.meterGap (h : Keeps s t R E P) (k : Nat) (invalid : Bool) (h2 : 2 ∈ E) (h38 : 38 ∈ E) (hmt : Part.mt ∈ P) (hlegal : Part.legal ∈ P)
    (hR : ∀ a, batchRegs a → R a) : Keeps s (t.meterGap k invalid) R E P :=
  Keeps.ite (Keeps.ite ((h.setMeter k _ hmt).log _ _ _ h2 h38 hlegal fun a ha => hR a (eventRegs_onPages 0x0A 4 _ (by decide) (by decide) a ha))
    (h.setMeter k _ hmt)) (h.setMeter k _ hmt)

/-- The aggregates of one phase are shown. -/
def State.showAggPhase (k : Nat) (sums : List Int) (n : Nat) (s : State) (p : Nat) : State :=
  (((s.setReg (A.MTRK_AGG_U k p) (wordN (rootRound (sums.getD p 0).toNat n))).setReg (A.MTRK_AGG_I k p)
    (wordN (rootRound (sums.getD (3 + p) 0).toNat n))).setReg (A.MTRK_AGG_P k p) (wordI (divEven (sums.getD (6 + p) 0) n))).setReg
    (A.MTRK_AGG_Q k p) (wordI (divEven (sums.getD (9 + p) 0) n))

/-- The aggregates of a closed window are shown. -/
def State.showAggregate (s : State) (k : Nat) (sums : List Int) (n : Nat) (bad : Bool) : State :=
  let s := [0, 1, 2].foldl (State.showAggPhase k sums n) s
  let s := s.setReg (A.MTRK_AGG_P_SUM k) (wordI (divEven (sums.getD 12 0) n))
  let s := ((s.inc (F.MTRK_AGG_STAT_COUNT k)).put (F.MTRK_AGG_STAT_VALID k) (!bad).toNat).put (F.MTRK_AGG_STAT_CYCLES k) n
  s.irq (0x20 + k) 6

theorem Keeps.showAggregate (h : Keeps s t R E P) {k : Nat} (hk : k < 12) (sums : List Int) (n : Nat) (bad : Bool) (hR : ∀ a, batchRegs a → R a) :
    Keeps s (t.showAggregate k sums n bad) R E P := by
  have hpage (a : Nat) (ha : a / 4096 = 0x20 + k) : R a := hR a (batchRegs_outlet hk ha)
  have hphase (u : State) (p : Nat) (hp : p ∈ [0, 1, 2]) (hu : Keeps s u R E P) : Keeps s (State.showAggPhase k sums n u p) R E P := by
    have hp2 : p ≤ 2 := by
      simp only [List.mem_cons, List.not_mem_nil, or_false] at hp
      omega
    exact (((hu.setReg _ _ (hpage _ (by simp only [A.MTRK_AGG_U]; omega))).setReg _ _ (hpage _ (by simp only [A.MTRK_AGG_I]; omega))).setReg _ _
      (hpage _ (by simp only [A.MTRK_AGG_P]; omega))).setReg _ _ (hpage _ (by simp only [A.MTRK_AGG_Q]; omega))
  have hphases := Keeps.foldlMem _ [0, 1, 2] hphase h
  have hstat : R (F.MTRK_AGG_STAT_COUNT k).addr := hpage _ (by simp only [F.MTRK_AGG_STAT_COUNT]; omega)
  exact ((((hphases.setReg (A.MTRK_AGG_P_SUM k) _ (hpage _ (by simp only [A.MTRK_AGG_P_SUM]; omega))).inc (F.MTRK_AGG_STAT_COUNT k) hstat).put
    (F.MTRK_AGG_STAT_VALID k) _ hstat).put (F.MTRK_AGG_STAT_CYCLES k) _ hstat).irq _ 6 (hpage _ (by omega)) (hpage _ (by omega))

/-- The window takes a cycle: the sums move, or it closes and its aggregates are shown. -/
theorem State.aggregate_cases (s : State) (k : Nat) (valid : Bool) :
    s.aggregate k valid = s ∨ ∃ m : Meter, m.acc = (s.meter k).acc
      ∧ (s.aggregate k valid = s.setMeter k m ∨ ∃ sums n bad, s.aggregate k valid = (s.setMeter k m).showAggregate k sums n bad) := by
  unfold State.aggregate
  dsimp only
  split
  · exact .inl rfl
  · split
    · refine .inr ⟨_, ?_, .inl rfl⟩
      rfl
    · refine .inr ⟨_, ?_, .inr ⟨_, _, _, rfl⟩⟩
      rfl

theorem Keeps.aggregate (h : Keeps s t R E P) {k : Nat} (hk : k < 12) (valid : Bool) (hmt : Part.mt ∈ P) (hR : ∀ a, batchRegs a → R a) :
    Keeps s (t.aggregate k valid) R E P := by
  rcases t.aggregate_cases k valid with heq | ⟨m, -, heq | ⟨sums, n, bad, heq⟩⟩ <;> rw [heq]
  · exact h
  · exact h.setMeter k m hmt
  · exact (h.setMeter k m hmt).showAggregate hk sums n bad hR

end

theorem State.aggregate_metered (s : State) {k : Nat} (hk : k < 12) (valid : Bool) : Metered s (s.aggregate k valid) := by
  rcases s.aggregate_cases k valid with heq | ⟨m, hm, heq | ⟨sums, n, bad, heq⟩⟩ <;> rw [heq]
  · exact .refl s
  · exact (Metered.refl s).setMeter k m hm
  · exact ((Metered.refl s).setMeter k m hm).trans
      (.of_keeps ((Keeps.refl _ batchRegs [] []).showAggregate hk sums n bad fun _ h => h) (by simp))

theorem State.log_mt (s : State) (code outlet : Nat) (data : List Byte) : (s.log code outlet data).mt = s.mt :=
  ((Keeps.refl s (eventRegs 0x0A 4) [2, 38] [.legal]).log code outlet data (by simp) (by simp) (by simp) fun _ h => h).parts .mt (by simp)

theorem State.meterGap_metered (s : State) (k : Nat) (invalid : Bool) : Metered s (s.meterGap k invalid) := by
  have hset (n : Nat) : Metered s (s.setMeter k { s.meter k with gapClean := n }) := (Metered.refl s).setMeter k _ rfl
  exact .ite (.ite ((hset 0).trans (.of_mt (State.log_mt _ _ _ _))) (hset 0)) (hset _)

theorem State.setWords_metered (s : State) (l : List (Nat × W32)) : Metered s (l.foldl (fun s w => s.setReg w.1 w.2) s) :=
  .of_keeps ((Keeps.refl s (fun _ => True) [] []).setWords l fun _ _ => trivial) (by simp)

theorem State.tagEvent_metered (s : State) {k b : Nat} (hk : k < 12) (hb : b < 32) (now before : Bool) : Metered s (s.tagEvent k b now before) :=
  .of_keeps ((Keeps.refl s batchRegs [3 + k] []).tagEvent hk hb now before (by simp) fun _ h => h) (by simp)

/-- The tags of a published cycle: the new ones are reported, and the outlet keeps them for the next. -/
def State.showTags (s : State) (k : Nat) (r : BatchRes) : State :=
  let m := s.meter k
  let s := s.setMeter k { m with lastTags := r.tags, lastPlaus := r.plaus }
  let s := s.irq (0x20 + k) 0
  let s := s.tagEvent k 1 (r.tags.testBit 4) (m.lastTags.testBit 4)
  let s := s.tagEvent k 2 (r.tags.testBit 3) (m.lastTags.testBit 3)
  let s := s.tagEvent k 3 (r.tags.testBit 5) (m.lastTags.testBit 5)
  let s := s.tagEvent k 4 (r.tags.testBit 2) (m.lastTags.testBit 2)
  s.tagEvent k 5 r.plaus m.lastPlaus

theorem State.showTags_metered (s : State) {k : Nat} (hk : k < 12) (r : BatchRes) : Metered s (s.showTags k r) := by
  have hset : Metered s (s.setMeter k { s.meter k with lastTags := r.tags, lastPlaus := r.plaus }) := (Metered.refl s).setMeter k _ rfl
  have hirq : Metered s ((s.setMeter k { s.meter k with lastTags := r.tags, lastPlaus := r.plaus }).irq (0x20 + k) 0) := hset.trans (.of_mt rfl)
  have htag {u : State} (hu : Metered s u) (b : Nat) (hb : b < 32) (now before : Bool) : Metered s (u.tagEvent k b now before) :=
    hu.trans (u.tagEvent_metered hk hb now before)
  exact htag (htag (htag (htag (htag hirq 1 (by decide) _ _) 2 (by decide) _ _) 3 (by decide) _ _) 4 (by decide) _ _) 5 (by decide) _ _

theorem Keeps.showTags {s t : State} {R : Nat → Prop} {E : List Nat} {P : List Part} (h : Keeps s t R E P) {k : Nat} (hk : k < 12) (r : BatchRes)
    (he : 3 + k ∈ E) (hmt : Part.mt ∈ P) (hR : ∀ a, batchRegs a → R a) : Keeps s (t.showTags k r) R E P := by
  have hpage (a : Nat) (ha : a / 4096 = 0x20 + k) : R a := hR a (batchRegs_outlet hk ha)
  have hirq := (h.setMeter k { t.meter k with lastTags := r.tags, lastPlaus := r.plaus } hmt).irq (0x20 + k) 0 (hpage _ (by omega))
    (hpage _ (by omega))
  have htag {u : State} (hu : Keeps s u R E P) (b : Nat) (hb : b < 32) (now before : Bool) : Keeps s (u.tagEvent k b now before) R E P :=
    hu.tagEvent hk hb now before he hR
  exact htag (htag (htag (htag (htag hirq 1 (by decide) _ _) 2 (by decide) _ _) 3 (by decide) _ _) 4 (by decide) _ _) 5 (by decide) _ _

/-- A result without QSTAT shows its words and leaves the outlet without valid quantities; one with it is a published cycle. -/
theorem State.publishCycle_cases (s : State) (k : Nat) (r : BatchRes) :
    let u := r.words.foldl (fun s w => s.setReg w.1 w.2) s
    s.publishCycle k r = ((u.put (F.MTRK_QSTAT_VALID k) 0).put (F.MTRK_QSTAT_SETTLING k) (r.tags.testBit 1).toNat).aggregate k false
      ∨ s.publishCycle k r = (((u.showTags k r).aggregate k true).meterGap k (r.tags.testBit 3)).sessionTags k r.tags := by
  unfold State.publishCycle
  dsimp only
  split
  · exact .inl rfl
  · exact .inr rfl

theorem State.sessionTags_metered (s : State) (k tags : Nat) : Metered s (s.sessionTags k tags) :=
  .of_keeps ((Keeps.refl s (fun _ => False) [] [.se]).sessionTags k tags (by simp)) (by simp)

theorem State.publishCycle_metered (s : State) {k : Nat} (hk : k < 12) (r : BatchRes) : Metered s (s.publishCycle k r) := by
  have hwords := s.setWords_metered r.words
  rcases s.publishCycle_cases k r with heq | heq <;> rw [heq]
  · exact ((hwords.put (F.MTRK_QSTAT_VALID k) 0).put (F.MTRK_QSTAT_SETTLING k) _).trans (State.aggregate_metered _ hk false)
  · exact (((hwords.trans (State.showTags_metered _ hk r)).trans (State.aggregate_metered _ hk true)).trans
      (State.meterGap_metered _ k _)).trans (State.sessionTags_metered _ k r.tags)

section
variable {s t : State} {R : Nat → Prop} {E : List Nat} {P : List Part} (hE : ∀ e ∈ 2 :: 38 :: List.range' 3 12, e ∈ E)
  (hP : ∀ p ∈ [Part.mt, .legal, .se, .lm], p ∈ P) (hR : ∀ a, batchRegs a → R a)
include hE hP hR

theorem Keeps.publishCycle (h : Keeps s t R E P) {k : Nat} (hk : k < 12) (r : BatchRes) (hw : ∀ w ∈ r.words, R w.1) :
    Keeps s (t.publishCycle k r) R E P := by
  have hring : 3 + k ∈ E := hE _ (.tail _ (.tail _ (List.mem_range'_1.mpr (by omega))))
  have hmt : Part.mt ∈ P := hP _ (by decide)
  have hwords := h.setWords r.words hw
  rcases t.publishCycle_cases k r with heq | heq <;> rw [heq]
  · have hqstat : R (F.MTRK_QSTAT_VALID k).addr := hR _ (batchRegs_outlet hk (by simp only [F.MTRK_QSTAT_VALID]; omega))
    exact ((hwords.put (F.MTRK_QSTAT_VALID k) 0 hqstat).put (F.MTRK_QSTAT_SETTLING k) _ hqstat).aggregate hk false hmt hR
  · exact (((hwords.showTags hk r hring hmt hR).aggregate hk true hmt hR).meterGap k _ (hE _ (by decide)) (hE _ (by decide)) hmt
      (hP _ (by decide)) hR).sessionTags k _ (hP _ (by decide))

end

-- The slots' handed results

/-- A handed result of an outlet is published: its increments become the published ones, and a closed cycle of an enabled outlet is shown. -/
def State.publishOutlet (s : State) (j : Nat) (r : BatchRes) : State :=
  let s := s.setMeter j { s.meter j with pub := add3 (s.meter j).pub (s.meter j).pubNext, pubNext := (0, 0, 0) }
  if r.batch = 15 && s.enabled (0x20 + j) then s.publishCycle j r else s

theorem State.publishOutlet_metered (s : State) {j : Nat} (hj : j < 12) (r : BatchRes) : Metered s (s.publishOutlet j r) := by
  have hset : Metered s (s.setMeter j { s.meter j with pub := add3 (s.meter j).pub (s.meter j).pubNext, pubNext := (0, 0, 0) }) :=
    (Metered.refl s).setMeter j _ rfl
  exact .ite (hset.trans (State.publishCycle_metered _ hj r)) hset

/-- One handed result of slot j is published. -/
def State.publishResult (j : Nat) (s : State) (r : BatchRes) : State :=
  if j < 12 then s.publishOutlet j r else r.words.foldl (fun s w => s.setReg w.1 w.2) s

theorem State.publishSlot_eq (s : State) (j : Nat) :
    s.publishSlot j = (s.slot j).handed.foldl (State.publishResult j) (s.setSlot j { s.slot j with handed := [] }) := rfl

theorem State.publishResult_metered (s : State) (j : Nat) (r : BatchRes) : Metered s (State.publishResult j s r) := by
  unfold State.publishResult
  split
  next hj => exact s.publishOutlet_metered hj r
  · exact s.setWords_metered r.words

theorem State.publishSlot_metered (s : State) (j : Nat) : Metered s (s.publishSlot j) := by
  rw [State.publishSlot_eq]
  exact Metered.foldl _ _ (fun v r hv => hv.trans (v.publishResult_metered j r)) ((Metered.refl s).setSlot j _ fun r hr => by simp at hr)

/-- A slot that handed nothing publishes nothing. -/
theorem State.publishSlot_idle (s : State) (j : Nat) (h : (s.slot j).handed = []) : s.publishSlot j = s.setSlot j { s.slot j with handed := [] } := by
  rw [State.publishSlot_eq, h, List.foldl_nil]

section
variable {s t : State} {R : Nat → Prop} {E : List Nat} {P : List Part} (hE : ∀ e ∈ 2 :: 38 :: List.range' 3 12, e ∈ E)
  (hP : ∀ p ∈ [Part.mt, .legal, .se, .lm], p ∈ P) (hR : ∀ a, batchRegs a → R a)
include hE hP hR

theorem Keeps.publishResult (h : Keeps s t R E P) (j : Nat) (r : BatchRes) (hw : ∀ w ∈ r.words, R w.1) :
    Keeps s (State.publishResult j t r) R E P := by
  unfold State.publishResult
  split
  next hj =>
    have hset := h.setMeter j { t.meter j with pub := add3 (t.meter j).pub (t.meter j).pubNext, pubNext := (0, 0, 0) } (hP _ (by decide))
    exact Keeps.ite (hset.publishCycle hE hP hR hj r hw) hset
  · exact h.setWords r.words hw

theorem Keeps.publishSlot (h : Keeps s t R E P) (j : Nat) (hw : ∀ r ∈ (t.slot j).handed, ∀ w ∈ r.words, R w.1) : Keeps s (t.publishSlot j) R E P := by
  rw [State.publishSlot_eq]
  exact Keeps.foldlMem _ _ (fun u r hr hu => hu.publishResult hE hP hR j r (hw r hr)) (h.setSlot j _ (hP _ (by decide)))

/-- All slots publish: only registers of `R`, which holds the words handed over, may move. -/
theorem Keeps.publishSlots (hw : ∀ j, ∀ r ∈ (s.slot j).handed, ∀ w ∈ r.words, R w.1) (n : Nat) :
    Metered s ((List.range n).foldl (fun s j => s.publishSlot j) s) ∧ Keeps s ((List.range n).foldl (fun s j => s.publishSlot j) s) R E P :=
  List.foldlRecOn (List.range n) _ (motive := fun u => Metered s u ∧ Keeps s u R E P) ⟨.refl s, Keeps.refl s _ _ _⟩ fun u ⟨hm, hu⟩ j _ =>
    ⟨hm.trans (u.publishSlot_metered j), hu.publishSlot hE hP hR j fun r hr => hw j r (hm.handed j r hr)⟩

end

/-- Slots that handed nothing leave every register as it was. -/
theorem State.publishSlots_idle (s : State) (h : ∀ j, (s.slot j).handed = []) (n : Nat) :
    Keeps s ((List.range n).foldl (fun s j => s.publishSlot j) s) (among []) [] [.mt] := by
  have hempty {u : State} (hm : Metered s u) (j : Nat) : (u.slot j).handed = [] :=
    List.eq_nil_iff_forall_not_mem.mpr fun r hr => by simpa [h j] using hm.handed j r hr
  refine (List.foldlRecOn (List.range n) _ (motive := fun u => Metered s u ∧ Keeps s u (among []) [] [.mt]) ⟨.refl s, Keeps.refl s _ _ _⟩
    fun u ⟨hm, hu⟩ j _ => ⟨hm.trans (u.publishSlot_metered j), ?_⟩).2
  rw [u.publishSlot_idle j (hempty hm j)]
  exact hu.setSlot j _ (by simp)

-- The stages, the harmonic and the load management take the batch (R179, R211, R363)

section
variable {s t : State} {R : Nat → Prop} {E : List Nat} {P : List Part}

theorem Keeps.feedStages (h : Keeps s t R E P) (hp : Part.mt ∈ P) : Keeps s t.feedStages R E P :=
  Keeps.foldl _ (fun _ k hu => hu.setMeter k _ hp) _ _ (Keeps.foldl _ (fun _ n hu => Keeps.ite (hu.setStage n _ hp) hu) _ _ h)

theorem Keeps.showHarm (h : Keeps s t R E P) (hw : ∀ w ∈ t.mt.harmNext, R w.1) : Keeps s t.showHarm R E P :=
  Keeps.foldlMem _ _ (fun _ w hm hu => hu.setReg _ _ (hw w hm)) h

theorem Keeps.lmgCycle (h : Keeps s t R E P) (hp : Part.lm ∈ P) (hR : ∀ a, batchRegs a → R a) : Keeps s t.lmgCycle R E P := by
  refine Keeps.ite h (Keeps.foldlMem _ _ (fun u k hk hu => (hu.withLm _ hp).put (F.LMG_OUT_MEAS_MA k) _ (hR _ (.inl ?_))) h)
  have hk12 := List.mem_range.mp hk
  refine List.mem_append_left _ ?_
  simp only [F.LMG_OUT_MEAS_MA, List.mem_cons]
  omega

end

theorem State.feedStages_metered (s : State) : Metered s s.feedStages :=
  Metered.foldl _ _ (fun _ k hu => hu.setMeter k _ rfl) (Metered.foldl _ _ (fun _ n hu => .ite (hu.setStage n _) hu) (.refl s))

theorem State.showHarm_metered (s : State) : Metered s s.showHarm :=
  .of_keeps ((Keeps.refl s (fun _ => True) [] []).showHarm fun _ _ => trivial) (by simp)

theorem State.lmgCycle_metered (s : State) : Metered s s.lmgCycle :=
  .of_keeps ((Keeps.refl s (fun _ => True) [] [.lm]).lmgCycle (by simp) fun _ _ => trivial) (by simp)

end Sys2Proof.Machine

/-! A batch made ready after the first, and the whole obligation (O17). -/
namespace Sys2Proof.Machine

-- A couch falls due (R197)

/-- A couch of the totals begins. -/
def State.beginCouch (s : State) (flags : Nat) : State := { s with mt := { s.mt with couching := some (s.legalRecord flags) } }

theorem State.couchDue_idle (s : State) (flags : Nat) (h : s.mt.couching = none) : s.couchDue flags = s.beginCouch flags := by
  unfold State.couchDue
  rw [h]
  rfl

/-- The results and the stages of the batch before. -/
def State.publishAll (s : State) : State := ((List.range 16).foldl (fun s j => s.publishSlot j) s).feedStages

/-- The couch of a batch's end. -/
def State.couchAt (s : State) (b : Nat) : State :=
  if (b = 7 ∨ b = 15) ∧ s.couchable then s.couchDue (if b = 15 then 4 else 0) else s

/-- The cycle's end: the harmonic is shown and the load management takes the cycle. -/
def State.closeCycle (s : State) (b : Nat) : State := if b = 15 then s.showHarm.lmgCycle else s

theorem State.publishBatch_eq (s : State) (last : Nat) : s.publishBatch last = (s.publishAll.couchAt (last % 16)).closeCycle (last % 16) := rfl

/-- The couch of a batch's end when none is in progress: it begins at batches 7 and 15 where the totals can be couched. -/
theorem State.couchAt_spec (s : State) (b : Nat) (h : s.mt.couching = none) :
    (s.couchAt b).mt = { s.mt with couching := (s.couchAt b).mt.couching }
      ∧ ((s.couchAt b).mt.couching.isSome = true ↔ (b = 7 ∨ b = 15) ∧ s.couchable = true) ∧ Keeps s (s.couchAt b) (among []) [] [.mt] := by
  unfold State.couchAt
  split
  next hfalls =>
    rw [s.couchDue_idle _ h]
    exact ⟨rfl, iff_of_true rfl hfalls, (Keeps.refl s _ _ _).withMt _ (by simp)⟩
  next hnot => exact ⟨rfl, iff_of_false (by simp [h]) hnot, Keeps.refl s _ _ _⟩

theorem State.closeCycle_metered (s : State) (b : Nat) : Metered s (s.closeCycle b) :=
  .ite (s.showHarm_metered.trans s.showHarm.lmgCycle_metered) (.refl s)

theorem Keeps.closeCycle {s t : State} {R : Nat → Prop} {E : List Nat} {P : List Part} (h : Keeps s t R E P) (b : Nat) (hp : Part.lm ∈ P)
    (hR : ∀ a, batchRegs a → R a) (hw : ∀ w ∈ t.mt.harmNext, R w.1) : Keeps s (t.closeCycle b) R E P :=
  Keeps.ite ((h.showHarm hw).lmgCycle hp hR) h

/-- The registers a publication may touch: those of its pages, the words of the results handed over and those of the harmonic. -/
abbrev publishRegs (s : State) (a : Nat) : Prop :=
  batchRegs a ∨ (∃ j, ∃ r ∈ (s.slot j).handed, ∃ w ∈ r.words, w.1 = a) ∨ ∃ w ∈ s.mt.harmNext, w.1 = a

theorem State.publishAll_spec (s : State) :
    Metered s s.publishAll ∧ Keeps s s.publishAll (publishRegs s) (2 :: 38 :: List.range' 3 12) [.mt, .legal, .se, .lm] := by
  obtain ⟨hmetered, hkeeps⟩ := Keeps.publishSlots (s := s) (R := publishRegs s) (fun _ h => h) (fun _ h => h) (fun _ h => .inl h)
    (fun j r hr w hw => .inr (.inl ⟨j, r, hr, w, hw, rfl⟩)) 16
  exact ⟨hmetered.trans (State.feedStages_metered _), hkeeps.feedStages (by simp)⟩

/-- Where nothing was handed over, a publication leaves what couching depends on as it was. -/
theorem State.publishAll_couchable (s : State) (h : ∀ j, (s.slot j).handed = []) : s.publishAll.couchable = s.couchable := by
  have hkeeps : Keeps s s.publishAll (among []) [] [.mt] := (s.publishSlots_idle h 16).feedStages (by simp)
  rw [State.couchable, State.couchable, State.enabled, State.enabled, hkeeps.on (hdrEnable 0x12) (by simp), hkeeps.on (hdrEnable 0x11) (by simp),
    hkeeps.on F.MTR_LEGAL_STAT_LEGAL_OK (by simp)]
  rfl

theorem State.publishBatch_spec (s : State) (last : Nat) (h : s.mt.couching = none) :
    (∀ k, ((s.publishBatch last).meter k).acc = (s.meter k).acc)
      ∧ ((s.publishBatch last).mt.couching.isSome = true ↔ (last % 16 = 7 ∨ last % 16 = 15) ∧ s.publishAll.couchable = true)
      ∧ Keeps s (s.publishBatch last) (publishRegs s) (2 :: 38 :: List.range' 3 12) [.mt, .legal, .se, .lm] := by
  obtain ⟨hpublished, hkeeps⟩ := s.publishAll_spec
  obtain ⟨hmt, hcouch, hcouched⟩ := s.publishAll.couchAt_spec (last % 16) (hpublished.couching.trans h)
  have hclosed := (s.publishAll.couchAt (last % 16)).closeCycle_metered (last % 16)
  rw [State.publishBatch_eq]
  refine ⟨fun k => ?_, by rw [hclosed.couching, hcouch], ?_⟩
  · rw [hclosed.acc, State.meter, hmt, ← hpublished.acc k, State.meter]
  · have hharm : (s.publishAll.couchAt (last % 16)).mt.harmNext = s.mt.harmNext := by rw [hmt, hpublished.harmNext]
    have hempty (a : Nat) (ha : among [] a) : publishRegs s a := absurd ha List.not_mem_nil
    refine (hkeeps.trans (hcouched.mono hempty (by simp) (by simp))).closeCycle _ (by simp) (fun _ ha => .inl ha) fun w hw => ?_
    exact .inr (.inr ⟨w, hharm ▸ hw, rfl⟩)

theorem exec_batchReady_next (s : State) (h : s.runs = true) (hdec : s.enabled 0x11 = true) (hmtr : s.enabled 0x12 = true)
    (hnext : s.mt.readied ≠ 0) (htotal : 16 * (s.mt.readied + 1) ≤ s.mt.total) (hcouching : s.mt.couching = none) :
    Ends (exec .batchReady s) fun t =>
      t.mt.readied = s.mt.readied + 1 ∧ (∀ k, (t.meter k).acc = (s.meter k).acc)
      ∧ (s.mt.readied % 16 ≠ 8 → s.mt.readied % 16 ≠ 0 → t.mt.couching = none)
      ∧ (s.mt.readied % 16 = 8 ∨ s.mt.readied % 16 = 0 → (∀ j, (s.slot j).handed = []) → s.mt.harmNext = [] → t.mt.couching.isSome = s.couchable)
      ∧ Keeps s t (fun a => onPages ([0x0A, 0x12, 0x15, 0x1A] ++ List.range' 0x20 12) a
            ∨ (∃ j, ∃ r ∈ (s.slot j).handed, ∃ w ∈ r.words, w.1 = a) ∨ ∃ w ∈ s.mt.harmNext, w.1 = a)
          (2 :: 38 :: List.range' 3 12) [.mt, .legal, .se, .lm] := by
  let u := s.publishBatch (s.mt.readied - 1)
  have hexec : exec .batchReady s = done (u.startBatch s.mt.readied) := by
    show execBatchReady s = _
    rw [execBatchReady, s.onFabric_runs _ h]
    dsimp only
    rw [if_pos ⟨hmtr, hdec, htotal⟩, if_neg hnext]
    rfl
  obtain ⟨hacc, hcouch, hpublished⟩ := s.publishBatch_spec (s.mt.readied - 1) hcouching
  obtain ⟨hready, hmetered, -, hstarted⟩ := u.startBatch_spec s.mt.readied
  have hcouch' : (u.startBatch s.mt.readied).settle.mt.couching = u.mt.couching := hmetered.couching
  refine ⟨_, hexec, hready, fun k => (hmetered.acc k).trans (hacc k), fun h8 h0 => ?_, fun hbatch hempty _ => ?_, ?_⟩
  · rw [hcouch', ← Option.not_isSome_iff_eq_none, hcouch]
    omega
  · rw [hcouch', Bool.eq_iff_iff, hcouch, s.publishAll_couchable hempty]
    exact and_iff_right (by omega)
  · refine (hpublished.trans (hstarted.mono (fun a ha => .inl (ha.imp_left fun hp => ?_)) (by simp) (by simp))).settle
    exact (by decide : ∀ p ∈ 0x12 :: List.range' 0x20 12, p ∈ [0x0A, 0x12, 0x15, 0x1A] ++ List.range' 0x20 12) _ hp

/-- Settles O17, clause by clause. -/
theorem samplesCyclesAndBatches : Obligations.SamplesCyclesAndBatches :=
  ⟨⟨exec_qstatRead, exec_snapSeqRead, exec_pulseStart_taken, exec_pulseStart_early, exec_pulseEnd, exec_plsStageEnable⟩,
    exec_outputSample, exec_cycleBoundary, exec_batchReady_first, exec_batchReady_next, exec_batchReady_early⟩

end Sys2Proof.Machine

/-! The result gate (O14). -/
namespace Sys2Proof.Machine

-- Slots and meters

@[simp] theorem State.settle_slot (s : State) (j : Nat) : s.settle.slot j = s.slot j := rfl

@[simp] theorem State.setMeter_meter_same (s : State) (k : Nat) (m : Meter) : (s.setMeter k m).meter k = m := spRead_spWrite_same _ _ _ _

theorem State.setMeter_meter_other (s : State) (i k : Nat) (m : Meter) (h : i ≠ k) : (s.setMeter k m).meter i = s.meter i :=
  spRead_spWrite_other _ _ _ _ _ h

theorem State.slot_congr {s t : State} (h : t.mt = s.mt) (j : Nat) : t.slot j = s.slot j := by simp only [State.slot, h]

theorem State.meter_congr {s t : State} (h : t.mt = s.mt) (k : Nat) : t.meter k = s.meter k := by simp only [State.meter, h]

-- An accepted batch (R185, R188, R230)

theorem Keeps.debtAlarm {s t : State} {R : Nat → Prop} {E : List Nat} {P : List Part} (h : Keeps s t R E P) (k debt : Nat) (he : 3 + k ∈ E)
    (hR : ∀ a, a = A.MTRK_ESTAT k ∨ lostRegs a → R a) : Keeps s (t.debtAlarm k debt) R E P := by
  have hstat : R (F.MTRK_ESTAT_DEBT_ALARM k).addr := hR _ (.inl rfl)
  exact Keeps.ite (h.put _ 0 hstat) (Keeps.ite ((h.put _ 1 hstat).emit _ _ _ _ _ he fun a ha => hR a (.inr ha)) h)

theorem State.debtAlarm_mt (s : State) (k debt : Nat) : (s.debtAlarm k debt).mt = s.mt :=
  ((Keeps.refl s (fun _ => True) [3 + k] []).debtAlarm k debt (by simp) fun _ _ => trivial).parts .mt (by simp)

/-- Jig mode or lost totals keep an outlet's totals as they are. -/
theorem State.accumulate_kept (s : State) (k : Nat) (incs : List Incr) (h : s.cal.noLegal = true ∨ s.on F.MTR_LEGAL_STAT_LEGAL_OK = false) :
    ∃ m : Meter, m.acc = (s.meter k).acc ∧ s.accumulate k incs = s.setMeter k m := by
  have hkeep : (s.cal.noLegal || !s.on F.MTR_LEGAL_STAT_LEGAL_OK) = true := by simpa using h
  refine ⟨_, ?_, if_pos hkeep⟩
  exact if_pos hkeep

/-- Otherwise they take the batch's sums, and DEBT's alarm is judged. -/
theorem State.accumulate_counted (s : State) (k : Nat) (incs : List Incr) (hjig : s.cal.noLegal = false)
    (hok : s.on F.MTR_LEGAL_STAT_LEGAL_OK = true) :
    ∃ m : Meter, m.acc = (s.meter k).acc.add (sumInc Incr.dp incs) (sumInc Incr.dq incs) (sumInc Incr.ds incs)
      ∧ ∃ debt, s.accumulate k incs = (s.setMeter k m).debtAlarm k debt := by
  have hkeep : ¬ (s.cal.noLegal || !s.on F.MTR_LEGAL_STAT_LEGAL_OK) = true := by simp [hjig, hok]
  refine ⟨_, ?_, _, if_neg hkeep⟩
  exact if_neg hkeep

-- The gate (R174, R175, R176)

/-- Slot j's oldest result leaves its buffer for publication. -/
def State.passGate (s : State) (j : Nat) (r : BatchRes) (rest : List BatchRes) : State :=
  s.setSlot j { s.slot j with buf := rest, handed := (s.slot j).handed ++ [r] }

theorem exec_resultHandover_taken (s : State) (j : Fin 16) (r : BatchRes) (rest : List BatchRes) (epoch cycle batch : Nat) (h : s.runs = true)
    (hbuf : (s.slot j).buf = r :: rest) (hkey : epoch = s.get (laneEpochF j) ∧ r.cycle = cycle ∧ r.batch = batch) :
    exec (.resultHandover j epoch cycle batch) s
      = if j.val < 12 then done ((s.passGate j r rest).accumulate j r.incs) else done (s.passGate j r rest) := by
  show execResultHandover j epoch cycle batch s = _
  rw [execResultHandover, s.onFabric_runs _ h]
  dsimp only
  rw [hbuf]
  exact if_pos hkey

theorem exec_resultHandover_refused (s : State) (j : Fin 16) (epoch cycle batch : Nat) (h : s.runs = true)
    (hkey : ∀ r rest, (s.slot j).buf = r :: rest → epoch ≠ s.get (laneEpochF j) ∨ r.cycle ≠ cycle ∨ r.batch ≠ batch) :
    exec (.resultHandover j epoch cycle batch) s = done (s.incSat F.MTR_GATE_REFUSED) := by
  show execResultHandover j epoch cycle batch s = _
  rw [execResultHandover, s.onFabric_runs _ h]
  dsimp only
  split
  next r rest hbuf =>
    exact if_neg fun ⟨hepoch, hcycle, hbatch⟩ => by
      rcases hkey r rest hbuf with hne | hne | hne
      · exact hne hepoch
      · exact hne hcycle
      · exact hne hbatch
  next => rfl

theorem State.passGate_slot (s : State) (j : Nat) (r : BatchRes) (rest : List BatchRes) :
    (s.passGate j r rest).slot j = { s.slot j with buf := rest, handed := (s.slot j).handed ++ [r] }
      ∧ ∀ i, i ≠ j → (s.passGate j r rest).slot i = s.slot i :=
  ⟨s.setSlot_slot_same j _, fun i hi => s.setSlot_slot_other i j _ hi⟩

theorem exec_resultHandover_counted (s : State) (j : Fin 16) (r : BatchRes) (rest : List BatchRes) (epoch cycle batch : Nat) (h : s.runs = true)
    (hbuf : (s.slot j).buf = r :: rest) (hepoch : epoch = s.get (laneEpochF j)) (hcycle : r.cycle = cycle) (hbatch : r.batch = batch)
    (hj : j.val < 12) (hjig : s.cal.noLegal = false) (hok : s.on F.MTR_LEGAL_STAT_LEGAL_OK = true) :
    Ends (exec (.resultHandover j epoch cycle batch) s) fun t =>
      t.slot j = { s.slot j with buf := rest, handed := (s.slot j).handed ++ [r] } ∧ (∀ i, i ≠ j.val → t.slot i = s.slot i)
      ∧ (t.meter j).acc = (s.meter j).acc.add (sumInc Incr.dp r.incs) (sumInc Incr.dq r.incs) (sumInc Incr.ds r.incs)
      ∧ (∀ i, i ≠ j.val → t.meter i = s.meter i)
      ∧ Keeps s t (fun a => a = A.MTRK_ESTAT j ∨ lostRegs a) [3 + j.val] [.mt] := by
  let u := s.passGate j r rest
  obtain ⟨m, hacc, debt, heq⟩ := u.accumulate_counted j r.incs hjig hok
  have hexec : exec (.resultHandover j epoch cycle batch) s = done ((u.setMeter j m).debtAlarm j debt) := by
    rw [exec_resultHandover_taken s j r rest epoch cycle batch h hbuf ⟨hepoch, hcycle, hbatch⟩, if_pos hj, heq]
  have hmt : ((u.setMeter j m).debtAlarm j debt).settle.mt = (u.setMeter j m).mt := State.debtAlarm_mt _ _ _
  obtain ⟨hslot, hothers⟩ := s.passGate_slot j r rest
  refine ⟨_, hexec, (State.slot_congr hmt j).trans hslot, fun i hi => (State.slot_congr hmt i).trans (hothers i hi), ?_, fun i hi => ?_, ?_⟩
  · rw [State.meter_congr hmt, State.setMeter_meter_same, hacc]
    rfl
  · exact (State.meter_congr hmt i).trans (State.setMeter_meter_other u i j m hi)
  · exact ((((Keeps.refl s _ _ _).setSlot j _ (by simp)).setMeter j m (by simp)).debtAlarm j debt (by simp) fun _ h => h).settle

theorem exec_resultHandover_uncounted (s : State) (j : Fin 16) (r : BatchRes) (rest : List BatchRes) (epoch cycle batch : Nat)
    (h : s.runs = true) (hbuf : (s.slot j).buf = r :: rest) (hepoch : epoch = s.get (laneEpochF j)) (hcycle : r.cycle = cycle)
    (hbatch : r.batch = batch) (hkept : 12 ≤ j.val ∨ s.cal.noLegal = true ∨ s.on F.MTR_LEGAL_STAT_LEGAL_OK = false) :
    Ends (exec (.resultHandover j epoch cycle batch) s) fun t =>
      t.slot j = { s.slot j with buf := rest, handed := (s.slot j).handed ++ [r] } ∧ (∀ i, i ≠ j.val → t.slot i = s.slot i)
      ∧ (∀ i, (t.meter i).acc = (s.meter i).acc) ∧ Keeps s t (among []) [] [.mt] := by
  let u := s.passGate j r rest
  have hu : Keeps s u (among []) [] [.mt] := (Keeps.refl s _ _ _).setSlot j _ (by simp)
  have hexec := exec_resultHandover_taken s j r rest epoch cycle batch h hbuf ⟨hepoch, hcycle, hbatch⟩
  obtain ⟨hslot, hothers⟩ := s.passGate_slot j r rest
  by_cases hj : j.val < 12
  · obtain ⟨m, hacc, heq⟩ := u.accumulate_kept j r.incs (hkept.resolve_left (Nat.not_le.mpr hj))
    rw [if_pos hj, heq] at hexec
    exact ⟨_, hexec, hslot, hothers, u.setMeter_acc j m hacc, (hu.setMeter j m (by simp)).settle⟩
  · rw [if_neg hj] at hexec
    exact ⟨_, hexec, hslot, hothers, fun _ => rfl, hu.settle⟩

theorem exec_resultHandover_gate (s : State) (j : Fin 16) (epoch cycle batch : Nat) (h : s.runs = true)
    (hkey : ∀ r rest, (s.slot j).buf = r :: rest → epoch ≠ s.get (laneEpochF j) ∨ r.cycle ≠ cycle ∨ r.batch ≠ batch) :
    Ends (exec (.resultHandover j epoch cycle batch) s) fun t =>
      t.get F.MTR_GATE_REFUSED = satInc (2 ^ 32 - 1) (s.get F.MTR_GATE_REFUSED) ∧ Keeps s t (among [F.MTR_GATE_REFUSED.addr]) [] [] :=
  ⟨_, exec_resultHandover_refused s j epoch cycle batch h hkey, s.incSat_get_same F.MTR_GATE_REFUSED (by decide),
    ((Keeps.refl s _ _ _).incSat F.MTR_GATE_REFUSED (by simp)).settle⟩

/-- Settles O14, clause by clause: a result that meets its key counts or is kept out of the totals, any other is refused. -/
theorem resultGate : Obligations.ResultGate :=
  ⟨exec_resultHandover_counted, exec_resultHandover_uncounted, exec_resultHandover_gate⟩

end Sys2Proof.Machine

/-! Lanes, spares and the slots they carry (O16). -/
namespace Sys2Proof.Machine

-- One bit of a register

theorem State.put_on_apart (s : State) (f g : Fld) (v : Nat) (h : f.lsb + f.wid ≤ 32)
    (ha : g.addr ≠ f.addr ∨ f.lsb + f.wid ≤ g.lsb ∨ g.lsb + g.wid ≤ f.lsb) : (s.put f v).on g = s.on g := by
  rw [State.on, State.put_get_apart s f g v h ha, State.on]

/-- A bit of a register written leaves its other bits as they were. -/
theorem State.put_bit_other (s : State) (a v : Nat) {b c : Nat} (hb : b < 32) (hc : c ≠ b) :
    (s.put (bitFld a b) v).on (bitFld a c) = s.on (bitFld a c) :=
  s.put_on_apart _ _ v (show b + 1 ≤ 32 by omega) (.inr (show b + 1 ≤ c ∨ c + 1 ≤ b by omega))

/-- A bit set is on. -/
theorem State.put_bit_one (s : State) (a : Nat) {b : Nat} (hb : b < 32) : (s.put (bitFld a b) 1).on (bitFld a b) = true :=
  s.put_on_bool (bitFld a b) true rfl (show b + 1 ≤ 32 by omega)

/-- A bit cleared is off. -/
theorem State.put_bit_zero (s : State) (a : Nat) {b : Nat} (hb : b < 32) : (s.put (bitFld a b) 0).on (bitFld a b) = false :=
  s.put_on_bool (bitFld a b) false rfl (show b + 1 ≤ 32 by omega)

-- LANE_STAT's bits: a lane's or a spare's failure, a spare's use, a spare's audit

/-- Bit b of LANE_STAT. -/
def State.laneBit (s : State) (b : Nat) : Bool := s.on (bitFld A.MTR_LANE_STAT b)

theorem State.laneBit_fail (s : State) (i : Nat) : s.on (spareLaneFailF i) = s.laneBit (16 + i) := rfl
theorem State.laneBit_used (s : State) (i : Nat) : s.on (spareLaneUsedF i) = s.laneBit (18 + i) := rfl

theorem Keeps.laneBit {s t : State} {R : Nat → Prop} {E : List Nat} {P : List Part} (h : Keeps s t R E P) (hR : ¬ R A.MTR_LANE_STAT) (b : Nat) :
    t.laneBit b = s.laneBit b := h.on (bitFld A.MTR_LANE_STAT b) hR

-- LANE_MAP: the slot of each spare (R167, R179)

/-- LANE_MAP's fields of spare 16 + i. -/
def laneMapSlotF (i : Nat) : Fld := ⟨A.MTR_LANE_MAP, 8 * i, 4⟩
def laneMapValidF (i : Nat) : Fld := ⟨A.MTR_LANE_MAP, 8 * i + 4, 1⟩

/-- Does LANE_MAP give spare 16 + i slot j? -/
def State.maps (s : State) (i j : Nat) : Bool := s.on (laneMapValidF i) && s.get (laneMapSlotF i) == j

theorem State.carrier_eq (s : State) (j : Nat) :
    s.carrier j = if s.maps 0 j then some 16 else if s.maps 1 j then some 17 else if s.laneBit j then none else some j := rfl

theorem Keeps.maps {s t : State} {R : Nat → Prop} {E : List Nat} {P : List Part} (h : Keeps s t R E P) (hR : ¬ R A.MTR_LANE_MAP) (i j : Nat) :
    t.maps i j = s.maps i j := by rw [State.maps, h.on (laneMapValidF i) hR, h.get (laneMapSlotF i) hR, State.maps]

/-- A lane that carries a slot: itself the slot's own, or a spare that LANE_MAP gives it. -/
theorem State.carrier_eq_some (s : State) {j lane : Nat} (h : s.carrier j = some lane) :
    (s.maps 0 j = true ∧ lane = 16) ∨ (s.maps 0 j = false ∧ s.maps 1 j = true ∧ lane = 17) ∨ lane = j := by
  rw [State.carrier_eq] at h
  split at h
  next h0 => exact .inl ⟨h0, (Option.some.inj h).symm⟩
  next h0 =>
    split at h
    next h1 => exact .inr (.inl ⟨by simpa using h0, h1, (Option.some.inj h).symm⟩)
    next =>
      split at h
      · cases h
      · exact .inr (.inr (Option.some.inj h).symm)

theorem State.slotOf_eq_some (s : State) {lane j : Nat} (h : s.slotOf lane = some j) : j < 16 ∧ s.carrier j = some lane := by
  have hfound := List.find?_some h
  exact ⟨List.mem_range.mp (List.mem_of_find?_eq_some h), by simpa using hfound⟩

/-- Slot j on its own lane is the slot that lane carries. -/
theorem State.slotOf_own (s : State) {j : Nat} (hj : j < 16) (h : s.carrier j = some j) : s.slotOf j = some j := by
  have hfind : ∃ i, s.slotOf j = some i := Option.isSome_iff_exists.mp (List.find?_isSome.mpr ⟨j, List.mem_range.mpr hj, by simp [h]⟩)
  obtain ⟨i, hi⟩ := hfind
  obtain ⟨-, hcarrier⟩ := s.slotOf_eq_some hi
  rcases s.carrier_eq_some hcarrier with ⟨-, h16⟩ | ⟨-, -, h17⟩ | rfl
  · omega
  · omega
  · exact hi

-- Free spares (R167)

/-- Is spare 16 + i in service and unused? -/
def State.laneFree (s : State) (i : Nat) : Bool := !s.laneBit (16 + i) && !s.laneBit (18 + i)

theorem State.freeLane_eq (s : State) : s.freeLane = if s.laneFree 0 then some 0 else if s.laneFree 1 then some 1 else none := by
  show [0, 1].find? s.laneFree = _
  cases h0 : s.laneFree 0 <;> cases h1 : s.laneFree 1 <;> simp [h0, h1]

theorem State.freeLane_eq_some (s : State) {i : Nat} (h : s.freeLane = some i) : i < 2 ∧ s.laneFree i = true ∧ (i = 1 → s.laneFree 0 = false) := by
  rw [State.freeLane_eq] at h
  split at h
  next h0 =>
    cases h
    exact ⟨by decide, h0, fun h => by cases h⟩
  next h0 =>
    split at h
    next h1 =>
      cases h
      exact ⟨by decide, h1, fun _ => by simpa using h0⟩
    · cases h

/-- A spare that goes out of service leaves the choice among the others as it was. -/
theorem State.freeLane_congr {s t : State} (h : ∀ i < 2, t.laneFree i = s.laneFree i ∨ (t.laneFree i = false ∧ s.freeLane ≠ some i)) :
    t.freeLane = s.freeLane := by
  have h0 := h 0 (by decide)
  have h1 := h 1 (by decide)
  rw [State.freeLane_eq] at h0 h1 ⊢
  rw [State.freeLane_eq]
  cases ha : s.laneFree 0 <;> cases hb : s.laneFree 1 <;> simp_all

-- A lane goes out of service (R165, R167)

/-- A spare goes out of service: its flags, its place in LANE_MAP and its audits. -/
def State.dropSpare (s : State) (i : Nat) : State :=
  let s := ((s.put (spareLaneFailF i) 1).put (spareLaneUsedF i) 0).put (auditingF i) 0
  let s := s.put (laneMapValidF i) 0
  { s with mt := { s.mt with audits := s.mt.audits.filter fun a => a.spare != i } }

theorem State.markLane_lane (s : State) {lane : Nat} (h : lane < 16) : s.markLane lane = (s.put (bitFld A.MTR_LANE_STAT lane) 1).event 0x12 0 lane :=
  if_pos h

theorem State.markLane_spare (s : State) {i : Nat} (h : i < 2) : s.markLane (16 + i) = (s.dropSpare i).event 0x12 1 (16 + i) := by
  obtain rfl | rfl : i = 0 ∨ i = 1 := by omega
  · rfl
  · rfl

/-- The bit of IRQ_PEND that tells of a lane out of service: a slot's lane or a spare. -/
def laneIrq (lane : Nat) : Nat := if lane < 16 then 0 else 1

/-- What a lane out of service shows: its failure, its event, the audits left; and what it leaves as it was. -/
structure Marked (s t : State) (lane : Nat) : Prop where
  fail : t.laneBit lane = true
  others : ∀ b < 16 + 2, b ≠ lane → t.laneBit b = s.laneBit b
  used : ∀ i < 2, t.laneBit (18 + i) = (s.laneBit (18 + i) && lane != 16 + i)
  maps : ∀ i < 2, ∀ j, t.maps i j = (s.maps i j && lane != 16 + i)
  pend : t.get (hdrPend 0x12 (laneIrq lane)) = 1
  pends : ∀ b, b ≠ laneIrq lane → t.get (hdrPend 0x12 b) = s.get (hdrPend 0x12 b)
  slot : ∀ j, t.slot j = s.slot j
  audits : ∀ a ∈ t.mt.audits, a ∈ s.mt.audits
  keeps : Keeps s t (fun a => a = A.MTR_LANE_STAT ∨ a = A.MTR_LANE_MAP ∨ eventRegs 0x12 (laneIrq lane) a) [2] [.mt]

theorem Keeps.mtrPend {s t : State} {R : Nat → Prop} {E : List Nat} {P : List Part} (h : Keeps s t R E P) (hR : ¬ R 0x12018) (b : Nat) :
    t.get (hdrPend 0x12 b) = s.get (hdrPend 0x12 b) := h.get (hdrPend 0x12 b) hR

theorem State.event_keeps (s : State) (p b u : Nat) : Keeps s (s.event p b u) (eventRegs p b) [2] [] :=
  (Keeps.refl s _ _ _).eventWithin p b u (by simp) fun _ h => h

theorem State.markLane_marked_lane (s : State) {lane : Nat} (h : lane < 16) : Marked s (s.markLane lane) lane := by
  let u := s.put (bitFld A.MTR_LANE_STAT lane) 1
  have hirq : laneIrq lane = 0 := if_pos h
  have hu : Keeps s u (fun a => a = A.MTR_LANE_STAT) [] [] := (Keeps.refl s _ _ _).put _ _ rfl
  have ht : Keeps u (u.event 0x12 0 lane) (eventRegs 0x12 0) [2] [] := u.event_keeps 0x12 0 lane
  have hbit : ∀ b, (u.event 0x12 0 lane).laneBit b = u.laneBit b := ht.laneBit (by decide)
  have hother {b : Nat} (hb : b ≠ lane) : u.laneBit b = s.laneBit b := s.put_bit_other _ _ (by omega) hb
  rw [s.markLane_lane h]
  refine ⟨(hbit lane).trans (s.put_bit_one _ (by omega)), fun b _ hb => (hbit b).trans (hother hb), fun i hi => ?_, fun i hi j => ?_, ?_,
    fun b hb => ?_, fun j => State.slot_congr (State.event_mt _ _ _ _) j, fun a ha => ?_, ?_⟩
  · have hlane : (lane != 16 + i) = true := by simp only [bne_iff_ne]; omega
    rw [hbit, hother (by omega), hlane, Bool.and_true]
  · have hlane : (lane != 16 + i) = true := by simp only [bne_iff_ne]; omega
    rw [ht.maps (by decide), hu.maps (by decide), hlane, Bool.and_true]
  · rw [hirq]
    exact u.event_pend 0x12 0 lane (by decide) (by decide)
  · rw [u.event_pend_apart 0x12 0 b lane (by decide) (hirq ▸ hb) (by decide), hu.mtrPend (by decide)]
  · rwa [State.event_mt] at ha
  · rw [hirq]
    exact (hu.mono (fun _ ha => .inl ha) (by simp) (by simp)).trans (ht.mono (fun _ ha => .inr (.inr ha)) (by simp) (by simp))

theorem State.dropSpare_laneBit (s : State) {i : Nat} (hi : i < 2) :
    (s.dropSpare i).laneBit (16 + i) = true ∧ (s.dropSpare i).laneBit (18 + i) = false
      ∧ ∀ b, b ≠ 16 + i → b ≠ 18 + i → b ≠ 20 + i → (s.dropSpare i).laneBit b = s.laneBit b := by
  let u := s.put (spareLaneFailF i) 1
  let v := u.put (spareLaneUsedF i) 0
  let w := v.put (auditingF i) 0
  have hmap (b : Nat) : (s.dropSpare i).laneBit b = w.laneBit b := State.put_on_other w (laneMapValidF i) (bitFld A.MTR_LANE_STAT b) 0 (by
    show A.MTR_LANE_STAT ≠ A.MTR_LANE_MAP
    decide)
  have hw (b : Nat) (hb : b ≠ 20 + i) : w.laneBit b = v.laneBit b := v.put_bit_other _ _ (by omega) hb
  have hv (b : Nat) (hb : b ≠ 18 + i) : v.laneBit b = u.laneBit b := u.put_bit_other _ _ (by omega) hb
  refine ⟨?_, ?_, fun b h16 h18 h20 => ?_⟩
  · rw [hmap, hw _ (by omega), hv _ (by omega)]
    exact s.put_bit_one _ (by omega)
  · rw [hmap, hw _ (by omega)]
    exact u.put_bit_zero _ (by omega)
  · rw [hmap, hw _ h20, hv _ h18]
    exact s.put_bit_other _ _ (by omega) h16

/-- LANE_MAP after one of its VALID bits is cleared. -/
theorem State.unmap_maps (s : State) {i k : Nat} (hi : i < 2) (hk : k < 2) (j : Nat) :
    (s.put (laneMapValidF i) 0).maps k j = (s.maps k j && i != k) := by
  have hslot : (s.put (laneMapValidF i) 0).get (laneMapSlotF k) = s.get (laneMapSlotF k) :=
    s.put_get_apart _ _ _ (show 8 * i + 4 + 1 ≤ 32 by omega) (.inr (show 8 * i + 4 + 1 ≤ 8 * k ∨ 8 * k + 4 ≤ 8 * i + 4 by omega))
  rw [State.maps, hslot, State.maps]
  by_cases hik : k = i
  · subst hik
    have hvalid : (s.put (laneMapValidF k) 0).on (laneMapValidF k) = false := s.put_bit_zero A.MTR_LANE_MAP (by omega)
    simp [hvalid]
  · have hvalid : (s.put (laneMapValidF i) 0).on (laneMapValidF k) = s.on (laneMapValidF k) :=
      s.put_bit_other A.MTR_LANE_MAP 0 (by omega) (by omega)
    have hne : (i != k) = true := by simp only [bne_iff_ne]; omega
    rw [hvalid, hne, Bool.and_true]

theorem State.dropSpare_keeps (s : State) (i : Nat) :
    Keeps s (s.dropSpare i) (fun a => a = A.MTR_LANE_STAT ∨ a = A.MTR_LANE_MAP) [] [.mt] :=
  (((((Keeps.refl s _ _ _).put (spareLaneFailF i) 1 (.inl rfl)).put (spareLaneUsedF i) 0 (.inl rfl)).put (auditingF i) 0 (.inl rfl)).put
    (laneMapValidF i) 0 (.inr rfl)).withMt _ (by simp)

theorem State.markLane_marked_spare (s : State) {i : Nat} (h : i < 2) : Marked s (s.markLane (16 + i)) (16 + i) := by
  let u := s.dropSpare i
  have hirq : laneIrq (16 + i) = 1 := if_neg (by omega)
  have hu : Keeps s u (fun a => a = A.MTR_LANE_STAT ∨ a = A.MTR_LANE_MAP) [] [.mt] := s.dropSpare_keeps i
  have ht : Keeps u (u.event 0x12 1 (16 + i)) (eventRegs 0x12 1) [2] [] := u.event_keeps 0x12 1 (16 + i)
  have hbit : ∀ b, (u.event 0x12 1 (16 + i)).laneBit b = u.laneBit b := ht.laneBit (by decide)
  obtain ⟨hfail, hunused, hothers⟩ := s.dropSpare_laneBit h
  have hmt : (u.event 0x12 1 (16 + i)).mt = { s.mt with audits := s.mt.audits.filter fun a => a.spare != i } := State.event_mt _ _ _ _
  rw [s.markLane_spare h]
  refine ⟨(hbit _).trans hfail, fun b hlt hb => (hbit b).trans (hothers b hb (by omega) (by omega)), fun k hk => ?_, fun k hk j => ?_, ?_,
    fun b hb => ?_, fun j => ?_, fun a ha => ?_, ?_⟩
  · rw [hbit]
    by_cases hik : k = i
    · subst hik
      rw [hunused]
      simp
    · have hne : (16 + i != 16 + k) = true := by simp only [bne_iff_ne]; omega
      rw [hothers _ (by omega) (by omega) (by omega), hne, Bool.and_true]
  · have hv : Keeps s (((s.put (spareLaneFailF i) 1).put (spareLaneUsedF i) 0).put (auditingF i) 0) (fun a => a = A.MTR_LANE_STAT) [] [] :=
      (((Keeps.refl s (fun a => a = A.MTR_LANE_STAT) [] []).put (spareLaneFailF i) 1 rfl).put (spareLaneUsedF i) 0 rfl).put (auditingF i) 0 rfl
    have hne : (16 + i != 16 + k) = (i != k) := by rw [Bool.eq_iff_iff, bne_iff_ne, bne_iff_ne]; omega
    rw [ht.maps (by decide), hne, ← hv.maps (by decide) k j]
    exact State.unmap_maps _ h hk j
  · rw [hirq]
    exact u.event_pend 0x12 1 (16 + i) (by decide) (by decide)
  · rw [u.event_pend_apart 0x12 1 b (16 + i) (by decide) (hirq ▸ hb) (by decide), hu.mtrPend (by decide)]
  · rw [State.slot, hmt, State.slot]
  · rw [hmt] at ha
    exact List.mem_of_mem_filter ha
  · rw [hirq]
    exact (hu.mono (fun _ ha => ha.imp_right .inl) (by simp) (by simp)).trans (ht.mono (fun _ ha => .inr (.inr ha)) (by simp) (by simp))

theorem State.markLane_marked (s : State) {lane : Nat} (h : lane < 18) : Marked s (s.markLane lane) lane := by
  by_cases hlane : lane < 16
  · exact s.markLane_marked_lane hlane
  · obtain ⟨i, rfl⟩ := Nat.exists_eq_add_of_le (Nat.not_lt.mp hlane)
    exact s.markLane_marked_spare (by omega)

-- A spare takes a slot (R167)

/-- Spare 16 + i's flags and its place in LANE_MAP as it takes slot j. -/
def State.mapSpare (s : State) (i j : Nat) : State :=
  (((s.put (spareLaneUsedF i) 1).put (auditingF i) 0).put (laneMapSlotF i) j).put (laneMapValidF i) 1

/-- Spare 16 + i's audits are abandoned, and slot j runs under its present epoch. -/
def State.takeSlot (s : State) (i j : Nat) : State :=
  let s := { s with mt := { s.mt with audits := s.mt.audits.filter fun a => a.spare != i } }
  s.setSlot j { s.slot j with ctxEpoch := s.get (laneEpochF j) }

theorem State.assignSpare_eq (s : State) {i : Nat} (h : i < 2) (j : Nat) : s.assignSpare i j = (s.mapSpare i j).takeSlot i j := by
  obtain rfl | rfl : i = 0 ∨ i = 1 := by omega
  · rfl
  · rfl

/-- What a spare that takes a slot shows, and what it leaves as it was. -/
structure Assigned (s t : State) (i j : Nat) : Prop where
  used : t.laneBit (18 + i) = true
  others : ∀ b, b ≠ 18 + i → b ≠ 20 + i → t.laneBit b = s.laneBit b
  maps : ∀ x, t.maps i x = (j == x)
  otherMaps : ∀ k < 2, k ≠ i → ∀ x, t.maps k x = s.maps k x
  slot : ∀ x, x ≠ j → t.slot x = s.slot x
  audits : ∀ a ∈ t.mt.audits, a ∈ s.mt.audits
  keeps : Keeps s t (fun a => a = A.MTR_LANE_STAT ∨ a = A.MTR_LANE_MAP) [] [.mt]

theorem State.mapSpare_laneBit (s : State) {i : Nat} (h : i < 2) (j : Nat) :
    (s.mapSpare i j).laneBit (18 + i) = true ∧ ∀ b, b ≠ 18 + i → b ≠ 20 + i → (s.mapSpare i j).laneBit b = s.laneBit b := by
  let u := s.put (spareLaneUsedF i) 1
  let v := u.put (auditingF i) 0
  have hmap : Keeps v (s.mapSpare i j) (fun a => a = A.MTR_LANE_MAP) [] [] := 
    ((Keeps.refl v (fun a => a = A.MTR_LANE_MAP) [] []).put (laneMapSlotF i) j rfl).put (laneMapValidF i) 1 rfl
  have hv (b : Nat) (hb : b ≠ 20 + i) : v.laneBit b = u.laneBit b := u.put_bit_other _ _ (by omega) hb
  refine ⟨?_, fun b h18 h20 => ?_⟩
  · rw [hmap.laneBit (by decide), hv _ (by omega)]
    exact s.put_bit_one _ (by omega)
  · rw [hmap.laneBit (by decide), hv _ h20]
    exact s.put_bit_other _ _ (by omega) h18

theorem State.mapSpare_maps (s : State) {i j : Nat} (hi : i < 2) (hj : j < 16) :
    (∀ x, (s.mapSpare i j).maps i x = (j == x)) ∧ ∀ k < 2, k ≠ i → ∀ x, (s.mapSpare i j).maps k x = s.maps k x := by
  let u := (s.put (spareLaneUsedF i) 1).put (auditingF i) 0
  let v := u.put (laneMapSlotF i) j
  have hu : Keeps s u (fun a => a = A.MTR_LANE_STAT) [] [] :=
    ((Keeps.refl s (fun a => a = A.MTR_LANE_STAT) [] []).put (spareLaneUsedF i) 1 rfl).put (auditingF i) 0 rfl
  have hslot (k : Nat) : (s.mapSpare i j).get (laneMapSlotF k) = v.get (laneMapSlotF k) :=
    v.put_get_apart (laneMapValidF i) _ _ (show 8 * i + 4 + 1 ≤ 32 by omega) (.inr (show 8 * i + 4 + 1 ≤ 8 * k ∨ 8 * k + 4 ≤ 8 * i + 4 by omega))
  refine ⟨fun x => ?_, fun k hk hne x => ?_⟩
  · have hvalid : (s.mapSpare i j).on (laneMapValidF i) = true := v.put_bit_one A.MTR_LANE_MAP (by omega)
    have htaken : v.get (laneMapSlotF i) = j := (u.put_get_same (laneMapSlotF i) j (show 8 * i + 4 ≤ 32 by omega)).trans (Nat.mod_eq_of_lt hj)
    rw [State.maps, hvalid, hslot, htaken, Bool.true_and]
  · have hvalid : (s.mapSpare i j).on (laneMapValidF k) = v.on (laneMapValidF k) := v.put_bit_other A.MTR_LANE_MAP 1 (by omega) (by omega)
    have hvalid' : v.on (laneMapValidF k) = u.on (laneMapValidF k) :=
      u.put_on_apart (laneMapSlotF i) _ _ (show 8 * i + 4 ≤ 32 by omega) (.inr (show 8 * i + 4 ≤ 8 * k + 4 ∨ 8 * k + 4 + 1 ≤ 8 * i by omega))
    have hother : v.get (laneMapSlotF k) = u.get (laneMapSlotF k) :=
      u.put_get_apart (laneMapSlotF i) _ _ (show 8 * i + 4 ≤ 32 by omega) (.inr (show 8 * i + 4 ≤ 8 * k ∨ 8 * k + 4 ≤ 8 * i by omega))
    rw [State.maps, hvalid, hvalid', hslot, hother, ← State.maps, hu.maps (by decide)]

theorem State.mapSpare_keeps (s : State) (i j : Nat) :
    Keeps s (s.mapSpare i j) (fun a => a = A.MTR_LANE_STAT ∨ a = A.MTR_LANE_MAP) [] [] :=
  ((((Keeps.refl s _ _ _).put (spareLaneUsedF i) 1 (.inl rfl)).put (auditingF i) 0 (.inl rfl)).put (laneMapSlotF i) j (.inr rfl)).put
    (laneMapValidF i) 1 (.inr rfl)

theorem State.assignSpare_assigned (s : State) {i j : Nat} (hi : i < 2) (hj : j < 16) : Assigned s (s.assignSpare i j) i j := by
  obtain ⟨hused, hothers⟩ := s.mapSpare_laneBit hi j
  obtain ⟨hmaps, hotherMaps⟩ := s.mapSpare_maps hi hj
  rw [s.assignSpare_eq hi]
  refine ⟨hused, hothers, hmaps, hotherMaps, fun x hx => ?_, fun a ha => List.mem_of_mem_filter ha, ?_⟩
  · exact State.setSlot_slot_other _ x j _ hx
  · exact (((s.mapSpare_keeps i j).mono (fun _ h => h) (by simp) (by simp)).withMt _ (by simp)).setSlot j _ (by simp)

end Sys2Proof.Machine

/-! A failed lane's slot passes to a spare or is uncovered (O16). -/
namespace Sys2Proof.Machine

-- A dovetail of a lane (R167, R179)

/-- LAST_DOVETAIL as a lane's dovetail records it, before its event. -/
def State.noteLaneDovetail (s : State) (unit : Nat) : State :=
  let s := s.incSat F.MTR_DOVETAIL_CNT_LANE
  let s := (((s.put F.MTR_LAST_DOVETAIL_KIND 1).put F.MTR_LAST_DOVETAIL_UNIT unit).put F.MTR_LAST_DOVETAIL_PAUSE 0).put F.MTR_LAST_DOVETAIL_BRIDGED 0
  s.put F.MTR_LAST_DOVETAIL_CYC (s.get F.DEC_CYCLE_CNT)

theorem State.laneDovetail_eq (s : State) (i j unit : Nat) :
    s.laneDovetail i j unit = ((s.assignSpare i j).noteLaneDovetail unit).event 0x12 2 unit := rfl

/-- The registers of a dovetail's record. -/
abbrev dovetailRegs (a : Nat) : Prop :=
  among [F.MTR_DOVETAIL_CNT_LANE.addr, F.MTR_LAST_DOVETAIL_KIND.addr, F.MTR_LAST_DOVETAIL_CYC.addr] a

theorem State.noteLaneDovetail_keeps (s : State) (unit : Nat) : Keeps s (s.noteLaneDovetail unit) dovetailRegs [] [] :=
  ((((((Keeps.refl s dovetailRegs [] []).incSat F.MTR_DOVETAIL_CNT_LANE (by decide)).put F.MTR_LAST_DOVETAIL_KIND 1 (by decide)).put
    F.MTR_LAST_DOVETAIL_UNIT unit (by decide)).put F.MTR_LAST_DOVETAIL_PAUSE 0 (by decide)).put F.MTR_LAST_DOVETAIL_BRIDGED 0 (by decide)).put
    F.MTR_LAST_DOVETAIL_CYC _ (by decide)

theorem State.noteLaneDovetail_spec (s : State) (unit : Nat) :
    (s.noteLaneDovetail unit).get F.MTR_DOVETAIL_CNT_LANE = satInc 65535 (s.get F.MTR_DOVETAIL_CNT_LANE)
      ∧ (s.noteLaneDovetail unit).get F.MTR_LAST_DOVETAIL_KIND = 1 ∧ (s.noteLaneDovetail unit).get F.MTR_LAST_DOVETAIL_UNIT = unit % 256 := by
  simp only [State.noteLaneDovetail]
  refine ⟨?_, ?_, ?_⟩
  · rw [State.put_get_other _ _ _ _ (by decide), State.put_get_other _ _ _ _ (by decide), State.put_get_other _ _ _ _ (by decide),
      State.put_get_other _ _ _ _ (by decide), State.put_get_other _ _ _ _ (by decide), State.incSat_get_same _ _ (by decide)]
    rfl
  · rw [State.put_get_other _ _ _ _ (by decide), State.put_get_apart _ _ _ _ (by decide) (by decide),
      State.put_get_apart _ _ _ _ (by decide) (by decide), State.put_get_apart _ _ _ _ (by decide) (by decide),
      State.put_get_same _ _ _ (by decide)]
    rfl
  · rw [State.put_get_other _ _ _ _ (by decide), State.put_get_apart _ _ _ _ (by decide) (by decide),
      State.put_get_apart _ _ _ _ (by decide) (by decide), State.put_get_same _ _ _ (by decide)]
    rfl

-- A slot's epoch (R167)

theorem laneEpochF_apart (j : Nat) {l : List Nat} (h : ∀ a ∈ l, a < 0x12140) : (laneEpochF j).addr ∉ l := fun hmem => by
  have := h _ hmem
  simp only [laneEpochF, A.MTR_LANE_EPOCH] at this
  omega

theorem State.inc_epoch_keeps (s : State) (j : Nat) : Keeps s (s.inc (laneEpochF j)) (fun a => a = A.MTR_LANE_EPOCH j) [] [] :=
  (Keeps.refl s (fun a => a = A.MTR_LANE_EPOCH j) [] []).inc (laneEpochF j) rfl

/-- Slot j passed to spare 16 + i: its epoch, the spare's flags and map, the dovetail's record and event; and what stays as it was. -/
structure SparePassed (s t : State) (i j unit : Nat) : Prop where
  epoch : t.get (laneEpochF j) = (s.get (laneEpochF j) + 1) % 2 ^ 32
  used : t.laneBit (18 + i) = true
  others : ∀ b, b ≠ 18 + i → b ≠ 20 + i → t.laneBit b = s.laneBit b
  maps : ∀ x, t.maps i x = (j == x)
  otherMaps : ∀ k < 2, k ≠ i → ∀ x, t.maps k x = s.maps k x
  count : t.get F.MTR_DOVETAIL_CNT_LANE = satInc 65535 (s.get F.MTR_DOVETAIL_CNT_LANE)
  kind : t.get F.MTR_LAST_DOVETAIL_KIND = 1
  unitShown : t.get F.MTR_LAST_DOVETAIL_UNIT = unit % 256
  pend : t.get (hdrPend 0x12 2) = 1
  pends : ∀ b, b ≠ 2 → t.get (hdrPend 0x12 b) = s.get (hdrPend 0x12 b)
  slot : ∀ x, x ≠ j → t.slot x = s.slot x
  audits : ∀ a ∈ t.mt.audits, a ∈ s.mt.audits
  keeps : Keeps s t (onPages [0x12]) [2] [.mt]

theorem State.passSlot_spare (s : State) {i j : Nat} (hi : i < 2) (hj : j < 16) (unit : Nat) :
    SparePassed s (s.passSlot j unit (some i)) i j unit := by
  let u := s.inc (laneEpochF j)
  let v := u.assignSpare i j
  let w := v.noteLaneDovetail unit
  have hnum : A.MTR_LANE_EPOCH j = 0x12140 + 4 * j := rfl
  have heq : s.passSlot j unit (some i) = w.event 0x12 2 unit := u.laneDovetail_eq i j unit
  have hu : Keeps s u (fun a => a = A.MTR_LANE_EPOCH j) [] [] := s.inc_epoch_keeps j
  obtain ⟨hused, hothers, hmaps, hotherMaps, hslot, haudits, hv⟩ := u.assignSpare_assigned hi hj
  have hw : Keeps v w dovetailRegs [] [] := v.noteLaneDovetail_keeps unit
  have ht : Keeps w (w.event 0x12 2 unit) (eventRegs 0x12 2) [2] [] := w.event_keeps 0x12 2 unit
  obtain ⟨hcount, hkind, hunit⟩ := v.noteLaneDovetail_spec unit
  have hbit (b : Nat) : (w.event 0x12 2 unit).laneBit b = v.laneBit b := (ht.laneBit (by decide) b).trans (hw.laneBit (by decide) b)
  have hmap (k x : Nat) : (w.event 0x12 2 unit).maps k x = v.maps k x := (ht.maps (by decide) k x).trans (hw.maps (by decide) k x)
  have hstat : ¬ A.MTR_LANE_STAT = A.MTR_LANE_EPOCH j := by rw [hnum, A.MTR_LANE_STAT]; omega
  have hlmap : ¬ A.MTR_LANE_MAP = A.MTR_LANE_EPOCH j := by rw [hnum, A.MTR_LANE_MAP]; omega
  have hpending : ¬ 0x12018 = A.MTR_LANE_EPOCH j := by rw [hnum]; omega
  have hmt : (w.event 0x12 2 unit).mt = v.mt := (State.event_mt _ _ _ _).trans (hw.parts .mt (by decide))
  rw [heq]
  refine ⟨?_, (hbit _).trans hused, fun b h18 h20 => ?_, fun x => (hmap i x).trans (hmaps x), fun k hk hne x => ?_, ?_, ?_, ?_,
    w.event_pend 0x12 2 unit (by decide) (by decide), fun b hb => ?_, fun x hx => ?_, fun a ha => haudits a (hmt ▸ ha), ?_⟩
  · rw [ht.get (laneEpochF j) ?_, hw.get (laneEpochF j) (laneEpochF_apart j (by decide)), hv.get (laneEpochF j) ?_]
    · exact s.inc_get_same _ (show 0 + 32 ≤ 32 by decide)
    · simp only [laneEpochF, hnum, A.MTR_LANE_STAT, A.MTR_LANE_MAP]; omega
    · simp only [laneEpochF, hnum, eventRegs, irqRegs, lostRegs]; omega
  · rw [hbit, hothers b h18 h20, hu.laneBit hstat]
  · rw [hmap, hotherMaps k hk hne, hu.maps hlmap]
  · rw [ht.get F.MTR_DOVETAIL_CNT_LANE (by decide), hcount, hv.get F.MTR_DOVETAIL_CNT_LANE (by decide), hu.get F.MTR_DOVETAIL_CNT_LANE ?_]
    show ¬ 0x1210C = 0x12140 + 4 * j
    omega
  · rw [ht.get F.MTR_LAST_DOVETAIL_KIND (by decide), hkind]
  · rw [ht.get F.MTR_LAST_DOVETAIL_UNIT (by decide), hunit]
  · rw [w.event_pend_apart 0x12 2 b unit (by decide) hb (by decide), hw.mtrPend (by decide), hv.mtrPend (by decide), hu.mtrPend hpending]
  · rw [State.slot_congr hmt, hslot x hx]
    rfl
  · have hepoch (a : Nat) (ha : a = A.MTR_LANE_EPOCH j) : onPages [0x12] a := .inl (by simp only [ha, hnum, List.mem_singleton]; omega)
    have hlane (a : Nat) (ha : a = A.MTR_LANE_STAT ∨ a = A.MTR_LANE_MAP) : onPages [0x12] a :=
      .inl (by rcases ha with rfl | rfl <;> decide)
    have hdovetail (a : Nat) (ha : dovetailRegs a) : onPages [0x12] a :=
      .inl ((by decide : ∀ a ∈ [F.MTR_DOVETAIL_CNT_LANE.addr, F.MTR_LAST_DOVETAIL_KIND.addr, F.MTR_LAST_DOVETAIL_CYC.addr], a / 4096 ∈ [0x12]) a ha)
    exact (((hu.mono hepoch (by simp) (by simp)).trans (hv.mono hlane (by simp) (by simp))).trans (hw.mono hdovetail (by simp) (by simp))).trans
      (ht.mono (eventRegs_onPages 0x12 2 _ (by decide) (by simp)) (fun _ h => h) (by simp))

-- An uncovered slot (R176, R593, R596)

/-- An outlet's first uncovered slot of a run is logged; the FAULT frame names the entry. -/
def State.noteGap (s : State) (j unit : Nat) : State :=
  if s.enabled (0x20 + j) && !(s.meter j).uncoveredLogged then
    let s := s.setMeter j { s.meter j with uncoveredLogged := true }
    let s := s.log 0x0003 j (le 4 3 ++ le 4 (s.get F.DEC_CYCLE_CNT))
    s.faultFrame 0x02 true 0 unit s.lastLog
  else s.faultFrame 0x02 true 0 unit noLog

/-- What is told of an uncovered slot after its event. -/
def State.tellUncovered (s : State) (j unit : Nat) : State :=
  if j < 12 then (s.put (F.MTRK_QSTAT_VALID j) 0).noteGap j unit else s.faultFrame 0x02 true 0 unit noLog

/-- Slot j stops: its results are dropped. -/
def State.stopSlot (s : State) (j : Nat) : State := s.setSlot j { s.slot j with stopped := true, buf := [], handed := [] }

theorem State.uncoverSlot_eq (s : State) (j unit : Nat) : s.uncoverSlot j unit = ((s.stopSlot j).event 0x12 4 unit).tellUncovered j unit := rfl

theorem State.noteGap_keeps (s : State) (j unit : Nat) : Keeps s (s.noteGap j unit) (eventRegs 0x0A 4) [2, 38] [.mt, .legal] := by
  have hrefl := Keeps.refl s (eventRegs 0x0A 4) [2, 38] [.mt, .legal]
  have hlogged := (hrefl.setMeter j { s.meter j with uncoveredLogged := true } (by simp)).log 0x0003 j (le 4 3 ++ le 4 (s.get F.DEC_CYCLE_CNT))
    (by simp) (by simp) (by simp) fun _ h => h
  exact Keeps.ite (hlogged.faultFrame _ _ _ _ _ (by simp) fun _ h => .inr h) (hrefl.faultFrame _ _ _ _ _ (by simp) fun _ h => .inr h)

theorem State.noteGap_mt (s : State) (j unit : Nat) : ∃ l, (s.noteGap j unit).mt = { s.mt with meters := l } := by
  unfold State.noteGap
  split
  · exact ⟨_, (State.faultFrame_part _ _ _ _ _ _ .mt).trans (State.log_mt _ _ _ _)⟩
  · exact ⟨_, State.faultFrame_part _ _ _ _ _ _ .mt⟩

/-- The registers that tell of an uncovered slot: an outlet's QSTAT, the log's event and a lost marker. -/
abbrev gapRegs (j a : Nat) : Prop := (j < 12 ∧ a = A.MTRK_QSTAT j) ∨ eventRegs 0x0A 4 a

theorem State.tellUncovered_keeps (s : State) (j unit : Nat) : Keeps s (s.tellUncovered j unit) (gapRegs j) [2, 38] [.mt, .legal] := by
  unfold State.tellUncovered
  split
  next hj =>
    have hput := (Keeps.refl s (gapRegs j) [2, 38] [.mt, .legal]).put (F.MTRK_QSTAT_VALID j) 0 (.inl ⟨hj, rfl⟩)
    exact hput.trans ((State.noteGap_keeps _ j unit).mono (fun _ ha => .inr ha) (fun _ h => h) fun _ h => h)
  · exact (Keeps.refl s _ _ _).faultFrame _ _ _ _ _ (by simp) fun _ h => .inr (.inr h)

theorem State.tellUncovered_mt (s : State) (j unit : Nat) : ∃ l, (s.tellUncovered j unit).mt = { s.mt with meters := l } := by
  unfold State.tellUncovered
  split
  · exact State.noteGap_mt _ j unit
  · exact ⟨_, State.faultFrame_part _ _ _ _ _ _ .mt⟩

theorem State.tellUncovered_invalid (s : State) {j : Nat} (unit : Nat) (hj : j < 12) : (s.tellUncovered j unit).on (F.MTRK_QSTAT_VALID j) = false := by
  have happart : ¬ eventRegs 0x0A 4 (F.MTRK_QSTAT_VALID j).addr := by
    simp only [eventRegs, irqRegs, lostRegs, F.MTRK_QSTAT_VALID]
    omega
  rw [State.tellUncovered, if_pos hj, (State.noteGap_keeps _ j unit).on (F.MTRK_QSTAT_VALID j) happart]
  exact s.put_on_bool (F.MTRK_QSTAT_VALID j) false rfl (show 0 + 1 ≤ 32 by decide)

/-- A slot no spare covers: it stops, the events and the outlet's QSTAT; and what stays as it was. -/
structure Uncovered (s t : State) (j : Nat) : Prop where
  stopped : (t.slot j).stopped = true
  empty : (t.slot j).buf = []
  invalid : j < 12 → t.on (F.MTRK_QSTAT_VALID j) = false
  pend : t.get (hdrPend 0x12 4) = 1
  pends : ∀ b, b ≠ 4 → t.get (hdrPend 0x12 b) = s.get (hdrPend 0x12 b)
  slot : ∀ x, x ≠ j → t.slot x = s.slot x
  audits : t.mt.audits = s.mt.audits
  keeps : Keeps s t (fun a => eventRegs 0x12 4 a ∨ gapRegs j a) [2, 38] [.mt, .legal]

theorem State.uncoverSlot_uncovered (s : State) (j unit : Nat) : Uncovered s (s.uncoverSlot j unit) j := by
  let u := s.stopSlot j
  let v := u.event 0x12 4 unit
  have hu : Keeps s u (among []) [] [.mt] := (Keeps.refl s _ _ _).setSlot j _ (by simp)
  have hv : Keeps u v (eventRegs 0x12 4) [2] [] := u.event_keeps 0x12 4 unit
  have ht : Keeps v (v.tellUncovered j unit) (gapRegs j) [2, 38] [.mt, .legal] := v.tellUncovered_keeps j unit
  obtain ⟨l, hl⟩ := v.tellUncovered_mt j unit
  have hmt : (v.tellUncovered j unit).mt = { u.mt with meters := l } := by rw [hl, State.event_mt]
  have hslot (x : Nat) : (v.tellUncovered j unit).slot x = u.slot x := by rw [State.slot, hmt, State.slot]
  have hstop : u.slot j = { s.slot j with stopped := true, buf := [], handed := [] } := State.setSlot_slot_same _ _ _
  have hpending : ¬ gapRegs j 0x12018 := by
    simp only [gapRegs, eventRegs, irqRegs, lostRegs, A.MTRK_QSTAT]
    omega
  rw [s.uncoverSlot_eq]
  refine ⟨?_, ?_, fun hj => v.tellUncovered_invalid unit hj, ?_, fun b hb => ?_, fun x hx => ?_, ?_, ?_⟩
  · rw [hslot, hstop]
  · rw [hslot, hstop]
  · rw [ht.mtrPend hpending]
    exact u.event_pend 0x12 4 unit (by decide) (by decide)
  · rw [ht.mtrPend hpending, u.event_pend_apart 0x12 4 b unit (by decide) hb (by decide), hu.mtrPend (by simp)]
  · exact (hslot x).trans (State.setSlot_slot_other _ _ _ _ hx)
  · rw [hmt]
    rfl
  · exact ((hu.mono (fun _ ha => absurd ha List.not_mem_nil) (by simp) (by simp)).trans
      (hv.mono (fun _ ha => .inl ha) (by simp) (by simp))).trans (ht.mono (fun _ ha => .inr ha) (fun _ h => h) fun _ h => h)

theorem uncovered_apart {j a : Nat} (h1 : 0x12100 ≤ a) (h2 : a < 0x13000) : ¬ (eventRegs 0x12 4 a ∨ gapRegs j a) := by
  simp only [gapRegs, eventRegs, irqRegs, lostRegs, A.MTRK_QSTAT]
  omega

/-- The registers an uncovered slot touches lie on the pages of SEA, MTR and its outlet. -/
theorem uncovered_onPages {j : Nat} {l : List Nat} (h0A : 0x0A ∈ l) (h12 : 0x12 ∈ l) (hj : j < 12 → 0x20 + j ∈ l) (a : Nat)
    (ha : eventRegs 0x12 4 a ∨ gapRegs j a) : onPages l a := by
  rcases ha with ha | ⟨hlt, rfl⟩ | ha
  · exact eventRegs_onPages 0x12 4 l (by decide) h12 a ha
  · refine .inl ?_
    have hpage : A.MTRK_QSTAT j / 4096 = 0x20 + j := by
      simp only [A.MTRK_QSTAT]
      omega
    exact hpage ▸ hj hlt
  · exact eventRegs_onPages 0x0A 4 l (by decide) h0A a ha

-- A lane fails (R165, R167)

theorem State.failLane_carried (s : State) {lane j : Nat} (h : s.slotOf lane = some j) :
    s.failLane lane = (s.markLane lane).passSlot j lane (s.markLane lane).freeLane := by rw [State.failLane, h]

theorem State.failLane_idle (s : State) {lane : Nat} (h : s.slotOf lane = none) :
    s.failLane lane = if lane < 16 then s else if s.on (spareLaneFailF (lane - 16)) then s else s.markLane lane := by rw [State.failLane, h]

/-- A lane out of service leaves the choice of a free spare as it was, unless it was that spare. -/
theorem Marked.freeLane {s t : State} {lane : Nat} (h : Marked s t lane) (hne : s.freeLane ≠ some (lane - 16) ∨ lane < 16) :
    t.freeLane = s.freeLane := by
  refine State.freeLane_congr fun i hi => ?_
  by_cases heq : lane = 16 + i
  · subst heq
    refine .inr ⟨by simp [State.laneFree, h.fail], ?_⟩
    rcases hne with hne | hlt
    · simpa using hne
    · omega
  · have hused : (lane != 16 + i) = true := bne_iff_ne.mpr heq
    exact .inl (by rw [State.laneFree, h.others (16 + i) (by omega) (Ne.symm heq), h.used i hi, hused, Bool.and_true, State.laneFree])

theorem State.carrier_of_maps (s : State) {i j : Nat} (hi : i < 2) (h : s.maps i j = true) (h0 : i = 1 → s.maps 0 j = false) :
    s.carrier j = some (16 + i) := by
  obtain rfl | rfl : i = 0 ∨ i = 1 := by omega
  · rw [State.carrier_eq, if_pos h]
  · rw [State.carrier_eq, h0 rfl, if_neg Bool.false_ne_true, if_pos h]

/-- The registers of a lane out of service are on MTR's page. -/
theorem laneRegs_onPages {lane : Nat} {l : List Nat} (h : 0x12 ∈ l) (a : Nat)
    (ha : a = A.MTR_LANE_STAT ∨ a = A.MTR_LANE_MAP ∨ eventRegs 0x12 (laneIrq lane) a) : onPages l a := by
  rcases ha with rfl | rfl | ha
  · exact .inl h
  · exact .inl h
  · refine eventRegs_onPages 0x12 (laneIrq lane) l ?_ h a ha
    unfold laneIrq
    split <;> decide

theorem laneIrq_cases (lane : Nat) : laneIrq lane = 0 ∨ laneIrq lane = 1 := by
  unfold laneIrq
  split
  · exact .inl rfl
  · exact .inr rfl

theorem laneEpoch_ne_lane (lane j : Nat) :
    ¬ ((laneEpochF j).addr = A.MTR_LANE_STAT ∨ (laneEpochF j).addr = A.MTR_LANE_MAP ∨ eventRegs 0x12 (laneIrq lane) (laneEpochF j).addr) := by
  rcases laneIrq_cases lane with h | h <;>
    simp only [h, laneEpochF, A.MTR_LANE_EPOCH, A.MTR_LANE_STAT, A.MTR_LANE_MAP, eventRegs, irqRegs, lostRegs] <;> omega

theorem exec_laneFault (s : State) (lane : Fin 18) (h : s.runs = true) : exec (.laneFault lane) s = done (s.failLane lane) := by
  show execLaneFault lane s = _
  exact s.onFabric_runs _ h

theorem State.failLane_covered (s : State) {lane i j : Nat} (hlane : lane < 18) (hslot : s.slotOf lane = some j) (hfree : s.freeLane = some i)
    (hne : 16 + i ≠ lane) :
    let t := s.failLane lane
    SparePassed (s.markLane lane) t i j lane ∧ Marked s (s.markLane lane) lane ∧ t.carrier j = some (16 + i) := by
  obtain ⟨hj, hcarrier⟩ := s.slotOf_eq_some hslot
  obtain ⟨hi, -, -⟩ := s.freeLane_eq_some hfree
  have hmarked := s.markLane_marked hlane
  have hstill : (s.markLane lane).freeLane = some i := by
    rw [hmarked.freeLane ?_, hfree]
    by_cases hlt : lane < 16
    · exact .inr hlt
    · exact .inl (by rw [hfree]; simp only [ne_eq, Option.some.injEq]; omega)
  have heq : s.failLane lane = (s.markLane lane).passSlot j lane (some i) := by rw [s.failLane_carried hslot, hstill]
  have hpassed := (s.markLane lane).passSlot_spare hi hj lane
  rw [heq]
  refine ⟨hpassed, hmarked, State.carrier_of_maps _ hi ((hpassed.maps j).trans (beq_self_eq_true j)) fun h1 => ?_⟩
  rw [hpassed.otherMaps 0 (by decide) (by omega), hmarked.maps 0 (by decide)]
  cases h0 : s.maps 0 j
  · rfl
  · have h16 : lane = 16 := by
      rw [State.carrier_eq, if_pos h0] at hcarrier
      exact (Option.some.inj hcarrier).symm
    simp [h16]

end Sys2Proof.Machine

/-! Lane faults, deadlines, ECC errors and audits (O16). -/
namespace Sys2Proof.Machine

@[simp] theorem State.setSlot_get (s : State) (j : Nat) (x : Slot) (f : Fld) : (s.setSlot j x).get f = s.get f := rfl
theorem State.withMt_get (s : State) (x : Metro) (f : Fld) : ({ s with mt := x } : State).get f = s.get f := rfl
@[simp] theorem State.settle_carrier (s : State) (j : Nat) : s.settle.carrier j = s.carrier j := rfl

-- Lane faults (R165, R167, R176)

theorem exec_laneFault_covered (s : State) (lane : Fin 18) (i j : Nat) (h : s.runs = true) (hslot : s.slotOf lane = some j)
    (hfree : s.freeLane = some i) (hne : 16 + i ≠ lane.val) :
    Ends (exec (.laneFault lane) s) fun t =>
      t.on (bitFld A.MTR_LANE_STAT lane) = true ∧ t.get (laneEpochF j) = (s.get (laneEpochF j) + 1) % 2 ^ 32 ∧ t.carrier j = some (16 + i)
      ∧ t.get F.MTR_DOVETAIL_CNT_LANE = satInc 65535 (s.get F.MTR_DOVETAIL_CNT_LANE) ∧ t.get F.MTR_LAST_DOVETAIL_KIND = 1
      ∧ t.get F.MTR_LAST_DOVETAIL_UNIT = lane ∧ t.get (hdrPend 0x12 (if lane.val < 16 then 0 else 1)) = 1 ∧ t.get (hdrPend 0x12 2) = 1
      ∧ (∀ x, x ≠ j → t.slot x = s.slot x) ∧ Keeps s t (onPages [0x12]) [2] [.mt] := by
  have hlane := lane.isLt
  obtain ⟨hi, -, -⟩ := s.freeLane_eq_some hfree
  obtain ⟨hpassed, hmarked, hcarrier⟩ := s.failLane_covered hlane hslot hfree hne
  have hirq : laneIrq lane ≠ 2 := by rcases laneIrq_cases lane with h | h <;> rw [h] <;> decide
  refine ⟨_, exec_laneFault s lane h, (hpassed.others lane (by omega) (by omega)).trans hmarked.fail, ?_, hcarrier, ?_, hpassed.kind, ?_,
    (hpassed.pends _ hirq).trans hmarked.pend, hpassed.pend, fun x hx => (hpassed.slot x hx).trans (hmarked.slot x), ?_⟩
  · exact hpassed.epoch.trans (congrArg (fun n => (n + 1) % 2 ^ 32) (hmarked.keeps.get (laneEpochF j) (laneEpoch_ne_lane lane j)))
  · refine hpassed.count.trans (congrArg (satInc 65535) (hmarked.keeps.get F.MTR_DOVETAIL_CNT_LANE ?_))
    rcases laneIrq_cases lane with h | h <;> rw [h] <;> decide
  · exact hpassed.unitShown.trans (Nat.mod_eq_of_lt (by omega))
  · exact ((hmarked.keeps.mono (laneRegs_onPages (by simp)) (fun _ h => h) fun _ h => h).trans hpassed.keeps).settle

theorem exec_laneFault_uncovered (s : State) (lane : Fin 18) (j : Nat) (h : s.runs = true) (hslot : s.slotOf lane = some j)
    (hfree : s.freeLane = none) :
    Ends (exec (.laneFault lane) s) fun t =>
      t.on (bitFld A.MTR_LANE_STAT lane) = true ∧ t.get (laneEpochF j) = (s.get (laneEpochF j) + 1) % 2 ^ 32 ∧ (t.slot j).stopped = true
      ∧ (t.slot j).buf = [] ∧ t.get (hdrPend 0x12 (if lane.val < 16 then 0 else 1)) = 1 ∧ t.get (hdrPend 0x12 4) = 1
      ∧ (j < 12 → t.on (F.MTRK_QSTAT_VALID j) = false)
      ∧ (∀ x, x ≠ j → t.slot x = s.slot x) ∧ Keeps s t (onPages [0x0A, 0x12, 0x20 + j]) [2, 38] [.mt, .legal] := by
  let u := s.markLane lane
  let v := u.inc (laneEpochF j)
  have hmarked : Marked s u lane := s.markLane_marked lane.isLt
  obtain ⟨hj, -⟩ := s.slotOf_eq_some hslot
  have hepoch : A.MTR_LANE_EPOCH j = 0x12140 + 4 * j := rfl
  have hv : Keeps u v (fun a => a = A.MTR_LANE_EPOCH j) [] [] := u.inc_epoch_keeps j
  obtain ⟨hstopped, hempty, hinvalid, hpend, hpends, hothers, -, ht⟩ := v.uncoverSlot_uncovered j lane
  have heq : s.failLane lane = v.uncoverSlot j lane := by
    rw [s.failLane_carried hslot, hmarked.freeLane (.inl (by simp [hfree])), hfree]
    rfl
  have hexec := exec_laneFault s lane h
  rw [heq] at hexec
  have hirq : laneIrq lane ≠ 4 := by rcases laneIrq_cases lane with h | h <;> rw [h] <;> decide
  refine ⟨_, hexec, ?_, ?_, hstopped, hempty, ?_, hpend, hinvalid, fun x hx => (hothers x hx).trans (hmarked.slot x), Keeps.settle ?_⟩
  · refine (ht.laneBit (uncovered_apart (by decide) (by decide)) lane).trans ((hv.laneBit ?_ lane).trans hmarked.fail)
    rw [hepoch, A.MTR_LANE_STAT]
    omega
  · refine (ht.get (laneEpochF j) (uncovered_apart ?_ ?_)).trans ((u.inc_get_same _ (show 0 + 32 ≤ 32 by decide)).trans
      (congrArg (fun n => (n + 1) % 2 ^ 32) (hmarked.keeps.get (laneEpochF j) (laneEpoch_ne_lane lane j)))) <;>
      simp only [laneEpochF, hepoch] <;> omega
  · refine (hpends _ hirq).trans ((hv.mtrPend ?_ _).trans hmarked.pend)
    rw [hepoch]
    omega
  · have hpage (a : Nat) (ha : a = A.MTR_LANE_EPOCH j) : onPages [0x0A, 0x12, 0x20 + j] a :=
      .inl (by simp only [ha, hepoch, List.mem_cons]; omega)
    exact ((hmarked.keeps.mono (laneRegs_onPages (by simp)) (by simp) (by simp)).trans (hv.mono hpage (by simp) (by simp))).trans
      (ht.mono (uncovered_onPages (by simp) (by simp) (by simp)) (fun _ h => h) fun _ h => h)

theorem exec_laneFault_own_idle (s : State) (lane : Fin 18) (h : s.runs = true) (hlane : lane.val < 16) (hslot : s.slotOf lane = none) :
    Ends (exec (.laneFault lane) s) fun t => Keeps s t (among []) [] [] := by
  have hexec := exec_laneFault s lane h
  rw [s.failLane_idle hslot, if_pos hlane] at hexec
  exact ⟨_, hexec, (Keeps.refl s _ _ _).settle⟩

theorem exec_laneFault_spare_idle (s : State) (lane : Fin 18) (h : s.runs = true) (hlane : 16 ≤ lane.val) (hslot : s.slotOf lane = none)
    (hgood : s.on (spareLaneFailF (lane - 16)) = false) :
    Ends (exec (.laneFault lane) s) fun t =>
      t.on (spareLaneFailF (lane - 16)) = true ∧ t.on (spareLaneUsedF (lane - 16)) = false ∧ t.get (hdrPend 0x12 1) = 1
      ∧ (∀ x, t.slot x = s.slot x) ∧ Keeps s t (fun a => a = A.MTR_LANE_STAT ∨ a = A.MTR_LANE_MAP ∨ eventRegs 0x12 1 a) [2] [.mt] := by
  have hlt := lane.isLt
  have hmarked : Marked s (s.markLane lane) lane := s.markLane_marked hlt
  have hexec := exec_laneFault s lane h
  rw [s.failLane_idle hslot, if_neg (by omega), hgood, if_neg Bool.false_ne_true] at hexec
  have hspare : lane.val = 16 + (lane.val - 16) := by omega
  have hirq : laneIrq lane = 1 := if_neg (by omega)
  obtain ⟨hfail, -, hused, -, hpend, -, hslots, -, hkeeps⟩ := hmarked
  rw [hirq] at hpend hkeeps
  refine ⟨_, hexec, ?_, ?_, hpend, hslots, hkeeps.settle⟩
  · rw [State.settle_on, State.laneBit_fail, ← hspare]
    exact hfail
  · rw [State.settle_on, State.laneBit_used, hused _ (by omega), ← hspare]
    simp

-- Deadlines (R144)

theorem exec_batchDeadline_missed (s : State) (slot : Fin 16) (lane : Fin 18) (h : s.runs = true) (hcarrier : s.carrier slot = some lane.val)
    (hbuf : (s.slot slot).buf ≠ []) : exec (.batchDeadline slot) s = exec (.laneFault lane) s := by
  rw [exec_laneFault s lane h]
  show execBatchDeadline slot s = _
  rw [execBatchDeadline, s.onFabric_runs _ h, hcarrier]
  exact if_neg hbuf

theorem exec_batchDeadline_covered (s : State) (slot : Fin 16) (i : Nat) (h : s.runs = true) (hcarrier : s.carrier slot = some slot.val)
    (hbuf : (s.slot slot).buf ≠ []) (hfree : s.freeLane = some i) :
    Ends (exec (.batchDeadline slot) s) fun t =>
      t.on (bitFld A.MTR_LANE_STAT slot) = true ∧ t.carrier slot = some (16 + i) ∧ t.get (hdrPend 0x12 2) = 1
      ∧ Keeps s t (onPages [0x12]) [2] [.mt] := by
  have hslot := slot.isLt
  let lane : Fin 18 := ⟨slot.val, by omega⟩
  obtain ⟨t, hexec, hfail, -, htaken, -, -, -, -, hpend, -, hkeeps⟩ :=
    exec_laneFault_covered s lane i slot h (s.slotOf_own hslot hcarrier) hfree (show 16 + i ≠ slot.val by omega)
  exact ⟨t, (exec_batchDeadline_missed s slot lane h hcarrier hbuf).trans hexec, hfail, htaken, hpend, hkeeps⟩

theorem exec_batchDeadline_met (s : State) (slot : Fin 16) (h : s.runs = true) (hbuf : (s.slot slot).buf = []) :
    Ends (exec (.batchDeadline slot) s) fun t => Keeps s t (among []) [] [] := by
  have hexec : exec (.batchDeadline slot) s = done s := by
    show execBatchDeadline slot s = _
    rw [execBatchDeadline, s.onFabric_runs _ h]
    split
    · exact if_pos hbuf
    · rfl
  exact ⟨_, hexec, (Keeps.refl s _ _ _).settle⟩

-- Single errors (R141)

theorem exec_eccSingleError_counted (s : State) (lane : Fin 18) (h : s.runs = true) :
    Ends (exec (.eccSingleError lane) s) fun t =>
      t.mt = { s.mt with eccSingle := spWrite (fun _ => 0) s.mt.eccSingle lane.val (spRead (fun _ => 0) s.mt.eccSingle lane.val + 1) }
      ∧ Keeps s t (among []) [] [.mt] :=
  ⟨_, show execEccSingleError lane s = _ from s.onFabric_runs _ h, rfl, ((Keeps.refl s _ _ _).withMt _ (by simp)).settle⟩

-- Audits (R166)

/-- An audit that has ended is no longer in progress. -/
theorem not_mem_filter_ne (l : List Audit) (a : Audit) : a ∉ l.filter (· != a) := by simp [List.mem_filter]

theorem exec_auditCompare_same (s : State) (i : Fin 2) (a : Audit) (h : s.runs = true)
    (hfind : s.mt.audits.find? (fun x => x.spare == i.val && !x.testing) = some a) :
    Ends (exec (.auditCompare i true) s) fun t =>
      a ∉ t.mt.audits ∧ t.on (auditingF i) = false ∧ t.get F.MTR_AUDIT_CNT_AUDITS = satInc 65535 (s.get F.MTR_AUDIT_CNT_AUDITS)
      ∧ Keeps s t (among [F.MTR_AUDIT_CNT_AUDITS.addr, A.MTR_LANE_STAT]) [] [.mt] := by
  let u := s.incSat F.MTR_AUDIT_CNT_AUDITS
  let v : State := { u with mt := { u.mt with audits := u.mt.audits.filter (· != a) } }
  have hi := i.isLt
  have hexec : exec (.auditCompare i true) s = done (v.put (auditingF i) 0) := by
    show execAuditCompare i true s = _
    rw [execAuditCompare, s.onFabric_runs _ h]
    dsimp only
    rw [hfind]
    rfl
  refine ⟨_, hexec, not_mem_filter_ne _ a, v.put_bit_zero A.MTR_LANE_STAT (by omega), ?_, Keeps.settle ?_⟩
  · exact (State.put_get_other v (auditingF i) F.MTR_AUDIT_CNT_AUDITS 0 (by show 0x1211C ≠ 0x12104; decide)).trans
      (s.incSat_get_same F.MTR_AUDIT_CNT_AUDITS (by decide))
  · exact (((Keeps.refl s _ _ _).incSat F.MTR_AUDIT_CNT_AUDITS (by simp)).withMt _ (by simp)).put (auditingF i) 0 (by simp [auditingF])

theorem exec_auditCompare_differs (s : State) (i : Fin 2) (a : Audit) (h : s.runs = true)
    (hfind : s.mt.audits.find? (fun x => x.spare == i.val && !x.testing) = some a) :
    Ends (exec (.auditCompare i false) s) fun t =>
      t.mt.audits = (s.mt.audits.map fun x => if x = a then { x with testing := true } else x)
      ∧ t.get F.MTR_AUDIT_CNT_AUDITS = satInc 65535 (s.get F.MTR_AUDIT_CNT_AUDITS)
      ∧ t.get F.MTR_AUDIT_CNT_MISMATCH = satInc 255 (s.get F.MTR_AUDIT_CNT_MISMATCH) ∧ t.get (hdrPend 0x12 3) = 1
      ∧ Keeps s t (fun x => x = F.MTR_AUDIT_CNT_AUDITS.addr ∨ eventRegs 0x12 3 x) [2] [.mt] := by
  let u := s.incSat F.MTR_AUDIT_CNT_AUDITS
  let v := u.incSat F.MTR_AUDIT_CNT_MISMATCH
  let w : State := { v with mt := { v.mt with audits := v.mt.audits.map fun b => if b = a then { b with testing := true } else b } }
  have hexec : exec (.auditCompare i false) s = done (w.event 0x12 3 a.lane) := by
    show execAuditCompare i false s = _
    rw [execAuditCompare, s.onFabric_runs _ h]
    dsimp only
    rw [hfind]
    rfl
  have hget (f : Fld) (hf : ¬ eventRegs 0x12 3 f.addr) : (w.event 0x12 3 a.lane).get f = v.get f :=
    (w.event_get 0x12 3 a.lane f hf).trans (v.withMt_get _ f)
  refine ⟨_, hexec, ?_, ?_, ?_, ?_, Keeps.settle ?_⟩
  · rw [State.settle_mt, State.event_mt]
    rfl
  · rw [State.settle_get, hget _ (by decide), u.incSat_get_apart _ _ (by decide) (by decide)]
    exact s.incSat_get_same F.MTR_AUDIT_CNT_AUDITS (by decide)
  · rw [State.settle_get, hget _ (by decide), u.incSat_get_same F.MTR_AUDIT_CNT_MISMATCH (by decide), s.incSat_get_apart _ _ (by decide) (by decide)]
    rfl
  · exact w.event_pend 0x12 3 a.lane (by decide) (by decide)
  · exact ((((Keeps.refl s _ _ _).incSat F.MTR_AUDIT_CNT_AUDITS (.inl rfl)).incSat F.MTR_AUDIT_CNT_MISMATCH (.inl rfl)).withMt _
      (by simp)).eventWithin 0x12 3 a.lane (by simp) fun _ ha => .inr ha

-- The self-tests after a mismatch (R166)

/-- Spare 16 + i's audit ends. -/
def State.endAudit (s : State) (i : Nat) (a : Audit) : State :=
  { s with mt := { s.mt with audits := s.mt.audits.filter (· != a) } }.put (auditingF i) 0

/-- What the outcome of the self-tests does: both good, the lane, the spare, or both failed. -/
def State.judgeAudit (s : State) (i j : Nat) (laneOk auditorOk : Bool) : State :=
  match laneOk, auditorOk with
  | false, true => (s.markLane j).passSlot j j (some i)
  | true, false => s.markLane (16 + i)
  | true, true =>
    let s := (s.incSat F.MTR_AUDIT_CNT_TRANSIENT).inc (laneEpochF j)
    s.setSlot j { s.slot j with ctxEpoch := s.get (laneEpochF j) }
  | false, false =>
    let s := ((s.markLane (16 + i)).markLane j).faultFrame 0x0B true 0 j noLog
    s.passSlot j j s.freeLane

theorem exec_auditSelfTestDone (s : State) (i : Fin 2) (a : Audit) (laneOk auditorOk : Bool) (h : s.runs = true)
    (hfind : s.mt.audits.find? (fun x => x.spare == i.val && x.testing) = some a) :
    exec (.auditSelfTestDone i laneOk auditorOk) s = done ((s.endAudit i a).judgeAudit i a.lane laneOk auditorOk) := by
  show execAuditSelfTestDone i laneOk auditorOk s = _
  rw [execAuditSelfTestDone, s.onFabric_runs _ h]
  dsimp only
  rw [hfind]
  cases laneOk <;> cases auditorOk <;> rfl

theorem State.endAudit_keeps (s : State) (i : Nat) (a : Audit) : Keeps s (s.endAudit i a) (fun x => x = A.MTR_LANE_STAT) [] [.mt] :=
  ((Keeps.refl s (fun x => x = A.MTR_LANE_STAT) [] [.mt]).withMt _ (by simp)).put (auditingF i) 0 rfl

theorem State.endAudit_ended (s : State) (i : Nat) (a : Audit) : a ∉ (s.endAudit i a).mt.audits := not_mem_filter_ne _ a

theorem laneStat_onPages {l : List Nat} (h : 0x12 ∈ l) (a : Nat) (ha : a = A.MTR_LANE_STAT) : onPages l a := .inl (ha ▸ h)

theorem exec_auditSelfTestDone_lane (s : State) (i : Fin 2) (a : Audit) (h : s.runs = true)
    (hfind : s.mt.audits.find? (fun x => x.spare == i.val && x.testing) = some a) (hj : a.lane < 16) :
    Ends (exec (.auditSelfTestDone i false true) s) fun t =>
      a ∉ t.mt.audits ∧ t.on (bitFld A.MTR_LANE_STAT a.lane) = true ∧ t.on (spareLaneUsedF i) = true
      ∧ (t.carrier a.lane = some (16 + i.val) ∨ (i.val = 1 ∧ s.on F.MTR_LANE_MAP_S16_VALID = true ∧ s.get F.MTR_LANE_MAP_S16_SLOT = a.lane))
      ∧ t.get (laneEpochF a.lane) = (s.get (laneEpochF a.lane) + 1) % 2 ^ 32 ∧ Keeps s t (onPages [0x12]) [2] [.mt] := by
  let u := s.endAudit i a
  have hi := i.isLt
  have hu : Keeps s u (fun x => x = A.MTR_LANE_STAT) [] [.mt] := s.endAudit_keeps i a
  have hmarked : Marked u (u.markLane a.lane) a.lane := u.markLane_marked (by omega)
  let t := (u.markLane a.lane).passSlot a.lane a.lane (some i.val)
  have hpassed : SparePassed (u.markLane a.lane) t i a.lane a.lane := (u.markLane a.lane).passSlot_spare hi hj a.lane
  have hexec : exec (.auditSelfTestDone i false true) s = done t :=
    exec_auditSelfTestDone s i a false true h hfind
  clear_value t
  refine ⟨_, hexec, fun hmem => ?_, ?_, hpassed.used, ?_, ?_, Keeps.settle ?_⟩
  · exact s.endAudit_ended i a (hmarked.audits a (hpassed.audits a hmem))
  · rw [State.settle_on]
    exact (hpassed.others a.lane (by omega) (by omega)).trans hmarked.fail
  · by_cases hother : i.val = 1 ∧ s.maps 0 a.lane = true
    · obtain ⟨h1, hmaps⟩ := hother
      obtain ⟨hvalid, hslot⟩ := Bool.and_eq_true_iff.mp hmaps
      exact .inr ⟨h1, hvalid, eq_of_beq hslot⟩
    · refine .inl (State.carrier_of_maps t hi ((hpassed.maps a.lane).trans (beq_self_eq_true a.lane)) fun h1 => ?_)
      have hfree : s.maps 0 a.lane = false := by simpa using fun hmaps => hother ⟨h1, hmaps⟩
      rw [hpassed.otherMaps 0 (by decide) (by omega), hmarked.maps 0 (by decide), hu.maps (by decide), hfree, Bool.false_and]
  · refine hpassed.epoch.trans (congrArg (fun n => (n + 1) % 2 ^ 32) ?_)
    refine (hmarked.keeps.get (laneEpochF a.lane) (laneEpoch_ne_lane _ _)).trans (hu.get (laneEpochF a.lane) ?_)
    simp only [laneEpochF, A.MTR_LANE_EPOCH, A.MTR_LANE_STAT]
    omega
  · exact ((hu.mono (laneStat_onPages (by simp)) (by simp) (by simp)).trans
      (hmarked.keeps.mono (laneRegs_onPages (by simp)) (fun _ h => h) fun _ h => h)).trans hpassed.keeps

theorem exec_auditSelfTestDone_auditor (s : State) (i : Fin 2) (a : Audit) (h : s.runs = true)
    (hfind : s.mt.audits.find? (fun x => x.spare == i.val && x.testing) = some a) :
    Ends (exec (.auditSelfTestDone i true false) s) fun t =>
      a ∉ t.mt.audits ∧ t.on (spareLaneFailF i) = true ∧ t.get (hdrPend 0x12 1) = 1 ∧ (∀ j, t.slot j = s.slot j)
      ∧ Keeps s t (fun x => x = A.MTR_LANE_STAT ∨ x = A.MTR_LANE_MAP ∨ eventRegs 0x12 1 x) [2] [.mt] := by
  let u := s.endAudit i a
  have hi := i.isLt
  have hirq : laneIrq (16 + i.val) = 1 := if_neg (by omega)
  obtain ⟨hfail, -, -, -, hpend, -, hslot, haudits, hkeeps⟩ := u.markLane_marked_spare hi
  rw [hirq] at hpend hkeeps
  have hexec : exec (.auditSelfTestDone i true false) s = done (u.markLane (16 + i.val)) := exec_auditSelfTestDone s i a true false h hfind
  exact ⟨_, hexec, fun hmem => s.endAudit_ended i a (haudits a hmem), hfail, hpend, hslot,
    (((s.endAudit_keeps i a).mono (fun _ ha => .inl ha) (by simp) (by simp)).trans hkeeps).settle⟩

theorem exec_auditSelfTestDone_transient (s : State) (i : Fin 2) (a : Audit) (h : s.runs = true)
    (hfind : s.mt.audits.find? (fun x => x.spare == i.val && x.testing) = some a) (_ : a.lane < 16) :
    Ends (exec (.auditSelfTestDone i true true) s) fun t =>
      a ∉ t.mt.audits ∧ t.get F.MTR_AUDIT_CNT_TRANSIENT = satInc 255 (s.get F.MTR_AUDIT_CNT_TRANSIENT)
      ∧ t.get (laneEpochF a.lane) = (s.get (laneEpochF a.lane) + 1) % 2 ^ 32 ∧ (t.slot a.lane).ctxEpoch = t.get (laneEpochF a.lane)
      ∧ Keeps s t (fun x => x = F.MTR_AUDIT_CNT_TRANSIENT.addr ∨ x = A.MTR_LANE_STAT ∨ x = (laneEpochF a.lane).addr) [] [.mt] := by
  let u := s.endAudit i a
  let v := u.incSat F.MTR_AUDIT_CNT_TRANSIENT
  let w := v.inc (laneEpochF a.lane)
  have hu : Keeps s u (fun x => x = A.MTR_LANE_STAT) [] [.mt] := s.endAudit_keeps i a
  have hepoch : (laneEpochF a.lane).addr = 0x12140 + 4 * a.lane := rfl
  have hcount : F.MTR_AUDIT_CNT_TRANSIENT.addr ≠ (laneEpochF a.lane).addr := by
    show 0x1211C ≠ 0x12140 + 4 * a.lane
    omega
  have hstat : (laneEpochF a.lane).addr ≠ A.MTR_LANE_STAT := by
    rw [hepoch, A.MTR_LANE_STAT]
    omega
  have hexec : exec (.auditSelfTestDone i true true) s = done (w.setSlot a.lane { w.slot a.lane with ctxEpoch := w.get (laneEpochF a.lane) }) :=
    exec_auditSelfTestDone s i a true true h hfind
  refine ⟨_, hexec, s.endAudit_ended i a, ?_, ?_, ?_, Keeps.settle ?_⟩
  · rw [State.settle_get, State.setSlot_get]
    exact (v.put_get_other (laneEpochF a.lane) _ _ hcount).trans ((u.incSat_get_same F.MTR_AUDIT_CNT_TRANSIENT (by decide)).trans
      (congrArg (satInc 255) (hu.get F.MTR_AUDIT_CNT_TRANSIENT (by decide))))
  · rw [State.settle_get, State.setSlot_get]
    exact (v.inc_get_same (laneEpochF a.lane) (show 0 + 32 ≤ 32 by decide)).trans (congrArg (fun n => (n + 1) % 2 ^ 32)
      ((u.put_get_other F.MTR_AUDIT_CNT_TRANSIENT (laneEpochF a.lane) _ hcount.symm).trans (hu.get (laneEpochF a.lane) hstat)))
  · rw [State.settle_get, State.setSlot_get, State.settle_slot, State.setSlot_slot_same]
  · exact (((hu.mono (fun _ ha => .inr (.inl ha)) (by simp) (fun _ h => h)).incSat F.MTR_AUDIT_CNT_TRANSIENT (.inl rfl)).inc (laneEpochF a.lane)
      (.inr (.inr rfl))).setSlot a.lane _ (by simp)

/-- What passing slot j on leaves as it was, whether a spare takes it or none does: the failures, the events of lanes out of service, the audits. -/
structure PassedOn (s t : State) (j : Nat) : Prop where
  fails : ∀ b < 18, t.laneBit b = s.laneBit b
  pends : ∀ b < 2, t.get (hdrPend 0x12 b) = s.get (hdrPend 0x12 b)
  audits : ∀ a ∈ t.mt.audits, a ∈ s.mt.audits
  keeps : Keeps s t (onPages [0x0A, 0x12, 0x20 + j]) [2, 38] [.mt, .legal]

theorem State.passSlot_passedOn (s : State) {j : Nat} (hj : j < 16) (unit : Nat) (i? : Option Nat) (hi : ∀ i, i? = some i → i < 2) :
    PassedOn s (s.passSlot j unit i?) j := by
  have hepoch : A.MTR_LANE_EPOCH j = 0x12140 + 4 * j := rfl
  cases i? with
  | some i =>
    have hpassed := s.passSlot_spare (hi i rfl) hj unit
    exact ⟨fun b hb => hpassed.others b (by omega) (by omega), fun b hb => hpassed.pends b (by omega), hpassed.audits,
      hpassed.keeps.mono (fun a ha => ha.imp_left fun h => by simp_all) (by simp) (by simp)⟩
  | none =>
    let u := s.inc (laneEpochF j)
    have hu : Keeps s u (fun a => a = A.MTR_LANE_EPOCH j) [] [] := s.inc_epoch_keeps j
    obtain ⟨-, -, -, -, hpends, -, haudits, ht⟩ := u.uncoverSlot_uncovered j unit
    refine ⟨fun b _ => ?_, fun b hb => ?_, fun a ha => ?_, ?_⟩
    · refine (ht.laneBit (uncovered_apart (by decide) (by decide)) b).trans (hu.laneBit ?_ b)
      rw [hepoch, A.MTR_LANE_STAT]
      omega
    · refine (hpends b (by omega)).trans (hu.mtrPend ?_ b)
      rw [hepoch]
      omega
    · exact (congrArg (fun l => a ∈ l) haudits).mp ha
    · have hpage (a : Nat) (ha : a = A.MTR_LANE_EPOCH j) : onPages [0x0A, 0x12, 0x20 + j] a :=
        .inl (by simp only [ha, hepoch, List.mem_cons]; omega)
      exact (hu.mono hpage (by simp) (by simp)).trans (ht.mono (uncovered_onPages (by simp) (by simp) (by simp)) (fun _ h => h) fun _ h => h)

theorem exec_auditSelfTestDone_both (s : State) (i : Fin 2) (a : Audit) (h : s.runs = true)
    (hfind : s.mt.audits.find? (fun x => x.spare == i.val && x.testing) = some a) (hj : a.lane < 16) :
    Ends (exec (.auditSelfTestDone i false false) s) fun t =>
      a ∉ t.mt.audits ∧ t.on (bitFld A.MTR_LANE_STAT a.lane) = true ∧ t.on (spareLaneFailF i) = true ∧ t.get (hdrPend 0x12 0) = 1
      ∧ t.get (hdrPend 0x12 1) = 1 ∧ Keeps s t (onPages [0x0A, 0x12, 0x20 + a.lane]) [2, 38] [.mt, .legal] := by
  let u := s.endAudit i a
  let v := u.markLane (16 + i.val)
  let w := v.markLane a.lane
  let x := w.faultFrame 0x0B true 0 a.lane noLog
  have hi := i.isLt
  have hu : Keeps s u (fun y => y = A.MTR_LANE_STAT) [] [.mt] := s.endAudit_keeps i a
  have hv : Marked u v (16 + i.val) := u.markLane_marked_spare hi
  have hw : Marked v w a.lane := v.markLane_marked_lane hj
  have hx : Keeps w x lostRegs [2] [] := (Keeps.refl w _ _ _).faultFrame _ _ _ _ _ (by simp) fun _ h => h
  have ht : PassedOn x (x.passSlot a.lane a.lane x.freeLane) a.lane :=
    x.passSlot_passedOn hj a.lane x.freeLane fun k hk => (x.freeLane_eq_some hk).1
  have hexec : exec (.auditSelfTestDone i false false) s = done (x.passSlot a.lane a.lane x.freeLane) :=
    exec_auditSelfTestDone s i a false false h hfind
  have hvirq : laneIrq (16 + i.val) = 1 := if_neg (by omega)
  have hwirq : laneIrq a.lane = 0 := if_pos hj
  have hxmt : x.mt = w.mt := hx.parts .mt (by simp)
  generalize x.passSlot a.lane a.lane x.freeLane = t at ht hexec
  refine ⟨_, hexec, fun hmem => ?_, ?_, ?_, ?_, ?_, Keeps.settle ?_⟩
  · have hleft : a ∈ w.mt.audits := hxmt ▸ ht.audits a hmem
    exact s.endAudit_ended i a (hv.audits a (hw.audits a hleft))
  · rw [State.settle_on]
    exact (ht.fails a.lane (by omega)).trans ((hx.laneBit (by decide) a.lane).trans hw.fail)
  · rw [State.settle_on, State.laneBit_fail, ht.fails _ (by omega), hx.laneBit (by decide), hw.others _ (by omega) (by omega)]
    exact hv.fail
  · rw [State.settle_get, ht.pends 0 (by decide), hx.mtrPend (by decide)]
    exact hwirq ▸ hw.pend
  · rw [State.settle_get, ht.pends 1 (by decide), hx.mtrPend (by decide), hw.pends 1 (by rw [hwirq]; decide)]
    exact hvirq ▸ hv.pend
  · have hmarked : Keeps s w (onPages [0x0A, 0x12, 0x20 + a.lane]) [2, 38] [.mt, .legal] :=
      ((hu.mono (laneStat_onPages (by simp)) (by simp) (by simp)).trans (hv.keeps.mono (laneRegs_onPages (by simp)) (by simp) (by simp))).trans
        (hw.keeps.mono (laneRegs_onPages (by simp)) (by simp) (by simp))
    exact (hmarked.trans (hx.mono (fun _ hy => .inr hy) (by simp) (by simp))).trans ht.keeps

end Sys2Proof.Machine

/-! The lanes' start test, and the whole obligation (O16). -/
namespace Sys2Proof.Machine

-- The flags afresh (R164)

theorem State.put_laneBit (s : State) (x : Bool) {b : Nat} (hb : b < 32) (c : Nat) :
    (s.put (bitFld A.MTR_LANE_STAT b) x.toNat).laneBit c = if c = b then x else s.laneBit c := by
  split
  next heq =>
    subst heq
    exact s.put_on_bool (bitFld A.MTR_LANE_STAT c) x rfl (show c + 1 ≤ 32 by omega)
  next hne => exact s.put_bit_other _ _ hb hne

/-- Every flag of LANE_STAT and every place in LANE_MAP is cleared. -/
def State.clearLanes (s : State) : State := (s.setReg A.MTR_LANE_STAT 0).setReg A.MTR_LANE_MAP 0

/-- The lanes below `n` take the flags of their tests. -/
def State.flagOwn (s : State) (bad : Nat → Bool) (n : Nat) : State :=
  (List.range n).foldl (fun s j => s.put (bitFld A.MTR_LANE_STAT j) (bad j).toNat) s

/-- Both spares and every lane take the flags of their tests. -/
def State.flagLanes (s : State) (bad : Nat → Bool) : State :=
  ([0, 1].foldl (fun s i => s.put (spareLaneFailF i) (bad (16 + i)).toNat) s.clearLanes).flagOwn bad 16

theorem State.clearLanes_spec (s : State) : (∀ b, s.clearLanes.laneBit b = false) ∧ ∀ i j, s.clearLanes.maps i j = false := by
  have hstat : s.clearLanes.reg A.MTR_LANE_STAT = 0 := (State.setReg_reg_other _ _ _ _ (by decide)).trans (State.setReg_reg_same _ _ _)
  have hmap : s.clearLanes.reg A.MTR_LANE_MAP = 0 := State.setReg_reg_same _ _ _
  refine ⟨fun b => State.on_eq_false_of_reg_eq_zero _ _ hstat, fun i j => ?_⟩
  rw [State.maps, State.on_eq_false_of_reg_eq_zero _ (laneMapValidF i) hmap, Bool.false_and]

theorem State.flagOwn_laneBit (s : State) (bad : Nat → Bool) {n : Nat} (hn : n ≤ 16) (b : Nat) :
    (s.flagOwn bad n).laneBit b = if b < n then bad b else s.laneBit b := by
  induction n with
  | zero => rfl
  | succ n ih =>
    rw [State.flagOwn, List.range_succ, List.foldl_concat, State.put_laneBit _ _ (by omega), ← State.flagOwn, ih (by omega)]
    by_cases heq : b = n
    · subst heq
      rw [if_pos rfl, if_pos (Nat.lt_succ_self b)]
    · have hlt : b < n ↔ b < n + 1 := by omega
      simp only [if_neg heq, hlt]

theorem State.flagOwn_keeps (s : State) (bad : Nat → Bool) (n : Nat) : Keeps s (s.flagOwn bad n) (fun a => a = A.MTR_LANE_STAT) [] [] :=
  Keeps.foldl (R := fun a => a = A.MTR_LANE_STAT) _ (fun _ j hu => hu.put (bitFld A.MTR_LANE_STAT j) _ rfl) _ s (Keeps.refl s _ [] [])

/-- The spares' and the lanes' flags are those of the tests, and no spare carries a slot. -/
theorem State.flagLanes_spec (s : State) (bad : Nat → Bool) :
    (∀ b < 18, (s.flagLanes bad).laneBit b = bad b) ∧ (∀ i < 2, (s.flagLanes bad).laneBit (18 + i) = false)
      ∧ (∀ i j, (s.flagLanes bad).maps i j = false)
      ∧ Keeps s (s.flagLanes bad) (fun a => a = A.MTR_LANE_STAT ∨ a = A.MTR_LANE_MAP) [] [] := by
  let u := s.clearLanes.put (bitFld A.MTR_LANE_STAT 16) (bad 16).toNat
  let v := u.put (bitFld A.MTR_LANE_STAT 17) (bad 17).toNat
  have hflags : s.flagLanes bad = v.flagOwn bad 16 := rfl
  have hw : Keeps v (v.flagOwn bad 16) (fun a => a = A.MTR_LANE_STAT) [] [] := v.flagOwn_keeps bad 16
  have hv : Keeps s.clearLanes v (fun a => a = A.MTR_LANE_STAT) [] [] :=
    ((Keeps.refl s.clearLanes (fun a => a = A.MTR_LANE_STAT) [] []).put (bitFld A.MTR_LANE_STAT 16) _ rfl).put (bitFld A.MTR_LANE_STAT 17) _ rfl
  have hcleared : Keeps s s.clearLanes (fun a => a = A.MTR_LANE_STAT ∨ a = A.MTR_LANE_MAP) [] [] :=
    ((Keeps.refl s _ _ _).setReg _ _ (.inl rfl)).setReg _ _ (.inr rfl)
  obtain ⟨hstat, hmap⟩ := s.clearLanes_spec
  have hbit (b : Nat) : (s.flagLanes bad).laneBit b = if b < 16 then bad b else if b = 17 then bad 17 else if b = 16 then bad 16 else false := by
    rw [hflags, v.flagOwn_laneBit bad (Nat.le_refl 16), u.put_laneBit _ (by decide), s.clearLanes.put_laneBit _ (by decide), hstat]
  refine ⟨fun b hb => ?_, fun i hi => ?_, fun i j => ?_, ?_⟩
  · rw [hbit]
    split
    · rfl
    · obtain rfl | rfl : b = 16 ∨ b = 17 := by omega
      · rfl
      · rfl
  · rw [hbit, if_neg (by omega), if_neg (by omega), if_neg (by omega)]
  · rw [hflags, hw.maps (by decide), hv.maps (by decide), hmap]
  · exact (hcleared.trans (hv.mono (fun _ ha => .inl ha) (fun _ h => h) fun _ h => h)).trans
      (hw.mono (fun _ ha => .inl ha) (fun _ h => h) fun _ h => h)

-- Spares go to failed lanes in ascending order (R164, R167)

/-- A failed lane's slot goes to a free spare or is uncovered. -/
def State.coverLane (bad : Nat → Bool) (s : State) (j : Nat) : State :=
  if bad j then
    match s.freeLane with
    | some i => s.assignSpare i j
    | none => s.uncoverSlot j j
  else s

theorem State.coverLane_good {bad : Nat → Bool} (s : State) {j : Nat} (h : bad j = false) : State.coverLane bad s j = s := by
  rw [State.coverLane, h, if_neg Bool.false_ne_true]

theorem State.coverLane_spare {bad : Nat → Bool} (s : State) {i j : Nat} (h : bad j = true) (hfree : s.freeLane = some i) :
    State.coverLane bad s j = s.assignSpare i j := by rw [State.coverLane, if_pos h, hfree]

theorem State.coverLane_none {bad : Nat → Bool} (s : State) {j : Nat} (h : bad j = true) (hfree : s.freeLane = none) :
    State.coverLane bad s j = s.uncoverSlot j j := by rw [State.coverLane, if_pos h, hfree]

/-- The pages of SEA, MTR and the outlets' meters. -/
abbrev lanePages : List Nat := [0x0A, 0x12, 0x20, 0x21, 0x22, 0x23, 0x24, 0x25, 0x26, 0x27, 0x28, 0x29, 0x2A, 0x2B]

/-- The lanes below `n` have been served from `v`: flags stand, spares carry failed lanes' slots only, and spare 16, where it is free, the first's. -/
structure Served (bad : Nat → Bool) (v t : State) (n : Nat) : Prop where
  fails : ∀ b < 18, t.laneBit b = v.laneBit b
  onlyBad : ∀ i < 2, ∀ j, t.maps i j = true → bad j = true
  untouched : (∀ j < n, bad j = false) → t = v
  first : v.laneFree 0 = true → ∀ j < n, bad j = true → (∀ x < j, bad x = false) → t.maps 0 j = true ∧ t.laneBit 18 = true
  keeps : Keeps v t (onPages lanePages) [2, 38] [.mt, .legal]

theorem laneMap_onPages {l : List Nat} (h : 0x12 ∈ l) (a : Nat) (ha : a = A.MTR_LANE_STAT ∨ a = A.MTR_LANE_MAP) : onPages l a := by
  rcases ha with rfl | rfl
  · exact .inl h
  · exact .inl h

/-- A lane that passed needs no spare. -/
theorem Served.good {bad : Nat → Bool} {v t : State} {n : Nat} (h : Served bad v t n) (hgood : bad n = false) : Served bad v t (n + 1) := by
  refine ⟨h.fails, h.onlyBad, fun hall => h.untouched fun j hj => hall j (by omega), fun hfree j hj hbad hfirst => ?_, h.keeps⟩
  have hne : j ≠ n := fun heq => by simp [heq, hgood] at hbad
  exact h.first hfree j (by omega) hbad hfirst

/-- A failed lane's slot goes to the free spare. -/
theorem Served.spare {bad : Nat → Bool} {v t u : State} {n i : Nat} (h : Served bad v t n) (hbad : bad n = true) (hfree : t.freeLane = some i)
    (hu : Assigned t u i n) : Served bad v u (n + 1) := by
  obtain ⟨hi, hunused, -⟩ := t.freeLane_eq_some hfree
  obtain ⟨hused, hothers, hmaps, hotherMaps, -, -, hkeeps⟩ := hu
  refine ⟨fun b hb => (hothers b (by omega) (by omega)).trans (h.fails b hb), fun k hk j hj => ?_, fun hall => ?_,
    fun hv j hj hjbad hfirst => ?_, h.keeps.trans (hkeeps.mono (laneMap_onPages (by decide)) (by simp) (by simp))⟩
  · by_cases hki : k = i
    · subst hki
      rw [hmaps] at hj
      exact eq_of_beq hj ▸ hbad
    · exact h.onlyBad k hk j (hotherMaps k hk hki j ▸ hj)
  · simp [hall n (Nat.lt_succ_self n)] at hbad
  · rcases Nat.lt_succ_iff_lt_or_eq.mp hj with hlt | rfl
    · obtain ⟨hmap, htaken⟩ := h.first hv j hlt hjbad hfirst
      have hi0 : i ≠ 0 := by
        rintro rfl
        simp [State.laneFree, htaken] at hunused
      exact ⟨(hotherMaps 0 (by decide) hi0.symm j).trans hmap, (hothers 18 (by omega) (by omega)).trans htaken⟩
    · have hi0 : i = 0 := by
        rw [h.untouched hfirst, State.freeLane_eq, if_pos hv] at hfree
        exact (Option.some.inj hfree).symm
      subst hi0
      exact ⟨(hmaps j).trans (beq_self_eq_true j), hused⟩

/-- With no spare free the slot is uncovered. -/
theorem Served.uncovered {bad : Nat → Bool} {v t u : State} {n : Nat} (h : Served bad v t n) (hbad : bad n = true) (hfree : t.freeLane = none)
    (hu : Uncovered t u n) : Served bad v u (n + 1) := by
  have hbit : ∀ b, u.laneBit b = t.laneBit b := hu.keeps.laneBit (uncovered_apart (by decide) (by decide))
  have hmap : ∀ i j, u.maps i j = t.maps i j := hu.keeps.maps (uncovered_apart (by decide) (by decide))
  have hpage (hlt : n < 12) : 0x20 + n ∈ lanePages := by
    simp only [List.mem_cons]
    omega
  refine ⟨fun b hb => (hbit b).trans (h.fails b hb), fun i hi j hj => h.onlyBad i hi j (hmap i j ▸ hj), fun hall => ?_,
    fun hv j hj hjbad hfirst => ?_, h.keeps.trans (hu.keeps.mono (uncovered_onPages (by simp) (by simp) hpage) (fun _ h => h) fun _ h => h)⟩
  · simp [hall n (Nat.lt_succ_self n)] at hbad
  · rcases Nat.lt_succ_iff_lt_or_eq.mp hj with hlt | rfl
    · rw [hmap, hbit]
      exact h.first hv j hlt hjbad hfirst
    · rw [h.untouched hfirst, State.freeLane_eq, if_pos hv] at hfree
      cases hfree

theorem State.coverLanes_served (bad : Nat → Bool) (v : State) (hmaps : ∀ i j, v.maps i j = false) {n : Nat} (hn : n ≤ 16) :
    Served bad v ((List.range n).foldl (State.coverLane bad) v) n := by
  induction n with
  | zero =>
    exact ⟨fun _ _ => rfl, fun i _ j hj => absurd hj (ne_true_of_eq_false (hmaps i j)), fun _ => rfl,
      fun _ j hj => absurd hj (Nat.not_lt_zero j), Keeps.refl v _ _ _⟩
  | succ n ih =>
    have ht := ih (by omega)
    rw [List.range_succ, List.foldl_concat]
    generalize (List.range n).foldl (State.coverLane bad) v = t at ht
    cases hbad : bad n with
    | false =>
      rw [t.coverLane_good hbad]
      exact ht.good hbad
    | true =>
      cases hfree : t.freeLane with
      | some i =>
        rw [t.coverLane_spare hbad hfree]
        exact ht.spare hbad hfree (t.assignSpare_assigned (t.freeLane_eq_some hfree).1 (by omega))
      | none =>
        rw [t.coverLane_none hbad hfree]
        exact ht.uncovered hbad hfree (t.uncoverSlot_uncovered n n)

-- The whole test (R164)

/-- Did a lane's or a spare's test fail? -/
def laneTestBad (passed : List Bool) (l : Nat) : Bool := passed[l]? == some false

theorem State.laneTest_eq (s : State) (passed : List Bool) :
    s.laneTest passed = ((List.range 16).foldl (State.coverLane (laneTestBad passed)) (s.flagLanes (laneTestBad passed))).put F.MTR_STATUS_START_TEST_DONE 1 :=
  rfl

theorem exec_mtrStartTestDone_taken (s : State) (passed : List Bool) (h : s.runs = true) (hfirst : s.on F.MTR_STATUS_START_TEST_DONE = false)
    (_ : passed.length = 18) :
    Ends (exec (.mtrStartTestDone passed) s) fun t =>
      t.on F.MTR_STATUS_START_TEST_DONE = true ∧ (∀ j, j < 16 → t.on (bitFld A.MTR_LANE_STAT j) = (passed[j]? == some false))
      ∧ (∀ i, i < 2 → t.on (spareLaneFailF i) = (passed[16 + i]? == some false))
      ∧ (∀ j, j < 16 → passed[j]? = some true → t.carrier j = some j)
      ∧ (∀ j, j < 16 → passed[16]? = some true → passed[j]? = some false → (∀ x, x < j → passed[x]? = some true) → t.carrier j = some 16)
      ∧ Keeps s t (onPages [0x0A, 0x12, 0x20, 0x21, 0x22, 0x23, 0x24, 0x25, 0x26, 0x27, 0x28, 0x29, 0x2A, 0x2B]) [2, 38] [.mt, .legal] := by
  let bad := laneTestBad passed
  let v := s.flagLanes bad
  let u := (List.range 16).foldl (State.coverLane bad) v
  let t := u.put F.MTR_STATUS_START_TEST_DONE 1
  have hexec : exec (.mtrStartTestDone passed) s = done t := by
    show execMtrStartTestDone passed s = _
    rw [execMtrStartTestDone, s.onFabric_runs _ h, hfirst, if_neg Bool.false_ne_true, s.laneTest_eq]
  obtain ⟨hflags, hunused, hmaps, hv⟩ := s.flagLanes_spec bad
  obtain ⟨hfails, honlyBad, -, hserved, hu⟩ := State.coverLanes_served bad v hmaps (Nat.le_refl 16)
  have ht : Keeps u t (among [F.MTR_STATUS_START_TEST_DONE.addr]) [] [] := (Keeps.refl u _ _ _).put _ _ (by simp)
  have hbit (b : Nat) (hb : b < 18) : t.laneBit b = bad b := ((ht.laneBit (by decide) b).trans (hfails b hb)).trans (hflags b hb)
  have hmap : ∀ i j, t.maps i j = u.maps i j := ht.maps (by decide)
  have hdone : t.on F.MTR_STATUS_START_TEST_DONE = true := u.put_on_bool F.MTR_STATUS_START_TEST_DONE true rfl (by decide)
  have hgood {l : Nat} (hl : passed[l]? = some true) : bad l = false := by simp [bad, laneTestBad, hl]
  have hkeeps : Keeps s t (onPages lanePages) [2, 38] [.mt, .legal] :=
    ((hv.mono (laneMap_onPages (by decide)) (by simp) (by simp)).trans hu).put _ _ (.inl (by decide))
  clear_value t
  refine ⟨_, hexec, hdone, fun j hj => hbit j (by omega), fun i hi => hbit (16 + i) (by omega), fun j hj hpass => ?_,
    fun j hj h16 hfail hbefore => ?_, hkeeps.settle⟩
  · have hoff (i : Nat) (hi : i < 2) : t.maps i j = false := Bool.eq_false_iff.mpr fun hon =>
      absurd (honlyBad i hi j (hmap i j ▸ hon)) (ne_true_of_eq_false (hgood hpass))
    rw [State.settle_carrier, State.carrier_eq, hoff 0 (by decide), hoff 1 (by decide), hbit j (by omega), hgood hpass]
    rfl
  · have hbad : bad j = true := by simp [bad, laneTestBad, hfail]
    have hfree : v.laneFree 0 = true := by
      have h18 : v.laneBit 18 = false := hunused 0 (by decide)
      have h16 : v.laneBit 16 = false := (hflags 16 (by decide)).trans (hgood h16)
      simp [State.laneFree, h16, h18]
    obtain ⟨hon, -⟩ := hserved hfree j hj hbad fun x hx => hgood (hbefore x hx)
    rw [State.settle_carrier, State.carrier_eq, hmap, hon, if_pos rfl]

/-- Settles O16, clause by clause. -/
theorem laneFailuresAndAudits : Obligations.LaneFailuresAndAudits :=
  ⟨⟨exec_laneFault_covered, exec_laneFault_uncovered, exec_laneFault_own_idle, exec_laneFault_spare_idle, exec_batchDeadline_missed,
      exec_batchDeadline_covered, exec_batchDeadline_met, exec_eccSingleError_counted⟩,
    exec_auditCompare_same, exec_auditCompare_differs, exec_auditSelfTestDone_lane, exec_auditSelfTestDone_auditor,
    exec_auditSelfTestDone_transient, exec_auditSelfTestDone_both, exec_mtrStartTestDone_taken⟩

end Sys2Proof.Machine

/-! Couches and meter enables (O18). -/
namespace Sys2Proof.Machine

-- The snapshots (R193, R219)

/-- The words of outlet k's snapshot. -/
def snapWords (r : LegalRec) (k : Nat) : List (Nat × W32) :=
  let a := r.acc k
  let w (x : Nat) : W32 := wordN (x / 1000)
  [(A.MTRK_SNAP_SEQ k, wordN r.seq), (A.MTRK_SNAP_WH_IMP k, w a.imp), (A.MTRK_SNAP_WH_EXP k, w a.exp), (A.MTRK_SNAP_VARH_POS k, w a.varPos),
   (A.MTRK_SNAP_VARH_NEG k, w a.varNeg), (A.MTRK_SNAP_VAH k, w a.va), (A.MTRK_SNAP_NET k, w a.net), (A.MTRK_SNAP_CYCLE k, wordN r.cycle)]

theorem State.snapshot_eq (s : State) (r : LegalRec) (k : Nat) : s.snapshot r k = (snapWords r k).foldl (fun s w => s.setReg w.1 w.2) s := rfl

theorem snapWords_page (r : LegalRec) (k : Nat) : ∀ w ∈ snapWords r k, w.1 / 4096 = 0x20 + k := by
  simp only [snapWords, A.MTRK_SNAP_SEQ, A.MTRK_SNAP_WH_IMP, A.MTRK_SNAP_WH_EXP, A.MTRK_SNAP_VARH_POS, A.MTRK_SNAP_VARH_NEG, A.MTRK_SNAP_VAH,
    A.MTRK_SNAP_NET, A.MTRK_SNAP_CYCLE, List.forall_mem_cons, List.not_mem_nil, false_imp_iff, implies_true, and_true]
  omega

theorem snapWords_apart (r : LegalRec) (k : Nat) : ((snapWords r k).map Prod.fst).Nodup := by
  simp only [snapWords, A.MTRK_SNAP_SEQ, A.MTRK_SNAP_WH_IMP, A.MTRK_SNAP_WH_EXP, A.MTRK_SNAP_VARH_POS, A.MTRK_SNAP_VARH_NEG, A.MTRK_SNAP_VAH,
    A.MTRK_SNAP_NET, A.MTRK_SNAP_CYCLE, List.map_cons, List.map_nil, List.nodup_cons, List.nodup_nil, List.mem_cons, List.not_mem_nil, or_false,
    not_false_eq_true, and_true]
  omega

/-- Words written to different registers each read back. -/
theorem State.setWords_reg (s : State) (l : List (Nat × W32)) (h : (l.map Prod.fst).Nodup) :
    ∀ w ∈ l, (l.foldl (fun s w => s.setReg w.1 w.2) s).reg w.1 = w.2 := by
  induction l generalizing s with
  | nil => exact fun _ hw => absurd hw List.not_mem_nil
  | cons x l ih =>
    obtain ⟨hx, hl⟩ := List.nodup_cons.mp h
    intro w hw
    rcases List.mem_cons.mp hw with rfl | hw
    · have hkept := (Keeps.refl (s.setReg w.1 w.2) (fun a => a ∈ l.map Prod.fst) [] []).setWords l fun y hy => List.mem_map_of_mem hy
      exact (hkept.regs w.1 hx).trans (State.setReg_reg_same _ _ _)
    · exact ih (s.setReg x.1 x.2) hl w hw

theorem Keeps.snapshot {s t : State} {R : Nat → Prop} {E : List Nat} {P : List Part} (h : Keeps s t R E P) (r : LegalRec) (k : Nat)
    (hR : ∀ a, inPage (0x20 + k) a → R a) : Keeps s (t.snapshot r k) R E P :=
  h.setWords _ fun w hw => hR _ (snapWords_page r k w hw)

/-- The snapshots of the outlets below `n`. -/
def State.snapshots (s : State) (r : LegalRec) (n : Nat) : State := (List.range n).foldl (fun s k => s.snapshot r k) s

theorem Keeps.snapshots {s t : State} {R : Nat → Prop} {E : List Nat} {P : List Part} (h : Keeps s t R E P) (r : LegalRec) (n : Nat)
    (hR : ∀ k < n, ∀ a, inPage (0x20 + k) a → R a) : Keeps s (t.snapshots r n) R E P :=
  Keeps.foldlMem _ _ (fun _ k hk hu => hu.snapshot r k (hR k (List.mem_range.mp hk))) h

theorem State.snapshots_reg (s : State) (r : LegalRec) (n : Nat) : ∀ k < n, ∀ w ∈ snapWords r k, (s.snapshots r n).reg w.1 = w.2 := by
  induction n with
  | zero => exact fun k hk => absurd hk (Nat.not_lt_zero k)
  | succ n ih =>
    have hlast : s.snapshots r (n + 1) = (s.snapshots r n).snapshot r n := by
      simp only [State.snapshots, List.range_succ, List.foldl_concat]
    intro k hk w hw
    rw [hlast]
    rcases Nat.lt_succ_iff_lt_or_eq.mp hk with hlt | rfl
    · have hpage : ¬ inPage (0x20 + n) w.1 := by
        rw [inPage, snapWords_page r k w hw]
        omega
      exact (((Keeps.refl (s.snapshots r n) (inPage (0x20 + n)) [] []).snapshot r n fun _ h => h).regs w.1 hpage).trans (ih k hlt w hw)
    · rw [State.snapshot_eq]
      exact State.setWords_reg (s.snapshots r k) (snapWords r k) (snapWords_apart r k) w hw

-- The copy and the couch's registers (R197, R218)

/-- The copy not written last takes the record, and the couch's registers show it. -/
def State.noteCouch (s : State) (r : LegalRec) (time : Nat) : State :=
  let s := (({ s with mt := { s.mt with couching := none } }).storeLegal r).setReg A.MTR_COUCH_SEQ (wordN r.seq)
  let s := s.setReg A.MTR_COUCH_CYC (wordN r.cycle)
  s.put F.MTR_COUCH_MAX_TIME (max (s.get F.MTR_COUCH_MAX_TIME) time)

theorem State.couchWrite_eq (s : State) (r : LegalRec) (time : Nat) : s.couchWrite r time = (s.noteCouch r time).snapshots r 12 := rfl

/-- The copies after a couch of `r`: the one not written last holds it, the other is as it was. -/
structure Couched (s t : State) (r : LegalRec) : Prop where
  couching : t.mt.couching = none
  lastB : t.mt.lastB = !s.mt.lastB
  taken : (if t.mt.lastB then t.mt.copyB else t.mt.copyA) = some r
  kept : if t.mt.lastB then t.mt.copyA = s.mt.copyA else t.mt.copyB = s.mt.copyB
  meter : ∀ k, t.meter k = s.meter k

theorem State.noteCouch_couched (s : State) (r : LegalRec) (time : Nat) : Couched s (s.noteCouch r time) r := by
  have hmt : (s.noteCouch r time).mt = (({ s with mt := { s.mt with couching := none } } : State).storeLegal r).mt := rfl
  have hmeter (k : Nat) : (s.noteCouch r time).meter k = s.meter k := by
    rw [State.meter, hmt, State.storeLegal]
    split <;> rfl
  cases hb : s.mt.lastB <;> simp only [State.storeLegal, hb, Bool.false_eq_true, if_false, if_true] at hmt
  · exact ⟨by rw [hmt], by rw [hmt, hb]; rfl, by rw [hmt]; rfl, by rw [hmt]; rfl, hmeter⟩
  · exact ⟨by rw [hmt], by rw [hmt, hb]; rfl, by rw [hmt]; rfl, by rw [hmt]; rfl, hmeter⟩

theorem Couched.of_mt {s t u : State} {r : LegalRec} (h : Couched s t r) (hmt : u.mt = t.mt) : Couched s u r := by
  obtain ⟨hcouching, hlast, htaken, hkept, hmeter⟩ := h
  rw [← hmt] at hcouching hlast htaken hkept
  exact ⟨hcouching, hlast, htaken, hkept, fun k => (State.meter_congr hmt k).trans (hmeter k)⟩

theorem State.noteCouch_keeps (s : State) (r : LegalRec) (time : Nat) :
    Keeps s (s.noteCouch r time) (among [A.MTR_COUCH_SEQ, A.MTR_COUCH_CYC, F.MTR_COUCH_MAX_TIME.addr]) [] [.mt] := by
  have hstored : Keeps s (({ s with mt := { s.mt with couching := none } } : State).storeLegal r)
      (among [A.MTR_COUCH_SEQ, A.MTR_COUCH_CYC, F.MTR_COUCH_MAX_TIME.addr]) [] [.mt] := by
    have hended := (Keeps.refl s (among [A.MTR_COUCH_SEQ, A.MTR_COUCH_CYC, F.MTR_COUCH_MAX_TIME.addr]) [] [.mt]).withMt
      { s.mt with couching := none } (by simp)
    exact Keeps.ite (hended.withMt _ (by simp)) (hended.withMt _ (by simp))
  exact ((hstored.setReg _ _ (by simp)).setReg _ _ (by simp)).put F.MTR_COUCH_MAX_TIME _ (by simp)

theorem State.noteCouch_regs (s : State) (r : LegalRec) (time : Nat) (htime : time < 2 ^ 16) :
    (s.noteCouch r time).reg A.MTR_COUCH_SEQ = wordN r.seq ∧ (s.noteCouch r time).reg A.MTR_COUCH_CYC = wordN r.cycle
      ∧ (s.noteCouch r time).get F.MTR_COUCH_MAX_TIME = max (s.get F.MTR_COUCH_MAX_TIME) time := by
  let u := ({ s with mt := { s.mt with couching := none } } : State).storeLegal r
  let v := (u.setReg A.MTR_COUCH_SEQ (wordN r.seq)).setReg A.MTR_COUCH_CYC (wordN r.cycle)
  have hcouch : s.noteCouch r time = v.put F.MTR_COUCH_MAX_TIME (max (v.get F.MTR_COUCH_MAX_TIME) time) := rfl
  have hu (f : Fld) : u.get f = s.get f := by
    simp only [u, State.storeLegal]
    split <;> rfl
  have hmax : v.get F.MTR_COUCH_MAX_TIME = s.get F.MTR_COUCH_MAX_TIME := by
    rw [State.setReg_get, if_neg (by decide), State.setReg_get, if_neg (by decide), hu]
  have hfit : s.get F.MTR_COUCH_MAX_TIME < 2 ^ 16 := s.get_lt _
  rw [hcouch, hmax]
  refine ⟨?_, ?_, ?_⟩
  · rw [State.put_reg_other _ _ _ _ (by decide), State.setReg_reg_other _ _ _ _ (by decide), State.setReg_reg_same]
  · rw [State.put_reg_other _ _ _ _ (by decide), State.setReg_reg_same]
  · rw [State.put_get_same _ _ _ (by decide)]
    exact Nat.mod_eq_of_lt (max_lt hfit htime)

-- What other blocks take from a couch (R344, R463, R510)

/-- Nobody waits for the couch: no totals are asked for, and no session or METER record waits, or a warning holds them. -/
structure State.couchQuiet (s : State) : Prop where
  totals : s.get F.SEA_TOTALS_REQ_OUT = 0
  sessions : s.pf.warned = true ∨ (s.se.meters = [] ∧ ∀ k, k < 12 → s.ses k = sesIdle)

theorem State.sesCouch_quiet (s : State) (c : LegalRec) (cts : Nat) (h : s.pf.warned = true ∨ (s.se.meters = [] ∧ ∀ k, k < 12 → s.ses k = sesIdle)) :
    ∃ x, s.sesCouch c cts = { s with se := x } := by
  by_cases hwarned : s.pf.warned = true
  · exact ⟨_, if_pos hwarned⟩
  · obtain ⟨hmeters, hidle⟩ := h.resolve_left hwarned
    refine ⟨{ s.se with last := some (c, cts), meters := [] }, (if_neg hwarned).trans ?_⟩
    let v : State := { s with se := { s.se with last := some (c, cts) } }
    refine (congrArg (fun u : State => u.meterRecords c cts) (List.foldlRecOn (List.range 12) _ (b := v) (motive := fun u => u = v) rfl
      fun u hu k hk => ?_)).trans ?_
    · have hses : v.ses k = 0 := hidle k (List.mem_range.mp hk)
      rw [hu]
      dsimp only
      rw [hses, if_neg (by decide), if_neg (by simp [sesActive, sesEnding])]
    · simp only [State.meterRecords, v, hmeters, List.foldl_nil]

theorem State.totalsCouch_quiet (s : State) (c : LegalRec) (cts : Nat) (h : s.get F.SEA_TOTALS_REQ_OUT = 0) :
    s.totalsCouch c cts = s.put F.SEA_TOTALS_REQ_OUT 0 := by
  simp only [State.totalsCouch, h, Nat.zero_testBit, Bool.false_eq_true, if_false, List.foldl_fixed]

/-- The couch journal, the sessions and the totals frames take the couch. -/
def State.shareCouch (s : State) (r : LegalRec) (time : Nat) : State :=
  let s := s.journalCouch r time
  (s.sesCouch r s.ts).totalsCouch r s.ts

theorem State.shareCouch_keeps (s : State) (r : LegalRec) (time : Nat) (h : s.couchQuiet) :
    Keeps s (s.shareCouch r time) (among [F.NVF_COUCH_IDX_IDX.addr, F.SEA_TOTALS_REQ_OUT.addr]) [] [.nv, .se] := by
  let u := s.journalCouch r time
  have hu : Keeps s u (among [F.NVF_COUCH_IDX_IDX.addr]) [] [.nv] := by
    refine Keeps.put (Keeps.trans (t := { s with nv := { s.nv with couchIdx := (s.nv.couchIdx + 1) % 256 } }) ?_ ?_) _ _ (by simp)
    · exact (Keeps.refl s _ _ _).fields fun p hp => by cases p <;> simp_all [Part.same, State.sramByte]
    · exact (Keeps.refl _ _ _ _).fields fun p hp => by cases p <;> simp_all [Part.same, State.sramByte]
  have hses (k : Nat) (hk : k < 12) : u.ses k = s.ses k := hu.get (F.SES_OUT_STAT_STATE k) (by
    simp only [F.SES_OUT_STAT_STATE, F.NVF_COUCH_IDX_IDX, List.mem_singleton]
    omega)
  have hpf : u.pf = s.pf := hu.parts .pf (by decide)
  have hse : u.se = s.se := hu.parts .se (by decide)
  have hquiet : u.pf.warned = true ∨ (u.se.meters = [] ∧ ∀ k, k < 12 → u.ses k = sesIdle) := by
    rw [hpf, hse]
    exact h.sessions.imp_right fun ⟨hmeters, hidle⟩ => ⟨hmeters, fun k hk => (hses k hk).trans (hidle k hk)⟩
  obtain ⟨x, hx⟩ := u.sesCouch_quiet r u.ts hquiet
  have htotals : u.get F.SEA_TOTALS_REQ_OUT = 0 := (hu.get F.SEA_TOTALS_REQ_OUT (by decide)).trans h.totals
  have heq : s.shareCouch r time = ({ u with se := x } : State).put F.SEA_TOTALS_REQ_OUT 0 := by
    show (u.sesCouch r u.ts).totalsCouch r u.ts = _
    rw [hx]
    exact State.totalsCouch_quiet { u with se := x } r u.ts htotals
  rw [heq]
  exact ((hu.mono (fun _ ha => List.mem_append_left [_] ha) (by simp) (by simp)).withSe x (by simp)).put F.SEA_TOTALS_REQ_OUT 0 (by simp)

-- The couch completes (R193, R197, R199)

/-- The couch's copy, registers and snapshots, and what other blocks take from it. -/
def State.completeCouch (s : State) (r : LegalRec) (time : Nat) : State := (s.couchWrite r time).shareCouch r time

/-- A final couch is followed by the power-fail entry of the legal log (R202). -/
theorem State.finishCouch_cases (s : State) (r : LegalRec) (time : Nat) (h : s.mt.couching = some r) :
    let u := s.completeCouch r (min 0xFFFF time)
    if r.flags.testBit 0 then ∃ data, s.finishCouch time = u.log 0x0001 noOutlet data else s.finishCouch time = u := by
  dsimp only
  rw [State.finishCouch, h]
  split
  next hfinal => exact ⟨_, if_pos hfinal⟩
  next hfinal => exact if_neg hfinal

/-- The pages a couch's own writes touch: MTR and the outlets' meters. -/
theorem State.couchWrite_keeps (s : State) (r : LegalRec) (time : Nat) :
    Keeps s (s.couchWrite r time) (inPages (0x12 :: List.range' 0x20 12)) [] [.mt] := by
  have hpages : ∀ a ∈ [A.MTR_COUCH_SEQ, A.MTR_COUCH_CYC, F.MTR_COUCH_MAX_TIME.addr], a / 4096 ∈ 0x12 :: List.range' 0x20 12 := by decide
  rw [s.couchWrite_eq]
  refine ((s.noteCouch_keeps r time).mono hpages (by simp) (by simp)).snapshots r 12 fun k hk a ha => ?_
  exact List.mem_cons_of_mem _ (ha ▸ mtrkPage_mem hk)

theorem State.couchQuiet_of_keeps {s t : State} (h : Keeps s t (inPages (0x12 :: List.range' 0x20 12)) [] [.mt]) (hq : s.couchQuiet) :
    t.couchQuiet := by
  obtain ⟨htotals, hsessions⟩ := hq
  refine ⟨(h.get F.SEA_TOTALS_REQ_OUT (by decide)).trans htotals, ?_⟩
  rw [(h.parts .pf (by decide) : t.pf = s.pf), (h.parts .se (by decide) : t.se = s.se)]
  refine hsessions.imp_right fun ⟨hmeters, hidle⟩ => ⟨hmeters, fun k hk => (h.get (F.SES_OUT_STAT_STATE k) ?_).trans (hidle k hk)⟩
  simp only [inPages, F.SES_OUT_STAT_STATE, List.mem_cons, List.mem_range'_1]
  omega

/-- What a completed couch leaves: the copies, the couch's registers and the snapshots. -/
structure CouchDone (s t : State) (r : LegalRec) (time : Nat) : Prop where
  couched : Couched s t r
  seq : t.reg A.MTR_COUCH_SEQ = wordN r.seq
  cyc : t.reg A.MTR_COUCH_CYC = wordN r.cycle
  maxTime : t.get F.MTR_COUCH_MAX_TIME = max (s.get F.MTR_COUCH_MAX_TIME) time
  snaps : ∀ k < 12, ∀ w ∈ snapWords r k, t.reg w.1 = w.2

/-- A state with the same meters and the same words on the pages of MTR and the outlets' meters. -/
theorem CouchDone.of_keeps {s t u : State} {r : LegalRec} {time : Nat} {R : Nat → Prop} {E : List Nat} {P : List Part}
    (h : CouchDone s t r time) (hk : Keeps t u R E P) (hmt : Part.mt ∉ P) (hR : ∀ a, a / 4096 ∈ 0x12 :: List.range' 0x20 12 → ¬ R a) :
    CouchDone s u r time where
  couched := h.couched.of_mt (hk.parts .mt hmt)
  seq := (hk.regs _ (hR _ (by decide))).trans h.seq
  cyc := (hk.regs _ (hR _ (by decide))).trans h.cyc
  maxTime := (hk.get F.MTR_COUCH_MAX_TIME (hR _ (by decide))).trans h.maxTime
  snaps k hlt w hw := (hk.regs _ (hR _ (snapWords_page r k w hw ▸ List.mem_cons_of_mem _ (mtrkPage_mem hlt)))).trans (h.snaps k hlt w hw)

theorem State.couchWrite_done (s : State) (r : LegalRec) (time : Nat) (htime : time < 2 ^ 16) :
    CouchDone s (s.couchWrite r time) r time := by
  rw [s.couchWrite_eq]
  have hk : Keeps (s.noteCouch r time) ((s.noteCouch r time).snapshots r 12) (inPages (List.range' 0x20 12)) [] [] :=
    (Keeps.refl _ _ _ _).snapshots r 12 fun k hlt a ha => by rw [inPages, ha]; exact mtrkPage_mem hlt
  obtain ⟨hseq, hcyc, hmax⟩ := s.noteCouch_regs r time htime
  exact ⟨(s.noteCouch_couched r time).of_mt (hk.parts .mt (by simp)), (hk.regs _ (by decide)).trans hseq, (hk.regs _ (by decide)).trans hcyc,
    (hk.get F.MTR_COUCH_MAX_TIME (by decide)).trans hmax, State.snapshots_reg _ r 12⟩

theorem State.completeCouch_spec (s : State) (r : LegalRec) (time : Nat) (htime : time < 2 ^ 16) (hq : s.couchQuiet) :
    CouchDone s (s.completeCouch r time) r time
      ∧ Keeps s (s.completeCouch r time) (onPages ([0x08, 0x0A, 0x12] ++ List.range' 0x20 12)) [] [.mt, .nv, .se] := by
  let u := s.couchWrite r time
  have hu := s.couchWrite_keeps r time
  have ht : Keeps u (s.completeCouch r time) (among [F.NVF_COUCH_IDX_IDX.addr, F.SEA_TOTALS_REQ_OUT.addr]) [] [.nv, .se] :=
    u.shareCouch_keeps r time (State.couchQuiet_of_keeps hu hq)
  have hpages : ∀ p ∈ 0x12 :: List.range' 0x20 12, p ∈ [0x08, 0x0A, 0x12] ++ List.range' 0x20 12 := by decide
  refine ⟨(s.couchWrite_done r time htime).of_keeps ht (by simp) fun a ha hmem => ?_, ?_⟩
  · exact (by decide : ∀ a ∈ [F.NVF_COUCH_IDX_IDX.addr, F.SEA_TOTALS_REQ_OUT.addr], a / 4096 ∉ 0x12 :: List.range' 0x20 12) a hmem ha
  · exact (hu.mono (fun a ha => .inl (hpages _ ha)) (by simp) (by simp)).trans
      (ht.mono (fun a ha => .inl ((by decide : ∀ a ∈ [F.NVF_COUCH_IDX_IDX.addr, F.SEA_TOTALS_REQ_OUT.addr],
        a / 4096 ∈ [0x08, 0x0A, 0x12] ++ List.range' 0x20 12) a ha)) (by simp) (by simp))

theorem State.finishCouch_spec (s : State) (r : LegalRec) (time : Nat) (h : s.mt.couching = some r) (hq : s.couchQuiet) :
    CouchDone s (s.finishCouch time) r (min 0xFFFF time) ∧ (r.flags.testBit 0 = false → (s.finishCouch time).legal = s.legal)
      ∧ Keeps s (s.finishCouch time) (onPages ([0x08, 0x0A, 0x12] ++ List.range' 0x20 12)) [2, 38] [.mt, .nv, .se, .legal] := by
  let u := s.completeCouch r (min 0xFFFF time)
  obtain ⟨hdone, hkeeps⟩ := s.completeCouch_spec r (min 0xFFFF time) (by omega) hq
  have hlegal : u.legal = s.legal := hkeeps.parts .legal (by decide)
  have hwide := hkeeps.mono (E' := [2, 38]) (P' := [.mt, .nv, .se, .legal]) (fun _ h => h) (by simp) (by simp)
  have hcases := s.finishCouch_cases r time h
  dsimp only at hcases
  split at hcases
  next hfinal =>
    obtain ⟨data, heq⟩ := hcases
    have hlog : Keeps u (u.log 0x0001 noOutlet data) (eventRegs 0x0A 4) [2, 38] [.legal] :=
      (Keeps.refl u _ _ _).log _ _ _ (by simp) (by simp) (by simp) fun _ h => h
    rw [heq]
    refine ⟨hdone.of_keeps hlog (by simp) fun a ha hev => ?_, fun hnot => absurd hfinal (ne_true_of_eq_false hnot), ?_⟩
    · simp only [eventRegs, irqRegs, lostRegs] at hev
      simp only [List.mem_cons, List.mem_range'_1] at ha
      omega
    · exact hwide.log _ _ _ (by simp) (by simp) (by simp) fun a ha => eventRegs_onPages 0x0A 4 _ (by decide) (by simp) a ha
  next =>
    rw [hcases]
    exact ⟨hdone, fun _ => hlegal, hwide⟩

theorem exec_couchComplete (s : State) (time : Nat) (h : s.runs = true) : exec (.couchComplete time) s = done (s.finishCouch time) := by
  show execCouchComplete time s = _
  exact s.onFabric_runs _ h

theorem exec_couchComplete_written (s : State) (r : LegalRec) (time : Nat) (h : s.runs = true) (hcouching : s.mt.couching = some r)
    (htotals : s.get F.SEA_TOTALS_REQ_OUT = 0) (hsessions : s.pf.warned = true ∨ (s.se.meters = [] ∧ ∀ k, k < 12 → s.ses k = sesIdle)) :
    Ends (exec (.couchComplete time) s) fun t =>
      t.mt.couching = none ∧ t.mt.lastB = (!s.mt.lastB) ∧ (if t.mt.lastB then t.mt.copyB else t.mt.copyA) = some r
      ∧ (if t.mt.lastB then t.mt.copyA = s.mt.copyA else t.mt.copyB = s.mt.copyB)
      ∧ t.reg A.MTR_COUCH_SEQ = wordN r.seq ∧ t.reg A.MTR_COUCH_CYC = wordN r.cycle
      ∧ t.get F.MTR_COUCH_MAX_TIME = max (s.get F.MTR_COUCH_MAX_TIME) (min 0xFFFF time)
      ∧ (∀ k, k < 12 → t.reg (A.MTRK_SNAP_SEQ k) = wordN r.seq ∧ t.reg (A.MTRK_SNAP_WH_IMP k) = wordN ((r.acc k).imp / 1000)
          ∧ t.reg (A.MTRK_SNAP_WH_EXP k) = wordN ((r.acc k).exp / 1000) ∧ t.reg (A.MTRK_SNAP_NET k) = wordN ((r.acc k).net / 1000))
      ∧ (∀ k, (t.meter k).acc = (s.meter k).acc) ∧ (r.flags.testBit 0 = false → t.legal = s.legal)
      ∧ Keeps s t (onPages ([0x08, 0x0A, 0x12] ++ List.range' 0x20 12)) [2, 38] [.mt, .nv, .se, .legal] := by
  obtain ⟨⟨⟨hended, hlast, htaken, hkept, hmeter⟩, hseq, hcyc, hmax, hsnaps⟩, hlegal, hkeeps⟩ :=
    s.finishCouch_spec r time hcouching ⟨htotals, hsessions⟩
  have hsnap (k : Nat) (hk : k < 12) (a : Nat) (v : W32) (hw : (a, v) ∈ snapWords r k) : (s.finishCouch time).settle.reg a = v :=
    hsnaps k hk (a, v) hw
  refine ⟨_, exec_couchComplete s time h, hended, hlast, htaken, hkept, hseq, hcyc, hmax, fun k hk => ?_, fun k => congrArg Meter.acc (hmeter k),
    hlegal, hkeeps.settle⟩
  exact ⟨hsnap k hk _ _ (by simp [snapWords]), hsnap k hk _ _ (by simp [snapWords]), hsnap k hk _ _ (by simp [snapWords]),
    hsnap k hk _ _ (by simp [snapWords])⟩

theorem exec_couchComplete_idle (s : State) (time : Nat) (h : s.runs = true) (hcouching : s.mt.couching = none) :
    Ends (exec (.couchComplete time) s) fun t => Keeps s t (among []) [] [] := by
  have heq : s.finishCouch time = s := by rw [State.finishCouch, hcouching]
  have hexec := exec_couchComplete s time h
  rw [heq] at hexec
  exact ⟨_, hexec, (Keeps.refl s _ _ _).settle⟩

-- Metering enables (R182, R189)

/-- The code that refuses a write of MTR[k].CTRL.ENABLE, if any. -/
def State.mtrkCode (s : State) (k : Nat) (en : Bool) : Option Nat :=
  if en then
    firstErr [(!s.enabled 0x12 || s.get (F.MTRK_IB_IB k) == 0, 0x1E), (!s.on F.MTR_LEGAL_STAT_LEGAL_OK, 0x21), (!s.on F.CAL_STATUS_SHIM_OK, 0x35)]
  else firstErr [(s.on (F.BAYK_STATE_CLOSED k), 0x1E)]

/-- The state after a write of MTR[k].CTRL.ENABLE that nothing refuses. -/
def State.mtrkSet (s : State) (k : Nat) (en : Bool) : State :=
  if en then (if s.enabled (0x20 + k) then s else s.meterStart k)
  else if s.enabled (0x20 + k) then (s.meterStop k).sesStop k 0x07 else s

theorem State.mtrkEnable_refused (s : State) (k : Nat) (en : Bool) (c : Nat) (h : s.mtrkCode k en = some c) :
    s.mtrkEnable k en = (s.err (0x20 + k) c, some c) := by
  rw [State.mtrkCode] at h
  rw [State.mtrkEnable, h]

theorem State.mtrkEnable_taken (s : State) (k : Nat) (en : Bool) (h : s.mtrkCode k en = none) : s.mtrkEnable k en = (s.mtrkSet k en, none) := by
  rw [State.mtrkCode] at h
  rw [State.mtrkEnable, State.mtrkSet, h]
  cases en
  · simp only [Bool.false_eq_true, if_false]
    split <;> rfl
  · rfl

theorem exec_mtrEnableWrite (s : State) (req : Req) (k : Fin 12) (en : Bool) (h : s.runs = true) {u : State} {r : Option Nat}
    (hset : s.mtrkEnable k en = (u, r)) : exec (.mtrEnableWrite req k en) s = done (if r = none then u.bumpSeq (0x20 + k) else u) := by
  show execMtrEnableWrite req k en s = _
  rw [execMtrEnableWrite, s.onFabric_runs _ h, hset]

/-- A refused write records its code on the outlet's page. -/
theorem exec_mtrEnableWrite_refused (s : State) (req : Req) (k : Fin 12) (en : Bool) (c : Nat) (h : s.runs = true) (hcode : s.mtrkCode k en = some c)
    (hc : c < 65536) :
    Ends (exec (.mtrEnableWrite req k en) s) fun t => t.get (hdrErrcode (0x20 + k)) = c ∧ Keeps s t (errRegs (0x20 + k)) [] [] :=
  ⟨_, exec_mtrEnableWrite s req k en h (s.mtrkEnable_refused k en c hcode), (s.err_code _ c).trans (Nat.mod_eq_of_lt hc),
    ((Keeps.refl s _ _ _).err _ c (.inl rfl) (.inr rfl)).settle⟩

theorem exec_mtrEnableWrite_on_refused (s : State) (req : Req) (k : Fin 12) (h : s.runs = true)
    (hno : s.enabled 0x12 = false ∨ s.get (F.MTRK_IB_IB k) = 0 ∨ s.on F.MTR_LEGAL_STAT_LEGAL_OK = false ∨ s.on F.CAL_STATUS_SHIM_OK = false) :
    Ends (exec (.mtrEnableWrite req k true) s) fun t =>
      t.get (hdrErrcode (0x20 + k)) = (if s.enabled 0x12 = false ∨ s.get (F.MTRK_IB_IB k) = 0 then 0x1E
        else if s.on F.MTR_LEGAL_STAT_LEGAL_OK = false then 0x21 else 0x35)
      ∧ Keeps s t (errRegs (0x20 + k)) [] [] := by
  refine exec_mtrEnableWrite_refused s req k true _ h ?_ (by split <;> [decide; split <;> decide])
  by_cases hset : s.enabled 0x12 = false ∨ s.get (F.MTRK_IB_IB k) = 0
  · have hcheck : (!s.enabled 0x12 || s.get (F.MTRK_IB_IB k) == 0) = true := by simpa using hset
    rw [if_pos hset, State.mtrkCode, if_pos rfl, hcheck, firstErr_true]
  · have hcheck : (!s.enabled 0x12 || s.get (F.MTRK_IB_IB k) == 0) = false := by simpa using hset
    rw [if_neg hset, State.mtrkCode, if_pos rfl, hcheck, firstErr_false]
    cases hok : s.on F.MTR_LEGAL_STAT_LEGAL_OK
    · rfl
    · have hshim : s.on F.CAL_STATUS_SHIM_OK = false := by simpa [hok] using (or_assoc.mpr hno).resolve_left hset
      rw [hshim]
      rfl

theorem exec_mtrEnableWrite_off_refused (s : State) (req : Req) (k : Fin 12) (h : s.runs = true) (hclosed : s.on (F.BAYK_STATE_CLOSED k) = true) :
    Ends (exec (.mtrEnableWrite req k false) s) fun t => t.get (hdrErrcode (0x20 + k)) = 0x1E ∧ Keeps s t (errRegs (0x20 + k)) [] [] := by
  refine exec_mtrEnableWrite_refused s req k false 0x1E h ?_ (by decide)
  rw [State.mtrkCode, if_neg Bool.false_ne_true, hclosed, firstErr_true]

/-- A stop of an outlet without a session changes nothing. -/
theorem State.sesStop_idle (s : State) (k reason : Nat) (h : s.ses k = sesIdle) : s.sesStop k reason = s := by
  rw [State.sesStop]
  dsimp only
  rw [h, if_neg (by simp [sesIdle, sesStarting, sesActive]), if_neg (by decide)]

/-- The registers a metering enable may touch: the outlet's CTRL and SEQ, ESTAT and QSTAT. -/
abbrev meterRegs (k a : Nat) : Prop := among [(0x20 + k) * 4096 + 0x008, (0x20 + k) * 4096 + 0x024, A.MTRK_ESTAT k, A.MTRK_QSTAT k] a

/-- CTRL.ENABLE of the outlet's page takes a value, every phase is idle, and no cycle is valid yet. -/
def State.meterSwitch (s : State) (k v : Nat) : State :=
  ((s.put (hdrEnable (0x20 + k)) v).put (F.MTRK_ESTAT_RUNNING k) 0).put (F.MTRK_QSTAT_VALID k) 0

theorem State.meterSwitch_keeps (s : State) (k v : Nat) : Keeps s (s.meterSwitch k v) (meterRegs k) [] [] :=
  (((Keeps.refl s (meterRegs k) [] []).put (hdrEnable (0x20 + k)) v (by simp [hdrEnable])).put (F.MTRK_ESTAT_RUNNING k) 0
    (by simp [F.MTRK_ESTAT_RUNNING, A.MTRK_ESTAT])).put (F.MTRK_QSTAT_VALID k) 0 (by simp [F.MTRK_QSTAT_VALID, A.MTRK_QSTAT])

theorem State.meterSwitch_spec (s : State) (k : Nat) (b : Bool) :
    (s.meterSwitch k b.toNat).enabled (0x20 + k) = b ∧ (s.meterSwitch k b.toNat).get (F.MTRK_ESTAT_RUNNING k) = 0
      ∧ (s.meterSwitch k b.toNat).on (F.MTRK_QSTAT_VALID k) = false ∧ (s.meterSwitch k b.toNat).get (hdrSeq (0x20 + k)) = s.get (hdrSeq (0x20 + k)) := by
  have hctrl : (hdrEnable (0x20 + k)).addr ≠ (F.MTRK_QSTAT_VALID k).addr ∧ (hdrEnable (0x20 + k)).addr ≠ (F.MTRK_ESTAT_RUNNING k).addr
      ∧ (F.MTRK_ESTAT_RUNNING k).addr ≠ (F.MTRK_QSTAT_VALID k).addr := by
    simp only [hdrEnable, F.MTRK_QSTAT_VALID, F.MTRK_ESTAT_RUNNING]
    omega
  have hseq : (hdrSeq (0x20 + k)).addr ≠ (F.MTRK_QSTAT_VALID k).addr ∧ (hdrSeq (0x20 + k)).addr ≠ (F.MTRK_ESTAT_RUNNING k).addr
      ∧ (hdrSeq (0x20 + k)).addr ≠ (hdrEnable (0x20 + k)).addr := by
    simp only [hdrEnable, hdrSeq, F.MTRK_QSTAT_VALID, F.MTRK_ESTAT_RUNNING]
    omega
  obtain ⟨hcq, hce, heq⟩ := hctrl
  obtain ⟨hsq, hse, hsc⟩ := hseq
  refine ⟨?_, ?_, State.put_on_bool _ (F.MTRK_QSTAT_VALID k) false rfl (show 0 + 1 ≤ 32 by decide), ?_⟩
  · rw [State.enabled, State.meterSwitch, State.put_on_other _ _ _ _ hcq, State.put_on_other _ _ _ _ hce]
    exact State.put_on_bool s (hdrEnable (0x20 + k)) b rfl (show 0 + 1 ≤ 32 by decide)
  · rw [State.meterSwitch, State.put_get_other _ _ _ _ heq, State.put_get_same _ _ _ (show 0 + 3 ≤ 32 by decide)]
    exact Nat.zero_mod _
  · rw [State.meterSwitch, State.put_get_other _ _ _ _ hsq, State.put_get_other _ _ _ _ hse, State.put_get_other _ _ _ _ hsc]

/-- SEQ counts a write that was taken; CTRL, ESTAT and QSTAT are apart from it. -/
theorem State.bumpSeq_meter (s : State) (k : Nat) :
    (s.bumpSeq (0x20 + k)).enabled (0x20 + k) = s.enabled (0x20 + k)
      ∧ (s.bumpSeq (0x20 + k)).get (F.MTRK_ESTAT_RUNNING k) = s.get (F.MTRK_ESTAT_RUNNING k)
      ∧ (s.bumpSeq (0x20 + k)).on (F.MTRK_QSTAT_VALID k) = s.on (F.MTRK_QSTAT_VALID k) := by
  have hapart : (hdrEnable (0x20 + k)).addr ≠ (hdrSeq (0x20 + k)).addr ∧ (F.MTRK_ESTAT_RUNNING k).addr ≠ (hdrSeq (0x20 + k)).addr
      ∧ (F.MTRK_QSTAT_VALID k).addr ≠ (hdrSeq (0x20 + k)).addr := by
    simp only [hdrEnable, hdrSeq, F.MTRK_QSTAT_VALID, F.MTRK_ESTAT_RUNNING]
    omega
  obtain ⟨henable, hrun, hvalid⟩ := hapart
  exact ⟨State.put_on_other _ _ _ _ henable, State.put_get_other _ _ _ _ hrun, State.put_on_other _ _ _ _ hvalid⟩

theorem exec_mtrEnableWrite_started (s : State) (req : Req) (k : Fin 12) (h : s.runs = true) (hmtr : s.enabled 0x12 = true)
    (hib : s.get (F.MTRK_IB_IB k) ≠ 0) (hok : s.on F.MTR_LEGAL_STAT_LEGAL_OK = true) (hshim : s.on F.CAL_STATUS_SHIM_OK = true)
    (hoff : s.enabled (0x20 + k) = false) :
    Ends (exec (.mtrEnableWrite req k true) s) fun t =>
      t.enabled (0x20 + k) = true ∧ t.get (F.MTRK_ESTAT_RUNNING k) = 0 ∧ t.on (F.MTRK_QSTAT_VALID k) = false ∧ (t.meter k).waitCycle = true
      ∧ (t.meter k).acc = (s.meter k).acc ∧ (∀ j, j ≠ k.val → t.meter j = s.meter j)
      ∧ t.get (hdrSeq (0x20 + k)) = (s.get (hdrSeq (0x20 + k)) + 1) % 2 ^ 32
      ∧ Keeps s t (among [(0x20 + k) * 4096 + 0x008, (0x20 + k) * 4096 + 0x024, A.MTRK_ESTAT k, A.MTRK_QSTAT k]) [] [.mt] := by
  let u := s.meterStart k
  have hcode : s.mtrkCode k true = none := by simp [State.mtrkCode, hmtr, hib, hok, hshim, firstErr]
  have hset : s.mtrkSet k true = u := by rw [State.mtrkSet, if_pos rfl, hoff]; rfl
  have hexec := exec_mtrEnableWrite s req k true h (s.mtrkEnable_taken k true hcode)
  rw [hset, if_pos rfl] at hexec
  obtain ⟨henabled, hidle, hvalid, hseq⟩ := s.meterSwitch_spec k true
  obtain ⟨hctrl, hestat, hqstat⟩ := u.bumpSeq_meter k
  have hmeter (j : Nat) : (u.bumpSeq (0x20 + k)).settle.meter j = u.meter j := rfl
  refine ⟨_, hexec, hctrl.trans henabled, hestat.trans hidle, hqstat.trans hvalid, ?_, ?_, fun j hj => ?_, ?_, Keeps.settle ?_⟩
  · exact congrArg Meter.waitCycle (State.setMeter_meter_same _ k _)
  · exact State.setMeter_acc _ k _ (by rfl) k
  · exact (hmeter j).trans (State.setMeter_meter_other _ j k _ hj)
  · exact (u.bumpSeq_get_seq _).trans (congrArg (fun n => (n + 1) % 2 ^ 32) hseq)
  · have hu : Keeps s u (meterRegs k) [] [.mt] :=
      (((s.meterSwitch_keeps k 1).mono (fun _ h => h) (by simp) (by simp)).setSlot k _ (by simp)).setMeter k _ (by simp)
    exact hu.bumpSeq (0x20 + k) (by simp)

theorem exec_mtrEnableWrite_stopped (s : State) (req : Req) (k : Fin 12) (h : s.runs = true) (hopen : s.on (F.BAYK_STATE_CLOSED k) = false)
    (hses : s.ses k = sesIdle) :
    Ends (exec (.mtrEnableWrite req k false) s) fun t =>
      t.enabled (0x20 + k) = false ∧ (s.enabled (0x20 + k) = true → t.get (F.MTRK_ESTAT_RUNNING k) = 0 ∧ t.on (F.MTRK_QSTAT_VALID k) = false)
      ∧ Keeps s t (among [(0x20 + k) * 4096 + 0x008, (0x20 + k) * 4096 + 0x024, A.MTRK_ESTAT k, A.MTRK_QSTAT k]) [] [] := by
  have hcode : s.mtrkCode k false = none := by simp [State.mtrkCode, hopen, firstErr]
  have hexec := exec_mtrEnableWrite s req k false h (s.mtrkEnable_taken k false hcode)
  rw [if_pos rfl] at hexec
  cases hon : s.enabled (0x20 + k) with
  | false =>
    have hset : s.mtrkSet k false = s := by rw [State.mtrkSet, if_neg Bool.false_ne_true, hon]; rfl
    rw [hset] at hexec
    exact ⟨_, hexec, (s.bumpSeq_meter k).1.trans hon, fun hne => absurd hne Bool.false_ne_true,
      ((Keeps.refl s (meterRegs k) [] []).bumpSeq (0x20 + k) (by simp)).settle⟩
  | true =>
    let u := s.meterSwitch k 0
    have hidle : u.ses k = sesIdle := by
      refine ((s.meterSwitch_keeps k 0).get (F.SES_OUT_STAT_STATE k) ?_).trans hses
      have hk := k.isLt
      simp only [F.SES_OUT_STAT_STATE, A.MTRK_ESTAT, A.MTRK_QSTAT, List.mem_cons, List.not_mem_nil, or_false]
      omega
    have hset : s.mtrkSet k false = u := by
      rw [State.mtrkSet, if_neg Bool.false_ne_true, hon]
      exact u.sesStop_idle k 0x07 hidle
    rw [hset] at hexec
    obtain ⟨henabled, hrun, hvalid, -⟩ := s.meterSwitch_spec k false
    obtain ⟨hctrl, hestat, hqstat⟩ := u.bumpSeq_meter k
    exact ⟨_, hexec, hctrl.trans henabled, fun _ => ⟨hestat.trans hrun, hqstat.trans hvalid⟩,
      ((s.meterSwitch_keeps k 0).bumpSeq (0x20 + k) (by simp)).settle⟩

/-- Settles O18, clause by clause. -/
theorem couchesAndMeterEnables : Obligations.CouchesAndMeterEnables :=
  ⟨exec_couchComplete_written, exec_couchComplete_idle, exec_mtrEnableWrite_started, exec_mtrEnableWrite_on_refused,
    exec_mtrEnableWrite_off_refused, exec_mtrEnableWrite_stopped⟩

end Sys2Proof.Machine

/-! The accumulators take a batch's sums (O15). -/
namespace Sys2Proof.Machine

-- The quadrants (R185)

theorem addQ_getElem? (l : List Nat) (i v j : Nat) : (addQ l i v)[j]? = l[j]?.map fun x => if j = i then (x + v) % 2 ^ 64 else x := by
  rw [addQ, List.getElem?_mapIdx]

/-- The quadrant of the signs takes the amount. -/
theorem addQ_getD_same (l : List Nat) (i v : Nat) (h : i < l.length) : (addQ l i v).getD i 0 = (l.getD i 0 + v) % 2 ^ 64 := by
  simp only [List.getD_eq_getElem?_getD, addQ_getElem?, List.getElem?_eq_getElem h, Option.map_some, Option.getD_some, if_true]

/-- No other quadrant moves. -/
theorem addQ_getD_other (l : List Nat) (i v j : Nat) (h : j ≠ i) : (addQ l i v).getD j 0 = l.getD j 0 := by
  simp only [List.getD_eq_getElem?_getD, addQ_getElem?, if_neg h, Option.map_id']

theorem addQ_getD (l : List Nat) (i v j : Nat) (h : j < l.length) :
    (addQ l i v).getD j 0 = if j = i then (l.getD j 0 + v) % 2 ^ 64 else l.getD j 0 := by
  split
  next heq => exact heq ▸ addQ_getD_same l j v h
  next hne => exact addQ_getD_other l i v j hne

theorem Accs.add_vah_other (a : Accs) (dp dq ds : Int) (i : Nat) (h : i ≠ quadrant dp dq) : (a.add dp dq ds).vah.getD i 0 = a.vah.getD i 0 := by
  by_cases hds : 0 ≤ ds
  · exact (congrArg (List.getD · i 0) (if_pos hds)).trans (addQ_getD_other _ _ _ _ h)
  · exact congrArg (List.getD · i 0) (if_neg hds)

theorem Accs.add_quadrants (a : Accs) (dp dq ds : Int) (hwh : a.wh.length = 4) (hvarh : a.varh.length = 4) (_ : a.vah.length = 4) :
    let b := a.add dp dq ds
    (∀ i, i < 4 → b.wh.getD i 0 = if i = quadrant dp dq then (a.wh.getD i 0 + dp.natAbs) % 2 ^ 64 else a.wh.getD i 0)
    ∧ (∀ i, i < 4 → b.varh.getD i 0 = if i = quadrant dp dq then (a.varh.getD i 0 + dq.natAbs) % 2 ^ 64 else a.varh.getD i 0)
    ∧ (∀ i, i ≠ quadrant dp dq → b.vah.getD i 0 = a.vah.getD i 0) :=
  ⟨fun i hi => addQ_getD a.wh _ _ i (hwh.symm ▸ hi), fun i hi => addQ_getD a.varh _ _ i (hvarh.symm ▸ hi), a.add_vah_other dp dq ds⟩

-- NET and DEBT (R187)

/-- An import first pays DEBT back, and NET takes what is left of it. -/
theorem Accs.add_import (a : Accs) (dp dq ds : Int) (h : 0 ≤ dp) :
    (a.add dp dq ds).debt = a.debt - min a.debt dp.toNat ∧ (a.add dp dq ds).net = (a.net + (dp.toNat - min a.debt dp.toNat)) % 2 ^ 64 :=
  ⟨if_pos h, if_pos h⟩

/-- An export goes to DEBT. -/
theorem Accs.add_export (a : Accs) (dp dq ds : Int) (h : dp < 0) :
    (a.add dp dq ds).debt = (a.debt + dp.natAbs) % 2 ^ 64 ∧ (a.add dp dq ds).net = a.net :=
  ⟨if_neg (Int.not_le.mpr h), if_neg (Int.not_le.mpr h)⟩

theorem Accs.add_net_sub_debt (a : Accs) (dp dq ds : Int) (_ : a.net < 2 ^ 64) (_ : a.debt < 2 ^ 64) :
    (((a.add dp dq ds).net : Int) - (a.add dp dq ds).debt) % 2 ^ 64 = ((a.net : Int) - a.debt + dp) % 2 ^ 64 := by
  by_cases h : 0 ≤ dp
  · obtain ⟨hdebt, hnet⟩ := a.add_import dp dq ds h
    rw [hdebt, hnet]
    omega
  · obtain ⟨hdebt, hnet⟩ := a.add_export dp dq ds (Int.not_le.mp h)
    rw [hdebt, hnet]
    omega

theorem Accs.add_net_export (a : Accs) (dp dq ds : Int) (h : dp < 0) : (a.add dp dq ds).net = a.net := (a.add_export dp dq ds h).2

theorem Accs.add_net_paid (a : Accs) (dp dq ds : Int) (h : 0 ≤ dp) (_ : a.debt ≠ 0) (hnet : a.net < 2 ^ 64) (hpaid : dp.toNat ≤ a.debt) :
    (a.add dp dq ds).net = a.net := by
  rw [(a.add_import dp dq ds h).2, Nat.min_eq_right hpaid, Nat.sub_self]
  exact Nat.mod_eq_of_lt hnet

/-- Settles O15, clause by clause. -/
theorem totalsFollowTheSignedSums : Obligations.TotalsFollowTheSignedSums :=
  ⟨Accs.add_quadrants, Accs.add_net_sub_debt, Accs.add_net_export, Accs.add_net_paid⟩

end Sys2Proof.Machine

/-! A power-fail warning that does not keep its hold: a staged record names an outlet the device does not have (O19). -/
namespace Sys2Proof.Machine

/-- A START record for outlet 13, signed and not queued yet (R353). The device has outlets 0 to 11. -/
def strayRecord : Staged :=
  { bytes := [], mark := 1, req := { body := [2], ring := 37, outlet := 13, ref := none }, queued := false, delivered := false }

/-- The record's append is the flash job in hand, its session is ACTIVE and holds a stop cause until the record is queued, and its outlet is
in CLOSING. -/
def strayState : State :=
  let s : State := { State.reset with
    pf := { armed := true }
    nv := { jobs := [{ kind := .signed 1 0 0 0, ref := none, steps := [] }] }
    se := { staged := some strayRecord, sessions := [(13, { held := some 0 })] } }
  ((s.put (F.SES_OUT_STAT_STATE 13) sesActive).put (F.BAYK_STATE_AUTHORISED 13) 1).put (F.BAYK_STATE_CODE 13) stClosing

/-- The warning shows its hold, then fails the append: the record is queued, the held stop cause is acted on, and outlet 13 enters OPENING. The
page-wide copy of its STATE, byte 13 % 4 of A.BAY_STATE (13 / 4), is bits 8 to 15 of HW_HOLD, and 0x69 has bit 12, PF, clear. -/
theorem strayState_warning_clears_hold : strayState.wakeUp.powerWarn.get F.BAY_HW_HOLD_PF = 0 := by decide +kernel

/-- Refutes O19 by its first clause: `strayState` is armed, not warned and not halted, and after the warning HW_HOLD.PF reads 0. The clause speaks
of every state and does not keep the outlet of a staged record below 12. -/
theorem not_powerFailure : ¬ Obligations.PowerFailure := by
  unfold Obligations.PowerFailure
  intro h
  obtain ⟨hwarning, -⟩ := h
  obtain ⟨t, hexec, -, -, hhold, -⟩ := hwarning strayState rfl rfl rfl
  have hrun : exec .powerFailWarning strayState = done strayState.wakeUp.powerWarn := rfl
  have ht : t = strayState.wakeUp.powerWarn.settle := Host.Outcome.next.inj (hexec.symm.trans hrun)
  rw [ht, State.settle_get, strayState_warning_clears_hold] at hhold
  exact Nat.zero_ne_one hhold

end Sys2Proof.Machine

/-! The end of a jig operation: its status, its interrupt and its report on ring 48 (O38). -/
namespace Sys2Proof.Machine

-- An occurrence at CAL with its report (R45, R249)

/-- Condition `b` of CAL occurs and a report of type `typ` goes to ring 48. -/
def State.tellCal (s : State) (b typ : Nat) (bytes : List Byte) : State := (s.irq 0x13 b).report typ bytes

theorem State.tellCal_keeps (s : State) (b typ : Nat) (bytes : List Byte) : Keeps s (s.tellCal b typ bytes) (eventRegs 0x13 b) [48] [] :=
  ((Keeps.refl s _ _ _).irq 0x13 b (.inl (.inl rfl)) (.inl (.inr rfl))).emit 48 _ _ _ _ (by simp) fun _ ha => .inr ha

theorem State.tellCal_cal (s : State) (b typ : Nat) (bytes : List Byte) : (s.tellCal b typ bytes).cal = s.cal :=
  (s.tellCal_keeps b typ bytes).parts .cal (by simp)

theorem hdrPend_cal_not_lost (b : Nat) : ¬ lostRegs (hdrPend 0x13 b).addr := by simp [hdrPend]

theorem State.tellCal_pend (s : State) {b : Nat} (typ : Nat) (bytes : List Byte) (hb : b < 32) :
    (s.tellCal b typ bytes).get (hdrPend 0x13 b) = 1 :=
  (State.emit_get _ _ _ _ _ _ _ (hdrPend_cal_not_lost b)).trans (s.irq_pend 0x13 b hb)

/-- The other bits of CAL's IRQ_PEND stay. -/
theorem State.tellCal_pend_apart (s : State) {b c : Nat} (typ : Nat) (bytes : List Byte) (hb : b < 32) (hc : c ≠ b) :
    (s.tellCal b typ bytes).get (hdrPend 0x13 c) = s.get (hdrPend 0x13 c) := by
  rw [State.tellCal, State.report, State.emit_get _ _ _ _ _ _ _ (hdrPend_cal_not_lost c), State.irq, State.incSat,
    State.put_get_other _ _ _ _ (by simp only [hdrPend, hdrEvcnt]; omega),
    State.put_get_apart _ _ _ _ (by simp only [hdrPend]; omega) (by simp only [hdrPend]; omega)]

-- What an ended operation shows (R233)

/-- No operation runs; JIG_STAT shows whether it succeeded and the cycles it used. -/
def State.showJigEnd (s : State) (code used : Nat) : State :=
  (({ s with cal := { s.cal with jigOp := none } }.put F.CAL_JIG_STAT_BUSY 0).put F.CAL_JIG_STAT_OK (decide (code = 0)).toNat).put
    F.CAL_JIG_STAT_USED (min used 0xFFFF)

/-- The same, with the error recorded where the operation has one. -/
def State.jigVerdict (s : State) (code used : Nat) : State :=
  if decide (code = 0) then s.showJigEnd code used else (s.showJigEnd code used).err 0x13 code

theorem State.jigEnd_eq (s : State) (op ch code used : Nat) :
    ∃ bytes, s.jigEnd op ch code used = (s.jigVerdict code used).tellCal 4 0x05 bytes := ⟨_, rfl⟩

theorem State.jigVerdict_cal (s : State) (code used : Nat) : (s.jigVerdict code used).cal = { s.cal with jigOp := none } := by
  unfold State.jigVerdict
  split <;> rfl

/-- An error's record leaves the block's registers as `showJigEnd` wrote them. -/
theorem State.jigVerdict_get_block (s : State) (code used : Nat) (f : Fld) (hf : 0x100 ≤ f.addr % 4096) :
    (s.jigVerdict code used).get f = (s.showJigEnd code used).get f := by
  unfold State.jigVerdict
  split
  · rfl
  · exact State.err_get_block _ _ _ _ hf

theorem State.showJigEnd_stat (s : State) (code used : Nat) :
    (s.showJigEnd code used).on F.CAL_JIG_STAT_BUSY = false ∧ (s.showJigEnd code used).on F.CAL_JIG_STAT_OK = decide (code = 0)
      ∧ (s.showJigEnd code used).get F.CAL_JIG_STAT_USED = min used 0xFFFF := by
  refine ⟨?_, ?_, ?_⟩
  · rw [State.showJigEnd, State.put_on_apart _ _ _ _ (by decide) (by decide), State.put_on_apart _ _ _ _ (by decide) (by decide)]
    exact State.put_on_bool _ F.CAL_JIG_STAT_BUSY false rfl (by decide)
  · rw [State.showJigEnd, State.put_on_apart _ _ _ _ (by decide) (by decide)]
    exact State.put_on_bool _ F.CAL_JIG_STAT_OK _ rfl (by decide)
  · rw [State.showJigEnd, State.put_get_same _ _ _ (by decide)]
    exact Nat.mod_eq_of_lt (Nat.lt_succ_of_le (Nat.min_le_right _ _))

/-- The registers that the end of a jig operation touches: JIG_STAT, an error's record, and those of condition 4. -/
abbrev jigEndRegs (a : Nat) : Prop := a = A.CAL_JIG_STAT ∨ errRegs 0x13 a ∨ eventRegs 0x13 4 a

theorem State.jigVerdict_keeps (s : State) (code used : Nat) :
    Keeps s (s.jigVerdict code used) (fun a => a = A.CAL_JIG_STAT ∨ errRegs 0x13 a) [] [.cal] := by
  have hshow : Keeps s (s.showJigEnd code used) (fun a => a = A.CAL_JIG_STAT ∨ errRegs 0x13 a) [] [.cal] :=
    ((((Keeps.refl s _ _ _).withCal _ (by simp)).put F.CAL_JIG_STAT_BUSY _ (.inl rfl)).put F.CAL_JIG_STAT_OK _ (.inl rfl)).put
      F.CAL_JIG_STAT_USED _ (.inl rfl)
  exact Keeps.ite hshow (hshow.err 0x13 code (by decide) (by decide))

theorem State.jigEnd_keeps (s : State) (op ch code used : Nat) : Keeps s (s.jigEnd op ch code used) jigEndRegs [48] [.cal] := by
  obtain ⟨bytes, heq⟩ := s.jigEnd_eq op ch code used
  rw [heq]
  exact ((s.jigVerdict_keeps code used).mono (fun _ ha => ha.imp_right .inl) (by simp) fun _ hp => hp).trans
    ((State.tellCal_keeps _ 4 5 bytes).mono (fun _ ha => .inr (.inr ha)) (fun _ he => he) (by simp))

theorem State.jigEnd_cal (s : State) (op ch code used : Nat) : (s.jigEnd op ch code used).cal = { s.cal with jigOp := none } := by
  obtain ⟨bytes, heq⟩ := s.jigEnd_eq op ch code used
  rw [heq, State.tellCal_cal, State.jigVerdict_cal]

theorem State.jigEnd_get_block (s : State) (op ch code used : Nat) (f : Fld) (hf : 0x100 ≤ f.addr % 4096) :
    (s.jigEnd op ch code used).get f = (s.showJigEnd code used).get f := by
  obtain ⟨bytes, heq⟩ := s.jigEnd_eq op ch code used
  rw [heq, (State.tellCal_keeps _ 4 5 bytes).get f (by simp only [eventRegs, irqRegs, lostRegs]; omega), State.jigVerdict_get_block s code used f hf]

theorem State.jigEnd_stat (s : State) (op ch code used : Nat) :
    (s.jigEnd op ch code used).on F.CAL_JIG_STAT_BUSY = false ∧ (s.jigEnd op ch code used).on F.CAL_JIG_STAT_OK = decide (code = 0)
      ∧ (s.jigEnd op ch code used).get F.CAL_JIG_STAT_USED = min used 0xFFFF := by
  simp only [State.on, s.jigEnd_get_block op ch code used F.CAL_JIG_STAT_BUSY (by decide),
    s.jigEnd_get_block op ch code used F.CAL_JIG_STAT_OK (by decide), s.jigEnd_get_block op ch code used F.CAL_JIG_STAT_USED (by decide)]
  exact s.showJigEnd_stat code used

theorem State.jigEnd_pend (s : State) (op ch code used : Nat) : (s.jigEnd op ch code used).get (hdrPend 0x13 4) = 1 := by
  obtain ⟨bytes, heq⟩ := s.jigEnd_eq op ch code used
  rw [heq, State.tellCal_pend _ _ _ (by decide)]

/-- The end of an operation leaves the other conditions of CAL as they were. -/
theorem State.jigEnd_pend_apart (s : State) (op ch code used : Nat) {c : Nat} (hc : c ≠ 4) :
    (s.jigEnd op ch code used).get (hdrPend 0x13 c) = s.get (hdrPend 0x13 c) := by
  obtain ⟨bytes, heq⟩ := s.jigEnd_eq op ch code used
  rw [heq, State.tellCal_pend_apart _ _ _ (by decide) hc, (s.jigVerdict_keeps code used).get _ (by simp [hdrPend, A.CAL_JIG_STAT])]

theorem State.jigEnd_code (s : State) (op ch code used : Nat) (h : code ≠ 0) :
    (s.jigEnd op ch code used).get (hdrErrcode 0x13) = code % 65536 := by
  obtain ⟨bytes, heq⟩ := s.jigEnd_eq op ch code used
  rw [heq, (State.tellCal_keeps _ 4 5 bytes).get _ (by decide), State.jigVerdict, if_neg (by simpa using h), State.err_code]

end Sys2Proof.Machine

/-! The result of a timed jig operation (O38). -/
namespace Sys2Proof.Machine

-- The pending set (R231)

theorem State.setPend_pendWord (s : State) (i j : Nat) (v : W32) : (s.setPend i v).pendWord j = if j = i then v else s.pendWord j :=
  spRead_spWrite shimFactory s.cal.pend i j v

@[simp] theorem State.showDirty_pendWord (s : State) (j : Nat) : s.showDirty.pendWord j = s.pendWord j := rfl

theorem State.jigEnd_pendWord (s : State) (op ch code used j : Nat) : (s.jigEnd op ch code used).pendWord j = s.pendWord j := by
  rw [State.pendWord, State.jigEnd_cal, State.pendWord]

theorem shimChan_word_inj {c b w w' : Nat} (h : w ≠ w') : shimChan c b w ≠ shimChan c b w' := fun heq => h (Nat.add_left_cancel heq)

theorem wordI_toInt (m : Int) (h : m.natAbs < 2 ^ 31) : (wordI m).toInt = m :=
  BitVec.toInt_ofInt_eq_self (by decide) (by omega) (by omega)

-- The result (R232, R233)

/-- The words of a result within R223's limits enter the pending set; but for REF the channel's entry is marked CALIBRATED. -/
def State.storeJig (s : State) (o : JigOp) (words : List (Nat × W32)) : State :=
  let u := words.foldl (fun s p => s.setPend p.1 p.2) s
  (if o.op = 4 then u else u.setPend (shimChan o.ch (u.get F.CAL_JIG_STAT_BAND) 3) 1).showDirty

/-- An operation whose cycles are gathered ends: JIG_RESULT, and the words or the error that they are out of range. -/
def State.finishJig (s : State) (o : JigOp) : State :=
  let u := s.setReg A.CAL_JIG_RESULT (wordI (s.jigResult o).2)
  if jigWordsOk o.op (s.jigResult o).1 then (u.storeJig o (s.jigResult o).1).jigEnd o.op o.ch 0 o.gathered
  else u.jigEnd o.op o.ch 0x33 o.gathered

theorem exec_jigOpComplete (s : State) (o : JigOp) (h : s.runs = true) (hop : s.cal.jigOp = some o) :
    exec .jigOpComplete s =
      if o.gathered < o.cycles ∧ o.elapsed < 4 * o.cycles then done s
      else if s.band ≠ s.get F.CAL_JIG_STAT_BAND then done (s.jigEnd o.op o.ch 0x31 o.gathered)
      else if o.gathered < o.cycles then done (s.jigEnd o.op o.ch 0x32 o.gathered)
      else done (s.finishJig o) := by
  have hexec : exec .jigOpComplete s = execJigOpComplete s := rfl
  rw [hexec, execJigOpComplete, State.onFabric_runs _ _ h]
  simp only [hop, State.finishJig, State.storeJig, apply_ite done]

/-- What an operation's end shows, and the registers, ring and part it may touch. -/
def JigEnded (s t : State) : Prop :=
  t.cal.jigOp = none ∧ t.on F.CAL_JIG_STAT_BUSY = false ∧ t.get (hdrPend 0x13 4) = 1
    ∧ Keeps s t (fun a => a ∈ [A.CAL_JIG_STAT, A.CAL_JIG_RESULT, F.CAL_STATUS_JIG.addr] ∨ errRegs 0x13 a ∨ eventRegs 0x13 4 a) [48] [.cal]

theorem JigEnded.settle {s t : State} (h : JigEnded s t) : JigEnded s t.settle := by
  obtain ⟨hop, hbusy, hpend, hkeep⟩ := h
  exact ⟨hop, hbusy, hpend, hkeep.settle⟩

/-- An operation ends after its result has been written. -/
theorem State.jigEnd_ended {s u : State} (op ch code used : Nat)
    (h : Keeps s u (fun a => a = A.CAL_JIG_RESULT ∨ a = F.CAL_STATUS_JIG.addr) [] [.cal]) : JigEnded s (u.jigEnd op ch code used) := by
  refine ⟨by rw [State.jigEnd_cal], (u.jigEnd_stat op ch code used).1, u.jigEnd_pend op ch code used, ?_⟩
  refine (h.mono ?_ (by simp) fun _ hp => hp).trans ((u.jigEnd_keeps op ch code used).mono ?_ (fun _ he => he) fun _ hp => hp)
  · rintro a (rfl | rfl) <;> simp
  · rintro a (rfl | ha)
    · simp
    · exact .inr ha

theorem State.storeJig_keeps (s : State) (o : JigOp) (words : List (Nat × W32)) :
    Keeps s (s.storeJig o words) (fun a => a = F.CAL_STATUS_JIG.addr) [] [.cal] := by
  have hwords : Keeps s (words.foldl (fun s p => s.setPend p.1 p.2) s) (fun a => a = F.CAL_STATUS_JIG.addr) [] [.cal] :=
    Keeps.foldl _ (fun _ _ hu => hu.withCal _ (by simp)) _ _ (Keeps.refl s _ _ _)
  exact (Keeps.ite hwords (hwords.withCal _ (by simp))).put F.CAL_STATUS_PENDING_DIRTY _ rfl

theorem State.finishJig_accepted (s : State) (o : JigOp) (h : jigWordsOk o.op (s.jigResult o).1 = true) :
    s.finishJig o = ((s.setReg A.CAL_JIG_RESULT (wordI (s.jigResult o).2)).storeJig o (s.jigResult o).1).jigEnd o.op o.ch 0 o.gathered := if_pos h

theorem State.finishJig_refused (s : State) (o : JigOp) (h : jigWordsOk o.op (s.jigResult o).1 = false) :
    s.finishJig o = (s.setReg A.CAL_JIG_RESULT (wordI (s.jigResult o).2)).jigEnd o.op o.ch 0x33 o.gathered := if_neg (by simp [h])

theorem State.finishJig_spec (s : State) (o : JigOp) :
    JigEnded s (s.finishJig o) ∧ (s.finishJig o).reg A.CAL_JIG_RESULT = wordI (s.jigResult o).2
      ∧ (s.finishJig o).get F.CAL_JIG_STAT_USED = min o.gathered 0xFFFF
      ∧ (s.finishJig o).on F.CAL_JIG_STAT_OK = jigWordsOk o.op (s.jigResult o).1 := by
  let u := s.setReg A.CAL_JIG_RESULT (wordI (s.jigResult o).2)
  have hu : Keeps s u (fun a => a = A.CAL_JIG_RESULT ∨ a = F.CAL_STATUS_JIG.addr) [] [.cal] := (Keeps.refl s _ _ _).setReg _ _ (.inl rfl)
  have hres : u.reg A.CAL_JIG_RESULT = wordI (s.jigResult o).2 := s.setReg_reg_same _ _
  cases hok : jigWordsOk o.op (s.jigResult o).1 with
  | true =>
    have hstore := u.storeJig_keeps o (s.jigResult o).1
    obtain ⟨-, hstat, hused⟩ := (u.storeJig o (s.jigResult o).1).jigEnd_stat o.op o.ch 0 o.gathered
    rw [s.finishJig_accepted o hok]
    refine ⟨State.jigEnd_ended _ _ _ _ (hu.trans (hstore.mono (fun _ ha => .inr ha) (fun _ he => he) fun _ hp => hp)), ?_, hused, hstat⟩
    rw [(State.jigEnd_keeps _ _ _ _ _).regs _ (by decide), hstore.regs _ (by decide), hres]
  | false =>
    obtain ⟨-, hstat, hused⟩ := u.jigEnd_stat o.op o.ch 0x33 o.gathered
    rw [s.finishJig_refused o hok]
    exact ⟨State.jigEnd_ended _ _ _ _ hu, by rw [(State.jigEnd_keeps _ _ _ _ _).regs _ (by decide), hres], hused, hstat⟩

/-- Words outside R223's limits are an error and leave the pending set as it is. -/
theorem State.finishJig_refused_spec (s : State) (o : JigOp) (h : jigWordsOk o.op (s.jigResult o).1 = false) :
    (s.finishJig o).get (hdrErrcode 0x13) = 0x33 ∧ (s.finishJig o).cal.pend = s.cal.pend := by
  rw [s.finishJig_refused o h, State.jigEnd_cal]
  exact ⟨State.jigEnd_code _ _ _ _ _ (by decide), rfl⟩

theorem exec_jigOpComplete_gathered (s : State) (o : JigOp) (h : s.runs = true) (hop : s.cal.jigOp = some o) (hall : o.cycles ≤ o.gathered)
    (hband : s.band = s.get F.CAL_JIG_STAT_BAND) : exec .jigOpComplete s = done (s.finishJig o) := by
  rw [exec_jigOpComplete s o h hop, if_neg (fun hw => Nat.not_lt.mpr hall hw.1), if_neg (not_not.mpr hband), if_neg (Nat.not_lt.mpr hall)]

theorem exec_jigOpComplete_result (s : State) (o : JigOp) (words : List (Nat × W32)) (res : Int) (h : s.runs = true)
    (hop : s.cal.jigOp = some o) (hall : o.cycles ≤ o.gathered) (hband : s.band = s.get F.CAL_JIG_STAT_BAND) (hres : s.jigResult o = (words, res)) :
    Ends (exec .jigOpComplete s) fun t =>
      JigEnded s t ∧ t.reg A.CAL_JIG_RESULT = wordI res ∧ t.on F.CAL_JIG_STAT_OK = jigWordsOk o.op words
      ∧ (jigWordsOk o.op words = false → t.get (hdrErrcode 0x13) = 0x33 ∧ t.cal.pend = s.cal.pend) := by
  obtain ⟨hended, hresult, -, hok⟩ := s.finishJig_spec o
  have hrefused := s.finishJig_refused_spec o
  rw [hres] at hresult hok hrefused
  exact ⟨_, exec_jigOpComplete_gathered s o h hop hall hband, hended.settle, hresult, hok, hrefused⟩

-- OFFSET: the mean of the gathered samples (R232; log entry 29 has the rounding)

theorem State.jigResult_offset (s : State) (o : JigOp) (h : o.op = 1) :
    s.jigResult o = ([(shimChan o.ch (s.get F.CAL_JIG_STAT_BAND) 0, wordI (divEven o.sx (o.n * 2 ^ 30)))], divEven o.sx (o.n * 2 ^ 30)) := by
  simp only [State.jigResult, h, if_true]

/-- An OFFSET word is within R223's limit exactly when the mean it holds is. -/
theorem jigWordsOk_offset (i : Nat) (m : Int) (h : m.natAbs < 2 ^ 31) : jigWordsOk 1 [(i, wordI m)] = decide (m.natAbs ≤ 335544) := by
  simp [jigWordsOk, shimOk, wordI_toInt m h]

/-- One accepted word is in the pending set with its entry's CALIBRATED, and the other words of the set stay. -/
theorem State.storeJig_word (s : State) (o : JigOp) (i : Nat) (v : W32) (h : o.op ≠ 4) (j : Nat) :
    (s.storeJig o [(i, v)]).pendWord j =
      if j = shimChan o.ch (s.get F.CAL_JIG_STAT_BAND) 3 then 1 else if j = i then v else s.pendWord j := by
  have hstore : s.storeJig o [(i, v)] = ((s.setPend i v).setPend (shimChan o.ch (s.get F.CAL_JIG_STAT_BAND) 3) 1).showDirty := by
    simp only [State.storeJig, List.foldl_cons, List.foldl_nil, if_neg h]
    rfl
  rw [hstore, State.showDirty_pendWord, State.setPend_pendWord, State.setPend_pendWord]

theorem State.finishJig_offset (s : State) (o : JigOp) (hop : o.op = 1) (hm : (divEven o.sx (o.n * 2 ^ 30)).natAbs ≤ 335544) (j : Nat) :
    (s.finishJig o).pendWord j =
      if j = shimChan o.ch (s.get F.CAL_JIG_STAT_BAND) 3 then 1
      else if j = shimChan o.ch (s.get F.CAL_JIG_STAT_BAND) 0 then wordI (divEven o.sx (o.n * 2 ^ 30)) else s.pendWord j := by
  have hok : jigWordsOk o.op (s.jigResult o).1 = true := by
    rw [s.jigResult_offset o hop, hop, jigWordsOk_offset _ _ (by omega)]
    exact decide_eq_true hm
  have hres : (s.setReg A.CAL_JIG_RESULT (wordI (s.jigResult o).2)).get F.CAL_JIG_STAT_BAND = s.get F.CAL_JIG_STAT_BAND := by
    rw [State.setReg_get, if_neg (by decide)]
  rw [s.finishJig_accepted o hok, State.jigEnd_pendWord, s.jigResult_offset o hop,
    State.storeJig_word _ _ _ _ (by omega), ← s.jigResult_offset o hop, hres]
  rfl

theorem exec_jigOpComplete_offset (s : State) (o : JigOp) (h : s.runs = true) (hop : s.cal.jigOp = some o) (hall : o.cycles ≤ o.gathered)
    (hband : s.band = s.get F.CAL_JIG_STAT_BAND) (hoffset : o.op = 1) :
    let m := divEven o.sx (o.n * 2 ^ 30)
    Ends (exec .jigOpComplete s) fun t =>
      JigEnded s t ∧ t.reg A.CAL_JIG_RESULT = wordI m ∧ t.get F.CAL_JIG_STAT_USED = min o.gathered 0xFFFF
      ∧ (m.natAbs ≤ 335544 → t.on F.CAL_JIG_STAT_OK = true ∧ t.pendWord (shimChan o.ch s.band 0) = wordI m ∧ t.pendWord (shimChan o.ch s.band 3) = 1
          ∧ ∀ j, j ≠ shimChan o.ch s.band 0 → j ≠ shimChan o.ch s.band 3 → t.pendWord j = s.pendWord j)
      ∧ (335544 < m.natAbs → m.natAbs < 2 ^ 31 → t.on F.CAL_JIG_STAT_OK = false ∧ t.get (hdrErrcode 0x13) = 0x33 ∧ t.cal.pend = s.cal.pend) := by
  intro m
  obtain ⟨hended, hresult, hused, hok⟩ := s.finishJig_spec o
  have hrefused := s.finishJig_refused_spec o
  rw [s.jigResult_offset o hoffset] at hresult hok hrefused
  have hwithin (hm : m.natAbs < 2 ^ 31) : jigWordsOk o.op [(shimChan o.ch (s.get F.CAL_JIG_STAT_BAND) 0, wordI m)] = decide (m.natAbs ≤ 335544) := by
    rw [hoffset, jigWordsOk_offset _ m hm]
  refine ⟨_, exec_jigOpComplete_gathered s o h hop hall hband, hended.settle, hresult, hused, fun hm => ?_, fun hout hm => ?_⟩
  · have hpend (j : Nat) := s.finishJig_offset o hoffset hm j
    rw [← hband] at hpend
    refine ⟨hok.trans ((hwithin (by omega)).trans (decide_eq_true hm)), ?_, ?_, fun j h0 h3 => ?_⟩
    · exact (hpend _).trans (by rw [if_neg (shimChan_word_inj (by decide)), if_pos rfl])
    · exact (hpend _).trans (if_pos rfl)
    · exact (hpend j).trans (by rw [if_neg h3, if_neg h0])
  · have hbad := (hwithin hm).trans (decide_eq_false (by omega))
    exact ⟨hok.trans hbad, hrefused hbad⟩

-- Too few usable cycles (R233)

theorem exec_jigOpComplete_short (s : State) (o : JigOp) (h : s.runs = true) (hop : s.cal.jigOp = some o) (hfew : o.gathered < o.cycles)
    (hlate : 4 * o.cycles ≤ o.elapsed) :
    Ends (exec .jigOpComplete s) fun t =>
      JigEnded s t ∧ t.on F.CAL_JIG_STAT_OK = false ∧ t.cal.pend = s.cal.pend
      ∧ t.get (hdrErrcode 0x13) = (if s.band = s.get F.CAL_JIG_STAT_BAND then 0x32 else 0x31) := by
  let code := if s.band = s.get F.CAL_JIG_STAT_BAND then 0x32 else 0x31
  obtain ⟨hne, hmod⟩ : code ≠ 0 ∧ code % 65536 = code := by
    simp only [code]
    split <;> decide
  have hexec : exec .jigOpComplete s = done (s.jigEnd o.op o.ch code o.gathered) := by
    rw [exec_jigOpComplete s o h hop, if_neg (fun hw => Nat.not_lt.mpr hlate hw.2)]
    by_cases hband : s.band = s.get F.CAL_JIG_STAT_BAND
    · rw [if_neg (not_not.mpr hband), if_pos hfew, show code = 0x32 from if_pos hband]
    · rw [if_pos hband, show code = 0x31 from if_neg hband]
  obtain ⟨-, hstat, -⟩ := s.jigEnd_stat o.op o.ch code o.gathered
  refine ⟨_, hexec, (State.jigEnd_ended _ _ _ _ (Keeps.refl s _ _ _)).settle, ?_, ?_, ?_⟩
  · rw [State.settle_on, hstat, decide_eq_false hne]
  · rw [State.settle_cal, State.jigEnd_cal]
  · rw [State.settle_get, State.jigEnd_code _ _ _ _ _ hne, hmod]

theorem exec_jigOpComplete_running (s : State) (o : JigOp) (h : s.runs = true) (hop : s.cal.jigOp = some o) (hfew : o.gathered < o.cycles)
    (hearly : o.elapsed < 4 * o.cycles) : Ends (exec .jigOpComplete s) fun t => Keeps s t (among []) [] [] :=
  ⟨_, (exec_jigOpComplete s o h hop).trans (if_pos ⟨hfew, hearly⟩), (Keeps.refl s _ _ _).settle⟩

end Sys2Proof.Machine

/-! Activation of a committed shim record, and the whole obligation (O38). -/
namespace Sys2Proof.Machine

-- Background calibration of a channel restarts (R234)

/-- The registers that a restart touches, for every channel: CONV, FAULT, the background registers, and a lost marker's record. -/
abbrev restartRegs (a : Nat) : Prop := (0x13128 ≤ a ∧ a < 0x13600) ∨ lostRegs a

theorem Keeps.bgRestart {s t : State} (h : Keeps s t restartRegs [2] [.cal]) (c : Nat) (hc : c < 64) :
    Keeps s (t.bgRestart c) restartRegs [2] [.cal] := by
  have hgain : restartRegs (F.CAL_BG_GAIN c).addr := .inl (by simp only [F.CAL_BG_GAIN]; omega)
  have hdelay : restartRegs (F.CAL_BG_DELAY c).addr := .inl (by simp only [F.CAL_BG_DELAY]; omega)
  have hqgain : restartRegs (A.CAL_BG_QUAL_GAIN c) := .inl (by simp only [A.CAL_BG_QUAL_GAIN]; omega)
  have hqphase : restartRegs (A.CAL_BG_QUAL_PHASE c) := .inl (by simp only [A.CAL_BG_QUAL_PHASE]; omega)
  have hconv : restartRegs (bitFld64 A.CAL_CONV_LO c).addr := bitFld64_within _ (by decide) (by decide) c
  have hfault : restartRegs (bitFld64 A.CAL_FAULT_LO c).addr := bitFld64_within _ (by decide) (by decide) c
  have hshown := (((((h.setBg c {} (by simp)).put _ 0x40000000 hgain).put _ 0 hdelay).put _ 0 hconv).setReg _ 0 hqgain).setReg _ 0 hqphase
  exact Keeps.ite ((hshown.put _ 0 hfault).faultFrame _ _ _ _ _ (by simp) fun _ ha => .inr ha) hshown

theorem State.clearPath_keeps (s : State) (c : Nat) :
    Keeps s (s.clearPath c) (fun a => (0x13128 ≤ a ∧ a < 0x13200) ∨ lostRegs a) [2] [] := by
  have hfault : (0x13128 ≤ (bitFld64 A.CAL_FAULT_LO c).addr ∧ (bitFld64 A.CAL_FAULT_LO c).addr < 0x13200) ∨ lostRegs (bitFld64 A.CAL_FAULT_LO c).addr :=
    bitFld64_within (fun a => (0x13128 ≤ a ∧ a < 0x13200) ∨ lostRegs a) (by decide) (by decide) c
  exact Keeps.ite (((Keeps.refl s _ _ _).put _ 0 hfault).faultFrame _ _ _ _ _ (by simp) fun _ ha => .inr ha) (Keeps.refl s _ _ _)

@[simp] theorem State.settle_bgChan (s : State) (ch : Nat) : s.settle.bgChan ch = s.bgChan ch := rfl

theorem State.bgRestart_cal (s : State) (c : Nat) :
    (s.bgRestart c).cal = { s.cal with bg := spWrite (fun _ => ({} : BgChan)) s.cal.bg c {} } :=
  (State.clearPath_keeps _ c).parts .cal (by simp)

theorem State.bgRestart_bgChan (s : State) (c ch : Nat) : (s.bgRestart c).bgChan ch = if ch = c then {} else s.bgChan ch := by
  rw [State.bgChan, State.bgRestart_cal, spRead_spWrite, State.bgChan]

theorem State.bgRestart_gain (s : State) (c ch : Nat) :
    (s.bgRestart c).get (F.CAL_BG_GAIN ch) = if ch = c then 0x40000000 else s.get (F.CAL_BG_GAIN ch) := by
  have hconv : (F.CAL_BG_GAIN ch).addr ≠ (bitFld64 A.CAL_CONV_LO c).addr :=
    bitFld64_within (fun a => (F.CAL_BG_GAIN ch).addr ≠ a) (by simp only [F.CAL_BG_GAIN, A.CAL_CONV_LO]; omega)
      (by simp only [F.CAL_BG_GAIN, A.CAL_CONV_LO]; omega) c
  rw [State.bgRestart, (State.clearPath_keeps _ c).get _ (by simp only [F.CAL_BG_GAIN, lostRegs]; omega),
    State.setReg_get, if_neg (by simp only [F.CAL_BG_GAIN, A.CAL_BG_QUAL_PHASE]; omega),
    State.setReg_get, if_neg (by simp only [F.CAL_BG_GAIN, A.CAL_BG_QUAL_GAIN]; omega),
    State.put_get_other _ _ _ _ hconv, State.put_get_other _ _ _ _ (by simp only [F.CAL_BG_GAIN, F.CAL_BG_DELAY]; omega)]
  by_cases heq : ch = c
  · rw [heq, if_pos rfl, State.put_get_same _ _ _ (by simp [F.CAL_BG_GAIN])]
    rfl
  · rw [if_neg heq, State.put_get_other _ _ _ _ (by simp only [F.CAL_BG_GAIN]; omega)]
    rfl

/-- A field that a restart sets for its own channel is set for exactly the channels restarted. -/
theorem foldl_bgRestart {α : Type} (read : State → Nat → α) (v : α)
    (hstep : ∀ s c ch, read (s.bgRestart c) ch = if ch = c then v else read s ch) (ch : Nat) (l : List Nat) :
    ∀ s : State, read (l.foldl State.bgRestart s) ch = if ch ∈ l then v else read s ch := by
  induction l with
  | nil => intro s; simp
  | cons c l ih =>
    intro s
    rw [List.foldl_cons, ih, hstep]
    by_cases hl : ch ∈ l <;> simp [hl]

theorem foldl_bgRestart_cal (l : List Nat) (s : State) : ∃ bg, (l.foldl State.bgRestart s).cal = { s.cal with bg := bg } :=
  List.foldlRecOn l State.bgRestart (motive := fun u => ∃ bg, u.cal = { s.cal with bg := bg }) ⟨_, rfl⟩ fun u ⟨_, hu⟩ c _ =>
    ⟨_, (u.bgRestart_cal c).trans (by rw [hu])⟩

-- The steps of COMMIT_ACTIVATE (R234 step 6)

/-- The channels whose reference words differ between the active set and the record. -/
def State.changedRefs (s : State) (c : Commit) : List Nat :=
  (List.range 64).filter fun ch => [0, 1].any fun w =>
    spRead shimFactory s.cal.active (shimRef ch w) != spRead shimFactory c.record.words (shimRef ch w)

/-- The record is the active set and the one in force, and its SET_ID and SET_SEQ show. -/
def State.adoptRecord (s : State) (c : Commit) : State :=
  ({ s with cal := { s.cal with
      active := c.record.words, live := c.record.words, actCfg := c.record.cfg, actGain := c.record.limGain, actPhase := c.record.limPhase
      commit := none, windowOpen := false } }.setReg A.CAL_SET_ID (BitVec.ofNat 32 c.record.id)).setReg
    A.CAL_SET_SEQ (BitVec.ofNat 32 c.record.seq)

/-- SHIM_OK is set; where it was clear, its fault ends. -/
def State.confirmShims (s : State) : State :=
  if s.on F.CAL_STATUS_SHIM_OK then s else (s.put F.CAL_STATUS_SHIM_OK 1).faultFrame 0x06 false 0 noUnit noLog

/-- The activation up to its interrupt: the record adopted, and the channels whose reference words changed restarted. -/
def State.applyRecord (s : State) (c : Commit) : State := (s.changedRefs c).foldl State.bgRestart (s.adoptRecord c).confirmShims

theorem State.activate_eq (s : State) (c : Commit) :
    ∃ bytes, s.activate c = ((s.applyRecord c).showDirty.tellCal 5 0x03 bytes).jigEnd 6 0 0 0 := ⟨_, rfl⟩

theorem State.mem_changedRefs (s : State) (c : Commit) (ch : Nat) :
    ch ∈ s.changedRefs c ↔ ch < 64 ∧ ∃ w < 2, spRead shimFactory s.cal.active (shimRef ch w) ≠ spRead shimFactory c.record.words (shimRef ch w) := by
  simp only [State.changedRefs, List.mem_filter, List.mem_range, List.any_cons, List.any_nil, Bool.or_false, Bool.or_eq_true, bne_iff_ne]
  refine and_congr_right fun _ => ⟨?_, ?_⟩
  · rintro (h | h)
    · exact ⟨0, by decide, h⟩
    · exact ⟨1, by decide, h⟩
  · rintro ⟨w, hw, h⟩
    obtain rfl | rfl : w = 0 ∨ w = 1 := by omega
    · exact .inl h
    · exact .inr h

theorem State.adoptRecord_keeps (s : State) (c : Commit) :
    Keeps s (s.adoptRecord c) (fun a => a = A.CAL_SET_ID ∨ a = A.CAL_SET_SEQ) [] [.cal] :=
  (((Keeps.refl s _ _ _).withCal _ (by simp)).setReg _ _ (.inl rfl)).setReg _ _ (.inr rfl)

theorem State.confirmShims_keeps (s : State) :
    Keeps s s.confirmShims (fun a => a = F.CAL_STATUS_SHIM_OK.addr ∨ lostRegs a) [2] [] :=
  Keeps.ite (Keeps.refl s _ _ _) (((Keeps.refl s _ _ _).put F.CAL_STATUS_SHIM_OK 1 (.inl rfl)).faultFrame _ _ _ _ _ (by simp) fun _ ha => .inr ha)

theorem State.confirmShims_ok (s : State) : s.confirmShims.on F.CAL_STATUS_SHIM_OK = true := by
  by_cases hok : s.on F.CAL_STATUS_SHIM_OK = true
  · rw [State.confirmShims, if_pos hok, hok]
  · rw [State.confirmShims, if_neg hok, State.on, State.faultFrame_get _ _ _ _ _ _ _ (by decide)]
    exact State.put_on_bool _ F.CAL_STATUS_SHIM_OK true rfl (by decide)

theorem State.applyRecord_restarts (s : State) (c : Commit) :
    Keeps (s.adoptRecord c).confirmShims (s.applyRecord c) restartRegs [2] [.cal] :=
  Keeps.foldlMem _ _ (fun _ ch hch hu => hu.bgRestart ch ((s.mem_changedRefs c ch).mp hch).1) (Keeps.refl _ _ _ _)

theorem restartRegs_onPages (a : Nat) (h : restartRegs a) : onPages [0x13] a := by
  refine h.imp_left fun ha => ?_
  rw [List.mem_singleton]
  omega

theorem State.applyRecord_keeps (s : State) (c : Commit) : Keeps s (s.applyRecord c) (onPages [0x13]) [2] [.cal] := by
  have hadopt := (s.adoptRecord_keeps c).mono (R' := onPages [0x13]) (E' := [2])
    (by rintro a (rfl | rfl) <;> exact .inl (by decide)) (by simp) fun _ hp => hp
  have hconfirm := (State.confirmShims_keeps (s.adoptRecord c)).mono (R' := onPages [0x13]) (P' := [.cal])
    (by rintro a (rfl | ha); exacts [.inl (by decide), .inr ha]) (fun _ he => he) (by simp)
  exact (hadopt.trans hconfirm).trans ((s.applyRecord_restarts c).mono restartRegs_onPages (fun _ he => he) fun _ hp => hp)

/-- The set's registers below the background registers: what adopting the record wrote stays. -/
theorem State.applyRecord_ids (s : State) (c : Commit) :
    (s.applyRecord c).reg A.CAL_SET_ID = BitVec.ofNat 32 c.record.id ∧ (s.applyRecord c).reg A.CAL_SET_SEQ = BitVec.ofNat 32 c.record.seq
      ∧ (s.applyRecord c).on F.CAL_STATUS_SHIM_OK = true := by
  have hrestart := s.applyRecord_restarts c
  have hconfirm := State.confirmShims_keeps (s.adoptRecord c)
  refine ⟨?_, ?_, ?_⟩
  · rw [hrestart.regs _ (by decide), hconfirm.regs _ (by decide), State.adoptRecord, State.setReg_reg_other _ _ _ _ (by decide), State.setReg_reg_same]
  · rw [hrestart.regs _ (by decide), hconfirm.regs _ (by decide), State.adoptRecord, State.setReg_reg_same]
  · rw [hrestart.on _ (by decide), State.confirmShims_ok]

theorem State.confirmShims_cal (s : State) : s.confirmShims.cal = s.cal := s.confirmShims_keeps.parts .cal (by simp)

theorem State.applyRecord_cal (s : State) (c : Commit) : ∃ bg, (s.applyRecord c).cal = { (s.adoptRecord c).cal with bg := bg } := by
  obtain ⟨bg, hbg⟩ := foldl_bgRestart_cal (s.changedRefs c) (s.adoptRecord c).confirmShims
  exact ⟨bg, hbg.trans (by rw [State.confirmShims_cal])⟩

theorem State.applyRecord_bgChan (s : State) (c : Commit) (ch : Nat) :
    (s.applyRecord c).bgChan ch = if ch ∈ s.changedRefs c then {} else s.bgChan ch := by
  rw [State.applyRecord, foldl_bgRestart State.bgChan {} State.bgRestart_bgChan, State.bgChan, State.confirmShims_cal]
  rfl

theorem State.applyRecord_gain (s : State) (c : Commit) (ch : Nat) :
    (s.applyRecord c).get (F.CAL_BG_GAIN ch) = if ch ∈ s.changedRefs c then 0x40000000 else s.get (F.CAL_BG_GAIN ch) := by
  rw [State.applyRecord, foldl_bgRestart (fun u ch => u.get (F.CAL_BG_GAIN ch)) _ State.bgRestart_gain,
    (State.confirmShims_keeps _).get _ (by simp only [F.CAL_BG_GAIN, F.CAL_STATUS_SHIM_OK, lostRegs]; omega),
    (s.adoptRecord_keeps c).get _ (by simp only [F.CAL_BG_GAIN, A.CAL_SET_ID, A.CAL_SET_SEQ]; omega)]

-- The activation's interrupts and reports

/-- The registers that announcing an activation touches. -/
abbrev announceRegs (a : Nat) : Prop := jigEndRegs a ∨ eventRegs 0x13 5 a

theorem State.activate_keeps (s : State) (c : Commit) : Keeps (s.applyRecord c).showDirty (s.activate c) announceRegs [48] [.cal] := by
  obtain ⟨bytes, heq⟩ := s.activate_eq c
  rw [heq]
  exact ((State.tellCal_keeps _ 5 3 bytes).mono (fun _ ha => .inr ha) (fun _ he => he) (by simp)).trans
    ((State.jigEnd_keeps _ 6 0 0 0).mono (fun _ ha => .inl ha) (fun _ he => he) fun _ hp => hp)

/-- A register beside the announcement's and PENDING_DIRTY's is as the record's application left it. -/
theorem State.activate_reg (s : State) (c : Commit) (a : Nat) (h : ¬ announceRegs a) (hs : a ≠ F.CAL_STATUS_PENDING_DIRTY.addr) :
    (s.activate c).reg a = (s.applyRecord c).reg a :=
  ((s.activate_keeps c).regs a h).trans (State.put_reg_other _ _ _ _ hs)

theorem State.activate_cal (s : State) (c : Commit) : (s.activate c).cal = { (s.applyRecord c).cal with jigOp := none } := by
  obtain ⟨bytes, heq⟩ := s.activate_eq c
  rw [heq, State.jigEnd_cal, State.tellCal_cal]
  rfl

theorem State.activate_gain (s : State) (c : Commit) (ch : Nat) (h : ch < 64) :
    (s.activate c).get (F.CAL_BG_GAIN ch) = if ch ∈ s.changedRefs c then 0x40000000 else s.get (F.CAL_BG_GAIN ch) := by
  have hannounce : ¬ announceRegs (F.CAL_BG_GAIN ch).addr := by
    simp only [announceRegs, jigEndRegs, errRegs, eventRegs, irqRegs, lostRegs, A.CAL_JIG_STAT, F.CAL_BG_GAIN]
    omega
  rw [State.get, s.activate_reg c _ hannounce (by simp only [F.CAL_BG_GAIN, F.CAL_STATUS_PENDING_DIRTY]; omega), ← State.get, State.applyRecord_gain]

theorem State.activate_bgChan (s : State) (c : Commit) (ch : Nat) :
    (s.activate c).bgChan ch = if ch ∈ s.changedRefs c then {} else s.bgChan ch := by
  rw [State.bgChan, State.activate_cal, ← State.applyRecord_bgChan, State.bgChan]

theorem State.activate_set (s : State) (c : Commit) :
    (s.activate c).cal.active = c.record.words ∧ (s.activate c).cal.live = c.record.words ∧ (s.activate c).cal.pend = s.cal.pend
      ∧ (s.activate c).cal.commit = none ∧ (s.activate c).cal.windowOpen = false := by
  obtain ⟨bg, hbg⟩ := s.applyRecord_cal c
  rw [State.activate_cal, hbg]
  exact ⟨rfl, rfl, rfl, rfl, rfl⟩

theorem State.activate_shown (s : State) (c : Commit) :
    (s.activate c).get (hdrPend 0x13 5) = 1 ∧ (s.activate c).get (hdrPend 0x13 4) = 1 ∧ (s.activate c).on F.CAL_JIG_STAT_OK = true := by
  obtain ⟨bytes, heq⟩ := s.activate_eq c
  obtain ⟨-, hok, -⟩ := ((s.applyRecord c).showDirty.tellCal 5 3 bytes).jigEnd_stat 6 0 0 0
  rw [heq]
  refine ⟨?_, State.jigEnd_pend _ _ _ _ _, hok⟩
  rw [State.jigEnd_pend_apart _ _ _ _ _ (by decide), State.tellCal_pend _ _ _ (by decide)]

theorem State.activate_status (s : State) (c : Commit) : (s.activate c).on F.CAL_STATUS_SHIM_OK = true := by
  obtain ⟨-, -, hok⟩ := s.applyRecord_ids c
  rw [(s.activate_keeps c).on _ (by decide), State.showDirty, State.put_on_apart _ _ _ _ (by decide) (by decide), hok]

theorem announceRegs_onPages (a : Nat) (h : announceRegs a) : onPages [0x13] a := by
  rcases h with (rfl | (rfl | rfl) | h) | h
  · exact .inl (by decide)
  · exact .inl (by decide)
  · exact .inl (by decide)
  · exact eventRegs_onPages _ _ _ (by decide) (by simp) a h
  · exact eventRegs_onPages _ _ _ (by decide) (by simp) a h

theorem State.activate_frame (s : State) (c : Commit) : Keeps s (s.activate c) (onPages [0x13]) [2, 48] [.cal] := by
  have happly := ((s.applyRecord_keeps c).put F.CAL_STATUS_PENDING_DIRTY (s.applyRecord c).dirty.toNat (.inl (by decide))).mono (E' := [2, 48])
    (fun _ ha => ha) (by simp) fun _ hp => hp
  exact happly.trans ((s.activate_keeps c).mono announceRegs_onPages (by simp) fun _ hp => hp)

theorem exec_commitActivate_stored (s : State) (c : Commit) (h : s.runs = true) (hc : s.cal.commit = some c) (hstep : c.step = 5) :
    Ends (exec .commitActivate s) fun t =>
      t.cal.active = c.record.words ∧ t.cal.live = c.record.words ∧ t.cal.pend = s.cal.pend ∧ t.cal.commit = none ∧ t.cal.windowOpen = false
      ∧ t.reg A.CAL_SET_ID = BitVec.ofNat 32 c.record.id ∧ t.reg A.CAL_SET_SEQ = BitVec.ofNat 32 c.record.seq
      ∧ t.get (hdrPend 0x13 5) = 1 ∧ t.get (hdrPend 0x13 4) = 1 ∧ t.on F.CAL_JIG_STAT_OK = true ∧ t.on F.CAL_STATUS_SHIM_OK = true
      ∧ (∀ ch, ch < 64 → (∀ w, w < 2 → spRead shimFactory s.cal.active (shimRef ch w) = spRead shimFactory c.record.words (shimRef ch w)) →
          t.get (F.CAL_BG_GAIN ch) = s.get (F.CAL_BG_GAIN ch) ∧ t.bgChan ch = s.bgChan ch)
      ∧ (∀ ch, ch < 64 → spRead shimFactory s.cal.active (shimRef ch 0) ≠ spRead shimFactory c.record.words (shimRef ch 0) →
          t.get (F.CAL_BG_GAIN ch) = 0x40000000 ∧ t.bgChan ch = {})
      ∧ Keeps s t (onPages [0x13]) [2, 48] [.cal] := by
  have hexec : exec .commitActivate s = done (s.activate c) := by
    rw [show exec .commitActivate s = execCommitActivate s from rfl, execCommitActivate, State.onFabric_runs _ _ h]
    simp only [hc, hstep, if_true]
  obtain ⟨hactive, hlive, hpend, hcommit, hwindow⟩ := s.activate_set c
  obtain ⟨hid, hseq, -⟩ := s.applyRecord_ids c
  obtain ⟨hirq5, hirq4, hok⟩ := s.activate_shown c
  refine ⟨_, hexec, ?_⟩
  simp only [State.settle_cal, State.settle_reg, State.settle_get, State.settle_on, State.settle_bgChan]
  refine ⟨hactive, hlive, hpend, hcommit, hwindow, ?_, ?_, hirq5, hirq4, hok, s.activate_status c,
    fun ch hch hsame => ?_, fun ch hch hdiff => ?_, (s.activate_frame c).settle⟩
  · exact (s.activate_reg c _ (by decide) (by decide)).trans hid
  · exact (s.activate_reg c _ (by decide) (by decide)).trans hseq
  · have hkept : ch ∉ s.changedRefs c := fun hmem => by
      obtain ⟨-, w, hw, hne⟩ := (s.mem_changedRefs c ch).mp hmem
      exact hne (hsame w hw)
    exact ⟨(s.activate_gain c ch hch).trans (if_neg hkept), (s.activate_bgChan c ch).trans (if_neg hkept)⟩
  · have hchanged : ch ∈ s.changedRefs c := (s.mem_changedRefs c ch).mpr ⟨hch, 0, by decide, hdiff⟩
    exact ⟨(s.activate_gain c ch hch).trans (if_pos hchanged), (s.activate_bgChan c ch).trans (if_pos hchanged)⟩

theorem exec_commitActivate_early (s : State) (h : s.runs = true) (hc : ∀ c, s.cal.commit = some c → c.step ≠ 5) :
    Ends (exec .commitActivate s) fun t => Keeps s t (among []) [] [] := by
  refine ⟨s.settle, ?_, (Keeps.refl s _ _ _).settle⟩
  rw [show exec .commitActivate s = execCommitActivate s from rfl, execCommitActivate, State.onFabric_runs _ _ h]
  split
  · exact if_neg (hc _ ‹_›)
  · rfl

/-- Settles O38, clause by clause. -/
theorem jigResultsAndActivation : Obligations.JigResultsAndActivation :=
  ⟨exec_jigOpComplete_offset, exec_jigOpComplete_result, exec_jigOpComplete_short, exec_jigOpComplete_running, exec_commitActivate_stored,
    exec_commitActivate_early⟩

end Sys2Proof.Machine

/-! A residual trip under a held capture (O30): what shows the holds and readiness touches, and the record a trip leaves on ring 39. -/
namespace Sys2Proof.Machine

section
variable {s t : State} {R : Nat → Prop} {E : List Nat} {P : List Part}

theorem Keeps.rcmEvent (h : Keeps s t R E P) (k typ b0 row : Nat) (level : Option Nat) (he : 3 + k ∈ E) (hp : Part.fresh ∈ P)
    (hR : ∀ a, lostRegs a → R a) : Keeps s (t.rcmEvent k typ b0 row level) R E P := by
  unfold State.rcmEvent
  cases level with
  | none => exact (h.took hp).emit _ _ _ _ _ he hR
  | some v => exact h.emit _ _ _ _ _ he hR

theorem Keeps.showReady (h : Keeps s t R E P) {k : Nat} (hk : k < 12) (he : 3 + k ∈ E) (hp : Part.fresh ∈ P)
    (hR : ∀ a, onPages [0x17] a → R a) : Keeps s (t.showReady k) R E P := by
  have hdue : R (F.RCM_STAT_ST_DUE k).addr := hR _ (.inl (by simp only [F.RCM_STAT_ST_DUE, List.mem_singleton]; omega))
  have hready : R A.RCM_READY := hR _ (.inl (by decide))
  have hshown := ((h.put (bitFld A.RCM_READY k) (t.rcmFit k && !t.latched k).toNat hready).put
    (bitFld A.RCM_READY (16 + k)) (t.rcmFit k && (t.rc k).postOk).toNat hready).put _ (!t.testFresh k).toNat hdue
  exact Keeps.ite hshown ((hshown.irq 0x17 3 (hR _ (.inl (by decide))) (hR _ (.inl (by decide)))).rcmEvent _ _ _ _ _ he hp
    fun a ha => hR a (.inr ha))

theorem Keeps.showHolds (h : Keeps s t R E P) (he : 2 ∈ E) (hR : ∀ a, onPages [0x16] a → R a) : Keeps s t.showHolds R E P := by
  have hput := ((h.put F.BAY_HW_HOLD_OUT (maskOf ((List.range 12).map fun k => t.latched k || (t.rc k).testLatch || (t.outlet k).alarmHold))
    (hR _ (.inl (by decide)))).put F.BAY_HW_HOLD_PF t.pf.warned.toNat (hR _ (.inl (by decide)))).put F.BAY_HW_HOLD_BENCH t.boot.bench.toNat
    (hR _ (.inl (by decide)))
  exact Keeps.foldl _ (fun _ _ hu => Keeps.ite (hu.eventWithin _ _ _ he fun a ha => hR a
    (eventRegs_onPages _ _ _ (by decide) (by simp) a ha)) hu) _ _ hput

end

/-- A decision that no row decides, up to the trigger of the capture: the latch, the trip's registers, its report and the holds. -/
theorem State.trip_capture (s : State) {k : Nat} (hk : k < 12) (cause : Nat) (level : Option Nat) (h : s.latched k = false) :
    ∃ u, s.trip k cause none none level = u.capTrip.showReady k
      ∧ Keeps s u (onPages [0x16, 0x17]) [2, 3 + k] [.outlets, .rcm, .fresh] := by
  refine ⟨_, by rw [State.trip, if_neg (by simp [h])], ?_⟩
  have hpage : ∀ a, a / 4096 = 0x17 → onPages [0x16, 0x17] a := fun a ha => .inl (by simp [ha])
  have hlost : ∀ a, lostRegs a → onPages [0x16, 0x17] a := fun a ha => .inr ha
  have hregs : ∀ a, 0x17200 ≤ a ∧ a < 0x17500 → onPages [0x16, 0x17] a := fun a ha => hpage a (by omega)
  have hlatch := (((Keeps.refl s (onPages [0x16, 0x17]) [2, 3 + k] [.outlets, .rcm, .fresh]).took (by simp)).took (by simp)).put
    (bitFld A.RCM_LATCH k) 1 (hpage _ (by simp [bitFld, A.RCM_LATCH]))
  have hinfo := (((hlatch.put (F.RCM_TRIP_INFO_CAUSE k) cause
    (hregs _ (by simp only [F.RCM_TRIP_INFO_CAUSE]; omega))).put (F.RCM_TRIP_INFO_ROW k) s.free
    (hregs _ (by simp only [F.RCM_TRIP_INFO_ROW]; omega))).incSat (F.RCM_TRIP_INFO_COUNT k)
    (hregs _ (by simp only [F.RCM_TRIP_INFO_COUNT]; omega))).putInt (F.RCM_TRIP_VAL_UA k) s.took.free
    (hregs _ (by simp only [F.RCM_TRIP_VAL_UA]; omega))
  have hts : 0x17200 ≤ A.RCM_TRIP_TS_LO k ∧ A.RCM_TRIP_TS_LO k + 4 < 0x17500 := by simp only [A.RCM_TRIP_TS_LO]; omega
  exact ((((((hinfo.setReg64 (A.RCM_TRIP_TS_LO k) _ (hregs _ (by omega)) (hregs _ (by omega))).irq 0x17 0
    (hpage _ (by decide)) (hpage _ (by decide))).rcmEvent k _ _ _ _ (by simp) (by simp) hlost).setOutlet k _ (by simp)).setRc k _
    (by simp)).showHolds (by simp) fun a ha => ha.imp_left (by simp +contextual))

/-- A trigger with the capture held (R267) is counted as missed and recorded on ring 39. -/
theorem State.capTrip_missed (s : State) (h14 : s.enabled 0x14 = true) (htrig : (s.get F.PQE_CAP_CFG_TRIG).testBit 4 = true)
    (hstate : s.capState = 3) (htakes : s.takes 39) : (s.capTrip.ring 39).frames ≠ (s.ring 39).frames := by
  let u := (s.incSat F.PQE_CAP_COUNT_MISSED).pqIrq 5
  have hcap : s.capTrip = u.emit 39 0x04 none 0 (le 4 0xFFFFFFFF ++ le 4 (s.get F.DEC_CYCLE_CNT)) := by
    rw [State.capTrip, if_pos htrig, State.capTrigger, if_neg (by simp [h14]), if_neg (by simp [hstate]), if_neg (by simp [hstate]), if_pos hstate]
  have hmissed : (s.incSat F.PQE_CAP_COUNT_MISSED).takes 39 :=
    ⟨htakes.1, by rw [State.slots, State.incSat_get_apart _ _ _ (by decide) (by decide)]; exact htakes.2⟩
  obtain ⟨hframes, -⟩ := State.emit_queued u 39 0x04 none 0 (le 4 0xFFFFFFFF ++ le 4 (s.get F.DEC_CYCLE_CNT))
    (State.irq_takes _ 0x14 5 39 (by decide) (by decide) hmissed)
  rw [hcap, hframes]
  intro hsame
  have hlength := congrArg List.length (show (s.ring 39).frames ++ _ = (s.ring 39).frames from hsame)
  simp at hlength

/-- So is a residual trip that no row decides: it is a trigger under TRIG bit 28. -/
theorem State.trip_missed (s : State) {k : Nat} (hk : k < 12) (cause : Nat) (level : Option Nat) (h : s.latched k = false)
    (h14 : s.enabled 0x14 = true) (htrig : (s.get F.PQE_CAP_CFG_TRIG).testBit 4 = true) (hstate : s.capState = 3) (htakes : s.takes 39) :
    ((s.trip k cause none none level).ring 39).frames ≠ (s.ring 39).frames := by
  obtain ⟨u, heq, hu⟩ := s.trip_capture hk cause level h
  have hring : u.ring 39 = s.ring 39 := hu.rings 39 (by simp; omega)
  have hready : (u.capTrip.showReady k).ring 39 = u.capTrip.ring 39 :=
    ((Keeps.refl _ (onPages [0x17]) [3 + k] [.fresh]).showReady hk (by simp) (by simp) fun _ ha => ha).rings 39 (by simp; omega)
  rw [heq, hready, ← hring]
  refine u.capTrip_missed ?_ ?_ ?_ ⟨by rw [hring]; exact htakes.1, ?_⟩
  · rw [State.enabled, hu.on _ (by decide)]; exact h14
  · rw [hu.get _ (by decide)]; exact htrig
  · rw [State.capState, hu.get _ (by decide)]; exact hstate
  · rw [hring, State.slots, hu.get _ (by decide)]; exact htakes.2

/-- The state after a code of AUX_36+k has shown a low protective earth (R331), before the trip it may cause. -/
def State.showLowPe (s : State) (k code : Nat) : State :=
  (((s.setRc k { s.rc k with peRun := 0, pe := 5 }).put (F.RCM_STAT_PE_FAULT k) 1).irq 0x17 2).rcmEvent k 0x52 5 0xFF (some code)

/-- A code below LO, with no debounce and no cause in force, trips an outlet whose output is high. -/
theorem State.peConversion_trips (s : State) (k code : Nat) (hon : s.rcmOn k = true) (hen : s.on (F.RCM_PE_WIN_PE_EN k) = true)
    (hlo : code < s.get (F.RCM_PE_WIN_LO k)) (hpe : (s.rc k).pe = 0) (hdeb : s.get F.RCM_CFG_PE_DEB = 0)
    (hhigh : (s.showLowPe k code).outHigh k = true) :
    s.peConversion k code = ((s.showLowPe k code).trip k 5 none none (some code)).showReady k := by
  rw [State.peConversion, if_pos (by simp [hon, hen])]
  simp only [hlo, hpe, hdeb, if_true]
  exact congrArg (fun u : State => u.showReady k) (if_pos hhigh)

/-- The state in which a code of AUX input n is judged: the conversion is counted, compared and shown. -/
def State.auxShown (s : State) (n code : Nat) : State := (s.auxCount n (code % 4096)).put (F.AUX_DATA_CODE n) (code % 4096)

theorem exec_auxConversion_pe (s : State) (n : Fin 48) (code : Nat) (h : s.runs = true) (haux : s.enabled 0x18 = true) (hn : 36 ≤ n.val) :
    exec (.auxConversion n code) s = done ((s.auxShown n code).peConversion (n.val % 12) (code % 4096)) := by
  rw [show exec (.auxConversion n code) s = execAuxConversion n code s from rfl, execAuxConversion, State.onFabric_runs _ _ h]
  simp only [haux, Bool.not_true, Bool.false_eq_true, if_false, if_neg (show ¬ n.val < 12 by omega), if_neg (show ¬ n.val < 24 by omega),
    if_neg (show ¬ n.val < 36 by omega), State.auxShown]

/-- Outlet 0 drives CON_M, its protective earth is watched with LO 100 and no debounce, and a capture is held with TRIG bit 28 set. -/
def heldCapture : State :=
  let s := [0x14, 0x17, 0x18].foldl (fun s p => s.put (hdrEnable p) 1) State.reset
  let s := ((s.put F.RCM_OUT_EN_EN 1).put (F.RCM_PE_WIN_PE_EN 0) 1).put (F.RCM_PE_WIN_LO 0) 100
  (((s.put F.RCM_CFG_PE_DEB 0).put F.PQE_CAP_CFG_TRIG 16).put F.PQE_CAP_STAT_STATE 3).setOutlet 0 { conM := true }

/-- `heldCapture` after a code 0 of AUX_36, up to the trip it causes. -/
def heldCapture.beforeTrip : State := (heldCapture.auxShown 36 0).showLowPe 0 0

theorem heldCapture.exec_auxConversion :
    exec (.auxConversion 36 0) heldCapture = done ((heldCapture.beforeTrip.trip 0 5 none none (some 0)).showReady 0) :=
  (exec_auxConversion_pe heldCapture 36 0 (by decide +kernel) (by decide +kernel) (by decide)).trans (congrArg done
    (State.peConversion_trips _ 0 0 (by decide +kernel) (by decide +kernel) (by decide +kernel) (by decide +kernel) (by decide +kernel)
      (by decide +kernel)))

/-- Refutes O30 by its first clause: code 0 of AUX_36 trips outlet 0 of `heldCapture`, the trip is a trigger that the held capture misses, and
its record joins ring 39, which the clause says is kept. -/
theorem not_conversionsAndThePilot : ¬ Obligations.ConversionsAndThePilot := by
  unfold Obligations.ConversionsAndThePilot
  intro h
  obtain ⟨hconv, -⟩ := h
  obtain ⟨t, hexec, -, -, -, -, hkeep⟩ := hconv heldCapture 36 0 (by decide +kernel) (by decide +kernel) (by decide)
  have ht : t = ((heldCapture.beforeTrip.trip 0 5 none none (some 0)).showReady 0).settle :=
    Host.Outcome.next.inj (hexec.symm.trans heldCapture.exec_auxConversion)
  have hready : ((heldCapture.beforeTrip.trip 0 5 none none (some 0)).showReady 0).ring 39
      = (heldCapture.beforeTrip.trip 0 5 none none (some 0)).ring 39 :=
    ((Keeps.refl _ (onPages [0x17]) [3] [.fresh]).showReady (by decide) (by simp) (by simp) fun _ ha => ha).rings 39 (by decide)
  have hring := hkeep.rings 39 (by decide)
  rw [ht, State.settle_ring, hready] at hring
  refine heldCapture.beforeTrip.trip_missed (k := 0) (by decide) 5 (some 0) (by decide +kernel) (by decide +kernel) (by decide +kernel)
    (by decide +kernel) (by unfold State.takes; decide +kernel) ?_
  rw [hring]
  decide +kernel

end Sys2Proof.Machine

/-! Outlet events, and the signals of contactor and lock (O31). -/
namespace Sys2Proof.Machine

-- The events of an outlet (R308)

/-- The interrupt condition that an outlet event of a TYPE raises (R308, R310). -/
def bayCond : Nat → Option Nat
  | 0x40 => some 0
  | 0x42 => some 1
  | 0x43 => some 2
  | 0x44 => some 3
  | 0x46 => some 4
  | 0x47 => some 5
  | 0x45 => some 6
  | _ => none

theorem bayCond_lt {typ b : Nat} (h : bayCond typ = some b) : b < 7 := by
  unfold bayCond at h
  split at h <;> cases h <;> decide

/-- The state with that condition raised. -/
def State.bayIrq (s : State) (k typ : Nat) : State :=
  match bayCond typ with
  | some b => s.irq (0x30 + k) b
  | none => s

/-- The 32 bytes of an outlet event (R308). -/
def State.bayPayload (s : State) (k old new cause detail period value seq : Nat) : List Byte :=
  le 1 old ++ le 1 new ++ le 1 cause ++ le 1 detail ++ le 4 (s.get (F.BAYK_OEPOCH k)) ++ le 8 s.ts ++ le 4 period ++ le 4 value ++ le 4 seq ++ le 4 0

/-- An outlet event is queued on ring 3 + k and raises its condition. -/
theorem State.bayEventAt_eq (s : State) (k typ old new cause detail period value seq : Nat) :
    (s.bayEventAt k typ old new cause detail period value seq).1
      = (s.emit (3 + k) typ none 0 (s.bayPayload k old new cause detail period value seq)).bayIrq k typ := by
  unfold State.bayEventAt State.bayIrq bayCond
  split
  case h_8 => simp [*, State.bayPayload]
  all_goals rfl

section
variable {s t : State} {R : Nat → Prop} {E : List Nat} {P : List Part}

theorem Keeps.bayEventAt (h : Keeps s t R E P) (k typ old new cause detail period value seq : Nat) (he : 3 + k ∈ E)
    (hlost : ∀ a, lostRegs a → R a) (hirq : ∀ b, bayCond typ = some b → ∀ a, irqRegs (0x30 + k) b a → R a) :
    Keeps s (t.bayEventAt k typ old new cause detail period value seq).1 R E P := by
  let pl := t.bayPayload k old new cause detail period value seq
  have hemit := h.emit (3 + k) typ none 0 pl he hlost
  rw [State.bayEventAt_eq, State.bayIrq]
  split
  · next b hb => exact hemit.irq _ _ (hirq b hb _ (.inl rfl)) (hirq b hb _ (.inr rfl))
  · exact hemit

/-- An event about the outlet as it stands, with its condition and the registers it may touch. -/
theorem Keeps.noteCond (h : Keeps s t R E P) {typ b : Nat} (hb : bayCond typ = some b) (k cause detail value seq : Nat) (he : 3 + k ∈ E)
    (hR : ∀ a, eventRegs (0x30 + k) b a → R a) : Keeps s (t.note k typ cause detail value seq) R E P :=
  h.bayEventAt k typ _ _ _ _ _ _ _ he (fun a ha => hR a (.inr ha)) fun c hc a ha => hR a (.inl (by rw [hb] at hc; cases hc; exact ha))

end

/-- The registers an outlet event may touch: headers of the outlet's page, and HLK's record of a lost marker. -/
abbrev bayEventRegs (k a : Nat) : Prop := (a / 4096 = 0x30 + k ∧ a % 4096 < 0x100) ∨ lostRegs a

theorem irqRegs_bayEventRegs {k b : Nat} (hb : b < 32) (a : Nat) (ha : irqRegs (0x30 + k) b a) : bayEventRegs k a :=
  .inl (by rcases ha with rfl | rfl <;> omega)

theorem State.bayEventAt_keeps (s : State) (k typ old new cause detail period value seq : Nat) :
    Keeps s (s.bayEventAt k typ old new cause detail period value seq).1 (bayEventRegs k) [3 + k] [] :=
  (Keeps.refl s _ _ _).bayEventAt k typ _ _ _ _ _ _ _ (by simp) (fun _ ha => .inr ha) fun b hb a ha =>
    irqRegs_bayEventRegs (by have := bayCond_lt hb; omega) a ha

theorem State.bayEventAt_get (s : State) (k typ old new cause detail period value seq : Nat) (f : Fld) (h : ¬ bayEventRegs k f.addr) :
    (s.bayEventAt k typ old new cause detail period value seq).1.get f = s.get f :=
  (s.bayEventAt_keeps k typ old new cause detail period value seq).get f h

@[simp] theorem State.bayEventAt_outlet (s : State) (k typ old new cause detail period value seq j : Nat) :
    (s.bayEventAt k typ old new cause detail period value seq).1.outlet j = s.outlet j := by
  have houtlets := (s.bayEventAt_keeps k typ old new cause detail period value seq).parts .outlets (by simp)
  simp only [Part.same] at houtlets
  simp only [State.outlet, houtlets]

/-- An occurrence leaves every bit of IRQ_PEND that is set. -/
theorem State.irq_pend_stays (s : State) {p b q c : Nat} (hb : b < 32) (h : s.get (hdrPend q c) = 1) :
    (s.irq p b).get (hdrPend q c) = 1 := by
  by_cases hsame : q = p ∧ c = b
  · rw [hsame.1, hsame.2, State.irq_pend _ _ _ hb]
  · rw [State.irq, State.incSat, State.put_get_other _ _ _ _ (by simp only [hdrPend, hdrEvcnt]; omega),
      State.put_get_apart _ _ _ _ (by simp only [hdrPend]; omega) (by simp only [hdrPend]; omega), h]

/-- An outlet event leaves the bits of IRQ_PEND that are set. -/
theorem State.bayEventAt_pend_stays (s : State) (k typ old new cause detail period value seq : Nat) {p c : Nat} (hp : p ≠ 4)
    (h : s.get (hdrPend p c) = 1) : (s.bayEventAt k typ old new cause detail period value seq).1.get (hdrPend p c) = 1 := by
  have hemit : (s.emit (3 + k) typ none 0 (s.bayPayload k old new cause detail period value seq)).get (hdrPend p c) = 1 := by
    rw [State.emit_get _ _ _ _ _ _ _ (by simp only [hdrPend, lostRegs]; omega), h]
  rw [State.bayEventAt_eq, State.bayIrq]
  split
  · next b hb => exact State.irq_pend_stays _ (by have := bayCond_lt hb; omega) hemit
  · exact hemit

/-- And raises its own. -/
theorem State.bayEventAt_pend (s : State) (k old new cause detail period value seq : Nat) {typ b : Nat} (hb : bayCond typ = some b) :
    (s.bayEventAt k typ old new cause detail period value seq).1.get (hdrPend (0x30 + k) b) = 1 := by
  rw [State.bayEventAt_eq, State.bayIrq, hb]
  exact State.irq_pend _ _ _ (by have := bayCond_lt hb; omega)

-- An event about the outlet as it stands

theorem State.note_get (s : State) (k typ cause detail value seq : Nat) (f : Fld) (h : ¬ bayEventRegs k f.addr) :
    (s.note k typ cause detail value seq).get f = s.get f := s.bayEventAt_get _ _ _ _ _ _ _ _ _ f h

theorem State.note_on (s : State) (k typ cause detail value seq : Nat) (f : Fld) (h : ¬ bayEventRegs k f.addr) :
    (s.note k typ cause detail value seq).on f = s.on f := by simp only [State.on, State.note_get _ _ _ _ _ _ _ f h]

@[simp] theorem State.note_outlet (s : State) (k typ cause detail value seq j : Nat) :
    (s.note k typ cause detail value seq).outlet j = s.outlet j := s.bayEventAt_outlet _ _ _ _ _ _ _ _ _ j

theorem State.note_pend (s : State) (k cause detail value seq : Nat) {typ b : Nat} (hb : bayCond typ = some b) :
    (s.note k typ cause detail value seq).get (hdrPend (0x30 + k) b) = 1 := s.bayEventAt_pend _ _ _ _ _ _ _ _ hb

/-- An event about the outlet as it stands is queued on its ring. -/
theorem State.note_queued (s : State) (k typ cause detail value seq : Nat) (h : s.takes (3 + k)) :
    ∃ pl, Queued s (s.note k typ cause detail value seq) (3 + k) typ none 0 pl := by
  refine ⟨s.bayPayload k (s.bay k) (s.bay k) cause detail (s.get (F.BAYK_PERIOD_COUNT k)) value seq, ?_⟩
  rw [State.note, State.bayEvent, State.bayEventAt_eq, State.bayIrq]
  split <;> exact s.emit_queued (3 + k) typ none 0 _ h

section
variable {s u t : State} {R : Nat → Prop} {E : List Nat} {P : List Part} {e : Nat}

/-- A ring that nothing touched takes a record as before. -/
theorem Keeps.takes (h : Keeps s u R E P) (he : e ∉ E) (hcfg : ¬ R (F.HLKR_RING_CFG_COUNT_CODE e).addr) (ht : s.takes e) : u.takes e := by
  obtain ⟨hlost, hroom⟩ := ht
  exact ⟨by rw [h.rings e he, hlost], by rw [h.rings e he, State.slots, h.get _ hcfg]; exact hroom⟩

/-- And what is queued on it then is queued behind what it held before. -/
theorem Keeps.queued (h : Keeps s u R E P) (he : e ∉ E) (hver : ¬ R F.HLK_LINK_VER.addr) (hp : Part.epoch ∉ P) {typ st : Nat}
    {ref : Option Nat} {pl : List Byte} (hq : Queued u t e typ ref st pl) : Queued s t e typ ref st pl := by
  have hepoch : u.epoch = s.epoch := h.parts .epoch hp
  have hvers : u.ver = s.ver := by rw [State.ver, State.ver, h.get _ hver]
  rw [Queued, ← hepoch, ← hvers, ← h.rings e he]
  exact hq

end

-- What the signals do

/-- A mask bit set reads back. -/
theorem testBit_setBit_true (m i : Nat) : (setBit m i true).testBit i = true := by
  unfold setBit
  split
  · assumption
  · next h =>
    rw [if_pos rfl, Nat.add_comm, Nat.testBit_two_pow_add_eq]
    simpa using h

theorem exec_mirrorConfirm (s : State) (k : Fin 12) (closed : Bool) (us : Nat) (h : s.runs = true) :
    Ends (exec (.mirrorConfirm k closed us) s) fun t =>
      t.on (F.BAYK_STATE_CLOSED k) = closed ∧ t.outlet k = { s.outlet k with mirOpen := !closed, mirUs := us } ∧ (∀ j, j ≠ k.val → t.outlet j = s.outlet j)
      ∧ (t.pf.confirmed.testBit k = (s.pf.confirmed.testBit k || (s.pf.warned && !closed && bit s.pf.closed k)))
      ∧ Keeps s t (among [(F.BAYK_STATE_CLOSED k).addr]) [] [.outlets, .pf] := by
  let u := (s.put (F.BAYK_STATE_CLOSED k) closed.toNat).setOutlet k { s.outlet k with mirOpen := !closed, mirUs := us }
  let v : State := { u with pf := { u.pf with confirmed := setBit u.pf.confirmed k true } }
  have hclosed : u.on (F.BAYK_STATE_CLOSED k) = closed := State.put_on_bool s _ closed rfl (by simp [F.BAYK_STATE_CLOSED])
  have hsame : u.outlet k = { s.outlet k with mirOpen := !closed, mirUs := us } := State.setOutlet_outlet_same _ _ _
  have hother : ∀ j, j ≠ k.val → u.outlet j = s.outlet j := fun j hj => State.setOutlet_outlet_other _ _ _ _ hj
  have hkeep : Keeps s u (among [(F.BAYK_STATE_CLOSED k).addr]) [] [.outlets, .pf] :=
    ((Keeps.refl s _ _ _).put _ _ (by simp)).setOutlet _ _ (by simp)
  have hexec : exec (.mirrorConfirm k closed us) s = if s.pf.warned && !closed && bit s.pf.closed k then done v else done u := by
    rw [show exec (.mirrorConfirm k closed us) s = execMirrorConfirm k closed us s from rfl, execMirrorConfirm, State.onFabric_runs _ _ h]
    rfl
  by_cases hpf : (s.pf.warned && !closed && bit s.pf.closed k) = true
  · refine ⟨v.settle, by rw [hexec, if_pos hpf]; rfl, hclosed, hsame, hother, ?_, ?_⟩
    · rw [hpf, Bool.or_true]
      exact testBit_setBit_true _ _
    · exact (hkeep.fields (t := u) fun p hp => by cases p <;> simp_all [Part.same, State.sramByte]).settle
  · refine ⟨u.settle, by rw [hexec, if_neg hpf]; rfl, hclosed, hsame, hother, ?_, hkeep.settle⟩
    rw [Bool.eq_false_iff.mpr hpf, Bool.or_false]
    rfl

/-- A command that changes only what its outlet keeps beside its registers. -/
theorem Ends.setOutlet {o : Out} {s : State} {k : Nat} {x : Outlet} (h : o = done (s.setOutlet k x)) :
    Ends o fun t => t.outlet k = x ∧ (∀ j, j ≠ k → t.outlet j = s.outlet j) ∧ Keeps s t (among []) [] [.outlets] :=
  ⟨_, h, State.setOutlet_outlet_same s k x, fun j hj => State.setOutlet_outlet_other s k j x hj,
    ((Keeps.refl s _ _ _).setOutlet k x (by simp)).settle⟩

theorem exec_auxContactorDelay (s : State) (k : Fin 12) (h : s.runs = true) (hmode : s.get (F.BAYK_CFG_AUX_MODE k) = 2)
    (hcon : (s.outlet k).conM = true) (hclosed : s.on (F.BAYK_STATE_CLOSED k) = true) :
    Ends (exec (.auxContactorDelay k) s) fun t =>
      t.outlet k = { s.outlet k with conA := true } ∧ (∀ j, j ≠ k.val → t.outlet j = s.outlet j) ∧ Keeps s t (among []) [] [.outlets] :=
  Ends.setOutlet (by
    rw [show exec (.auxContactorDelay k) s = execAuxContactorDelay k s from rfl, execAuxContactorDelay, State.onFabric_runs _ _ h]
    exact if_pos ⟨hmode, hcon, hclosed⟩)

theorem exec_ocGraceEnd (s : State) (k : Fin 12) (h : s.runs = true) :
    Ends (exec (.ocGraceEnd k) s) fun t =>
      t.outlet k = { s.outlet k with grace := (s.outlet k).grace.tail } ∧ (∀ j, j ≠ k.val → t.outlet j = s.outlet j)
      ∧ Keeps s t (among []) [] [.outlets] :=
  Ends.setOutlet (by
    rw [show exec (.ocGraceEnd k) s = execOcGraceEnd k s from rfl, execOcGraceEnd, State.onFabric_runs _ _ h])

theorem exec_causeWaitTimeout (s : State) (k : Fin 12) (h : s.runs = true) (hon : s.bayOn k = true) (hbay : closedState (s.bay k) = true)
    (hdriven : s.driven k = true) (hlow : s.outHigh k = false) (hlatch : s.latched k = false) (hwarn : s.pf.warned = false)
    (hbench : s.boot.bench = false) :
    Ends (exec (.causeWaitTimeout k) s) fun t =>
      t.outlet k = { s.outlet k with causeOut := true } ∧ (∀ j, j ≠ k.val → t.outlet j = s.outlet j) ∧ Keeps s t (among []) [] [.outlets] :=
  Ends.setOutlet (by
    rw [show exec (.causeWaitTimeout k) s = execCauseWaitTimeout k s from rfl, execCauseWaitTimeout, State.onFabric_runs _ _ h]
    exact if_pos (by simp [hon, hbay, hdriven, hlow, hlatch, hwarn, hbench]))

theorem exec_lockPulseEnd (s : State) (k : Fin 12) (h : s.runs = true) :
    Ends (exec (.lockPulseEnd k) s) fun t =>
      t.outlet k = { s.outlet k with lckA := false, lckB := false } ∧ (∀ j, j ≠ k.val → t.outlet j = s.outlet j) ∧ Keeps s t (among []) [] [.outlets] :=
  Ends.setOutlet (by
    rw [show exec (.lockPulseEnd k) s = execLockPulseEnd k s from rfl, execLockPulseEnd, State.onFabric_runs _ _ h])

/-- The lock has reached the position a drive went to. -/
def State.lockConfirmed (s : State) (k : Nat) (locked : Bool) : State :=
  (s.put (F.BAYK_STATE_LOCKED k) locked.toNat).setOutlet k { s.outlet k with lockDir := 0, lockTry := 0, lockWait := false }

theorem exec_lockFeedbackConfirm (s : State) (k : Fin 12) (locked : Bool) (ms : Nat) (h : s.runs = true) :
    Ends (exec (.lockFeedbackConfirm k locked ms) s) fun t =>
      t.on (F.BAYK_STATE_LOCKED k) = locked
      ∧ ((s.outlet k).lockDir = (if locked then 1 else 2) → (t.outlet k).lockDir = 0 ∧ (t.outlet k).lockTry = 0 ∧ t.get (hdrPend (0x30 + k) 3) = 1
          ∧ (s.takes (3 + k) → ∃ pl, Queued s t (3 + k) 0x44 none 0 pl))
      ∧ ((s.outlet k).lockDir ≠ (if locked then 1 else 2) → t.outlet k = s.outlet k) ∧ (∀ j, j ≠ k.val → t.outlet j = s.outlet j)
      ∧ Keeps s t (fun a => a = (F.BAYK_STATE_LOCKED k).addr ∨ eventRegs (0x30 + k) 3 a) [3 + k.val] [.outlets] := by
  have hlocked : (s.put (F.BAYK_STATE_LOCKED k) locked.toNat).on (F.BAYK_STATE_LOCKED k) = locked :=
    State.put_on_bool s _ locked rfl (by simp [F.BAYK_STATE_LOCKED])
  have hkeep : Keeps s (s.put (F.BAYK_STATE_LOCKED k) locked.toNat)
      (fun a => a = (F.BAYK_STATE_LOCKED k).addr ∨ eventRegs (0x30 + k) 3 a) [3 + k.val] [.outlets] := (Keeps.refl s _ _ _).put _ _ (.inl rfl)
  have hexec : exec (.lockFeedbackConfirm k locked ms) s
      = if (s.outlet k).lockDir = (if locked then 1 else 2) then done ((s.lockConfirmed k locked).note k 0x44 cNone locked.toNat ms noSeq)
        else done (s.put (F.BAYK_STATE_LOCKED k) locked.toNat) := by
    rw [show exec (.lockFeedbackConfirm k locked ms) s = execLockFeedbackConfirm k locked ms s from rfl, execLockFeedbackConfirm,
      State.onFabric_runs _ _ h]
    rfl
  by_cases hdir : (s.outlet k).lockDir = (if locked then 1 else 2)
  · have hsame : (s.lockConfirmed k locked).outlet k = { s.outlet k with lockDir := 0, lockTry := 0, lockWait := false } :=
      State.setOutlet_outlet_same _ _ _
    refine ⟨_, hexec.trans (if_pos hdir), ?_, fun _ => ⟨?_, ?_, ?_, fun htakes => ?_⟩, fun hne => absurd hdir hne, fun j hj => ?_, ?_⟩
    · rw [State.settle_on, State.note_on _ _ _ _ _ _ _ _ (by simp only [F.BAYK_STATE_LOCKED]; omega)]
      exact hlocked
    · rw [State.settle_outlet, State.note_outlet, hsame]
    · rw [State.settle_outlet, State.note_outlet, hsame]
    · rw [State.settle_get]
      exact State.note_pend _ _ _ _ _ _ rfl
    · have hunsent : Keeps s (s.lockConfirmed k locked) (among [(F.BAYK_STATE_LOCKED k).addr]) [] [.outlets] :=
        ((Keeps.refl s _ _ _).put _ _ (by simp)).setOutlet _ _ (by simp)
      obtain ⟨pl, hqueued⟩ := State.note_queued _ k 0x44 cNone locked.toNat ms noSeq
        (hunsent.takes (by simp) (by simp only [List.mem_singleton, F.HLKR_RING_CFG_COUNT_CODE, F.BAYK_STATE_LOCKED]; omega) htakes)
      exact ⟨pl, hunsent.queued (by simp) (by simp only [List.mem_singleton, F.HLK_LINK_VER, F.BAYK_STATE_LOCKED]; omega) (by simp) hqueued⟩
    · rw [State.settle_outlet, State.note_outlet]
      exact State.setOutlet_outlet_other _ _ _ _ hj
    · exact ((hkeep.setOutlet _ _ (by simp)).noteCond rfl _ _ _ _ _ (by simp) fun _ ha => .inr ha).settle
  · exact ⟨_, hexec.trans (if_neg hdir), hlocked, fun heq => absurd heq hdir, fun _ => rfl, fun _ _ => rfl, hkeep.settle⟩

theorem exec_lockConfirmTimeout_wait (s : State) (k : Fin 12) (h : s.runs = true) (hdir : (s.outlet k).lockDir ≠ 0)
    (hwait : (s.outlet k).lockWait = false) (htry : (s.outlet k).lockTry < 2) :
    Ends (exec (.lockConfirmTimeout k) s) fun t =>
      t.outlet k = { s.outlet k with lockWait := true } ∧ (∀ j, j ≠ k.val → t.outlet j = s.outlet j) ∧ Keeps s t (among []) [] [.outlets] :=
  Ends.setOutlet (by
    rw [show exec (.lockConfirmTimeout k) s = execLockConfirmTimeout k s from rfl, execLockConfirmTimeout, State.onFabric_runs _ _ h]
    exact (if_neg (by simp [hdir, hwait])).trans (if_pos htry))

/-- A drive has failed twice (R300): a failed lock ends the authorisation. -/
def State.lockFailed (s : State) (k : Nat) : State :=
  (if (s.outlet k).lockDir = 1 then s.put (F.BAYK_STATE_AUTHORISED k) 0 else s).took.setOutlet k { s.outlet k with lockDir := 0, lockTry := 0 }

theorem exec_lockConfirmTimeout_failed (s : State) (k : Fin 12) (h : s.runs = true) (hdir : (s.outlet k).lockDir ≠ 0)
    (hwait : (s.outlet k).lockWait = false) (htry : 2 ≤ (s.outlet k).lockTry) :
    Ends (exec (.lockConfirmTimeout k) s) fun t =>
      (t.outlet k).lockDir = 0 ∧ ((s.outlet k).lockDir = 1 → t.on (F.BAYK_STATE_AUTHORISED k) = false) ∧ t.get (hdrPend (0x30 + k) 3) = 1
      ∧ Keeps s t (fun a => a = (F.BAYK_STATE_AUTHORISED k).addr ∨ eventRegs (0x30 + k) 3 a) [3 + k.val] [.outlets, .fresh] := by
  have hexec : ∃ v, exec (.lockConfirmTimeout k) s = done ((s.lockFailed k).note k 0x44 cLock 2 v noSeq) := by
    rw [show exec (.lockConfirmTimeout k) s = execLockConfirmTimeout k s from rfl, execLockConfirmTimeout, State.onFabric_runs _ _ h]
    exact ⟨_, (if_neg (by simp [hdir, hwait])).trans (if_neg (by omega))⟩
  obtain ⟨v, hexec⟩ := hexec
  have hsame : (s.lockFailed k).outlet k = { s.outlet k with lockDir := 0, lockTry := 0 } := State.setOutlet_outlet_same _ _ _
  have hkeep : Keeps s (s.lockFailed k) (fun a => a = (F.BAYK_STATE_AUTHORISED k).addr ∨ eventRegs (0x30 + k) 3 a) [3 + k.val] [.outlets, .fresh] :=
    ((Keeps.ite ((Keeps.refl s _ _ _).put _ _ (.inl rfl)) (Keeps.refl s _ _ _)).took (by simp)).setOutlet _ _ (by simp)
  refine ⟨_, hexec, ?_, fun hlock => ?_, ?_, (hkeep.noteCond rfl _ _ _ _ _ (by simp) fun _ ha => .inr ha).settle⟩
  · rw [State.settle_outlet, State.note_outlet, hsame]
  · rw [State.settle_on, State.note_on _ _ _ _ _ _ _ _ (by simp only [F.BAYK_STATE_AUTHORISED]; omega), State.lockFailed, if_pos hlock]
    exact State.put_on_bool s _ false rfl (by simp [F.BAYK_STATE_AUTHORISED])
  · rw [State.settle_get]
    exact State.note_pend _ _ _ _ _ _ rfl

theorem exec_lockRepeat (s : State) (k : Fin 12) (h : s.runs = true) (hwait : (s.outlet k).lockWait = true) (hwarn : s.pf.warned = false) :
    Ends (exec (.lockRepeat k) s) fun t =>
      t.outlet k = { s.outlet k with lockTry := 2, lockWait := false, lckA := (s.outlet k).lockDir == 1, lckB := (s.outlet k).lockDir == 2 }
      ∧ (∀ j, j ≠ k.val → t.outlet j = s.outlet j) ∧ Keeps s t (among []) [] [.outlets] :=
  Ends.setOutlet (by
    rw [show exec (.lockRepeat k) s = execLockRepeat k s from rfl, execLockRepeat, State.onFabric_runs _ _ h]
    exact if_pos ⟨hwait, hwarn⟩)

/-- Settles O31, clause by clause. -/
theorem contactorAndLockSignals : Obligations.ContactorAndLockSignals :=
  ⟨exec_mirrorConfirm, exec_auxContactorDelay, exec_ocGraceEnd, exec_causeWaitTimeout, exec_lockPulseEnd, exec_lockFeedbackConfirm,
    exec_lockConfirmTimeout_wait, exec_lockConfirmTimeout_failed, exec_lockRepeat⟩

end Sys2Proof.Machine

/-! What an outlet's operations touch, and what entering a state does (O32, O33, O34). -/
namespace Sys2Proof.Machine

/-- `t` is `s` but for the registers in `R`, the ring entries in `E` and the parts in `P`, and no other outlet than `k` keeps anything new. -/
structure Confined (k : Nat) (s t : State) (R : Nat → Prop) (E : List Nat) (P : List Part) : Prop where
  keeps : Keeps s t R E P
  others : ∀ j, j ≠ k → t.outlet j = s.outlet j

/-- Bounds with room for an outlet's own page, its ring and what it keeps beside its registers. -/
structure OwnRoom (k : Nat) (R : Nat → Prop) (E : List Nat) (P : List Part) : Prop where
  own : ∀ a, a / 4096 = 0x30 + k → R a
  lost : ∀ a, lostRegs a → R a
  ring : 3 + k ∈ E
  outlets : Part.outlets ∈ P

/-- Bounds with room for the copy of the state in BAY's page too. -/
structure BayRoom (k : Nat) (R : Nat → Prop) (E : List Nat) (P : List Part) : Prop extends OwnRoom k R E P where
  lt : k < 12
  page : ∀ a, a / 4096 = 0x16 → R a

/-- Bounds with room for an outlet's session. -/
structure SesRoom (k : Nat) (R : Nat → Prop) (P : List Part) : Prop where
  lt : k < 12
  page : ∀ a, a / 4096 = 0x19 → R a
  se : Part.se ∈ P

/-- The registers entering a state may touch: STATE, VIOL, BAY's page, and what its event touches. -/
abbrev enterRegs (k a : Nat) : Prop := a = (F.BAYK_STATE_CODE k).addr ∨ a = A.BAYK_VIOL k ∨ a / 4096 = 0x16 ∨ bayEventRegs k a

theorem BayRoom.onPages {k : Nat} {l : List Nat} {E : List Nat} {P : List Part} (hk : k < 12) (h16 : 0x16 ∈ l) (hown : 0x30 + k ∈ l) (he : 3 + k ∈ E)
    (ho : Part.outlets ∈ P) : BayRoom k (onPages l) E P :=
  { own := fun _ ha => .inl (ha ▸ hown), lost := fun _ ha => .inr ha, ring := he, outlets := ho, lt := hk, page := fun _ ha => .inl (ha ▸ h16) }

theorem SesRoom.onPages {k : Nat} {l : List Nat} {P : List Part} (hk : k < 12) (h19 : 0x19 ∈ l) (hs : Part.se ∈ P) : SesRoom k (onPages l) P :=
  { lt := hk, page := fun _ ha => .inl (ha ▸ h19), se := hs }

theorem Confined.refl (k : Nat) (s : State) (R : Nat → Prop) (E : List Nat) (P : List Part) : Confined k s s R E P := ⟨Keeps.refl s R E P, fun _ _ => rfl⟩

section
variable {k : Nat} {s t u : State} {R : Nat → Prop} {E : List Nat} {P : List Part}

theorem Confined.trans (h : Confined k s t R E P) (h' : Confined k t u R E P) : Confined k s u R E P :=
  ⟨h.keeps.trans h'.keeps, fun j hj => (h'.others j hj).trans (h.others j hj)⟩

/-- A step that leaves every outlet's own state. -/
theorem Confined.step (h : Confined k s t R E P) (hk : Keeps s u R E P) (ho : u.outlets = t.outlets) : Confined k s u R E P :=
  ⟨hk, fun j hj => (congrArg (fun l => spRead (fun _ => ({} : Outlet)) l j) ho).trans (h.others j hj)⟩

theorem Confined.ite {c : Prop} [Decidable c] {v : State} (h : Confined k s u R E P) (h' : Confined k s v R E P) :
    Confined k s (if c then u else v) R E P := by split <;> assumption

theorem Confined.put (h : Confined k s t R E P) (f : Fld) (v : Nat) (hf : R f.addr) : Confined k s (t.put f v) R E P :=
  h.step (h.keeps.put f v hf) rfl

theorem Confined.incSat (h : Confined k s t R E P) (f : Fld) (hf : R f.addr) : Confined k s (t.incSat f) R E P := h.step (h.keeps.incSat f hf) rfl

theorem Confined.inc (h : Confined k s t R E P) (f : Fld) (hf : R f.addr) : Confined k s (t.inc f) R E P := h.step (h.keeps.inc f hf) rfl

theorem Confined.setReg (h : Confined k s t R E P) (a : Nat) (w : W32) (ha : R a) : Confined k s (t.setReg a w) R E P :=
  h.step (h.keeps.setReg a w ha) rfl

theorem Confined.setOutlet (h : Confined k s t R E P) (x : Outlet) (ho : Part.outlets ∈ P) : Confined k s (t.setOutlet k x) R E P :=
  ⟨h.keeps.setOutlet k x ho, fun j hj => (State.setOutlet_outlet_other t k j x hj).trans (h.others j hj)⟩

theorem Confined.setRc (h : Confined k s t R E P) (j : Nat) (x : Rcm) (hp : Part.rcm ∈ P) : Confined k s (t.setRc j x) R E P :=
  h.step (h.keeps.setRc j x hp) rfl

theorem Confined.withSe (h : Confined k s t R E P) (x : Sessions) (hp : Part.se ∈ P) : Confined k s { t with se := x } R E P :=
  h.step (h.keeps.withSe x hp) rfl

theorem Confined.emit (h : Confined k s t R E P) (e typ : Nat) (ref : Option Nat) (st : Nat) (pl : List Byte) (he : e ∈ E)
    (hl : ∀ a, lostRegs a → R a) : Confined k s (t.emit e typ ref st pl) R E P :=
  h.step (h.keeps.emit e typ ref st pl he hl) (t.emit_part e typ ref st pl .outlets)

theorem OwnRoom.event (hr : OwnRoom k R E P) (a : Nat) (ha : bayEventRegs k a) : R a := ha.elim (fun hpage => hr.own a hpage.1) (hr.lost a)

theorem BayRoom.enter (hr : BayRoom k R E P) (a : Nat) (ha : enterRegs k a) : R a := by
  rcases ha with rfl | rfl | ha | ha
  · exact hr.own _ (by simp only [F.BAYK_STATE_CODE]; omega)
  · exact hr.own _ (by simp only [A.BAYK_VIOL]; omega)
  · exact hr.page a ha
  · exact hr.toOwnRoom.event a ha

theorem Confined.bayEventAt (h : Confined k s t R E P) (hR : ∀ a, bayEventRegs k a → R a) (he : 3 + k ∈ E)
    (typ old new cause detail period value seq : Nat) : Confined k s (t.bayEventAt k typ old new cause detail period value seq).1 R E P :=
  h.step (h.keeps.trans ((t.bayEventAt_keeps k typ old new cause detail period value seq).mono hR (by simpa using he) (by simp)))
    ((t.bayEventAt_keeps k typ old new cause detail period value seq).parts .outlets (by simp))

theorem Confined.note (h : Confined k s t R E P) (hr : OwnRoom k R E P) (typ cause detail value seq : Nat) :
    Confined k s (t.note k typ cause detail value seq) R E P := h.bayEventAt hr.event hr.ring typ _ _ _ _ _ _ _

-- State changes (R289)

/-- The states that end an authorisation (R289). -/
def hardState (new : Nat) : Prop := new = stFaultF ∨ new = stTripped ∨ new = stWelded ∨ new = stService

/-- STATE and its copy in BAY's page. -/
def State.writeState (s : State) (k new cause target : Nat) : State :=
  (((s.put (F.BAYK_STATE_CODE k) new).put ⟨A.BAY_STATE (k / 4), 8 * (k % 4), 8⟩ new).put (F.BAYK_STATE_TARGET k) target).put (F.BAYK_STATE_CAUSE k) cause

/-- The authorisation ends in a hard state. -/
def State.endAuth (s : State) (k new : Nat) : State :=
  if new = stFaultF ∨ new = stTripped ∨ new = stWelded ∨ new = stService then s.put (F.BAYK_STATE_AUTHORISED k) 0 else s

/-- The overcurrent level ends where no current is allowed. -/
def State.endLevel (s : State) (k new : Nat) : State :=
  if new = stCharging ∨ new = stWithdrawing then s else s.put (F.BAYK_VIOL_LEVEL k) 0

/-- A self-test is asked for on entry to CONNECTED (R328). -/
def State.askTest (s : State) (k new : Nat) : State :=
  if new = stConnected && !s.testFresh k then s.setRc k { s.rc k with auto := true } else s

/-- A state entered, but for its event. -/
def State.entered (s : State) (k new cause target : Nat) : State :=
  ((((s.writeState k new cause target).bumpSeq (0x30 + k)).endAuth k new).endLevel k new).askTest k new

theorem State.enter'_eq (s : State) (k new cause target seq : Nat) :
    s.enter' k new cause target seq
      = (s.entered k new cause target).bayEvent k 0x40 (s.bay k) new cause target ((s.entered k new cause target).allowance k).1 seq := rfl

theorem Confined.enter' (h : Confined k s t R E P) (hk : k < 12) (hR : ∀ a, enterRegs k a → R a) (he : 3 + k ∈ E) (new cause target seq : Nat)
    (hrcm : new = stConnected → Part.rcm ∈ P) : Confined k s (t.enter' k new cause target seq).1 R E P := by
  have hwrite : Confined k s (t.writeState k new cause target) R E P :=
    (((h.put (F.BAYK_STATE_CODE k) _ (hR _ (.inl rfl))).put _ _ (hR _ (.inr (.inr (.inl (by simp only [A.BAY_STATE]; omega)))))).put
      (F.BAYK_STATE_TARGET k) _ (hR _ (.inl rfl))).put (F.BAYK_STATE_CAUSE k) _ (hR _ (.inl rfl))
  have hseq := hwrite.inc (hdrSeq (0x30 + k)) (hR _ (.inr (.inr (.inr (.inl (by simp only [hdrSeq]; omega))))))
  have hauth : Confined k s (((t.writeState k new cause target).bumpSeq (0x30 + k)).endAuth k new) R E P :=
    (hseq.put (F.BAYK_STATE_AUTHORISED k) _ (hR _ (.inl rfl))).ite hseq
  have hlevel : Confined k s ((((t.writeState k new cause target).bumpSeq (0x30 + k)).endAuth k new).endLevel k new) R E P :=
    hauth.ite (hauth.put (F.BAYK_VIOL_LEVEL k) _ (hR _ (.inr (.inl rfl))))
  have hentered : Confined k s (t.entered k new cause target) R E P := by
    rw [State.entered, State.askTest]
    split
    · next htest => exact hlevel.setRc _ _ (hrcm (by simp at htest; exact htest.1))
    · exact hlevel
  exact hentered.bayEventAt (fun a ha => hR a (.inr (.inr (.inr ha)))) he _ _ _ _ _ _ _ _

theorem Confined.enter (h : Confined k s t R E P) (hr : BayRoom k R E P) (new cause seq : Nat) (hrcm : new = stConnected → Part.rcm ∈ P) :
    Confined k s (t.enter k new cause seq) R E P := h.enter' hr.lt hr.enter hr.ring new cause 0 seq hrcm

theorem Confined.setPilot (h : Confined k s t R E P) (p : Nat × Nat) (ho : Part.outlets ∈ P) : Confined k s (t.setPilot k p) R E P := h.setOutlet _ ho

theorem Confined.outputsLow (h : Confined k s t R E P) (ho : Part.outlets ∈ P) : Confined k s (t.outputsLow k) R E P := h.setOutlet _ ho

theorem Confined.askUnlock (h : Confined k s t R E P) (ho : Part.outlets ∈ P) : Confined k s (t.askUnlock k) R E P := (h.setOutlet _ ho).ite h

theorem Confined.openNow (h : Confined k s t R E P) (hr : BayRoom k R E P) (cause target seq : Nat) :
    Confined k s (t.openNow k cause target seq) R E P :=
  ((h.outputsLow hr.outlets).enter' hr.lt hr.enter hr.ring stOpening cause target seq fun heq => absurd heq (by decide)).setOutlet _ hr.outlets

theorem Confined.withdraw (h : Confined k s t R E P) (hr : BayRoom k R E P) (cause seq : Nat) (stateF byAllow : Bool) :
    Confined k s (t.withdraw k cause seq stateF byAllow) R E P :=
  (((h.setOutlet _ hr.outlets).setPilot _ hr.outlets).enter' hr.lt hr.enter hr.ring stWithdrawing cause 0 seq fun heq => absurd heq (by decide)).setOutlet _ hr.outlets

theorem Confined.enterHard (h : Confined k s t R E P) (hr : BayRoom k R E P) (new cause seq : Nat) (hnew : new ≠ stConnected) :
    Confined k s (t.enterHard k new cause seq) R E P := by
  have henter := ((h.outputsLow hr.outlets).setPilot pilotLow hr.outlets).enter' hr.lt hr.enter hr.ring new cause 0 seq fun heq => absurd heq hnew
  exact (henter.setOutlet _ hr.outlets).ite (henter.setOutlet _ hr.outlets)

theorem Confined.stopOutlet (h : Confined k s t R E P) (hr : BayRoom k R E P) (cause seq : Nat) (hrcm : Part.rcm ∈ P) :
    Confined k s (t.stopOutlet k cause seq) R E P := by
  have hauth := h.put (F.BAYK_STATE_AUTHORISED k) 0 (hr.own _ (by simp only [F.BAYK_STATE_AUTHORISED]; omega))
  exact (((hauth.setPilot pilotHigh hr.outlets).askUnlock hr.outlets).enter hr stConnected cause seq fun _ => hrcm).ite
    ((hauth.openNow hr cause _ seq).ite ((hauth.withdraw hr cause seq false false).ite ((hauth.setOutlet _ hr.outlets).ite hauth)))

theorem Confined.violate (h : Confined k s t R E P) (hr : OwnRoom k R E P) (cause value : Nat) : Confined k s (t.violate k cause value) R E P :=
  (h.incSat (F.BAYK_VIOL_TOTAL k) (hr.own _ (by simp only [F.BAYK_VIOL_TOTAL]; omega))).note hr _ _ _ _ _

theorem Confined.takeFault (h : Confined k s t R E P) (hr : OwnRoom k R E P) (cause : Nat) : Confined k s (t.takeFault k cause) R E P := by
  have hlatch (u : State) (hu : Confined k s u R E P) := hu.put (F.BAYK_STATE_LATCHED k) 1 (hr.own _ (by simp only [F.BAYK_STATE_LATCHED]; omega))
  have hfault := (h.put (F.BAYK_STATE_AUTHORISED k) 0 (hr.own _ (by simp only [F.BAYK_STATE_AUTHORISED]; omega))).setOutlet
    { t.outlet k with fault := cause } hr.outlets
  have hretry := hfault.incSat (F.BAYK_VIOL_RETRIES k) (hr.own _ (by simp only [F.BAYK_VIOL_RETRIES]; omega))
  exact ((hlatch _ hretry).ite hretry).ite (hlatch _ hfault)

theorem Confined.hardFault (h : Confined k s t R E P) (hr : BayRoom k R E P) (cause : Nat) : Confined k s (t.hardFault k cause) R E P :=
  have hfault := (h.takeFault hr.toOwnRoom cause).setPilot pilotLow hr.outlets
  (hfault.openNow hr _ _ _).ite (hfault.enter hr _ _ _ fun heq => absurd heq (by decide))

theorem Confined.hardViolation (h : Confined k s t R E P) (hr : BayRoom k R E P) (cause value : Nat) :
    Confined k s (t.hardViolation k cause value) R E P := (h.violate hr.toOwnRoom cause value).hardFault hr cause

theorem Confined.softViolation (h : Confined k s t R E P) (hr : BayRoom k R E P) (cause value : Nat) :
    Confined k s (t.softViolation k cause value) R E P := ((h.violate hr.toOwnRoom cause value).takeFault hr.toOwnRoom cause).withdraw hr _ _ _ _

theorem Confined.weld (h : Confined k s t R E P) (hr : BayRoom k R E P) (cause : Nat) : Confined k s (t.weld k cause) R E P :=
  (((h.note hr.toOwnRoom _ _ _ _ _).setOutlet _ hr.outlets).enterHard hr _ _ _ (by decide)).setOutlet _ hr.outlets

-- Sessions (R344)

theorem Confined.setSession (h : Confined k s t R E P) (x : Session) (hp : Part.se ∈ P) : Confined k s (t.setSession k x) R E P := h.withSe _ hp

theorem Confined.saveEntry (h : Confined k s t R E P) (hp : Part.se ∈ P) : Confined k s (t.saveEntry k) R E P := (h.withSe _ hp).ite (h.withSe _ hp)

theorem Confined.setSes (h : Confined k s t R E P) (hr : SesRoom k R P) (st : Nat) : Confined k s (t.setSes k st) R E P :=
  ((h.put _ _ (hr.page _ (by have := hr.lt; simp only [F.SES_OUT_STAT_STATE]; omega))).put _ _
    (hr.page _ (show A.SES_ACTIVE_MASK / 4096 = 0x19 by decide))).saveEntry hr.se

theorem Confined.sesLow (h : Confined k s t R E P) (hp : Part.se ∈ P) : Confined k s (t.sesLow k) R E P := ((h.setSession _ hp).saveEntry hp).ite h

theorem Confined.err (h : Confined k s t R E P) (p c : Nat) (h1 : R (p * 4096 + 0x01C)) (h2 : R (p * 4096 + 0x020)) :
    Confined k s (t.err p c) R E P := (h.put _ _ h1).incSat _ h2

theorem Confined.took (h : Confined k s t R E P) (hp : Part.fresh ∈ P) : Confined k s t.took R E P := h.step (h.keeps.took hp) rfl

theorem Confined.sesAnswer (h : Confined k s t R E P) (hr : OwnRoom k R E P) (hs : SesRoom k R P) (typ ref status : Nat) (result : Option Nat)
    (mark : Nat) (hp : Part.fresh ∈ P) : Confined k s (t.sesAnswer k typ ref status result mark) R E P := by
  have herr : Confined k s (if status = 0 then t else t.err 0x19 status) R E P :=
    h.ite (h.err 0x19 status (hs.page _ (by decide)) (hs.page _ (by decide)))
  cases result with
  | none => exact (herr.emit _ _ _ _ _ hr.ring hr.lost).took hp
  | some r => exact herr.emit _ _ _ _ _ hr.ring hr.lost

theorem Confined.endReferral (h : Confined k s t R E P) (hr : OwnRoom k R E P) (hs : SesRoom k R P) (result : Option Nat) (hp : Part.fresh ∈ P) :
    Confined k s (t.endReferral k result) R E P := by
  have hidle := (h.setSession { t.session k with referral := none } hs.se).setSes hs sesIdle
  unfold State.endReferral
  extract_lets x v
  split
  · exact hidle.sesAnswer hr hs _ _ _ _ _ hp
  · exact hidle

theorem Confined.sesBegin (h : Confined k s t R E P) (hs : SesRoom k R P) : Confined k s (t.sesBegin k) R E P := by
  have hk := hs.lt
  have hbegun := ((h.withSe { t.se with nextId := (t.se.nextId + 1) % 2 ^ 32 } hs.se).setSession
    { key := (t.session k).key, context := (t.session k).context, limit := (t.session k).limit, source := (t.session k).source,
      group := (t.session k).group } hs.se)
  exact ((((((((hbegun.put (F.SES_OUT_SESSION_ID k) _ (hs.page _ (by simp only [F.SES_OUT_SESSION_ID]; omega))).put (F.SES_OUT_ENERGY_WH k) 0
    (hs.page _ (by simp only [F.SES_OUT_ENERGY_WH]; omega))).put (F.SES_OUT_COST k) 0 (hs.page _ (by simp only [F.SES_OUT_COST]; omega))).put
    (F.SES_OUT_DURATION k) 0 (hs.page _ (by simp only [F.SES_OUT_DURATION]; omega))).put (F.SES_OUT_IDLE_S k) 0
    (hs.page _ (by simp only [F.SES_OUT_IDLE_S]; omega))).put (F.SES_OUT_STAT_REAUTH k) 0
    (hs.page _ (by simp only [F.SES_OUT_STAT_REAUTH]; omega))).put F.SES_SESSION_NEXT _ (hs.page _ (by decide))).setSes hs _)

theorem Confined.authorise (h : Confined k s t R E P) (hauth : R (F.BAYK_STATE_AUTHORISED k).addr) : Confined k s (t.authorise k) R E P :=
  h.put _ _ hauth

theorem Confined.sesStop (h : Confined k s t R E P) (hr : BayRoom k R E P) (hs : SesRoom k R P) (reason : Nat) (hrcm : Part.rcm ∈ P) :
    Confined k s (t.sesStop k reason) R E P := by
  unfold State.sesStop
  extract_lets x st
  split
  · split
    · exact h.setSession _ hs.se
    · exact h
  · have hreason := h.setSession { x with reason := reason } hs.se
    exact (((((hreason.stopOutlet hr cSes noSeq hrcm).ite hreason).setSes hs sesEnding).sesLow hs.se)).ite h

theorem Confined.sesGone (h : Confined k s t R E P) (hr : BayRoom k R E P) (hs : SesRoom k R P) (classA : Bool) (hrcm : Part.rcm ∈ P)
    (hp : Part.fresh ∈ P) : Confined k s (t.sesGone k classA) R E P :=
  ((h.endReferral hr.toOwnRoom hs none hp).ite h).ite (h.sesStop hr hs 2 hrcm)

end

end Sys2Proof.Machine

/-! How a session follows its outlet (O32, O33, O34): page 0x19, the session's own data, and AUTHORISED. -/
namespace Sys2Proof.Machine

/-- The registers a session's answer to its outlet may touch: SES's page, STATE (where AUTHORISED stands), and HLK's record of a lost marker. -/
abbrev sesRegs (k a : Nat) : Prop := a / 4096 = 0x19 ∨ a = (F.BAYK_STATE_AUTHORISED k).addr ∨ lostRegs a

/-- `t` is `s` after outlet k's session has followed it: of STATE only AUTHORISED may have moved. -/
structure Followed (k : Nat) (s t : State) (P : List Part) : Prop where
  keeps : Keeps s t (sesRegs k) [3 + k] P
  state : ∀ f : Fld, f.addr = (F.BAYK_STATE_AUTHORISED k).addr → f.lsb + f.wid ≤ 24 ∨ 25 ≤ f.lsb → t.get f = s.get f

theorem Followed.refl (k : Nat) (s : State) (P : List Part) : Followed k s s P := ⟨Keeps.refl s _ _ _, fun _ _ _ => rfl⟩

section
variable {k : Nat} {s t u : State} {P : List Part}

theorem Followed.trans (h : Followed k s t P) (h' : Followed k t u P) : Followed k s u P :=
  ⟨h.keeps.trans h'.keeps, fun f hf hb => (h'.state f hf hb).trans (h.state f hf hb)⟩

theorem Followed.mono {Q : List Part} (h : Followed k s t P) (hp : ∀ p ∈ P, p ∈ Q) : Followed k s t Q :=
  ⟨h.keeps.mono (fun _ ha => ha) (fun _ he => he) hp, h.state⟩

/-- A step within SES's page, the outlet's ring and the session's data. -/
theorem Followed.ses (h : Followed k s t P) (hk : Keeps t u (fun a => a / 4096 = 0x19 ∨ lostRegs a) [3 + k] P) : Followed k s u P :=
  h.trans ⟨hk.mono (fun _ ha => ha.imp_right .inr) (fun _ he => he) fun _ hp => hp, fun f hf _ => hk.get f (by
    rw [hf]; simp only [F.BAYK_STATE_AUTHORISED]; omega)⟩

theorem Followed.putAuth (h : Followed k s t P) (v : Nat) : Followed k s (t.put (F.BAYK_STATE_AUTHORISED k) v) P :=
  h.trans ⟨(Keeps.refl t _ _ _).put _ _ (.inr (.inl rfl)), fun f _ hb => State.put_get_apart _ _ _ _ (by simp [F.BAYK_STATE_AUTHORISED])
    (.inr (by simp only [F.BAYK_STATE_AUTHORISED]; omega))⟩

theorem Followed.bay (h : Followed k s t P) : t.bay k = s.bay k := h.state (F.BAYK_STATE_CODE k) rfl (.inl (by simp [F.BAYK_STATE_CODE]))

/-- A register beside SES's page and STATE reads as before. -/
theorem Followed.get (h : Followed k s t P) (f : Fld) (hf : ¬ sesRegs k f.addr) : t.get f = s.get f := h.keeps.get f hf

theorem Followed.outlet (h : Followed k s t P) (hp : Part.outlets ∉ P) (j : Nat) : t.outlet j = s.outlet j := by
  have hout : t.outlets = s.outlets := h.keeps.parts .outlets hp
  simp only [State.outlet, hout]

theorem Confined.follow {R : Nat → Prop} {E : List Nat} {Q : List Part} (h : Confined k s t R E Q) (hf : Followed k t u P)
    (hr : OwnRoom k R E Q) (hs : SesRoom k R Q) (hp : ∀ p ∈ P, p ∈ Q) (ho : Part.outlets ∉ P) : Confined k s u R E Q := by
  refine h.step (h.keeps.trans (hf.keeps.mono ?_ (fun e he => by rw [List.mem_singleton.mp he]; exact hr.ring) hp)) (hf.keeps.parts .outlets ho)
  rintro a (ha | rfl | ha)
  · exact hs.page a ha
  · exact hr.own _ (by simp only [F.BAYK_STATE_AUTHORISED]; omega)
  · exact hr.lost a ha

end

-- What SES does

theorem sesRoom_ses {k : Nat} (hk : k < 12) (P : List Part) (hp : Part.se ∈ P) : SesRoom k (fun a => a / 4096 = 0x19 ∨ lostRegs a) P :=
  { lt := hk, page := fun _ ha => .inl ha, se := hp }

theorem State.sesLow_keeps (s : State) (k : Nat) : Keeps s (s.sesLow k) (among []) [] [.se] := ((Confined.refl k s _ _ _).sesLow (by simp)).keeps

theorem Followed.sesLow {k : Nat} {s t : State} {P : List Part} (h : Followed k s t P) (hp : Part.se ∈ P) : Followed k s (t.sesLow k) P :=
  h.ses ((Confined.refl k t _ _ _).sesLow hp).keeps

theorem Followed.setSession {k : Nat} {s t : State} {P : List Part} (h : Followed k s t P) (x : Session) (hp : Part.se ∈ P) :
    Followed k s (t.setSession k x) P := h.ses ((Confined.refl k t _ _ _).setSession x hp).keeps

theorem Followed.sesBegin {k : Nat} {s t : State} {P : List Part} (h : Followed k s t P) (hk : k < 12) (hp : Part.se ∈ P) :
    Followed k s (t.sesBegin k) P := h.ses ((Confined.refl k t _ _ _).sesBegin (sesRoom_ses hk P hp)).keeps

theorem Followed.setSes {k : Nat} {s t : State} {P : List Part} (h : Followed k s t P) (hk : k < 12) (hp : Part.se ∈ P) (st : Nat) :
    Followed k s (t.setSes k st) P := h.ses ((Confined.refl k t _ _ _).setSes (sesRoom_ses hk P hp) st).keeps

/-- The states that STOP acts on beside AUTHORISED (R289, R306). -/
def stopStates : List Nat := [stOffering, stClosing, stCharging, stWithdrawing]

theorem State.stopOutlet_idle (s : State) (k cause seq : Nat) (h : s.bay k ∉ stopStates) :
    s.stopOutlet k cause seq = s.put (F.BAYK_STATE_AUTHORISED k) 0 := by
  have hbay : (s.put (F.BAYK_STATE_AUTHORISED k) 0).bay k = s.bay k :=
    State.put_get_apart _ _ _ _ (by simp [F.BAYK_STATE_AUTHORISED]) (.inr (.inr (by simp [F.BAYK_STATE_CODE, F.BAYK_STATE_AUTHORISED])))
  simp only [stopStates, List.mem_cons, List.not_mem_nil, or_false, not_or] at h
  obtain ⟨hoffering, hclosing, hcharging, hwithdrawing⟩ := h
  rw [State.stopOutlet]
  simp only [hbay, hoffering, hclosing, hcharging, hwithdrawing, if_false]

/-- A stop of a session whose outlet is not authorised, or is in no state that STOP acts on. -/
theorem Followed.sesStop {k : Nat} {s t : State} {P : List Part} (h : Followed k s t P) (hk : k < 12) (hp : Part.se ∈ P) (reason : Nat)
    (hidle : t.on (F.BAYK_STATE_AUTHORISED k) = true → t.bay k ∉ stopStates) : Followed k s (t.sesStop k reason) P := by
  unfold State.sesStop
  extract_lets x st v w
  have hv : Followed k s v P := h.setSession _ hp
  have hw : Followed k s w P := by
    by_cases hauth : v.on (F.BAYK_STATE_AUTHORISED k) = true
    · rw [show w = v.stopOutlet k cSes noSeq from if_pos hauth, State.stopOutlet_idle v k cSes noSeq (hidle hauth)]
      exact hv.putAuth 0
    · rw [show w = v from if_neg hauth]
      exact hv
  split
  · split
    · exact h.setSession _ hp
    · exact h
  · split
    · exact (hw.setSes hk hp _).sesLow hp
    · exact h

/-- SES's answer to a new state of its outlet, but for what the outputs' levels decide (R344, R345). -/
def State.sesFollow (s : State) (k : Nat) : State :=
  if s.ses k = sesPreauth ∧ s.bay k = stConnected ∧ s.pf.warned = false then (s.authorise k).sesBegin k
  else if s.bay k = stTripped then s.sesStop k 0x05
  else if s.bay k = stDisabled then s.sesStop k 0x07
  else if s.bay k = stWelded ∨ s.bay k = stService ∨ (s.bay k = stFaultF ∧ s.on (F.BAYK_STATE_LATCHED k)) then s.sesStop k 0x06
  else if s.bay k = stFaultF then s.setSession k { s.session k with retry := true }
  else if s.ses k = sesActive ∧ s.bay k = stConnected ∧ (s.session k).retry = true ∧ s.pf.warned = false then
    ((s.setSession k { s.session k with retry := false }).authorise k).put (F.SES_OUT_STAT_REAUTH k) 1
  else s

theorem State.sesBay_eq (s : State) (k old : Nat) :
    s.sesBay k old = if s.bay k = old then s.sesLow k else (s.sesFollow k).sesLow k := rfl

/-- The states that end a session (R345), or ask it to wait. -/
def stopsSession : List Nat := [stTripped, stDisabled, stWelded, stService, stFaultF]

theorem State.sesFollow_cases (s : State) (k : Nat) :
    s.sesFollow k = s ∨ (s.bay k ∈ stopsSession ∧ ∃ r, s.sesFollow k = s.sesStop k r) ∨ (∃ x, s.sesFollow k = s.setSession k x)
    ∨ (s.bay k = stConnected ∧ s.ses k = sesPreauth ∧ s.sesFollow k = (s.authorise k).sesBegin k)
    ∨ (s.bay k = stConnected ∧ s.ses k = sesActive
        ∧ ∃ x, s.sesFollow k = ((s.setSession k x).authorise k).put (F.SES_OUT_STAT_REAUTH k) 1) := by
  unfold State.sesFollow
  split
  · next h => exact .inr (.inr (.inr (.inl ⟨h.2.1, h.1, rfl⟩)))
  split
  · next h => exact .inr (.inl ⟨by simp [h, stopsSession], _, rfl⟩)
  split
  · next h => exact .inr (.inl ⟨by simp [h, stopsSession], _, rfl⟩)
  split
  · next h => exact .inr (.inl ⟨by rcases h with h | h | h <;> simp [h, stopsSession], _, rfl⟩)
  split
  · exact .inr (.inr (.inl ⟨_, rfl⟩))
  split
  · next h => exact .inr (.inr (.inr (.inr ⟨h.2.1, h.1, _, rfl⟩)))
  · exact .inl rfl

theorem not_mem_stopStates_of_stopsSession : ∀ b ∈ stopsSession, b ∉ stopStates := by decide

theorem Followed.sesFollow {k : Nat} {s : State} (hk : k < 12) : Followed k s (s.sesFollow k) [.se] := by
  have hrefl := Followed.refl k s [.se]
  rcases s.sesFollow_cases k with h | ⟨hbay, r, h⟩ | ⟨x, h⟩ | ⟨-, -, h⟩ | ⟨-, -, x, h⟩
  · rw [h]; exact hrefl
  · rw [h]; exact hrefl.sesStop hk (by simp) r fun _ => not_mem_stopStates_of_stopsSession _ hbay
  · rw [h]; exact hrefl.setSession x (by simp)
  · rw [h]; exact (hrefl.putAuth 1).sesBegin hk (by simp)
  · rw [h]; exact ((hrefl.setSession x (by simp)).putAuth 1).ses ((Keeps.refl _ _ _ _).put _ _ (.inl (by simp only [F.SES_OUT_STAT_REAUTH]; omega)))

/-- SES's answer to its outlet never moves the outlet. -/
theorem State.sesBay_followed (s : State) {k : Nat} (hk : k < 12) (old : Nat) : Followed k s (s.sesBay k old) [.se] := by
  rw [State.sesBay_eq]
  split
  · exact (Followed.refl k s _).sesLow (by simp)
  · exact (Followed.sesFollow hk).sesLow (by simp)

-- What becomes of AUTHORISED

theorem State.sesLow_get (s : State) (k : Nat) (f : Fld) : (s.sesLow k).get f = s.get f := (s.sesLow_keeps k).get f (by simp)

theorem State.sesLow_on (s : State) (k : Nat) (f : Fld) : (s.sesLow k).on f = s.on f := (s.sesLow_keeps k).on f (by simp)

theorem State.setSes_auth (s : State) {k : Nat} (hk : k < 12) (st : Nat) :
    (s.setSes k st).on (F.BAYK_STATE_AUTHORISED k) = s.on (F.BAYK_STATE_AUTHORISED k) :=
  ((Confined.refl k s (fun a => a / 4096 = 0x19 ∨ lostRegs a) [] [.se]).setSes (sesRoom_ses hk _ (by simp)) st).keeps.on _
    (by simp only [F.BAYK_STATE_AUTHORISED]; omega)

/-- A session's stop authorises nothing. -/
theorem State.sesStop_unauthorised (s : State) {k : Nat} (hk : k < 12) (reason : Nat) (h : s.on (F.BAYK_STATE_AUTHORISED k) = false) :
    (s.sesStop k reason).on (F.BAYK_STATE_AUTHORISED k) = false := by
  unfold State.sesStop
  extract_lets x st v w
  have hw : w = v := if_neg (by rw [show v.on _ = _ from h]; decide)
  split
  · split
    · exact h
    · exact h
  · split
    · rw [State.sesLow_on, State.setSes_auth _ hk, hw]
      exact h
    · exact h

/-- Only CONNECTED lets a session authorise its outlet again, and only out of PREAUTH or ACTIVE. -/
theorem State.sesBay_unauthorised (s : State) {k : Nat} (hk : k < 12) (old : Nat) (h : s.on (F.BAYK_STATE_AUTHORISED k) = false)
    (hbay : s.bay k ≠ stConnected ∨ s.ses k = sesIdle) : (s.sesBay k old).on (F.BAYK_STATE_AUTHORISED k) = false := by
  rw [State.sesBay_eq]
  split
  · rw [State.sesLow_on, h]
  rw [State.sesLow_on]
  rcases s.sesFollow_cases k with heq | ⟨-, r, heq⟩ | ⟨x, heq⟩ | ⟨hconn, hpre, heq⟩ | ⟨hconn, hact, x, heq⟩
  · rw [heq, h]
  · rw [heq, State.sesStop_unauthorised s hk r h]
  · rw [heq]; exact h
  · exact (hbay.elim (fun hne => hne hconn) fun hidle => absurd (hpre.symm.trans hidle) (by decide)).elim
  · exact (hbay.elim (fun hne => hne hconn) fun hidle => absurd (hact.symm.trans hidle) (by decide)).elim

end Sys2Proof.Machine

/-! What entering a state leaves in the outlet's registers (O32, O33, O34). -/
namespace Sys2Proof.Machine

/-- `t` is `s` after outlet k has entered a state. Of STATE the flags above AUTHORISED stay, of VIOL all but LEVEL. -/
structure Entered (k : Nat) (s t : State) (new cause target : Nat) : Prop where
  keeps : Keeps s t (enterRegs k) [3 + k] [.outlets, .rcm]
  code : t.bay k = new % 256
  cause : t.get (F.BAYK_STATE_CAUSE k) = cause % 256
  target : t.get (F.BAYK_STATE_TARGET k) = target % 256
  unauthorised : s.on (F.BAYK_STATE_AUTHORISED k) = false ∨ hardState new → t.on (F.BAYK_STATE_AUTHORISED k) = false
  flags : ∀ f : Fld, f.addr = (F.BAYK_STATE_CODE k).addr → 25 ≤ f.lsb → t.get f = s.get f
  viol : ∀ f : Fld, f.addr = A.BAYK_VIOL k → f.lsb + f.wid ≤ 8 ∨ 16 ≤ f.lsb → t.get f = s.get f
  level : new = stCharging ∨ new = stWithdrawing → t.get (F.BAYK_VIOL_LEVEL k) = s.get (F.BAYK_VIOL_LEVEL k)
  pend : ∀ p c, p ≠ 4 → s.get (hdrPend p c) = 1 → t.get (hdrPend p c) = 1
  testLatch : ∀ j, (t.rc j).testLatch = (s.rc j).testLatch

/-- Before that the outlet changed something it keeps beside its registers. -/
theorem Entered.before {k new cause target : Nat} {s t : State} {x : Outlet} (h : Entered k (s.setOutlet k x) t new cause target) :
    Entered k s t new cause target :=
  { keeps := ((Keeps.refl s _ _ _).setOutlet k x (by simp)).trans h.keeps, code := h.code, cause := h.cause, target := h.target
    unauthorised := h.unauthorised, flags := h.flags, viol := h.viol, level := h.level, pend := h.pend, testLatch := h.testLatch }

/-- Or it did so after. -/
theorem Entered.after {k new cause target : Nat} {s t : State} (h : Entered k s t new cause target) (x : Outlet) :
    Entered k s (t.setOutlet k x) new cause target :=
  { keeps := h.keeps.setOutlet k x (by simp), code := h.code, cause := h.cause, target := h.target
    unauthorised := h.unauthorised, flags := h.flags, viol := h.viol, level := h.level, pend := h.pend, testLatch := h.testLatch }

section
variable (s : State) (k new cause target : Nat)

theorem State.askTest_get (f : Fld) : (s.askTest k new).get f = s.get f := by
  unfold State.askTest
  split <;> rfl

theorem State.askTest_testLatch (j : Nat) : ((s.askTest k new).rc j).testLatch = (s.rc j).testLatch := by
  unfold State.askTest
  split
  · by_cases hj : j = k
    · rw [hj, State.setRc_rc_same]
    · rw [State.setRc_rc_other _ _ _ _ hj]
  · rfl

theorem State.endLevel_get (f : Fld) (h : f.addr ≠ A.BAYK_VIOL k ∨ f.lsb + f.wid ≤ 8 ∨ 16 ≤ f.lsb) : (s.endLevel k new).get f = s.get f := by
  unfold State.endLevel
  split
  · rfl
  · exact State.put_get_apart _ _ _ _ (by simp [F.BAYK_VIOL_LEVEL]) (by
      simp only [F.BAYK_VIOL_LEVEL, A.BAYK_VIOL] at h ⊢
      omega)

theorem State.endAuth_get (f : Fld) (h : f.addr ≠ (F.BAYK_STATE_CODE k).addr ∨ f.lsb + f.wid ≤ 24 ∨ 25 ≤ f.lsb) :
    (s.endAuth k new).get f = s.get f := by
  unfold State.endAuth
  split
  · exact State.put_get_apart _ _ _ _ (by simp [F.BAYK_STATE_AUTHORISED]) (by
      simp only [F.BAYK_STATE_AUTHORISED, F.BAYK_STATE_CODE] at h ⊢
      omega)
  · rfl

theorem State.endAuth_off (h : s.on (F.BAYK_STATE_AUTHORISED k) = false ∨ hardState new) :
    (s.endAuth k new).on (F.BAYK_STATE_AUTHORISED k) = false := by
  unfold State.endAuth
  split
  · exact State.put_on_bool s _ false rfl (by simp [F.BAYK_STATE_AUTHORISED])
  · next hsoft => exact h.resolve_right hsoft

theorem State.writeState_get (f : Fld) (h : f.addr ≠ (F.BAYK_STATE_CODE k).addr ∨ 24 ≤ f.lsb) (hcopy : f.addr ≠ A.BAY_STATE (k / 4)) :
    (s.writeState k new cause target).get f = s.get f := by
  simp only [F.BAYK_STATE_CODE] at h
  rw [State.writeState, State.put_get_apart _ (F.BAYK_STATE_CAUSE k) _ _ (by simp [F.BAYK_STATE_CAUSE]) (by simp only [F.BAYK_STATE_CAUSE]; omega),
    State.put_get_apart _ (F.BAYK_STATE_TARGET k) _ _ (by simp [F.BAYK_STATE_TARGET]) (by simp only [F.BAYK_STATE_TARGET]; omega),
    State.put_get_other _ _ _ _ hcopy,
    State.put_get_apart _ (F.BAYK_STATE_CODE k) _ _ (by simp [F.BAYK_STATE_CODE]) (by simp only [F.BAYK_STATE_CODE]; omega)]

theorem State.writeState_spec :
    (s.writeState k new cause target).get (F.BAYK_STATE_CODE k) = new % 256
      ∧ (s.writeState k new cause target).get (F.BAYK_STATE_CAUSE k) = cause % 256
      ∧ (s.writeState k new cause target).get (F.BAYK_STATE_TARGET k) = target % 256 := by
  refine ⟨?_, ?_, ?_⟩ <;> unfold State.writeState
  · rw [State.put_get_apart _ (F.BAYK_STATE_CAUSE k) _ _ (by simp [F.BAYK_STATE_CAUSE]) (.inr (by simp [F.BAYK_STATE_CAUSE, F.BAYK_STATE_CODE])),
      State.put_get_apart _ (F.BAYK_STATE_TARGET k) _ _ (by simp [F.BAYK_STATE_TARGET]) (.inr (by simp [F.BAYK_STATE_TARGET, F.BAYK_STATE_CODE])),
      State.put_get_other _ _ _ _ (by simp only [A.BAY_STATE, F.BAYK_STATE_CODE]; omega), State.put_get_same _ _ _ (by simp [F.BAYK_STATE_CODE])]
    rfl
  · exact State.put_get_same _ _ _ (by simp [F.BAYK_STATE_CAUSE])
  · rw [State.put_get_apart _ (F.BAYK_STATE_CAUSE k) _ _ (by simp [F.BAYK_STATE_CAUSE]) (.inr (by simp [F.BAYK_STATE_CAUSE, F.BAYK_STATE_TARGET])),
      State.put_get_same _ _ _ (by simp [F.BAYK_STATE_TARGET])]
    rfl

/-- Entering a state, but for its event, moves STATE up to AUTHORISED, its copy, SEQ and LEVEL. -/
theorem State.entered_get (f : Fld) (hseq : f.addr ≠ (0x30 + k) * 4096 + 0x024) (hcopy : f.addr ≠ A.BAY_STATE (k / 4))
    (hstate : f.addr ≠ (F.BAYK_STATE_CODE k).addr ∨ 25 ≤ f.lsb) (hviol : f.addr ≠ A.BAYK_VIOL k ∨ f.lsb + f.wid ≤ 8 ∨ 16 ≤ f.lsb) :
    (s.entered k new cause target).get f = s.get f := by
  rw [State.entered, State.askTest_get, State.endLevel_get _ _ _ _ hviol, State.endAuth_get _ _ _ _ (hstate.imp_right .inr),
    State.bumpSeq_get_other _ _ _ hseq, State.writeState_get _ _ _ _ _ _ (hstate.imp_right (by omega)) hcopy]

end

/-- Entering a state. -/
theorem State.enter'_entered (s : State) {k : Nat} (hk : k < 12) (new cause target seq : Nat) :
    Entered k s (s.enter' k new cause target seq).1 new cause target := by
  have hevent (f : Fld) (hf : ¬ bayEventRegs k f.addr) : (s.enter' k new cause target seq).1.get f = (s.entered k new cause target).get f :=
    State.bayEventAt_get _ _ _ _ _ _ _ _ _ _ f hf
  have hstate (f : Fld) (hf : f.addr = (F.BAYK_STATE_CODE k).addr) (hb : f.lsb + f.wid ≤ 24) :
      (s.enter' k new cause target seq).1.get f = (s.writeState k new cause target).get f := by
    have haddr : f.addr = 0x30120 + 4096 * k := hf
    rw [hevent f (by omega), State.entered, State.askTest_get, State.endLevel_get _ _ _ _ (.inl (by simp only [A.BAYK_VIOL]; omega)),
      State.endAuth_get _ _ _ _ (.inr (.inl hb)), State.bumpSeq_get_block _ _ _ (by omega)]
  obtain ⟨hcode, hcause, htarget⟩ := s.writeState_spec k new cause target
  refine
    { keeps := ((Confined.refl k s _ _ _).enter' hk (fun _ ha => ha) (by simp) new cause target seq (by simp)).keeps
      code := (hstate (F.BAYK_STATE_CODE k) rfl (by simp [F.BAYK_STATE_CODE])).trans hcode
      cause := (hstate (F.BAYK_STATE_CAUSE k) rfl (by simp [F.BAYK_STATE_CAUSE])).trans hcause
      target := (hstate (F.BAYK_STATE_TARGET k) rfl (by simp [F.BAYK_STATE_TARGET])).trans htarget
      unauthorised := fun h => ?_
      flags := fun f hf hb => ?_
      viol := fun f hf hb => ?_
      level := fun hnew => ?_
      pend := fun p c hp hone => ?_
      testLatch := fun j => ?_ }
  · rw [State.on, hevent _ (by simp only [F.BAYK_STATE_AUTHORISED]; omega), State.entered, State.askTest_get,
      State.endLevel_get _ _ _ _ (.inl (by simp only [A.BAYK_VIOL, F.BAYK_STATE_AUTHORISED]; omega))]
    refine State.endAuth_off _ _ _ (h.imp_left fun hoff => ?_)
    rw [State.on, State.bumpSeq_get_block _ _ _ (by simp only [F.BAYK_STATE_AUTHORISED]; omega),
      State.writeState_get _ _ _ _ _ _ (.inr (by simp [F.BAYK_STATE_AUTHORISED])) (by simp only [F.BAYK_STATE_AUTHORISED, A.BAY_STATE]; omega)]
    exact hoff
  · have haddr : f.addr = 0x30120 + 4096 * k := hf
    rw [hevent f (by omega), State.entered_get _ _ _ _ _ _ (by omega) (by simp only [A.BAY_STATE]; omega) (.inr hb) (.inl (by simp only [A.BAYK_VIOL]; omega))]
  · have haddr : f.addr = 0x30144 + 4096 * k := hf
    rw [hevent f (by omega), State.entered_get _ _ _ _ _ _ (by omega) (by simp only [A.BAY_STATE]; omega) (.inl (by simp only [F.BAYK_STATE_CODE]; omega)) (.inr hb)]
  · have hlevel (u : State) : u.endLevel k new = u := if_pos hnew
    rw [hevent _ (by simp only [F.BAYK_VIOL_LEVEL]; omega), State.entered, State.askTest_get, hlevel,
      State.endAuth_get _ _ _ _ (.inl (by simp only [F.BAYK_VIOL_LEVEL, F.BAYK_STATE_CODE]; omega)),
      State.bumpSeq_get_block _ _ _ (by simp only [F.BAYK_VIOL_LEVEL]; omega),
      State.writeState_get _ _ _ _ _ _ (.inl (by simp only [F.BAYK_VIOL_LEVEL, F.BAYK_STATE_CODE]; omega)) (by simp only [F.BAYK_VIOL_LEVEL, A.BAY_STATE]; omega)]
  · have hbefore : (s.entered k new cause target).get (hdrPend p c) = 1 := by
      rw [State.entered_get _ _ _ _ _ _ (by simp only [hdrPend]; omega) (by simp only [hdrPend, A.BAY_STATE]; omega)
        (.inl (by simp only [hdrPend, F.BAYK_STATE_CODE]; omega)) (.inl (by simp only [hdrPend, A.BAYK_VIOL]; omega)), hone]
    exact State.bayEventAt_pend_stays _ _ _ _ _ _ _ _ _ _ hp hbefore
  · have hrcm := (State.bayEventAt_keeps (s.entered k new cause target) k 0x40 (s.bay k) new cause target
      ((s.entered k new cause target).get (F.BAYK_PERIOD_COUNT k)) ((s.entered k new cause target).allowance k).1 seq).parts .rcm (by simp)
    have hrc : (s.enter' k new cause target seq).1.rc j = (s.entered k new cause target).rc j := congrArg (fun l => spRead (fun _ => ({} : Rcm)) l j) hrcm
    rw [hrc, State.entered, State.askTest_testLatch]
    unfold State.endLevel State.endAuth
    split <;> split <;> rfl


-- Hard and soft stops (R287, R289)

@[simp] theorem State.enter'_outlet (s : State) (k new cause target seq j : Nat) : (s.enter' k new cause target seq).1.outlet j = s.outlet j := by
  rw [State.enter'_eq, State.bayEvent, State.bayEventAt_outlet, State.entered, State.askTest, State.endLevel, State.endAuth]
  split <;> split <;> split <;> rfl

theorem State.openNow_eq (s : State) (k cause target seq : Nat) :
    ∃ q, s.openNow k cause target seq = ((s.outputsLow k).enter' k stOpening cause target seq).1.setOutlet k
      { ((s.outputsLow k).enter' k stOpening cause target seq).1.outlet k with seq := q, awaitOpen := true, openCause := cause } := ⟨_, rfl⟩

theorem State.openNow_entered (s : State) {k : Nat} (hk : k < 12) (cause target seq : Nat) :
    Entered k s (s.openNow k cause target seq) stOpening cause target := by
  obtain ⟨q, heq⟩ := s.openNow_eq k cause target seq
  have henter := State.enter'_entered (s.outputsLow k) hk stOpening cause target seq
  rw [heq]
  exact henter.before.after _

theorem State.outputsLow_outlet (s : State) (k : Nat) : ((s.outputsLow k).outlet k).conM = false ∧ ((s.outputsLow k).outlet k).conA = false
    ∧ ((s.outputsLow k).outlet k).alarmHold = (s.outlet k).alarmHold := by
  rw [State.outputsLow, State.setOutlet_outlet_same]
  exact ⟨rfl, rfl, rfl⟩

theorem State.openNow_outlet (s : State) (k cause target seq : Nat) :
    ((s.openNow k cause target seq).outlet k).conM = false ∧ ((s.openNow k cause target seq).outlet k).conA = false := by
  obtain ⟨q, heq⟩ := s.openNow_eq k cause target seq
  obtain ⟨hm, ha, -⟩ := s.outputsLow_outlet k
  rw [heq, State.setOutlet_outlet_same, State.enter'_outlet]
  exact ⟨hm, ha⟩

theorem State.withdraw_entered (s : State) {k : Nat} (hk : k < 12) (cause seq : Nat) (stateF byAllow : Bool) :
    Entered k s (s.withdraw k cause seq stateF byAllow) stWithdrawing cause 0 := by
  unfold State.withdraw
  extract_lets x v
  split
  next u q heq =>
  have henter := State.enter'_entered (v.setPilot k (if stateF then pilotLow else pilotHigh)) hk stWithdrawing cause 0 seq
  rw [heq] at henter
  exact (Entered.before (Entered.before henter)).after _

theorem State.withdraw_outlet (s : State) (k cause seq : Nat) (stateF byAllow : Bool) :
    ((s.withdraw k cause seq stateF byAllow).outlet k).fault = (s.outlet k).fault
      ∧ ((s.withdraw k cause seq stateF byAllow).outlet k).nextPilot = some (if stateF then pilotLow else pilotHigh) := by
  unfold State.withdraw
  extract_lets x v
  split
  next u q heq =>
  have hout : u.outlet k = (v.setPilot k (if stateF then pilotLow else pilotHigh)).outlet k := by
    rw [← State.enter'_outlet (v.setPilot k (if stateF then pilotLow else pilotHigh)) k stWithdrawing cause 0 seq, heq]
  rw [State.setOutlet_outlet_same, hout, State.setPilot, State.setOutlet_outlet_same, State.setOutlet_outlet_same]
  exact ⟨rfl, rfl⟩

theorem State.enterHard_entered (s : State) {k : Nat} (hk : k < 12) (new cause seq : Nat) : Entered k s (s.enterHard k new cause seq) new cause 0 := by
  unfold State.enterHard
  extract_lets was x
  split
  next u q heq =>
  have henter := State.enter'_entered ((s.outputsLow k).setPilot k pilotLow) hk new cause 0 seq
  rw [heq] at henter
  have hlow : Entered k s u new cause 0 := Entered.before (Entered.before henter)
  split
  · exact hlow.after _
  · exact hlow.after _

theorem State.enterHard_outlet (s : State) (k new cause seq : Nat) :
    ((s.enterHard k new cause seq).outlet k).conM = false ∧ ((s.enterHard k new cause seq).outlet k).conA = false
      ∧ ((s.enterHard k new cause seq).outlet k).alarmHold = (s.outlet k).alarmHold := by
  unfold State.enterHard
  extract_lets was x
  split
  next u q heq =>
  have hout : u.outlet k = ((s.outputsLow k).setPilot k pilotLow).outlet k := by
    rw [← State.enter'_outlet ((s.outputsLow k).setPilot k pilotLow) k new cause 0 seq, heq]
  have hlow := s.outputsLow_outlet k
  split <;> rw [State.setOutlet_outlet_same, hout, State.setPilot, State.setOutlet_outlet_same] <;> exact hlow

-- Violations and faults (R303, R305)

theorem State.violate_keeps (s : State) (k cause value : Nat) :
    Keeps s (s.violate k cause value) (fun a => a = A.BAYK_VIOL k ∨ eventRegs (0x30 + k) 1 a) [3 + k] [] :=
  ((Keeps.refl s _ _ _).incSat (F.BAYK_VIOL_TOTAL k) (.inl rfl)).noteCond rfl _ _ _ _ _ (by simp) fun _ ha => .inr ha

@[simp] theorem State.violate_outlet (s : State) (k cause value j : Nat) : (s.violate k cause value).outlet j = s.outlet j := State.note_outlet _ _ _ _ _ _ _ j

theorem State.violate_viol (s : State) (k cause value : Nat) (f : Fld) (hf : f.addr = A.BAYK_VIOL k) (hb : f.lsb + f.wid ≤ 16) :
    (s.violate k cause value).get f = s.get f := by
  have haddr : f.addr = 0x30144 + 4096 * k := hf
  rw [State.violate, State.note_get _ _ _ _ _ _ _ _ (by omega), State.incSat_get_apart _ _ _ (by simp [F.BAYK_VIOL_TOTAL])
    (.inr (.inr (by simpa [F.BAYK_VIOL_TOTAL] using hb)))]

theorem State.violate_total (s : State) (k cause value : Nat) :
    (s.violate k cause value).get (F.BAYK_VIOL_TOTAL k) = satInc 65535 (s.get (F.BAYK_VIOL_TOTAL k)) := by
  rw [State.violate, State.note_get _ _ _ _ _ _ _ _ (by simp only [F.BAYK_VIOL_TOTAL]; omega)]
  exact State.incSat_get_same _ _ (by simp [F.BAYK_VIOL_TOTAL])

theorem State.violate_pend (s : State) (k cause value : Nat) : (s.violate k cause value).get (hdrPend (0x30 + k) 1) = 1 := State.note_pend _ _ _ _ _ _ rfl

/-- A fault's cause, taken by an outlet that is authorised no more (R305). -/
def State.faultHeld (s : State) (k cause : Nat) : State := (s.put (F.BAYK_STATE_AUTHORISED k) 0).setOutlet k { s.outlet k with fault := cause }

/-- What a fault taken leaves: STATE up to AUTHORISED, LEVEL and TOTAL, and all beside STATE and VIOL. -/
structure FaultTaken (k : Nat) (s t : State) (cause : Nat) : Prop where
  keeps : Keeps s t (among [(F.BAYK_STATE_CODE k).addr, A.BAYK_VIOL k]) [] [.outlets]
  unauthorised : t.on (F.BAYK_STATE_AUTHORISED k) = false
  outlet : t.outlet k = { s.outlet k with fault := cause }
  state : ∀ f : Fld, f.addr = (F.BAYK_STATE_CODE k).addr → f.lsb + f.wid ≤ 24 → t.get f = s.get f
  viol : ∀ f : Fld, f.addr = A.BAYK_VIOL k → 8 ≤ f.lsb → t.get f = s.get f

/-- LATCHED set is beside what a fault taken leaves. -/
theorem FaultTaken.latch {k cause : Nat} {s t : State} (h : FaultTaken k s t cause) : FaultTaken k s (t.put (F.BAYK_STATE_LATCHED k) 1) cause :=
  { keeps := h.keeps.put _ _ (by simp [F.BAYK_STATE_LATCHED, F.BAYK_STATE_CODE])
    unauthorised := by
      rw [State.on, State.put_get_apart _ _ _ _ (by simp [F.BAYK_STATE_LATCHED]) (.inr (.inr (by simp [F.BAYK_STATE_AUTHORISED, F.BAYK_STATE_LATCHED])))]
      exact h.unauthorised
    outlet := h.outlet
    state := fun f hf hb => by
      rw [State.put_get_apart _ _ _ _ (by simp [F.BAYK_STATE_LATCHED]) (.inr (.inr (by simp only [F.BAYK_STATE_LATCHED]; omega))), h.state f hf hb]
    viol := fun f hf hb => by
      rw [State.put_get_other _ _ _ _ (by simp only [hf, F.BAYK_STATE_LATCHED, A.BAYK_VIOL]; omega), h.viol f hf hb] }

/-- So is RETRIES. -/
theorem FaultTaken.retry {k cause : Nat} {s t : State} (h : FaultTaken k s t cause) :
    FaultTaken k s (t.incSat (F.BAYK_VIOL_RETRIES k)) cause :=
  have hviol (f : Fld) (hf : f.addr ≠ A.BAYK_VIOL k ∨ 8 ≤ f.lsb) : (t.incSat (F.BAYK_VIOL_RETRIES k)).get f = t.get f :=
    State.incSat_get_apart _ _ _ (by simp [F.BAYK_VIOL_RETRIES]) (hf.imp id fun hb => .inl (by simpa [F.BAYK_VIOL_RETRIES] using hb))
  { keeps := h.keeps.incSat _ (by simp [F.BAYK_VIOL_RETRIES, A.BAYK_VIOL])
    unauthorised := by rw [State.on, hviol _ (.inl (by simp only [F.BAYK_STATE_AUTHORISED, A.BAYK_VIOL]; omega))]; exact h.unauthorised
    outlet := h.outlet
    state := fun f hf hb => by rw [hviol _ (.inl (by rw [hf]; simp only [F.BAYK_STATE_CODE, A.BAYK_VIOL]; omega)), h.state f hf hb]
    viol := fun f hf hb => by rw [hviol _ (.inr hb), h.viol f hf hb] }

theorem FaultTaken.get {k cause : Nat} {s t : State} (h : FaultTaken k s t cause) (f : Fld) (hs : f.addr ≠ 0x30120 + 4096 * k)
    (hv : f.addr ≠ 0x30144 + 4096 * k) : t.get f = s.get f := h.keeps.get f (by simpa [F.BAYK_STATE_CODE, A.BAYK_VIOL] using ⟨hs, hv⟩)

theorem State.takeFault_eq (s : State) (k cause : Nat) :
    s.takeFault k cause = if retriable cause then
        if ((s.faultHeld k cause).incSat (F.BAYK_VIOL_RETRIES k)).get F.BAY_OC_CFG_RETRY_MAX
            ≤ ((s.faultHeld k cause).incSat (F.BAYK_VIOL_RETRIES k)).get (F.BAYK_VIOL_RETRIES k)
        then ((s.faultHeld k cause).incSat (F.BAYK_VIOL_RETRIES k)).put (F.BAYK_STATE_LATCHED k) 1
        else (s.faultHeld k cause).incSat (F.BAYK_VIOL_RETRIES k)
      else (s.faultHeld k cause).put (F.BAYK_STATE_LATCHED k) 1 := rfl

theorem State.faultHeld_taken (s : State) (k cause : Nat) : FaultTaken k s (s.faultHeld k cause) cause :=
  { keeps := ((Keeps.refl s _ _ _).put (F.BAYK_STATE_AUTHORISED k) 0 (by simp [F.BAYK_STATE_AUTHORISED, F.BAYK_STATE_CODE])).setOutlet _ _ (by simp)
    unauthorised := State.put_on_bool s _ false rfl (by simp [F.BAYK_STATE_AUTHORISED])
    outlet := State.setOutlet_outlet_same _ _ _
    state := fun f _ hb => State.put_get_apart s _ f _ (by simp [F.BAYK_STATE_AUTHORISED]) (.inr (.inr (by simpa [F.BAYK_STATE_AUTHORISED] using hb)))
    viol := fun f hf _ => State.put_get_other s _ f _ (by simp only [hf, F.BAYK_STATE_AUTHORISED, A.BAYK_VIOL]; omega) }

theorem State.takeFault_taken (s : State) (k cause : Nat) : FaultTaken k s (s.takeFault k cause) cause := by
  have hheld := s.faultHeld_taken k cause
  rw [State.takeFault_eq]
  split
  · split
    · exact hheld.retry.latch
    · exact hheld.retry
  · exact hheld.latch

theorem State.takeFault_latched (s : State) (k cause : Nat) (h : retriable cause = false) :
    (s.takeFault k cause).on (F.BAYK_STATE_LATCHED k) = true := by
  rw [State.takeFault_eq, if_neg (by simp [h])]
  exact State.put_on_bool _ _ true rfl (by simp [F.BAYK_STATE_LATCHED])

end Sys2Proof.Machine

/-! Outlet timers and alarms (O33): what the session's answer leaves of a timer's effect, and each row's own effect. -/
namespace Sys2Proof.Machine

-- A row's effect, and the session's answer to it

/-- What most of the rows below leave as it was. -/
abbrev bayFrame (k : Nat) (s t : State) : Prop := Keeps s t (onPages [0x16, 0x19, 0x30 + k]) [3 + k] [.outlets, .se]

theorem Followed.settle {k : Nat} {s t : State} {P : List Part} (h : Followed k s t P) : Followed k s t.settle P := ⟨h.keeps.settle, h.state⟩

/-- A row's effect, then the session's answer: of the outlet's own state and of STATE but AUTHORISED nothing more moves. -/
theorem Confined.answered {k : Nat} (hk : k < 12) {s u : State} {l E : List Nat} {P : List Part} (h : Confined k s u (onPages l) E P)
    (h19 : 0x19 ∈ l) (hown : 0x30 + k ∈ l) (he : 3 + k ∈ E) (ho : Part.outlets ∈ P) (hs : Part.se ∈ P) (old : Nat) :
    Ends (done (u.sesBay k old)) fun t => Followed k u t [.se] ∧ Keeps s t (onPages l) E P
      ∧ (u.on (F.BAYK_STATE_AUTHORISED k) = false → u.bay k ≠ stConnected → t.on (F.BAYK_STATE_AUTHORISED k) = false) :=
  ⟨_, rfl, (u.sesBay_followed hk old).settle,
    (h.follow (u.sesBay_followed hk old)
      { own := fun _ ha => .inl (ha ▸ hown), lost := fun _ ha => .inr ha, ring := he, outlets := ho } (SesRoom.onPages hk h19 hs) (by simpa using hs)
      (by simp)).keeps.settle,
    fun hoff hbay => u.sesBay_unauthorised hk old hoff (.inl hbay)⟩

theorem Confined.bayAnswered {k : Nat} (hk : k < 12) {s u : State}
    (h : Confined k s u (onPages [0x16, 0x19, 0x30 + k]) [3 + k] [.outlets, .se]) (old : Nat) :
    Ends (done (u.sesBay k old)) fun t => Followed k u t [.se] ∧ bayFrame k s t
      ∧ (u.on (F.BAYK_STATE_AUTHORISED k) = false → u.bay k ≠ stConnected → t.on (F.BAYK_STATE_AUTHORISED k) = false) :=
  h.answered hk (by simp) (by simp) (by simp) (by simp) (by simp) old

theorem bayRoom {k : Nat} (hk : k < 12) : BayRoom k (onPages [0x16, 0x19, 0x30 + k]) [3 + k] [.outlets, .se] :=
  BayRoom.onPages hk (by simp) (by simp) (by simp) (by simp)

section
variable {k : Nat} {u t : State}

theorem Followed.cause (h : Followed k u t [.se]) : t.get (F.BAYK_STATE_CAUSE k) = u.get (F.BAYK_STATE_CAUSE k) :=
  h.state _ rfl (.inl (by simp [F.BAYK_STATE_CAUSE]))

theorem Followed.target (h : Followed k u t [.se]) : t.get (F.BAYK_STATE_TARGET k) = u.get (F.BAYK_STATE_TARGET k) :=
  h.state _ rfl (.inl (by simp [F.BAYK_STATE_TARGET]))

theorem Followed.latched (h : Followed k u t [.se]) : t.on (F.BAYK_STATE_LATCHED k) = u.on (F.BAYK_STATE_LATCHED k) := by
  rw [State.on, h.state (F.BAYK_STATE_LATCHED k) rfl (.inr (by simp [F.BAYK_STATE_LATCHED])), State.on]

theorem Followed.own (h : Followed k u t [.se]) (j : Nat) : t.outlet j = u.outlet j := h.outlet (by simp) j

theorem Followed.pend (h : Followed k u t [.se]) (c : Nat) : t.get (hdrPend (0x30 + k) c) = u.get (hdrPend (0x30 + k) c) :=
  h.get _ (by simp only [sesRegs, hdrPend, F.BAYK_STATE_AUTHORISED]; omega)

theorem Followed.level (h : Followed k u t [.se]) : t.get (F.BAYK_VIOL_LEVEL k) = u.get (F.BAYK_VIOL_LEVEL k) :=
  h.get _ (by simp only [sesRegs, F.BAYK_VIOL_LEVEL, F.BAYK_STATE_AUTHORISED]; omega)

end

/-- With neither output commanded high none is high. -/
theorem State.outHigh_of_low (s : State) (k : Nat) (hm : (s.outlet k).conM = false) (ha : (s.outlet k).conA = false) : s.outHigh k = false := by
  simp [State.outHigh, State.pinM, State.pinA, hm, ha]

-- The soft stop of a violation (R287, R303)

theorem State.softStop_answered {s v : State} {k : Nat} (hk : k < 12) (cause old : Nat) (hc : cause < 256)
    (hv : Confined k s v (onPages [0x16, 0x19, 0x30 + k]) [3 + k] [.outlets, .se]) :
    Ends (done (((v.takeFault k cause).withdraw k cause noSeq true false).sesBay k old)) fun t =>
      t.bay k = stWithdrawing ∧ t.get (F.BAYK_STATE_CAUSE k) = cause ∧ t.on (F.BAYK_STATE_AUTHORISED k) = false ∧ (t.outlet k).fault = cause
      ∧ t.get (F.BAYK_VIOL_LEVEL k) = v.get (F.BAYK_VIOL_LEVEL k) ∧ bayFrame k s t := by
  have hfault := v.takeFault_taken k cause
  have henter := (v.takeFault k cause).withdraw_entered hk cause noSeq true false
  obtain ⟨houtlet, -⟩ := (v.takeFault k cause).withdraw_outlet k cause noSeq true false
  obtain ⟨t, ht, hfollow, hframe, hoff⟩ :=
    ((hv.takeFault (bayRoom hk).toOwnRoom cause).withdraw (bayRoom hk) cause noSeq true false).bayAnswered hk old
  refine ⟨t, ht, ?_, ?_, ?_, ?_, ?_, hframe⟩
  · rw [hfollow.bay, henter.code]; rfl
  · rw [hfollow.cause, henter.cause, Nat.mod_eq_of_lt hc]
  · exact hoff (henter.unauthorised (.inl hfault.unauthorised)) (by rw [henter.code]; decide)
  · rw [hfollow.own, houtlet, hfault.outlet]
  · rw [hfollow.level, henter.level (.inr rfl), hfault.viol _ rfl (by simp [F.BAYK_VIOL_LEVEL])]

-- FLICKER_WINDOW_END (R303)

/-- A window read and counted: the count of flicker starts again. -/
def State.windowRead (s : State) (k bad : Nat) : State := (s.put (F.BAYK_PILOT_FLICKER k) 0).setOutlet k { s.outlet k with badWins := bad }

theorem exec_flickerWindowEnd (s : State) (k : Fin 12) (h : s.runs = true) (hon : s.bayOn k = true) :
    exec (.flickerWindowEnd k) s =
      if s.get (F.BAYK_PILOT_FLICKER k) ≤ s.get F.BAY_TIMING_FLICKER_MAX then done (s.windowRead k 0)
      else
        let bad := (s.outlet k).badWins + 1
        let v := (s.windowRead k (if bad < 3 then bad else 0)).violate k cFlicker (s.get (F.BAYK_PILOT_FLICKER k))
        if bad < 3 ∨ !activeState (s.bay k) then done v
        else if s.bay k = stClosing ∨ s.bay k = stCharging then done (((v.takeFault k cFlicker).withdraw k cFlicker noSeq true false).sesBay k (s.bay k))
        else if s.bay k = stWithdrawing then
          done (((v.takeFault k cFlicker).setPilot k pilotLow).setOutlet k
            { ((v.takeFault k cFlicker).setPilot k pilotLow).outlet k with stateF := true, byAllow := false })
        else done ((v.hardFault k cFlicker).sesBay k (s.bay k)) := by
  have hmax : (s.put (F.BAYK_PILOT_FLICKER k) 0).get F.BAY_TIMING_FLICKER_MAX = s.get F.BAY_TIMING_FLICKER_MAX :=
    State.put_get_other _ _ _ _ (by simp only [F.BAYK_PILOT_FLICKER, F.BAY_TIMING_FLICKER_MAX]; omega)
  rw [show exec (.flickerWindowEnd k) s = execFlickerWindowEnd k s from rfl, execFlickerWindowEnd, State.onFabric_runs _ _ h]
  simp only [hon, Bool.not_true, Bool.false_eq_true, if_false, hmax]
  rfl

theorem State.windowRead_get (s : State) (k bad : Nat) : (s.windowRead k bad).get (F.BAYK_PILOT_FLICKER k) = 0 :=
  State.put_get_same s _ 0 (by simp [F.BAYK_PILOT_FLICKER])

theorem State.windowRead_outlet (s : State) (k bad : Nat) : (s.windowRead k bad).outlet k = { s.outlet k with badWins := bad } :=
  State.setOutlet_outlet_same _ _ _

theorem exec_flickerWindowEnd_quiet (s : State) (k : Fin 12) (h : s.runs = true) (hon : s.bayOn k = true)
    (hfew : s.get (F.BAYK_PILOT_FLICKER k) ≤ s.get F.BAY_TIMING_FLICKER_MAX) :
    Ends (exec (.flickerWindowEnd k) s) fun t =>
      t.get (F.BAYK_PILOT_FLICKER k) = 0 ∧ t.outlet k = { s.outlet k with badWins := 0 }
      ∧ Keeps s t (among [A.BAYK_PILOT k]) [] [.outlets] :=
  ⟨_, (exec_flickerWindowEnd s k h hon).trans (if_pos hfew), s.windowRead_get k 0, s.windowRead_outlet k 0,
    (((Keeps.refl s _ _ _).put (F.BAYK_PILOT_FLICKER k) 0 (by simp [F.BAYK_PILOT_FLICKER, A.BAYK_PILOT])).setOutlet _ _ (by simp)).settle⟩

theorem exec_flickerWindowEnd_counts (s : State) (k : Fin 12) (h : s.runs = true) (hon : s.bayOn k = true)
    (hmany : s.get F.BAY_TIMING_FLICKER_MAX < s.get (F.BAYK_PILOT_FLICKER k)) (hbad : (s.outlet k).badWins < 2) :
    Ends (exec (.flickerWindowEnd k) s) fun t =>
      t.get (F.BAYK_PILOT_FLICKER k) = 0 ∧ (t.outlet k).badWins = (s.outlet k).badWins + 1
      ∧ t.get (F.BAYK_VIOL_TOTAL k) = satInc 65535 (s.get (F.BAYK_VIOL_TOTAL k)) ∧ t.get (hdrPend (0x30 + k) 1) = 1 ∧ t.bay k = s.bay k
      ∧ Keeps s t (fun a => a = A.BAYK_PILOT k ∨ a = A.BAYK_VIOL k ∨ eventRegs (0x30 + k) 1 a) [3 + k.val] [.outlets] := by
  have hexec := (exec_flickerWindowEnd s k h hon).trans ((if_neg (by omega)).trans (if_pos (.inl (by omega))))
  have hthree : (if (s.outlet k).badWins + 1 < 3 then (s.outlet k).badWins + 1 else 0) = (s.outlet k).badWins + 1 := if_pos (by omega)
  rw [hthree] at hexec
  have hread (g : Fld) (hg : g.addr ≠ A.BAYK_PILOT k) : (s.windowRead k ((s.outlet k).badWins + 1)).get g = s.get g :=
    State.put_get_other s _ _ _ hg
  have hviol := State.violate_keeps (s.windowRead k ((s.outlet k).badWins + 1)) k cFlicker (s.get (F.BAYK_PILOT_FLICKER k))
  refine ⟨_, hexec, ?_, ?_, ?_, State.violate_pend _ _ _ _, ?_, ?_⟩
  · rw [State.settle_get, hviol.get _ (by simp only [F.BAYK_PILOT_FLICKER, A.BAYK_VIOL]; omega), State.windowRead_get]
  · rw [State.settle_outlet, State.violate_outlet, State.windowRead_outlet]
  · rw [State.settle_get, State.violate_total, hread _ (by simp only [F.BAYK_VIOL_TOTAL, A.BAYK_PILOT]; omega)]
  · rw [State.bay, State.settle_get, hviol.get _ (by simp only [F.BAYK_STATE_CODE, A.BAYK_VIOL]; omega),
      hread _ (by simp only [F.BAYK_STATE_CODE, A.BAYK_PILOT]; omega), State.bay]
  · exact ((((Keeps.refl s _ _ _).put (F.BAYK_PILOT_FLICKER k) 0 (.inl rfl)).setOutlet _ _ (by simp)).trans
      (hviol.mono (fun _ ha => .inr ha) (fun _ he => he) (by simp))).settle

theorem exec_flickerWindowEnd_third (s : State) (k : Fin 12) (h : s.runs = true) (hon : s.bayOn k = true)
    (hmany : s.get F.BAY_TIMING_FLICKER_MAX < s.get (F.BAYK_PILOT_FLICKER k)) (hbad : (s.outlet k).badWins = 2) (hbay : s.bay k = stCharging) :
    Ends (exec (.flickerWindowEnd k) s) fun t =>
      t.bay k = stWithdrawing ∧ t.get (F.BAYK_STATE_CAUSE k) = cFlicker ∧ t.on (F.BAYK_STATE_AUTHORISED k) = false ∧ (t.outlet k).fault = cFlicker
      ∧ Keeps s t (onPages [0x16, 0x19, 0x30 + k.val]) [3 + k.val] [.outlets, .se] := by
  have hexec := (exec_flickerWindowEnd s k h hon).trans
    ((if_neg (by omega)).trans ((if_neg (by rw [hbad, hbay]; decide)).trans (if_pos (.inr hbay))))
  have hread : Confined k s (s.windowRead k (if (s.outlet k).badWins + 1 < 3 then (s.outlet k).badWins + 1 else 0))
      (onPages [0x16, 0x19, 0x30 + k.val]) [3 + k.val] [.outlets, .se] :=
    ((Confined.refl _ _ _ _ _).put (F.BAYK_PILOT_FLICKER k) 0 ((bayRoom k.isLt).own _ (by simp only [F.BAYK_PILOT_FLICKER]; omega))).setOutlet _ (by simp)
  obtain ⟨t, ht, hcode, hcause, hauth, hfault, -, hframe⟩ := State.softStop_answered k.isLt cFlicker (s.bay k) (by decide)
    (hread.violate (bayRoom k.isLt).toOwnRoom cFlicker (s.get (F.BAYK_PILOT_FLICKER k)))
  exact ⟨t, hexec.trans ht, hcode, hcause, hauth, hfault, hframe⟩

-- INVALID_STATE_ALARM (R290, R291)

/-- The alarm taken: the hold shown, the outlet's epoch moved, and both events out. -/
def State.alarmTaken (s : State) (k code : Nat) : State :=
  ((((s.setOutlet k { s.outlet k with alarmHold := true }).showHolds.inc (F.BAYK_OEPOCH k)).event 0x16 0 k).put (F.BAYK_STATE_CODE k) code).note k 0x47
    cInvalid (code % 256) 0 noSeq

theorem State.showHolds_keeps (s : State) : Keeps s s.showHolds (onPages [0x16]) [2] [] := (Keeps.refl s _ _ _).showHolds (by simp) fun _ ha => ha

theorem State.showHolds_outlet (s : State) (j : Nat) : s.showHolds.outlet j = s.outlet j := by
  have houtlets : s.showHolds.outlets = s.outlets := s.showHolds_keeps.parts .outlets (by simp)
  simp only [State.outlet, houtlets]

@[simp] theorem State.event_outlet (s : State) (p b u j : Nat) : (s.event p b u).outlet j = s.outlet j := by
  have houtlets : (s.event p b u).outlets = s.outlets := s.event_part p b u .outlets
  simp only [State.outlet, houtlets]

theorem State.alarmTaken_outlet (s : State) (k code : Nat) : (s.alarmTaken k code).outlet k = { s.outlet k with alarmHold := true } := by
  rw [State.alarmTaken, State.note_outlet, State.put_outlet, State.event_outlet, State.inc_outlet, State.showHolds_outlet, State.setOutlet_outlet_same]

theorem State.alarmTaken_epoch (s : State) {k : Nat} (code : Nat) :
    (s.alarmTaken k code).get (F.BAYK_OEPOCH k) = (s.get (F.BAYK_OEPOCH k) + 1) % 2 ^ 32 := by
  rw [State.alarmTaken, State.note_get _ _ _ _ _ _ _ _ (by simp only [F.BAYK_OEPOCH]; omega),
    State.put_get_other _ _ _ _ (by simp only [F.BAYK_OEPOCH, F.BAYK_STATE_CODE]; omega),
    State.event_get_block _ _ _ _ _ (by simp only [F.BAYK_OEPOCH]; omega) (by decide), State.inc_get_same _ _ (by simp [F.BAYK_OEPOCH]),
    (State.showHolds_keeps _).get _ (by simp only [onPages, F.BAYK_OEPOCH, List.mem_singleton]; omega)]
  rfl

theorem State.alarmTaken_pend (s : State) {k : Nat} (code : Nat) :
    (s.alarmTaken k code).get (hdrPend 0x16 0) = 1 ∧ (s.alarmTaken k code).get (hdrPend (0x30 + k) 5) = 1 := by
  refine ⟨State.bayEventAt_pend_stays _ _ _ _ _ _ _ _ _ _ (by decide) ?_, State.note_pend _ _ _ _ _ _ rfl⟩
  rw [State.put_get_other _ _ _ _ (by simp only [hdrPend, F.BAYK_STATE_CODE]; omega)]
  exact State.event_pend _ _ _ _ (by decide) (by decide)

/-- Bounds with room for an outlet's page have it for its alarm, where ring 2 is among the rings. -/
theorem Confined.alarmTaken {k : Nat} {s : State} (hk : k < 12) (code : Nat) :
    Confined k s (s.alarmTaken k code) (onPages [0x16, 0x19, 0x30 + k]) [2, 3 + k] [.outlets, .se] := by
  have hr : BayRoom k (onPages [0x16, 0x19, 0x30 + k]) [2, 3 + k] [.outlets, .se] := BayRoom.onPages hk (by simp) (by simp) (by simp) (by simp)
  have hheld := (Confined.refl k s (onPages [0x16, 0x19, 0x30 + k]) [2, 3 + k] [.outlets, .se]).setOutlet { s.outlet k with alarmHold := true } (by simp)
  have hshown := hheld.step (hheld.keeps.showHolds (by simp) fun a ha => ha.imp_left (by simp +contextual)) ((State.showHolds_keeps _).parts .outlets (by simp))
  have hepoch := hshown.inc (F.BAYK_OEPOCH k) (hr.own _ (by simp only [F.BAYK_OEPOCH]; omega))
  have hevent := hepoch.step (hepoch.keeps.eventWithin 0x16 0 k (by simp) fun a ha => eventRegs_onPages _ _ _ (by decide) (by simp) a ha)
    (State.event_part _ _ _ _ .outlets)
  exact (hevent.put (F.BAYK_STATE_CODE k) code (hr.own _ (by simp only [F.BAYK_STATE_CODE]; omega))).note hr.toOwnRoom _ _ _ _ _

theorem exec_invalidStateAlarm (s : State) (k : Fin 12) (code : Nat) (h : s.runs = true) (hlt : code < 256) (hcode : code ∉ bayCodes) :
    Ends (exec (.invalidStateAlarm k code) s) fun t =>
      t.bay k = stFaultF ∧ (t.outlet k).alarmHold = true ∧ t.outHigh k = false ∧ (t.outlet k).conM = false
      ∧ t.get (F.BAYK_OEPOCH k) = (s.get (F.BAYK_OEPOCH k) + 1) % 2 ^ 32 ∧ t.on (F.BAYK_STATE_LATCHED k) = true ∧ t.get (hdrPend 0x16 0) = 1
      ∧ t.get (hdrPend (0x30 + k) 5) = 1 ∧ Keeps s t (onPages [0x16, 0x19, 0x30 + k.val]) [2, 3 + k.val] [.outlets, .se] := by
  have hr : BayRoom k.val (onPages [0x16, 0x19, 0x30 + k.val]) [2, 3 + k.val] [.outlets, .se] :=
    BayRoom.onPages k.isLt (by simp) (by simp) (by simp) (by simp)
  have hexec : exec (.invalidStateAlarm k code) s
      = done ((((s.alarmTaken k code).takeFault k cInvalid).enterHard k stFaultF cInvalid noSeq).sesBay k (s.bay k)) := by
    rw [show exec (.invalidStateAlarm k code) s = execInvalidStateAlarm k code s from rfl, execInvalidStateAlarm, State.onFabric_runs _ _ h]
    exact if_neg (by rwa [Nat.mod_eq_of_lt hlt, List.contains_iff_mem])
  have hfault := (s.alarmTaken k code).takeFault_taken k cInvalid
  have hlatched := (s.alarmTaken k code).takeFault_latched k cInvalid (by decide)
  have henter := ((s.alarmTaken k code).takeFault k cInvalid).enterHard_entered k.isLt stFaultF cInvalid noSeq
  obtain ⟨hconM, hconA, hhold⟩ := ((s.alarmTaken k code).takeFault k cInvalid).enterHard_outlet k stFaultF cInvalid noSeq
  obtain ⟨hpend, hpendOwn⟩ := s.alarmTaken_pend (k := k) code
  have hkept (p c : Nat) (hp : p ≠ 4) (hone : (s.alarmTaken k code).get (hdrPend p c) = 1) :
      (((s.alarmTaken k code).takeFault k cInvalid).enterHard k stFaultF cInvalid noSeq).get (hdrPend p c) = 1 := by
    refine henter.pend p c hp ?_
    rw [hfault.get _ (by simp only [hdrPend]; omega) (by simp only [hdrPend]; omega), hone]
  obtain ⟨t, ht, hfollow, hframe, -⟩ := (((Confined.alarmTaken k.isLt code).takeFault hr.toOwnRoom cInvalid).enterHard hr stFaultF cInvalid noSeq
    (by decide)).answered k.isLt (by simp) (by simp) (by simp) (by simp) (by simp) (s.bay k)
  have hm : (t.outlet k).conM = false := by rw [hfollow.own, hconM]
  refine ⟨t, hexec.trans ht, ?_, ?_, t.outHigh_of_low k hm (by rw [hfollow.own, hconA]), hm, ?_, ?_, ?_, ?_, hframe⟩
  · rw [hfollow.bay, henter.code]; rfl
  · rw [hfollow.own, hhold, hfault.outlet, State.alarmTaken_outlet]
  · rw [hfollow.get _ (by simp only [sesRegs, F.BAYK_OEPOCH, F.BAYK_STATE_AUTHORISED]; omega),
      henter.keeps.get _ (by simp only [enterRegs, F.BAYK_OEPOCH, F.BAYK_STATE_CODE, A.BAYK_VIOL]; omega),
      hfault.get _ (by simp only [F.BAYK_OEPOCH]; omega) (by simp only [F.BAYK_OEPOCH]; omega),
      State.alarmTaken_epoch]
  · rw [hfollow.latched, State.on, henter.flags (F.BAYK_STATE_LATCHED k) rfl (by simp [F.BAYK_STATE_LATCHED])]
    exact hlatched
  · rw [hfollow.get _ (by simp only [sesRegs, hdrPend, F.BAYK_STATE_AUTHORISED]; omega), hkept _ _ (by decide) hpend]
  · rw [hfollow.pend, hkept _ _ (by omega) hpendOwn]

-- CONTACTOR_TIMEOUT (R289)

theorem exec_contactorTimeout_close (s : State) (k : Fin 12) (h : s.runs = true) (hon : s.bayOn k = true) (hbay : s.bay k = stClosing)
    (hclosed : s.on (F.BAYK_STATE_CLOSED k) = false) :
    Ends (exec (.contactorTimeout k) s) fun t =>
      t.bay k = stOpening ∧ t.get (F.BAYK_STATE_TARGET k) = stFaultF ∧ t.get (F.BAYK_STATE_CAUSE k) = cMirror ∧ (t.outlet k).conM = false
      ∧ t.on (F.BAYK_STATE_LATCHED k) = true ∧ Keeps s t (onPages [0x16, 0x19, 0x30 + k.val]) [3 + k.val] [.outlets, .se] := by
  have hexec : exec (.contactorTimeout k) s
      = done ((((s.takeFault k cMirror).setPilot k pilotLow).openNow k cMirror stFaultF noSeq).sesBay k (s.bay k)) := by
    rw [show exec (.contactorTimeout k) s = execContactorTimeout k s from rfl, execContactorTimeout, State.onFabric_runs _ _ h]
    exact (if_neg (by simp [hon])).trans (if_pos (by simp [hbay, hclosed]))
  have hlatched := s.takeFault_latched k cMirror (by decide)
  have henter := ((s.takeFault k cMirror).setPilot k pilotLow).openNow_entered k.isLt cMirror stFaultF noSeq
  obtain ⟨hconM, -⟩ := ((s.takeFault k cMirror).setPilot k pilotLow).openNow_outlet k cMirror stFaultF noSeq
  obtain ⟨t, ht, hfollow, hframe, -⟩ := (((((Confined.refl k s _ _ _).takeFault (bayRoom k.isLt).toOwnRoom cMirror).setPilot pilotLow
    (by simp)).openNow (bayRoom k.isLt) cMirror stFaultF noSeq)).bayAnswered k.isLt (s.bay k)
  refine ⟨t, hexec.trans ht, ?_, ?_, ?_, ?_, ?_, hframe⟩
  · rw [hfollow.bay, henter.code]; rfl
  · rw [hfollow.target, henter.target]; rfl
  · rw [hfollow.cause, henter.cause]; rfl
  · rw [hfollow.own, hconM]
  · rw [hfollow.latched, State.on, henter.flags (F.BAYK_STATE_LATCHED k) rfl (by simp [F.BAYK_STATE_LATCHED])]
    exact hlatched

-- A weld found (R295, R298)

theorem State.weld_entered (s : State) {k : Nat} (hk : k < 12) (cause : Nat) :
    ∃ u, Entered k u (s.weld k cause) stWelded cause 0 ∧ u.get (hdrPend (0x30 + k) 4) = 1 := by
  unfold State.weld
  extract_lets v x w y u
  exact ⟨w, (State.enterHard_entered w hk stWelded cause noSeq).after _, State.note_pend _ _ _ _ _ _ rfl⟩

/-- A row that finds a weld. -/
theorem State.weld_answered {s v : State} {k : Nat} (hk : k < 12) (cause old : Nat) (hc : cause < 256)
    (hv : Confined k s v (onPages [0x16, 0x19, 0x30 + k]) [3 + k] [.outlets, .se]) :
    Ends (done ((v.weld k cause).sesBay k old)) fun t =>
      t.bay k = stWelded ∧ t.get (F.BAYK_STATE_CAUSE k) = cause ∧ t.get (hdrPend (0x30 + k) 4) = 1 ∧ bayFrame k s t := by
  obtain ⟨u, henter, hpend⟩ := v.weld_entered hk cause
  obtain ⟨t, ht, hfollow, hframe, -⟩ := (hv.weld (bayRoom hk) cause).bayAnswered hk old
  refine ⟨t, ht, ?_, ?_, ?_, hframe⟩
  · rw [hfollow.bay, henter.code]; rfl
  · rw [hfollow.cause, henter.cause, Nat.mod_eq_of_lt hc]
  · rw [hfollow.pend, henter.pend _ _ (by omega) hpend]

theorem exec_contactorTimeout_open (s : State) (k : Fin 12) (h : s.runs = true) (hon : s.bayOn k = true) (hawait : (s.outlet k).awaitOpen = true)
    (hmirror : (s.outlet k).mirOpen = false) (hbay : s.bay k ∉ [stService, stDisabled, stClosing]) :
    Ends (exec (.contactorTimeout k) s) fun t =>
      t.bay k = stWelded ∧ t.get (F.BAYK_STATE_CAUSE k) = cMirror ∧ t.get (hdrPend (0x30 + k) 4) = 1
      ∧ Keeps s t (onPages [0x16, 0x19, 0x30 + k.val]) [3 + k.val] [.outlets, .se] := by
  simp only [List.mem_cons, List.not_mem_nil, or_false, not_or] at hbay
  obtain ⟨hservice, hdisabled, hclosing⟩ := hbay
  have hexec : exec (.contactorTimeout k) s = done ((s.weld k cMirror).sesBay k (s.bay k)) := by
    rw [show exec (.contactorTimeout k) s = execContactorTimeout k s from rfl, execContactorTimeout, State.onFabric_runs _ _ h]
    exact (if_neg (by simp [hon])).trans ((if_neg (by simp [hclosing])).trans (if_pos (by simp [hawait, hmirror, hservice, hdisabled])))
  rw [hexec]
  exact State.weld_answered k.isLt cMirror (s.bay k) (by decide) (Confined.refl _ _ _ _ _)

-- WELD_CHECK (R298)

theorem exec_weldCheck (s : State) (k : Fin 12) (h : s.runs = true) (hon : s.bayOn k = true) (hcheck : (s.outlet k).weldCheck = true) :
    exec (.weldCheck k) s = let v := s.setOutlet k { s.outlet k with weldCheck := false }
      if v.on (F.BAYK_STATE_VOLTAGE k) ∧ !v.outHigh k ∧ ([stDisabled, stService, stWelded].contains (s.bay k)) = false
      then done ((v.weld k cWeld).sesBay k (s.bay k)) else done v := by
  rw [show exec (.weldCheck k) s = execWeldCheck k s from rfl, execWeldCheck, State.onFabric_runs _ _ h]
  exact if_neg (by simp [hon, hcheck])

theorem exec_weldCheck_weld (s : State) (k : Fin 12) (h : s.runs = true) (hon : s.bayOn k = true) (hcheck : (s.outlet k).weldCheck = true)
    (hvolt : s.on (F.BAYK_STATE_VOLTAGE k) = true) (hlow : s.outHigh k = false) (hbay : s.bay k ∉ [stDisabled, stService, stWelded]) :
    Ends (exec (.weldCheck k) s) fun t =>
      t.bay k = stWelded ∧ t.get (F.BAYK_STATE_CAUSE k) = cWeld ∧ t.get (hdrPend (0x30 + k) 4) = 1
      ∧ Keeps s t (onPages [0x16, 0x19, 0x30 + k.val]) [3 + k.val] [.outlets, .se] := by
  have hsame : (s.setOutlet k { s.outlet k with weldCheck := false }).outHigh k = s.outHigh k := by
    simp only [State.outHigh, State.pinM, State.pinA, State.held', State.setOutlet_outlet_same]
    rfl
  have hexec := (exec_weldCheck s k h hon hcheck).trans (if_pos ⟨hvolt, by simp [hsame, hlow], by
    rw [Bool.eq_false_iff, Ne, List.contains_iff_mem]; exact hbay⟩)
  rw [hexec]
  exact State.weld_answered k.isLt cWeld (s.bay k) (by decide) ((Confined.refl _ _ _ _ _).setOutlet _ (by simp))

theorem exec_weldCheck_clear (s : State) (k : Fin 12) (h : s.runs = true) (hon : s.bayOn k = true) (hcheck : (s.outlet k).weldCheck = true)
    (hvolt : s.on (F.BAYK_STATE_VOLTAGE k) = false) :
    Ends (exec (.weldCheck k) s) fun t => t.outlet k = { s.outlet k with weldCheck := false } ∧ Keeps s t (among []) [] [.outlets] :=
  ⟨_, (exec_weldCheck s k h hon hcheck).trans (if_neg fun hif => absurd (hvolt.symm.trans hif.1) (by decide)), State.setOutlet_outlet_same _ _ _,
    ((Keeps.refl s _ _ _).setOutlet _ _ (by simp)).settle⟩

-- WITHDRAW_TIMEOUT (R287, R303)

/-- The allowance, term by term, is of the outlet's page. -/
theorem State.allowance_congr {s t : State} {k : Nat} (hpage : ∀ a, 0x30100 + 4096 * k ≤ a → a ≤ 0x30130 + 4096 * k → t.reg a = s.reg a)
    (hlevel : t.get (F.BAYK_VIOL_LEVEL k) = s.get (F.BAYK_VIOL_LEVEL k)) : t.allowance k = s.allowance k := by
  have hget (f : Fld) (hlo : 0x30100 + 4096 * k ≤ f.addr) (hhi : f.addr ≤ 0x30130 + 4096 * k) : t.get f = s.get f := by
    simp only [State.get, hpage _ hlo hhi]
  unfold State.allowance State.on
  rw [hlevel, hget (F.BAYK_RATED_MA k) (by simp only [F.BAYK_RATED_MA]; omega) (by simp only [F.BAYK_RATED_MA]; omega),
    hget (F.BAYK_CFG_PP_MODE k) (by simp only [F.BAYK_CFG_PP_MODE]; omega) (by simp only [F.BAYK_CFG_PP_MODE]; omega),
    hget (F.BAYK_PP_CAP k) (by simp only [F.BAYK_PP_CAP]; omega) (by simp only [F.BAYK_PP_CAP]; omega),
    hget (F.BAYK_HOST_LIMIT_MA k) (by simp only [F.BAYK_HOST_LIMIT_MA]; omega) (by simp only [F.BAYK_HOST_LIMIT_MA]; omega),
    hget (F.BAYK_CFG_LMG_IL k) (by simp only [F.BAYK_CFG_LMG_IL]; omega) (by simp only [F.BAYK_CFG_LMG_IL]; omega),
    hget (F.BAYK_LMG_LIMIT_MA k) (by simp only [F.BAYK_LMG_LIMIT_MA]; omega) (by simp only [F.BAYK_LMG_LIMIT_MA]; omega)]

theorem State.violate_reg (s : State) (k cause value a : Nat) (hlo : 0x30100 + 4096 * k ≤ a) (hhi : a ≤ 0x30130 + 4096 * k) :
    (s.violate k cause value).reg a = s.reg a := (s.violate_keeps k cause value).regs a (by simp only [A.BAYK_VIOL]; omega)

theorem State.violate_openTarget (s : State) (k cause value : Nat) (classA fault : Bool) :
    (s.violate k cause value).openTarget k classA fault = s.openTarget k classA fault := by
  have hallow : (s.violate k cause value).allowance k = s.allowance k :=
    State.allowance_congr (s.violate_reg k cause value) (s.violate_viol k cause value _ rfl (by simp [F.BAYK_VIOL_LEVEL]))
  have hauth : (s.violate k cause value).on (F.BAYK_STATE_AUTHORISED k) = s.on (F.BAYK_STATE_AUTHORISED k) :=
    (s.violate_keeps k cause value).on _ (by simp only [F.BAYK_STATE_AUTHORISED, A.BAYK_VIOL]; omega)
  rw [State.openTarget, State.openTarget, hallow, hauth]

theorem State.openTarget_lt (s : State) (k : Nat) (classA fault : Bool) : s.openTarget k classA fault < 256 := by
  unfold State.openTarget
  split
  · decide
  split
  · decide
  split <;> decide

/-- OPENING out of WITHDRAWING, with its cause. -/
theorem State.withdrawn_answered {s v : State} {k : Nat} (hk : k < 12) (cause target seq old : Nat) (hc : cause < 256) (ht : target < 256)
    (hv : Confined k s v (onPages [0x16, 0x19, 0x30 + k]) [3 + k] [.outlets, .se]) :
    Ends (done ((v.openNow k cause target seq).sesBay k old)) fun t =>
      t.bay k = stOpening ∧ (t.outlet k).conM = false ∧ (t.outlet k).conA = false ∧ t.get (F.BAYK_STATE_CAUSE k) = cause
      ∧ t.get (F.BAYK_STATE_TARGET k) = target ∧ bayFrame k s t := by
  have henter := v.openNow_entered hk cause target seq
  obtain ⟨hconM, hconA⟩ := v.openNow_outlet k cause target seq
  obtain ⟨t, hdone, hfollow, hframe, -⟩ := (hv.openNow (bayRoom hk) cause target seq).bayAnswered hk old
  refine ⟨t, hdone, ?_, ?_, ?_, ?_, ?_, hframe⟩
  · rw [hfollow.bay, henter.code]; rfl
  · rw [hfollow.own, hconM]
  · rw [hfollow.own, hconA]
  · rw [hfollow.cause, henter.cause, Nat.mod_eq_of_lt hc]
  · rw [hfollow.target, henter.target, Nat.mod_eq_of_lt ht]

theorem exec_withdrawTimeout (s : State) (k : Fin 12) (h : s.runs = true) (hon : s.bayOn k = true) (hbay : s.bay k = stWithdrawing) :
    Ends (exec (.withdrawTimeout k) s) fun t =>
      t.bay k = stOpening ∧ (t.outlet k).conM = false ∧ (t.outlet k).conA = false
      ∧ t.get (F.BAYK_STATE_CAUSE k) = (if s.get F.BAY_HOLD_TIME_OPEN_I * 10 ≤ (s.outlet k).current then cIgnored else s.get (F.BAYK_STATE_CAUSE k))
      ∧ t.get (F.BAYK_STATE_TARGET k) = s.openTarget k false (s.outlet k).stateF
      ∧ Keeps s t (onPages [0x16, 0x19, 0x30 + k.val]) [3 + k.val] [.outlets, .se] := by
  by_cases hign : s.get F.BAY_HOLD_TIME_OPEN_I * 10 ≤ (s.outlet k).current
  · have hexec : exec (.withdrawTimeout k) s = done (((s.violate k cIgnored (s.mA k)).openNow k cIgnored
        (s.openTarget k false (s.outlet k).stateF) (s.outlet k).seq).sesBay k (s.bay k)) := by
      rw [show exec (.withdrawTimeout k) s = execWithdrawTimeout k s from rfl, execWithdrawTimeout, State.onFabric_runs _ _ h,
        ← s.violate_openTarget k cIgnored (s.mA k)]
      refine (if_neg (by simp [hon, hbay])).trans ?_
      simp only [hign, decide_true, if_true]
    rw [hexec, if_pos hign]
    exact State.withdrawn_answered k.isLt cIgnored _ _ _ (by decide) (s.openTarget_lt k false _)
      ((Confined.refl _ _ _ _ _).violate (bayRoom k.isLt).toOwnRoom cIgnored _)
  · have hexec : exec (.withdrawTimeout k) s = done ((s.openNow k (s.get (F.BAYK_STATE_CAUSE k))
        (s.openTarget k false (s.outlet k).stateF) (s.outlet k).seq).sesBay k (s.bay k)) := by
      rw [show exec (.withdrawTimeout k) s = execWithdrawTimeout k s from rfl, execWithdrawTimeout, State.onFabric_runs _ _ h]
      refine (if_neg (by simp [hon, hbay])).trans ?_
      simp only [hign, decide_false, Bool.false_eq_true, if_false]
    rw [hexec, if_neg hign]
    exact State.withdrawn_answered k.isLt _ _ _ _ (s.get_lt (F.BAYK_STATE_CAUSE k)) (s.openTarget_lt k false _) (Confined.refl _ _ _ _ _)

-- FAULT_HOLD_EXPIRY (R289, R305)

theorem exec_faultHoldExpiry (s : State) (k : Fin 12) (h : s.runs = true) (hon : s.bayOn k = true) (hbay : s.bay k = stFaultF)
    (hretry : retriable (s.outlet k).fault = true) (hmax : s.get (F.BAYK_VIOL_RETRIES k) < s.get F.BAY_OC_CFG_RETRY_MAX) :
    Ends (exec (.faultHoldExpiry k) s) fun t =>
      t.bay k = stIdle ∧ (t.outlet k).nextPilot = some pilotHigh ∧ Keeps s t (onPages [0x16, 0x19, 0x30 + k.val]) [3 + k.val] [.outlets, .se] := by
  have hexec : exec (.faultHoldExpiry k) s = done (((s.setPilot k pilotHigh).enter k stIdle cNone noSeq).sesBay k stFaultF) := by
    rw [show exec (.faultHoldExpiry k) s = execFaultHoldExpiry k s from rfl, execFaultHoldExpiry, State.onFabric_runs _ _ h]
    exact if_pos ⟨hon, hbay, hretry, hmax⟩
  obtain ⟨t, ht, hfollow, hframe, -⟩ := (((Confined.refl k s _ _ _).setPilot pilotHigh (by simp)).enter (bayRoom k.isLt) stIdle cNone noSeq
    fun heq => absurd heq (by decide)).bayAnswered k.isLt stFaultF
  refine ⟨t, hexec.trans ht, ?_, ?_, hframe⟩
  · rw [hfollow.bay, State.enter, (State.enter'_entered _ k.isLt stIdle cNone 0 noSeq).code]; rfl
  · rw [hfollow.own, State.enter, State.enter'_outlet, State.setPilot, State.setOutlet_outlet_same]

-- OVERCURRENT_TIMEOUT and METER_LOST_TIMEOUT (R303)

theorem State.allowance_limited (s : State) (k : Nat) (h : s.get (F.BAYK_VIOL_LEVEL k) ≠ 0) : (s.allowance k).1 ≤ 6000 := by
  unfold State.allowance
  extract_lets a b c d
  rw [if_neg h, minTerm]
  split
  · exact le_rfl
  · next hle => simpa using hle

theorem exec_overcurrentTimeout_first (s : State) (k : Fin 12) (h : s.runs = true) (hon : s.bayOn k = true) (hbay : s.bay k = stCharging)
    (hexcess : (s.outlet k).excess = true) (hpaused : (s.outlet k).paused = false) (hlevel : s.get (F.BAYK_VIOL_LEVEL k) = 0) :
    Ends (exec (.overcurrentTimeout k) s) fun t =>
      t.get (F.BAYK_VIOL_LEVEL k) = 1 ∧ (t.allowance k).1 ≤ 6000 ∧ t.bay k = stCharging ∧ t.get (hdrPend (0x30 + k) 1) = 1
      ∧ Keeps s t (onPages [0x19, 0x30 + k.val]) [3 + k.val] [.outlets, .se] := by
  let v := (s.put (F.BAYK_VIOL_LEVEL k) 1).setOutlet k { s.outlet k with excess := false }
  have hexec : exec (.overcurrentTimeout k) s = done ((v.violate k cOver (v.mA k)).sesBay k stCharging) := by
    rw [show exec (.overcurrentTimeout k) s = execOvercurrentTimeout k s from rfl, execOvercurrentTimeout, State.onFabric_runs _ _ h]
    exact (if_neg (by simp [hon, hbay, hexcess, hpaused])).trans (if_pos hlevel)
  have hone : (v.violate k cOver (v.mA k)).get (F.BAYK_VIOL_LEVEL k) = 1 := by
    rw [State.violate_viol _ _ _ _ _ rfl (by simp [F.BAYK_VIOL_LEVEL])]
    exact State.put_get_same s _ _ (by simp [F.BAYK_VIOL_LEVEL])
  have hcode : (v.violate k cOver (v.mA k)).bay k = s.bay k := by
    rw [State.bay, (State.violate_keeps v k cOver (v.mA k)).get _ (by simp only [F.BAYK_STATE_CODE, A.BAYK_VIOL]; omega)]
    exact State.put_get_other s _ _ _ (by simp only [F.BAYK_STATE_CODE, F.BAYK_VIOL_LEVEL]; omega)
  have hr : OwnRoom k.val (onPages [0x19, 0x30 + k.val]) [3 + k.val] [.outlets, .se] :=
    { own := fun _ ha => .inl (by simp [ha]), lost := fun _ ha => .inr ha, ring := by simp, outlets := by simp }
  have hv : Confined k.val s v (onPages [0x19, 0x30 + k.val]) [3 + k.val] [.outlets, .se] :=
    ((Confined.refl _ _ _ _ _).put _ _ (hr.own _ (by simp only [F.BAYK_VIOL_LEVEL]; omega))).setOutlet _ (by simp)
  obtain ⟨t, ht, hfollow, hframe, -⟩ :=
    (hv.violate hr cOver (v.mA k)).answered k.isLt (by simp) (by simp) (by simp) (by simp) (by simp) stCharging
  have hlast : t.get (F.BAYK_VIOL_LEVEL k) = 1 := by rw [hfollow.level, hone]
  refine ⟨t, hexec.trans ht, hlast, t.allowance_limited k (by rw [hlast]; decide), ?_, ?_, hframe⟩
  · rw [hfollow.bay, hcode, hbay]
  · rw [hfollow.pend, State.violate_pend]

theorem exec_overcurrentTimeout_second (s : State) (k : Fin 12) (h : s.runs = true) (hon : s.bayOn k = true) (hbay : s.bay k = stCharging)
    (hexcess : (s.outlet k).excess = true) (hpaused : (s.outlet k).paused = false) (hlevel : s.get (F.BAYK_VIOL_LEVEL k) ≠ 0)
    (hgrace : (s.outlet k).grace = []) :
    Ends (exec (.overcurrentTimeout k) s) fun t =>
      t.get (F.BAYK_VIOL_LEVEL k) = 2 ∧ t.bay k = stWithdrawing ∧ t.get (F.BAYK_STATE_CAUSE k) = cOver ∧ t.on (F.BAYK_STATE_AUTHORISED k) = false
      ∧ Keeps s t (onPages [0x16, 0x19, 0x30 + k.val]) [3 + k.val] [.outlets, .se] := by
  have hexec : exec (.overcurrentTimeout k) s = done (((s.put (F.BAYK_VIOL_LEVEL k) 2).softViolation k cOver (s.mA k)).sesBay k stCharging) := by
    rw [show exec (.overcurrentTimeout k) s = execOvercurrentTimeout k s from rfl, execOvercurrentTimeout, State.onFabric_runs _ _ h]
    exact (if_neg (by simp [hon, hbay, hexcess, hpaused])).trans ((if_neg hlevel).trans (if_neg (by simp [hgrace])))
  obtain ⟨t, ht, hcode, hcause, hauth, -, hlast, hframe⟩ := State.softStop_answered k.isLt cOver stCharging (by decide)
    (((Confined.refl k s _ _ _).put (F.BAYK_VIOL_LEVEL k) 2 ((bayRoom k.isLt).own _ (by simp only [F.BAYK_VIOL_LEVEL]; omega))).violate
      (bayRoom k.isLt).toOwnRoom cOver (s.mA k))
  refine ⟨t, hexec.trans ht, ?_, hcode, hcause, hauth, hframe⟩
  rw [hlast, State.violate_viol _ _ _ _ _ rfl (by simp [F.BAYK_VIOL_LEVEL]), State.put_get_same _ _ _ (by simp [F.BAYK_VIOL_LEVEL])]
  rfl

theorem exec_meterLostTimeout (s : State) (k : Fin 12) (h : s.runs = true) (hon : s.bayOn k = true) (hbay : s.bay k = stCharging)
    (hvalid : s.on (F.MTRK_QSTAT_VALID k) = false) :
    Ends (exec (.meterLostTimeout k) s) fun t =>
      t.bay k = stWithdrawing ∧ t.get (F.BAYK_STATE_CAUSE k) = cMeter ∧ t.on (F.BAYK_STATE_AUTHORISED k) = false ∧ (t.outlet k).fault = cMeter
      ∧ Keeps s t (onPages [0x16, 0x19, 0x30 + k.val]) [3 + k.val] [.outlets, .se] := by
  have hexec : exec (.meterLostTimeout k) s = done ((s.softViolation k cMeter (s.mA k)).sesBay k stCharging) := by
    rw [show exec (.meterLostTimeout k) s = execMeterLostTimeout k s from rfl, execMeterLostTimeout, State.onFabric_runs _ _ h]
    exact if_pos ⟨hon, hbay, by simp [hvalid]⟩
  obtain ⟨t, ht, hcode, hcause, hauth, hfault, -, hframe⟩ := State.softStop_answered k.isLt cMeter stCharging (by decide)
    ((Confined.refl k s _ _ _).violate (bayRoom k.isLt).toOwnRoom cMeter (s.mA k))
  exact ⟨t, hexec.trans ht, hcode, hcause, hauth, hfault, hframe⟩

/-- Settles O33, clause by clause. -/
theorem outletTimersAndAlarms : Obligations.OutletTimersAndAlarms :=
  ⟨exec_flickerWindowEnd_quiet, exec_flickerWindowEnd_counts, exec_flickerWindowEnd_third, exec_invalidStateAlarm, exec_contactorTimeout_close,
    exec_contactorTimeout_open, exec_weldCheck_weld, exec_weldCheck_clear, exec_withdrawTimeout, exec_faultHoldExpiry, exec_overcurrentTimeout_first,
    exec_overcurrentTimeout_second, exec_meterLostTimeout⟩

end Sys2Proof.Machine

/-! Outlet commands and enables (O34): a command taken, judged and answered, and what each one does. -/
namespace Sys2Proof.Machine

-- A command of ring 15 + k (R306, R307)

theorem State.bayCommand_refusing {s : State} {k typ : Nat} {f : Frame} (hhead : s.bayHead k typ = some f) {argOk : Nat → Bool} {accepted : Bool}
    {c : Nat} (hc : (s.take (15 + k)).bayRefuse k f (argOk (cmdArg f)) accepted = some c) (act : State → Frame → State) :
    s.bayCommand k typ argOk accepted act = done (((s.take (15 + k)).err (bayPg k) c).bayAnswer k f c) := by
  rw [State.bayCommand, hhead]
  simp only [hc]

theorem State.bayCommand_acting {s : State} {k typ : Nat} {f : Frame} (hhead : s.bayHead k typ = some f) {argOk : Nat → Bool} {accepted : Bool}
    (hc : (s.take (15 + k)).bayRefuse k f (argOk (cmdArg f)) accepted = none) (act : State → Frame → State) :
    s.bayCommand k typ argOk accepted act = done (((act (s.take (15 + k)) f).bayAnswer k f 0).sesBay k (s.bay k)) := by
  rw [State.bayCommand, hhead]
  simp only [hc]

/-- A command that passes every check acts, is answered, and SES hears of it. -/
theorem State.bayCommand_accepted {s : State} {k typ : Nat} {f : Frame} (hhead : s.bayHead k typ = some f) (htakes : s.bayTakes k f)
    {argOk : Nat → Bool} (harg : argOk (cmdArg f) = true) {accepted : Bool} (hacc : accepted = true) (act : State → Frame → State) :
    s.bayCommand k typ argOk accepted act = done (((act (s.take (15 + k)) f).bayAnswer k f 0).sesBay k (s.bay k)) := by
  obtain ⟨-, hlen, hepoch, hbench, hwarn⟩ := htakes
  have hnone : (s.take (15 + k)).bayRefuse k f (argOk (cmdArg f)) accepted = none := by
    rw [State.bayRefuse, State.take_get, State.take_boot, State.take_pf]
    simp [firstErr, hlen, hepoch, hbench, hwarn, harg, hacc]
  exact State.bayCommand_acting hhead hnone act

/-- The reply to a command, where nothing has gone out on the outlet's ring before it. -/
theorem Keeps.outletReply {s u : State} {R : Nat → Prop} {E : List Nat} {P : List Part} (h : Keeps s u R E P) (k : Nat) (f : Frame) (st : Nat)
    (he : 3 + k ∉ E) (hcfg : ¬ R (F.HLKR_RING_CFG_COUNT_CODE (3 + k)).addr) : outletReply s (u.bayAnswer k f st) k f st := fun htakes => by
  obtain ⟨hframes, -⟩ := State.emit_queued u (3 + k) (0x80 + f.typ) (some f.seq) st (le 1 (u.bay k) ++ le 3 0 ++ le 4 (u.get (F.BAYK_OEPOCH k)))
    (h.takes he hcfg htakes)
  rw [h.rings _ he] at hframes
  exact ⟨_, hframes, rfl, rfl, rfl⟩

theorem Keeps.bayAnswer {s t : State} {R : Nat → Prop} {E : List Nat} {P : List Part} (h : Keeps s t R E P) (k : Nat) (f : Frame) (st : Nat)
    (he : 3 + k ∈ E) (hlost : ∀ a, lostRegs a → R a) : Keeps s (t.bayAnswer k f st) R E P := h.emit _ _ _ _ _ he hlost

/-- An answer beside the link's own registers changes no register and no outlet. -/
theorem State.bayAnswer_get (s : State) (k : Nat) (f : Frame) (st : Nat) (g : Fld) (hg : ¬ lostRegs g.addr) : (s.bayAnswer k f st).get g = s.get g :=
  State.emit_get _ _ _ _ _ _ _ hg

theorem State.bayAnswer_outlet (s : State) (k : Nat) (f : Frame) (st j : Nat) : (s.bayAnswer k f st).outlet j = s.outlet j := by
  have houtlets : (s.bayAnswer k f st).outlets = s.outlets := s.emit_part _ _ _ _ _ .outlets
  simp only [State.outlet, houtlets]

/-- A refused command is answered and recorded. -/
theorem State.bayCommand_refused {s : State} {k : Nat} (hk : k < 12) {typ : Nat} {f : Frame} (hhead : s.bayHead k typ = some f)
    (hbad : f.payload.length ≠ 8 ∨ fieldLe f.payload 0 4 ≠ s.get (F.BAYK_OEPOCH k) ∨ s.boot.bench = true ∨ s.pf.warned = true)
    {argOk : Nat → Bool} (harg : f.payload.length = 8 → argOk (cmdArg f) = true) (accepted : Bool) (act : State → Frame → State) :
    Ends (s.bayCommand k typ argOk accepted act) fun t =>
      let code := if f.payload.length ≠ 8 then 0x1E else if fieldLe f.payload 0 4 ≠ s.get (F.BAYK_OEPOCH k) then 0x40 else 0x41
      t.get (hdrErrcode (0x30 + k)) = code ∧ (t.ring (15 + k)).frames = (s.ring (15 + k)).frames.tail ∧ outletReply s t k f code
      ∧ Keeps s t (fun a => errRegs (0x30 + k) a ∨ lostRegs a) [3 + k, 15 + k] [] := by
  let code := if f.payload.length ≠ 8 then 0x1E else if fieldLe f.payload 0 4 ≠ s.get (F.BAYK_OEPOCH k) then 0x40 else 0x41
  have hcode : (s.take (15 + k)).bayRefuse k f (argOk (cmdArg f)) accepted = some code := by
    rw [State.bayRefuse, State.take_get, State.take_boot, State.take_pf]
    by_cases hlen : f.payload.length = 8
    · by_cases hepoch : fieldLe f.payload 0 4 = s.get (F.BAYK_OEPOCH k)
      · have hheld : s.boot.bench = true ∨ s.pf.warned = true := by tauto
        rcases hheld with hheld | hheld <;> simp [firstErr, code, hlen, hepoch, harg hlen, hheld]
      · simp [firstErr, code, hlen, hepoch, harg hlen]
    · simp [firstErr, code, hlen]
  have hlt : code < 65536 := by
    simp only [code]
    split
    · decide
    · split <;> decide
  have hkeep : Keeps s ((s.take (15 + k)).err (bayPg k) code) (errRegs (0x30 + k)) [15 + k] [] :=
    ((Keeps.refl s _ _ _).take (15 + k) (by simp)).err (bayPg k) code (.inl rfl) (.inr rfl)
  refine ⟨_, State.bayCommand_refusing hhead hcode act, ?_, ?_, hkeep.outletReply k f code (by simp) ?_, ?_⟩
  · rw [State.settle_get, State.bayAnswer_get _ _ _ _ _ (by simp only [hdrErrcode]; omega), bayPg, State.err_code, Nat.mod_eq_of_lt hlt]
  · rw [State.settle_ring, State.bayAnswer, State.emit_ring_other _ _ _ _ _ _ _ (by omega), State.err_ring, State.take_ring_same]
  · simp only [F.HLKR_RING_CFG_COUNT_CODE]; omega
  · exact ((hkeep.mono (fun _ ha => .inl ha) (by simp +contextual) (fun _ hp => hp)).bayAnswer k f code (by simp) fun _ ha => .inr ha).settle

section
variable (s : State) (k : Fin 12) (h : s.runs = true)
include h

theorem exec_authorise : exec (.authorise k) s
    = s.bayCommand k 1 (· == 0) (s.on (F.BAYK_CFG_AUTH_SRC k) && s.bayReady k) fun s _ => (s.authorise k).sesHostAuth k := by
  rw [show exec (.authorise k) s = execAuthorise k s from rfl, execAuthorise, State.onFabric_runs _ _ h]

theorem exec_stop : exec (.stop k) s = s.bayCommand k 2 (· == 0) true fun s f => s.stopOutlet k cHost f.seq := by
  rw [show exec (.stop k) s = execStop k s from rfl, execStop, State.onFabric_runs _ _ h]

theorem exec_setLimit : exec (.setLimit k) s
    = s.bayCommand k 3 (fun a => decide (a ≤ 100000) || a == 0xFFFFF) true fun s f => s.put (F.BAYK_HOST_LIMIT_MA k) (cmdArg f) := by
  rw [show exec (.setLimit k) s = execSetLimit k s from rfl, execSetLimit, State.onFabric_runs _ _ h]

theorem exec_pilotPause : exec (.pilotPause k) s
    = s.bayCommand k 4 (fun a => decide (1 ≤ a) && decide (a ≤ 10000)) ([stOffering, stClosing, stCharging].contains (s.bay k))
        fun s f => s.setOutlet k { s.outlet k with pauseNext := cmdArg f } := by
  rw [show exec (.pilotPause k) s = execPilotPause k s from rfl, execPilotPause, State.onFabric_runs _ _ h]

theorem exec_allowClose : exec (.allowClose k) s
    = s.bayCommand k 5 (· == 0) (s.bay k == stOffering && s.on (F.BAYK_CFG_DIG_GATE k))
        fun s _ => s.setOutlet k { s.outlet k with allowClose := true } := by
  rw [show exec (.allowClose k) s = execAllowClose k s from rfl, execAllowClose, State.onFabric_runs _ _ h]

theorem exec_lock : exec (.lock k) s
    = s.bayCommand k 6 (· == 0) ((s.bay k == stIdle || s.bay k == stConnected) && s.on (F.BAYK_CFG_LOCK_EN k)) fun s _ => s.lockStart k 1 1 := by
  rw [show exec (.lock k) s = execLock k s from rfl, execLock, State.onFabric_runs _ _ h]

theorem exec_unlock : exec (.unlock k) s = s.bayCommand k 7 (· == 0) (s.unlockOk k) fun s _ => s.lockStart k 2 1 := by
  rw [show exec (.unlock k) s = execUnlock k s from rfl, execUnlock, State.onFabric_runs _ _ h]

end

/-- RETRIES, LATCHED and the outlet's own holds cleared. -/
def State.clearFault (s : State) (k : Nat) : State :=
  let v := (s.put (F.BAYK_VIOL_RETRIES k) 0).put (F.BAYK_STATE_LATCHED k) 0
  v.setOutlet k { v.outlet k with alarmHold := false, tripDue := false }

/-- What RESET_FAULT does before the outlet enters IDLE. -/
def State.faultReset (s : State) (k : Nat) : State := ((if s.bay k = stTripped then s.rcmRelease k else s).clearFault k).showHolds

theorem exec_resetFault (s : State) (k : Fin 12) (h : s.runs = true) : exec (.resetFault k) s
    = s.bayCommand k 8 (· == 0) (s.resetOk k) fun s _ => ((s.faultReset k).setPilot k pilotHigh).enter k stIdle cHost noSeq := by
  rw [show exec (.resetFault k) s = execResetFault k s from rfl, execResetFault, State.onFabric_runs _ _ h]
  rfl

/-- DIGITAL written, and the pilot that follows it (R279). -/
def State.digitalSet (s : State) (k v : Nat) : State :=
  let u := s.put (F.BAYK_CFG_DIGITAL k) v
  if [stOffering, stClosing, stCharging].contains (u.bay k) then u.setPilot k (u.pilotPwm k) else u

theorem exec_digital (s : State) (k : Fin 12) (h : s.runs = true) : exec (.digital k) s
    = s.bayCommand k 9 (fun a => decide (a ≤ 1)) (s.bay k != stService) fun s f => s.digitalSet k (cmdArg f) := by
  rw [show exec (.digital k) s = execDigital k s from rfl, execDigital, State.onFabric_runs _ _ h]
  rfl

/-- The nine rows of R306. -/
theorem exec_outletCommand_refused (s : State) (k : Fin 12) (c : Instr) (typ : Nat) (f : Frame)
    (hc : (c = .authorise k ∧ typ = 1) ∨ (c = .stop k ∧ typ = 2) ∨ (c = .setLimit k ∧ typ = 3) ∨ (c = .pilotPause k ∧ typ = 4) ∨ (c = .allowClose k ∧ typ = 5)
      ∨ (c = .lock k ∧ typ = 6) ∨ (c = .unlock k ∧ typ = 7) ∨ (c = .resetFault k ∧ typ = 8) ∨ (c = .digital k ∧ typ = 9))
    (h : s.runs = true) (hhead : s.bayHead k typ = some f)
    (hbad : f.payload.length ≠ 8 ∨ fieldLe f.payload 0 4 ≠ s.get (F.BAYK_OEPOCH k) ∨ s.boot.bench = true ∨ s.pf.warned = true)
    (harg : f.payload.length = 8 → if typ = 4 then 1 ≤ cmdArg f ∧ cmdArg f ≤ 10000 else cmdArg f = 0) :
    Ends (exec c s) fun t =>
      let code := if f.payload.length ≠ 8 then 0x1E else if fieldLe f.payload 0 4 ≠ s.get (F.BAYK_OEPOCH k) then 0x40 else 0x41
      t.get (hdrErrcode (0x30 + k)) = code ∧ (t.ring (15 + k)).frames = (s.ring (15 + k)).frames.tail ∧ outletReply s t k f code
      ∧ Keeps s t (fun a => errRegs (0x30 + k) a ∨ lostRegs a) [3 + k.val, 15 + k.val] [] := by
  have hrow : ∃ argOk accepted act, exec c s = s.bayCommand k typ argOk accepted act ∧ (f.payload.length = 8 → argOk (cmdArg f) = true) := by
    rcases hc with ⟨rfl, rfl⟩ | ⟨rfl, rfl⟩ | ⟨rfl, rfl⟩ | ⟨rfl, rfl⟩ | ⟨rfl, rfl⟩ | ⟨rfl, rfl⟩ | ⟨rfl, rfl⟩ | ⟨rfl, rfl⟩ | ⟨rfl, rfl⟩
    · exact ⟨_, _, _, exec_authorise s k h, fun hlen => by simpa using harg hlen⟩
    · exact ⟨_, _, _, exec_stop s k h, fun hlen => by simpa using harg hlen⟩
    · exact ⟨_, _, _, exec_setLimit s k h, fun hlen => by simp [show cmdArg f = 0 from harg hlen]⟩
    · exact ⟨_, _, _, exec_pilotPause s k h, fun hlen => by simpa using harg hlen⟩
    · exact ⟨_, _, _, exec_allowClose s k h, fun hlen => by simpa using harg hlen⟩
    · exact ⟨_, _, _, exec_lock s k h, fun hlen => by simpa using harg hlen⟩
    · exact ⟨_, _, _, exec_unlock s k h, fun hlen => by simpa using harg hlen⟩
    · exact ⟨_, _, _, exec_resetFault s k h, fun hlen => by simpa using harg hlen⟩
    · exact ⟨_, _, _, exec_digital s k h, fun hlen => by simp [show cmdArg f = 0 from harg hlen]⟩
  obtain ⟨argOk, accepted, act, hexec, hok⟩ := hrow
  rw [hexec]
  exact State.bayCommand_refused k.isLt hhead hbad hok accepted act

-- A command that leaves the outlet's state (R306)

/-- Such a command acts and is answered; of its session only the waiting couch may move. -/
structure ActedQuietly (s u t : State) (k : Nat) (f : Frame) (R : Nat → Prop) (P : List Part) : Prop where
  taken : (t.ring (15 + k)).frames = (s.ring (15 + k)).frames.tail
  reply : outletReply s t k f 0
  get : ∀ g : Fld, ¬ lostRegs g.addr → t.get g = u.get g
  outlet : ∀ j, t.outlet j = u.outlet j
  keeps : Keeps s t R [3 + k, 15 + k] P

theorem State.bayCommand_quiet {s : State} {k : Nat} (hk : k < 12) {typ : Nat} {f : Frame} (hhead : s.bayHead k typ = some f) (htakes : s.bayTakes k f)
    (argOk : Nat → Bool) (harg : argOk (cmdArg f) = true) (accepted : Bool) (hacc : accepted = true) (act : State → Frame → State) {R : Nat → Prop}
    {P : List Part} (hact : Keeps (s.take (15 + k)) (act (s.take (15 + k)) f) R [] P) (hbay : (act (s.take (15 + k)) f).bay k = s.bay k)
    (hlost : ∀ a, lostRegs a → R a) (hcfg : ¬ R (F.HLKR_RING_CFG_COUNT_CODE (3 + k)).addr) (hse : Part.se ∈ P) :
    Ends (s.bayCommand k typ argOk accepted act) fun t => ActedQuietly s (act (s.take (15 + k)) f) t k f R P := by
  let u := act (s.take (15 + k)) f
  have hsame : (u.bayAnswer k f 0).bay k = s.bay k := by
    rw [State.bay, State.bayAnswer_get _ _ _ _ _ (by simp only [F.BAYK_STATE_CODE]; omega)]
    exact hbay
  have hexec : s.bayCommand k typ argOk accepted act = done ((u.bayAnswer k f 0).sesLow k) := by
    rw [State.bayCommand_accepted hhead htakes harg hacc act, State.sesBay_eq, if_pos hsame]
  have htaken : Keeps s u R [15 + k] P := ((Keeps.refl s _ _ _).take (15 + k) (by simp)).trans (hact.mono (fun _ ha => ha) (by simp) fun _ hp => hp)
  have hlow := (u.bayAnswer k f 0).sesLow_keeps k
  have hring (e : Nat) : (((u.bayAnswer k f 0).sesLow k).settle.ring e) = (u.bayAnswer k f 0).ring e := hlow.rings e (by simp)
  refine ⟨_, hexec, ?_, ?_, fun g hg => ?_, fun j => ?_, ?_⟩
  · rw [hring, State.bayAnswer, State.emit_ring_other _ _ _ _ _ _ _ (by omega), hact.rings _ (by simp), State.take_ring_same]
  · intro hroom
    rw [hring]
    exact htaken.outletReply k f 0 (by simp) hcfg hroom
  · rw [State.settle_get, State.sesLow_get, State.bayAnswer_get _ _ _ _ _ hg]
  · rw [State.settle_outlet, ← u.bayAnswer_outlet k f 0 j]
    have houtlets : ((u.bayAnswer k f 0).sesLow k).outlets = (u.bayAnswer k f 0).outlets := hlow.parts .outlets (by simp)
    simp only [State.outlet, houtlets]
  · exact (((htaken.mono (fun _ ha => ha) (by simp +contextual) fun _ hp => hp).bayAnswer k f 0 (by simp) hlost).trans
      (hlow.mono (by simp) (by simp) (by simpa using hse))).settle

theorem exec_setLimit_acts (s : State) (k : Fin 12) (f : Frame) (hhead : s.bayHead k 3 = some f) (htakes : s.bayTakes k f)
    (harg : cmdArg f ≤ 100000 ∨ cmdArg f = 0xFFFFF) :
    Ends (exec (.setLimit k) s) fun t =>
      t.get (F.BAYK_HOST_LIMIT_MA k) = cmdArg f ∧ (t.ring (15 + k)).frames = (s.ring (15 + k)).frames.tail ∧ outletReply s t k f 0
      ∧ Keeps s t (fun a => a = (F.BAYK_HOST_LIMIT_MA k).addr ∨ lostRegs a) [3 + k.val, 15 + k.val] [.se] := by
  rw [exec_setLimit s k htakes.1]
  obtain ⟨t, ht, hacted⟩ := State.bayCommand_quiet (P := [.se]) k.isLt hhead htakes (fun a => decide (a ≤ 100000) || a == 0xFFFFF)
    (by simpa using harg) true rfl (fun s f => s.put (F.BAYK_HOST_LIMIT_MA k) (cmdArg f)) (R := fun a => a = (F.BAYK_HOST_LIMIT_MA k).addr ∨ lostRegs a)
    ((Keeps.refl _ _ _ _).put _ _ (.inl rfl)) (State.put_get_other _ _ _ _ (by simp only [F.BAYK_STATE_CODE, F.BAYK_HOST_LIMIT_MA]; omega))
    (fun _ ha => .inr ha) (by simp only [F.HLKR_RING_CFG_COUNT_CODE, F.BAYK_HOST_LIMIT_MA]; omega) (by simp)
  refine ⟨t, ht, ?_, hacted.taken, hacted.reply, hacted.keeps⟩
  rw [hacted.get _ (by simp only [F.BAYK_HOST_LIMIT_MA]; omega), State.put_get_same _ _ _ (by simp [F.BAYK_HOST_LIMIT_MA])]
  exact Nat.mod_eq_of_lt (by simp only [F.BAYK_HOST_LIMIT_MA]; omega)

/-- A command that changes only what the outlet keeps beside its registers. -/
theorem State.bayCommand_outlet {s : State} {k : Nat} (hk : k < 12) {typ : Nat} {f : Frame} (hhead : s.bayHead k typ = some f) (htakes : s.bayTakes k f)
    {argOk : Nat → Bool} (harg : argOk (cmdArg f) = true) {accepted : Bool} (hacc : accepted = true) {act : State → Frame → State} {x : Outlet}
    (hact : act (s.take (15 + k)) f = (s.take (15 + k)).setOutlet k x) :
    Ends (s.bayCommand k typ argOk accepted act) fun t =>
      t.outlet k = x ∧ (t.ring (15 + k)).frames = (s.ring (15 + k)).frames.tail ∧ outletReply s t k f 0
      ∧ Keeps s t lostRegs [3 + k, 15 + k] [.outlets, .se] := by
  obtain ⟨t, ht, hacted⟩ := State.bayCommand_quiet (P := [.outlets, .se]) (R := lostRegs) hk hhead htakes argOk harg accepted hacc act
    (by rw [hact]; exact (Keeps.refl _ _ _ _).setOutlet _ _ (by simp)) (by rw [hact]; rfl) (fun _ ha => ha)
    (by simp only [F.HLKR_RING_CFG_COUNT_CODE]; omega) (by simp)
  exact ⟨t, ht, by rw [hacted.outlet, hact, State.setOutlet_outlet_same], hacted.taken, hacted.reply, hacted.keeps⟩

theorem exec_pilotPause_acts (s : State) (k : Fin 12) (f : Frame) (hhead : s.bayHead k 4 = some f) (htakes : s.bayTakes k f) (hlo : 1 ≤ cmdArg f)
    (hhi : cmdArg f ≤ 10000) (hbay : s.bay k = stOffering ∨ s.bay k = stClosing ∨ s.bay k = stCharging) :
    Ends (exec (.pilotPause k) s) fun t =>
      t.outlet k = { s.outlet k with pauseNext := cmdArg f } ∧ (t.ring (15 + k)).frames = (s.ring (15 + k)).frames.tail ∧ outletReply s t k f 0
      ∧ Keeps s t lostRegs [3 + k.val, 15 + k.val] [.outlets, .se] := by
  rw [exec_pilotPause s k htakes.1]
  exact State.bayCommand_outlet k.isLt hhead htakes (by simp [hlo, hhi]) (by rcases hbay with h | h | h <;> rw [h] <;> decide) rfl

theorem exec_allowClose_acts (s : State) (k : Fin 12) (f : Frame) (hhead : s.bayHead k 5 = some f) (htakes : s.bayTakes k f) (harg : cmdArg f = 0)
    (hbay : s.bay k = stOffering) (hgate : s.on (F.BAYK_CFG_DIG_GATE k) = true) :
    Ends (exec (.allowClose k) s) fun t =>
      t.outlet k = { s.outlet k with allowClose := true } ∧ (t.ring (15 + k)).frames = (s.ring (15 + k)).frames.tail ∧ outletReply s t k f 0
      ∧ Keeps s t lostRegs [3 + k.val, 15 + k.val] [.outlets, .se] := by
  rw [exec_allowClose s k htakes.1]
  exact State.bayCommand_outlet k.isLt hhead htakes (by simp [harg]) (by simp [hbay, hgate]) rfl

theorem exec_lock_acts (s : State) (k : Fin 12) (f : Frame) (hhead : s.bayHead k 6 = some f) (htakes : s.bayTakes k f) (harg : cmdArg f = 0)
    (hbay : s.bay k = stIdle ∨ s.bay k = stConnected) (hlock : s.on (F.BAYK_CFG_LOCK_EN k) = true) :
    Ends (exec (.lock k) s) fun t =>
      t.outlet k = { s.outlet k with lockDir := 1, lockTry := 1, lockWait := false, lckA := true, lckB := false }
      ∧ (t.ring (15 + k)).frames = (s.ring (15 + k)).frames.tail ∧ outletReply s t k f 0 ∧ Keeps s t lostRegs [3 + k.val, 15 + k.val] [.outlets, .se] := by
  rw [exec_lock s k htakes.1]
  exact State.bayCommand_outlet k.isLt hhead htakes (by simp [harg]) (by simpa [hlock] using hbay) rfl

theorem exec_unlock_acts (s : State) (k : Fin 12) (f : Frame) (hhead : s.bayHead k 7 = some f) (htakes : s.bayTakes k f) (harg : cmdArg f = 0)
    (hunlock : s.unlockOk k = true) :
    Ends (exec (.unlock k) s) fun t =>
      t.outlet k = { s.outlet k with lockDir := 2, lockTry := 1, lockWait := false, lckA := false, lckB := true }
      ∧ (t.ring (15 + k)).frames = (s.ring (15 + k)).frames.tail ∧ outletReply s t k f 0 ∧ Keeps s t lostRegs [3 + k.val, 15 + k.val] [.outlets, .se] := by
  rw [exec_unlock s k htakes.1]
  exact State.bayCommand_outlet k.isLt hhead htakes (by simp [harg]) hunlock rfl

-- AUTHORISE (R289, R344)

theorem State.saveEntry_get (s : State) (k : Nat) (f : Fld) : (s.saveEntry k).get f = s.get f := by
  unfold State.saveEntry
  extract_lets
  split <;> rfl

theorem State.setSes_ses (s : State) (k st : Nat) : (s.setSes k st).ses k = st % 8 := by
  rw [State.setSes, State.ses, State.saveEntry_get, State.put_get_other _ _ _ _ (by simp only [F.SES_OUT_STAT_STATE, A.SES_ACTIVE_MASK]; omega)]
  exact State.put_get_same _ _ _ (by simp [F.SES_OUT_STAT_STATE])

theorem State.sesBegin_ses (s : State) (k : Nat) : (s.sesBegin k).ses k = sesStarting := State.setSes_ses _ _ _

/-- The bounds of SES's own page. -/
theorem sesRoom_page {k : Nat} (hk : k < 12) : SesRoom k (inPage 0x19) [.se] := { lt := hk, page := fun _ ha => ha, se := by simp }

theorem State.latch_keeps (s : State) {k : Nat} (hk : k < 12) (key context : List Byte) (limit source plan group fe : Nat) :
    Keeps s (s.latch k key context limit source plan group fe) (inPage 0x19) [] [.se] := by
  have hset : Keeps s (s.setSession k { s.session k with key := key, context := context, limit := limit, source := source, group := group % 65536 })
      (inPage 0x19) [] [.se] := ((Confined.refl k s _ _ _).setSession _ (by simp)).keeps
  exact ((((hset.put (F.SES_OUT_STAT_PLAN k) _ (by simp only [F.SES_OUT_STAT_PLAN]; omega)).put (F.SES_OUT_STAT_PRIO k) _
    (by simp only [F.SES_OUT_STAT_PRIO]; omega)).put (F.SES_OUT_STAT_NOBILL k) _ (by simp only [F.SES_OUT_STAT_NOBILL]; omega)).put
    (F.SES_OUT_KEY_HI k) _ (by simp only [F.SES_OUT_KEY_HI]; omega)).put (F.SES_OUT_KEY_LO k) _ (by simp only [F.SES_OUT_KEY_LO]; omega)

/-- A host authorisation starts a session, where none is open. -/
theorem State.sesHostAuth_keeps (s : State) {k : Nat} (hk : k < 12) : Keeps s (s.sesHostAuth k) (inPage 0x19) [] [.se] :=
  Keeps.ite ((s.latch_keeps hk _ _ _ _ _ _ _).trans ((Confined.refl k _ _ _ _).sesBegin (sesRoom_page hk)).keeps) (Keeps.refl s _ _ _)

theorem exec_authorise_acts (s : State) (k : Fin 12) (f : Frame) (hhead : s.bayHead k 1 = some f) (htakes : s.bayTakes k f) (harg : cmdArg f = 0)
    (hsrc : s.on (F.BAYK_CFG_AUTH_SRC k) = true) (hbay : s.bay k = stConnected ∨ s.bay k = stOffering) :
    Ends (exec (.authorise k) s) fun t =>
      t.on (F.BAYK_STATE_AUTHORISED k) = true ∧ t.bay k = s.bay k ∧ (t.ring (15 + k)).frames = (s.ring (15 + k)).frames.tail ∧ outletReply s t k f 0
      ∧ (s.ses k = sesIdle → s.enabled 0x19 = true → t.ses k = sesStarting)
      ∧ Keeps s t (onPages [0x19, 0x30 + k.val]) [3 + k.val, 15 + k.val] [.outlets, .se] := by
  let v := (s.take (15 + k)).authorise k
  have hauth : v.on (F.BAYK_STATE_AUTHORISED k) = true := State.put_on_bool _ _ true rfl (by simp [F.BAYK_STATE_AUTHORISED])
  have hses := v.sesHostAuth_keeps k.isLt
  have hcode : v.bay k = s.bay k := State.put_get_apart (s.take (15 + k)) (F.BAYK_STATE_AUTHORISED k) (F.BAYK_STATE_CODE k) 1
    (by simp [F.BAYK_STATE_AUTHORISED]) (.inr (.inr (by simp [F.BAYK_STATE_AUTHORISED, F.BAYK_STATE_CODE])))
  have hsame : (v.sesHostAuth k).bay k = s.bay k := (hses.get _ (by simp only [F.BAYK_STATE_CODE]; omega)).trans hcode
  have hready : (s.on (F.BAYK_CFG_AUTH_SRC k) && s.bayReady k) = true := by
    rcases hbay with h | h <;> simp [hsrc, State.bayReady, h]
  have hown : ∀ a, a / 4096 = 0x30 + k.val → onPages [0x19, 0x30 + k.val] a := fun a ha => .inl (by simp [ha])
  have hact : Keeps (s.take (15 + k)) (v.sesHostAuth k) (onPages [0x19, 0x30 + k.val]) [] [.outlets, .se] :=
    ((Keeps.refl _ _ _ _).put (F.BAYK_STATE_AUTHORISED k) 1 (hown _ (by simp only [F.BAYK_STATE_AUTHORISED]; omega))).trans
      (hses.mono (fun a ha => .inl (by simp [ha])) (by simp) (by simp))
  rw [exec_authorise s k htakes.1]
  obtain ⟨t, ht, hacted⟩ := State.bayCommand_quiet k.isLt hhead htakes (· == 0) (by simp [harg]) _ hready
    (fun s _ => (s.authorise k).sesHostAuth k) hact hsame (fun _ ha => .inr ha)
    (by simp only [onPages, F.HLKR_RING_CFG_COUNT_CODE, List.mem_cons, List.not_mem_nil, or_false]; omega) (by simp)
  refine ⟨t, ht, ?_, ?_, hacted.taken, hacted.reply, fun hidle hen => ?_, hacted.keeps⟩
  · rw [State.on, hacted.get _ (by simp only [F.BAYK_STATE_AUTHORISED]; omega), hses.get _ (by simp only [F.BAYK_STATE_AUTHORISED]; omega)]
    exact hauth
  · rw [State.bay, hacted.get _ (by simp only [F.BAYK_STATE_CODE]; omega)]
    exact hsame
  · have hstarts : v.sesHostAuth k = (v.latch k (List.replicate 8 0) (List.replicate 8 0) 0 0 (v.get F.SES_CFG_DEFAULT_PLAN) 0 0).sesBegin k := by
      have hpage (g : Fld) (hg : g.addr ≠ 0x30120 + 4096 * k.val) : v.get g = s.get g := State.put_get_other (s.take (15 + k)) _ g 1 hg
      refine if_pos ⟨?_, ?_, htakes.2.2.2.2⟩
      · rw [State.ses, hpage _ (by simp only [F.SES_OUT_STAT_STATE]; omega)]; exact hidle
      · rw [State.enabled, State.on, hpage _ (by simp only [hdrEnable]; omega)]; exact hen
    rw [State.ses, hacted.get _ (by simp only [F.SES_OUT_STAT_STATE]; omega), hstarts]
    exact State.sesBegin_ses _ _

-- DIGITAL (R279)

theorem exec_digital_acts (s : State) (k : Fin 12) (f : Frame) (hhead : s.bayHead k 9 = some f) (htakes : s.bayTakes k f) (harg : cmdArg f ≤ 1)
    (hbay : s.bay k ≠ stService) :
    Ends (exec (.digital k) s) fun t =>
      t.get (F.BAYK_CFG_DIGITAL k) = cmdArg f ∧ (t.ring (15 + k)).frames = (s.ring (15 + k)).frames.tail ∧ outletReply s t k f 0
      ∧ ((s.bay k = stOffering ∨ s.bay k = stClosing ∨ s.bay k = stCharging) → ∃ d, (t.outlet k).nextPilot = some (2, d) ∧ (cmdArg f = 1 → d = 500))
      ∧ Keeps s t (fun a => a = (F.BAYK_CFG_DIGITAL k).addr ∨ lostRegs a) [3 + k.val, 15 + k.val] [.outlets, .se] := by
  let v := (s.take (15 + k)).put (F.BAYK_CFG_DIGITAL k) (cmdArg f)
  have hdig : v.get (F.BAYK_CFG_DIGITAL k) = cmdArg f := by
    rw [State.put_get_same _ _ _ (by simp [F.BAYK_CFG_DIGITAL])]
    exact Nat.mod_eq_of_lt (by simp only [F.BAYK_CFG_DIGITAL]; omega)
  have hcode : v.bay k = s.bay k := State.put_get_other (s.take (15 + k)) (F.BAYK_CFG_DIGITAL k) (F.BAYK_STATE_CODE k) _
    (by simp only [F.BAYK_STATE_CODE, F.BAYK_CFG_DIGITAL]; omega)
  have hput : Keeps (s.take (15 + k)) v (fun a => a = (F.BAYK_CFG_DIGITAL k).addr ∨ lostRegs a) [] [.outlets, .se] :=
    (Keeps.refl _ _ _ _).put _ _ (.inl rfl)
  have hset : (s.take (15 + k)).digitalSet k (cmdArg f) = v.setPilot k (v.pilotPwm k) ∨ (s.take (15 + k)).digitalSet k (cmdArg f) = v
      ∧ ¬ (s.bay k = stOffering ∨ s.bay k = stClosing ∨ s.bay k = stCharging) := by
    by_cases hin : [stOffering, stClosing, stCharging].contains (v.bay k) = true
    · exact .inl (if_pos hin)
    · exact .inr ⟨if_neg hin, by rw [hcode] at hin; simpa using hin⟩
  have hget (g : Fld) : ((s.take (15 + k)).digitalSet k (cmdArg f)).get g = v.get g := by
    rcases hset with h | ⟨h, -⟩
    · rw [h]; rfl
    · rw [h]
  have hact : Keeps (s.take (15 + k)) ((s.take (15 + k)).digitalSet k (cmdArg f)) (fun a => a = (F.BAYK_CFG_DIGITAL k).addr ∨ lostRegs a) []
      [.outlets, .se] := Keeps.ite (hput.setOutlet _ _ (by simp)) hput
  rw [exec_digital s k htakes.1]
  obtain ⟨t, ht, hacted⟩ := State.bayCommand_quiet k.isLt hhead htakes (fun a => decide (a ≤ 1)) (by simpa using harg) (s.bay k != stService) (by simpa using hbay)
    (fun s f => s.digitalSet k (cmdArg f)) hact ((hget _).trans hcode) (fun _ ha => .inr ha)
    (by simp only [F.HLKR_RING_CFG_COUNT_CODE, F.BAYK_CFG_DIGITAL]; omega) (by simp)
  refine ⟨t, ht, ?_, hacted.taken, hacted.reply, fun hin => ?_, hacted.keeps⟩
  · rw [hacted.get _ (by simp only [F.BAYK_CFG_DIGITAL]; omega), hget, hdig]
  · have hpilot := hset.resolve_right fun h => h.2 hin
    refine ⟨(v.pilotPwm k).2, ?_, fun hone => ?_⟩
    · rw [hacted.outlet, hpilot, State.setPilot, State.setOutlet_outlet_same]
      rfl
    · exact if_pos (by rw [State.on, hdig, hone]; decide)

-- A command that may move the outlet's state (R306)

/-- Such a command acts, is answered, and SES follows its outlet. -/
structure ActedMoving (s u t : State) (k : Nat) (R : Nat → Prop) (E : List Nat) (P : List Part) : Prop where
  taken : (t.ring (15 + k)).frames = (s.ring (15 + k)).frames.tail
  follow : Followed k u t [.se]
  unauthorised : u.on (F.BAYK_STATE_AUTHORISED k) = false → u.bay k ≠ stConnected ∨ u.ses k = sesIdle ∨ u.bay k = s.bay k →
    t.on (F.BAYK_STATE_AUTHORISED k) = false
  keeps : Keeps s t R E P

theorem Confined.take (k : Nat) (s : State) (e : Nat) (R : Nat → Prop) (E : List Nat) (P : List Part) (he : e ∈ E) : Confined k s (s.take e) R E P :=
  (Confined.refl k s R E P).step ((Keeps.refl s R E P).take e he) rfl

theorem State.bayCommand_moving {s : State} {k : Nat} (hk : k < 12) {typ : Nat} {f : Frame} (hhead : s.bayHead k typ = some f) (htakes : s.bayTakes k f)
    (argOk : Nat → Bool) (harg : argOk (cmdArg f) = true) (accepted : Bool) (hacc : accepted = true) (act : State → Frame → State) {l E E' : List Nat}
    {P : List Part} (hact : Confined k (s.take (15 + k)) (act (s.take (15 + k)) f) (onPages l) E P) (h19 : 0x19 ∈ l) (hown : 0x30 + k ∈ l)
    (he : 15 + k ∉ E) (hE : ∀ e ∈ E, e ∈ E') (h3 : 3 + k ∈ E') (h15 : 15 + k ∈ E') (ho : Part.outlets ∈ P) (hse : Part.se ∈ P) :
    Ends (s.bayCommand k typ argOk accepted act) fun t => ActedMoving s (act (s.take (15 + k)) f) t k (onPages l) E' P := by
  let u := act (s.take (15 + k)) f
  have hanswer : Followed k u (u.bayAnswer k f 0) [.se] :=
    ⟨(Keeps.refl u _ _ _).bayAnswer k f 0 (by simp) fun _ ha => .inr (.inr ha),
      fun g hg _ => u.bayAnswer_get k f 0 g (by rw [hg]; simp only [F.BAYK_STATE_AUTHORISED]; omega)⟩
  have hses := (u.bayAnswer k f 0).sesBay_followed hk (s.bay k)
  have hroom : OwnRoom k (onPages l) E' P :=
    { own := fun _ ha => .inl (ha ▸ hown), lost := fun _ ha => .inr ha, ring := h3, outlets := ho }
  have hwhole : Confined k s u (onPages l) E' P :=
    (Confined.take k s (15 + k) _ _ _ h15).trans ⟨hact.keeps.mono (fun _ ha => ha) hE fun _ hp => hp, hact.others⟩
  refine ⟨_, State.bayCommand_accepted hhead htakes harg hacc act, ?_, (hanswer.trans hses).settle, fun hoff hor => ?_, ?_⟩
  · rw [State.settle_ring, (hanswer.trans hses).keeps.rings _ (by simp), hact.keeps.rings _ he, State.take_ring_same]
  · have hoff' : (u.bayAnswer k f 0).on (F.BAYK_STATE_AUTHORISED k) = false := by
      rw [State.on, u.bayAnswer_get _ _ _ _ (by simp only [F.BAYK_STATE_AUTHORISED]; omega)]
      exact hoff
    rw [State.settle_on]
    rcases hor with hconn | hidle | hsame
    · exact State.sesBay_unauthorised _ hk _ hoff' (.inl (by rw [hanswer.bay]; exact hconn))
    · refine State.sesBay_unauthorised _ hk _ hoff' (.inr ?_)
      rw [State.ses, u.bayAnswer_get _ _ _ _ (by simp only [F.SES_OUT_STAT_STATE]; omega)]
      exact hidle
    · rw [State.sesBay_eq, if_pos (hanswer.bay.trans hsame), State.sesLow_on, hoff']
  · exact (hwhole.follow (hanswer.trans hses) hroom (SesRoom.onPages hk h19 hse) (by simpa using hse) (by simp)).keeps.settle

-- STOP (R289, R306)

/-- The state that STOP leads to. -/
def stopsIn (b : Nat) : Nat := if b = stOffering then stConnected else if b = stClosing then stOpening else if b = stCharging then stWithdrawing else b

theorem stopsIn_connected {b : Nat} (h : stopsIn b = stConnected) (hb : b ≠ stOffering) : b = stConnected := by
  rw [stopsIn, if_neg hb] at h
  split at h
  · exact absurd h (by decide)
  split at h
  · exact absurd h (by decide)
  · exact h

/-- What STOP does to an outlet. -/
structure Stopped (k : Nat) (s t : State) (cause : Nat) : Prop where
  unauthorised : t.on (F.BAYK_STATE_AUTHORISED k) = false
  code : t.bay k = stopsIn (s.bay k)
  opens : s.bay k = stClosing → (t.outlet k).conM = false ∧ (t.outlet k).conA = false
  withdraws : s.bay k = stCharging → t.get (F.BAYK_STATE_CAUSE k) = cause ∧ (t.outlet k).nextPilot = some pilotHigh

theorem State.askUnlock_get (s : State) (k : Nat) (f : Fld) : (s.askUnlock k).get f = s.get f := by
  unfold State.askUnlock
  split <;> rfl

theorem State.stopOutlet_stopped (s : State) {k : Nat} (hk : k < 12) (cause seq : Nat) (hc : cause < 256) : Stopped k s (s.stopOutlet k cause seq) cause := by
  let v := s.put (F.BAYK_STATE_AUTHORISED k) 0
  have hoff : v.on (F.BAYK_STATE_AUTHORISED k) = false := State.put_on_bool s _ false rfl (by simp [F.BAYK_STATE_AUTHORISED])
  have hbay : v.bay k = s.bay k :=
    State.put_get_apart s _ (F.BAYK_STATE_CODE k) _ (by simp [F.BAYK_STATE_AUTHORISED]) (.inr (.inr (by simp [F.BAYK_STATE_CODE, F.BAYK_STATE_AUTHORISED])))
  by_cases hoffering : s.bay k = stOffering
  · have heq : s.stopOutlet k cause seq = ((v.setPilot k pilotHigh).askUnlock k).enter k stConnected cause seq := if_pos (hbay.trans hoffering)
    have henter := State.enter'_entered ((v.setPilot k pilotHigh).askUnlock k) hk stConnected cause 0 seq
    rw [heq]
    refine ⟨henter.unauthorised (.inl ?_), henter.code.trans (if_pos hoffering).symm, fun h => ?_, fun h => ?_⟩
    · rw [State.on, State.askUnlock_get]; exact hoff
    · exact absurd (hoffering.symm.trans h) (by decide)
    · exact absurd (hoffering.symm.trans h) (by decide)
  by_cases hclosing : s.bay k = stClosing
  · have heq : s.stopOutlet k cause seq = v.openNow k cause (v.openTarget k false false) seq :=
      (if_neg (by rwa [hbay])).trans (if_pos (hbay.trans hclosing))
    have henter := v.openNow_entered hk cause (v.openTarget k false false) seq
    rw [heq]
    refine ⟨henter.unauthorised (.inl hoff), henter.code.trans ?_, fun _ => v.openNow_outlet _ _ _ _, fun h => ?_⟩
    · rw [stopsIn, if_neg hoffering, if_pos hclosing]; rfl
    · exact absurd (hclosing.symm.trans h) (by decide)
  by_cases hcharging : s.bay k = stCharging
  · have heq : s.stopOutlet k cause seq = v.withdraw k cause seq false false :=
      (if_neg (by rwa [hbay])).trans ((if_neg (by rwa [hbay])).trans (if_pos (hbay.trans hcharging)))
    have henter := v.withdraw_entered hk cause seq false false
    rw [heq]
    refine ⟨henter.unauthorised (.inl hoff), henter.code.trans ?_, fun h => absurd h hclosing, fun _ => ⟨?_, (v.withdraw_outlet _ _ _ _ _).2⟩⟩
    · rw [stopsIn, if_neg hoffering, if_neg hclosing, if_pos hcharging]; rfl
    · rw [henter.cause, Nat.mod_eq_of_lt hc]
  have hstays : s.stopOutlet k cause seq = v ∨ s.stopOutlet k cause seq = v.setOutlet k { v.outlet k with byAllow := false } := by
    by_cases hwithdrawing : v.bay k = stWithdrawing
    · exact .inr ((if_neg (by rwa [hbay])).trans ((if_neg (by rwa [hbay])).trans ((if_neg (by rwa [hbay])).trans (if_pos hwithdrawing))))
    · exact .inl ((if_neg (by rwa [hbay])).trans ((if_neg (by rwa [hbay])).trans ((if_neg (by rwa [hbay])).trans (if_neg hwithdrawing))))
  have hget (g : Fld) : (s.stopOutlet k cause seq).get g = v.get g := by
    rcases hstays with h | h
    · rw [h]
    · rw [h]; rfl
  refine ⟨(congrArg (· != 0) (hget _)).trans hoff, ?_, fun h => absurd h hclosing, fun h => absurd h hcharging⟩
  rw [stopsIn, if_neg hoffering, if_neg hclosing, if_neg hcharging, State.bay, hget]
  exact hbay

theorem exec_stop_acts (s : State) (k : Fin 12) (f : Frame) (hhead : s.bayHead k 2 = some f) (htakes : s.bayTakes k f) (harg : cmdArg f = 0) :
    Ends (exec (.stop k) s) fun t =>
      (s.bay k ≠ stOffering ∨ s.ses k = sesIdle → t.on (F.BAYK_STATE_AUTHORISED k) = false)
      ∧ (t.ring (15 + k)).frames = (s.ring (15 + k)).frames.tail
      ∧ t.bay k = (if s.bay k = stOffering then stConnected else if s.bay k = stClosing then stOpening
          else if s.bay k = stCharging then stWithdrawing else s.bay k)
      ∧ (s.bay k = stClosing → (t.outlet k).conM = false ∧ (t.outlet k).conA = false)
      ∧ (s.bay k = stCharging → t.get (F.BAYK_STATE_CAUSE k) = cHost ∧ (t.outlet k).nextPilot = some pilotHigh)
      ∧ Keeps s t (onPages [0x16, 0x17, 0x19, 0x30 + k.val]) [3 + k.val, 15 + k.val] [.outlets, .rcm, .se] := by
  have hstop := (s.take (15 + k)).stopOutlet_stopped k.isLt cHost f.seq (by decide)
  have hroom (l : List Nat) (h16 : 0x16 ∈ l) (hown : 0x30 + k.val ∈ l) : BayRoom k.val (onPages l) [3 + k.val] [.outlets, .rcm, .se] :=
    BayRoom.onPages k.isLt h16 hown (by simp) (by simp)
  have hact (l : List Nat) (h16 : 0x16 ∈ l) (hown : 0x30 + k.val ∈ l) :
      Confined k.val (s.take (15 + k)) ((s.take (15 + k)).stopOutlet k cHost f.seq) (onPages l) [3 + k.val] [.outlets, .rcm, .se] :=
    (Confined.refl _ _ _ _ _).stopOutlet (hroom l h16 hown) cHost f.seq (by simp)
  rw [exec_stop s k htakes.1]
  obtain ⟨t, ht, hmoved⟩ := State.bayCommand_moving k.isLt hhead htakes (· == 0) (by simp [harg]) true rfl (fun s f => s.stopOutlet k cHost f.seq)
    (E' := [3 + k.val, 15 + k.val]) (hact [0x16, 0x17, 0x19, 0x30 + k.val] (by simp) (by simp)) (by simp) (by simp) (by simp) (by simp) (by simp)
    (by simp) (by simp) (by simp)
  refine ⟨t, ht, fun hor => hmoved.unauthorised hstop.unauthorised ?_, hmoved.taken, ?_, fun hb => ?_, fun hb => ?_, hmoved.keeps⟩
  · have hidle : ((s.take (15 + k)).stopOutlet k cHost f.seq).ses k = s.ses k :=
      (hact [0x16, 0x30 + k.val] (by simp) (by simp)).keeps.get _ (by
        simp only [onPages, List.mem_cons, List.not_mem_nil, or_false, F.SES_OUT_STAT_STATE]; omega)
    by_cases hoffering : s.bay k = stOffering
    · exact .inr (.inl (hidle.trans (hor.resolve_left fun h => h hoffering)))
    · refine (em (stopsIn (s.bay k) = stConnected)).elim (fun hconn => ?_) fun hne => .inl fun h => hne (hstop.code.symm.trans h)
      exact .inr (.inr (hstop.code.trans (hconn.trans (stopsIn_connected hconn hoffering).symm)))
  · rw [hmoved.follow.bay]; exact hstop.code
  · rw [hmoved.follow.own]; exact hstop.opens hb
  · rw [hmoved.follow.cause, hmoved.follow.own]; exact hstop.withdraws hb

-- RESET_FAULT (R299, R307, R327)

theorem State.rcmEvent_get (s : State) (k typ b0 row : Nat) (level : Option Nat) (f : Fld) (hf : ¬ lostRegs f.addr) :
    (s.rcmEvent k typ b0 row level).get f = s.get f :=
  ((Keeps.refl s lostRegs [3 + k] [.fresh]).rcmEvent k typ b0 row level (by simp) (by simp) fun _ ha => ha).get f hf

/-- The trip latches stand when readiness is shown. -/
theorem State.showReady_latch (s : State) (k j : Nat) : (s.showReady k).latched j = s.latched j := by
  have hput : (((s.put (bitFld A.RCM_READY k) (s.rcmFit k && !s.latched k).toNat).put (bitFld A.RCM_READY (16 + k)) (s.rcmFit k && (s.rc k).postOk).toNat).put
      (F.RCM_STAT_ST_DUE k) (!s.testFresh k).toNat).get (bitFld A.RCM_LATCH j) = s.get (bitFld A.RCM_LATCH j) := by
    rw [State.put_get_other _ _ _ _ (by simp only [bitFld, A.RCM_LATCH, F.RCM_STAT_ST_DUE]; omega), State.put_get_other _ _ _ _ (by simp [bitFld, A.RCM_LATCH, A.RCM_READY]),
      State.put_get_other _ _ _ _ (by simp [bitFld, A.RCM_LATCH, A.RCM_READY])]
  unfold State.showReady
  extract_lets fit ok was u
  rw [State.latched, State.latched, State.on, State.on]
  split
  · exact congrArg (· != 0) hput
  · rw [State.rcmEvent_get _ _ _ _ _ _ _ (by simp [bitFld, A.RCM_LATCH]),
      State.irq_get_block _ _ _ _ (by simp [bitFld, A.RCM_LATCH]) (by decide)]
    exact congrArg (· != 0) hput

theorem State.rcmRelease_keeps (s : State) {k : Nat} (hk : k < 12) :
    Keeps s (s.rcmRelease k) (onPages [0x16, 0x17]) [2, 3 + k] [.rcm, .fresh] := by
  have hcleared := ((Keeps.refl s (onPages [0x16, 0x17]) [2, 3 + k] [.rcm, .fresh]).put (bitFld A.RCM_LATCH k) 0 (.inl (by simp [bitFld, A.RCM_LATCH]))).setRc k
    { (s.put (bitFld A.RCM_LATCH k) 0).rc k with cnt := List.replicate 8 0, postOk := false, postDue := false, calm := 0 } (by simp)
  exact ((hcleared.rcmEvent k 0x54 0 0xFF none (by simp) (by simp) fun _ ha => .inr ha).showHolds (by simp)
    fun a ha => ha.imp_left (by simp +contextual)).showReady hk (by simp) (by simp) fun a ha => ha.imp_left (by simp +contextual)

theorem State.rcmRelease_latch (s : State) (k : Nat) (hk : k < 12) : (s.rcmRelease k).latched k = false := by
  rw [State.rcmRelease, State.showReady_latch, State.latched, State.on, (State.showHolds_keeps _).get _ (by simp [bitFld, A.RCM_LATCH]),
    State.rcmEvent_get _ _ _ _ _ _ _ (by simp [bitFld, A.RCM_LATCH])]
  exact State.put_on_bool s _ false rfl (by simp only [bitFld]; omega)

/-- What a reset leaves of the outlet before it enters IDLE. -/
structure FaultReset (k : Nat) (s t : State) : Prop where
  confined : Confined k s t (onPages [0x16, 0x17, 0x30 + k]) [2, 3 + k] [.outlets, .rcm, .fresh]
  unlatched : t.on (F.BAYK_STATE_LATCHED k) = false
  retries : t.get (F.BAYK_VIOL_RETRIES k) = 0
  released : (t.outlet k).alarmHold = false
  latch : s.bay k = stTripped → t.latched k = false

theorem State.clearFault_get (s : State) (k : Nat) (f : Fld) :
    (s.clearFault k).get f = ((s.put (F.BAYK_VIOL_RETRIES k) 0).put (F.BAYK_STATE_LATCHED k) 0).get f := by
  rw [State.clearFault, State.setOutlet_get]

theorem State.clearFault_confined (s : State) (k : Nat) :
    Confined k s (s.clearFault k) (onPages [0x16, 0x17, 0x30 + k]) [2, 3 + k] [.outlets, .rcm, .fresh] := by
  have hown : ∀ a, a / 4096 = 0x30 + k → onPages [0x16, 0x17, 0x30 + k] a := fun a ha => .inl (by simp [ha])
  exact (((Confined.refl k s _ _ _).put (F.BAYK_VIOL_RETRIES k) 0 (hown _ (by simp only [F.BAYK_VIOL_RETRIES]; omega))).put
    (F.BAYK_STATE_LATCHED k) 0 (hown _ (by simp only [F.BAYK_STATE_LATCHED]; omega))).setOutlet _ (by simp)

theorem State.clearFault_reset (s : State) {k : Nat} (hlatch : s.bay k = stTripped → s.latched k = false) : FaultReset k s (s.clearFault k) := by
  refine { confined := s.clearFault_confined k, unlatched := ?_, retries := ?_, released := ?_, latch := fun htripped => ?_ }
  · rw [State.on, State.clearFault_get]
    exact State.put_on_bool (s.put (F.BAYK_VIOL_RETRIES k) 0) _ false rfl (by simp [F.BAYK_STATE_LATCHED])
  · rw [State.clearFault_get, State.put_get_other _ _ _ _ (by simp only [F.BAYK_VIOL_RETRIES, F.BAYK_STATE_LATCHED]; omega),
      State.put_get_same _ _ _ (by simp [F.BAYK_VIOL_RETRIES]), Nat.zero_mod]
  · rw [State.clearFault, State.setOutlet_outlet_same]
  · rw [State.latched, State.on, State.clearFault_get, State.put_get_other _ _ _ _ (by simp only [bitFld, A.RCM_LATCH, F.BAYK_STATE_LATCHED]; omega),
      State.put_get_other _ _ _ _ (by simp only [bitFld, A.RCM_LATCH, F.BAYK_VIOL_RETRIES]; omega)]
    exact hlatch htripped

/-- The holds shown change neither the outlet nor its latches. -/
theorem FaultReset.shown {k : Nat} {s t : State} (h : FaultReset k s t) : FaultReset k s t.showHolds :=
  { confined := h.confined.step (h.confined.keeps.showHolds (by simp) fun a ha => ha.imp_left (by simp +contextual))
      ((t.showHolds_keeps.parts .outlets (by simp)).trans rfl)
    unlatched := by
      rw [t.showHolds_keeps.on _ (by simp only [onPages, List.mem_singleton, F.BAYK_STATE_LATCHED]; omega)]; exact h.unlatched
    retries := by rw [t.showHolds_keeps.get _ (by simp only [onPages, List.mem_singleton, F.BAYK_VIOL_RETRIES]; omega), h.retries]
    released := by rw [t.showHolds_outlet, h.released]
    latch := fun htripped => by
      rw [State.latched, t.showHolds_keeps.on _ (by simp [bitFld, A.RCM_LATCH])]; exact h.latch htripped }

theorem State.faultReset_reset (s : State) {k : Nat} (hk : k < 12) : FaultReset k s (s.faultReset k) := by
  rw [State.faultReset]
  refine FaultReset.shown ?_
  split
  · next htripped =>
    have hrelease := s.rcmRelease_keeps hk
    have hu := (s.rcmRelease k).clearFault_reset fun _ => s.rcmRelease_latch k hk
    have hbay : (s.rcmRelease k).bay k = s.bay k :=
      hrelease.get _ (by simp only [onPages, List.mem_cons, List.not_mem_nil, or_false, F.BAYK_STATE_CODE]; omega)
    have hconfined : Confined k s (s.rcmRelease k) (onPages [0x16, 0x17, 0x30 + k]) [2, 3 + k] [.outlets, .rcm, .fresh] :=
      (Confined.refl k s _ _ _).step (hrelease.mono (fun a ha => ha.imp_left fun h => by simp at h ⊢; tauto) (fun _ he => he) (by simp))
        (hrelease.parts .outlets (by simp))
    exact { hu with confined := hconfined.trans hu.confined, latch := fun h => hu.latch (hbay.trans h) }
  · next huntripped => exact s.clearFault_reset fun h => absurd h huntripped

theorem exec_resetFault_acts (s : State) (k : Fin 12) (f : Frame) (hhead : s.bayHead k 8 = some f) (htakes : s.bayTakes k f) (harg : cmdArg f = 0)
    (hreset : s.resetOk k = true) :
    Ends (exec (.resetFault k) s) fun t =>
      t.bay k = stIdle ∧ t.on (F.BAYK_STATE_LATCHED k) = false ∧ t.get (F.BAYK_VIOL_RETRIES k) = 0 ∧ (t.outlet k).alarmHold = false
      ∧ (s.bay k = stTripped → t.latched k = false) ∧ (t.outlet k).nextPilot = some pilotHigh ∧ (t.ring (15 + k)).frames = (s.ring (15 + k)).frames.tail
      ∧ Keeps s t (onPages [0x16, 0x17, 0x19, 0x30 + k.val]) [2, 3 + k.val, 15 + k.val] [.outlets, .rcm, .se, .fresh] := by
  have hpart := (s.take (15 + k)).faultReset_reset k.isLt
  let v := ((s.take (15 + k)).faultReset k).setPilot k pilotHigh
  have henter := v.enter'_entered k.isLt stIdle cHost 0 noSeq
  have hroom : BayRoom k.val (onPages [0x16, 0x17, 0x19, 0x30 + k.val]) [2, 3 + k.val] [.outlets, .rcm, .se, .fresh] :=
    BayRoom.onPages k.isLt (by simp) (by simp) (by simp) (by simp)
  have hv : Confined k.val (s.take (15 + k)) ((s.take (15 + k)).faultReset k) (onPages [0x16, 0x17, 0x19, 0x30 + k.val]) [2, 3 + k.val]
      [.outlets, .rcm, .se, .fresh] :=
    ⟨hpart.confined.keeps.mono (fun a ha => ha.imp_left fun h => by simp at h ⊢; tauto) (fun _ he => he) (by simp), hpart.confined.others⟩
  rw [exec_resetFault s k htakes.1]
  obtain ⟨t, ht, hmoved⟩ := State.bayCommand_moving k.isLt hhead htakes (· == 0) (by simp [harg]) _ hreset
    (fun s _ => ((s.faultReset k).setPilot k pilotHigh).enter k stIdle cHost noSeq) (E' := [2, 3 + k.val, 15 + k.val])
    ((hv.setPilot pilotHigh (by simp)).enter hroom stIdle cHost noSeq fun heq => absurd heq (by decide)) (by simp) (by simp) (by simp; omega)
    (by simp +contextual) (by simp) (by simp) (by simp) (by simp)
  have hout : t.outlet k = v.outlet k := (hmoved.follow.own k).trans (v.enter'_outlet _ _ _ _ _ _)
  have hpilot : v.outlet k = { ((s.take (15 + k)).faultReset k).outlet k with nextPilot := some pilotHigh } := State.setOutlet_outlet_same _ _ _
  refine ⟨t, ht, ?_, ?_, ?_, ?_, fun htripped => ?_, ?_, hmoved.taken, hmoved.keeps⟩
  · rw [hmoved.follow.bay]; exact henter.code
  · rw [hmoved.follow.latched, State.on]
    exact (congrArg (· != 0) (henter.flags (F.BAYK_STATE_LATCHED k) rfl (by simp [F.BAYK_STATE_LATCHED]))).trans hpart.unlatched
  · rw [hmoved.follow.get _ (by simp only [sesRegs, F.BAYK_VIOL_RETRIES, F.BAYK_STATE_AUTHORISED]; omega)]
    exact (henter.viol _ rfl (by simp [F.BAYK_VIOL_RETRIES])).trans hpart.retries
  · rw [hout, hpilot]; exact hpart.released
  · rw [State.latched, State.on, hmoved.follow.get _ (by simp only [sesRegs, bitFld, A.RCM_LATCH, F.BAYK_STATE_AUTHORISED]; omega)]
    exact (congrArg (· != 0) (henter.keeps.get _ (by
      simp only [enterRegs, bitFld, A.RCM_LATCH, F.BAYK_STATE_CODE, A.BAYK_VIOL]; omega))).trans (hpart.latch htripped)
  · rw [hout, hpilot]

-- BAY[k].CTRL.ENABLE (R289, R291, R292)

theorem exec_bayEnableWrite (s : State) (req : Req) (k : Fin 12) (en : Bool) (h : s.runs = true) :
    exec (.bayEnableWrite req k en) s
      = done (if (s.bayEnable k en).2 = none then (s.bayEnable k en).1.bumpSeq (bayPg k) else (s.bayEnable k en).1) := by
  rw [show exec (.bayEnableWrite req k en) s = execBayEnableWrite req k en s from rfl, execBayEnableWrite, State.onFabric_runs _ _ h]

theorem exec_bayEnableWrite_taken {s : State} {req : Req} {k : Fin 12} {en : Bool} {u : State} (h : s.runs = true) (hen : s.bayEnable k en = (u, none)) :
    exec (.bayEnableWrite req k en) s = done (u.bumpSeq (bayPg k)) := by
  rw [exec_bayEnableWrite s req k en h, hen]
  rfl

/-- A refused write is recorded on the outlet's page. -/
theorem State.ends_err (s : State) (k c : Nat) (hc : c < 65536) : Ends (done (s.err (bayPg k) c)) fun t =>
    t.get (hdrErrcode (0x30 + k)) = c ∧ Keeps s t (errRegs (0x30 + k)) [] [] :=
  ⟨_, rfl, (s.err_code (bayPg k) c).trans (Nat.mod_eq_of_lt hc), ((Keeps.refl s _ _ _).err (bayPg k) c (.inl rfl) (.inr rfl)).settle⟩

theorem exec_bayEnableWrite_refused (s : State) (req : Req) (k : Fin 12) (h : s.runs = true)
    (hbad : s.enabled 0x16 = false ∨ s.enabled 0x18 = false ∨ s.get (F.BAYK_RATED_MA k) = 0 ∨ s.boot.bench = true) :
    Ends (exec (.bayEnableWrite req k true) s) fun t => t.get (hdrErrcode (0x30 + k)) = 0x1E ∧ Keeps s t (errRegs (0x30 + k)) [] [] := by
  have hrefuse : s.bayEnable k true = (s.err (bayPg k) 0x1E, some 0x1E) :=
    if_pos (by rcases hbad with hbad | hbad | hbad | hbad <;> simp [hbad])
  rw [exec_bayEnableWrite s req k true h, hrefuse]
  exact s.ends_err k 0x1E (by decide)

theorem exec_bayEnableWrite_busy (s : State) (req : Req) (k : Fin 12) (h : s.runs = true)
    (hbay : s.bay k ∈ [stClosing, stCharging, stWithdrawing, stOpening, stService]) :
    Ends (exec (.bayEnableWrite req k false) s) fun t => t.get (hdrErrcode (0x30 + k)) = 0x1E ∧ Keeps s t (errRegs (0x30 + k)) [] [] := by
  have hrefuse : s.bayEnable k false = (s.err (bayPg k) 0x1E, some 0x1E) := if_pos (List.contains_iff_mem.mpr hbay)
  rw [exec_bayEnableWrite s req k false h, hrefuse]
  exact s.ends_err k 0x1E (by decide)

/-- Entering a state leaves every register beside STATE, VIOL, its copy, SEQ and its event's. -/
theorem State.enter'_get (s : State) (k new cause target seq : Nat) (f : Fld) (hevent : ¬ eventRegs (0x30 + k) 0 f.addr)
    (hseq : f.addr ≠ (0x30 + k) * 4096 + 0x024) (hcopy : f.addr ≠ A.BAY_STATE (k / 4)) (hstate : f.addr ≠ (F.BAYK_STATE_CODE k).addr)
    (hviol : f.addr ≠ A.BAYK_VIOL k) : (s.enter' k new cause target seq).1.get f = s.get f := by
  have hkeeps (u : State) (old detail period value : Nat) :
      Keeps u (u.bayEventAt k 0x40 old new cause detail period value seq).1 (eventRegs (0x30 + k) 0) [3 + k] [] :=
    (Keeps.refl u _ _ _).bayEventAt k 0x40 old new cause detail period value seq (by simp) (fun _ ha => .inr ha) fun b hb _ ha =>
      .inl (by cases hb; exact ha)
  rw [State.enter'_eq, State.bayEvent, (hkeeps _ _ _ _ _).get f hevent, State.entered_get _ _ _ _ _ _ hseq hcopy (.inl hstate) (.inl hviol)]

/-- ENABLE set, and the outlet's registers and data as at a start, before it enters IDLE. -/
def State.startAfresh (s : State) (k : Nat) : State :=
  let u := ((s.put (hdrEnable (0x30 + k)) 1).inc (F.BAYK_OEPOCH k)).put (F.BAYK_PERIOD_COUNT k) 0
  (((u.setOutlet k { mirOpen := (s.outlet k).mirOpen }).setReg (A.BAYK_PILOT k) 0).setReg (A.BAYK_VIOL k) 0).put (F.BAYK_STATE_LATCHED k) 0

theorem State.bayStart_eq (s : State) (k : Nat) :
    s.bayStart k = (((s.startAfresh k).setPilot k pilotHigh).enter' k stIdle cHost 0 noSeq).1 := rfl

theorem State.setReg_get_other (s : State) (a : Nat) (w : W32) (f : Fld) (h : f.addr ≠ a) : (s.setReg a w).get f = s.get f := by
  rw [State.get, State.setReg_reg, if_neg h, State.get]

theorem State.startAfresh_confined (s : State) (k : Nat) :
    Confined k s (s.startAfresh k) (onPages [0x16, 0x19, 0x30 + k]) [3 + k] [.outlets, .se] := by
  have hown : ∀ a, a / 4096 = 0x30 + k → onPages [0x16, 0x19, 0x30 + k] a := fun a ha => .inl (by simp [ha])
  exact ((((((((Confined.refl k s _ _ _).put (hdrEnable (0x30 + k)) 1 (hown _ (by simp only [hdrEnable]; omega))).inc (F.BAYK_OEPOCH k)
    (hown _ (by simp only [F.BAYK_OEPOCH]; omega))).put (F.BAYK_PERIOD_COUNT k) 0 (hown _ (by simp only [F.BAYK_PERIOD_COUNT]; omega))).setOutlet _
    (by simp)).setReg _ 0 (hown _ (by simp only [A.BAYK_PILOT]; omega))).setReg _ 0 (hown _ (by simp only [A.BAYK_VIOL]; omega))).put
    (F.BAYK_STATE_LATCHED k) 0 (hown _ (by simp only [F.BAYK_STATE_LATCHED]; omega)))

/-- What a start leaves of the outlet before it enters IDLE. -/
structure StartedAfresh (k : Nat) (s t : State) : Prop where
  enabled : t.enabled (0x30 + k) = true
  epoch : t.get (F.BAYK_OEPOCH k) = (s.get (F.BAYK_OEPOCH k) + 1) % 2 ^ 32
  unlatched : t.on (F.BAYK_STATE_LATCHED k) = false
  retries : t.get (F.BAYK_VIOL_RETRIES k) = 0
  outlet : t.outlet k = { mirOpen := (s.outlet k).mirOpen }

theorem State.startAfresh_started (s : State) (k : Nat) : StartedAfresh k s (s.startAfresh k) := by
  have hput (g : Fld) (hs : g.addr ≠ 0x30120 + 4096 * k) (hv : g.addr ≠ A.BAYK_VIOL k) (hp : g.addr ≠ A.BAYK_PILOT k)
      (hc : g.addr ≠ 0x30138 + 4096 * k) : (s.startAfresh k).get g = ((s.put (hdrEnable (0x30 + k)) 1).inc (F.BAYK_OEPOCH k)).get g := by
    rw [State.startAfresh, State.put_get_other _ _ _ _ hs, State.setReg_get_other _ _ _ _ hv, State.setReg_get_other _ _ _ _ hp, State.setOutlet_get,
      State.put_get_other _ _ _ _ hc]
  refine { enabled := ?_, epoch := ?_, unlatched := ?_, retries := ?_, outlet := ?_ }
  · rw [State.enabled, State.on, hput _ (by simp only [hdrEnable]; omega) (by simp only [hdrEnable, A.BAYK_VIOL]; omega) (by simp only [hdrEnable, A.BAYK_PILOT]; omega)
      (by simp only [hdrEnable]; omega), State.inc, State.put_get_other _ _ _ _ (by simp only [hdrEnable, F.BAYK_OEPOCH]; omega)]
    exact State.put_on_bool s _ true rfl (by simp [hdrEnable])
  · rw [hput _ (by simp only [F.BAYK_OEPOCH]; omega) (by simp only [F.BAYK_OEPOCH, A.BAYK_VIOL]; omega) (by simp only [F.BAYK_OEPOCH, A.BAYK_PILOT]; omega)
      (by simp only [F.BAYK_OEPOCH]; omega), State.inc_get_same _ _ (by simp [F.BAYK_OEPOCH]),
      State.put_get_other _ _ _ _ (by simp only [hdrEnable, F.BAYK_OEPOCH]; omega)]
    rfl
  · rw [State.startAfresh]
    exact State.put_on_bool _ _ false rfl (by simp [F.BAYK_STATE_LATCHED])
  · rw [State.startAfresh, State.put_get_other _ _ _ _ (by simp only [F.BAYK_VIOL_RETRIES, F.BAYK_STATE_LATCHED]; omega), State.get,
      show (F.BAYK_VIOL_RETRIES k).addr = A.BAYK_VIOL k from rfl, State.setReg_reg_same]
    exact (show getBits 0 0 8 = 0 by decide)
  · rw [State.startAfresh, State.put_outlet, State.setReg_outlet, State.setReg_outlet, State.setOutlet_outlet_same]

/-- `t` is `u` after the outlet's session has followed it and the page has counted the write. -/
structure Counted (k : Nat) (u t : State) : Prop where
  get : ∀ g : Fld, ¬ sesRegs k g.addr → g.addr ≠ (0x30 + k) * 4096 + 0x024 → t.get g = u.get g
  state : ∀ g : Fld, g.addr = (F.BAYK_STATE_AUTHORISED k).addr → g.lsb + g.wid ≤ 24 ∨ 25 ≤ g.lsb → t.get g = u.get g
  outlet : ∀ j, t.outlet j = u.outlet j
  unauthorised : u.on (F.BAYK_STATE_AUTHORISED k) = false → u.bay k ≠ stConnected → t.on (F.BAYK_STATE_AUTHORISED k) = false

theorem Confined.counted {k : Nat} (hk : k < 12) {s u : State} {l E : List Nat} {P : List Part} (h : Confined k s u (onPages l) E P)
    (h19 : 0x19 ∈ l) (hown : 0x30 + k ∈ l) (he : 3 + k ∈ E) (ho : Part.outlets ∈ P) (hs : Part.se ∈ P) (old : Nat) :
    Ends (done ((u.sesBay k old).bumpSeq (bayPg k))) fun t => Counted k u t ∧ Keeps s t (onPages l) E P := by
  have hfollow := u.sesBay_followed hk old
  have hr : OwnRoom k (onPages l) E P := { own := fun _ ha => .inl (ha ▸ hown), lost := fun _ ha => .inr ha, ring := he, outlets := ho }
  have hwrite (g : Fld) (hseq : g.addr ≠ (0x30 + k) * 4096 + 0x024) : ((u.sesBay k old).bumpSeq (bayPg k)).settle.get g = (u.sesBay k old).get g := by
    rw [State.settle_get, bayPg, State.bumpSeq_get_other _ _ _ hseq]
  refine ⟨_, rfl, { get := fun g hg hseq => ?_, state := fun g hg hb => ?_, outlet := fun j => ?_, unauthorised := fun hoff hbay => ?_ }, ?_⟩
  · rw [hwrite g hseq, hfollow.get g hg]
  · rw [hwrite g (by rw [hg]; simp only [F.BAYK_STATE_AUTHORISED]; omega), hfollow.state g hg hb]
  · rw [State.settle_outlet, State.bumpSeq_outlet, hfollow.own]
  · rw [State.on, hwrite _ (by simp only [F.BAYK_STATE_AUTHORISED]; omega)]
    exact u.sesBay_unauthorised hk old hoff (.inl hbay)
  · exact ((h.follow hfollow hr (SesRoom.onPages hk h19 hs) (by simpa using hs) (by simp)).inc (hdrSeq (bayPg k))
      (hr.own _ (by simp only [hdrSeq, bayPg]; omega))).keeps.settle

theorem exec_bayEnableWrite_starts (s : State) (req : Req) (k : Fin 12) (h : s.runs = true) (hbay : s.enabled 0x16 = true) (haux : s.enabled 0x18 = true)
    (hrated : s.get (F.BAYK_RATED_MA k) ≠ 0) (hbench : s.boot.bench = false) (hoff : s.enabled (0x30 + k) = false) :
    Ends (exec (.bayEnableWrite req k true) s) fun t =>
      t.enabled (0x30 + k) = true ∧ t.bay k = stIdle ∧ t.get (F.BAYK_OEPOCH k) = (s.get (F.BAYK_OEPOCH k) + 1) % 2 ^ 32
      ∧ t.on (F.BAYK_STATE_LATCHED k) = false ∧ t.get (F.BAYK_VIOL_RETRIES k) = 0 ∧ t.outHigh k = false
      ∧ Keeps s t (onPages [0x16, 0x19, 0x30 + k.val]) [3 + k.val] [.outlets, .se] := by
  have hstart : s.bayEnable k true = ((s.bayStart k).sesBay k (s.bay k), none) :=
    (if_neg (by simp [hbay, haux, hrated, hbench])).trans (if_neg (by rw [bayPg, hoff]; decide))
  have hfresh := s.startAfresh_started k
  let v := (s.startAfresh k).setPilot k pilotHigh
  have hv (g : Fld) : v.get g = (s.startAfresh k).get g := State.setOutlet_get _ _ _ _
  have hstarted : s.bayStart k = (v.enter' k stIdle cHost 0 noSeq).1 := s.bayStart_eq k
  have hbound : Confined k.val s (s.bayStart k) (onPages [0x16, 0x19, 0x30 + k.val]) [3 + k.val] [.outlets, .se] := by
    rw [hstarted]
    exact ((s.startAfresh_confined k).setPilot pilotHigh (by simp)).enter (bayRoom k.isLt) stIdle cHost noSeq fun heq => absurd heq (by decide)
  have henter := v.enter'_entered k.isLt stIdle cHost 0 noSeq
  rw [← hstarted] at henter
  have hout : (s.bayStart k).outlet k = { ({ mirOpen := (s.outlet k).mirOpen } : Outlet) with nextPilot := some pilotHigh } := by
    rw [hstarted, State.enter'_outlet, show v.outlet k = { (s.startAfresh k).outlet k with nextPilot := some pilotHigh } from
      State.setOutlet_outlet_same _ _ _, hfresh.outlet]
  obtain ⟨t, ht, hcount, hframe⟩ := hbound.counted k.isLt (by simp) (by simp) (by simp) (by simp) (by simp) (s.bay k)
  refine ⟨t, (exec_bayEnableWrite_taken h hstart).trans ht, ?_, ?_, ?_, ?_, ?_, t.outHigh_of_low k (by rw [hcount.outlet, hout]) (by rw [hcount.outlet, hout]),
    hframe⟩
  · rw [State.enabled, State.on, hcount.get _ (by simp only [sesRegs, hdrEnable, F.BAYK_STATE_AUTHORISED]; omega) (by simp only [hdrEnable]; omega),
      hstarted, v.enter'_get _ _ _ _ _ _ (by simp only [hdrEnable]; omega) (by simp only [hdrEnable]; omega)
      (by simp only [hdrEnable, A.BAY_STATE]; omega) (by simp only [hdrEnable, F.BAYK_STATE_CODE]; omega) (by simp only [hdrEnable, A.BAYK_VIOL]; omega), hv]
    exact hfresh.enabled
  · rw [State.bay, hcount.state (F.BAYK_STATE_CODE k) rfl (.inl (by simp [F.BAYK_STATE_CODE]))]
    exact henter.code
  · rw [hcount.get _ (by simp only [sesRegs, F.BAYK_OEPOCH, F.BAYK_STATE_AUTHORISED]; omega) (by simp only [F.BAYK_OEPOCH]; omega),
      henter.keeps.get _ (by simp only [enterRegs, F.BAYK_OEPOCH, F.BAYK_STATE_CODE, A.BAYK_VIOL]; omega), hv]
    exact hfresh.epoch
  · rw [State.on, hcount.state (F.BAYK_STATE_LATCHED k) rfl (.inr (by simp [F.BAYK_STATE_LATCHED])),
      henter.flags (F.BAYK_STATE_LATCHED k) rfl (by simp [F.BAYK_STATE_LATCHED]), hv]
    exact hfresh.unlatched
  · rw [hcount.get _ (by simp only [sesRegs, F.BAYK_VIOL_RETRIES, F.BAYK_STATE_AUTHORISED]; omega) (by simp only [F.BAYK_VIOL_RETRIES]; omega),
      henter.viol _ rfl (by simp [F.BAYK_VIOL_RETRIES]), hv]
    exact hfresh.retries

/-- A test abandoned stays within RCM's page, BAY's and the outlet's ring. -/
theorem State.testAbandon_keeps (s : State) {k : Nat} (hk : k < 12) :
    Keeps s (s.testAbandon k) (onPages [0x16, 0x17]) [2, 3 + k] [.rcm, .fresh] := by
  have hrefl := Keeps.refl s (onPages [0x16, 0x17]) [2, 3 + k] [.rcm, .fresh]
  have hpage : ∀ a, a / 4096 = 0x17 → onPages [0x16, 0x17] a := fun a ha => .inl (by simp [ha])
  unfold State.testAbandon
  split
  · have hended := ((hrefl.setRc k { s.rc k with test := none, tw := 0, testLatch := false, lastOk := 6 == 1, postOk := (s.rc k).postOk || (6 == 1 && s.latched k) }
      (by simp)).put (F.RCM_STAT_ST_BUSY k) 0 (hpage _ (by simp only [F.RCM_STAT_ST_BUSY]; omega))).put (F.RCM_ST_RESULT_RESULT k) 6
      (hpage _ (by simp only [F.RCM_ST_RESULT_RESULT]; omega))
    exact ((hended.rcmEvent k 0x51 6 0xFF none (by simp) (by simp) fun _ ha => .inr ha).showHolds (by simp)
      fun a ha => ha.imp_left (by simp +contextual)).showReady hk (by simp) (by simp) fun a ha => ha.imp_left (by simp +contextual)
  · exact hrefl

/-- ENABLE cleared and DISABLED entered, before the outlet's data and its pilot are cleared. -/
def State.leaveService (s : State) (k : Nat) : State :=
  (((s.put (hdrEnable (0x30 + k)) 0).put (F.BAYK_STATE_AUTHORISED k) 0).enter' k stDisabled cHost 0 noSeq).1

theorem State.bayStop_eq (s : State) (k : Nat) :
    s.bayStop k = ((((s.leaveService k).setOutlet k { mirOpen := (s.outlet k).mirOpen }).put (F.BAYK_PILOT_MODE k) 0).put
      (F.BAYK_PILOT_DUTY k) 0).put (F.BAYK_ALLOW_MA k) 0 := rfl

/-- What a stop leaves of the outlet. -/
structure ServiceLeft (k : Nat) (s t : State) : Prop where
  confined : Confined k s t (onPages [0x16, 0x17, 0x19, 0x30 + k]) [2, 3 + k] [.outlets, .rcm, .se, .fresh]
  disabled : t.enabled (0x30 + k) = false
  code : t.bay k = stDisabled
  unauthorised : t.on (F.BAYK_STATE_AUTHORISED k) = false
  outlet : (t.outlet k).conM = false ∧ (t.outlet k).conA = false
  mode : t.get (F.BAYK_PILOT_MODE k) = 0
  allow : t.get (F.BAYK_ALLOW_MA k) = 0

theorem State.leaveService_confined (s : State) {k : Nat} (hk : k < 12) :
    Confined k s (s.leaveService k) (onPages [0x16, 0x17, 0x19, 0x30 + k]) [2, 3 + k] [.outlets, .rcm, .se, .fresh] := by
  have hroom : BayRoom k (onPages [0x16, 0x17, 0x19, 0x30 + k]) [2, 3 + k] [.outlets, .rcm, .se, .fresh] :=
    BayRoom.onPages hk (by simp) (by simp) (by simp) (by simp)
  exact (((Confined.refl k s _ _ _).put (hdrEnable (0x30 + k)) 0 (hroom.own _ (by simp only [hdrEnable]; omega))).put (F.BAYK_STATE_AUTHORISED k) 0
    (hroom.own _ (by simp only [F.BAYK_STATE_AUTHORISED]; omega))).enter hroom stDisabled cHost noSeq fun heq => absurd heq (by decide)

theorem State.bayStop_confined (s : State) {k : Nat} (hk : k < 12) :
    Confined k s (s.bayStop k) (onPages [0x16, 0x17, 0x19, 0x30 + k]) [2, 3 + k] [.outlets, .rcm, .se, .fresh] := by
  have hown : ∀ a, a / 4096 = 0x30 + k → onPages [0x16, 0x17, 0x19, 0x30 + k] a := fun a ha => .inl (by simp [ha])
  rw [State.bayStop_eq]
  exact ((((s.leaveService_confined hk).setOutlet _ (by simp)).put _ 0 (hown _ (by simp only [F.BAYK_PILOT_MODE]; omega))).put _ 0
    (hown _ (by simp only [F.BAYK_PILOT_DUTY]; omega))).put _ 0 (hown _ (by simp only [F.BAYK_ALLOW_MA]; omega))

theorem State.bayStop_left (s : State) {k : Nat} (hk : k < 12) : ServiceLeft k s (s.bayStop k) := by
  have henter : Entered k ((s.put (hdrEnable (0x30 + k)) 0).put (F.BAYK_STATE_AUTHORISED k) 0) (s.leaveService k) stDisabled cHost 0 :=
    State.enter'_entered _ hk stDisabled cHost 0 noSeq
  have hget (g : Fld) (hp : g.addr ≠ 0x30124 + 4096 * k) (ha : g.addr ≠ 0x3012C + 4096 * k) : (s.bayStop k).get g = (s.leaveService k).get g := by
    rw [State.bayStop_eq, State.put_get_other _ _ _ _ ha, State.put_get_other _ _ _ _ hp, State.put_get_other _ _ _ _ hp, State.setOutlet_get]
  refine { confined := s.bayStop_confined hk, disabled := ?_, code := ?_, unauthorised := ?_, outlet := ?_, mode := ?_, allow := ?_ }
  · rw [State.enabled, State.on, hget _ (by simp only [hdrEnable]; omega) (by simp only [hdrEnable]; omega), State.leaveService,
      State.enter'_get _ _ _ _ _ _ _ (by simp only [hdrEnable]; omega) (by simp only [hdrEnable]; omega)
        (by simp only [hdrEnable, A.BAY_STATE]; omega) (by simp only [hdrEnable, F.BAYK_STATE_CODE]; omega) (by simp only [hdrEnable, A.BAYK_VIOL]; omega),
      State.put_get_other _ _ _ _ (by simp only [hdrEnable, F.BAYK_STATE_AUTHORISED]; omega)]
    exact State.put_on_bool s _ false rfl (by simp [hdrEnable])
  · rw [State.bay, hget _ (by simp only [F.BAYK_STATE_CODE]; omega) (by simp only [F.BAYK_STATE_CODE]; omega)]
    exact henter.code
  · rw [State.on, hget _ (by simp only [F.BAYK_STATE_AUTHORISED]; omega) (by simp only [F.BAYK_STATE_AUTHORISED]; omega)]
    exact henter.unauthorised (.inl (State.put_on_bool _ _ false rfl (by simp [F.BAYK_STATE_AUTHORISED])))
  · rw [State.bayStop_eq, State.put_outlet, State.put_outlet, State.put_outlet, State.setOutlet_outlet_same]
    exact ⟨rfl, rfl⟩
  · rw [State.bayStop_eq, State.put_get_other _ _ _ _ (by simp only [F.BAYK_PILOT_MODE, F.BAYK_ALLOW_MA]; omega),
      State.put_get_apart _ _ _ _ (by simp [F.BAYK_PILOT_DUTY]) (.inr (.inl (by simp [F.BAYK_PILOT_DUTY, F.BAYK_PILOT_MODE]))),
      State.put_get_same _ _ _ (by simp [F.BAYK_PILOT_MODE]), Nat.zero_mod]
  · rw [State.bayStop_eq, State.put_get_same _ _ _ (by simp [F.BAYK_ALLOW_MA]), Nat.zero_mod]

/-- A test of RCM abandoned changes nothing of that. -/
theorem ServiceLeft.testAbandon {k : Nat} {s t : State} (h : ServiceLeft k s t) (hk : k < 12) : ServiceLeft k s (t.testAbandon k) := by
  have hkeeps := t.testAbandon_keeps hk
  have hget (g : Fld) (hg : g.addr / 4096 = 0x30 + k) : (t.testAbandon k).get g = t.get g :=
    hkeeps.get g (by simp only [onPages, List.mem_cons, List.not_mem_nil, or_false]; omega)
  have hout : (t.testAbandon k).outlets = t.outlets := hkeeps.parts .outlets (by simp)
  refine { confined := h.confined.step (h.confined.keeps.trans (hkeeps.mono (fun a ha => ha.imp_left fun h => by simp at h ⊢; tauto) (fun _ he => he)
             (by simp))) hout, disabled := ?_, code := ?_, unauthorised := ?_, outlet := ?_, mode := ?_, allow := ?_ }
  · rw [State.enabled, State.on, hget _ (by simp only [hdrEnable]; omega)]; exact h.disabled
  · rw [State.bay, hget _ (by simp only [F.BAYK_STATE_CODE]; omega)]; exact h.code
  · rw [State.on, hget _ (by simp only [F.BAYK_STATE_AUTHORISED]; omega)]; exact h.unauthorised
  · simp only [State.outlet, hout]; exact h.outlet
  · rw [hget _ (by simp only [F.BAYK_PILOT_MODE]; omega), h.mode]
  · rw [hget _ (by simp only [F.BAYK_ALLOW_MA]; omega), h.allow]

theorem exec_bayEnableWrite_stops (s : State) (req : Req) (k : Fin 12) (h : s.runs = true) (hon : s.enabled (0x30 + k) = true)
    (hbay : s.bay k ∉ [stClosing, stCharging, stWithdrawing, stOpening, stService]) :
    Ends (exec (.bayEnableWrite req k false) s) fun t =>
      t.enabled (0x30 + k) = false ∧ t.bay k = stDisabled ∧ t.on (F.BAYK_STATE_AUTHORISED k) = false ∧ t.outHigh k = false
      ∧ t.get (F.BAYK_PILOT_MODE k) = 0 ∧ t.get (F.BAYK_ALLOW_MA k) = 0
      ∧ Keeps s t (onPages [0x16, 0x17, 0x19, 0x30 + k.val]) [2, 3 + k.val] [.outlets, .rcm, .se, .fresh] := by
  have hstop : s.bayEnable k false = (((s.bayStop k).testAbandon k).sesBay k (s.bay k), none) :=
    (if_neg (by rwa [List.contains_iff_mem])).trans (if_neg (by rw [bayPg, hon]; decide))
  have hleft := (s.bayStop_left k.isLt).testAbandon k.isLt
  obtain ⟨t, ht, hcount, hframe⟩ := hleft.confined.counted k.isLt (by simp) (by simp) (by simp) (by simp) (by simp) (s.bay k)
  have hget (g : Fld) (hg : ¬ sesRegs k g.addr) (hseq : g.addr ≠ (0x30 + k.val) * 4096 + 0x024) := hcount.get g hg hseq
  refine ⟨t, (exec_bayEnableWrite_taken h hstop).trans ht, ?_, ?_, hcount.unauthorised hleft.unauthorised (by rw [hleft.code]; decide),
    t.outHigh_of_low k (by rw [hcount.outlet]; exact hleft.outlet.1) (by rw [hcount.outlet]; exact hleft.outlet.2), ?_, ?_, hframe⟩
  · rw [State.enabled, State.on, hget _ (by simp only [sesRegs, hdrEnable, F.BAYK_STATE_AUTHORISED]; omega) (by simp only [hdrEnable]; omega)]
    exact hleft.disabled
  · rw [State.bay, hcount.state (F.BAYK_STATE_CODE k) rfl (.inl (by simp [F.BAYK_STATE_CODE]))]
    exact hleft.code
  · rw [hget _ (by simp only [sesRegs, F.BAYK_PILOT_MODE, F.BAYK_STATE_AUTHORISED]; omega) (by simp only [F.BAYK_PILOT_MODE]; omega), hleft.mode]
  · rw [hget _ (by simp only [sesRegs, F.BAYK_ALLOW_MA, F.BAYK_STATE_AUTHORISED]; omega) (by simp only [F.BAYK_ALLOW_MA]; omega), hleft.allow]

-- LMG_LIMIT (R292)

theorem exec_lmgLimitWrite (s : State) (req : Req) (k : Fin 12) (v : W32) (h : s.runs = true) :
    exec (.lmgLimitWrite req k v) s
      = done (if (s.lmgLimit k v).2 = none then (s.lmgLimit k v).1.bumpSeq (bayPg k) else (s.lmgLimit k v).1) := by
  rw [show exec (.lmgLimitWrite req k v) s = execLmgLimitWrite req k v s from rfl, execLmgLimitWrite, State.onFabric_runs _ _ h]

theorem exec_lmgLimitWrite_taken (s : State) (req : Req) (k : Fin 12) (v : W32) (h : s.runs = true) (hmax : getBits v 0 20 ≤ 100000)
    (hepoch : getBits v 24 8 = s.get (F.BAYK_OEPOCH k) % 256) :
    Ends (exec (.lmgLimitWrite req k v) s) fun t =>
      t.get (F.BAYK_LMG_LIMIT_MA k) = getBits v 0 20 ∧ t.get (F.BAYK_LMG_LIMIT_EPOCH k) = getBits v 24 8
      ∧ Keeps s t (among [(F.BAYK_LMG_LIMIT_MA k).addr, (0x30 + k) * 4096 + 0x024]) [] [] := by
  let u := (s.put (F.BAYK_LMG_LIMIT_MA k) (getBits v 0 20)).put (F.BAYK_LMG_LIMIT_EPOCH k) (getBits v 24 8)
  have hwrite : s.lmgLimit k v = (u, none) := by
    rw [State.lmgLimit]
    simp only [firstErr, show ¬ 100000 < getBits v 0 20 by omega, hepoch, decide_false, bne_self_eq_false, Bool.false_eq_true, if_false, u]
  have hget (g : Fld) (hseq : g.addr ≠ (0x30 + k.val) * 4096 + 0x024) : ((u.bumpSeq (bayPg k)).settle).get g = u.get g := by
    rw [State.settle_get, bayPg, State.bumpSeq_get_other _ _ _ hseq]
  refine ⟨_, by rw [exec_lmgLimitWrite s req k v h, hwrite]; rfl, ?_, ?_, ?_⟩
  · rw [if_pos rfl, hget _ (by simp only [F.BAYK_LMG_LIMIT_MA]; omega), State.put_get_apart _ _ _ _ (by simp [F.BAYK_LMG_LIMIT_EPOCH])
      (.inr (.inr (by simp [F.BAYK_LMG_LIMIT_EPOCH, F.BAYK_LMG_LIMIT_MA]))), State.put_get_same _ _ _ (by simp [F.BAYK_LMG_LIMIT_MA])]
    exact Nat.mod_eq_of_lt (getBits_lt v 0 20)
  · rw [if_pos rfl, hget _ (by simp only [F.BAYK_LMG_LIMIT_EPOCH]; omega), State.put_get_same _ _ _ (by simp [F.BAYK_LMG_LIMIT_EPOCH])]
    exact Nat.mod_eq_of_lt (getBits_lt v 24 8)
  · exact ((((Keeps.refl s _ _ _).put _ _ (by simp)).put (F.BAYK_LMG_LIMIT_EPOCH k) _ (by simp [F.BAYK_LMG_LIMIT_EPOCH, F.BAYK_LMG_LIMIT_MA])).bumpSeq
      (bayPg k) (by simp [bayPg])).settle

theorem exec_lmgLimitWrite_refused (s : State) (req : Req) (k : Fin 12) (v : W32) (h : s.runs = true)
    (hbad : 100000 < getBits v 0 20 ∨ getBits v 24 8 ≠ s.get (F.BAYK_OEPOCH k) % 256) :
    Ends (exec (.lmgLimitWrite req k v) s) fun t =>
      t.get (hdrErrcode (0x30 + k)) = (if 100000 < getBits v 0 20 then 0x1E else 0x40) ∧ Keeps s t (errRegs (0x30 + k)) [] [] := by
  have hrefuse : s.lmgLimit k v = (s.err (bayPg k) (if 100000 < getBits v 0 20 then 0x1E else 0x40), some (if 100000 < getBits v 0 20 then 0x1E else 0x40)) := by
    rw [State.lmgLimit]
    by_cases hmax : 100000 < getBits v 0 20
    · simp only [firstErr, hmax, decide_true, if_true]
    · have hepoch : (getBits v 24 8 != s.get (F.BAYK_OEPOCH k) % 256) = true := by simpa using hbad.resolve_left hmax
      simp only [firstErr, hmax, hepoch, decide_false, Bool.false_eq_true, if_false, if_true]
  rw [exec_lmgLimitWrite s req k v h, hrefuse]
  exact s.ends_err k _ (by split <;> decide)

/-- Settles O34, clause by clause. -/
theorem outletCommands : Obligations.OutletCommands :=
  ⟨exec_outletCommand_refused, exec_authorise_acts, exec_stop_acts, exec_setLimit_acts, exec_pilotPause_acts, exec_allowClose_acts, exec_lock_acts,
    exec_unlock_acts, exec_resetFault_acts, exec_digital_acts, exec_bayEnableWrite_starts, exec_bayEnableWrite_refused, exec_bayEnableWrite_busy,
    exec_bayEnableWrite_stops, exec_lmgLimitWrite_taken, exec_lmgLimitWrite_refused⟩

end Sys2Proof.Machine

/-! The evaluation of an outlet (O32): what every input may touch, what precedes and follows the judgement, and the cases named. -/
namespace Sys2Proof.Machine

-- No evaluation leaves its outlet's bounds (R286)

/-- The bounds of an evaluation. -/
abbrev Evaluated (k : Nat) (s t : State) : Prop :=
  Confined k s t (onPages [0x16, 0x17, 0x19, 0x30 + k]) [2, 3 + k] [.outlets, .rcm, .se, .fresh]

theorem evalRoom {k : Nat} (hk : k < 12) : BayRoom k (onPages [0x16, 0x17, 0x19, 0x30 + k]) [2, 3 + k] [.outlets, .rcm, .se, .fresh] :=
  BayRoom.onPages hk (by simp) (by simp) (by simp) (by simp)

theorem evalSesRoom {k : Nat} (hk : k < 12) : SesRoom k (onPages [0x16, 0x17, 0x19, 0x30 + k]) [.outlets, .rcm, .se, .fresh] :=
  SesRoom.onPages hk (by simp) (by simp)

/-- What the outlet keeps of a class that has become confirmed. -/
def State.classKnown (s : State) (k : Nat) : Outlet :=
  { s.outlet k with known := true, fresh := true, skip := (s.outlet k).known && s.get (F.BAYK_PILOT_CLASS k) == 0
      && (s.get (F.BAYK_PILOT_CANDIDATE k) == 2 || s.get (F.BAYK_PILOT_CANDIDATE k) == 3) }

/-- A class confirmed, before what class A ends. -/
def State.classRead (s : State) (k : Nat) : State :=
  let x := s.outlet k
  let c := s.get (F.BAYK_PILOT_CANDIDATE k)
  let old := s.get (F.BAYK_PILOT_CLASS k)
  if x.read && decide (s.get F.BAY_TIMING_DEBOUNCE ≤ x.run) && (!x.known || !x.fresh || c != old) then
    let u := (s.setOutlet k (s.classKnown k)).put (F.BAYK_PILOT_CLASS k) c
    if x.known && c == old then u
    else (u.bayEventAt k 0x41 (u.bay k) (u.bay k) cNone (c + 16 * if x.known then old else 15) x.since
      (unsignedOf 32 (u.getInt (F.BAYK_PILOT_V_HIGH k))) noSeq).1
  else s

theorem State.confirmClass_eq (s : State) (k : Nat) :
    s.confirmClass k = if (s.classRead k).cls k = some 0
      then ((s.classRead k).put (F.BAYK_STATE_AUTHORISED k) 0).put (F.BAYK_VIOL_RETRIES k) 0 else s.classRead k := rfl

theorem Evaluated.pick {k : Nat} {s : State} {c : Prop} [Decidable c] {r r' : Judged} (h : Evaluated k s r.1) (h' : Evaluated k s r'.1) :
    Evaluated k s (if c then r else r').1 := by split <;> assumption

section
variable {k : Nat} (hk : k < 12) {s t : State} (h : Evaluated k s t)
include hk h

omit hk in
theorem Evaluated.judged (b : Bool) : Evaluated k s ((t, b) : Judged).1 := h

theorem Evaluated.putOwn (f : Fld) (v : Nat) (hf : f.addr / 4096 = 0x30 + k) : Evaluated k s (t.put f v) := h.put f v ((evalRoom hk).own _ hf)

theorem Evaluated.confirmClass : Evaluated k s (t.confirmClass k) := by
  have hclear (u : State) (hu : Evaluated k s u) : Evaluated k s ((u.put (F.BAYK_STATE_AUTHORISED k) 0).put (F.BAYK_VIOL_RETRIES k) 0) :=
    (hu.putOwn hk (F.BAYK_STATE_AUTHORISED k) 0 (by simp only [F.BAYK_STATE_AUTHORISED]; omega)).putOwn hk (F.BAYK_VIOL_RETRIES k) 0
      (by simp only [F.BAYK_VIOL_RETRIES]; omega)
  have hread : Evaluated k s (t.classRead k) := by
    have hput := Evaluated.putOwn hk (h.setOutlet (t.classKnown k) (by simp)) (F.BAYK_PILOT_CLASS k) (t.get (F.BAYK_PILOT_CANDIDATE k))
      (by simp only [F.BAYK_PILOT_CLASS]; omega)
    exact (hput.ite (hput.bayEventAt (evalRoom hk).event (by simp) _ _ _ _ _ _ _ _)).ite h
  rw [State.confirmClass_eq]
  exact (hclear _ hread).ite hread

theorem Evaluated.readPp : Evaluated k s (t.readPp k) := by
  unfold State.readPp
  extract_lets x u v
  have hu : Evaluated k s u := ((h.setOutlet _ (by simp)).note (evalRoom hk).toOwnRoom _ _ _ _ _).ite h
  have hv : Evaluated k s v := hu.putOwn hk (F.BAYK_STATE_AUTHORISED k) 0 (by simp only [F.BAYK_STATE_AUTHORISED]; omega)
  split
  · exact hv.ite (hv.putOwn hk (F.BAYK_VIOL_RETRIES k) 0 (by simp only [F.BAYK_VIOL_RETRIES]; omega))
  · exact hu

omit hk in
theorem Evaluated.readCycle : Evaluated k s (t.readCycle k) := (h.setOutlet _ (by simp)).ite (h.setOutlet _ (by simp))

theorem Evaluated.judgeHolds : Evaluated k s (t.judgeHolds k).1 := by
  unfold State.judgeHolds
  extract_lets b x
  split
  · exact h
  split
  · exact Evaluated.judged ((h.setOutlet _ (by simp)).enterHard (evalRoom hk) stTripped cTrip _ (by decide)) _
  split
  · exact Evaluated.judged (h.enterHard (evalRoom hk) stService cBench noSeq (by decide)) _
  split
  · exact Evaluated.judged ((((h.takeFault (evalRoom hk).toOwnRoom cPower).setPilot pilotLow (by simp)).openNow (evalRoom hk) cPower stFaultF noSeq)) _
  · exact h

theorem Evaluated.openNote : Evaluated k s (t.openNote k) := ((h.note (evalRoom hk).toOwnRoom _ _ _ _ _).setOutlet _ (by simp)).ite h

theorem Evaluated.openEnd : Evaluated k s (t.openEnd k) := by
  unfold State.openEnd
  extract_lets target c x u
  have hu : Evaluated k s u := h.setOutlet _ (by simp)
  exact (((hu.setPilot _ (by simp)).askUnlock (by simp)).enter (evalRoom hk) stIdle c noSeq (by simp)).ite
    (((hu.setPilot _ (by simp)).enter (evalRoom hk) stOffering c noSeq (by simp)).ite
      (((hu.setPilot _ (by simp)).enter (evalRoom hk) stConnected c noSeq (by simp)).ite (hu.enter (evalRoom hk) stFaultF c noSeq (by simp))))

theorem Evaluated.judgeMirror : Evaluated k s (t.judgeMirror k).1 := by
  unfold State.judgeMirror
  extract_lets u b x closed v
  have hu : Evaluated k s u := h.openNote hk
  split
  · exact Evaluated.judged (hu.openEnd hk) _
  split
  · exact Evaluated.judged ((hu.note (evalRoom hk).toOwnRoom _ _ _ _ _).enter (evalRoom hk) stCharging cNone noSeq (by simp)) _
  split
  · exact Evaluated.judged ((hu.takeFault (evalRoom hk).toOwnRoom cMirror).enterHard (evalRoom hk) stFaultF cMirror noSeq (by decide)) _
  split
  · exact hu
  split
  · exact Evaluated.judged (hu.weld (evalRoom hk) cMirror) _
  split
  · exact Evaluated.judged (hu.weld (evalRoom hk) cWeld) _
  · exact hu

theorem Evaluated.request : Evaluated k s (t.request k).1 := by
  unfold State.request
  split
  · exact Evaluated.judged ((h.setOutlet _ (by simp)).enter (evalRoom hk) stClosing cVehicle noSeq (by simp)) _
  split
  · exact h
  · exact Evaluated.judged ((h.setOutlet _ (by simp)).bayEventAt (evalRoom hk).event (by simp) _ _ _ _ _ _ _ _) _

theorem Evaluated.judgeClass : Evaluated k s (t.judgeClass k).1 := by
  have hr := evalRoom hk
  unfold State.judgeClass
  extract_lets b x mode back
  split
  · exact h
  next c _ =>
  refine Evaluated.pick h (Evaluated.pick ?driver (Evaluated.pick ?short (Evaluated.pick ?diode (Evaluated.pick ?gone (Evaluated.pick ?arrives
    (Evaluated.pick ?noRequest (Evaluated.pick ?vent (Evaluated.pick (h.request hk) h))))))))
  case driver => exact Evaluated.judged (h.hardViolation hr cDriver _) _
  case short => exact Evaluated.judged (h.hardViolation hr cShort _) _
  case diode => exact Evaluated.judged (h.hardViolation hr cDiode _) _
  case gone =>
    exact Evaluated.pick (Evaluated.judged ((h.violate hr.toOwnRoom cUnplug _).openNow hr cUnplug stIdle noSeq) _)
      (Evaluated.pick (Evaluated.judged ((h.askUnlock (by simp)).enter hr stIdle cVehicle noSeq (by simp)) _)
        (Evaluated.pick (Evaluated.judged (((h.setPilot _ (by simp)).askUnlock (by simp)).enter hr stIdle cVehicle noSeq (by simp)) _) h))
  case arrives =>
    exact Evaluated.judged (((((h.violate hr.toOwnRoom cSkip _).ite h).setOutlet _ (by simp)).note hr.toOwnRoom _ _ _ _ _).enter hr stConnected cVehicle
      noSeq (by simp)) _
  case noRequest =>
    exact Evaluated.pick (Evaluated.judged (h.openNow hr cVehicle back noSeq) _) (Evaluated.pick (Evaluated.judged (h.openNow hr _ back _) _)
      (Evaluated.pick (Evaluated.judged (h.setOutlet _ (by simp)) _) h))
  case vent => exact Evaluated.pick (Evaluated.judged ((h.violate hr.toOwnRoom cVent _).openNow hr cVent back noSeq) _) h

theorem Evaluated.judgeProx : Evaluated k s (t.judgeProx k).1 := by
  have hr := evalRoom hk
  unfold State.judgeProx
  extract_lets b x u
  split
  · have hu : Evaluated k s u := (h.putOwn hk (F.BAYK_VIOL_RETRIES k) 0 (by simp only [F.BAYK_VIOL_RETRIES]; omega)).putOwn hk
      (F.BAYK_STATE_LATCHED k) 0 (by simp only [F.BAYK_STATE_LATCHED]; omega)
    exact Evaluated.judged ((hu.setPilot _ (by simp)).enter hr stIdle cNone noSeq (by simp)) _
  split
  · exact Evaluated.judged (h.hardViolation hr cProx _) _
  split
  · exact Evaluated.judged (h.hardViolation hr cLock _) _
  · exact h

theorem Evaluated.judgeMeter : Evaluated k s (t.judgeMeter k).1 := by
  have hr := evalRoom hk
  unfold State.judgeMeter
  extract_lets b x enough auth u
  split
  · exact Evaluated.judged ((h.setOutlet _ (by simp)).hardViolation hr cGross _) _
  split
  · exact Evaluated.judged (h.openNow hr _ _ _) _
  split
  · exact Evaluated.judged ((h.setPilot _ (by simp)).enter hr stCharging cLmg noSeq (by simp)) _
  split
  · exact Evaluated.judged (h.withdraw hr cLmg noSeq false true) _
  split
  · exact Evaluated.judged (h.openNow hr cLmg _ noSeq) _
  split
  · exact Evaluated.judged ((h.setPilot _ (by simp)).enter hr stConnected cLmg noSeq (by simp)) _
  split
  · exact Evaluated.judged ((h.setPilot _ (by simp)).enter hr stConnected cHost noSeq (by simp)) _
  split
  · exact Evaluated.judged (((h.setOutlet _ (by simp)).setPilot _ (by simp)).enter hr stOffering _ noSeq (by simp)) _
  · exact h

/-- The first input that causes a transition decides; each stays within the bounds. -/
theorem Evaluated.judge : Evaluated k s (t.judge k) := by
  have hstep (f : State → Nat → Judged) (hf : ∀ u, Evaluated k s u → Evaluated k s (f u k).1) (r : Judged) (hr : Evaluated k s r.1) :
      Evaluated k s (if r.2 then r else f r.1 k).1 := by
    split
    · exact hr
    · exact hf _ hr
  exact hstep _ (fun u hu => hu.judgeMeter hk) _ (hstep _ (fun u hu => hu.judgeProx hk) _ (hstep _ (fun u hu => hu.judgeClass hk) _
    (hstep _ (fun u hu => hu.judgeMirror hk) _ (hstep _ (fun u hu => hu.judgeHolds hk) (t, false) h))))

theorem Evaluated.setAllow (v : Nat) : Evaluated k s (t.setAllow k v) := by
  have hput := h.putOwn hk (F.BAYK_ALLOW_MA k) v (by simp only [F.BAYK_ALLOW_MA]; omega)
  exact (hput.setOutlet _ (by simp)).ite hput

theorem Evaluated.upkeep : Evaluated k s (t.upkeep k) := by
  unfold State.upkeep
  extract_lets a u b p v o w x idle
  have hu : Evaluated k s u := h.putOwn hk (F.BAYK_ALLOW_BIND k) _ (by simp only [F.BAYK_ALLOW_BIND]; omega)
  have hv : Evaluated k s v := (hu.setAllow hk _).ite hu
  have hw : Evaluated k s w := ((hv.setOutlet _ (by simp)).ite (hv.setPilot _ (by simp))).ite hu
  exact (hw.setOutlet _ (by simp)).ite (((hw.setOutlet _ (by simp)).setOutlet _ (by simp)).ite hw)

theorem Evaluated.tellSes (old : Nat) (hadA hadNone : Bool) : Evaluated k s (t.tellSes k old hadA hadNone) := by
  unfold State.tellSes
  extract_lets u v
  have hu : Evaluated k s u := h.follow (t.sesBay_followed hk old) (evalRoom hk).toOwnRoom (evalSesRoom hk) (by simp) (by simp)
  have hv : Evaluated k s v := (hu.sesGone (evalRoom hk) (evalSesRoom hk) true (by simp) (by simp)).ite hu
  exact (hv.sesGone (evalRoom hk) (evalSesRoom hk) false (by simp) (by simp)).ite hv

end

-- OUTLET_EVALUATION (R286)

/-- The readings an evaluation judges. -/
def State.readings (s : State) (k : Nat) : State := ((s.confirmClass k).readPp k).readCycle k

theorem State.readings_within (s : State) {k : Nat} (hk : k < 12) : Evaluated k s (s.readings k) :=
  (Evaluated.readPp hk (Evaluated.confirmClass hk (Confined.refl k s _ _ _))).readCycle

theorem exec_outletEvaluation (s : State) (k : Fin 12) (h : s.runs = true) (hon : s.bayOn k = true) :
    exec (.outletEvaluation k) s = done ((((s.readings k).judge k).upkeep k).tellSes k (s.bay k) (decide (s.cls k = some 0))
      (s.noCable k && !(s.outlet k).ppNew)) := by
  rw [show exec (.outletEvaluation k) s = execOutletEvaluation k s from rfl, execOutletEvaluation, State.onFabric_runs _ _ h]
  exact if_neg (by simp [hon])

theorem exec_outletEvaluation_within (s : State) (k : Fin 12) (h : s.runs = true) (hon : s.bayOn k = true) :
    Ends (exec (.outletEvaluation k) s) fun t =>
      (∀ j, j ≠ k.val → t.outlet j = s.outlet j) ∧ Keeps s t (onPages [0x16, 0x17, 0x19, 0x30 + k.val]) [2, 3 + k.val] [.outlets, .rcm, .se, .fresh] := by
  have hwhole := Evaluated.tellSes k.isLt (Evaluated.upkeep k.isLt (Evaluated.judge k.isLt (s.readings_within k.isLt))) (s.bay k) (decide (s.cls k = some 0))
    (s.noCable k && !(s.outlet k).ppNew)
  exact ⟨_, exec_outletEvaluation s k h hon, fun j hj => (State.settle_outlet _ j).trans (hwhole.others j hj), hwhole.keeps.settle⟩

theorem exec_outletEvaluation_off (s : State) (k : Fin 12) (h : s.runs = true) (hoff : s.bayOn k = false) :
    Ends (exec (.outletEvaluation k) s) fun t => Keeps s t (among []) [] [] := by
  refine ⟨s.settle, ?_, (Keeps.refl s _ _ _).settle⟩
  rw [show exec (.outletEvaluation k) s = execOutletEvaluation k s from rfl, execOutletEvaluation, State.onFabric_runs _ _ h]
  exact if_pos (by simp [hoff])

-- The readings (R282, R284, R304)

/-- What a reading keeps of an outlet: its drive, its mirror, and the opening it waits for. -/
structure DriveKept (x y : Outlet) : Prop where
  conM : y.conM = x.conM
  conA : y.conA = x.conA
  alarmHold : y.alarmHold = x.alarmHold
  mirOpen : y.mirOpen = x.mirOpen
  awaitOpen : y.awaitOpen = x.awaitOpen
  openCause : y.openCause = x.openCause

theorem DriveKept.refl (x : Outlet) : DriveKept x x := ⟨rfl, rfl, rfl, rfl, rfl, rfl⟩

theorem DriveKept.trans {x y z : Outlet} (h : DriveKept x y) (h' : DriveKept y z) : DriveKept x z :=
  ⟨h'.conM.trans h.conM, h'.conA.trans h.conA, h'.alarmHold.trans h.alarmHold, h'.mirOpen.trans h.mirOpen, h'.awaitOpen.trans h.awaitOpen,
    h'.openCause.trans h.openCause⟩

/-- `t` is `s` with readings taken: of STATE only AUTHORISED may have moved. -/
structure Read (k : Nat) (s t : State) : Prop where
  keeps : Keeps s t (onPages [0x30 + k]) [3 + k] [.outlets]
  state : ∀ f : Fld, f.addr = (F.BAYK_STATE_CODE k).addr → f.lsb + f.wid ≤ 24 ∨ 25 ≤ f.lsb → t.get f = s.get f
  drive : DriveKept (s.outlet k) (t.outlet k)

theorem Read.refl (k : Nat) (s : State) : Read k s s := ⟨Keeps.refl s _ _ _, fun _ _ _ => rfl, DriveKept.refl _⟩

section
variable {k : Nat} {s t : State} (h : Read k s t)
include h

theorem Read.setOutlet (x : Outlet) (hx : DriveKept (t.outlet k) x) : Read k s (t.setOutlet k x) :=
  { keeps := h.keeps.setOutlet k x (by simp), state := h.state, drive := by rw [State.setOutlet_outlet_same]; exact h.drive.trans hx }

theorem Read.put (f : Fld) (v : Nat) (hpage : f.addr / 4096 = 0x30 + k) (hf : f.addr ≠ (F.BAYK_STATE_CODE k).addr) : Read k s (t.put f v) :=
  { keeps := h.keeps.put f v (.inl (by simp [hpage]))
    state := fun g hg hb => (State.put_get_other t f g v (by rw [hg]; exact hf.symm)).trans (h.state g hg hb)
    drive := h.drive }

theorem Read.clearAuth : Read k s (t.put (F.BAYK_STATE_AUTHORISED k) 0) :=
  { keeps := h.keeps.put _ _ (.inl (by simp only [F.BAYK_STATE_AUTHORISED, List.mem_singleton]; omega))
    state := fun g hg hb => (State.put_get_apart t _ g 0 (by simp [F.BAYK_STATE_AUTHORISED])
      (.inr (by simp only [F.BAYK_STATE_AUTHORISED]; omega))).trans (h.state g hg hb)
    drive := h.drive }

theorem Read.bayEventAt (typ old new cause detail period value seq : Nat) :
    Read k s (t.bayEventAt k typ old new cause detail period value seq).1 :=
  { keeps := h.keeps.trans ((t.bayEventAt_keeps k typ old new cause detail period value seq).mono
      (fun a ha => ha.imp_left fun hpage => by simp [hpage.1]) (fun _ he => he) (by simp))
    state := fun g hg hb => (t.bayEventAt_get k typ old new cause detail period value seq g (by
      rw [hg]; simp only [F.BAYK_STATE_CODE]; omega)).trans (h.state g hg hb)
    drive := by rw [State.bayEventAt_outlet]; exact h.drive }

theorem Read.classRead : Read k s (t.classRead k) := by
  unfold State.classRead
  extract_lets x c old u
  have hu : Read k s u := Read.put (h.setOutlet (t.classKnown k) ⟨rfl, rfl, rfl, rfl, rfl, rfl⟩) (F.BAYK_PILOT_CLASS k) c
    (by simp only [F.BAYK_PILOT_CLASS]; omega) (by simp only [F.BAYK_PILOT_CLASS, F.BAYK_STATE_CODE]; omega)
  split
  · split
    · exact hu
    · exact hu.bayEventAt _ _ _ _ _ _ _ _
  · exact h

theorem Read.clearRetries : Read k s (t.put (F.BAYK_VIOL_RETRIES k) 0) :=
  h.put _ 0 (by simp only [F.BAYK_VIOL_RETRIES]; omega) (by simp only [F.BAYK_VIOL_RETRIES, F.BAYK_STATE_CODE]; omega)

theorem Read.confirmClass : Read k s (t.confirmClass k) := by
  rw [State.confirmClass_eq]
  split
  · exact h.classRead.clearAuth.clearRetries
  · exact h.classRead

theorem Read.readCycle : Read k s (t.readCycle k) := by
  unfold State.readCycle
  extract_lets x cyc i after
  split
  · exact h.setOutlet _ ⟨rfl, rfl, rfl, rfl, rfl, rfl⟩
  · exact h.setOutlet _ ⟨rfl, rfl, rfl, rfl, rfl, rfl⟩

end

/-- The proximity event, before what a confirmed no cable clears. -/
def State.ppRead (s : State) (k : Nat) : State :=
  if (s.outlet k).ppNew then
    (s.setOutlet k { s.outlet k with ppNew := false }).note k 0x45 cNone (s.get (F.BAYK_PP_CAP k)) (s.get (F.BAYK_PP_OHM k)) noSeq
  else s

theorem State.readPp_eq (s : State) (k : Nat) :
    s.readPp k = if (s.ppRead k).noCable k then
      if ((s.ppRead k).put (F.BAYK_STATE_AUTHORISED k) 0).bay k = stFaultF then (s.ppRead k).put (F.BAYK_STATE_AUTHORISED k) 0
      else ((s.ppRead k).put (F.BAYK_STATE_AUTHORISED k) 0).put (F.BAYK_VIOL_RETRIES k) 0
    else s.ppRead k := rfl

theorem Read.readPp {k : Nat} {s t : State} (h : Read k s t) : Read k s (t.readPp k) := by
  have hpp : Read k s (t.ppRead k) := by
    unfold State.ppRead
    split
    · exact Read.bayEventAt (h.setOutlet { t.outlet k with ppNew := false } ⟨rfl, rfl, rfl, rfl, rfl, rfl⟩) _ _ _ _ _ _ _ _
    · exact h
  rw [State.readPp_eq]
  split
  · split
    · exact hpp.clearAuth
    · exact hpp.clearAuth.clearRetries
  · exact hpp

theorem State.readings_read (s : State) (k : Nat) : Read k s (s.readings k) := (Read.refl k s).confirmClass.readPp.readCycle

-- Class A and no cable (R289, R305)

/-- `t` reads the class and the cable as `s` does, and authorises nothing new. -/
structure ClassKept (k : Nat) (s t : State) : Prop where
  cls : t.cls k = s.cls k
  noCable : t.noCable k = s.noCable k
  unauthorised : s.on (F.BAYK_STATE_AUTHORISED k) = false → t.on (F.BAYK_STATE_AUTHORISED k) = false

theorem ClassKept.refl (k : Nat) (s : State) : ClassKept k s s := ⟨rfl, rfl, id⟩

section
variable {k : Nat} {s t u : State} (h : ClassKept k s t)
include h

theorem ClassKept.trans (h' : ClassKept k t u) : ClassKept k s u :=
  ⟨h'.cls.trans h.cls, h'.noCable.trans h.noCable, fun hoff => h'.unauthorised (h.unauthorised hoff)⟩

theorem ClassKept.setOutlet (x : Outlet) (hknown : x.known = (t.outlet k).known) (hfresh : x.fresh = (t.outlet k).fresh)
    (hpp : x.ppKnown = (t.outlet k).ppKnown) : ClassKept k s (t.setOutlet k x) :=
  h.trans
    { cls := by rw [State.cls, State.cls, State.setOutlet_outlet_same, hknown, hfresh, State.setOutlet_get]
      noCable := by rw [State.noCable, State.noCable, State.setOutlet_outlet_same, hpp, State.setOutlet_get, State.setOutlet_on]
      unauthorised := id }

/-- A step that leaves the outlet's own state and the registers read here. -/
theorem ClassKept.step (hget : ∀ f : Fld, f = F.BAYK_PILOT_CLASS k ∨ f = F.BAYK_CFG_PP_MODE k ∨ f = F.BAYK_PP_CAP k → u.get f = t.get f)
    (hout : u.outlet k = t.outlet k) (hauth : t.on (F.BAYK_STATE_AUTHORISED k) = false → u.on (F.BAYK_STATE_AUTHORISED k) = false) : ClassKept k s u :=
  h.trans
    { cls := by rw [State.cls, State.cls, hout, hget _ (.inl rfl)]
      noCable := by rw [State.noCable, State.noCable, hout, State.on, State.on, hget _ (.inr (.inl rfl)), hget _ (.inr (.inr rfl))]
      unauthorised := hauth }

theorem ClassKept.bayEventAt (typ old new cause detail period value seq : Nat) :
    ClassKept k s (t.bayEventAt k typ old new cause detail period value seq).1 := by
  have hget (f : Fld) (hf : 0x100 ≤ f.addr % 4096) : (t.bayEventAt k typ old new cause detail period value seq).1.get f = t.get f :=
    t.bayEventAt_get k typ old new cause detail period value seq f (by omega)
  refine h.step (fun f hf => hget f ?_) (t.bayEventAt_outlet _ _ _ _ _ _ _ _ _ _) fun hoff => ?_
  · rcases hf with rfl | rfl | rfl
    · simp only [F.BAYK_PILOT_CLASS]; omega
    · simp only [F.BAYK_CFG_PP_MODE]; omega
    · simp only [F.BAYK_PP_CAP]; omega
  · rw [State.on, hget _ (by simp only [F.BAYK_STATE_AUTHORISED]; omega)]
    exact hoff

theorem ClassKept.enter' (hk : k < 12) (new cause target seq : Nat) : ClassKept k s (t.enter' k new cause target seq).1 := by
  have henter := t.enter'_entered hk new cause target seq
  refine h.step (fun f hf => henter.keeps.get f ?_) (t.enter'_outlet _ _ _ _ _ _) fun hoff => henter.unauthorised (.inl hoff)
  rcases hf with rfl | rfl | rfl
  · simp only [enterRegs, F.BAYK_PILOT_CLASS, F.BAYK_STATE_CODE, A.BAYK_VIOL]; omega
  · simp only [enterRegs, F.BAYK_CFG_PP_MODE, F.BAYK_STATE_CODE, A.BAYK_VIOL]; omega
  · simp only [enterRegs, F.BAYK_PP_CAP, F.BAYK_STATE_CODE, A.BAYK_VIOL]; omega

theorem ClassKept.put (f : Fld) (v : Nat) (hf : f.addr = A.BAYK_VIOL k ∨ f.addr = (F.BAYK_ALLOW_MA k).addr) : ClassKept k s (t.put f v) := by
  have haddr : f.addr = 0x30144 + 4096 * k ∨ f.addr = 0x3012C + 4096 * k := hf
  refine h.step (fun g hg => State.put_get_other t f g v ?_) rfl fun hoff => ?_
  · rcases hg with rfl | rfl | rfl
    · simp only [F.BAYK_PILOT_CLASS]; omega
    · simp only [F.BAYK_CFG_PP_MODE]; omega
    · simp only [F.BAYK_PP_CAP]; omega
  · rw [State.on, State.put_get_other t f _ v (by simp only [F.BAYK_STATE_AUTHORISED]; omega)]
    exact hoff

theorem ClassKept.clearAuth : ClassKept k s (t.put (F.BAYK_STATE_AUTHORISED k) 0) := by
  refine h.step (fun g hg => State.put_get_other t _ g 0 ?_) rfl fun _ => State.put_on_bool t _ false rfl (by simp [F.BAYK_STATE_AUTHORISED])
  rcases hg with rfl | rfl | rfl
  · simp only [F.BAYK_PILOT_CLASS, F.BAYK_STATE_AUTHORISED]; omega
  · simp only [F.BAYK_CFG_PP_MODE, F.BAYK_STATE_AUTHORISED]; omega
  · simp only [F.BAYK_PP_CAP, F.BAYK_STATE_AUTHORISED]; omega

theorem ClassKept.readPp : ClassKept k s (t.readPp k) := by
  have hpp : ClassKept k s (t.ppRead k) := by
    unfold State.ppRead
    split
    · exact ClassKept.bayEventAt (h.setOutlet { t.outlet k with ppNew := false } rfl rfl rfl) _ _ _ _ _ _ _ _
    · exact h
  rw [State.readPp_eq]
  split
  · split
    · exact hpp.clearAuth
    · exact hpp.clearAuth.put _ 0 (.inl rfl)
  · exact hpp

theorem ClassKept.readCycle : ClassKept k s (t.readCycle k) := by
  unfold State.readCycle
  extract_lets x cyc i after
  split
  · exact h.setOutlet _ rfl rfl rfl
  · exact h.setOutlet _ rfl rfl rfl

end

theorem State.put_auth_off (s : State) (k : Nat) : (s.put (F.BAYK_STATE_AUTHORISED k) 0).on (F.BAYK_STATE_AUTHORISED k) = false :=
  State.put_on_bool s _ false rfl (by simp [F.BAYK_STATE_AUTHORISED])

/-- A confirmed class A ends the authorisation. -/
theorem State.confirmClass_unauthorised (s : State) (k : Nat) (h : (s.confirmClass k).cls k = some 0) :
    (s.confirmClass k).on (F.BAYK_STATE_AUTHORISED k) = false := by
  rw [State.confirmClass_eq] at h ⊢
  split at h
  · next hA =>
    rw [if_pos hA]
    exact (ClassKept.refl k _).put (F.BAYK_VIOL_RETRIES k) 0 (.inl rfl) |>.unauthorised (State.put_auth_off _ k)
  · next hA => exact absurd h hA

/-- So does no cable. -/
theorem State.readPp_unauthorised (s : State) (k : Nat) (h : (s.readPp k).noCable k = true) : (s.readPp k).on (F.BAYK_STATE_AUTHORISED k) = false := by
  rw [State.readPp_eq] at h ⊢
  split at h
  · next hnone =>
    rw [if_pos hnone]
    split
    · exact State.put_auth_off _ k
    · exact (ClassKept.refl k _).put (F.BAYK_VIOL_RETRIES k) 0 (.inl rfl) |>.unauthorised (State.put_auth_off _ k)
  · next hnone => exact absurd h hnone

theorem State.readings_unauthorised (s : State) (k : Nat) (h : (s.readings k).cls k = some 0 ∨ (s.readings k).noCable k = true) :
    (s.readings k).on (F.BAYK_STATE_AUTHORISED k) = false := by
  have hpp := (ClassKept.refl k (s.confirmClass k)).readPp
  have hcycle := (ClassKept.refl k ((s.confirmClass k).readPp k)).readCycle
  rw [State.readings, hcycle.cls, hcycle.noCable] at h
  refine hcycle.unauthorised ?_
  rcases h with hA | hnone
  · exact hpp.unauthorised (s.confirmClass_unauthorised k (hpp.cls.symm.trans hA))
  · exact State.readPp_unauthorised _ k hnone

-- What follows the judgement (R277, R301, R344, R345)

/-- `t` is `s` but for ALLOW, the pilot set next, the grace and the lock. -/
structure Upkept (k : Nat) (s t : State) : Prop where
  keeps : Keeps s t (among [(F.BAYK_ALLOW_MA k).addr]) [] [.outlets]
  drive : DriveKept (s.outlet k) (t.outlet k)
  cls : ClassKept k s t

theorem Upkept.setOutlet {k : Nat} {s t : State} (h : Upkept k s t) (x : Outlet) (hx : DriveKept (t.outlet k) x) (hknown : x.known = (t.outlet k).known)
    (hfresh : x.fresh = (t.outlet k).fresh) (hpp : x.ppKnown = (t.outlet k).ppKnown) : Upkept k s (t.setOutlet k x) :=
  { keeps := h.keeps.setOutlet k x (by simp), drive := by rw [State.setOutlet_outlet_same]; exact h.drive.trans hx
    cls := h.cls.setOutlet x hknown hfresh hpp }

theorem Upkept.putAllow {k : Nat} {s t : State} (h : Upkept k s t) (f : Fld) (v : Nat) (hf : f.addr = (F.BAYK_ALLOW_MA k).addr) : Upkept k s (t.put f v) :=
  { keeps := h.keeps.put f v (by simp [hf]), drive := h.drive, cls := h.cls.put f v (.inr hf) }

theorem State.upkeep_upkept (s : State) (k : Nat) : Upkept k s (s.upkeep k) := by
  unfold State.upkeep
  extract_lets a u b p v o w x idle
  have hu : Upkept k s u := Upkept.putAllow ⟨Keeps.refl s _ _ _, DriveKept.refl _, ClassKept.refl k s⟩ _ _ rfl
  have hv : Upkept k s v := by
    simp only [v]
    split
    · have hput := hu.putAllow (F.BAYK_ALLOW_MA k) a.1 rfl
      unfold State.setAllow
      extract_lets old y
      split
      · exact hput.setOutlet _ ⟨rfl, rfl, rfl, rfl, rfl, rfl⟩ rfl rfl rfl
      · exact hput
    · exact hu
  have hw : Upkept k s w := by
    simp only [w]
    split
    · split
      · exact hv.setOutlet _ ⟨rfl, rfl, rfl, rfl, rfl, rfl⟩ rfl rfl rfl
      · exact hv.setOutlet _ ⟨rfl, rfl, rfl, rfl, rfl, rfl⟩ rfl rfl rfl
    · exact hu
  split
  · exact hw.setOutlet _ ⟨rfl, rfl, rfl, rfl, rfl, rfl⟩ rfl rfl rfl
  split
  · have hdone := hw.setOutlet { x with unlockDue := false } ⟨rfl, rfl, rfl, rfl, rfl, rfl⟩ rfl rfl rfl
    exact hdone.setOutlet _ ⟨rfl, rfl, rfl, rfl, rfl, rfl⟩ rfl rfl rfl
  · exact hw

theorem State.endReferral_keeps (s : State) {k : Nat} (hk : k < 12) :
    Keeps s (s.endReferral k none) (fun a => a / 4096 = 0x19 ∨ lostRegs a) [3 + k] [.se, .fresh] := by
  have hidle : Keeps s ((s.setSession k { s.session k with referral := none }).setSes k sesIdle) (fun a => a / 4096 = 0x19 ∨ lostRegs a) [3 + k]
      [.se, .fresh] := (((Confined.refl k s _ _ _).setSession _ (by simp)).setSes (sesRoom_ses hk _ (by simp)) sesIdle).keeps
  unfold State.endReferral
  extract_lets x u
  split
  · exact (hidle.emit _ _ _ _ _ (by simp) fun _ ha => .inr ha).took (by simp)
  · exact hidle

/-- Class A or no cable ends a session whose outlet is in no state that STOP acts on, or is not authorised. -/
theorem State.sesGone_followed (s : State) {k : Nat} (hk : k < 12) (classA : Bool)
    (hidle : s.on (F.BAYK_STATE_AUTHORISED k) = true → s.bay k ∉ stopStates) : Followed k s (s.sesGone k classA) [.se, .fresh] := by
  unfold State.sesGone
  split
  · split
    · exact (Followed.refl k s _).ses (s.endReferral_keeps hk)
    · exact Followed.refl k s _
  · exact (Followed.refl k s _).sesStop hk (by simp) 0x02 hidle

theorem State.sesGone_unauthorised (s : State) {k : Nat} (hk : k < 12) (classA : Bool) (h : s.on (F.BAYK_STATE_AUTHORISED k) = false) :
    (s.sesGone k classA).on (F.BAYK_STATE_AUTHORISED k) = false := by
  unfold State.sesGone
  split
  · split
    · rw [(s.endReferral_keeps hk).on _ (by simp only [F.BAYK_STATE_AUTHORISED]; omega), h]
    · exact h
  · exact s.sesStop_unauthorised hk 0x02 h

theorem Followed.cls {k : Nat} {s t : State} {P : List Part} (h : Followed k s t P) (hp : Part.outlets ∉ P) : t.cls k = s.cls k := by
  rw [State.cls, State.cls, h.outlet hp, h.get _ (by simp only [sesRegs, F.BAYK_PILOT_CLASS, F.BAYK_STATE_AUTHORISED]; omega)]

theorem Followed.noCable {k : Nat} {s t : State} {P : List Part} (h : Followed k s t P) (hp : Part.outlets ∉ P) : t.noCable k = s.noCable k := by
  rw [State.noCable, State.noCable, h.outlet hp, State.on, State.on,
    h.get _ (by simp only [sesRegs, F.BAYK_CFG_PP_MODE, F.BAYK_STATE_AUTHORISED]; omega),
    h.get _ (by simp only [sesRegs, F.BAYK_PP_CAP, F.BAYK_STATE_AUTHORISED]; omega)]

/-- `t` is `s` with the session following its outlet, and nothing authorised but in CONNECTED. -/
structure Told (k : Nat) (s t : State) : Prop where
  follow : Followed k s t [.se, .fresh]
  unauthorised : s.on (F.BAYK_STATE_AUTHORISED k) = false → s.bay k ≠ stConnected → t.on (F.BAYK_STATE_AUTHORISED k) = false

theorem Told.gone {k : Nat} {s t : State} (h : Told k s t) (hk : k < 12) (classA : Bool)
    (hstop : s.bay k ∈ stopStates → s.on (F.BAYK_STATE_AUTHORISED k) = false) : Told k s (t.sesGone k classA) := by
  refine ⟨h.follow.trans (t.sesGone_followed hk classA fun hon hin => ?_), fun hoff hbay => t.sesGone_unauthorised hk classA (h.unauthorised hoff hbay)⟩
  rw [h.follow.bay] at hin
  have hbay : s.bay k ≠ stConnected := fun heq => absurd (heq ▸ hin) (by decide)
  exact absurd (hon.symm.trans (h.unauthorised (hstop hin) hbay)) (by decide)

theorem State.tellSes_told (s : State) {k : Nat} (hk : k < 12) (old : Nat) (hadA hadNone : Bool)
    (hstop : s.cls k = some 0 ∨ s.noCable k = true → s.bay k ∈ stopStates → s.on (F.BAYK_STATE_AUTHORISED k) = false) :
    Told k s (s.tellSes k old hadA hadNone) := by
  unfold State.tellSes
  extract_lets u v
  have hu : Told k s u := ⟨(s.sesBay_followed hk old).mono (by simp), fun hoff hbay => s.sesBay_unauthorised hk old hoff (.inl hbay)⟩
  have hv : Told k s v := by
    simp only [v]
    split
    · next hA => exact hu.gone hk true (hstop (.inl (by rw [← hu.follow.cls (by simp)]; exact hA.1)))
    · exact hu
  split
  · next hnone => exact hv.gone hk false (hstop (.inr (by rw [← hv.follow.noCable (by simp)]; simp only [Bool.and_eq_true] at hnone; exact hnone.1)))
  · exact hv

/-- What an evaluation ends in, where the judgement ends in `s`. -/
structure Concluded (k : Nat) (s t : State) : Prop where
  keeps : Keeps s t (fun a => sesRegs k a ∨ a = (F.BAYK_ALLOW_MA k).addr) [3 + k] [.outlets, .se, .fresh]
  state : ∀ f : Fld, f.addr = (F.BAYK_STATE_CODE k).addr → f.lsb + f.wid ≤ 24 ∨ 25 ≤ f.lsb → t.get f = s.get f
  drive : DriveKept (s.outlet k) (t.outlet k)
  unauthorised : s.on (F.BAYK_STATE_AUTHORISED k) = false → s.bay k ≠ stConnected → t.on (F.BAYK_STATE_AUTHORISED k) = false

theorem Upkept.get {k : Nat} {s t : State} (h : Upkept k s t) (f : Fld) (hf : f.addr ≠ 0x3012C + 4096 * k) : t.get f = s.get f :=
  h.keeps.get f (by simpa [F.BAYK_ALLOW_MA] using hf)

theorem exec_outletEvaluation_concluded (s : State) (k : Fin 12) (h : s.runs = true) (hon : s.bayOn k = true) {u : State}
    (hu : (s.readings k).judge k = u)
    (hstop : u.cls k = some 0 ∨ u.noCable k = true → u.bay k ∈ stopStates → u.on (F.BAYK_STATE_AUTHORISED k) = false) :
    Ends (exec (.outletEvaluation k) s) fun t => Concluded k u t := by
  have hkept := u.upkeep_upkept k
  have hbay : (u.upkeep k).bay k = u.bay k := hkept.get _ (by simp only [F.BAYK_STATE_CODE]; omega)
  have htold := (u.upkeep k).tellSes_told k.isLt (s.bay k) (decide (s.cls k = some 0)) (s.noCable k && !(s.outlet k).ppNew) fun hgone hin => by
    rw [hkept.cls.cls, hkept.cls.noCable] at hgone
    exact hkept.cls.unauthorised (hstop hgone (hbay ▸ hin))
  refine ⟨_, exec_outletEvaluation s k h hon, ?_⟩
  rw [hu]
  refine { keeps := ?_, state := fun f hf hb => ?_, drive := ?_, unauthorised := fun hoff hne => ?_ }
  · exact ((hkept.keeps.mono (fun a ha => .inr (by simpa using ha)) (by simp) (by simp)).trans
      (htold.follow.keeps.mono (fun _ ha => .inl ha) (fun _ he => he) (by simp))).settle
  · rw [State.settle_get, htold.follow.state f hf hb, hkept.get f (by rw [hf]; simp only [F.BAYK_STATE_CODE]; omega)]
  · rw [State.settle_outlet, htold.follow.outlet (by simp)]
    exact hkept.drive
  · rw [State.settle_on]
    exact htold.unauthorised (hkept.cls.unauthorised hoff) (by rw [hbay]; exact hne)

-- The judgement (R286)

theorem State.judge_of_holds {s u : State} {k : Nat} (h : s.judgeHolds k = (u, true)) : s.judge k = u := by
  simp only [State.judge, List.foldl_cons, List.foldl_nil, Bool.false_eq_true, if_false, h, if_true]

theorem State.judge_of_mirror {s u : State} {k : Nat} (h : s.judgeHolds k = (s, false)) (hm : s.judgeMirror k = (u, true)) : s.judge k = u := by
  simp only [State.judge, List.foldl_cons, List.foldl_nil, Bool.false_eq_true, if_false, h, hm, if_true]

theorem State.judge_of_class {s u : State} {k : Nat} (h : s.judgeHolds k = (s, false)) (hm : s.judgeMirror k = (s, false))
    (hc : s.judgeClass k = (u, true)) : s.judge k = u := by
  simp only [State.judge, List.foldl_cons, List.foldl_nil, Bool.false_eq_true, if_false, h, hm, hc, if_true]

theorem State.judgeHolds_trip {s : State} {k : Nat} (hl : s.latched k = true) (hb : s.bay k ∉ [stDisabled, stService, stTripped, stWelded]) :
    ∃ x q, DriveKept (s.outlet k) x ∧ s.judgeHolds k = ((s.setOutlet k x).enterHard k stTripped cTrip q, true) := by
  simp only [List.mem_cons, List.not_mem_nil, or_false, not_or] at hb
  obtain ⟨hdisabled, hservice, htripped, hwelded⟩ := hb
  exact ⟨{ s.outlet k with tripDue := false }, _, ⟨rfl, rfl, rfl, rfl, rfl, rfl⟩,
    (if_neg (by simp [hdisabled, hservice])).trans (if_pos ⟨hl, htripped, .inl hwelded⟩)⟩

theorem State.judgeHolds_bench {s : State} {k : Nat} (hl : s.latched k = false) (hbench : s.boot.bench = true) (hb : s.bay k ∉ [stDisabled, stService]) :
    s.judgeHolds k = (s.enterHard k stService cBench noSeq, true) := by
  simp only [List.mem_cons, List.not_mem_nil, or_false] at hb
  exact (if_neg hb).trans ((if_neg (by simp [hl])).trans (if_pos hbench))

theorem State.judgeHolds_power {s : State} {k : Nat} (hl : s.latched k = false) (hbench : s.boot.bench = false) (hwarn : s.pf.warned = true)
    (hb : closedState (s.bay k) = true) :
    s.judgeHolds k = (((s.takeFault k cPower).setPilot k pilotLow).openNow k cPower stFaultF noSeq, true) := by
  have hactive : ¬ (s.bay k = stDisabled ∨ s.bay k = stService) := by
    rintro (heq | heq) <;> exact absurd (heq ▸ hb) (by decide)
  exact (if_neg hactive).trans ((if_neg (by simp [hl])).trans ((if_neg (by simp [hbench])).trans (if_pos ⟨hwarn, hb⟩)))

theorem State.judgeHolds_none {s : State} {k : Nat} (hl : s.latched k = false) (hbench : s.boot.bench = false)
    (hb : s.pf.warned = false ∨ closedState (s.bay k) = false) : s.judgeHolds k = (s, false) := by
  by_cases hactive : s.bay k = stDisabled ∨ s.bay k = stService
  · exact if_pos hactive
  · exact (if_neg hactive).trans ((if_neg (by simp [hl])).trans ((if_neg (by simp [hbench])).trans (if_neg fun hpower => by
      rcases hb with hb | hb
      · exact absurd (hpower.1.symm.trans hb) (by decide)
      · exact absurd (hpower.2.symm.trans hb) (by decide))))

section
variable {s : State} {k : Fin 12}

/-- The device's own holds read after the readings as before them. -/
theorem Read.parts {t : State} (h : Read k s t) : t.latched k = s.latched k ∧ t.boot = s.boot ∧ t.pf = s.pf ∧ t.rc k = s.rc k := by
  refine ⟨h.keeps.on _ (by simp only [onPages, List.mem_singleton, bitFld, A.RCM_LATCH]; omega), h.keeps.parts .boot (by simp),
    h.keeps.parts .pf (by simp), ?_⟩
  have hrcm : t.rcm = s.rcm := h.keeps.parts .rcm (by simp)
  simp only [State.rc, hrcm]

theorem Read.bay {t : State} (h : Read k s t) : t.bay k = s.bay k := h.state _ rfl (.inl (by simp [F.BAYK_STATE_CODE]))

theorem Concluded.bay {t : State} (h : Concluded k s t) : t.bay k = s.bay k := h.state _ rfl (.inl (by simp [F.BAYK_STATE_CODE]))

theorem Concluded.cause {t : State} (h : Concluded k s t) : t.get (F.BAYK_STATE_CAUSE k) = s.get (F.BAYK_STATE_CAUSE k) :=
  h.state _ rfl (.inl (by simp [F.BAYK_STATE_CAUSE]))

theorem exec_outletEvaluation_trip (h : s.runs = true) (hon : s.bayOn k = true) (hl : s.latched k = true)
    (hb : s.bay k ∉ [stDisabled, stService, stTripped, stWelded]) :
    Ends (exec (.outletEvaluation k) s) fun t =>
      t.bay k = stTripped ∧ t.get (F.BAYK_STATE_CAUSE k) = cTrip ∧ (t.outlet k).conM = false ∧ (t.outlet k).conA = false ∧ t.outHigh k = false
      ∧ t.on (F.BAYK_STATE_AUTHORISED k) = false := by
  have hread := s.readings_read k
  obtain ⟨hlatch, -⟩ := hread.parts
  obtain ⟨x, q, -, hjudge⟩ := State.judgeHolds_trip (hlatch.trans hl) (by rw [hread.bay]; exact hb)
  have henter := ((s.readings k).setOutlet k x).enterHard_entered k.isLt stTripped cTrip q
  obtain ⟨hm, ha, -⟩ := ((s.readings k).setOutlet k x).enterHard_outlet k stTripped cTrip q
  obtain ⟨t, ht, hend⟩ := exec_outletEvaluation_concluded s k h hon (State.judge_of_holds hjudge) fun _ hin => absurd (henter.code ▸ hin) (by decide)
  have hmt : (t.outlet k).conM = false := hend.drive.conM.trans hm
  have hat : (t.outlet k).conA = false := hend.drive.conA.trans ha
  refine ⟨t, ht, ?_, ?_, hmt, hat, t.outHigh_of_low k hmt hat, hend.unauthorised (henter.unauthorised (.inr (by simp [hardState])))
    (by rw [henter.code]; decide)⟩
  · rw [hend.bay, henter.code]; rfl
  · rw [hend.cause, henter.cause]; rfl

theorem exec_outletEvaluation_bench (h : s.runs = true) (hon : s.bayOn k = true) (hl : s.latched k = false) (hbench : s.boot.bench = true)
    (hb : s.bay k ∉ [stDisabled, stService]) :
    Ends (exec (.outletEvaluation k) s) fun t =>
      t.bay k = stService ∧ t.get (F.BAYK_STATE_CAUSE k) = cBench ∧ (t.outlet k).conM = false ∧ t.outHigh k = false := by
  have hread := s.readings_read k
  obtain ⟨hlatch, hboot, -⟩ := hread.parts
  have hjudge := State.judgeHolds_bench (hlatch.trans hl) (by rw [hboot]; exact hbench) (by rw [hread.bay]; exact hb)
  have henter := (s.readings k).enterHard_entered k.isLt stService cBench noSeq
  obtain ⟨hm, ha, -⟩ := (s.readings k).enterHard_outlet k stService cBench noSeq
  obtain ⟨t, ht, hend⟩ := exec_outletEvaluation_concluded s k h hon (State.judge_of_holds hjudge) fun _ hin => absurd (henter.code ▸ hin) (by decide)
  have hmt : (t.outlet k).conM = false := hend.drive.conM.trans hm
  refine ⟨t, ht, ?_, ?_, hmt, t.outHigh_of_low k hmt (hend.drive.conA.trans ha)⟩
  · rw [hend.bay, henter.code]; rfl
  · rw [hend.cause, henter.cause]; rfl

theorem exec_outletEvaluation_power (h : s.runs = true) (hon : s.bayOn k = true) (hl : s.latched k = false) (hbench : s.boot.bench = false)
    (hwarn : s.pf.warned = true) (hb : closedState (s.bay k) = true) :
    Ends (exec (.outletEvaluation k) s) fun t =>
      t.bay k = stOpening ∧ t.get (F.BAYK_STATE_TARGET k) = stFaultF ∧ t.get (F.BAYK_STATE_CAUSE k) = cPower ∧ (t.outlet k).conM = false := by
  have hread := s.readings_read k
  obtain ⟨hlatch, hboot, hpf, -⟩ := hread.parts
  have hjudge := State.judgeHolds_power (hlatch.trans hl) (by rw [hboot]; exact hbench) (by rw [hpf]; exact hwarn) (by rw [hread.bay]; exact hb)
  have henter := (((s.readings k).takeFault k cPower).setPilot k pilotLow).openNow_entered k.isLt cPower stFaultF noSeq
  obtain ⟨hm, -⟩ := (((s.readings k).takeFault k cPower).setPilot k pilotLow).openNow_outlet k cPower stFaultF noSeq
  obtain ⟨t, ht, hend⟩ := exec_outletEvaluation_concluded s k h hon (State.judge_of_holds hjudge) fun _ hin => absurd (henter.code ▸ hin) (by decide)
  refine ⟨t, ht, ?_, ?_, ?_, hend.drive.conM.trans hm⟩
  · rw [hend.bay, henter.code]; rfl
  · rw [hend.state (F.BAYK_STATE_TARGET k) rfl (.inl (by simp [F.BAYK_STATE_TARGET])), henter.target]; rfl
  · rw [hend.cause, henter.cause]; rfl

/-- Where the judgement keeps class and cable, a class A or no cable has ended the authorisation. -/
theorem ClassKept.stops {u : State} (h : ClassKept k (s.readings k) u) (hgone : u.cls k = some 0 ∨ u.noCable k = true) :
    u.on (F.BAYK_STATE_AUTHORISED k) = false :=
  h.unauthorised (s.readings_unauthorised k (by rw [← h.cls, ← h.noCable]; exact hgone))

-- CLOSING ends in CHARGING (R289)

theorem State.openNote_get (s : State) (k : Nat) (f : Fld) (hf : 0x100 ≤ f.addr % 4096) : (s.openNote k).get f = s.get f := by
  unfold State.openNote
  extract_lets x u
  split
  · rw [State.setOutlet_get]
    exact s.note_get k 0x43 x.openCause 0 x.mirUs x.seq f (by omega)
  · rfl

theorem ClassKept.openNote (s : State) (k : Nat) : ClassKept k s (s.openNote k) := by
  unfold State.openNote
  extract_lets x u
  split
  · exact ((ClassKept.refl k s).bayEventAt _ _ _ _ _ _ _ _).setOutlet _ rfl rfl rfl
  · exact ClassKept.refl k s

theorem State.openNote_outlet (s : State) (k : Nat) : ((s.openNote k).outlet k).conM = (s.outlet k).conM
    ∧ ((s.openNote k).outlet k).conA = (s.outlet k).conA ∧ ((s.openNote k).outlet k).openCause = (s.outlet k).openCause := by
  unfold State.openNote
  extract_lets x u
  have hu : u.outlet k = s.outlet k := s.note_outlet k _ _ _ _ _ k
  split
  · rw [State.setOutlet_outlet_same]
    exact ⟨(congrArg Outlet.conM hu :), (congrArg Outlet.conA hu :), (congrArg Outlet.openCause hu :)⟩
  · exact ⟨rfl, rfl, rfl⟩

theorem State.openNote_awaitOpen (s : State) (k : Nat) (hawait : (s.outlet k).awaitOpen = true) (hmirror : (s.outlet k).mirOpen = true) :
    ((s.openNote k).outlet k).awaitOpen = false := by
  unfold State.openNote
  rw [if_pos (by simp [hawait, hmirror]), State.setOutlet_outlet_same]

theorem State.judgeMirror_closed {s : State} {k : Nat} (hbay : s.bay k = stClosing) (hclosed : s.on (F.BAYK_STATE_CLOSED k) = true) :
    ∃ c v, s.judgeMirror k = ((((s.openNote k).note k 0x43 c 1 v noSeq).enter' k stCharging cNone 0 noSeq).1, true) := by
  have hb : (s.openNote k).bay k = stClosing := (s.openNote_get k _ (by simp only [F.BAYK_STATE_CODE]; omega)).trans hbay
  have hc : (s.openNote k).on (F.BAYK_STATE_CLOSED k) = true := by
    rw [State.on, s.openNote_get k _ (by simp only [F.BAYK_STATE_CLOSED]; omega)]; exact hclosed
  exact ⟨_, _, (if_neg fun hopening => absurd (hb.symm.trans hopening.1) (by decide)).trans (if_pos ⟨hb, hc⟩)⟩

theorem exec_outletEvaluation_closed (h : s.runs = true) (hon : s.bayOn k = true) (hbay : s.bay k = stClosing)
    (hclosed : s.on (F.BAYK_STATE_CLOSED k) = true) (hl : s.latched k = false) (hbench : s.boot.bench = false) (hwarn : s.pf.warned = false) :
    Ends (exec (.outletEvaluation k) s) fun t =>
      t.bay k = stCharging ∧ (t.outlet k).conM = (s.outlet k).conM ∧ (t.outlet k).conA = (s.outlet k).conA := by
  have hread := s.readings_read k
  obtain ⟨hlatch, hboot, hpf, -⟩ := hread.parts
  have hholds : (s.readings k).judgeHolds k = (s.readings k, false) :=
    State.judgeHolds_none (hlatch.trans hl) (by rw [hboot]; exact hbench) (.inl (by rw [hpf]; exact hwarn))
  have hstill : (s.readings k).on (F.BAYK_STATE_CLOSED k) = true := by
    rw [State.on, hread.state (F.BAYK_STATE_CLOSED k) rfl (.inr (by simp [F.BAYK_STATE_CLOSED]))]; exact hclosed
  obtain ⟨c, v, hjudge⟩ := State.judgeMirror_closed (hread.bay.trans hbay) hstill
  let u := ((s.readings k).openNote k).note k 0x43 c 1 v noSeq
  have hkept : ClassKept k (s.readings k) (u.enter' k stCharging cNone 0 noSeq).1 :=
    ((ClassKept.openNote (s.readings k) k).bayEventAt _ _ _ _ _ _ _ _).enter' k.isLt _ _ _ _
  have hout : (u.enter' k stCharging cNone 0 noSeq).1.outlet k = ((s.readings k).openNote k).outlet k :=
    (u.enter'_outlet _ _ _ _ _ _).trans (State.note_outlet _ _ _ _ _ _ _ _)
  obtain ⟨hm, ha, -⟩ := (s.readings k).openNote_outlet k
  obtain ⟨t, ht, hend⟩ := exec_outletEvaluation_concluded s k h hon (State.judge_of_mirror hholds hjudge) fun hgone _ => hkept.stops hgone
  refine ⟨t, ht, hend.bay.trans (u.enter'_entered k.isLt stCharging cNone 0 noSeq).code, ?_, ?_⟩
  · rw [hend.drive.conM, hout, hm, hread.drive.conM]
  · rw [hend.drive.conA, hout, ha, hread.drive.conA]

-- OPENING ends in its target (R289)

/-- What the end of OPENING enters its target out of. -/
theorem State.openEnd_eq (s : State) (k : Nat) (ht : s.get (F.BAYK_STATE_TARGET k) ∈ [stIdle, stOffering, stConnected, stFaultF]) :
    ∃ u, s.openEnd k = (u.enter' k (s.get (F.BAYK_STATE_TARGET k)) (s.outlet k).openCause 0 noSeq).1 ∧ ClassKept k s u
      ∧ (u.outlet k).awaitOpen = (s.outlet k).awaitOpen := by
  let v := s.setOutlet k { s.outlet k with allowClose := false, blocked := false }
  have hv : ClassKept k s v := (ClassKept.refl k s).setOutlet _ rfl rfl rfl
  have hvo : (v.outlet k).awaitOpen = (s.outlet k).awaitOpen := by rw [State.setOutlet_outlet_same]
  have hpilot (p : Nat × Nat) : ClassKept k s (v.setPilot k p) ∧ ((v.setPilot k p).outlet k).awaitOpen = (s.outlet k).awaitOpen :=
    ⟨hv.setOutlet _ rfl rfl rfl, by rw [State.setPilot, State.setOutlet_outlet_same, hvo]⟩
  have hunlock (w : State) (hw : ClassKept k s w ∧ (w.outlet k).awaitOpen = (s.outlet k).awaitOpen) :
      ClassKept k s (w.askUnlock k) ∧ ((w.askUnlock k).outlet k).awaitOpen = (s.outlet k).awaitOpen := by
    unfold State.askUnlock
    split
    · exact ⟨hw.1.setOutlet _ rfl rfl rfl, by rw [State.setOutlet_outlet_same]; exact hw.2⟩
    · exact hw
  simp only [List.mem_cons, List.not_mem_nil, or_false] at ht
  rcases ht with ht | ht | ht | ht
  · exact ⟨(v.setPilot k pilotHigh).askUnlock k, by rw [ht]; exact if_pos ht, hunlock _ (hpilot _)⟩
  · exact ⟨v.setPilot k (v.pilotPwm k), by rw [ht]; exact (if_neg (by rw [ht]; decide)).trans (if_pos ht), hpilot _⟩
  · exact ⟨v.setPilot k pilotHigh, by
      rw [ht]; exact (if_neg (by rw [ht]; decide)).trans ((if_neg (by rw [ht]; decide)).trans (if_pos ht)), hpilot _⟩
  · exact ⟨v, by
      rw [ht]; exact (if_neg (by rw [ht]; decide)).trans ((if_neg (by rw [ht]; decide)).trans (if_neg (by rw [ht]; decide))), hv, hvo⟩

theorem exec_outletEvaluation_opened (h : s.runs = true) (hon : s.bayOn k = true) (hbay : s.bay k = stOpening)
    (hawait : (s.outlet k).awaitOpen = true) (hmirror : (s.outlet k).mirOpen = true) (hl : s.latched k = false) (hbench : s.boot.bench = false)
    (ht : s.get (F.BAYK_STATE_TARGET k) ∈ [stIdle, stOffering, stConnected, stFaultF]) :
    Ends (exec (.outletEvaluation k) s) fun t =>
      t.bay k = s.get (F.BAYK_STATE_TARGET k) ∧ t.get (F.BAYK_STATE_CAUSE k) = (s.outlet k).openCause % 256 ∧ (t.outlet k).awaitOpen = false := by
  have hread := s.readings_read k
  obtain ⟨hlatch, hboot, -⟩ := hread.parts
  let p := s.readings k
  have hholds : p.judgeHolds k = (p, false) :=
    State.judgeHolds_none (hlatch.trans hl) (by rw [hboot]; exact hbench) (.inr (by rw [hread.bay, hbay]; decide))
  have hopen : ((p.openNote k).outlet k).awaitOpen = false :=
    p.openNote_awaitOpen k (hread.drive.awaitOpen.trans hawait) (hread.drive.mirOpen.trans hmirror)
  have hb : (p.openNote k).bay k = stOpening := (p.openNote_get k _ (by simp only [F.BAYK_STATE_CODE]; omega)).trans (hread.bay.trans hbay)
  have hjudge : p.judgeMirror k = ((p.openNote k).openEnd k, true) := if_pos ⟨hb, by simp [hopen]⟩
  have htarget : (p.openNote k).get (F.BAYK_STATE_TARGET k) = s.get (F.BAYK_STATE_TARGET k) := by
    rw [p.openNote_get k _ (by simp only [F.BAYK_STATE_TARGET]; omega)]
    exact hread.state (F.BAYK_STATE_TARGET k) rfl (.inl (by simp [F.BAYK_STATE_TARGET]))
  obtain ⟨-, -, hcause⟩ := p.openNote_outlet k
  obtain ⟨u, heq, hkept, hwaits⟩ := (p.openNote k).openEnd_eq k (by rw [htarget]; exact ht)
  rw [heq, htarget, hcause.trans hread.drive.openCause] at hjudge
  have henter := u.enter'_entered k.isLt (s.get (F.BAYK_STATE_TARGET k)) (s.outlet k).openCause 0 noSeq
  obtain ⟨t, hdone, hend⟩ := exec_outletEvaluation_concluded s k h hon (State.judge_of_mirror hholds hjudge) fun hgone _ =>
    ClassKept.stops (((ClassKept.openNote p k).trans hkept).enter' k.isLt _ _ _ _) hgone
  refine ⟨t, hdone, ?_, hend.cause.trans henter.cause, ?_⟩
  · rw [hend.bay, henter.code]
    exact Nat.mod_eq_of_lt (s.get_lt (F.BAYK_STATE_TARGET k))
  · rw [hend.drive.awaitOpen, u.enter'_outlet, hwaits, hopen]

-- OFFERING closes (R288, R289)

theorem State.readCycle_eq (s : State) (k : Nat) : ∃ cyc cur exc gro low, s.readCycle k
    = s.setOutlet k { s.outlet k with seenCycle := cyc, current := cur, excess := exc, gross := gro, low := low } := by
  unfold State.readCycle
  extract_lets x cyc i after
  split
  · exact ⟨cyc, x.current, x.excess, x.gross, x.low, rfl⟩
  · exact ⟨_, _, _, _, _, rfl⟩

/-- With a known class other than A that its candidate confirms, and no proximity event, only the cycle is read. -/
theorem State.readings_quiet {s : State} {k : Nat} (hknown : (s.outlet k).known = true) (hfresh : (s.outlet k).fresh = true)
    (hsame : s.get (F.BAYK_PILOT_CANDIDATE k) = s.get (F.BAYK_PILOT_CLASS k)) (hA : s.get (F.BAYK_PILOT_CLASS k) ≠ 0)
    (hpp : (s.outlet k).ppNew = false) (hcable : s.noCable k = false) : s.readings k = s.readCycle k := by
  have hcls : s.classRead k = s := if_neg (by simp [hknown, hfresh, hsame])
  have hconfirm : s.confirmClass k = s := by
    rw [State.confirmClass_eq, hcls]
    exact if_neg (by simp [State.cls, hknown, hfresh, hA])
  have hread : s.ppRead k = s := if_neg (by simp [hpp])
  rw [State.readings, hconfirm, State.readPp_eq, hread, if_neg (by simp [hcable])]

theorem State.judgeMirror_none {s : State} {k : Nat} (hbay : s.bay k = stOffering) (hawait : (s.outlet k).awaitOpen = false)
    (hclosed : s.on (F.BAYK_STATE_CLOSED k) = false) (hweld : (s.outlet k).weldV = false) : s.judgeMirror k = (s, false) := by
  have hnote : s.openNote k = s := if_neg (by simp [hawait])
  unfold State.judgeMirror
  simp only [hnote, hbay, hclosed, hweld]
  rfl

theorem State.judgeClass_request {s : State} {k c : Nat} (hbay : s.bay k = stOffering) (hcls : s.cls k = some c)
    (hc : c = 2 ∨ (c = 3 ∧ s.on (F.BAYK_CFG_VENT_OK k) = true)) (hmode : s.get (F.BAYK_PILOT_MODE k) = 2)
    (hdiode : (s.outlet k).diodeBad < s.get F.BAY_TIMING_DEBOUNCE) : s.judgeClass k = s.request k := by
  have hactive : activeState stOffering = true := by decide
  have hidle : stOffering ≠ stIdle := by decide
  have hgood : ¬ s.get F.BAY_TIMING_DEBOUNCE ≤ (s.outlet k).diodeBad := by omega
  unfold State.judgeClass
  rcases hc with rfl | ⟨rfl, hvent⟩
  · simp [hcls, hbay, hactive, hmode, hgood, hidle]
  · simp [hcls, hbay, hactive, hmode, hgood, hvent, hidle]

/-- What a closing outlet keeps: CON_M driven, and CON_A under AUX_MODE 1. -/
def State.closeDrive (s : State) (k : Nat) : Outlet :=
  { s.outlet k with conM := true, conA := s.get (F.BAYK_CFG_AUX_MODE k) == 1, closeCap := capMa (s.get (F.BAYK_PP_CAP k)), excess := false, gross := 0,
                    causeOut := false }

theorem State.request_closes {s : State} {k : Nat} (h : s.mayClose k = true) :
    s.request k = (((s.setOutlet k (s.closeDrive k)).enter' k stClosing cVehicle 0 noSeq).1, true) := if_pos h

/-- OFFERING with a request for energy, and nothing that holds the outlet. -/
theorem State.judge_closes {s : State} {k c : Nat} (hl : s.latched k = false) (hbench : s.boot.bench = false) (hwarn : s.pf.warned = false)
    (hbay : s.bay k = stOffering) (hawait : (s.outlet k).awaitOpen = false) (hclosed : s.on (F.BAYK_STATE_CLOSED k) = false)
    (hweld : (s.outlet k).weldV = false) (hcls : s.cls k = some c) (hc : c = 2 ∨ (c = 3 ∧ s.on (F.BAYK_CFG_VENT_OK k) = true))
    (hmode : s.get (F.BAYK_PILOT_MODE k) = 2) (hdiode : (s.outlet k).diodeBad < s.get F.BAY_TIMING_DEBOUNCE) (hmay : s.mayClose k = true) :
    s.judge k = ((s.setOutlet k (s.closeDrive k)).enter' k stClosing cVehicle 0 noSeq).1 :=
  State.judge_of_class (State.judgeHolds_none hl hbench (.inl hwarn)) (State.judgeMirror_none hbay hawait hclosed hweld)
    ((State.judgeClass_request hbay hcls hc hmode hdiode).trans (State.request_closes hmay))

/-- What the cycle's reading moves has no part in whether the outlet may close. -/
theorem State.setOutlet_mayClose (s : State) (k : Nat) (x : Outlet) (hv : x.vAbs = (s.outlet k).vAbs) (ha : x.allowClose = (s.outlet k).allowClose) :
    (s.setOutlet k x).mayClose k = s.mayClose k := by
  have hallow : (s.setOutlet k x).allowance k = s.allowance k := State.allowance_congr (fun _ _ _ => rfl) rfl
  simp only [State.mayClose, State.setOutlet_outlet_same, hv, ha, hallow, State.enabled, State.setOutlet_on, State.setOutlet_pf]

theorem State.runs_not_halted {s : State} (h : s.runs = true) : s.pf.halted = false := by
  simp only [State.runs, State.mainDown, Bool.and_eq_true, Bool.not_eq_true', Bool.or_eq_false_iff] at h
  exact h.1.1.1

/-- A state entered and the evaluation concluded, the holds are what they were. -/
theorem Concluded.held {u v t : State} {new cause target : Nat} (h : Concluded k u t) (henter : Entered k v u new cause target)
    (hout : u.outlet k = v.outlet k) : t.held' k = v.held' k := by
  have hlatch : t.latched k = v.latched k := by
    rw [State.latched, h.keeps.on _ (by simp only [sesRegs, bitFld, A.RCM_LATCH, F.BAYK_STATE_AUTHORISED, F.BAYK_ALLOW_MA]; omega),
      henter.keeps.on _ (by simp only [enterRegs, bitFld, A.RCM_LATCH, F.BAYK_STATE_CODE, A.BAYK_VIOL]; omega)]
    rfl
  have hrcm : t.rcm = u.rcm := h.keeps.parts .rcm (by simp)
  have hrc : t.rc k = u.rc k := by simp only [State.rc, hrcm]
  have hpf : t.pf = v.pf := (h.keeps.parts .pf (by simp)).trans (henter.keeps.parts .pf (by simp))
  have hboot : t.boot = v.boot := (h.keeps.parts .boot (by simp)).trans (henter.keeps.parts .boot (by simp))
  rw [State.held', State.held', hlatch, hrc, henter.testLatch, h.drive.alarmHold, hout, hpf, hboot]

theorem exec_outletEvaluation_closes (s : State) (k : Fin 12) (c : Nat) (h : s.runs = true) (hon : s.bayOn k = true) (hbay : s.bay k = stOffering)
    (hmay : s.mayClose k = true) (hl : s.latched k = false) (hbench : s.boot.bench = false) (htest : (s.rc k).testLatch = false)
    (halarm : (s.outlet k).alarmHold = false) (hclosed : s.on (F.BAYK_STATE_CLOSED k) = false) (hweld : (s.outlet k).weldV = false)
    (hawait : (s.outlet k).awaitOpen = false) (hknown : (s.outlet k).known = true) (hfresh : (s.outlet k).fresh = true)
    (hcand : s.get (F.BAYK_PILOT_CANDIDATE k) = c) (hclass : s.get (F.BAYK_PILOT_CLASS k) = c)
    (hc : c = 2 ∨ (c = 3 ∧ s.on (F.BAYK_CFG_VENT_OK k) = true)) (hmode : s.get (F.BAYK_PILOT_MODE k) = 2)
    (hdiode : (s.outlet k).diodeBad < s.get F.BAY_TIMING_DEBOUNCE) (hpp : (s.outlet k).ppNew = false) (hcable : s.noCable k = false) :
    Ends (exec (.outletEvaluation k) s) fun t =>
      t.bay k = stClosing ∧ (t.outlet k).conM = true ∧ (t.outlet k).conA = (s.get (F.BAYK_CFG_AUX_MODE k) == 1) ∧ t.pinM k = true := by
  have hwarn : s.pf.warned = false := by
    simp only [State.mayClose, Bool.and_eq_true, Bool.not_eq_true'] at hmay
    exact hmay.1.2
  obtain ⟨cyc, cur, exc, gro, low, hcycle⟩ := s.readCycle_eq k
  have hread : s.readings k = s.readCycle k :=
    State.readings_quiet hknown hfresh (hcand.trans hclass.symm) (by rw [hclass]; omega) hpp hcable
  generalize hx : ({ s.outlet k with seenCycle := cyc, current := cur, excess := exc, gross := gro, low := low } : Outlet) = x at hcycle
  rw [hcycle] at hread
  have hout : (s.setOutlet k x).outlet k = x := State.setOutlet_outlet_same _ _ _
  have hcls : (s.setOutlet k x).cls k = some c := by
    rw [State.cls, hout, State.setOutlet_get, hclass]
    exact if_pos (by simp [← hx, hknown, hfresh])
  have hjudge : (s.readings k).judge k
      = (((s.setOutlet k x).setOutlet k ((s.setOutlet k x).closeDrive k)).enter' k stClosing cVehicle 0 noSeq).1 := by
    rw [hread]
    exact State.judge_closes hl hbench hwarn hbay (by rw [hout, ← hx]; exact hawait) hclosed (by rw [hout, ← hx]; exact hweld) hcls hc hmode
      (by rw [hout, ← hx]; exact hdiode) ((s.setOutlet_mayClose k x (by rw [← hx]) (by rw [← hx])).trans hmay)
  have hkept : ClassKept k (s.readings k) (((s.setOutlet k x).setOutlet k ((s.setOutlet k x).closeDrive k)).enter' k stClosing cVehicle 0 noSeq).1 := by
    rw [hread]
    exact ((ClassKept.refl k.val (s.setOutlet k x)).setOutlet ((s.setOutlet k x).closeDrive k) rfl rfl rfl).enter' k.isLt stClosing cVehicle 0 noSeq
  have henter := ((s.setOutlet k x).setOutlet k ((s.setOutlet k x).closeDrive k)).enter'_entered k.isLt stClosing cVehicle 0 noSeq
  have hlast := ((s.setOutlet k x).setOutlet k ((s.setOutlet k x).closeDrive k)).enter'_outlet k stClosing cVehicle 0 noSeq k
  have hfree : ((s.setOutlet k x).setOutlet k ((s.setOutlet k x).closeDrive k)).held' k = false := by
    have hhold : ((s.setOutlet k x).closeDrive k).alarmHold = false := by rw [State.closeDrive, hout, ← hx]; exact halarm
    rw [State.held', State.setOutlet_outlet_same, hhold]
    simp [State.latched, show s.on (bitFld A.RCM_LATCH k) = false from hl, hbench, hwarn, htest, State.runs_not_halted h]
  obtain ⟨t, ht, hend⟩ := exec_outletEvaluation_concluded s k h hon hjudge fun hgone _ => hkept.stops hgone
  have hdrive := State.setOutlet_outlet_same (s.setOutlet k x) k ((s.setOutlet k x).closeDrive k)
  have hmt : (t.outlet k).conM = true := by rw [hend.drive.conM, hlast, hdrive, State.closeDrive]
  refine ⟨t, ht, hend.bay.trans henter.code, hmt, ?_, ?_⟩
  · rw [hend.drive.conA, hlast, hdrive, State.closeDrive, State.setOutlet_get]
  · rw [State.pinM, hmt, hend.held henter hlast, hfree]
    rfl

end

/-- Settles O32, clause by clause. -/
theorem outletEvaluations : Obligations.OutletEvaluations :=
  ⟨exec_outletEvaluation_within, fun _ _ => exec_outletEvaluation_trip, fun _ _ => exec_outletEvaluation_bench, fun _ _ => exec_outletEvaluation_power,
    exec_outletEvaluation_closes, fun _ _ => exec_outletEvaluation_closed, fun _ _ => exec_outletEvaluation_opened, exec_outletEvaluation_off⟩

end Sys2Proof.Machine

/-! The loss of a residual signal under a held capture (O35): RCM trips the outlet (R321), and the trip triggers PQE (R267, R333). -/
namespace Sys2Proof.Machine

/-- The drive of an outlet does not depend on RCM's SETTLED flags. -/
theorem State.putSettled_outHigh (s : State) (j v k : Nat) : (s.put (F.RCM_STAT_SETTLED j) v).outHigh k = s.outHigh k := by
  have hlatch : (s.put (F.RCM_STAT_SETTLED j) v).latched k = s.latched k := by
    rw [State.latched, State.on, State.put_get_other _ _ _ _ (by simp only [bitFld, A.RCM_LATCH, F.RCM_STAT_SETTLED]; omega)]
    rfl
  simp only [State.outHigh, State.pinM, State.pinA, State.held', hlatch]
  rfl

/-- An outlet whose output is high and whose residual channel has gone trips with cause 4 (R321), where no self-test runs. -/
theorem exec_rcmSignalTimeout_gone (s : State) (k : Fin 12) (h : s.runs = true) (hon : s.rcmOn k = true) (hgone : s.rcmLive k = false)
    (htest : (s.rc k).test = none) (hhigh : s.outHigh k = true) :
    exec (.rcmSignalTimeout k) s = done (((s.put (F.RCM_STAT_SETTLED k) 0).trip k 4 none none none).showReady k) := by
  have habandon : s.testAbandon k = s := by simp [State.testAbandon, htest]
  rw [show exec (.rcmSignalTimeout k) s = execRcmSignalTimeout k s from rfl, execRcmSignalTimeout, State.onFabric_runs _ _ h]
  simp only [hon, hgone, habandon, State.putSettled_outHigh, hhigh, Bool.not_true, Bool.not_false, Bool.false_eq_true, false_and,
    if_true, if_false]

/-- `heldCapture` with outlet 0 shown as not settled, as the loss of its signal leaves it before the trip. -/
def heldCapture.unsettled : State := heldCapture.put (F.RCM_STAT_SETTLED 0) 0

/-- Refutes O35 by its clause on the signal's loss: outlet 0 of `heldCapture` has no residual channel and its output is high, so the
timeout trips it. The trip is a trigger that the held capture misses, and the record of the miss joins ring 39, which the clause's frame
says is kept. -/
theorem not_residualCurrent : ¬ Obligations.ResidualCurrent := by
  unfold Obligations.ResidualCurrent
  intro h
  obtain ⟨-, -, -, -, -, hlost, -⟩ := h
  have hgone : heldCapture.rcmLive 0 = false := by decide +kernel
  obtain ⟨t, hexec, -, -, -, hkeep⟩ := hlost heldCapture 0 (by decide +kernel) (by decide +kernel) (.inl hgone)
  have ht : t = ((heldCapture.unsettled.trip 0 4 none none none).showReady 0).settle :=
    Host.Outcome.next.inj (hexec.symm.trans
      (exec_rcmSignalTimeout_gone _ 0 (by decide +kernel) (by decide +kernel) hgone (by decide +kernel) (by decide +kernel)))
  have hready : ((heldCapture.unsettled.trip 0 4 none none none).showReady 0).ring 39
      = (heldCapture.unsettled.trip 0 4 none none none).ring 39 :=
    ((Keeps.refl _ (onPages [0x17]) [3] [.fresh]).showReady (by decide) (by simp) (by simp) fun _ ha => ha).rings 39 (by decide)
  have hring : (heldCapture.unsettled.trip 0 4 none none none).ring 39 = heldCapture.unsettled.ring 39 := by
    rw [← hready, ← State.settle_ring, ← ht]
    exact (hkeep.rings 39 (by decide)).trans (State.put_ring ..).symm
  exact heldCapture.unsettled.trip_missed (k := 0) (by decide) 4 none (by decide +kernel) (by decide +kernel) (by decide +kernel)
    (by decide +kernel) (by unfold State.takes; decide +kernel) (by rw [hring])

end Sys2Proof.Machine

/-! What SES's operations leave of a session and of its registers, and how a session command is refused and answered (O40, O41). -/
namespace Sys2Proof.Machine

section
variable {s t u : State} {R : Nat → Prop} {E : List Nat} {P : List Part}

theorem Keeps.session (h : Keeps s t R E P) (hp : Part.se ∉ P) (j : Nat) : t.session j = s.session j := by
  have hse : t.se = s.se := h.parts .se hp
  simp only [State.session, hse]

theorem Keeps.ses (h : Keeps s t R E P) {k : Nat} (hR : ¬ R (A.SES_OUT_STAT k)) : t.ses k = s.ses k := h.get (F.SES_OUT_STAT_STATE k) hR

end

@[simp] theorem State.put_session (s : State) (f : Fld) (v j : Nat) : (s.put f v).session j = s.session j := rfl

@[simp] theorem State.setSession_session_same (s : State) (k : Nat) (x : Session) : (s.setSession k x).session k = x := by
  simp [State.session, State.setSession]

theorem State.setSession_session_other (s : State) {k j : Nat} (x : Session) (h : j ≠ k) : (s.setSession k x).session j = s.session j := by
  simp [State.session, State.setSession, spRead_spWrite_other _ _ _ _ _ h]

theorem State.setSession_keeps (s : State) (k : Nat) (x : Session) : Keeps s (s.setSession k x) (among []) [] [.se] :=
  ((Confined.refl k s _ _ _).setSession x (by simp)).keeps

-- The open-session entry and the session's state (R344, R346)

/-- An entry saved changes the entries alone. -/
theorem State.saveEntry_eq (s : State) (k : Nat) : ∃ l, s.saveEntry k = { s with se := { s.se with entries := l } } := by
  unfold State.saveEntry
  extract_lets
  split <;> exact ⟨_, rfl⟩

theorem State.saveEntry_keeps (s : State) (k : Nat) : Keeps s (s.saveEntry k) (among []) [] [.se] :=
  ((Confined.refl k s _ _ _).saveEntry (by simp)).keeps

@[simp] theorem State.saveEntry_session (s : State) (k j : Nat) : (s.saveEntry k).session j = s.session j := by
  obtain ⟨l, heq⟩ := s.saveEntry_eq k
  rw [heq]
  rfl

theorem State.setSes_se (s : State) (k st : Nat) : ∃ l, (s.setSes k st).se = { s.se with entries := l } := by
  obtain ⟨l, heq⟩ := ((s.put (F.SES_OUT_STAT_STATE k) st).put ⟨A.SES_ACTIVE_MASK, k, 1⟩
    (decide (st = sesStarting ∨ st = sesActive ∨ st = sesEnding)).toNat).saveEntry_eq k
  exact ⟨l, by rw [State.setSes, heq]; rfl⟩

@[simp] theorem State.setSes_session (s : State) (k st j : Nat) : (s.setSes k st).session j = s.session j := by
  obtain ⟨l, heq⟩ := s.setSes_se k st
  simp only [State.session, heq]

theorem State.setSes_keeps (s : State) (k st : Nat) : Keeps s (s.setSes k st) (among [A.SES_OUT_STAT k, A.SES_ACTIVE_MASK]) [] [.se] :=
  (((Keeps.refl s _ _ _).put (F.SES_OUT_STAT_STATE k) st (by simp [F.SES_OUT_STAT_STATE, A.SES_OUT_STAT])).put _ _ (by simp)).trans
    ((State.saveEntry_keeps _ k).mono (by simp) (by simp) fun _ hp => hp)

/-- The registers of SES's page behind its header. -/
abbrev sesBlock (a : Nat) : Prop := 0x19100 ≤ a ∧ a < 0x1A000

theorem setSes_regs {k a : Nat} (hk : k < 12) (ha : among [A.SES_OUT_STAT k, A.SES_ACTIVE_MASK] a) : sesBlock a := by
  simp only [List.mem_cons, List.not_mem_nil, or_false, A.SES_OUT_STAT, A.SES_ACTIVE_MASK] at ha
  omega

/-- The session's state shares its register with flags that stay. -/
theorem State.setSes_get (s : State) (k st : Nat) (f : Fld) (hstat : f.addr ≠ A.SES_OUT_STAT k ∨ 3 ≤ f.lsb) (hmask : f.addr ≠ A.SES_ACTIVE_MASK) :
    (s.setSes k st).get f = s.get f := by
  rw [State.setSes, State.saveEntry_get, State.put_get_other _ _ _ _ hmask]
  exact State.put_get_apart _ _ _ _ (by simp [F.SES_OUT_STAT_STATE]) (hstat.imp_right fun h => .inl (by simpa [F.SES_OUT_STAT_STATE] using h))

theorem State.sesLow_reason (s : State) (k : Nat) : ((s.sesLow k).session k).reason = (s.session k).reason := by
  unfold State.sesLow
  split
  · rw [State.saveEntry_session, State.setSession_session_same]
  · rfl

-- An acceptance (R344)

/-- A session has begun: it is STARTING under the next SESSION_ID. -/
structure Begun (k : Nat) (s t : State) : Prop where
  keeps : Keeps s t sesBlock [] [.se]
  ses : t.ses k = sesStarting
  id : t.get (F.SES_OUT_SESSION_ID k) = s.se.nextId % 2 ^ 32
  next : t.se.nextId = (s.se.nextId + 1) % 2 ^ 32
  key : (t.session k).key = (s.session k).key
  referral : (t.session k).referral = none
  plan : t.get (F.SES_OUT_STAT_PLAN k) = s.get (F.SES_OUT_STAT_PLAN k)

/-- The session's counters and its SESSION_ID as it begins. -/
def State.clearCounts (s : State) (k id : Nat) : State :=
  ((((((s.put (F.SES_OUT_SESSION_ID k) id).put (F.SES_OUT_ENERGY_WH k) 0).put (F.SES_OUT_COST k) 0).put (F.SES_OUT_DURATION k) 0).put
    (F.SES_OUT_IDLE_S k) 0).put (F.SES_OUT_STAT_REAUTH k) 0).put F.SES_SESSION_NEXT s.se.nextId

theorem State.clearCounts_keeps (s : State) {k : Nat} (hk : k < 12) (id : Nat) : Keeps s (s.clearCounts k id) sesBlock [] [] :=
  (((((((Keeps.refl s _ _ _).put (F.SES_OUT_SESSION_ID k) _ (by simp only [F.SES_OUT_SESSION_ID]; omega)).put (F.SES_OUT_ENERGY_WH k) _
    (by simp only [F.SES_OUT_ENERGY_WH]; omega)).put (F.SES_OUT_COST k) _ (by simp only [F.SES_OUT_COST]; omega)).put (F.SES_OUT_DURATION k) _
    (by simp only [F.SES_OUT_DURATION]; omega)).put (F.SES_OUT_IDLE_S k) _ (by simp only [F.SES_OUT_IDLE_S]; omega)).put (F.SES_OUT_STAT_REAUTH k) _
    (by simp only [F.SES_OUT_STAT_REAUTH]; omega)).put F.SES_SESSION_NEXT _ (by decide)

theorem State.clearCounts_id (s : State) {k : Nat} (id : Nat) :
    (s.clearCounts k id).get (F.SES_OUT_SESSION_ID k) = id % 2 ^ 32 := by
  unfold State.clearCounts
  rw [State.put_get_other _ F.SES_SESSION_NEXT _ _ (by simp only [F.SES_OUT_SESSION_ID, F.SES_SESSION_NEXT]; omega),
    State.put_get_other _ (F.SES_OUT_STAT_REAUTH k) _ _ (by simp [F.SES_OUT_SESSION_ID, F.SES_OUT_STAT_REAUTH]),
    State.put_get_other _ (F.SES_OUT_IDLE_S k) _ _ (by simp [F.SES_OUT_SESSION_ID, F.SES_OUT_IDLE_S]),
    State.put_get_other _ (F.SES_OUT_DURATION k) _ _ (by simp [F.SES_OUT_SESSION_ID, F.SES_OUT_DURATION]),
    State.put_get_other _ (F.SES_OUT_COST k) _ _ (by simp [F.SES_OUT_SESSION_ID, F.SES_OUT_COST]),
    State.put_get_other _ (F.SES_OUT_ENERGY_WH k) _ _ (by simp [F.SES_OUT_SESSION_ID, F.SES_OUT_ENERGY_WH])]
  exact State.put_get_same _ _ _ (by simp [F.SES_OUT_SESSION_ID])

theorem State.clearCounts_plan (s : State) {k : Nat} (id : Nat) :
    (s.clearCounts k id).get (F.SES_OUT_STAT_PLAN k) = s.get (F.SES_OUT_STAT_PLAN k) := by
  unfold State.clearCounts
  rw [State.put_get_other _ F.SES_SESSION_NEXT _ _ (by simp only [F.SES_OUT_STAT_PLAN, F.SES_SESSION_NEXT]; omega),
    State.put_get_apart _ (F.SES_OUT_STAT_REAUTH k) _ _ (by simp [F.SES_OUT_STAT_REAUTH])
      (.inr (.inl (by simp [F.SES_OUT_STAT_PLAN, F.SES_OUT_STAT_REAUTH]))),
    State.put_get_other _ (F.SES_OUT_IDLE_S k) _ _ (by simp [F.SES_OUT_STAT_PLAN, F.SES_OUT_IDLE_S]),
    State.put_get_other _ (F.SES_OUT_DURATION k) _ _ (by simp [F.SES_OUT_STAT_PLAN, F.SES_OUT_DURATION]),
    State.put_get_other _ (F.SES_OUT_COST k) _ _ (by simp [F.SES_OUT_STAT_PLAN, F.SES_OUT_COST]),
    State.put_get_other _ (F.SES_OUT_ENERGY_WH k) _ _ (by simp [F.SES_OUT_STAT_PLAN, F.SES_OUT_ENERGY_WH]),
    State.put_get_other _ (F.SES_OUT_SESSION_ID k) _ _ (by simp [F.SES_OUT_STAT_PLAN, F.SES_OUT_SESSION_ID])]

/-- What a session keeps of its acceptance as it begins. -/
def Session.fresh (x : Session) : Session := { key := x.key, context := x.context, limit := x.limit, source := x.source, group := x.group }

theorem State.sesBegin_begun (s : State) {k : Nat} (hk : k < 12) : Begun k s (s.sesBegin k) := by
  let u : State := { s with se := { s.se with nextId := (s.se.nextId + 1) % 2 ^ 32 } }.setSession k (s.session k).fresh
  let v := u.clearCounts k s.se.nextId
  have heq : s.sesBegin k = v.setSes k sesStarting := rfl
  have hsession : v.session k = (s.session k).fresh := State.setSession_session_same _ k _
  obtain ⟨l, hse⟩ := v.setSes_se k sesStarting
  refine ⟨?_, s.sesBegin_ses k, ?_, ?_, ?_, ?_, ?_⟩
  · rw [heq]
    exact ((((Keeps.refl s _ _ _).withSe _ (by simp)).trans ((State.setSession_keeps _ k _).mono (by simp) (by simp) fun _ hp => hp)).trans
      ((u.clearCounts_keeps hk _).mono (fun _ ha => ha) (by simp) (by simp))).trans
      ((v.setSes_keeps k _).mono (fun _ ha => setSes_regs hk ha) (by simp) fun _ hp => hp)
  · rw [heq, State.setSes_get _ _ _ _ (.inl (by simp [F.SES_OUT_SESSION_ID, A.SES_OUT_STAT]))
      (by simp only [F.SES_OUT_SESSION_ID, A.SES_ACTIVE_MASK]; omega)]
    exact u.clearCounts_id _
  · rw [heq, hse]
    rfl
  · rw [heq, State.setSes_session, hsession]
    rfl
  · rw [heq, State.setSes_session, hsession]
    rfl
  · rw [heq, State.setSes_get _ _ _ _ (.inr (by simp [F.SES_OUT_STAT_PLAN])) (by simp only [F.SES_OUT_STAT_PLAN, A.SES_ACTIVE_MASK]; omega)]
    exact u.clearCounts_plan _

theorem State.latch_plan (s : State) (k : Nat) (key context : List Byte) (limit source plan group fe : Nat) :
    (s.latch k key context limit source plan group fe).get (F.SES_OUT_STAT_PLAN k) = plan % 8 := by
  unfold State.latch
  extract_lets x v w
  have hw : w.get (F.SES_OUT_STAT_PLAN k) = plan % 8 := by
    rw [State.put_get_apart _ (F.SES_OUT_STAT_NOBILL k) _ _ (by simp [F.SES_OUT_STAT_NOBILL])
        (.inr (.inl (by simp [F.SES_OUT_STAT_PLAN, F.SES_OUT_STAT_NOBILL]))),
      State.put_get_apart _ (F.SES_OUT_STAT_PRIO k) _ _ (by simp [F.SES_OUT_STAT_PRIO])
        (.inr (.inl (by simp [F.SES_OUT_STAT_PLAN, F.SES_OUT_STAT_PRIO]))),
      State.put_get_same _ _ _ (by simp [F.SES_OUT_STAT_PLAN])]
    rfl
  rw [State.put_get_other _ (F.SES_OUT_KEY_LO k) _ _ (by simp [F.SES_OUT_STAT_PLAN, F.SES_OUT_KEY_LO]),
    State.put_get_other _ (F.SES_OUT_KEY_HI k) _ _ (by simp [F.SES_OUT_STAT_PLAN, F.SES_OUT_KEY_HI]), hw]

theorem State.latch_session (s : State) (k : Nat) (key context : List Byte) (limit source plan group fe : Nat) :
    (s.latch k key context limit source plan group fe).session k
      = { s.session k with key := key, context := context, limit := limit, source := source, group := group % 65536 } :=
  s.setSession_session_same k _

theorem State.latch_block (s : State) {k : Nat} (hk : k < 12) (key context : List Byte) (limit source plan group fe : Nat) :
    Keeps s (s.latch k key context limit source plan group fe) sesBlock [] [.se] :=
  ((((((s.setSession_keeps k _).mono (by simp) (by simp) fun _ hp => hp).put (F.SES_OUT_STAT_PLAN k) _ (by simp only [F.SES_OUT_STAT_PLAN]; omega)).put
    (F.SES_OUT_STAT_PRIO k) _ (by simp only [F.SES_OUT_STAT_PRIO]; omega)).put (F.SES_OUT_STAT_NOBILL k) _
    (by simp only [F.SES_OUT_STAT_NOBILL]; omega)).put (F.SES_OUT_KEY_HI k) _ (by simp only [F.SES_OUT_KEY_HI]; omega)).put (F.SES_OUT_KEY_LO k) _
    (by simp only [F.SES_OUT_KEY_LO]; omega)

/-- The registers an acceptance may touch: SES's own, and STATE for AUTHORISED. -/
abbrev acceptRegs (k a : Nat) : Prop := sesBlock a ∨ a = (F.BAYK_STATE_AUTHORISED k).addr

theorem sesBlock_page {a : Nat} (h : sesBlock a) : a / 4096 ∈ [0x19] := by
  rw [List.mem_singleton]
  omega

theorem acceptRegs_page {k a : Nat} (h : acceptRegs k a) : a / 4096 ∈ [0x19, 0x30 + k] := by
  rcases h with h | rfl
  · simp [List.mem_singleton.mp (sesBlock_page h)]
  · simp only [F.BAYK_STATE_AUTHORISED, List.mem_cons, List.not_mem_nil, or_false]
    omega

/-- A session has been accepted, with its outlet connected or not yet. -/
structure SesAccepted (k : Nat) (s t : State) (plan : Nat) : Prop where
  keeps : Keeps s t (acceptRegs k) [] [.se]
  key : (t.session k).key = (s.session k).key
  referral : (s.session k).referral = none → (t.session k).referral = none
  starts : s.bayReady k = true → t.ses k = sesStarting ∧ t.on (F.BAYK_STATE_AUTHORISED k) = true ∧ t.get (F.SES_OUT_STAT_PLAN k) = plan % 8
    ∧ t.get (F.SES_OUT_SESSION_ID k) = s.se.nextId % 2 ^ 32 ∧ t.se.nextId = (s.se.nextId + 1) % 2 ^ 32
  waits : s.bayReady k = false → t.ses k = sesPreauth ∧ t.se.nextId = s.se.nextId ∧ Keeps s t sesBlock [] [.se]

theorem State.sesAccept_accepted (s : State) {k : Nat} (hk : k < 12) (plan group fe : Nat) :
    SesAccepted k s (s.sesAccept k plan group fe) plan := by
  let v := s.latch k (s.session k).key (s.session k).context (s.session k).limit (s.session k).source plan group fe
  have hv : Keeps s v sesBlock [] [.se] := s.latch_block hk _ _ _ _ _ _ _
  have hsession : v.session k = { s.session k with group := group % 65536 } := s.latch_session k _ _ _ _ _ _ _
  have hready : v.bayReady k = s.bayReady k := by
    have hbay : v.bay k = s.bay k := hv.get (F.BAYK_STATE_CODE k) (by simp only [F.BAYK_STATE_CODE]; omega)
    simp only [State.bayReady, hbay]
  by_cases hbay : s.bayReady k = true
  · have heq : s.sesAccept k plan group fe = (v.put (F.BAYK_STATE_AUTHORISED k) 1).sesBegin k := if_pos (hready.trans hbay)
    have hbegun := (v.put (F.BAYK_STATE_AUTHORISED k) 1).sesBegin_begun hk
    have hplan : (v.put (F.BAYK_STATE_AUTHORISED k) 1).get (F.SES_OUT_STAT_PLAN k) = plan % 8 :=
      (State.put_get_other v _ _ 1 (by simp only [F.SES_OUT_STAT_PLAN, F.BAYK_STATE_AUTHORISED]; omega)).trans (s.latch_plan k _ _ _ _ _ _ _)
    have hauth : (v.put (F.BAYK_STATE_AUTHORISED k) 1).on (F.BAYK_STATE_AUTHORISED k) = true := v.put_on_bool _ true rfl (by simp [F.BAYK_STATE_AUTHORISED])
    rw [heq]
    refine ⟨?_, ?_, fun _ => hbegun.referral, fun _ => ⟨hbegun.ses, ?_, hbegun.plan.trans hplan, hbegun.id, hbegun.next⟩,
      fun h => absurd (hbay.symm.trans h) (by decide)⟩
    · exact ((hv.mono (fun _ ha => .inl ha) (by simp) fun _ hp => hp).put _ 1 (.inr rfl)).trans
        (hbegun.keeps.mono (fun _ ha => .inl ha) (by simp) fun _ hp => hp)
    · rw [hbegun.key, State.put_session, hsession]
    · rw [hbegun.keeps.on _ (by simp only [F.BAYK_STATE_AUTHORISED]; omega), hauth]
  · have heq : s.sesAccept k plan group fe = v.setSes k sesPreauth := if_neg (by rwa [hready])
    have hpage : Keeps s (v.setSes k sesPreauth) sesBlock [] [.se] :=
      hv.trans ((v.setSes_keeps k sesPreauth).mono (fun _ ha => setSes_regs hk ha) (by simp) fun _ hp => hp)
    obtain ⟨l, hse⟩ := v.setSes_se k sesPreauth
    rw [heq]
    refine ⟨hpage.mono (fun _ ha => .inl ha) (by simp) fun _ hp => hp, ?_, fun h => ?_, fun h => absurd h hbay, fun _ => ⟨v.setSes_ses k _, ?_, hpage⟩⟩
    · rw [State.setSes_session, hsession]
    · rw [State.setSes_session, hsession]
      exact h
    · rw [hse]
      rfl

-- A stop (R344, R345)

/-- A stop of an ACTIVE session whose START record has been issued: it is ENDING for that reason, and its outlet is authorised no more. -/
theorem State.sesStop_active (s : State) {k : Nat} (hk : k < 12) (reason : Nat) (hact : s.ses k = sesActive) (hmark : (s.session k).startMark ≠ 0) :
    (s.sesStop k reason).ses k = sesEnding ∧ ((s.sesStop k reason).session k).reason = reason
      ∧ (s.sesStop k reason).on (F.BAYK_STATE_AUTHORISED k) = false := by
  let v := s.setSession k { s.session k with reason := reason }
  let w := if v.on (F.BAYK_STATE_AUTHORISED k) then v.stopOutlet k cSes noSeq else v
  have heq : s.sesStop k reason = (w.setSes k sesEnding).sesLow k :=
    (if_neg (by rw [hact]; simp [hmark, sesActive, sesStarting])).trans (if_pos hact)
  have hkeep : Keeps v w (onPages [0x16, 0x30 + k]) [3 + k] [.outlets, .rcm] :=
    Keeps.ite ((Confined.refl k v _ _ _).stopOutlet (BayRoom.onPages hk (by simp) (by simp) (by simp) (by simp)) cSes noSeq (by simp)).keeps
      (Keeps.refl v _ _ _)
  have hoff : w.on (F.BAYK_STATE_AUTHORISED k) = false := by
    by_cases hauth : v.on (F.BAYK_STATE_AUTHORISED k) = true
    · rw [show w = v.stopOutlet k cSes noSeq from if_pos hauth]
      exact (v.stopOutlet_stopped hk cSes noSeq (by decide)).unauthorised
    · rw [show w = v from if_neg hauth]
      exact Bool.eq_false_iff.mpr hauth
  rw [heq]
  refine ⟨?_, ?_, ?_⟩
  · rw [State.ses, State.sesLow_get]
    exact w.setSes_ses k sesEnding
  · rw [State.sesLow_reason, State.setSes_session, hkeep.session (by simp), State.setSession_session_same]
  · rw [State.sesLow_on, State.setSes_auth _ hk, hoff]

/-- A stop before the START record is held. -/
theorem State.sesStop_starting (s : State) {k : Nat} (reason : Nat) (hses : s.ses k = sesStarting) (hheld : (s.session k).held = none) :
    s.sesStop k reason = s.setSession k { s.session k with held := some reason } := by
  unfold State.sesStop
  extract_lets x st
  rw [if_pos (.inl hses), show x.held = none from hheld]

/-- A stop of a session that is ending already changes nothing. -/
theorem State.sesStop_ending (s : State) {k : Nat} (reason : Nat) (hses : s.ses k = sesEnding) : s.sesStop k reason = s := by
  rw [State.sesStop]
  dsimp only
  rw [hses, if_neg (by simp [sesEnding, sesStarting, sesActive]), if_neg (by decide)]

/-- What a stop may touch. -/
theorem State.sesStop_keeps (s : State) {k : Nat} (hk : k < 12) (reason : Nat) :
    Keeps s (s.sesStop k reason) (onPages [0x16, 0x17, 0x19, 0x30 + k]) [3 + k] [.se, .outlets, .rcm] :=
  ((Confined.refl k s _ _ _).sesStop (BayRoom.onPages hk (by simp) (by simp) (by simp) (by simp)) (SesRoom.onPages hk (by simp) (by simp)) reason
    (by simp)).keeps

-- Answers on ring 3 + k (R342)

theorem State.emit_extends (s : State) (e typ : Nat) (ref : Option Nat) (st : Nat) (pl : List Byte) :
    ∃ l, ((s.emit e typ ref st pl).ring e).frames = (s.ring e).frames ++ l := by
  have hmark : ∃ l, ((s.markLost e).ring e).frames = (s.ring e).frames ++ l := by
    unfold State.markLost
    extract_lets r r'
    split
    · exact ⟨[], by simp⟩
    · rw [State.irq_ring, State.setRing_ring_same]
      simp only [r', Ring.mark]
      split
      · exact ⟨_, rfl⟩
      · exact ⟨[], by simp [r]⟩
  obtain ⟨l, hl⟩ := hmark
  unfold State.emit State.emitVer
  extract_lets v r
  split
  · exact ⟨l ++ _, by rw [State.setRing_ring_same, ← List.append_assoc, ← hl]; rfl⟩
  · exact ⟨l, by rw [State.setRing_ring_same, ← hl]; rfl⟩

/-- What is queued on a ring that takes a record and that nothing has touched. -/
theorem Keeps.emitted {s u : State} {R : Nat → Prop} {E : List Nat} {P : List Part} (h : Keeps s u R E P) {e : Nat} (he : e ∉ E)
    (hcfg : ¬ R (F.HLKR_RING_CFG_COUNT_CODE e).addr) (typ : Nat) (ref : Option Nat) (st : Nat) (pl : List Byte) (htakes : s.takes e) :
    ∃ g, ((u.emit e typ ref st pl).ring e).frames = (s.ring e).frames ++ [g] ∧ g.typ = typ ∧ g.ref = ref ∧ g.status = st ∧ g.payload = pad4 pl := by
  obtain ⟨hframes, -⟩ := u.emit_queued e typ ref st pl (h.takes he hcfg htakes)
  rw [h.rings e he] at hframes
  exact ⟨_, hframes, rfl, rfl, rfl, rfl⟩

theorem State.emit_keeps (s : State) (e typ : Nat) (ref : Option Nat) (st : Nat) (pl : List Byte) :
    Keeps s (s.emit e typ ref st pl) lostRegs [e] [] := (Keeps.refl s _ _ _).emit e typ ref st pl (by simp) fun _ ha => ha

/-- The payload of an answer (R342). -/
def State.sesPayload (s : State) (k result mark : Nat) : List Byte :=
  le 1 result ++ le 1 (s.ses k) ++ le 2 0
    ++ le 4 (if decide (s.ses k = sesStarting ∨ s.ses k = sesActive ∨ s.ses k = sesEnding) then s.get (F.SES_OUT_SESSION_ID k) else 0xFFFFFFFF)
    ++ le 2 (s.session k).group ++ le 1 (s.get (F.SES_OUT_STAT_PLAN k)) ++ le 1 0 ++ le 4 mark

theorem State.sesPayload_result (s : State) (k result mark : Nat) : fieldLe (pad4 (s.sesPayload k result mark)) 0 1 = result % 256 := by
  simp only [pad4, State.sesPayload, List.append_assoc]
  exact fieldLe_append [] _ 1 result 0 rfl

theorem State.sesAnswer_result (s : State) (k typ ref result mark : Nat) :
    s.sesAnswer k typ ref 0 (some result) mark = s.emit (3 + k) (0x80 + typ) (some ref) 0 (s.sesPayload k result mark) := rfl

theorem State.sesAnswer_refusal (s : State) (k typ ref mark : Nat) {c : Nat} (hc : c ≠ 0) :
    s.sesAnswer k typ ref c none mark = ((s.err 0x19 c).emit (3 + k) (0x80 + typ) (some ref) c
      ((s.err 0x19 c).sesPayload k (s.err 0x19 c).free mark)).took := by
  simp only [State.sesAnswer, if_neg hc]
  rfl

-- Session commands of ring 15 + k (R341 to R343)

theorem State.cmdOutlet_typ {s : State} {k typ : Nat} {f : Frame} (h : s.cmdOutlet k typ = some f) : f.typ = typ := by
  unfold State.cmdOutlet at h
  split at h
  · split at h
    · next htyp => cases h; exact htyp
    · cases h
  · cases h

/-- A command with an answer after everything else it does. -/
theorem outletReply_emit {s u : State} {R : Nat → Prop} {E : List Nat} {P : List Part} (h : Keeps s u R E P) {k typ : Nat} {f : Frame}
    (hhead : s.cmdOutlet k typ = some f) (he : 3 + k ∉ E) (hcfg : ¬ R (F.HLKR_RING_CFG_COUNT_CODE (3 + k)).addr) (st : Nat) (pl : List Byte) :
    outletReply s (u.emit (3 + k) (0x80 + typ) (some f.seq) st pl) k f st := fun htakes => by
  obtain ⟨g, hframes, htyp, href, hst, -⟩ := h.emitted he hcfg (0x80 + typ) (some f.seq) st pl htakes
  exact ⟨g, hframes, by rw [htyp, State.cmdOutlet_typ hhead], href, hst⟩

theorem outletReply_of_ring {s u t : State} {k : Nat} {f : Frame} {st : Nat} (h : outletReply s u k f st) (hring : t.ring (3 + k) = u.ring (3 + k)) :
    outletReply s t k f st := fun htakes => by
  rw [hring]
  exact h htakes

/-- A refused session command leaves its ring, is recorded and answered (R342, R343). -/
theorem ends_sesRefused {s : State} {k typ : Nat} (hk : k < 12) {f : Frame} (hhead : s.cmdOutlet k typ = some f) {c : Nat} (hc : c ≠ 0) (hlt : c < 65536)
    {o : Out} (ho : o = done ((s.take (15 + k)).sesAnswer k typ f.seq c none 0xFFFFFFFF)) :
    Ends o fun t => t.get (hdrErrcode 0x19) = c ∧ t.ses k = s.ses k ∧ (t.ring (15 + k)).frames = (s.ring (15 + k)).frames.tail ∧ outletReply s t k f c
      ∧ Keeps s t (fun a => errRegs 0x19 a ∨ lostRegs a) [3 + k, 15 + k] [.fresh] := by
  have hv : Keeps s ((s.take (15 + k)).err 0x19 c) (errRegs 0x19) [15 + k] [] :=
    ((Keeps.refl s _ _ _).take _ (by simp)).err 0x19 c (.inl rfl) (.inr rfl)
  have hcode : ((s.take (15 + k)).err 0x19 c).get (hdrErrcode 0x19) = c := (State.err_code _ _ _).trans (Nat.mod_eq_of_lt hlt)
  have hgone : (((s.take (15 + k)).err 0x19 c).ring (15 + k)).frames = (s.ring (15 + k)).frames.tail := by rw [State.err_ring, State.take_ring_same]
  rw [ho, State.sesAnswer_refusal _ _ _ _ _ hc]
  generalize (s.take (15 + k)).err 0x19 c = v at hv hcode hgone ⊢
  have hans := v.emit_keeps (3 + k) (0x80 + typ) (some f.seq) c (v.sesPayload k v.free 0xFFFFFFFF)
  have hreply := outletReply_emit hv hhead (by simp) (by simp only [F.HLKR_RING_CFG_COUNT_CODE]; omega) c (v.sesPayload k v.free 0xFFFFFFFF)
  generalize v.emit (3 + k) (0x80 + typ) (some f.seq) c (v.sesPayload k v.free 0xFFFFFFFF) = w at hans hreply ⊢
  have hkeep : Keeps s w (fun a => errRegs 0x19 a ∨ lostRegs a) [3 + k, 15 + k] [.fresh] :=
    (hv.mono (fun _ ha => .inl ha) (by simp +contextual) (by simp)).trans (hans.mono (fun _ ha => .inr ha) (by simp +contextual) (by simp))
  refine ⟨_, rfl, ?_, hkeep.ses (by simp only [A.SES_OUT_STAT]; omega), ?_, outletReply_of_ring hreply rfl, (hkeep.took (by simp)).settle⟩
  · rw [State.settle_get, State.took_get, hans.get _ (by decide), hcode]
  · rw [State.settle_ring, State.took_ring, hans.rings _ (by simp), hgone]

/-- A session command that meets no cause of refusal. -/
theorem State.sesRefusal_none {s : State} {k : Nat} {f : Frame} (h : s.sesTakes k f) {needsKey : Bool}
    (hkey : needsKey = true → s.legal.watermark ≠ 0xFFFFFFFF ∧ s.on F.SEA_STAT_KEY_OK = true) :
    s.sesRefusal k f false false false needsKey false = none := by
  obtain ⟨-, hen, hepoch, hbench, hwarn⟩ := h
  cases needsKey with
  | false => simp [State.sesRefusal, firstErr, hen, hepoch, hbench, hwarn]
  | true =>
    obtain ⟨hmark, hok⟩ := hkey rfl
    simp [State.sesRefusal, firstErr, hen, hepoch, hbench, hwarn, hmark, hok]

/-- A session's state that does not allow the command. -/
theorem State.sesRefusal_closed {s : State} {k : Nat} {f : Frame} (h : s.sesTakes k f) (needsKey clock : Bool) :
    s.sesRefusal k f false false true needsKey clock = some 0x63 := by
  obtain ⟨-, hen, hepoch, hbench, hwarn⟩ := h
  simp [State.sesRefusal, firstErr, hen, hepoch, hbench, hwarn]

end Sys2Proof.Machine

/-! IDENTIFY (O40): what it finds closed, an acceptance, a referral, a refusal by the cache, and a tap that stops the session. -/
namespace Sys2Proof.Machine

/-- The fields that an IDENTIFY presents are the session's. -/
def State.present (s : State) (k : Nat) (f : Frame) : State :=
  s.setSession k { s.session k with key := (f.payload.drop 4).take 8, context := (f.payload.drop 12).take 8, limit := fieldLe f.payload 20 4,
                                    source := fieldLe f.payload 24 1 }

/-- Is the outlet closed to an IDENTIFY that the cache answers with `r` (R343, R344, R347, R499)? -/
def State.identifyClosed (s : State) (k : Nat) (f : Frame) (r : Nat) : Bool :=
  s.on (F.BAYK_CFG_AUTH_SRC k) || !s.enabled (0x20 + k) || s.on F.CAL_STATUS_JIG || s.se.restore != []
    || s.ses k == sesPending || s.ses k == sesPreauth || s.ses k == sesStarting || s.ses k == sesEnding
    || (s.ses k == sesActive && !(s.on F.SES_CFG_TAP_STOP && (f.payload.drop 4).take 8 == (s.session k).key))
    || (s.ses k == sesIdle && (r == 0 || (r == 3 && s.get F.SES_CFG_UNKNOWN_POLICY == 2)) && !s.bayAccepts k)

/-- The session waits for the host's decision. -/
def State.refer (s : State) (k ref : Nat) : State := (s.setSession k { s.session k with referral := some ref }).setSes k sesPending

theorem State.refer_spec (s : State) (k ref : Nat) :
    (s.refer k ref).ses k = sesPending ∧ ((s.refer k ref).session k).referral = some ref
      ∧ Keeps s (s.refer k ref) (among [A.SES_OUT_STAT k, A.SES_ACTIVE_MASK]) [] [.se] := by
  refine ⟨State.setSes_ses _ _ _, ?_, ((s.setSession_keeps k _).mono (by simp) (by simp) fun _ hp => hp).trans (State.setSes_keeps _ _ _)⟩
  rw [State.refer, State.setSes_session, State.setSession_session_same]

/-- What an IDENTIFY does that is not refused, by the cache's answer. -/
def State.identified (s : State) (k : Nat) (f : Frame) (r fe gp : Nat) : State :=
  if s.ses k = sesActive then (s.sesStop k 0x03).sesAnswer k 0x20 f.seq 0 (some 6) 0xFFFFFFFF
  else if r = 0 then ((s.present k f).sesAccept k (gp % 8) (gp / 65536) fe).sesAnswer k 0x20 f.seq 0 (some 0) 0xFFFFFFFF
  else if r = 3 ∧ s.get F.SES_CFG_UNKNOWN_POLICY = 2 then
    ((s.present k f).sesAccept k (s.get F.SES_CFG_DEFAULT_PLAN) 0 0).sesAnswer k 0x20 f.seq 0 (some 0) 0xFFFFFFFF
  else if r = 3 ∧ s.get F.SES_CFG_UNKNOWN_POLICY = 1 then
    ((s.present k f).refer k f.seq).event 0x19 2 k
  else s.sesAnswer k 0x20 f.seq 0 (some r) 0xFFFFFFFF

theorem exec_identify_short (s : State) (k : Fin 12) (f : Frame) (hhead : s.cmdOutlet k 0x20 = some f) (h : s.runs = true) (hlen : f.payload.length < 28) :
    exec (.identify k) s = done ((s.take (15 + k)).sesAnswer k 0x20 f.seq 0x1E none 0xFFFFFFFF) := by
  rw [show exec (.identify k) s = execIdentify k s from rfl, execIdentify, State.onFabric_runs _ _ h]
  simp only [hhead, State.sesRefusal, decide_eq_true hlen, Bool.true_or, firstErr, if_true]

theorem exec_identify (s : State) (k : Fin 12) (f : Frame) (r fe gp : Nat) (hhead : s.cmdOutlet k 0x20 = some f) (hcan : s.canIdentify k f)
    (hlook : s.lookup ((f.payload.drop 4).take 8) = (r, fe, gp)) (hopen : s.identifyClosed k f r = false) :
    exec (.identify k) s = done ((s.take (15 + k)).identified k f r fe gp) := by
  obtain ⟨htakes, hlen, hlo, hhi, hlegal, hclock, hkey, hmark, -⟩ := hcan
  have hlook' : (s.take (15 + k)).lookup ((f.payload.drop 4).take 8) = (r, fe, gp) := hlook
  have hbad : (decide (f.payload.length < 28) || fieldLe f.payload 24 1 == 0 || decide (4 < fieldLe f.payload 24 1)) = false := by
    simp [hlen]; omega
  have hopen' : (s.take (15 + k)).identifyClosed k f r = false := hopen
  have hnone : (s.take (15 + k)).sesRefusal k f false false false true false = none := State.sesRefusal_none (s := s) htakes fun _ => ⟨hmark, hkey⟩
  have hlegal' : (!(s.take (15 + k)).on F.MTR_LEGAL_STAT_LEGAL_OK) = false := by rw [State.take_on, hlegal]; rfl
  have hclock' : (!(s.take (15 + k)).on F.BKP_STATUS_TIME_SET) = false := by rw [State.take_on, hclock]; rfl
  unfold State.identifyClosed at hopen'
  rw [show exec (.identify k) s = execIdentify k s from rfl, execIdentify, State.onFabric_runs _ _ htakes.1]
  simp only [hhead, hlook', hbad, hopen', hlegal', hclock', hnone]
  unfold State.identified
  split
  · rfl
  · split
    · rfl
    · split
      · rfl
      · split <;> rfl

section
variable (s : State) (k : Fin 12) (f : Frame) (r fe gp : Nat)

theorem State.canIdentify_open (hcan : s.canIdentify k f) (hses : s.ses k = sesIdle) (h : (r = 0 ∨ (r = 3 ∧ s.get F.SES_CFG_UNKNOWN_POLICY = 2)) → s.bayAccepts k = true) :
    s.identifyClosed k f r = false := by
  obtain ⟨-, -, -, -, -, -, -, -, hsrc, hen, hjig, hrestore⟩ := hcan
  have haccept : (s.ses k == sesIdle && (r == 0 || (r == 3 && s.get F.SES_CFG_UNKNOWN_POLICY == 2)) && !s.bayAccepts k) = false := by
    by_cases hr : r = 0 ∨ (r = 3 ∧ s.get F.SES_CFG_UNKNOWN_POLICY = 2)
    · simp [h hr]
    · simp only [not_or, not_and] at hr
      simp [hr.1]
      intro _ h3 hpol
      exact absurd hpol (hr.2 h3)
  rw [State.identifyClosed, haccept, hsrc, hen, hjig, hrestore, hses]
  rfl

/-- An acceptance by the cache or by policy 2: the session is accepted, then the IDENTIFY is answered with RESULT 0. -/
theorem exec_identify_accepted (hhead : s.cmdOutlet k 0x20 = some f) (hcan : s.canIdentify k f) (hses : s.ses k = sesIdle)
    (hlook : s.lookup ((f.payload.drop 4).take 8) = (r, fe, gp)) (hr : r = 0 ∨ (r = 3 ∧ s.get F.SES_CFG_UNKNOWN_POLICY = 2))
    (hbay : s.bayAccepts k = true) :
    ∃ v t, exec (.identify k) s = .next t
      ∧ SesAccepted k ((s.take (15 + k)).present k f) v (if r = 0 then gp % 8 else s.get F.SES_CFG_DEFAULT_PLAN)
      ∧ Keeps v t lostRegs [3 + k.val] [] ∧ (t.ring (15 + k)).frames = (s.ring (15 + k)).frames.tail ∧ outletReply s t k f 0 := by
  let u := (s.take (15 + k)).present k f
  have hu : Keeps s u (among []) [15 + k.val] [.se] := ((Keeps.refl s _ _ _).take _ (by simp)).trans
    ((State.setSession_keeps _ k _).mono (by simp) (by simp) fun _ hp => hp)
  have hplan : ∃ group fe', (s.take (15 + k)).identified k f r fe gp
      = (u.sesAccept k (if r = 0 then gp % 8 else s.get F.SES_CFG_DEFAULT_PLAN) group fe').sesAnswer k 0x20 f.seq 0 (some 0) 0xFFFFFFFF := by
    have hidle : ¬ (s.take (15 + k)).ses k = sesActive := fun h => absurd (hses.symm.trans h) (by decide)
    rcases hr with rfl | ⟨rfl, hpol⟩
    · exact ⟨_, _, (if_neg hidle).trans (if_pos rfl)⟩
    · exact ⟨_, _, (if_neg hidle).trans ((if_neg (by decide)).trans (if_pos ⟨rfl, hpol⟩))⟩
  obtain ⟨group, fe', hident⟩ := hplan
  have hacc := u.sesAccept_accepted k.isLt (if r = 0 then gp % 8 else s.get F.SES_CFG_DEFAULT_PLAN) group fe'
  generalize u.sesAccept k (if r = 0 then gp % 8 else s.get F.SES_CFG_DEFAULT_PLAN) group fe' = v at hident hacc
  have hv : Keeps s v (acceptRegs k) [15 + k.val] [.se] :=
    (hu.mono (by simp) (fun _ he => he) fun _ hp => hp).trans (hacc.keeps.mono (fun _ ha => ha) (by simp) fun _ hp => hp)
  have hans := v.emit_keeps (3 + k) (0x80 + 0x20) (some f.seq) 0 (v.sesPayload k 0 0xFFFFFFFF)
  refine ⟨v, _, exec_identify s k f r fe gp hhead hcan hlook (State.canIdentify_open s k f r hcan hses fun _ => hbay), hacc, ?_, ?_, ?_⟩
  · rw [hident]
    exact hans.settle
  · rw [hident, State.settle_ring, State.sesAnswer_result, hans.rings _ (by simp), hacc.keeps.rings _ (by simp)]
    exact congrArg Ring.frames (s.take_ring_same (15 + k))
  · rw [hident]
    exact outletReply_emit hv hhead (by simp) (by simp only [acceptRegs, F.HLKR_RING_CFG_COUNT_CODE, F.BAYK_STATE_AUTHORISED]; omega) 0 _

theorem exec_identify_starts (hhead : s.cmdOutlet k 0x20 = some f) (hcan : s.canIdentify k f) (hses : s.ses k = sesIdle)
    (hlook : s.lookup ((f.payload.drop 4).take 8) = (r, fe, gp)) (hr : r = 0 ∨ (r = 3 ∧ s.get F.SES_CFG_UNKNOWN_POLICY = 2))
    (hready : s.bayReady k = true) :
    Ends (exec (.identify k) s) fun t =>
      t.ses k = sesStarting ∧ t.on (F.BAYK_STATE_AUTHORISED k) = true ∧ (t.session k).key = (f.payload.drop 4).take 8
      ∧ t.get (F.SES_OUT_STAT_PLAN k) = (if r = 0 then gp % 8 else s.get F.SES_CFG_DEFAULT_PLAN)
      ∧ t.get (F.SES_OUT_SESSION_ID k) = s.se.nextId % 2 ^ 32 ∧ t.se.nextId = (s.se.nextId + 1) % 2 ^ 32
      ∧ (t.ring (15 + k)).frames = (s.ring (15 + k)).frames.tail ∧ outletReply s t k f 0
      ∧ Keeps s t (onPages [0x19, 0x30 + k.val]) [3 + k.val, 15 + k.val] [.se] := by
  obtain ⟨v, t, hexec, hacc, hans, hgone, hreply⟩ := exec_identify_accepted s k f r fe gp hhead hcan hses hlook hr (by simp [State.bayAccepts, hready])
  obtain ⟨hstart, hauth, hplan, hid, hnext⟩ := hacc.starts hready
  have hse : t.se = v.se := hans.parts .se (by simp)
  have hlt : (if r = 0 then gp % 8 else s.get F.SES_CFG_DEFAULT_PLAN) < 8 := by
    split
    · omega
    · exact s.get_lt F.SES_CFG_DEFAULT_PLAN
  refine ⟨t, hexec, ?_, ?_, ?_, ?_, ?_, ?_, hgone, hreply, ?_⟩
  · exact (hans.ses (by simp only [A.SES_OUT_STAT]; omega)).trans hstart
  · exact (hans.on _ (by simp only [F.BAYK_STATE_AUTHORISED]; omega)).trans hauth
  · rw [hans.session (by simp), hacc.key]
    exact congrArg Session.key (State.setSession_session_same _ k _)
  · rw [hans.get _ (by simp only [F.SES_OUT_STAT_PLAN]; omega), hplan, Nat.mod_eq_of_lt hlt]
  · exact (hans.get _ (by simp only [F.SES_OUT_SESSION_ID]; omega)).trans hid
  · rw [hse]
    exact hnext
  · have hu : Keeps s ((s.take (15 + k)).present k f) (onPages [0x19, 0x30 + k.val]) [3 + k.val, 15 + k.val] [.se] :=
      ((Keeps.refl s _ _ _).take _ (by simp)).trans ((State.setSession_keeps _ k _).mono (by simp) (by simp) fun _ hp => hp)
    refine (hu.trans (hacc.keeps.mono ?_ (by simp) fun _ hp => hp)).trans (hans.mono (fun _ ha => .inr ha) (by simp +contextual) (by simp))
    exact fun _ ha => .inl (acceptRegs_page ha)

theorem exec_identify_waits (hhead : s.cmdOutlet k 0x20 = some f) (hcan : s.canIdentify k f) (hses : s.ses k = sesIdle)
    (hlook : s.lookup ((f.payload.drop 4).take 8) = (r, fe, gp)) (hr : r = 0 ∨ (r = 3 ∧ s.get F.SES_CFG_UNKNOWN_POLICY = 2))
    (hidle : s.bay k = stIdle) :
    Ends (exec (.identify k) s) fun t =>
      t.ses k = sesPreauth ∧ (t.session k).key = (f.payload.drop 4).take 8 ∧ t.se.nextId = s.se.nextId
      ∧ (t.ring (15 + k)).frames = (s.ring (15 + k)).frames.tail ∧ outletReply s t k f 0
      ∧ Keeps s t (onPages [0x19]) [3 + k.val, 15 + k.val] [.se] := by
  have hready : s.bayReady k = false := by rw [State.bayReady, hidle]; decide
  obtain ⟨v, t, hexec, hacc, hans, hgone, hreply⟩ := exec_identify_accepted s k f r fe gp hhead hcan hses hlook hr (by simp [State.bayAccepts, hidle])
  obtain ⟨hpre, hnext, hpage⟩ := hacc.waits hready
  have hse : t.se = v.se := hans.parts .se (by simp)
  refine ⟨t, hexec, ?_, ?_, ?_, hgone, hreply, ?_⟩
  · exact (hans.ses (by simp only [A.SES_OUT_STAT]; omega)).trans hpre
  · rw [hans.session (by simp), hacc.key]
    exact congrArg Session.key (State.setSession_session_same _ k _)
  · rw [hse]
    exact hnext
  · have hu : Keeps s ((s.take (15 + k)).present k f) (onPages [0x19]) [3 + k.val, 15 + k.val] [.se] :=
      ((Keeps.refl s _ _ _).take _ (by simp)).trans ((State.setSession_keeps _ k _).mono (by simp) (by simp) fun _ hp => hp)
    exact (hu.trans (hpage.mono (fun _ ha => .inl (sesBlock_page ha)) (by simp) fun _ hp => hp)).trans
      (hans.mono (fun _ ha => .inr ha) (by simp +contextual) (by simp))

/-- An UNKNOWN key under policy 1 is referred to the host (R338, R344). -/
theorem exec_identify_refers (hhead : s.cmdOutlet k 0x20 = some f) (hcan : s.canIdentify k f) (hses : s.ses k = sesIdle)
    (hlook : s.lookup ((f.payload.drop 4).take 8) = (3, fe, gp)) (hpol : s.get F.SES_CFG_UNKNOWN_POLICY = 1) :
    Ends (exec (.identify k) s) fun t =>
      t.ses k = sesPending ∧ (t.session k).referral = some f.seq ∧ t.get (hdrPend 0x19 2) = 1
      ∧ (t.ring (15 + k)).frames = (s.ring (15 + k)).frames.tail ∧ Keeps s t (onPages [0x19]) [2, 15 + k.val] [.se] := by
  let u := (s.take (15 + k)).present k f
  have hident : (s.take (15 + k)).identified k f 3 fe gp = (u.refer k f.seq).event 0x19 2 k := by
    have hactive : ¬ (s.take (15 + k)).ses k = sesActive := fun h => absurd (hses.symm.trans h) (by decide)
    have hnot : ¬ (3 = 3 ∧ (s.take (15 + k)).get F.SES_CFG_UNKNOWN_POLICY = 2) := fun h => absurd (hpol.symm.trans h.2) (by decide)
    exact (if_neg hactive).trans ((if_neg (by decide)).trans ((if_neg hnot).trans (if_pos ⟨rfl, hpol⟩)))
  have hopen := State.canIdentify_open s k f 3 hcan hses fun h => absurd (hpol.symm.trans (h.resolve_left (by decide)).2) (by decide)
  have hu : Keeps s u (onPages [0x19]) [2, 15 + k.val] [.se] :=
    ((Keeps.refl s _ _ _).take (15 + k) (by simp)).trans ((State.setSession_keeps _ k _).mono (by simp) (by simp) fun _ hp => hp)
  have hgone : (u.ring (15 + k)).frames = (s.ring (15 + k)).frames.tail := congrArg Ring.frames (s.take_ring_same (15 + k))
  obtain ⟨hpending, hreferral, hrefer⟩ := u.refer_spec k f.seq
  rw [exec_identify s k f 3 fe gp hhead hcan hlook hopen, hident]
  generalize u.refer k f.seq = w at hpending hreferral hrefer ⊢
  have hw : Keeps s w (onPages [0x19]) [2, 15 + k.val] [.se] :=
    hu.trans (hrefer.mono (fun _ ha => .inl (sesBlock_page (setSes_regs k.isLt ha))) (by simp) fun _ hp => hp)
  have hse : (w.event 0x19 2 k).settle.se = w.se := w.event_part 0x19 2 k .se
  refine ⟨_, rfl, ?_, ?_, ?_, ?_, ?_⟩
  · rw [State.ses, State.settle_get, State.event_get_block _ _ _ _ _ (by simp only [F.SES_OUT_STAT_STATE]; omega) (by decide)]
    exact hpending
  · rw [State.session, hse]
    exact hreferral
  · rw [State.settle_get, w.event_pend 0x19 2 k (by decide) (by decide)]
  · rw [State.settle_ring, State.event_ring_other _ _ _ _ _ (by omega), hrefer.rings _ (by simp), hgone]
  · exact (hw.event 0x19 2 k (by simp) (fun _ ha => .inr ha) (.inl (by decide)) (.inl (by decide))).settle

/-- A key that the cache blocks, that has expired, or that policy 0 does not know: the IDENTIFY is answered with that RESULT. -/
theorem exec_identify_denied (hhead : s.cmdOutlet k 0x20 = some f) (hcan : s.canIdentify k f) (hses : s.ses k = sesIdle)
    (hlook : s.lookup ((f.payload.drop 4).take 8) = (r, fe, gp))
    (hr : r = 1 ∨ r = 2 ∨ (r = 3 ∧ s.get F.SES_CFG_UNKNOWN_POLICY ≠ 1 ∧ s.get F.SES_CFG_UNKNOWN_POLICY ≠ 2)) :
    Ends (exec (.identify k) s) fun t =>
      t.ses k = sesIdle ∧ (t.ring (15 + k)).frames = (s.ring (15 + k)).frames.tail ∧ outletReply s t k f 0
      ∧ (s.takes (3 + k) → ∃ g ∈ (t.ring (3 + k)).frames, g.ref = some f.seq ∧ fieldLe g.payload 0 1 = r)
      ∧ Keeps s t lostRegs [3 + k.val, 15 + k.val] [] := by
  let u := s.take (15 + k)
  have hu : Keeps s u (among []) [15 + k.val] [] := (Keeps.refl s _ _ _).take _ (by simp)
  have hnone : r ≠ 0 ∧ ¬ (r = 3 ∧ s.get F.SES_CFG_UNKNOWN_POLICY = 2) ∧ ¬ (r = 3 ∧ s.get F.SES_CFG_UNKNOWN_POLICY = 1) := by
    rcases hr with rfl | rfl | ⟨rfl, h1, h2⟩
    · simp
    · simp
    · exact ⟨by decide, fun h => h2 h.2, fun h => h1 h.2⟩
  obtain ⟨h0, hfree, hrefer⟩ := hnone
  have hident : u.identified k f r fe gp = u.emit (3 + k) (0x80 + 0x20) (some f.seq) 0 (u.sesPayload k r 0xFFFFFFFF) :=
    (if_neg fun h => absurd (hses.symm.trans h) (by decide)).trans ((if_neg h0).trans ((if_neg hfree).trans (if_neg hrefer)))
  have hopen := State.canIdentify_open s k f r hcan hses fun h => (h.elim h0 hfree).elim
  have hans := u.emit_keeps (3 + k) (0x80 + 0x20) (some f.seq) 0 (u.sesPayload k r 0xFFFFFFFF)
  have hcfg : ¬ among [] (F.HLKR_RING_CFG_COUNT_CODE (3 + k)).addr := by simp
  refine ⟨_, (exec_identify s k f r fe gp hhead hcan hlook hopen).trans (congrArg done hident), ?_, ?_, ?_, fun htakes => ?_, ?_⟩
  · exact (hans.ses (by simp only [A.SES_OUT_STAT]; omega)).trans hses
  · rw [State.settle_ring, hans.rings _ (by simp), State.take_ring_same]
  · exact outletReply_emit hu hhead (by simp) hcfg 0 _
  · obtain ⟨g, hframes, -, href, -, hpay⟩ := hu.emitted (by simp) hcfg (0x80 + 0x20) (some f.seq) 0 (u.sesPayload k r 0xFFFFFFFF) htakes
    refine ⟨g, ?_, href, ?_⟩
    · rw [State.settle_ring, hframes]
      simp
    · rw [hpay, State.sesPayload_result]
      omega
  · exact ((hu.mono (by simp) (by simp +contextual) (by simp)).trans (hans.mono (fun _ ha => ha) (by simp +contextual) (by simp))).settle

/-- A tap of the session's own key under TAP_STOP stops the ACTIVE session (R344, R345). -/
theorem exec_identify_tap (hhead : s.cmdOutlet k 0x20 = some f) (hcan : s.canIdentify k f) (hses : s.ses k = sesActive)
    (htap : s.on F.SES_CFG_TAP_STOP = true) (hkey : (s.session k).key = (f.payload.drop 4).take 8) (hmark : (s.session k).startMark ≠ 0) :
    Ends (exec (.identify k) s) fun t =>
      t.ses k = sesEnding ∧ (t.session k).reason = 0x03 ∧ t.on (F.BAYK_STATE_AUTHORISED k) = false
      ∧ (t.ring (15 + k)).frames = (s.ring (15 + k)).frames.tail
      ∧ Keeps s t (onPages [0x16, 0x17, 0x19, 0x30 + k.val]) [3 + k.val, 15 + k.val] [.se, .outlets, .rcm] := by
  obtain ⟨r, fe, gp, hlook⟩ : ∃ r fe gp, s.lookup ((f.payload.drop 4).take 8) = (r, fe, gp) := ⟨_, _, _, rfl⟩
  have hident : (s.take (15 + k)).identified k f r fe gp
      = ((s.take (15 + k)).sesStop k 0x03).emit (3 + k) (0x80 + 0x20) (some f.seq) 0 (((s.take (15 + k)).sesStop k 0x03).sesPayload k 6 0xFFFFFFFF) :=
    if_pos hses
  have hopen : s.identifyClosed k f r = false := by
    obtain ⟨-, -, -, -, -, -, -, -, hsrc, hen, hjig, hrestore⟩ := hcan
    simp [State.identifyClosed, hsrc, hen, hjig, hrestore, hses, htap, hkey, sesActive, sesIdle, sesPending, sesPreauth, sesStarting, sesEnding]
  obtain ⟨hending, hreason, hoff⟩ := (s.take (15 + k)).sesStop_active k.isLt 0x03 hses hmark
  have hstop := (s.take (15 + k)).sesStop_keeps k.isLt 0x03
  have hgone : ((s.take (15 + k)).ring (15 + k)).frames = (s.ring (15 + k)).frames.tail := by rw [State.take_ring_same]
  rw [exec_identify s k f r fe gp hhead hcan hlook hopen, hident]
  generalize (s.take (15 + k)).sesStop k 0x03 = v at hending hreason hoff hstop ⊢
  have hans := v.emit_keeps (3 + k) (0x80 + 0x20) (some f.seq) 0 (v.sesPayload k 6 0xFFFFFFFF)
  generalize v.emit (3 + k) (0x80 + 0x20) (some f.seq) 0 (v.sesPayload k 6 0xFFFFFFFF) = w at hans ⊢
  refine ⟨_, rfl, ?_, ?_, ?_, ?_, ?_⟩
  · exact (hans.ses (by simp only [A.SES_OUT_STAT]; omega)).trans hending
  · exact (congrArg Session.reason (hans.session (by simp) k)).trans hreason
  · exact (hans.on _ (by simp only [F.BAYK_STATE_AUTHORISED]; omega)).trans hoff
  · rw [State.settle_ring, hans.rings _ (by simp), hstop.rings _ (by simp), hgone]
  · exact ((((Keeps.refl s _ _ _).take (15 + k) (by simp)).trans (hstop.mono (fun _ ha => ha) (by simp +contextual)
      fun _ hp => hp)).trans (hans.mono (fun _ ha => .inr ha) (by simp +contextual) (by simp))).settle

end

end Sys2Proof.Machine

/-! An entry inserted in the cache (O40): what an insertion may touch, and that the key is found after it. -/
namespace Sys2Proof.Machine

/-- Contents read back from where they were written, before anything that was written behind them. -/
theorem spReads_spWrites_append {β : Type} [DecidableEq β] (d : Nat → β) (vs ws : List β) :
    ∀ (l : List (Nat × β)) (a : Nat), spReads d (spWrites d l a (vs ++ ws)) a vs.length = vs := by
  induction vs with
  | nil => exact fun _ _ => rfl
  | cons v vs ih =>
    intro l a
    have hhead : spRead d (spWrites d l a (v :: vs ++ ws)) a = v := by rw [spRead_spWrites]; simp
    rw [List.length_cons, spReads, hhead]
    exact congrArg (v :: ·) (ih _ _)

/-- The 16 bytes of an entry in use (R337). -/
def cacheEntry (key : List Byte) (fe gp : Nat) : List Byte :=
  key ++ le 4 (fe % 2 ^ 28 ||| 2 ^ 24) ++ le 4 (gp % 8 + gp / 65536 % 65536 * 65536)

/-- The entries where a key may stand. -/
def cachePlaces (key : List Byte) : List Nat := bucketAt (buckets key).1 ++ bucketAt (buckets key).2

theorem State.cacheFind_eq (s : State) (key : List Byte) :
    s.cacheFind key = (cachePlaces key).find? fun a => s.cacheValid a && s.sramBytes a 8 == key := rfl

/-- The entry is written in one of the key's places, or both buckets are full. -/
theorem State.cacheInsert_cases (s : State) (key : List Byte) (fe gp : Nat) :
    (∃ a ∈ cachePlaces key, (s.cacheInsert key fe gp).1 = s.sramPut a (cacheEntry key fe gp)
        ∨ (s.cacheInsert key fe gp).1 = (s.sramPut a (cacheEntry key fe gp)).countCache 1)
      ∨ (s.cacheInsert key fe gp).1 = ((s.incSat F.SES_AC_STAT_FULL_REFUSED).err 0x19 0x60).event 0x19 4 noUnit := by
  have hplaces (a : Nat) (rest : List Nat)
      (hfree : (if ((bucketAt (buckets key).1).filter fun x => !s.cacheValid x).length < ((bucketAt (buckets key).2).filter fun x => !s.cacheValid x).length
        then (bucketAt (buckets key).2).filter fun x => !s.cacheValid x else (bucketAt (buckets key).1).filter fun x => !s.cacheValid x) = a :: rest) :
      a ∈ cachePlaces key := by
    split at hfree
    · exact List.mem_append_right _ (List.mem_of_mem_filter (hfree ▸ List.mem_cons_self))
    · exact List.mem_append_left _ (List.mem_of_mem_filter (hfree ▸ List.mem_cons_self))
  unfold State.cacheInsert
  split
  · next a hfind => exact .inl ⟨a, List.mem_of_find?_eq_some (s.cacheFind_eq key ▸ hfind), .inl rfl⟩
  · dsimp only
    split
    · next hfree => exact .inl ⟨_, hplaces _ _ hfree, .inr rfl⟩
    · exact .inr rfl

theorem State.sramPut_keeps (s : State) (a : Nat) (bs : List Byte) (R : Nat → Prop) (E : List Nat) : Keeps s (s.sramPut a bs) R E [.sram] :=
  ⟨fun _ _ => rfl, fun _ _ => rfl, fun p hp => by cases p <;> simp_all [Part.same]⟩

theorem State.cacheInsert_keeps (s : State) (key : List Byte) (fe gp : Nat) :
    Keeps s (s.cacheInsert key fe gp).1 (onPages [0x19]) [2] [.sram] := by
  rcases s.cacheInsert_cases key fe gp with ⟨a, -, h | h⟩ | h
  · rw [h]; exact s.sramPut_keeps _ _ _ _
  · rw [h]; exact (s.sramPut_keeps _ _ _ _).put _ _ (.inl (by decide))
  · rw [h]
    exact (((Keeps.refl s _ _ _).incSat _ (.inl (by decide))).err 0x19 0x60 (.inl (by decide)) (.inl (by decide))).event 0x19 4 noUnit (by simp)
      (fun _ ha => .inr ha) (.inl (by decide)) (.inl (by decide))

theorem State.cacheFind_isSome (s : State) {key : List Byte} {a : Nat} (ha : a ∈ cachePlaces key) (hvalid : s.cacheValid a = true)
    (hkey : s.sramBytes a 8 = key) : (s.cacheFind key).isSome = true :=
  List.find?_isSome.mpr ⟨a, ha, by rw [hvalid, hkey, beq_self_eq_true]; rfl⟩

/-- The entry's VALID bit: bit 24 of FLAGS_EXP is set as it is written. -/
theorem State.sramPut_cacheValid (s : State) (a : Nat) {key : List Byte} (hlen : key.length = 8) (fe gp : Nat) :
    (s.sramPut a (cacheEntry key fe gp)).cacheValid a = true := by
  have hbit : (fe % 2 ^ 28 ||| 2 ^ 24) / 2 ^ 24 % 2 = 1 := by
    have h : (fe % 2 ^ 28 ||| 2 ^ 24).testBit 24 = true := by rw [Nat.testBit_or, Nat.testBit_two_pow_self, Bool.or_true]
    simpa [Nat.testBit_eq_decide_div_mod_eq] using h
  have hbyte : (s.sramPut a (cacheEntry key fe gp)).sramByte (a + 11) = BitVec.ofNat 8 ((fe % 2 ^ 28 ||| 2 ^ 24) / 256 / 256 / 256) := by
    rw [State.sramByte, State.sramPut, spRead_spWrites, dif_pos (by simp [cacheEntry, hlen])]
    simp [cacheEntry, hlen, le]
  rw [State.cacheValid, hbyte, BitVec.toNat_ofNat, beq_iff_eq]
  omega

/-- A key of 8 bytes is found after its insertion, or the insertion was refused. -/
theorem State.cacheInsert_finds (s : State) {key : List Byte} (hlen : key.length = 8) (fe gp : Nat) :
    ((s.cacheInsert key fe gp).1.cacheFind key).isSome = true ∨ (s.cacheInsert key fe gp).1.get (hdrErrcode 0x19) = 0x60 := by
  have hfound (a : Nat) (ha : a ∈ cachePlaces key) : ((s.sramPut a (cacheEntry key fe gp)).cacheFind key).isSome = true := by
    refine State.cacheFind_isSome _ ha (s.sramPut_cacheValid a hlen fe gp) ?_
    have hread := spReads_spWrites_append sramBlank key (le 4 (fe % 2 ^ 28 ||| 2 ^ 24) ++ le 4 (gp % 8 + gp / 65536 % 65536 * 65536)) s.sram a
    rw [hlen, ← List.append_assoc] at hread
    exact hread
  rcases s.cacheInsert_cases key fe gp with ⟨a, ha, h | h⟩ | h
  · rw [h]; exact .inl (hfound a ha)
  · rw [h]; exact .inl (hfound a ha)
  · rw [h, State.event_get _ _ _ _ _ (by decide)]
    exact .inr (State.err_code _ _ _)

/-- A lookup reads system SRAM alone. -/
theorem Keeps.cacheFind {s t : State} {R : Nat → Prop} {E : List Nat} {P : List Part} (h : Keeps s t R E P) (hp : Part.sram ∉ P) (key : List Byte) :
    t.cacheFind key = s.cacheFind key := by
  have hbyte : ∀ a, t.sramByte a = s.sramByte a := h.parts .sram hp
  have hbytes (n : Nat) : ∀ a, t.sramBytes a n = s.sramBytes a n := by
    induction n with
    | zero => exact fun _ => rfl
    | succ n ih => exact fun a => congrArg₂ List.cons (hbyte a) (ih (a + 1))
  simp only [State.cacheFind, State.cacheValid, hbyte, hbytes]

end Sys2Proof.Machine

/-! DECIDE, STOP_SESSION and SIGN_READING (O40). -/
namespace Sys2Proof.Machine

-- DECIDE (R344): the entry, the decision, the answer to the IDENTIFY, and its own

/-- INSERT of a DECIDE. -/
def State.decideInsert (s : State) (k : Nat) (f : Frame) : State :=
  if (fieldLe f.payload 5 1).testBit 0 then
    (s.cacheInsert (s.session k).key (fieldLe f.payload 12 4) (fieldLe f.payload 6 1 + 65536 * fieldLe f.payload 8 2)).1
  else s

/-- Does a DECIDE accept, and can the outlet take it? -/
def State.decideOk (s : State) (k : Nat) (f : Frame) : Bool := fieldLe f.payload 4 1 == 0 && s.bayAccepts k

/-- The referral ends with the decision. -/
def State.decideAct (s : State) (k : Nat) (f : Frame) (x : Session) : State :=
  let u := s.setSession k { x with referral := none }
  if u.decideOk k f then u.sesAccept k (fieldLe f.payload 6 1) (fieldLe f.payload 8 2) (fieldLe f.payload 12 4) else u.setSes k sesIdle

/-- A referred IDENTIFY is answered. -/
def State.answerReferral (s : State) (k : Nat) (ref : Option Nat) (result : Nat) : State :=
  match ref with
  | some r => s.sesAnswer k 0x20 r 0 (some result) 0xFFFFFFFF
  | none => s

/-- What a DECIDE does that is not refused. -/
def State.decided (s : State) (k : Nat) (f : Frame) : State :=
  (((s.decideInsert k f).decideAct k f (s.session k)).answerReferral k (s.session k).referral 4).sesAnswer k 0x21 f.seq 0
    (some (if ((s.decideInsert k f).setSession k { s.session k with referral := none }).decideOk k f then 0 else 3)) 0xFFFFFFFF

section
variable (s : State) (k : Fin 12) (f : Frame)

theorem exec_decide (hhead : s.cmdOutlet k 0x21 = some f) (htakes : s.sesTakes k f) (hlen : f.payload.length = 16) (hanswer : fieldLe f.payload 4 1 ≤ 1)
    (hplan : fieldLe f.payload 6 1 ≤ 7) (hses : s.ses k = sesPending) : exec (.decide k) s = done ((s.take (15 + k)).decided k f) := by
  have hbad : (decide (f.payload.length < 16) || decide (1 < fieldLe f.payload 4 1) || decide (7 < fieldLe f.payload 6 1)) = false := by
    simp [hlen, hanswer, hplan]
  have hopen : ((s.take (15 + k)).ses k != sesPending) = false := by
    rw [show (s.take (15 + k)).ses k = sesPending from hses]; rfl
  have hnone : (s.take (15 + k)).sesRefusal k f false false false false false = none := State.sesRefusal_none (s := s) htakes nofun
  rw [show exec (.decide k) s = execDecide k s from rfl, execDecide, State.onFabric_runs _ _ htakes.1]
  simp only [hhead, hbad, hopen, hnone]
  rfl

theorem exec_decide_closed (hhead : s.cmdOutlet k 0x21 = some f) (htakes : s.sesTakes k f) (hlen : f.payload.length = 16)
    (hanswer : fieldLe f.payload 4 1 ≤ 1) (hplan : fieldLe f.payload 6 1 ≤ 7) (hses : s.ses k ≠ sesPending) :
    exec (.decide k) s = done ((s.take (15 + k)).sesAnswer k 0x21 f.seq 0x63 none 0xFFFFFFFF) := by
  have hbad : (decide (f.payload.length < 16) || decide (1 < fieldLe f.payload 4 1) || decide (7 < fieldLe f.payload 6 1)) = false := by
    simp [hlen, hanswer, hplan]
  have hclosed : ((s.take (15 + k)).ses k != sesPending) = true := by
    rw [show (s.take (15 + k)).ses k = s.ses k from rfl]; simpa using hses
  have hcode : (s.take (15 + k)).sesRefusal k f false false true false false = some 0x63 := State.sesRefusal_closed (s := s) htakes _ _
  rw [show exec (.decide k) s = execDecide k s from rfl, execDecide, State.onFabric_runs _ _ htakes.1]
  simp only [hhead, hbad, hclosed, hcode]

end

section
variable {s t : State} {R : Nat → Prop} {E : List Nat} {P : List Part}

theorem Keeps.bay (h : Keeps s t R E P) {k : Nat} (hR : ¬ R (F.BAYK_STATE_CODE k).addr) : t.bay k = s.bay k := h.get (F.BAYK_STATE_CODE k) hR

theorem Keeps.bayReady (h : Keeps s t R E P) {k : Nat} (hR : ¬ R (F.BAYK_STATE_CODE k).addr) : t.bayReady k = s.bayReady k := by
  rw [State.bayReady, State.bayReady, h.bay hR]

end

theorem State.decideInsert_keeps (s : State) (k : Nat) (f : Frame) : Keeps s (s.decideInsert k f) (onPages [0x19]) [2] [.sram] :=
  Keeps.ite (s.cacheInsert_keeps _ _ _) (Keeps.refl s _ _ _)

/-- What the decision does to the session. -/
structure Decided (k : Nat) (s t : State) (f : Frame) : Prop where
  keeps : Keeps s t (acceptRegs k) [] [.se]
  ses : t.ses k = if fieldLe f.payload 4 1 = 0 then (if s.bayReady k then sesStarting else if s.bay k = stIdle then sesPreauth else sesIdle) else sesIdle
  starts : fieldLe f.payload 4 1 = 0 → s.bayReady k = true →
    t.on (F.BAYK_STATE_AUTHORISED k) = true ∧ t.get (F.SES_OUT_STAT_PLAN k) = fieldLe f.payload 6 1 % 8
  referral : (t.session k).referral = none

theorem State.decideAct_decided (s : State) {k : Nat} (hk : k < 12) (f : Frame) (x : Session) : Decided k s (s.decideAct k f x) f := by
  have hset := (s.setSession_keeps k { x with referral := none }).mono (R' := acceptRegs k) (by simp) (fun _ he => he) fun _ hp => hp
  have hready : (s.setSession k { x with referral := none }).bayReady k = s.bayReady k := rfl
  have hok : (s.setSession k { x with referral := none }).decideOk k f = s.decideOk k f := rfl
  have href : ((s.setSession k { x with referral := none }).session k).referral = none := by rw [State.setSession_session_same]
  rw [State.decideAct, hok]
  generalize s.setSession k { x with referral := none } = u at hset hready href ⊢
  have hacc := u.sesAccept_accepted hk (fieldLe f.payload 6 1) (fieldLe f.payload 8 2) (fieldLe f.payload 12 4)
  generalize u.sesAccept k (fieldLe f.payload 6 1) (fieldLe f.payload 8 2) (fieldLe f.payload 12 4) = v at hacc ⊢
  by_cases hyes : s.decideOk k f = true
  · rw [if_pos hyes]
    simp only [State.decideOk, State.bayAccepts, Bool.and_eq_true, beq_iff_eq, Bool.or_eq_true] at hyes
    obtain ⟨hanswer, hbay⟩ := hyes
    refine ⟨hset.trans hacc.keeps, ?_, fun _ hr => ?_, hacc.referral href⟩
    · rw [if_pos hanswer]
      by_cases hr : s.bayReady k = true
      · rw [if_pos hr, (hacc.starts (hready.trans hr)).1]
      · rw [if_neg hr, if_pos (hbay.resolve_left hr), (hacc.waits (hready.trans (Bool.eq_false_iff.mpr hr))).1]
    · obtain ⟨-, hauth, hplan, -⟩ := hacc.starts (hready.trans hr)
      exact ⟨hauth, hplan⟩
  · rw [if_neg hyes]
    simp only [State.decideOk, State.bayAccepts, Bool.and_eq_true, beq_iff_eq, Bool.or_eq_true, not_and, not_or] at hyes
    refine ⟨hset.trans ((u.setSes_keeps k sesIdle).mono (fun _ ha => .inl (setSes_regs hk ha)) (by simp) fun _ hp => hp), ?_,
      fun hanswer hr => absurd hr (hyes hanswer).1, ?_⟩
    · rw [State.setSes_ses]
      split
      · next hanswer => rw [if_neg (hyes hanswer).1, if_neg (hyes hanswer).2]; rfl
      · rfl
    · rw [State.setSes_session, href]

theorem State.answerReferral_keeps (s : State) (k : Nat) (ref : Option Nat) (result : Nat) : Keeps s (s.answerReferral k ref result) lostRegs [3 + k] [] := by
  cases ref with
  | none => exact Keeps.refl s _ _ _
  | some r => exact s.emit_keeps _ _ _ _ _

section
variable (s : State) (k : Fin 12) (f : Frame)

theorem exec_decide_decides (hhead : s.cmdOutlet k 0x21 = some f) (htakes : s.sesTakes k f) (hlen : f.payload.length = 16)
    (hanswer : fieldLe f.payload 4 1 ≤ 1) (hplan : fieldLe f.payload 6 1 ≤ 7) (hses : s.ses k = sesPending) :
    Ends (exec (.decide k) s) fun t =>
      t.ses k = (if fieldLe f.payload 4 1 = 0 then (if s.bayReady k then sesStarting else if s.bay k = stIdle then sesPreauth else sesIdle) else sesIdle)
      ∧ (fieldLe f.payload 4 1 = 0 → s.bayReady k = true → t.on (F.BAYK_STATE_AUTHORISED k) = true ∧ t.get (F.SES_OUT_STAT_PLAN k) = fieldLe f.payload 6 1)
      ∧ (t.session k).referral = none ∧ (t.ring (15 + k)).frames = (s.ring (15 + k)).frames.tail
      ∧ (∀ r, (s.session k).referral = some r → s.takes (3 + k) →
          ∃ g l, (t.ring (3 + k)).frames = (s.ring (3 + k)).frames ++ g :: l ∧ g.typ = 0xA0 ∧ g.ref = some r ∧ g.status = 0 ∧ fieldLe g.payload 0 1 = 4)
      ∧ ((fieldLe f.payload 5 1).testBit 0 = false → ∀ a, t.sramByte a = s.sramByte a)
      ∧ ((fieldLe f.payload 5 1).testBit 0 = true → (s.session k).key.length = 8 →
          (t.cacheFind (s.session k).key).isSome = true ∨ t.get (hdrErrcode 0x19) = 0x60)
      ∧ Keeps s t (onPages [0x19, 0x30 + k.val]) [2, 3 + k.val, 15 + k.val] [.se, .sram] := by
  have htake : Keeps s (s.take (15 + k)) (onPages [0x19]) [2, 15 + k.val] [.sram] := (Keeps.refl s _ _ _).take _ (by simp)
  have hgone : ((s.take (15 + k)).ring (15 + k)).frames = (s.ring (15 + k)).frames.tail := by rw [State.take_ring_same]
  have hsession : (s.take (15 + k)).session k = s.session k := htake.session (by simp) k
  have hins := (s.take (15 + k)).decideInsert_keeps k f
  have hquiet : (fieldLe f.payload 5 1).testBit 0 = false → (s.take (15 + k)).decideInsert k f = s.take (15 + k) := fun h => if_neg (by simp [h])
  have hfinds (hbit : (fieldLe f.payload 5 1).testBit 0 = true) (hkey : (s.session k).key.length = 8) :
      (((s.take (15 + k)).decideInsert k f).cacheFind (s.session k).key).isSome = true
        ∨ ((s.take (15 + k)).decideInsert k f).get (hdrErrcode 0x19) = 0x60 := by
    rw [State.decideInsert, if_pos hbit, hsession]
    exact State.cacheInsert_finds _ hkey _ _
  rw [exec_decide s k f hhead htakes hlen hanswer hplan hses, State.decided, hsession, State.sesAnswer_result]
  generalize (s.take (15 + k)).decideInsert k f = u at hins hquiet hfinds ⊢
  have hu : Keeps s u (onPages [0x19]) [2, 15 + k.val] [.sram] := htake.trans (hins.mono (fun _ ha => ha) (by simp) fun _ hp => hp)
  have hcode : ¬ onPages [0x19] (F.BAYK_STATE_CODE k).addr := by simp only [onPages, F.BAYK_STATE_CODE, List.mem_singleton]; omega
  have hdec := u.decideAct_decided k.isLt f (s.session k)
  generalize u.decideAct k f (s.session k) = v at hdec ⊢
  have hv : Keeps s v (onPages [0x19, 0x30 + k.val]) [2, 15 + k.val] [.se, .sram] :=
    (hu.mono (fun _ ha => ha.imp_left (by simp +contextual)) (fun _ he => he) (by simp)).trans (hdec.keeps.mono (fun _ ha => .inl (acceptRegs_page ha))
      (by simp) (by simp))
  have hgone' : (v.ring (15 + k)).frames = (s.ring (15 + k)).frames.tail := by rw [hdec.keeps.rings _ (by simp), hins.rings _ (by simp; omega), hgone]
  have hreferred (r : Nat) (hr : (s.session k).referral = some r) (htakes : s.takes (3 + k)) :
      ∃ g, ((v.answerReferral k (s.session k).referral 4).ring (3 + k)).frames = (s.ring (3 + k)).frames ++ [g] ∧ g.typ = 0xA0 ∧ g.ref = some r
        ∧ g.status = 0 ∧ g.payload = pad4 (v.sesPayload k 4 0xFFFFFFFF) := by
    rw [hr]
    exact hv.emitted (by simp; omega) (by simp only [onPages, F.HLKR_RING_CFG_COUNT_CODE, List.mem_cons, List.not_mem_nil, or_false]; omega)
      0xA0 (some r) 0 _ htakes
  have href := v.answerReferral_keeps k (s.session k).referral 4
  generalize v.answerReferral k (s.session k).referral 4 = w at href hreferred ⊢
  generalize (if (u.setSession k { s.session k with referral := none }).decideOk k f then 0 else 3) = result
  have hans := href.trans (w.emit_keeps (3 + k) (0x80 + 0x21) (some f.seq) 0 (w.sesPayload k result 0xFFFFFFFF))
  obtain ⟨l, hl⟩ := w.emit_extends (3 + k) (0x80 + 0x21) (some f.seq) 0 (w.sesPayload k result 0xFFFFFFFF)
  generalize w.emit (3 + k) (0x80 + 0x21) (some f.seq) 0 (w.sesPayload k result 0xFFFFFFFF) = t at hans hl ⊢
  have hsram : Keeps u t (fun a => acceptRegs k a ∨ lostRegs a) [3 + k.val] [.se] :=
    (hdec.keeps.mono (fun _ ha => .inl ha) (by simp) fun _ hp => hp).trans (hans.mono (fun _ ha => .inr ha) (fun _ he => he) (by simp))
  refine ⟨_, rfl, ?_, fun h0 hr => ?_, ?_, ?_, fun r hr htakes => ?_, fun hbit => ?_, fun hbit hkey => ?_, ?_⟩
  · rw [← hu.bayReady hcode, ← hu.bay hcode, ← hdec.ses]
    exact hans.ses (by simp only [A.SES_OUT_STAT]; omega)
  · obtain ⟨hauth, hpl⟩ := hdec.starts h0 ((hu.bayReady hcode).trans hr)
    rw [State.settle_on, State.settle_get, hans.on _ (by simp only [F.BAYK_STATE_AUTHORISED]; omega),
      hans.get _ (by simp only [F.SES_OUT_STAT_PLAN]; omega)]
    exact ⟨hauth, hpl.trans (Nat.mod_eq_of_lt (by omega))⟩
  · exact (congrArg Session.referral (hans.session (by simp) k)).trans hdec.referral
  · rw [State.settle_ring, hans.rings _ (by simp), hgone']
  · obtain ⟨g, hframes, htyp, hgref, hst, hpay⟩ := hreferred r hr htakes
    refine ⟨g, l, ?_, htyp, hgref, hst, ?_⟩
    · rw [State.settle_ring, hl, hframes, List.append_assoc, List.singleton_append]
    · rw [hpay, State.sesPayload_result]
  · exact fun a => (hsram.parts .sram (by simp) a).trans (by rw [hquiet hbit, State.take_sramByte])
  · rw [(hsram.settle).cacheFind (by simp), State.settle_get, hsram.get _ (by simp only [acceptRegs, hdrErrcode, F.BAYK_STATE_AUTHORISED]; omega)]
    exact hfinds hbit hkey
  · exact ((hv.mono (fun _ ha => ha) (by simp +contextual) fun _ hp => hp).trans (hans.mono (fun _ ha => .inr ha) (by simp +contextual) (by simp))).settle

end

-- STOP_SESSION (R344, R345)

section
variable (s : State) (k : Fin 12) (f : Frame)

/-- Does the session allow no stop? -/
def State.stopClosed (s : State) (k : Nat) : Bool := s.ses k == sesIdle || s.ses k == sesPending

/-- What a STOP_SESSION does. -/
def State.stopped (s : State) (k : Nat) : State := if s.ses k = sesPreauth then s.setSes k sesIdle else s.sesStop k 0x01

theorem exec_stopSession (hhead : s.cmdOutlet k 0x22 = some f) (htakes : s.sesTakes k f) (hlen : f.payload.length = 8) (hopen : s.stopClosed k = false) :
    exec (.stopSession k) s = done (((s.take (15 + k)).stopped k).sesAnswer k 0x22 f.seq 0 (some 6) 0xFFFFFFFF) := by
  have hbad : decide (f.payload.length < 8) = false := by simp [hlen]
  have hopen' : ((s.take (15 + k)).ses k == sesIdle || (s.take (15 + k)).ses k == sesPending) = false := hopen
  have hnone : (s.take (15 + k)).sesRefusal k f false false false false false = none := State.sesRefusal_none (s := s) htakes nofun
  rw [show exec (.stopSession k) s = execStopSession k s from rfl, execStopSession, State.onFabric_runs _ _ htakes.1]
  simp only [hhead, hbad, hopen', hnone]
  rfl

theorem exec_stopSession_closed (hhead : s.cmdOutlet k 0x22 = some f) (htakes : s.sesTakes k f) (hlen : f.payload.length = 8)
    (hclosed : s.stopClosed k = true) : exec (.stopSession k) s = done ((s.take (15 + k)).sesAnswer k 0x22 f.seq 0x63 none 0xFFFFFFFF) := by
  have hbad : decide (f.payload.length < 8) = false := by simp [hlen]
  have hclosed' : ((s.take (15 + k)).ses k == sesIdle || (s.take (15 + k)).ses k == sesPending) = true := hclosed
  have hcode : (s.take (15 + k)).sesRefusal k f false false true false false = some 0x63 := State.sesRefusal_closed (s := s) htakes _ _
  rw [show exec (.stopSession k) s = execStopSession k s from rfl, execStopSession, State.onFabric_runs _ _ htakes.1]
  simp only [hhead, hbad, hclosed', hcode]

end

theorem State.stopped_keeps (s : State) {k : Nat} (hk : k < 12) :
    Keeps s (s.stopped k) (onPages [0x16, 0x17, 0x19, 0x30 + k]) [3 + k] [.se, .outlets, .rcm] :=
  Keeps.ite ((s.setSes_keeps k sesIdle).mono (fun _ ha => .inl (by simp [List.mem_singleton.mp (sesBlock_page (setSes_regs hk ha))])) (by simp)
    (by simp)) (s.sesStop_keeps hk 0x01)

/-- A stop before any energy has flowed, or after a stop, moves SES alone. -/
theorem State.stopped_quiet (s : State) {k : Nat} (hk : k < 12)
    (h : s.ses k = sesPreauth ∨ (s.ses k = sesStarting ∧ (s.session k).held = none) ∨ s.ses k = sesEnding) :
    Keeps s (s.stopped k) sesBlock [] [.se] := by
  rcases h with h | ⟨h, hheld⟩ | h
  · rw [State.stopped, if_pos h]
    exact (s.setSes_keeps k sesIdle).mono (fun _ ha => setSes_regs hk ha) (by simp) fun _ hp => hp
  · rw [State.stopped, if_neg (by rw [h]; decide), s.sesStop_starting 0x01 h hheld]
    exact (s.setSession_keeps k _).mono (by simp) (by simp) fun _ hp => hp
  · rw [State.stopped, if_neg (by rw [h]; decide), s.sesStop_ending 0x01 h]
    exact Keeps.refl s _ _ _

section
variable (s : State) (k : Fin 12) (f : Frame)

/-- A stop that is not refused: the session stops, then the command is answered. -/
theorem exec_stopSession_acts (hhead : s.cmdOutlet k 0x22 = some f) (htakes : s.sesTakes k f) (hlen : f.payload.length = 8) (hopen : s.stopClosed k = false) :
    ∃ t, exec (.stopSession k) s = .next t ∧ Keeps ((s.take (15 + k)).stopped k) t lostRegs [3 + k.val] []
      ∧ (t.ring (15 + k)).frames = (s.ring (15 + k)).frames.tail
      ∧ (s.ses k = sesPreauth ∨ (s.ses k = sesStarting ∧ (s.session k).held = none) ∨ s.ses k = sesEnding → outletReply s t k f 0) := by
  have hgone : ((s.take (15 + k)).ring (15 + k)).frames = (s.ring (15 + k)).frames.tail := by rw [State.take_ring_same]
  have hstop := (s.take (15 + k)).stopped_keeps k.isLt
  have hquiet : s.ses k = sesPreauth ∨ (s.ses k = sesStarting ∧ (s.session k).held = none) ∨ s.ses k = sesEnding →
      Keeps s ((s.take (15 + k)).stopped k) sesBlock [15 + k.val] [.se] := fun h =>
    ((Keeps.refl s _ _ _).take _ (by simp)).trans (((s.take (15 + k)).stopped_quiet k.isLt h).mono (fun _ ha => ha) (by simp) fun _ hp => hp)
  rw [exec_stopSession s k f hhead htakes hlen hopen, State.sesAnswer_result]
  generalize (s.take (15 + k)).stopped k = v at hstop hquiet ⊢
  have hans := v.emit_keeps (3 + k) (0x80 + 0x22) (some f.seq) 0 (v.sesPayload k 6 0xFFFFFFFF)
  refine ⟨_, rfl, hans.settle, ?_, fun h => ?_⟩
  · rw [State.settle_ring, hans.rings _ (by simp), hstop.rings _ (by simp), hgone]
  · exact outletReply_of_ring (outletReply_emit (hquiet h) hhead (by simp) (by simp only [sesBlock, F.HLKR_RING_CFG_COUNT_CODE]; omega) 0 _)
      (State.settle_ring _ _)

theorem exec_stopSession_stops (hhead : s.cmdOutlet k 0x22 = some f) (htakes : s.sesTakes k f) (hlen : f.payload.length = 8) :
    Ends (exec (.stopSession k) s) fun t =>
      (t.ring (15 + k)).frames = (s.ring (15 + k)).frames.tail
      ∧ (s.ses k = sesPreauth → t.ses k = sesIdle ∧ outletReply s t k f 0)
      ∧ (s.ses k = sesStarting → (s.session k).held = none → t.ses k = sesStarting ∧ (t.session k).held = some 0x01 ∧ outletReply s t k f 0)
      ∧ (s.ses k = sesActive → (s.session k).startMark ≠ 0 →
          t.ses k = sesEnding ∧ (t.session k).reason = 0x01 ∧ t.on (F.BAYK_STATE_AUTHORISED k) = false)
      ∧ (s.ses k = sesEnding → t.ses k = sesEnding ∧ (t.session k).reason = (s.session k).reason ∧ outletReply s t k f 0)
      ∧ (s.ses k = sesIdle ∨ s.ses k = sesPending → t.ses k = s.ses k ∧ t.get (hdrErrcode 0x19) = 0x63 ∧ outletReply s t k f 0x63)
      ∧ Keeps s t (onPages [0x16, 0x17, 0x19, 0x30 + k.val]) [3 + k.val, 15 + k.val] [.se, .outlets, .rcm, .fresh] := by
  by_cases hclosed : s.stopClosed k = true
  · obtain ⟨t, hexec, hcode, hses, hgone, hreply, hkeep⟩ :=
      ends_sesRefused k.isLt hhead (by decide) (by decide) (exec_stopSession_closed s k f hhead htakes hlen hclosed)
    have hnot (st : Nat) (h1 : st ≠ sesIdle) (h2 : st ≠ sesPending) (h : s.ses k = st) : False := by
      simp only [State.stopClosed, Bool.or_eq_true, beq_iff_eq, h] at hclosed
      exact hclosed.elim h1 h2
    refine ⟨t, hexec, hgone, fun h => (hnot _ (by decide) (by decide) h).elim, fun h => (hnot _ (by decide) (by decide) h).elim,
      fun h => (hnot _ (by decide) (by decide) h).elim, fun h => (hnot _ (by decide) (by decide) h).elim, fun _ => ⟨hses, hcode, hreply⟩,
      hkeep.mono (fun a ha => ha.imp_left fun ha => ?_) (fun _ he => he) (by simp)⟩
    rcases ha with rfl | rfl <;> simp
  · have hopen : s.stopClosed k = false := Bool.eq_false_iff.mpr hclosed
    obtain ⟨t, hexec, hans, hgone, hreply⟩ := exec_stopSession_acts s k f hhead htakes hlen hopen
    have hses : t.ses k = ((s.take (15 + k)).stopped k).ses k := hans.ses (by simp only [A.SES_OUT_STAT]; omega)
    have hsession : t.session k = ((s.take (15 + k)).stopped k).session k := hans.session (by simp) k
    refine ⟨t, hexec, hgone, fun h => ⟨?_, hreply (.inl h)⟩, fun h hheld => ?_, fun h hmark => ?_, fun h => ?_, fun h => ?_, ?_⟩
    · rw [hses, State.stopped, if_pos (show (s.take (15 + k)).ses k = sesPreauth from h)]
      exact State.setSes_ses _ _ _
    · have hstop : (s.take (15 + k)).stopped k = (s.take (15 + k)).setSession k { (s.take (15 + k)).session k with held := some 0x01 } :=
        (if_neg fun hpre => absurd (h.symm.trans hpre) (by decide)).trans ((s.take (15 + k)).sesStop_starting 0x01 h hheld)
      refine ⟨?_, ?_, hreply (.inr (.inl ⟨h, hheld⟩))⟩
      · rw [hses, hstop]
        exact h
      · rw [hsession, hstop, State.setSession_session_same]
    · have hstop : (s.take (15 + k)).stopped k = (s.take (15 + k)).sesStop k 0x01 := if_neg fun hpre => absurd (h.symm.trans hpre) (by decide)
      obtain ⟨hending, hreason, hoff⟩ := (s.take (15 + k)).sesStop_active k.isLt 0x01 h hmark
      rw [hses, hsession, hans.on _ (by simp only [F.BAYK_STATE_AUTHORISED]; omega), hstop]
      exact ⟨hending, hreason, hoff⟩
    · have hstop : (s.take (15 + k)).stopped k = s.take (15 + k) :=
        (if_neg fun hpre => absurd (h.symm.trans hpre) (by decide)).trans ((s.take (15 + k)).sesStop_ending 0x01 h)
      rw [hses, hsession, hstop]
      exact ⟨h, rfl, hreply (.inr (.inr h))⟩
    · exact absurd (by simpa [State.stopClosed] using h) hclosed
    · exact (((Keeps.refl s _ _ _).take (15 + k) (by simp)).trans (((s.take (15 + k)).stopped_keeps k.isLt).mono (fun _ ha => ha) (by simp +contextual)
        (by simp +contextual))).trans (hans.mono (fun _ ha => .inr ha) (by simp +contextual) (by simp))

end

theorem exec_signReading (s : State) (k : Fin 12) (f : Frame) (hhead : s.cmdOutlet k 0x23 = some f) (htakes : s.sesTakes k f)
    (hlen : f.payload.length = 12) (hmark : s.legal.watermark ≠ 0xFFFFFFFF) (hkey : s.on F.SEA_STAT_KEY_OK = true) :
    Ends (exec (.signReading k) s) fun t =>
      t.se = { s.se with meters := s.se.meters ++ [⟨k, (f.payload.drop 4).take 8, some f.seq⟩] }
      ∧ (t.ring (15 + k)).frames = (s.ring (15 + k)).frames.tail ∧ Keeps s t (among []) [15 + k.val] [.se] := by
  have hbad : decide (f.payload.length < 12) = false := by simp [hlen]
  have hnone : (s.take (15 + k)).sesRefusal k f false false false true false = none := State.sesRefusal_none (s := s) htakes fun _ => ⟨hmark, hkey⟩
  have hexec : exec (.signReading k) s = done { s.take (15 + k) with
      se := { s.se with meters := s.se.meters ++ [⟨k, (f.payload.drop 4).take 8, some f.seq⟩] } } := by
    rw [show exec (.signReading k) s = execSignReading k s from rfl, execSignReading, State.onFabric_runs _ _ htakes.1]
    simp only [hhead, hbad, hnone]
    rfl
  refine ⟨_, hexec, rfl, ?_, ((((Keeps.refl s _ _ _).take _ (by simp)).withSe _ (by simp))).settle⟩
  exact congrArg Ring.frames (s.take_ring_same (15 + k))

/-- Settles O40, clause by clause. -/
theorem sessionCommands : Obligations.SessionCommands :=
  ⟨exec_identify_starts, exec_identify_waits, exec_identify_refers, exec_identify_denied, exec_identify_tap,
    fun s k f hhead h hlen => ends_sesRefused k.isLt hhead (by decide) (by decide) (exec_identify_short s k f hhead h hlen),
    exec_decide_decides,
    fun s k f hhead htakes hlen hanswer hplan hses =>
      ends_sesRefused k.isLt hhead (by decide) (by decide) (exec_decide_closed s k f hhead htakes hlen hanswer hplan hses),
    exec_stopSession_stops, exec_signReading⟩

end Sys2Proof.Machine

/-! The session timers and meter periods (O41). -/
namespace Sys2Proof.Machine

-- DECIDE_TIMEOUT, PLUG_TIMEOUT and END_TIMEOUT (R344)

theorem exec_decideTimeout_ends (s : State) (k : Fin 12) (r : Nat) (h : s.runs = true) (hses : s.ses k = sesPending)
    (href : (s.session k).referral = some r) :
    Ends (exec (.decideTimeout k) s) fun t =>
      t.ses k = sesIdle ∧ (t.session k).referral = none
      ∧ (s.takes (3 + k) → ∃ g, (t.ring (3 + k)).frames = (s.ring (3 + k)).frames ++ [g] ∧ g.typ = 0xA0 ∧ g.ref = some r ∧ g.status = 0
          ∧ fieldLe g.payload 0 1 = 5)
      ∧ Keeps s t (fun a => a = A.SES_OUT_STAT k ∨ a = A.SES_ACTIVE_MASK ∨ lostRegs a) [3 + k.val] [.se] := by
  let u := s.setSession k { s.session k with referral := none }
  have hu : Keeps s u (among [A.SES_OUT_STAT k, A.SES_ACTIVE_MASK]) [] [.se] := (s.setSession_keeps k _).mono (by simp) (by simp) fun _ hp => hp
  have hexec : exec (.decideTimeout k) s = done ((u.setSes k sesIdle).sesAnswer k 0x20 r 0 (some 5) 0xFFFFFFFF) := by
    rw [show exec (.decideTimeout k) s = execDecideTimeout k s from rfl, execDecideTimeout, State.onFabric_runs _ _ h, if_pos hses,
      State.endReferral, href]
  have hv := hu.trans (u.setSes_keeps k sesIdle)
  have hidle : (u.setSes k sesIdle).ses k = sesIdle := u.setSes_ses k sesIdle
  have hnone : ((u.setSes k sesIdle).session k).referral = none := by rw [State.setSes_session, State.setSession_session_same]
  rw [hexec, State.sesAnswer_result]
  generalize u.setSes k sesIdle = v at hv hidle hnone ⊢
  have hans := v.emit_keeps (3 + k) (0x80 + 0x20) (some r) 0 (v.sesPayload k 5 0xFFFFFFFF)
  refine ⟨_, rfl, ?_, ?_, fun htakes => ?_, ?_⟩
  · exact (hans.ses (by simp only [A.SES_OUT_STAT]; omega)).trans hidle
  · exact (congrArg Session.referral (hans.session (by simp) k)).trans hnone
  · obtain ⟨g, hframes, htyp, hgref, hst, hpay⟩ := hv.emitted (by simp) (by
      simp only [List.mem_cons, List.not_mem_nil, or_false, F.HLKR_RING_CFG_COUNT_CODE, A.SES_OUT_STAT, A.SES_ACTIVE_MASK]; omega)
      (0x80 + 0x20) (some r) 0 (v.sesPayload k 5 0xFFFFFFFF) htakes
    exact ⟨g, hframes, htyp, hgref, hst, by rw [hpay, State.sesPayload_result]⟩
  · exact ((hv.mono (fun _ ha => (List.mem_pair.mp ha).imp_right .inl) (by simp) fun _ hp => hp).trans
      (hans.mono (fun _ ha => .inr (.inr ha)) (fun _ he => he) (by simp))).settle

theorem exec_decideTimeout_none (s : State) (k : Fin 12) (h : s.runs = true) (hses : s.ses k ≠ sesPending) :
    Ends (exec (.decideTimeout k) s) fun t => Keeps s t (among []) [] [] := by
  refine ⟨s.settle, ?_, (Keeps.refl s _ _ _).settle⟩
  rw [show exec (.decideTimeout k) s = execDecideTimeout k s from rfl, execDecideTimeout, State.onFabric_runs _ _ h, if_neg hses]
  rfl

theorem exec_plugTimeout (s : State) (k : Fin 12) (h : s.runs = true) :
    Ends (exec (.plugTimeout k) s) fun t =>
      t.ses k = (if s.ses k = sesPreauth then sesIdle else s.ses k) ∧ (∀ j, t.session j = s.session j)
      ∧ Keeps s t (among [A.SES_OUT_STAT k, A.SES_ACTIVE_MASK]) [] [.se] := by
  have hexec : exec (.plugTimeout k) s = if s.ses k = sesPreauth then done (s.setSes k sesIdle) else done s := by
    rw [show exec (.plugTimeout k) s = execPlugTimeout k s from rfl, execPlugTimeout, State.onFabric_runs _ _ h]
  rw [hexec]
  by_cases hpre : s.ses k = sesPreauth
  · rw [if_pos hpre, if_pos hpre]
    exact ⟨_, rfl, s.setSes_ses k sesIdle, fun j => s.setSes_session k sesIdle j, (s.setSes_keeps k sesIdle).settle⟩
  · rw [if_neg hpre, if_neg hpre]
    exact ⟨_, rfl, rfl, fun _ => rfl, (Keeps.refl s _ _ _).settle⟩

theorem exec_endTimeout (s : State) (k : Fin 12) (h : s.runs = true) :
    Ends (exec (.endTimeout k) s) fun t =>
      (s.ses k = sesEnding → (s.session k).wait = false →
        t.session k = { s.session k with wait := true, notOpen := s.on (F.BAYK_STATE_CLOSED k) })
      ∧ (s.ses k ≠ sesEnding ∨ (s.session k).wait = true → t.se = s.se) ∧ (∀ j, j ≠ k.val → t.session j = s.session j) ∧ Keeps s t (among []) [] [.se] := by
  let u := s.setSession k { s.session k with wait := true, notOpen := s.on (F.BAYK_STATE_CLOSED k) }
  have hexec : exec (.endTimeout k) s = if s.ses k = sesEnding ∧ (s.session k).wait = false then done (u.saveEntry k) else done s := by
    rw [show exec (.endTimeout k) s = execEndTimeout k s from rfl, execEndTimeout, State.onFabric_runs _ _ h]
  rw [hexec]
  by_cases hend : s.ses k = sesEnding ∧ (s.session k).wait = false
  · rw [if_pos hend]
    refine ⟨_, rfl, fun _ _ => ?_, fun hor => ?_, fun j hj => ?_, ((s.setSession_keeps k _).trans (u.saveEntry_keeps k)).settle⟩
    · exact (u.saveEntry_session k k).trans (s.setSession_session_same k _)
    · obtain ⟨hses, hwait⟩ := hend
      exact (hor.elim (· hses) fun htrue => absurd (hwait.symm.trans htrue) (by decide)).elim
    · exact (u.saveEntry_session k j).trans (s.setSession_session_other _ hj)
  · rw [if_neg hend]
    exact ⟨_, rfl, fun h1 h2 => absurd ⟨h1, h2⟩ hend, fun _ => rfl, fun _ _ => rfl, (Keeps.refl s _ _ _).settle⟩

-- METER_PERIOD_DUE (R355, R506)

/-- A METER record for every outlet enabled in MTR. -/
def State.meterDue (s : State) : List MeterReq :=
  ((List.range 12).filter fun k => s.enabled (0x20 + k)).map fun k => ⟨k, List.replicate 8 0, none⟩

theorem State.mem_meterDue (s : State) (m : MeterReq) :
    m ∈ s.meterDue ↔ m.outlet < 12 ∧ s.enabled (0x20 + m.outlet) = true ∧ m.context = List.replicate 8 0 ∧ m.ref = none := by
  simp only [State.meterDue, List.mem_map, List.mem_filter, List.mem_range]
  constructor
  · rintro ⟨k, ⟨hk, hen⟩, rfl⟩
    exact ⟨hk, hen, rfl, rfl⟩
  · rintro ⟨hk, hen, hctx, href⟩
    exact ⟨m.outlet, ⟨hk, hen⟩, by rw [← hctx, ← href]⟩

theorem exec_meterPeriodDue (s : State) (h : s.runs = true) :
    exec .meterPeriodDue s = if s.get F.SES_TIMING_METER_PERIOD = 0 ∨ s.pf.warned = true ∨ s.enabled 0x19 = false then done s
      else if !s.on F.SEA_STAT_KEY_OK then done (s.err 0x19 0xA6)
      else done { s with se := { s.se with meters := s.se.meters ++ s.meterDue } } := by
  rw [show exec .meterPeriodDue s = execMeterPeriodDue s from rfl, execMeterPeriodDue, State.onFabric_runs _ _ h]
  rfl

theorem meterPeriod_on (s : State) (hper : s.get F.SES_TIMING_METER_PERIOD ≠ 0) (hwarn : s.pf.warned = false) (hen : s.enabled 0x19 = true) :
    ¬ (s.get F.SES_TIMING_METER_PERIOD = 0 ∨ s.pf.warned = true ∨ s.enabled 0x19 = false) := by
  simp [hper, hwarn, hen]

section
variable (s : State) (h : s.runs = true)
include h

theorem exec_meterPeriodDue_off (hoff : s.get F.SES_TIMING_METER_PERIOD = 0 ∨ s.pf.warned = true ∨ s.enabled 0x19 = false) :
    Ends (exec .meterPeriodDue s) fun t => Keeps s t (among []) [] [] := by
  rw [exec_meterPeriodDue s h, if_pos hoff]
  exact ⟨_, rfl, (Keeps.refl s _ _ _).settle⟩

section
variable (hper : s.get F.SES_TIMING_METER_PERIOD ≠ 0) (hwarn : s.pf.warned = false) (hen : s.enabled 0x19 = true)
include hper hwarn hen

theorem exec_meterPeriodDue_asks (hkey : s.on F.SEA_STAT_KEY_OK = true) :
    Ends (exec .meterPeriodDue s) fun t =>
      (∀ k, k < 12 → s.enabled (0x20 + k) = true → (⟨k, List.replicate 8 0, none⟩ : MeterReq) ∈ t.se.meters)
      ∧ (∃ l, t.se = { s.se with meters := s.se.meters ++ l } ∧ ∀ m ∈ l, m.outlet < 12 ∧ s.enabled (0x20 + m.outlet) = true ∧ m.ref = none)
      ∧ Keeps s t (among []) [] [.se] := by
  rw [exec_meterPeriodDue s h, if_neg (meterPeriod_on s hper hwarn hen), if_neg (by simp [hkey])]
  refine ⟨_, rfl, fun k hk hmtr => ?_, ⟨s.meterDue, rfl, fun m hm => ?_⟩, ((Keeps.refl s _ _ _).withSe _ (by simp)).settle⟩
  · exact List.mem_append_right _ ((s.mem_meterDue _).mpr ⟨hk, hmtr, rfl, rfl⟩)
  · obtain ⟨hk, hmtr, -, href⟩ := (s.mem_meterDue m).mp hm
    exact ⟨hk, hmtr, href⟩

theorem exec_meterPeriodDue_keyless (hkey : s.on F.SEA_STAT_KEY_OK = false) :
    Ends (exec .meterPeriodDue s) fun t => t.get (hdrErrcode 0x19) = 0xA6 ∧ Keeps s t (errRegs 0x19) [] [] := by
  rw [exec_meterPeriodDue s h, if_neg (meterPeriod_on s hper hwarn hen), if_pos (by simp [hkey])]
  exact ⟨_, rfl, s.err_code 0x19 0xA6, ((Keeps.refl s _ _ _).err 0x19 0xA6 (.inl rfl) (.inr rfl)).settle⟩

end

end

end Sys2Proof.Machine

/-! The second tick (O41): what a second costs one session, and that the sessions of the other outlets leave it alone. -/
namespace Sys2Proof.Machine

/-- Is the session billed by the second (R350)? -/
abbrev State.billed (s : State) (k : Nat) : Prop := (s.ses k = sesActive ∨ s.ses k = sesEnding) ∧ (s.session k).stopping = false

/-- Has no energy flowed for the grace time (R350)? -/
def State.idles (s : State) (k : Nat) : Bool :=
  s.get (F.MTRK_ESTAT_RUNNING k) == 0 && decide (s.get F.SES_IDLE_CFG_IDLE_GRACE * 60 * 32768 ≤ s.ts - (s.meter k).idleFrom)

/-- The price of the second: time while the contactor is closed, and idle time. -/
def State.secondPrice (s : State) (k : Nat) : Nat :=
  match s.period (s.get (F.SES_OUT_STAT_PLAN k)) (s.utc - 1) with
  | some t => (if s.on (F.BAYK_STATE_CLOSED k) then t.time * 1000 else 0) + (if s.idles k then t.idle * 1000 else 0)
  | none => 0

/-- The idle second counted. -/
def State.countIdle (s : State) (k : Nat) (idle : Bool) : State := if idle then s.inc (F.SES_OUT_IDLE_S k) else s

/-- The second charged to the session. -/
def State.chargeSecond (s : State) (k : Nat) : State :=
  let u := (s.setSession k { s.session k with cost := ((s.session k).cost + s.secondPrice k) % 2 ^ 64 }).countIdle k (s.idles k)
  ((u.put (F.SES_OUT_DURATION k) ((u.ts - (s.session k).startTs) / 32768)).showCost k).saveEntry k

theorem State.sesSecond_eq (s : State) (k : Nat) : s.sesSecond k = if s.billed k then s.chargeSecond k else s := rfl

/-- COST, DURATION and IDLE_S of an outlet. -/
abbrev secondRegs (k a : Nat) : Prop := a = A.SES_OUT_COST k ∨ a = A.SES_OUT_DURATION k ∨ a = A.SES_OUT_IDLE_S k

/-- What a second charged does to the session and its registers. -/
structure Charged (k : Nat) (s t : State) : Prop where
  keeps : Keeps s t (secondRegs k) [] [.se]
  session : t.session k = { s.session k with cost := ((s.session k).cost + s.secondPrice k) % 2 ^ 64 }
  others : ∀ j, j ≠ k → t.session j = s.session j
  zone : t.se.tzNow = s.se.tzNow
  duration : t.get (F.SES_OUT_DURATION k) = (s.ts - (s.session k).startTs) / 32768 % 2 ^ 32
  idle : t.get (F.SES_OUT_IDLE_S k) = if s.idles k then (s.get (F.SES_OUT_IDLE_S k) + 1) % 2 ^ 32 else s.get (F.SES_OUT_IDLE_S k)

theorem State.countIdle_keeps (s : State) (k : Nat) (idle : Bool) : Keeps s (s.countIdle k idle) (secondRegs k) [] [] :=
  Keeps.ite ((Keeps.refl s _ _ _).inc _ (.inr (.inr rfl))) (Keeps.refl s _ _ _)

theorem State.countIdle_idle (s : State) (k : Nat) (idle : Bool) :
    (s.countIdle k idle).get (F.SES_OUT_IDLE_S k) = if idle then (s.get (F.SES_OUT_IDLE_S k) + 1) % 2 ^ 32 else s.get (F.SES_OUT_IDLE_S k) := by
  unfold State.countIdle
  split
  · exact State.inc_get_same _ _ (by simp [F.SES_OUT_IDLE_S])
  · rfl

@[simp] theorem State.countIdle_session (s : State) (k : Nat) (idle : Bool) (j : Nat) : (s.countIdle k idle).session j = s.session j :=
  (s.countIdle_keeps k idle).session (by simp) j

/-- The register view of a second charged: DURATION and COST, and the entry saved. -/
def State.showSecond (s : State) (k from' : Nat) : State :=
  ((s.put (F.SES_OUT_DURATION k) ((s.ts - from') / 32768)).showCost k).saveEntry k

theorem State.showSecond_spec (s : State) (k from' : Nat) :
    Keeps s (s.showSecond k from') (secondRegs k) [] [.se] ∧ (∀ j, (s.showSecond k from').session j = s.session j)
      ∧ (s.showSecond k from').se.tzNow = s.se.tzNow ∧ (s.showSecond k from').get (F.SES_OUT_DURATION k) = (s.ts - from') / 32768 % 2 ^ 32
      ∧ (s.showSecond k from').get (F.SES_OUT_IDLE_S k) = s.get (F.SES_OUT_IDLE_S k) := by
  obtain ⟨l, heq⟩ := State.saveEntry_eq ((s.put (F.SES_OUT_DURATION k) ((s.ts - from') / 32768)).showCost k) k
  refine ⟨(((Keeps.refl s _ _ _).put _ _ (.inr (.inl rfl))).put _ _ (.inl rfl)).trans ((State.saveEntry_keeps _ k).mono (by simp) (by simp)
    fun _ hp => hp), fun j => ?_, ?_, ?_, ?_⟩
  · rw [State.showSecond, State.saveEntry_session]
    rfl
  · rw [State.showSecond, heq]
    rfl
  · rw [State.showSecond, State.saveEntry_get, State.showCost, State.put_get_other _ _ _ _ (by simp [F.SES_OUT_DURATION, F.SES_OUT_COST])]
    exact State.put_get_same _ _ _ (by simp [F.SES_OUT_DURATION])
  · rw [State.showSecond, State.saveEntry_get, State.showCost, State.put_get_other _ _ _ _ (by simp [F.SES_OUT_IDLE_S, F.SES_OUT_COST]),
      State.put_get_other _ _ _ _ (by simp [F.SES_OUT_IDLE_S, F.SES_OUT_DURATION])]

theorem State.chargeSecond_charged (s : State) (k : Nat) : Charged k s (s.chargeSecond k) := by
  let u := s.setSession k { s.session k with cost := ((s.session k).cost + s.secondPrice k) % 2 ^ 64 }
  have hcount := u.countIdle_keeps k (s.idles k)
  have hse : (u.countIdle k (s.idles k)).se = u.se := hcount.parts .se (by simp)
  have hts : (u.countIdle k (s.idles k)).ts = s.ts := hcount.parts .ts (by simp)
  obtain ⟨hshow, hsession, hzone, hduration, hidle⟩ := (u.countIdle k (s.idles k)).showSecond_spec k (s.session k).startTs
  refine ⟨?_, ?_, fun j hj => ?_, ?_, ?_, ?_⟩
  · exact (((s.setSession_keeps k _).mono (by simp) (by simp) fun _ hp => hp).trans (hcount.mono (fun _ ha => ha) (by simp) (by simp))).trans hshow
  · exact (hsession k).trans ((State.countIdle_session u k _ k).trans (s.setSession_session_same k _))
  · exact (hsession j).trans ((State.countIdle_session u k _ j).trans (s.setSession_session_other _ hj))
  · rw [State.chargeSecond]
    exact hzone.trans ((congrArg Sessions.tzNow hse).trans rfl)
  · rw [← hts]
    exact hduration
  · exact hidle.trans (State.countIdle_idle u k _)

-- The sessions of the other outlets

/-- The session registers of the outlets other than `k`. -/
abbrev otherRegs (k a : Nat) : Prop := (0x19200 ≤ a ∧ a < 0x19380) ∧ ¬ (0x19200 + 32 * k ≤ a ∧ a < 0x19220 + 32 * k)

/-- `t` is `s` but for what the second tick does to other outlets' sessions than `k`'s. -/
structure SecondApart (k : Nat) (s t : State) : Prop where
  keeps : Keeps s t (otherRegs k) [] [.se]
  session : t.session k = s.session k
  zone : t.se.tzNow = s.se.tzNow

theorem SecondApart.refl (k : Nat) (s : State) : SecondApart k s s := ⟨Keeps.refl s _ _ _, rfl, rfl⟩

theorem SecondApart.sesSecond {k j : Nat} {s t : State} (h : SecondApart k s t) (hj : j < 12) (hne : j ≠ k) : SecondApart k s (t.sesSecond j) := by
  rw [State.sesSecond_eq]
  split
  · have hcharged := t.chargeSecond_charged j
    refine ⟨h.keeps.trans (hcharged.keeps.mono (fun a ha => ?_) (by simp) fun _ hp => hp), (hcharged.others k hne.symm).trans h.session,
      hcharged.zone.trans h.zone⟩
    simp only [secondRegs, A.SES_OUT_COST, A.SES_OUT_DURATION, A.SES_OUT_IDLE_S] at ha
    simp only [otherRegs]
    omega
  · exact h

theorem SecondApart.foldl {k : Nat} {s t : State} (h : SecondApart k s t) (l : List Nat) (hl : ∀ j ∈ l, j < 12 ∧ j ≠ k) :
    SecondApart k s (l.foldl State.sesSecond t) :=
  List.foldlRecOn l _ (motive := fun u => SecondApart k s u) h fun _ hu j hj => hu.sesSecond (hl j hj).1 (hl j hj).2

/-- The twelve seconds, seen from one outlet: its own between those of others. -/
theorem State.seconds_split (s : State) {k : Nat} (hk : k < 12) :
    ∃ u, SecondApart k s u ∧ SecondApart k (u.sesSecond k) ((List.range 12).foldl State.sesSecond s) := by
  obtain ⟨l, m, hl⟩ := List.append_of_mem (List.mem_range.mpr hk)
  have hnodup : (l ++ k :: m).Nodup := hl ▸ List.nodup_range
  have hlt (j : Nat) (hj : j ∈ l ++ k :: m) : j < 12 := List.mem_range.mp (hl ▸ hj)
  obtain ⟨-, hm, hdisj⟩ := List.nodup_append.mp hnodup
  refine ⟨l.foldl State.sesSecond s, (SecondApart.refl k s).foldl l fun j hj => ⟨hlt j (by simp [hj]), fun heq => ?_⟩, ?_⟩
  · exact hdisj j hj k (by simp) heq
  · rw [hl, List.foldl_append, List.foldl_cons]
    exact (SecondApart.refl k _).foldl m fun j hj => ⟨hlt j (by simp [hj]), fun heq => (List.nodup_cons.mp hm).1 (heq ▸ hj)⟩

section
variable {s t : State} {R : Nat → Prop} {E : List Nat} {P : List Part}

theorem Keeps.sramBytes (h : Keeps s t R E P) (hp : Part.sram ∉ P) (n : Nat) : ∀ a, t.sramBytes a n = s.sramBytes a n := by
  induction n with
  | zero => exact fun _ => rfl
  | succ n ih => exact fun a => congrArg₂ List.cons (h.parts .sram hp a) (ih (a + 1))

end

section
variable {k : Nat} {s t : State} (h : SecondApart k s t)
include h

theorem SecondApart.get (f : Fld) (hf : ¬ otherRegs k f.addr) : t.get f = s.get f := h.keeps.get f hf

theorem SecondApart.ts : t.ts = s.ts := h.keeps.parts .ts (by simp)

theorem SecondApart.ses : t.ses k = s.ses k := h.get _ (by simp only [otherRegs, F.SES_OUT_STAT_STATE]; omega)

theorem SecondApart.billed : t.billed k ↔ s.billed k := by rw [State.billed, State.billed, h.ses, h.session]

theorem SecondApart.closed (hk : k < 12) : t.on (F.BAYK_STATE_CLOSED k) = s.on (F.BAYK_STATE_CLOSED k) :=
  h.keeps.on _ (by simp only [otherRegs, F.BAYK_STATE_CLOSED]; omega)

theorem SecondApart.idles (hk : k < 12) : t.idles k = s.idles k := by
  have hmeter : t.meter k = s.meter k := by
    have hmt : t.mt = s.mt := h.keeps.parts .mt (by simp)
    simp only [State.meter, hmt]
  rw [State.idles, State.idles, h.get _ (by simp only [otherRegs, F.MTRK_ESTAT_RUNNING]; omega),
    h.get _ (by simp only [otherRegs, F.SES_IDLE_CFG_IDLE_GRACE]; omega), h.ts, hmeter]

theorem SecondApart.period (plan u : Nat) : t.period plan u = s.period plan u := by
  have hon : t.on F.SES_TARIFF_STAT_VALID = s.on F.SES_TARIFF_STAT_VALID := h.keeps.on _ (by simp only [otherRegs, F.SES_TARIFF_STAT_VALID]; omega)
  have htariff (base : Nat) : t.tariff base = s.tariff base := by
    funext i
    simp only [State.tariff, State.sramWord, h.keeps.sramBytes (by simp)]
  have hweek : t.weekMinute u = s.weekMinute u := by simp only [State.weekMinute, State.localSec, h.zone]
  simp only [State.period, hon, hweek, State.tariffs, htariff]

theorem SecondApart.secondPrice (hk : k < 12) : t.secondPrice k = s.secondPrice k := by
  have hplan : t.get (F.SES_OUT_STAT_PLAN k) = s.get (F.SES_OUT_STAT_PLAN k) := h.get _ (by simp only [otherRegs, F.SES_OUT_STAT_PLAN]; omega)
  simp only [State.secondPrice, h.period, hplan, h.closed hk, h.idles hk, State.utc, h.ts]

end

end Sys2Proof.Machine

/-! The second tick over the twelve sessions, and their progress reports (O41). -/
namespace Sys2Proof.Machine

-- SECOND_TICK (R346, R349, R350)

/-- The second of every session. -/
def State.seconds (s : State) : State := (List.range 12).foldl State.sesSecond s

/-- The time zone, taken on the minute (R349). -/
def State.takeZone (s : State) : State := if s.utc % 60 = 0 then { s with se := { s.se with tzNow := s.getInt F.SES_TZ_MIN } } else s

theorem exec_secondTick (s : State) (h : s.runs = true) : exec .secondTick s = done s.seconds.takeZone := by
  rw [show exec .secondTick s = execSecondTick s from rfl, execSecondTick, State.onFabric_runs _ _ h, State.seconds]
  generalize (List.range 12).foldl State.sesSecond s = v
  rfl

theorem State.idles_iff (s : State) (k : Nat) :
    s.idles k = true ↔ s.get (F.MTRK_ESTAT_RUNNING k) = 0 ∧ s.get F.SES_IDLE_CFG_IDLE_GRACE * 60 * 32768 ≤ s.ts - (s.meter k).idleFrom := by
  simp [State.idles]

/-- The registers of the twelve sessions that a second may touch. -/
abbrev secondsRegs (a : Nat) : Prop := ∃ k, k < 12 ∧ secondRegs k a

theorem State.seconds_keeps (s : State) : Keeps s s.seconds secondsRegs [] [.se] := by
  refine Keeps.foldlMem _ _ (fun u j hj hu => ?_) (Keeps.refl s _ _ _)
  rw [State.sesSecond_eq]
  split
  · exact hu.trans ((u.chargeSecond_charged j).keeps.mono (fun _ ha => ⟨j, List.mem_range.mp hj, ha⟩) (by simp) fun _ hp => hp)
  · exact hu

theorem State.seconds_zone (s : State) : s.seconds.se.tzNow = s.se.tzNow := by
  rw [State.seconds]
  generalize List.range 12 = l
  refine List.foldlRecOn l State.sesSecond (motive := fun u => u.se.tzNow = s.se.tzNow) rfl fun u hu j _ => ?_
  rw [State.sesSecond_eq]
  split
  · exact (u.chargeSecond_charged j).zone.trans hu
  · exact hu

theorem State.seconds_ses (s : State) (k : Nat) : s.seconds.ses k = s.ses k :=
  s.seconds_keeps.ses (by rintro ⟨j, hj, ha⟩; simp only [secondRegs, A.SES_OUT_STAT, A.SES_OUT_COST, A.SES_OUT_DURATION, A.SES_OUT_IDLE_S] at ha; omega)

section
variable (s : State) {k : Nat} (hk : k < 12)
include hk

/-- What the tick shows of an outlet is what its own second left. -/
theorem State.seconds_own : ∃ u, SecondApart k s u ∧ s.seconds.session k = (u.sesSecond k).session k
    ∧ s.seconds.get (F.SES_OUT_DURATION k) = (u.sesSecond k).get (F.SES_OUT_DURATION k)
    ∧ s.seconds.get (F.SES_OUT_IDLE_S k) = (u.sesSecond k).get (F.SES_OUT_IDLE_S k) := by
  obtain ⟨u, hsu, hut⟩ := s.seconds_split hk
  exact ⟨u, hsu, hut.session, hut.get _ (by simp only [otherRegs, F.SES_OUT_DURATION]; omega), hut.get _ (by simp only [otherRegs, F.SES_OUT_IDLE_S]; omega)⟩

/-- A session that is billed pays the second's price. -/
theorem State.seconds_billed (hb : s.billed k) :
    (s.seconds.session k).cost = ((s.session k).cost + s.secondPrice k) % 2 ^ 64
    ∧ s.seconds.get (F.SES_OUT_DURATION k) = (s.ts - (s.session k).startTs) / 32768 % 2 ^ 32
    ∧ s.seconds.get (F.SES_OUT_IDLE_S k) =
        if s.idles k then (s.get (F.SES_OUT_IDLE_S k) + 1) % 2 ^ 32 else s.get (F.SES_OUT_IDLE_S k) := by
  obtain ⟨u, hsu, hsession, hduration, hidle⟩ := s.seconds_own hk
  have hidleS : u.get (F.SES_OUT_IDLE_S k) = s.get (F.SES_OUT_IDLE_S k) := hsu.get _ (by simp only [otherRegs, F.SES_OUT_IDLE_S]; omega)
  rw [State.sesSecond_eq, if_pos (hsu.billed.mpr hb)] at hsession hduration hidle
  have hcharged := u.chargeSecond_charged k
  refine ⟨?_, ?_, ?_⟩
  · rw [hsession, hcharged.session, hsu.session, hsu.secondPrice hk]
  · rw [hduration, hcharged.duration, hsu.ts, hsu.session]
  · rw [hidle, hcharged.idle, hsu.idles hk, hidleS]

/-- A session that is not billed is left as it was. -/
theorem State.seconds_not_billed (hb : ¬ s.billed k) :
    s.seconds.session k = s.session k ∧ s.seconds.get (F.SES_OUT_DURATION k) = s.get (F.SES_OUT_DURATION k) := by
  obtain ⟨u, hsu, hsession, hduration, -⟩ := s.seconds_own hk
  rw [State.sesSecond_eq, if_neg fun hu => hb (hsu.billed.mp hu)] at hsession hduration
  exact ⟨hsession.trans hsu.session, hduration.trans (hsu.get _ (by simp only [otherRegs, F.SES_OUT_DURATION]; omega))⟩

end

section
variable (s : State) {k : Nat}

theorem State.secondPrice_closed {p : Tariff} (hp : s.period (s.get (F.SES_OUT_STAT_PLAN k)) (s.utc - 1) = some p)
    (hclosed : s.on (F.BAYK_STATE_CLOSED k) = true) (hidle : s.idles k = false) : s.secondPrice k = p.time * 1000 := by
  simp [State.secondPrice, hp, hclosed, hidle]

theorem State.secondPrice_idle {p : Tariff} (hp : s.period (s.get (F.SES_OUT_STAT_PLAN k)) (s.utc - 1) = some p)
    (hopen : s.on (F.BAYK_STATE_CLOSED k) = false) (hidle : s.idles k = true) : s.secondPrice k = p.idle * 1000 := by
  simp [State.secondPrice, hp, hopen, hidle]

theorem State.secondPrice_free (hp : s.period (s.get (F.SES_OUT_STAT_PLAN k)) (s.utc - 1) = none) : s.secondPrice k = 0 := by
  simp [State.secondPrice, hp]

end

/-- The tick ends as its twelve seconds left the sessions, with the time zone taken on the minute. -/
theorem exec_secondTick_seconds (s : State) (h : s.runs = true) :
    Ends (exec .secondTick s) fun t =>
      (∀ f, t.get f = s.seconds.get f) ∧ (∀ k, t.session k = s.seconds.session k)
      ∧ t.se.tzNow = (if s.utc % 60 = 0 then s.getInt F.SES_TZ_MIN else s.se.tzNow) ∧ Keeps s t (inPages [0x19]) [] [.se] := by
  have hkeep : Keeps s s.seconds (inPages [0x19]) [] [.se] := s.seconds_keeps.mono (fun a ha => by
    obtain ⟨k, hk, ha⟩ := ha
    simp only [secondRegs, A.SES_OUT_COST, A.SES_OUT_DURATION, A.SES_OUT_IDLE_S] at ha
    simp only [inPages, List.mem_singleton]
    omega) (by simp) fun _ hp => hp
  have hutc : s.seconds.utc = s.utc := by
    have hts : s.seconds.ts = s.ts := hkeep.parts .ts (by simp)
    simp only [State.utc, hts]
  have hzone : s.seconds.getInt F.SES_TZ_MIN = s.getInt F.SES_TZ_MIN := congrArg (signedOf _) (s.seconds_keeps.get _ (by
    rintro ⟨k, hk, ha⟩
    simp only [secondRegs, F.SES_TZ_MIN, A.SES_OUT_COST, A.SES_OUT_DURATION, A.SES_OUT_IDLE_S] at ha
    omega))
  have hstay := s.seconds_zone
  rw [exec_secondTick s h]
  generalize s.seconds = v at hkeep hstay hutc hzone ⊢
  rw [State.takeZone, hutc, hzone]
  by_cases hmin : s.utc % 60 = 0
  · rw [if_pos hmin, if_pos hmin]
    exact ⟨_, rfl, fun f => by rw [State.settle_get]; rfl, fun _ => rfl, rfl, (hkeep.withSe _ (by simp)).settle⟩
  · rw [if_neg hmin, if_neg hmin]
    exact ⟨_, rfl, fun f => State.settle_get _ f, fun _ => rfl, hstay, hkeep.settle⟩

theorem exec_secondTick_ends (s : State) (h : s.runs = true) :
    let billed (k : Nat) : Prop := (s.ses k = sesActive ∨ s.ses k = sesEnding) ∧ (s.session k).stopping = false
    let idle (k : Nat) : Prop := s.get (F.MTRK_ESTAT_RUNNING k) = 0 ∧ s.get F.SES_IDLE_CFG_IDLE_GRACE * 60 * 32768 ≤ s.ts - (s.meter k).idleFrom
    Ends (exec .secondTick s) fun t =>
      (∀ k, k < 12 → billed k →
        t.get (F.SES_OUT_DURATION k) = (s.ts - (s.session k).startTs) / 32768 % 2 ^ 32
        ∧ (idle k → t.get (F.SES_OUT_IDLE_S k) = (s.get (F.SES_OUT_IDLE_S k) + 1) % 2 ^ 32)
        ∧ (¬ idle k → t.get (F.SES_OUT_IDLE_S k) = s.get (F.SES_OUT_IDLE_S k))
        ∧ (∀ p, s.period (s.get (F.SES_OUT_STAT_PLAN k)) (s.utc - 1) = some p → s.on (F.BAYK_STATE_CLOSED k) = true → ¬ idle k →
            (t.session k).cost = ((s.session k).cost + p.time * 1000) % 2 ^ 64)
        ∧ (∀ p, s.period (s.get (F.SES_OUT_STAT_PLAN k)) (s.utc - 1) = some p → s.on (F.BAYK_STATE_CLOSED k) = false → idle k →
            (t.session k).cost = ((s.session k).cost + p.idle * 1000) % 2 ^ 64)
        ∧ (s.period (s.get (F.SES_OUT_STAT_PLAN k)) (s.utc - 1) = none → (t.session k).cost = (s.session k).cost % 2 ^ 64))
      ∧ (∀ k, k < 12 → ¬ billed k → t.session k = s.session k ∧ t.get (F.SES_OUT_DURATION k) = s.get (F.SES_OUT_DURATION k))
      ∧ (∀ k, k < 12 → t.ses k = s.ses k)
      ∧ t.se.tzNow = (if s.utc % 60 = 0 then s.getInt F.SES_TZ_MIN else s.se.tzNow) ∧ Keeps s t (inPages [0x19]) [] [.se] := by
  intro billed idle
  obtain ⟨t, ht, hget, hsession, hzone, hkeep⟩ := exec_secondTick_seconds s h
  refine ⟨t, ht, fun k hk hb => ?_, fun k hk hb => ?_, fun k hk => (hget _).trans (s.seconds_ses k), hzone, hkeep⟩
  · obtain ⟨hcost, hduration, hidle⟩ := s.seconds_billed hk hb
    rw [← hget] at hduration hidle
    rw [← hsession] at hcost
    have hnot (hi : ¬ idle k) : s.idles k = false := Bool.eq_false_iff.mpr fun hidles => hi ((s.idles_iff k).mp hidles)
    refine ⟨hduration, fun hi => ?_, fun hi => ?_, fun p hp hclosed hi => ?_, fun p hp hopen hi => ?_, fun hp => ?_⟩
    · rw [hidle, if_pos ((s.idles_iff k).mpr hi)]
    · rw [hidle, if_neg (by simp [hnot hi])]
    · rw [hcost, s.secondPrice_closed hp hclosed (hnot hi)]
    · rw [hcost, s.secondPrice_idle hp hopen ((s.idles_iff k).mpr hi)]
    · rw [hcost, s.secondPrice_free hp, Nat.add_zero]
  · rw [hsession, hget]
    exact s.seconds_not_billed hk hb

-- PROGRESS_TICK (R354)

/-- The couched values of a session, as its progress report gives them (R354). -/
def State.progressPayload (s : State) (k : Nat) : List Byte :=
  le 1 k ++ le 1 (s.ses k) ++ le 2 0 ++ le 4 (s.get (F.SES_OUT_SESSION_ID k)) ++ le 4 (s.get (F.SES_OUT_ENERGY_WH k))
    ++ le 4 (s.get (F.SES_OUT_COST k)) ++ le 4 (s.get (F.SES_OUT_DURATION k)) ++ le 4 (s.get (F.SES_OUT_IDLE_S k)) ++ le 8 (s.session k).coupled

/-- The report of one outlet, where its session is ACTIVE. -/
def State.reportProgress (s : State) (k : Nat) : State :=
  if s.ses k = sesActive then s.emit 37 0x10 none 0 (s.progressPayload k) else s

theorem exec_progressTick (s : State) (h : s.runs = true) :
    exec .progressTick s = if s.get F.SES_IDLE_CFG_PROGRESS_S = 0 then done s else done ((List.range 12).foldl State.reportProgress s) := by
  rw [show exec .progressTick s = execProgressTick s from rfl, execProgressTick, State.onFabric_runs _ _ h]
  rfl

theorem fieldLe_le_append (n v : Nat) (c : List Byte) : fieldLe (le n v ++ c) 0 n = v % 256 ^ n := fieldLe_append [] c n v 0 rfl

theorem fieldLe_skip (m w : Nat) (c : List Byte) {i : Nat} (hi : m ≤ i) (n : Nat) : fieldLe (le m w ++ c) i n = fieldLe c (i - m) n := by
  rw [fieldLe, fieldLe, List.drop_append, List.drop_of_length_le (by simpa using hi), List.nil_append, le_length]

/-- The fields of a progress report. -/
theorem State.progressPayload_fields (s : State) (k : Nat) (hk : k < 12) (hses : s.ses k = sesActive) :
    let b := pad4 (s.progressPayload k)
    fieldLe b 0 1 = k ∧ fieldLe b 1 1 = sesActive ∧ fieldLe b 4 4 = s.get (F.SES_OUT_SESSION_ID k) ∧ fieldLe b 8 4 = s.get (F.SES_OUT_ENERGY_WH k)
      ∧ fieldLe b 12 4 = s.get (F.SES_OUT_COST k) ∧ fieldLe b 16 4 = s.get (F.SES_OUT_DURATION k) ∧ fieldLe b 20 4 = s.get (F.SES_OUT_IDLE_S k) := by
  have hword (f : Fld) (hwid : f.wid = 32) : s.get f % 256 ^ 4 = s.get f := Nat.mod_eq_of_lt (by have := s.get_lt f; rw [hwid] at this; omega)
  simp only [pad4, State.progressPayload, hses, List.append_assoc]
  refine ⟨?_, ?_, ?_, ?_, ?_, ?_, ?_⟩
  · rw [fieldLe_le_append]
    omega
  · rw [fieldLe_skip _ _ _ (by decide), fieldLe_le_append]
    rfl
  all_goals
    repeat rw [fieldLe_skip _ _ _ (by decide)]
    exact (fieldLe_le_append _ _ _).trans (hword _ rfl)

theorem State.reportProgress_keeps (s : State) (k : Nat) : Keeps s (s.reportProgress k) lostRegs [37] [] :=
  Keeps.ite (s.emit_keeps _ _ _ _ _) (Keeps.refl s _ _ _)

theorem State.reportProgress_extends (s : State) (k : Nat) : ∃ l, ((s.reportProgress k).ring 37).frames = (s.ring 37).frames ++ l := by
  unfold State.reportProgress
  split
  · exact s.emit_extends _ _ _ _ _
  · exact ⟨[], (List.append_nil _).symm⟩

theorem State.foldl_reportProgress_inactive (s : State) (l : List Nat) (h : ∀ k ∈ l, s.ses k ≠ sesActive) : l.foldl State.reportProgress s = s := by
  induction l with
  | nil => rfl
  | cons k l ih => rw [List.foldl_cons, State.reportProgress, if_neg (h k (by simp)), ih fun j hj => h j (by simp [hj])]

theorem State.foldl_reportProgress_keeps (s : State) (l : List Nat) : Keeps s (l.foldl State.reportProgress s) lostRegs [37] [] :=
  Keeps.foldl _ (fun u j hu => hu.trans (u.reportProgress_keeps j)) l s (Keeps.refl s _ _ _)

theorem State.foldl_reportProgress_extends (s : State) (l : List Nat) :
    ∃ m, ((l.foldl State.reportProgress s).ring 37).frames = (s.ring 37).frames ++ m := by
  refine List.foldlRecOn l State.reportProgress (motive := fun u => ∃ m, (u.ring 37).frames = (s.ring 37).frames ++ m) ⟨[], (List.append_nil _).symm⟩
    fun u ⟨m, hu⟩ j _ => ?_
  obtain ⟨n, hn⟩ := u.reportProgress_extends j
  exact ⟨m ++ n, by rw [hn, hu, List.append_assoc]⟩

theorem exec_progressTick_none (s : State) (h : s.runs = true) (hnone : s.get F.SES_IDLE_CFG_PROGRESS_S = 0 ∨ ∀ k, k < 12 → s.ses k ≠ sesActive) :
    Ends (exec .progressTick s) fun t => Keeps s t (among []) [] [] := by
  have hexec : exec .progressTick s = done s := by
    rw [exec_progressTick s h]
    obtain hoff | hinactive := hnone
    · rw [if_pos hoff]
    · rw [s.foldl_reportProgress_inactive _ fun k hk => hinactive k (List.mem_range.mp hk), ite_self]
  rw [hexec]
  exact ⟨_, rfl, (Keeps.refl s _ _ _).settle⟩

theorem exec_progressTick_first (s : State) (k : Nat) (h : s.runs = true) (hon : s.get F.SES_IDLE_CFG_PROGRESS_S ≠ 0) (hk : k < 12)
    (hses : s.ses k = sesActive) (hfirst : ∀ j, j < k → s.ses j ≠ sesActive) :
    Ends (exec .progressTick s) fun t =>
      (s.takes 37 → ∃ g l, (t.ring 37).frames = (s.ring 37).frames ++ g :: l ∧ g.typ = 0x10 ∧ g.ref = none ∧ fieldLe g.payload 0 1 = k
        ∧ fieldLe g.payload 1 1 = sesActive ∧ fieldLe g.payload 4 4 = s.get (F.SES_OUT_SESSION_ID k) ∧ fieldLe g.payload 8 4 = s.get (F.SES_OUT_ENERGY_WH k)
        ∧ fieldLe g.payload 12 4 = s.get (F.SES_OUT_COST k) ∧ fieldLe g.payload 16 4 = s.get (F.SES_OUT_DURATION k)
        ∧ fieldLe g.payload 20 4 = s.get (F.SES_OUT_IDLE_S k))
      ∧ Keeps s t lostRegs [37] [] := by
  obtain ⟨l, hl⟩ : ∃ l, List.range 12 = List.range k ++ k :: l := by
    obtain ⟨n, hn⟩ := Nat.exists_eq_add_of_lt hk
    exact ⟨_, by rw [hn, Nat.add_assoc, List.range_add, List.range_succ_eq_map, List.map_cons, Nat.add_zero]⟩
  have hfold : (List.range 12).foldl State.reportProgress s = l.foldl State.reportProgress (s.emit 37 0x10 none 0 (s.progressPayload k)) := by
    rw [hl, List.foldl_append, s.foldl_reportProgress_inactive _ fun j hj => hfirst j (List.mem_range.mp hj), List.foldl_cons, State.reportProgress,
      if_pos hses]
  rw [exec_progressTick s h, if_neg hon]
  refine ⟨_, rfl, fun htakes => ?_, (s.foldl_reportProgress_keeps _).settle⟩
  obtain ⟨g, hframes, htyp, href, -, hpay⟩ := (Keeps.refl s (among []) [] []).emitted (by simp) (by simp) 0x10 none 0 (s.progressPayload k) htakes
  obtain ⟨m, hm⟩ := State.foldl_reportProgress_extends (s.emit 37 0x10 none 0 (s.progressPayload k)) l
  refine ⟨g, m, ?_, htyp, href, hpay ▸ s.progressPayload_fields k hk hses⟩
  rw [State.settle_ring, hfold, hm, hframes, List.append_assoc, List.singleton_append]

end Sys2Proof.Machine

/-! A record signed, appended and issued (O41): what the append may touch, and what issuing leaves of the signer. -/
namespace Sys2Proof.Machine

section
variable {s t : State} {R : Nat → Prop} {E : List Nat} {P : List Part}

theorem Keeps.withNv (h : Keeps s t R E P) (x : Storage) (hp : Part.nv ∈ P) : Keeps s { t with nv := x } R E P :=
  h.fields fun p hp' => by cases p <;> simp_all [Part.same, State.sramByte]

theorem Keeps.withLcd (h : Keeps s t R E P) (x : Panel) (hp : Part.lcd ∈ P) : Keeps s { t with lcd := x } R E P :=
  h.fields fun p hp' => by cases p <;> simp_all [Part.same, State.sramByte]

end

-- Issuing (R353 step 5)

/-- What a record issued for outlet `k` on ring `e` may touch, and what of the signer it leaves. -/
structure Issues (k e : Nat) (s t : State) : Prop where
  keeps : Keeps s t (onPages [0x16, 0x19, 0x30 + k]) [2, 3 + k, e] [.se, .outlets, .rcm]
  queue : t.se.queue = s.se.queue
  staged : t.se.staged = s.se.staged
  retry : t.se.retry = s.se.retry
  pend : s.get (hdrPend 0x19 6) = 1 → t.get (hdrPend 0x19 6) = 1

section
variable {k e : Nat} {s t u : State}

theorem Issues.refl (k e : Nat) (s : State) : Issues k e s s := ⟨Keeps.refl s _ _ _, rfl, rfl, rfl, id⟩

theorem Issues.trans (h : Issues k e s t) (h' : Issues k e t u) : Issues k e s u :=
  ⟨h.keeps.trans h'.keeps, h'.queue.trans h.queue, h'.staged.trans h.staged, h'.retry.trans h.retry, fun hp => h'.pend (h.pend hp)⟩

/-- A step that leaves SES's state and its header's IRQ_PEND. -/
theorem Issues.of_keeps {R : Nat → Prop} {E : List Nat} (h : Keeps s t R E [.outlets, .rcm]) (hR : ∀ a, R a → onPages [0x16, 0x19, 0x30 + k] a)
    (hE : ∀ x ∈ E, x ∈ [2, 3 + k, e]) (hpend : ¬ R 0x19018) : Issues k e s t := by
  have hse : t.se = s.se := h.parts .se (by simp)
  exact ⟨h.mono hR hE (by simp), by rw [hse], by rw [hse], by rw [hse], fun hp => (h.get (hdrPend 0x19 6) hpend).trans hp⟩

theorem State.setSession_issues (s : State) (k e : Nat) (x : Session) : Issues k e s (s.setSession k x) :=
  ⟨(s.setSession_keeps k x).mono (by simp) (by simp) (by simp), rfl, rfl, rfl, id⟩

theorem State.saveEntry_issues (s : State) (k e : Nat) : Issues k e s (s.saveEntry k) := by
  obtain ⟨l, heq⟩ := s.saveEntry_eq k
  refine ⟨(s.saveEntry_keeps k).mono (by simp) (by simp) (by simp), ?_, ?_, ?_, fun hp => (s.saveEntry_get k _).trans hp⟩ <;> rw [heq]

theorem State.setSes_issues (s : State) {k : Nat} (hk : k < 12) (e st : Nat) : Issues k e s (s.setSes k st) := by
  obtain ⟨l, hse⟩ := s.setSes_se k st
  refine ⟨(s.setSes_keeps k st).mono (fun a ha => .inl ?_) (by simp) (by simp), by rw [hse], by rw [hse], by rw [hse], fun hp => ?_⟩
  · have := setSes_regs hk ha
    simp only [List.mem_cons, List.not_mem_nil, or_false]
    omega
  · exact ((s.setSes_keeps k st).get (hdrPend 0x19 6) (by simp [hdrPend, A.SES_OUT_STAT, A.SES_ACTIVE_MASK]; omega)).trans hp

theorem State.sesLow_issues (s : State) (k e : Nat) : Issues k e s (s.sesLow k) := by
  unfold State.sesLow
  split
  · exact (s.setSession_issues k e _).trans (State.saveEntry_issues _ k e)
  · exact Issues.refl k e s

theorem State.stopOutlet_issues (s : State) {k : Nat} (hk : k < 12) (e cause seq : Nat) : Issues k e s (s.stopOutlet k cause seq) :=
  Issues.of_keeps ((Confined.refl k s _ _ _).stopOutlet (BayRoom.onPages hk (l := [0x16, 0x30 + k]) (by simp) (by simp) (E := [3 + k]) (by simp) (by simp))
    cause seq (by simp)).keeps (fun a ha => ha.imp_left fun hpage => by simp only [List.mem_cons, List.not_mem_nil, or_false] at hpage ⊢; omega)
    (by simp) (by simp only [onPages, List.mem_cons, List.not_mem_nil, or_false]; omega)

theorem State.emit_issues (s : State) (k e i typ : Nat) (ref : Option Nat) (st : Nat) (pl : List Byte) (hi : i ∈ [2, 3 + k, e]) :
    Issues k e s (s.emit i typ ref st pl) :=
  Issues.of_keeps ((s.emit_keeps i typ ref st pl).mono (fun _ ha => ha) (fun _ ha => ha) (by simp)) (fun _ ha => .inr ha)
    (by simpa using hi) (by decide)

theorem State.event_issues (s : State) (k e : Nat) {b : Nat} (hb : b < 4) (unit : Nat) : Issues k e s (s.event 0x19 b unit) := by
  have hkeep := s.event_keeps 0x19 b unit
  have hse : (s.event 0x19 b unit).se = s.se := hkeep.parts .se (by simp)
  refine ⟨hkeep.mono (fun a ha => ha.imp_left fun hreg => ?_) (by simp) (by simp), by rw [hse], by rw [hse], by rw [hse], fun hp => ?_⟩
  · simp only [irqRegs, List.mem_cons, List.not_mem_nil, or_false] at hreg ⊢
    omega
  · exact (State.emit_get _ _ _ _ _ _ _ (by decide)).trans (State.irq_pend_stays _ (by omega) hp)

theorem State.sesStop_issues (s : State) {k : Nat} (hk : k < 12) (e reason : Nat) : Issues k e s (s.sesStop k reason) := by
  unfold State.sesStop
  extract_lets x st v w
  split
  · split
    · exact s.setSession_issues k e _
    · exact Issues.refl k e s
  · split
    · have hreason : Issues k e s v := s.setSession_issues k e { x with reason := reason }
      have hoff : Issues k e s w := by
        simp only [w]
        split
        · exact hreason.trans (v.stopOutlet_issues hk e cSes noSeq)
        · exact hreason
      exact (hoff.trans (w.setSes_issues hk e sesEnding)).trans (State.sesLow_issues _ k e)
    · exact Issues.refl k e s

/-- Whatever kind of record it is, its session's step leaves the signer. -/
theorem State.recordIssued_issues (s : State) (r : SignReq) (hk : r.outlet < 12) (e mark : Nat) : Issues r.outlet e s (s.recordIssued r mark) := by
  unfold State.recordIssued
  extract_lets k kind
  split
  · have hstart := ((s.setSession_issues k e { s.session k with startMark := mark, held := none }).trans (State.saveEntry_issues _ k e)).trans
      (State.event_issues _ k e (b := 0) (by decide) k)
    split
    · exact hstart.trans (State.sesStop_issues _ hk e _)
    · exact hstart
  · split
    · have hput (x : Session) : Issues k e s (s.put (F.SES_OUT_STAT_LAST_REASON k) x.reason) :=
        Issues.of_keeps (R := sesBlock) (E := []) ((Keeps.refl s _ _ _).put _ _ (by
          simp only [F.SES_OUT_STAT_LAST_REASON, sesBlock]; omega)) (fun a ha => .inl (by
          simp only [List.mem_cons, List.not_mem_nil, or_false]; omega)) (by simp) (by decide)
      exact (((hput (s.session k)).trans (State.setSession_issues _ k e _)).trans (State.setSes_issues _ hk e sesIdle)).trans
        (State.event_issues _ k e (b := 1) (by decide) k)
    · split
      · rw [State.sesAnswer_result]
        exact s.emit_issues k e _ _ _ _ _ (by simp)
      · exact Issues.refl k e s

theorem State.queueRecord_issues (s : State) (x : Staged) (hk : x.req.outlet < 12) : Issues x.req.outlet x.req.ring s (s.queueRecord x) :=
  (s.emit_issues _ x.req.ring _ _ _ _ _ (by simp)).trans (State.recordIssued_issues _ x.req hk _ x.mark)

end

-- The append (R353 step 4, R480)

/-- What the append may touch: NVL's page and SEA's, the rings of events and of the log, the log and the storage, not the watermark. -/
structure Appends (s t : State) : Prop where
  keeps : Keeps s t (onPages [0x09, 0x0A]) [2, 38] [.legal, .nv]
  watermark : t.legal.watermark = s.legal.watermark

section
variable {s t u : State}

theorem Appends.refl (s : State) : Appends s s := ⟨Keeps.refl s _ _ _, rfl⟩

theorem Appends.trans (h : Appends s t) (h' : Appends t u) : Appends s u := ⟨h.keeps.trans h'.keeps, h'.watermark.trans h.watermark⟩

/-- A step that leaves the legal state. -/
theorem Appends.of_keeps (h : Keeps s t (onPages [0x09, 0x0A]) [2] [.nv]) : Appends s t :=
  ⟨h.mono (fun _ ha => ha) (by simp) (by simp), congrArg Legal.watermark (h.parts .legal (by simp))⟩

theorem Appends.of_nv (h : t = { s with nv := t.nv }) : Appends s t := Appends.of_keeps (h ▸ (Keeps.refl s _ _ _).withNv t.nv (by simp))

theorem State.log_watermark (s : State) (code outlet : Nat) (data : List Byte) : (s.log code outlet data).legal.watermark = s.legal.watermark := by
  unfold State.log State.logAt
  extract_lets l e log v w
  have hw : w.legal = v.legal := by
    simp only [w]
    split
    · rfl
    · exact State.emit_part v _ _ _ _ _ .legal
  have hevent (u : Nat) : (w.event 0x0A 4 u).legal = w.legal := State.event_part w 0x0A 4 u .legal
  rw [hevent, hw]

theorem State.checkStep_appends (s : State) : Appends s s.checkStep := by
  have hok : Keeps s (s.put F.NVL_HOLDUP_STEP_OK (s.stepAllowed (.prog 0 0)).toNat) (onPages [0x09, 0x0A]) [2] [.nv] :=
    (Keeps.refl s _ _ _).put _ _ (.inl (by decide))
  have hput (v : State) (x : Storage) (b : Nat) (hv : Keeps s v (onPages [0x09, 0x0A]) [2] [.nv]) :
      Keeps s (({ v with nv := x }).put F.NVL_HOLDUP_DEFERRING b) (onPages [0x09, 0x0A]) [2] [.nv] :=
    (hv.withNv x (by simp)).put _ _ (.inl (by decide))
  refine Appends.of_keeps ?_
  unfold State.checkStep
  extract_lets v
  split
  · exact hput v _ 0 hok
  · split
    · exact hput v _ 0 hok
    · split
      · exact hok
      · exact (hput v _ 1 hok).event _ _ _ (by simp) (fun _ ha => .inr ha) (.inl (by decide)) (.inl (by decide))

theorem State.pushJob_appends (s : State) (j : Job) : Appends s (s.pushJob j) := (Appends.of_nv rfl).trans (State.checkStep_appends _)

theorem State.openFor_appends (s : State) (n r : Nat) : Appends s (s.openFor n r).1 := by
  unfold State.openFor
  extract_lets h x v w
  have hv : Appends s v := by
    simp only [v]
    split
    · exact Appends.of_nv rfl
    · exact Appends.refl s
  have hw : Appends s (w.setHead n { h with reamSeq := h.reamSeq + 1 }) := hv.trans (Appends.of_nv rfl)
  refine hw.trans (Appends.of_keeps ?_)
  exact ((Keeps.refl _ _ _ _).put F.NVL_FREE_REAMS_HOST _ (.inl (by decide))).put F.NVL_FREE_REAMS_SIG _ (.inl (by decide))

theorem State.reclaimSig_appends (s : State) : Appends s s.reclaimSig := by
  have hlog (x : Ream) : Appends s (((s.event 0x09 5 noUnit).incSat F.NVL_SIG_STAT_OVERWRITES).log 0x0030 noOutlet (le 4 x.first ++ le 4 x.last)) := by
    have hevent : Appends s ((s.event 0x09 5 noUnit).incSat F.NVL_SIG_STAT_OVERWRITES) := Appends.of_keeps (((Keeps.refl s _ _ _).event _ _ _ (by simp)
      (fun _ ha => .inr ha) (.inl (by decide)) (.inl (by decide))).incSat _ (.inl (by decide)))
    refine hevent.trans ⟨(Keeps.refl _ _ _ _).log _ _ _ (by simp) (by simp) (by simp) fun a ha => ha.imp_left fun hreg => ?_,
      State.log_watermark _ _ _ _⟩
    simp only [irqRegs, List.mem_cons, List.not_mem_nil, or_false] at hreg ⊢
    omega
  unfold State.reclaimSig
  split
  · exact Appends.refl s
  · split
    · exact Appends.refl s
    · next r _ _ =>
      dsimp only [State.eraseReam]
      refine Appends.trans ?_ ((Appends.of_nv rfl).trans (State.pushJob_appends _ _))
      split
      · exact hlog _
      · exact Appends.refl s

/-- The append's duplicate check: the newest record stored has this watermark already. -/
theorem State.appendSigned_had (s : State) {w : Nat} (payload : List Byte) (hnext : (s.streamHead 0).next = w + 1) (hreams : s.reamsOf 0 ≠ []) :
    s.appendSigned w payload = (s, true) := if_pos ⟨hnext, hreams⟩

theorem State.appendSigned_appends (s : State) (w : Nat) (payload : List Byte) : Appends s (s.appendSigned w payload).1 := by
  unfold State.appendSigned
  split
  · exact Appends.refl s
  · extract_lets bytes head v
    have hv : Appends s v := Appends.of_nv rfl
    have hopen (f : Nat) (j : Job) : Appends s (((v.openFor 0 f).1.pushJob j).reclaimSig) :=
      ((hv.trans (v.openFor_appends 0 f)).trans (State.pushJob_appends _ j)).trans (State.reclaimSig_appends _)
    have hfull : Appends s v.reclaimSig := hv.trans v.reclaimSig_appends
    split
    · split
      · exact hv.trans (v.pushJob_appends _)
      · split
        · exact hopen _ _
        · exact hfull
    · split
      · exact hopen _ _
      · exact hfull

end

end Sys2Proof.Machine

/-! SIGNATURE_DONE and APPEND_RETRY (O41). -/
namespace Sys2Proof.Machine

/-- The staged record queued, and its append done. -/
def State.stageDone (s : State) (x : Staged) : State :=
  { s with se := { s.se with staged := some { x with queued := true, delivered := true }, retry := false } }

/-- The staged record queued, its append to be tried again. -/
def State.stageRetry (s : State) (x : Staged) : State :=
  { s with se := { s.se with staged := some { x with queued := true }, retry := true } }

/-- The record is queued once (R353 step 5). -/
def State.queueOnce (s : State) (x : Staged) : State := if x.queued then s else s.queueRecord x

theorem State.queueOnce_issues (s : State) (x : Staged) (hk : x.req.outlet < 12) : Issues x.req.outlet x.req.ring s (s.queueOnce x) := by
  unfold State.queueOnce
  split
  · exact Issues.refl _ _ s
  · exact s.queueRecord_issues x hk

/-- Step 4 of R353 for the record `x`, and what follows from it: the staged record stays `x`, the queue and the watermark stay. -/
structure StepsStaged (x : Staged) (s t : State) : Prop where
  keeps : Keeps s t (onPages [0x09, 0x0A, 0x16, 0x17, 0x19, 0x30 + x.req.outlet]) [2, 3 + x.req.outlet, 38, x.req.ring]
    [.fresh, .se, .legal, .nv, .outlets, .rcm]
  watermark : t.legal.watermark = s.legal.watermark
  queue : t.se.queue = s.se.queue
  staged : ∃ y, t.se.staged = some y ∧ y.mark = x.mark ∧ y.req = x.req ∧ y.bytes = x.bytes
  pend : s.get (hdrPend 0x19 6) = 1 → t.get (hdrPend 0x19 6) = 1

section
variable {s u : State} {x : Staged}

theorem State.markAppended_eq (h : s.se.staged = some x) : s.markAppended x.mark = (s.stageDone x).queueOnce x := by
  rw [State.markAppended, h]
  exact if_pos rfl

theorem State.signedFailed_eq (h : s.se.staged = some x) : s.signedFailed = (s.stageRetry x).queueOnce x := by
  rw [State.signedFailed, h]
  rfl

/-- The append alone leaves the staged record. -/
theorem Appends.steps (h : Appends s u) (hx : s.se.staged = some x) : StepsStaged x s u := by
  have hse : u.se = s.se := h.keeps.parts .se (by simp)
  exact ⟨h.keeps.mono (fun a ha => ha.imp_left fun hpage => by simp only [List.mem_cons, List.not_mem_nil, or_false] at hpage ⊢; omega)
    (by simp +contextual) (by simp), h.watermark, by rw [hse], ⟨x, by rw [hse, hx], rfl, rfl, rfl⟩,
    fun hp => (h.keeps.get _ (by decide)).trans hp⟩

theorem StepsStaged.trans {t : State} (h : StepsStaged x s u) (h' : StepsStaged x u t) : StepsStaged x s t :=
  ⟨h.keeps.trans h'.keeps, h'.watermark.trans h.watermark, h'.queue.trans h.queue, h'.staged, fun hp => h'.pend (h.pend hp)⟩

/-- And so does the record's issue, once its place in the append is noted. -/
theorem State.queueOnce_steps {y : Staged} {b : Bool} (hk : x.req.outlet < 12) (hy : y.mark = x.mark ∧ y.req = x.req ∧ y.bytes = x.bytes) :
    StepsStaged x s (({ s with se := { s.se with staged := some y, retry := b } }).queueOnce x) := by
  let v : State := { s with se := { s.se with staged := some y, retry := b } }
  have hv : Keeps s v (onPages [0x09, 0x0A, 0x16, 0x17, 0x19, 0x30 + x.req.outlet]) [2, 3 + x.req.outlet, 38, x.req.ring]
    [.fresh, .se, .legal, .nv, .outlets, .rcm] := (Keeps.refl s _ _ _).withSe _ (by simp)
  have hissue := v.queueOnce_issues x hk
  refine ⟨hv.trans (hissue.keeps.mono (fun a ha => ha.imp_left fun hpage => ?_) (by simp +contextual) (by simp)), ?_, hissue.queue,
    ⟨y, hissue.staged, hy⟩, hissue.pend⟩
  · simp only [List.mem_cons, List.not_mem_nil, or_false] at hpage ⊢
    omega
  · exact congrArg Legal.watermark (hissue.keeps.parts .legal (by simp))

theorem State.markAppended_steps (h : s.se.staged = some x) (hk : x.req.outlet < 12) : StepsStaged x s (s.markAppended x.mark) := by
  rw [State.markAppended_eq h]
  exact State.queueOnce_steps hk ⟨rfl, rfl, rfl⟩

theorem State.signedFailed_steps (h : s.se.staged = some x) (hk : x.req.outlet < 12) : StepsStaged x s s.signedFailed := by
  rw [State.signedFailed_eq h]
  exact State.queueOnce_steps hk ⟨rfl, rfl, rfl⟩

theorem State.markAppended_delivered (h : s.se.staged = some x) (hk : x.req.outlet < 12) :
    (∃ y, (s.markAppended x.mark).se.staged = some y ∧ y.delivered = true) ∧ (s.markAppended x.mark).se.retry = false := by
  have hissue := (s.stageDone x).queueOnce_issues x hk
  rw [State.markAppended_eq h, hissue.staged, hissue.retry]
  exact ⟨⟨_, rfl, rfl⟩, rfl⟩

theorem State.appendStaged_steps (h : s.se.staged = some x) (hk : x.req.outlet < 12) : StepsStaged x s (s.appendStaged x) := by
  have happend := s.appendSigned_appends x.mark x.bytes
  have hstaged : (s.appendSigned x.mark x.bytes).1.se.staged = some x := by
    rw [show (s.appendSigned x.mark x.bytes).1.se = s.se from happend.keeps.parts .se (by simp), h]
  unfold State.appendStaged
  generalize s.appendSigned x.mark x.bytes = p at happend hstaged ⊢
  obtain ⟨u, had⟩ := p
  dsimp only at happend hstaged ⊢
  have hu := happend.steps h
  split
  · exact hu.trans (State.markAppended_steps hstaged hk)
  · split
    · exact hu
    · exact hu.trans (State.signedFailed_steps hstaged hk)

/-- The duplicate check finds the record stored: it is done. -/
theorem State.appendStaged_had (hnext : (s.streamHead 0).next = x.mark + 1) (hreams : s.reamsOf 0 ≠ []) : s.appendStaged x = s.markAppended x.mark := by
  rw [State.appendStaged, s.appendSigned_had x.bytes hnext hreams]
  rfl

end

-- SIGNATURE_DONE (R352, R353)

/-- The record signed under the next watermark. -/
def State.signedRecord (s : State) (r : SignReq) : Staged :=
  let body := withMark r.body (s.legal.watermark + 1)
  ⟨body ++ Config.ecdsaSign (s.sl.key.getD 0) s.fresh (Config.sha256 body), s.legal.watermark + 1, r, false, false⟩

/-- The record staged, its watermark used. -/
def State.stageRecord (s : State) (r : SignReq) (rest : List SignReq) : State :=
  { s.took with se := { s.se with queue := rest, staged := some (s.signedRecord r) }, legal := { s.legal with watermark := s.legal.watermark + 1 } }

theorem State.stageRecord_keeps (s : State) (r : SignReq) (rest : List SignReq) :
    Keeps s (s.stageRecord r rest) (among []) [] [.fresh, .se, .legal] :=
  (((Keeps.refl s _ _ _).took (by simp)).withSe (s.stageRecord r rest).se (by simp)).withLegal (s.stageRecord r rest).legal (by simp)

theorem exec_signatureDone (s : State) {r : SignReq} {rest : List SignReq} (h : s.runs = true) (hqueue : s.se.queue = r :: rest) :
    exec .signatureDone s = if s.canSign then
        done ((((s.stageRecord r rest).markEnd (s.legal.watermark + 1)).keepMark r.outlet (withMark r.body (s.legal.watermark + 1))).appendStaged
          (s.signedRecord r))
      else done s := by
  rw [show exec .signatureDone s = execSignatureDone s from rfl, execSignatureDone, State.onFabric_runs _ _ h, hqueue]
  rfl

theorem State.markEnd_keeps (s : State) (w : Nat) : Keeps s (s.markEnd w) (eventRegs 0x19 6) [2] [] :=
  Keeps.ite ((s.event_keeps 0x19 6 noUnit).faultFrame _ _ _ _ _ (by simp) fun _ ha => .inr ha) (Keeps.refl s _ _ _)

theorem State.markEnd_pend (s : State) {w : Nat} (hw : w = 0xFFFFFFFF) : (s.markEnd w).get (hdrPend 0x19 6) = 1 := by
  rw [State.markEnd, if_pos hw, State.faultFrame_get _ _ _ _ _ _ _ (by decide)]
  exact s.event_pend 0x19 6 noUnit (by decide) (by decide)

theorem State.keepMark_keeps (s : State) (k : Nat) (body : List Byte) : Keeps s (s.keepMark k body) (among []) [] [.lcd] :=
  Keeps.ite ((Keeps.refl s _ _ _).withLcd _ (by simp)) (Keeps.refl s _ _ _)

theorem exec_signatureDone_signs (s : State) (r : SignReq) (rest : List SignReq) (h : s.runs = true) (hqueue : s.se.queue = r :: rest)
    (hk : r.outlet < 12) (hcan : s.canSign = true) :
    Ends (exec .signatureDone s) fun t =>
      let w := s.legal.watermark + 1
      let body := r.body.take 4 ++ le 4 w ++ r.body.drop 8
      t.legal.watermark = w ∧ t.se.queue = rest
      ∧ (∃ x, t.se.staged = some x ∧ x.mark = w ∧ x.req = r ∧ x.bytes = body ++ Config.ecdsaSign (s.sl.key.getD 0) s.fresh (Config.sha256 body))
      ∧ (w = 0xFFFFFFFF → t.get (hdrPend 0x19 6) = 1)
      ∧ Keeps s t (onPages [0x09, 0x0A, 0x16, 0x17, 0x19, 0x30 + r.outlet]) [2, 3 + r.outlet, 38, r.ring]
          [.fresh, .se, .legal, .lcd, .nv, .outlets, .rcm] := by
  let v := s.stageRecord r rest
  have hv : Keeps s v (among []) [] [.fresh, .se, .legal] := s.stageRecord_keeps r rest
  have hend := v.markEnd_keeps (s.legal.watermark + 1)
  have hmark := (v.markEnd (s.legal.watermark + 1)).keepMark_keeps r.outlet (withMark r.body (s.legal.watermark + 1))
  have hpend : s.legal.watermark + 1 = 0xFFFFFFFF →
      ((v.markEnd (s.legal.watermark + 1)).keepMark r.outlet (withMark r.body (s.legal.watermark + 1))).get (hdrPend 0x19 6) = 1 := fun hw =>
    (hmark.get _ (by simp)).trans (v.markEnd_pend hw)
  have hexec : exec .signatureDone s =
      done (((v.markEnd (s.legal.watermark + 1)).keepMark r.outlet (withMark r.body (s.legal.watermark + 1))).appendStaged (s.signedRecord r)) := by
    rw [exec_signatureDone s h hqueue, if_pos hcan]
  have hlegal := (hmark.parts .legal (by simp)).trans (hend.parts .legal (by simp))
  have hse := (hmark.parts .se (by simp)).trans (hend.parts .se (by simp))
  have hkeep : Keeps s ((v.markEnd (s.legal.watermark + 1)).keepMark r.outlet (withMark r.body (s.legal.watermark + 1)))
      (onPages [0x09, 0x0A, 0x16, 0x17, 0x19, 0x30 + r.outlet]) [2, 3 + r.outlet, 38, r.ring]
      [.fresh, .se, .legal, .lcd, .nv, .outlets, .rcm] :=
    ((hv.mono (by simp) (by simp) (by simp)).trans (hend.mono (fun a ha => ha.imp_left fun hreg => by
      simp only [irqRegs, List.mem_cons, List.not_mem_nil, or_false] at hreg ⊢
      omega) (by simp) (by simp))).trans (hmark.mono (by simp) (by simp) (by simp))
  rw [hexec]
  generalize (v.markEnd (s.legal.watermark + 1)).keepMark r.outlet (withMark r.body (s.legal.watermark + 1)) = u at hpend hlegal hse hkeep ⊢
  have hsteps := State.appendStaged_steps (s := u) (x := s.signedRecord r) (congrArg Sessions.staged hse) hk
  refine ⟨_, rfl, ?_, ?_, ?_, fun hw => ?_, ?_⟩
  · exact hsteps.watermark.trans (congrArg Legal.watermark hlegal)
  · exact hsteps.queue.trans (congrArg Sessions.queue hse)
  · exact hsteps.staged
  · rw [State.settle_get]
    exact hsteps.pend (hpend hw)
  · exact (hkeep.trans (hsteps.keeps.mono (fun _ ha => ha) (fun _ he => he) (by simp +contextual))).settle

theorem exec_signatureDone_none (s : State) (h : s.runs = true) (hnone : s.canSign = false ∨ s.se.queue = []) :
    Ends (exec .signatureDone s) fun t => Keeps s t (among []) [] [] := by
  have hexec : exec .signatureDone s = done s := by
    cases hqueue : s.se.queue with
    | nil => rw [show exec .signatureDone s = execSignatureDone s from rfl, execSignatureDone, State.onFabric_runs _ _ h, hqueue]
    | cons r rest =>
      have hcan : s.canSign = false := hnone.resolve_right (by simp [hqueue])
      rw [exec_signatureDone s h hqueue, if_neg (by simp [hcan])]
  rw [hexec]
  exact ⟨_, rfl, (Keeps.refl s _ _ _).settle⟩

-- APPEND_RETRY (R353)

theorem exec_appendRetry (s : State) {x : Staged} (h : s.runs = true) (hx : s.se.staged = some x) :
    exec .appendRetry s = if s.se.retry = true ∧ x.delivered = false ∧ s.pf.warned = false then
        done ({ s with se := { s.se with retry := false } }.appendStaged x)
      else done s := by
  rw [show exec .appendRetry s = execAppendRetry s from rfl, execAppendRetry, State.onFabric_runs _ _ h, hx]

theorem exec_appendRetry_tries (s : State) (x : Staged) (h : s.runs = true) (hx : s.se.staged = some x) (hretry : s.se.retry = true)
    (hdelivered : x.delivered = false) (hwarn : s.pf.warned = false) (hk : x.req.outlet < 12) :
    Ends (exec .appendRetry s) fun t =>
      t.legal.watermark = s.legal.watermark ∧ t.se.queue = s.se.queue
      ∧ (∃ y, t.se.staged = some y ∧ y.mark = x.mark ∧ y.req = x.req ∧ y.bytes = x.bytes)
      ∧ ((s.streamHead 0).next = x.mark + 1 → s.reamsOf 0 ≠ [] → (∃ y, t.se.staged = some y ∧ y.delivered = true) ∧ t.se.retry = false)
      ∧ Keeps s t (onPages [0x09, 0x0A, 0x16, 0x17, 0x19, 0x30 + x.req.outlet]) [2, 3 + x.req.outlet, 38, x.req.ring]
          [.fresh, .se, .legal, .nv, .outlets, .rcm] := by
  let v : State := { s with se := { s.se with retry := false } }
  have hexec : exec .appendRetry s = done (v.appendStaged x) := by
    rw [exec_appendRetry s h hx, if_pos ⟨hretry, hdelivered, hwarn⟩]
  have hv : Keeps s v (among []) [] [.se] := (Keeps.refl s _ _ _).withSe _ (by simp)
  have hsteps := State.appendStaged_steps (s := v) hx hk
  rw [hexec]
  refine ⟨_, rfl, hsteps.watermark, hsteps.queue, hsteps.staged, fun hnext hreams => ?_,
    ((hv.mono (by simp) (by simp) (by simp)).trans hsteps.keeps).settle⟩
  have hdone := State.markAppended_delivered (s := v) hx hk
  rw [← State.appendStaged_had (s := v) hnext hreams] at hdone
  exact hdone

theorem exec_appendRetry_none (s : State) (h : s.runs = true)
    (hnone : ∀ x, s.se.staged = some x → s.se.retry = false ∨ x.delivered = true ∨ s.pf.warned = true) :
    Ends (exec .appendRetry s) fun t => Keeps s t (among []) [] [] := by
  have hexec : exec .appendRetry s = done s := by
    cases hx : s.se.staged with
    | none => rw [show exec .appendRetry s = execAppendRetry s from rfl, execAppendRetry, State.onFabric_runs _ _ h, hx]
    | some x =>
      rw [exec_appendRetry s h hx, if_neg]
      rintro ⟨hretry, hdelivered, hwarn⟩
      simpa [hretry, hdelivered, hwarn] using hnone x hx
  rw [hexec]
  exact ⟨_, rfl, (Keeps.refl s _ _ _).settle⟩

/-- Settles O41, clause by clause. -/
theorem sessionTimersAndSigning : Obligations.SessionTimersAndSigning :=
  ⟨⟨exec_decideTimeout_ends, exec_decideTimeout_none, exec_plugTimeout, exec_endTimeout, exec_secondTick_ends, exec_meterPeriodDue_asks,
      exec_meterPeriodDue_keyless, exec_meterPeriodDue_off, exec_progressTick_none, exec_progressTick_first⟩,
    exec_signatureDone_signs, exec_signatureDone_none, exec_appendRetry_tries, exec_appendRetry_none⟩

end Sys2Proof.Machine
